-- ==== Sys2Proof/Word.lean ====
section
/-! DEFINITION. The plain number and byte types of the model. -/

namespace Sys2Proof

/-- One byte. -/
abbrev Byte := BitVec 8

end Sys2Proof
end

