-- ==== Sys2Proof/Syntax.lean ====
section
/-! DEFINITION. The commands of spec/opcode_table.json, one constructor of `Instr` per row, with the operands that
whatever is outside the module supplies: the fields of a message, the bytes of a descriptor, the codes a converter
returned, the time on the device's clock. -/

namespace Sys2Proof

/-! ## Requests of the object dictionary (R49, R51, R55) -/

/-- The four access paths of R55. -/
inductive Path where
  | portA | portB | mgmt | fabric
  deriving DecidableEq, Repr

/-- Who sent a request: the path, and on the paths of the ports the function, 0 for the physical function and n for
virtual function n (R58, R413). -/
structure Origin where
  path : Path
  fn : Nat
  deriving DecidableEq, Repr

/-- A request (R49). `flags` and `rsv7` are bytes 3 and 7, `tenantHi` is bits [15:10] of bytes 9:8; the payload's
length is LENGTH. -/
structure Req where
  origin : Origin
  tag : Nat
  target : Nat
  flags : Nat
  index : Nat
  sub : Nat
  rsv7 : Nat
  tenant : Nat
  tenantHi : Nat
  arg : Nat
  payload : List Byte
  deriving DecidableEq, Repr

/-- A function's dictionary window: port 0 or 1, function 0 (physical) or n (R59). -/
structure FnWin where
  port : Nat
  fn : Nat
  deriving DecidableEq, Repr

/-! ## Data held in program buffers (R145, R153, R193, R213) -/

/-- A block of 32 elements: B8 or B4, the exponent field, and the codes; `none` is NaV (R145, R146). -/
structure Blk where
  b8 : Bool
  field : Nat
  codes : List (Option Int)
  deriving DecidableEq, Repr

/-- A candidate record of HEAD (R213): the range maximum and S as FP32 words, and the token and FP32 logit pairs. -/
structure CandRec where
  zMax : Nat
  s : Nat
  cands : List (Nat × Nat)
  poison : Bool
  deriving DecidableEq, Repr

/-- One vector of a buffer: block form, words of a floating or integer format (by its code of R193; `none` is a word
that carries the poison bit), a candidate record, a route (expert, FP16 weight), or a token mask (bytes). -/
inductive Vec where
  | blocks (bs : List Blk)
  | words (fmt : Nat) (ws : List (Option Nat))
  | cand (c : CandRec)
  | route (es : List (Nat × Nat))
  | mask (bits : List Byte) (poison : Bool)
  deriving DecidableEq, Repr

/-! ## Layer program ops (R194, R199 to R215) -/

/-- A 64-bit SRAM word of a source in which its SECDED code finds an error when the op reads it: the source, its vector, an element in the
word, and whether two bits are in error (R15). -/
structure SramError where
  src : Nat
  vec : Nat
  element : Nat
  double : Bool
  deriving DecidableEq, Repr

/-- What names an op instance and its buffers: slot, the op's index in the program, micro-batch, layer, core set,
destination and sources (R194, R196). `recordOk` is false when the op record failed SECDED or its CRC at this fetch (R217); `sram` are the
errors in the words it reads. -/
structure OpCtx where
  slot : Nat
  seq : Nat
  m : Nat
  layer : Nat
  coreset : Nat
  dst : Nat
  src0 : Nat
  src1 : Nat
  src2 : Nat
  recordOk : Bool
  sram : List SramError
  deriving DecidableEq, Repr

/-- Arguments of CIM_MVM and CIM_MVMT (R199, R201). -/
structure CimArgs where
  slice : Nat
  fscB4 : Nat
  fscWide : Nat
  outFmt : Nat
  wideLayer : Bool
  deltas : Bool
  accumulate : Bool
  checkTol : Nat
  deltaLayer : Nat
  deriving DecidableEq, Repr

/-- Arguments of REDUCE and GATHER (R203). -/
structure CollArgs where
  set : Nat
  kind : Nat
  oper : Nat
  fmt : Nat
  edge : Nat
  elements : Nat
  deriving DecidableEq, Repr

/-- Arguments of NORM (R206). -/
structure NormArgs where
  kind : Nat
  eps : Nat
  outFmt : Nat
  set : Nat
  deriving DecidableEq, Repr

/-- Arguments of ACT (R206). -/
structure ActArgs where
  func : Nat
  combine : Nat
  outFmt : Nat
  scale : Nat
  deriving DecidableEq, Repr

/-- Arguments of ROPE (R206). -/
structure RopeArgs where
  headDim : Nat
  rotDims : Nat
  base : Nat
  layout : Nat
  pos : Nat
  deriving DecidableEq, Repr

/-- Arguments of ATTN (R208); `seeds` are the seeds of the vectors' requests, which the draws for KV are keyed by and the lane record does
not carry (R163, R297). -/
structure AttnArgs where
  qHeads : Nat
  kvHeads : Nat
  headDim : Nat
  kvFmt : Nat
  mask : Nat
  window : Nat
  scale : Nat
  shards : Nat
  keep : Bool
  set : Nat
  seeds : List Nat
  deriving DecidableEq, Repr

/-- Arguments of ROUTE (R210). -/
structure RouteArgs where
  experts : Nat
  topK : Nat
  weighting : Nat
  capacity : Nat
  deriving DecidableEq, Repr

/-- Arguments of EXPERT (R210). -/
structure ExpertArgs where
  sliceBase : Nat
  cim : CimArgs
  stage : Nat
  deltaBase : Nat
  capacity : Nat
  deriving DecidableEq, Repr

/-- Arguments of EMBED (R212). -/
structure EmbedArgs where
  vocab : Nat
  outFmt : Nat
  deriving DecidableEq, Repr

/-- Arguments of PATCH (R212). -/
structure PatchArgs where
  side : Nat
  bands : Nat
  width : Nat
  height : Nat
  order : Nat
  window : Nat
  outFmt : Nat
  deriving DecidableEq, Repr

/-- Arguments of HEAD (R212). -/
structure HeadArgs where
  vocabBase : Nat
  vocabCount : Nat
  mode : Nat
  candN : Nat
  deriving DecidableEq, Repr

/-- Arguments of CONVERT (R214); `seeds` as in ATTN. -/
structure ConvertArgs where
  outFmt : Nat
  stochastic : Bool
  seeds : List Nat
  deriving DecidableEq, Repr

/-- Arguments of COPY (R214). -/
structure CopyArgs where
  elements : Nat
  srcOffset : Nat
  dstOffset : Nat
  deriving DecidableEq, Repr

/-- Arguments of BARRIER (R214). -/
structure BarrierArgs where
  scope : Nat
  set : Nat
  barrierId : Nat
  deriving DecidableEq, Repr

/-! ## Networks on the die (R22, R27) -/

/-- What a transfer starts or ends at (R9, R11, R12): a core, the shared SRAM of a cluster at one of the cluster's stops, a memory stack at
the first or second column of its controller, and through the edge router of their half, in some row, a Heddle link or a host port. -/
inductive MeshEnd where
  | core (c : Nat)
  | sram (row col : Nat)
  | stack (n : Nat) (second : Bool)
  | link (l row : Nat)
  | port (p row : Nat)
  deriving DecidableEq, Repr

/-- A bulk-mesh transfer between two ends, its flow tag, its class (0 reduction, 1 activation, 2 memory), its payload bytes and how
many of its flits carry poison (R22 to R25). -/
structure MeshTransfer where
  src : MeshEnd
  dst : MeshEnd
  flowTag : Nat
  cls : Nat
  bytes : Nat
  poisonFlits : Nat
  deriving DecidableEq, Repr

/-- A Selvedge message: source stop, and its first word, which names the destination stop (`none` for broadcast) and the class (0 fault
notices, 1 barriers, 2 step descriptors, 3 events, 4 dictionary messages) in a layout the spec does not give; the words after it, at most
seven; when its source had it to send, and the latency from its injection (R27 to R31). Assumption log 111, DESIGN CHOICE. -/
structure SelvedgeMsg where
  src : Nat
  dst : Option Nat
  cls : Nat
  words : List Nat
  atNs : Nat
  latencyNs : Nat
  deriving DecidableEq, Repr

/-! ## Engines (R97, R132) -/

/-- What one conversion window returned for one pair: its code and saturation flag (R85). -/
structure PairCode where
  pair : Nat
  code : Int
  sat : Bool
  deriving DecidableEq, Repr

/-- The end of a facet's conversion window: the codes of the pairs (absent pairs gave 0), the sentinel codes of CHK0-7 and REF0-7
(R97, R101), and the codes of the slice position out of service by cycle 0 to 15, or by reference pair 0 to 7 in a window in which it
converts those (R230). -/
structure WindowEnd where
  engine : Nat
  facet : Nat
  codes : List PairCode
  chk : List Int
  ref : List Int
  shadow : List PairCode
  deriving DecidableEq, Repr

/-- The return of the golden read of a clamped pair (or row, in a transposed MVM), clean or poisoned (R132, R134). -/
structure GoldenReturn where
  engine : Nat
  facet : Nat
  pair : Nat
  poison : Bool
  deriving DecidableEq, Repr

/-! ## Fabric messages (R295, R299, R387, R403) -/

/-- STEP_HEAD (R295). -/
structure StepHead where
  step : Nat
  epoch : Nat
  kind : Nat
  slots : Nat
  m : Nat
  lanes : Nat
  variants : Nat
  vectors : Nat
  pageOps : Nat
  bodyLength : Nat
  bodyCrc : Nat
  estimateUs : Nat
  deriving DecidableEq, Repr

/-- A lane record of STEP_RESULT (R299); `loss` is bytes 15:12, used by TUNE steps (R367). -/
structure LaneResult where
  numeric : Nat
  poison : Bool
  facetFault : Bool
  mvms : Nat
  wideMvms : Nat
  loss : Nat
  deriving DecidableEq, Repr

/-- A STEP_RESULT part (R299) and the device it came from. -/
structure StepResult where
  src : Nat
  step : Nat
  dieUs : Nat
  engineMhz : Nat
  seamGbs : Nat
  workers : Nat
  lanes : List LaneResult
  deriving DecidableEq, Repr

/-- The drafts of one lane: tokens (`none` empty) and the draft probabilities as FP16 words (R193, R314). -/
structure LaneDrafts where
  tokens : List (Option Nat)
  probs : List Nat
  deriving DecidableEq, Repr

/-- A part of a REDUCE or GATHER on the wire: the instance it belongs to and the data (R395 to R397). -/
structure CollPart where
  src : Nat
  step : Nat
  slot : Nat
  seq : Nat
  m : Nat
  segment : Nat
  poison : Bool
  data : List Vec
  deriving DecidableEq, Repr

/-- A fault notice (R403). -/
structure Notice where
  epoch : Nat
  cause : Nat
  device : Nat
  link : Nat
  src : Nat
  deriving DecidableEq, Repr

/-- The identity record of R378 with the slot kinds and links of R389. `kinds` is 0 none, 1 main, 2 draft; `kvPages` and
`reserveBytes` are the device's page pool and delta reserve, which the manager takes the smallest of (R305, R352). -/
structure Identity where
  serial : Nat
  role : Nat
  deviceId : Nat
  epoch : Nat
  groupState : Nat
  link : Nat
  grade : Nat
  kinds : Nat
  kvPages : Nat
  reserveBytes : Nat
  partners : List (Nat × Nat × Nat)
  deriving DecidableEq, Repr

/-- MEMBERSHIP (R389, R392, R393): the member's ID and role, the epoch, the members, its parent, children, depth,
its routes (device, link west, link east, hops), and the links to other members. -/
structure Membership where
  epoch : Nat
  deviceId : Nat
  role : Nat
  members : List Nat
  workers : Nat
  parent : Nat
  children : List Nat
  depth : Nat
  routes : List (Nat × Nat × Nat × Nat)
  memberLinks : List Nat
  topology : List Byte
  deriving DecidableEq, Repr

/-- A manager order (R387): what the manager asks of a member. -/
inductive OrderKind where
  | pause (slot : Nat) (budgetNs : Int)
  | drain (slot : Nat)
  | drainComplete (slot kind : Nat)
  | deltaLoad (slot variant tenant windowOffset length : Nat) (file : List Byte) (poison : Bool)
  | deltaInstall (slot variant version handle : Nat)
  | deltaDrop (slot variant handle : Nat)
  | tuneSetup (job slot variant base work seed lr decay windowSteps : Nat)
  | tunePublish (work slot variant version handle : Nat)
  | tuneEnd (job : Nat)
  | power (state : Nat)
  | dissolve
  deriving DecidableEq, Repr

/-- A member's report on an order (R357, R553). A checked delta file reports its result code, the largest die part of its
manifest and the value entries of this die's part. -/
inductive ReportKind where
  | deltaChecked (slot variant result largest values : Nat)
  | coresRestored
  | pauseAsked (slot facets : Nat)
  | slotState (slot state dieIndex boltId version dies positions vocab kind : Nat) (program shape dieSets : List Byte)
  | setPoisoned (handle : Nat)
  deriving DecidableEq, Repr

/-- A record of the fault or event log (R501), without the fields the recording device adds. -/
structure RecordIn where
  device : Nat
  severity : Nat
  code : Nat
  unitKind : Nat
  slot : Nat
  unit : Nat
  tenant : Nat
  detail : Nat
  deriving DecidableEq, Repr

/-- The 80-byte sweep record of R507. -/
structure SweepRec where
  core : Nat
  slot : Nat
  result : Nat
  powered : Nat
  dieIndex : Nat
  digest : List Byte
  deriving DecidableEq, Repr

/-! ## Link layer (R379 to R383) -/

/-- A flit as received: virtual lane, sequence number, ACK, returned credits, poison, and whether its CRC was good. -/
structure Flit where
  vl : Nat
  som : Bool
  eom : Bool
  poison : Bool
  seq : Nat
  ack : Nat
  crVl : Nat
  crCnt : Nat
  crcOk : Bool
  deriving DecidableEq, Repr

/-! ## Results of internal work -/

/-- The array whose slice position out of service has gathered its samples (R230). -/
structure SliceCal where
  array : Nat
  deriving DecidableEq, Repr

/-- A cell whose level is not its target: a data level 0 to 7 in physical columns 0 to 1,023, a fine level 0 to 63 in the sentinel columns
1,024 to 1,055 (R76, R77, R79). -/
structure CellOff where
  row : Nat
  col : Nat
  level : Nat
  deriving DecidableEq, Repr

/-- A phase of a calibration MVM: its packer sums and the codes of REF0-7 (R103, R237). -/
structure CalPhase where
  sum1 : Int
  sumAlt : Int
  ref : List Int
  deriving DecidableEq, Repr

/-- The end of an attempt of program-and-verify of an array (R253): whether every row came inside its window, the cells that the final
read finds at another level than their target, and the calibration phases that seed it (R237). For a re-verification, the cells that the
read-back finds (R269). -/
structure ProgramResult where
  array : Nat
  rowsOk : Bool
  off : List CellOff
  samples : List CalPhase
  deriving DecidableEq, Repr

/-- A shadow sample whose golden record has been read (R483), clean or poisoned. -/
structure ShadowJudged where
  engine : Nat
  facet : Nat
  poison : Bool
  deriving DecidableEq, Repr

/-- An arbitration whose golden bytes have been read (R484), clean or poisoned. -/
structure ArbitrationIn where
  engine : Nat
  facet : Nat
  group : Nat
  poison : Bool
  deriving DecidableEq, Repr

/-- What a sweep's read-back of a facet group meets (R489): cells of its arrays found at another level than the model holds, and MVMs that
waited on a row read. -/
structure SweepRead where
  core : Nat
  slot : Nat
  off : List (Nat × CellOff)
  waits : Nat
  deriving DecidableEq, Repr

/-- A variant as mirrored (R405). -/
structure MirrorVariant where
  slot : Nat
  id : Nat
  owner : Nat
  pinned : Bool
  next : Nat
  unloaded : Bool
  deriving DecidableEq, Repr

/-- A delta set as mirrored (R405). -/
structure MirrorSet where
  handle : Nat
  slot : Nat
  variant : Nat
  version : Nat
  state : Nat
  ready : Bool
  bytes : Nat
  values : Nat
  lastUsed : Nat
  owner : Nat
  deriving DecidableEq, Repr

/-- A grammar as mirrored (R405). -/
structure MirrorGrammar where
  serial : Nat
  owner : Nat
  id : Nat
  installed : Bool
  bad : Bool
  image : List Byte
  deriving DecidableEq, Repr

/-- An object's value as mirrored (R405). -/
structure MirrorObj where
  index : Nat
  sub : Nat
  tenant : Nat
  value : Nat
  deriving DecidableEq, Repr

/-- What the manager mirrors to the standby after a commit (R405): changed entries (index and 128 bytes), the variant registry, the
grammar store, SLOT_ADMISSION, and the class S and T objects of 0x6000 to 0x7FFF. -/
structure MirrorMsg where
  entries : List (Nat × List Byte)
  variants : List MirrorVariant
  sets : List MirrorSet
  grammars : List MirrorGrammar
  admission : List Nat
  objects : List MirrorObj
  deriving DecidableEq, Repr

/-- How a prompt fetch ended (R426). -/
inductive FetchEnd where
  | ok (tokens : List Nat)
  | error
  | poisoned
  deriving DecidableEq, Repr

/-- One command: a row of spec/opcode_table.json with its operands. -/
inductive Instr where
  -- 02: the dictionary
  | read (r : Req)
  | write (r : Req)
  | describe (r : Req)
  | next (r : Req)
  | go (w : FnWin) (ctrl : Nat) (hdr payload : List Byte)
  | abandon (w : FnWin)
  | doneClear (w : FnWin)
  | segOpenRead (r : Req)
  | segOpenWrite (r : Req)
  | segRead (r : Req)
  | segWrite (r : Req)
  | segCommit (r : Req)
  | segAbort (r : Req)
  | classPWriteDurable (index sub : Nat) (stored : Bool)
  | sessionIdleExpiry (handle : Nat)
  | cmdAbort (r : Req)
  | restoreDefaults (r : Req)
  | rangeOwner (r : Req)
  -- 01: networks
  | bulkMeshTransfer (t : MeshTransfer)
  | selvedgeMessage (m : SelvedgeMsg)
  -- 03, 04, 06: engines and ops
  | cimMvm (c : OpCtx) (a : CimArgs)
  | cimMvmt (c : OpCtx) (a : CimArgs)
  | engineMvmStart (engine : Nat) (ecc : List (Nat × Bool))
  | phaseWindowEnd (w : WindowEnd)
  | goldenReadReturn (g : GoldenReturn)
  | recomputeComplete (engine : Nat)
  | epilogue (engine : Nat)
  | reduce (c : OpCtx) (a : CollArgs)
  | gather (c : OpCtx) (a : CollArgs)
  | norm (c : OpCtx) (a : NormArgs)
  | act (c : OpCtx) (a : ActArgs)
  | rope (c : OpCtx) (a : RopeArgs)
  | attn (c : OpCtx) (a : AttnArgs)
  | route (c : OpCtx) (a : RouteArgs)
  | expert (c : OpCtx) (a : ExpertArgs)
  | embed (c : OpCtx) (a : EmbedArgs)
  | patch (c : OpCtx) (a : PatchArgs)
  | head (c : OpCtx) (a : HeadArgs)
  | convert (c : OpCtx) (a : ConvertArgs)
  | copy (c : OpCtx) (a : CopyArgs)
  | barrier (c : OpCtx) (a : BarrierArgs)
  | draft (c : OpCtx) (draftSlot kMax : Nat) (heads : List (List CandRec))
  | mask (c : OpCtx) (set ns : Nat) (poisoned : List Nat)
  | sample (c : OpCtx) (out : Nat)
  | dieStepEnd (dieUs : Nat)
  -- 07: calibration, drift, lifetime
  | sliceCalibrationComplete (x : SliceCal)
  | sliceAdjustStep (array pos : Nat)
  | sentinelConverterCal (array : Nat)
  | rowSideCal (array : Nat)
  | trimApply (array : Nat) (badPoints : List Nat)
  | calibrationMvm (array : Nat) (sum1 sumAlt : Int) (ref : List Int)
  | baselineRecord (array : Nat)
  | ageTick
  | lifetimeSave
  | calendarStamp (r : Req)
  | histogramMinute
  | trimRead (r : Req)
  | refreshFacet (r : Req)
  | layerCountsClear (r : Req)
  -- 08: residency
  | loadStart (r : Req)
  | loadSectionArrival (ty die : Nat) (bytes : List Byte) (poison : Bool)
  | reattachReadbackDone (digests : List (Nat × List Byte))
  | facetProgramStart (array : Nat)
  | facetProgramDone (x : ProgramResult)
  | slotRelease (r : Req)
  | replaceSlot (r : Req)
  | drainDeadline (slot nowUs : Nat)
  | inPlaceRefresh (facets : List Nat)
  -- 09: serving
  | submit (tenant : Nat) (desc : List Byte) (poisoned : Bool) (nowUs : Nat)
  | cancel (tenant : Nat) (desc : List Byte) (poisoned : Bool) (nowUs : Nat)
  | promptFetchDone (entry : Nat) (fetched : FetchEnd) (nowUs : Nat)
  | idleBoundary (nowUs : Nat)
  | commit (nowUs : Nat)
  | requestCancel (r : Req)
  | requestHold (r : Req)
  | requestResume (r : Req)
  | requestRelease (r : Req)
  | stepBody (bytes : List Byte)
  | stepHead (h : StepHead)
  | bodyTimeout
  | bodyResend (worker : Nat)
  | drafts (lanes : List LaneDrafts)
  | masks (slot : Nat) (rows : List (Nat × Nat × List Byte)) (poison : Bool)
  | gatherPart (p : CollPart)
  | accept (words : List Nat)
  | stepResult (x : StepResult)
  | reducePart (p : CollPart) (fmt oper kind : Nat)
  | reduceResult (p : CollPart)
  | barrierMessage (scope barrierId src : Nat) (release : Bool)
  | heartbeatTimer
  | heartbeat (src budgetNs : Nat)
  | heartbeatAck (src workers : Nat)
  | stepResultTimeout
  -- 10, 11: variants, tuning, grammars
  | deltaFetchDone (core : Nat) (slot seq m : Nat) (bytes : Nat) (waitNs : Nat) (fills : Nat) (poison : List Nat)
  | variantLoad (r : Req)
  | variantUnload (r : Req)
  | variantPin (r : Req)
  | tuneStart (r : Req)
  | grammarImage (r : Req)
  | globalGrammarImage (r : Req)
  | grammarDelete (r : Req)
  | globalGrammarDelete (r : Req)
  -- 12: links and groups
  | linkTrainingDone (link : Nat) (locked : Nat) (partner : Option Identity) (latencyNs : Nat) (reversed : Bool)
  | linkRetrainTimer (link : Nat)
  | linkEnable (r : Req)
  | laneLockLoss (link lane : Nat)
  | flitTimeout (link : Nat)
  | dataFlit (link : Nat) (f : Flit)
  | nullFlit (link : Nat) (f : Flit)
  | nak (link ack : Nat)
  | linkLatencyMeasure (link latencyNs : Nat)
  | faultNotice (n : Notice)
  | loadData (link ty die : Nat) (bytes : List Byte) (poison : Bool)
  | dictRequest (op : Nat) (r : Req)
  | dictResponse (op tag src status detail : Nat) (payload : List Byte)
  | probe (src link epoch : Nat)
  | probeReply (x : Identity) (link : Nat)
  | membership (x : Membership)
  | order (o : OrderKind)
  | mirror (x : MirrorMsg)
  | managerTimeout (workersHearManager : Bool)
  | groupForm (r : Req)
  | groupDissolve (r : Req)
  | mirrorRelease (r : Req)
  | throttleStateChange (worker : Nat) (requesting : Bool)
  | forwardedRecord (x : RecordIn)
  -- 13: host ports
  | portReset (port kind : Nat)
  | perstRelease (port : Nat)
  | functionLevelReset (port fn : Nat)
  | vfEnableChange (port count : Nat)
  | unmappedAccess (isRead : Bool)
  | windowEdit (r : Req)
  | windowZeroingDone (base : Nat)
  | ringEnable (r : Req)
  | cqHead (tenant value : Nat)
  | cqIrqTimer (tenant : Nat)
  | attention (r : Req)
  | attentionMask (r : Req)
  | tenantAttention (r : Req)
  -- 14: DMA
  | dmaAssign (r : Req)
  | dmaGo (r : Req)
  | dmaSlotStart (channel : Nat) (hostBytes : List Byte) (poisonBytes : List Nat)
  | dmaHalf (channel : Nat)
  | dmaSlotEnd (channel : Nat)
  | hostReadError (channel written : Nat)
  -- 15: memory
  | scrubRead (stack : Nat) (address : Nat) (syn : List Byte) (passEnd : Bool) (perMille : Nat)
  | scrubNow (r : Req)
  | refreshBandChange (stack : Nat)
  -- 16: reliability
  | shadowSampleJudged (x : ShadowJudged)
  | arbitration (x : ArbitrationIn)
  | arbTimeout (engine facet group : Nat)
  | sweep (reads : List SweepRead)
  | sweepNow (r : Req)
  | testDue (core : Nat)
  | testComplete (core : Nat) (failed : List Nat) (spare rowsDiffering : Nat)
  | testNow (r : Req)
  | testOverdue (core : Nat)
  | coreRecoveryReset (core trigger : Nat)
  -- 17: power and heat
  | powerSample (mw mv ma : Nat)
  | governorDecision
  | powerCapW (r : Req)
  | thermalCrossing (domain : Nat) (temp16 : Int) (byStack : Bool)
  | graceExpiry (domain : Nat)
  | skipStepTick (domain : Nat)
  | divideAfterExpiry (domain : Nat)
  | thermalShutdown (channel : Nat)
  | supplyFault (cause : Nat)
  | islandStop (island : Nat) (gate : Bool)
  | islandDrainComplete (island drainUs : Nat)
  | islandRestart (island : Nat)
  -- 18: housekeeping
  | hkRound (half : Nat) (late : Bool)
  | hkConversion (half entry : Nat) (value : Int)
  | urgentConversion (half channel sample gain requestNs : Nat)
  | urgentResult (half : Nat) (value : Int) (resultNs : Nat)
  | calSwap (half : Nat) (offsetLsb : Int) (gainPpm : Int)
  | sequence (r : Req)
  | roundUs (r : Req)
  | minmaxReset (r : Req)
  -- 19, 20: reset, boot, power states, security, supply
  | coldStart (mv : Nat)
  | bootStageEnd (ok : Bool) (tookMs : Nat)
  | deviceReset (r : Req)
  | resetWindowExpiry
  | powerStateRequest (r : Req)
  | groupPower (r : Req)
  | l1IdleExpiry
  | l1Exit
  | firmwareImage (r : Req)
  | firmwareActivate (r : Req)
  | ownerKeys (r : Req)
  | ownerUnlock (r : Req)
  | keyLock (r : Req)
  | getVersion (path : Path)
  | getCapabilities (path : Path)
  | negotiateAlgorithms (path : Path) (asym hash : List Nat)
  | getDigests (path : Path)
  | getCertificate (path : Path) (slot offset length : Nat)
  | challenge (path : Path) (slot : Nat) (nonce : List Byte)
  | getMeasurements (path : Path) (index : Nat) (signed : Bool) (nonce : List Byte)
  | vinDrop (mv : Nat)
  | vinRemoved
  | cableInsert (connector : Nat)
  | cableRemove (connector : Nat)
  | dynamicAddressAssignment (address : Nat)
  | firmwareFault
  | linkUp (port speed width : Nat) (flit : Bool)
  | orderReport (worker : Nat) (x : ReportKind)
  | sweepRecords (worker : Nat) (records : List SweepRec)
  deriving DecidableEq, Repr

end Sys2Proof
end

