-- ==== Sys2Proof/Machine/Bits.lean ====
section
/-! DEFINITION. Bit fields, byte order, sign, and the check codes the spec names (R6, R379, R194). -/

namespace Sys2Proof.Machine

/-- Bits [hi:lo] of a number (R6). -/
def field (w hi lo : Nat) : Nat := (w / 2 ^ lo) % 2 ^ (hi + 1 - lo)

/-- Bit i of a number. -/
def bitAt (w i : Nat) : Bool := (w / 2 ^ i) % 2 = 1

/-- A truth value as a bit. -/
def bit (b : Bool) : Nat := if b then 1 else 0

/-- A number with bit i set. -/
def setBit (w i : Nat) : Nat := if bitAt w i then w else w + 2 ^ i

/-- A number with bit i clear. -/
def clearBit (w i : Nat) : Nat := if bitAt w i then w - 2 ^ i else w

/-- The bits of `w` that are not bits of `m`, for words of 32 bits (a W1C write, R45). -/
def clearMask (w m : Nat) : Nat := w - (w &&& m)

/-- The little-endian bytes of a number (R6). -/
def toLE : Nat → Nat → List Byte
  | 0, _ => []
  | n + 1, v => BitVec.ofNat 8 v :: toLE n (v / 256)

/-- The number that little-endian bytes spell (R6). -/
def ofLE : List Byte → Nat
  | [] => 0
  | b :: bs => b.toNat + 256 * ofLE bs

/-- `len` bytes at an offset; bytes past the end are absent. -/
def slice (bs : List Byte) (off len : Nat) : List Byte := (bs.drop off).take len

/-- The little-endian number in bytes [off, off + len). -/
def leAt (bs : List Byte) (off len : Nat) : Nat := ofLE (slice bs off len)

/-- A number read as two's complement of `w` bits. -/
def signed (w v : Nat) : Int :=
  if v % 2 ^ w < 2 ^ (w - 1) then (v % 2 ^ w : Nat) else ((v % 2 ^ w : Nat) : Int) - (2 ^ w : Nat)

/-- The two's complement word of `w` bits of an integer. -/
def unsigned (w : Nat) (v : Int) : Nat := (v % ((2 ^ w : Nat) : Int)).toNat

/-- Clamp an integer to a range. -/
def clampInt (lo hi v : Int) : Int := max lo (min hi v)

/-- The smaller of a counter plus n and the largest value a register of `w` bits holds. -/
def satAdd (w v n : Nat) : Nat := min (v + n) (2 ^ w - 1)

/-- Integer division rounded half to even. -/
def divHalfEven (n : Int) (d : Nat) : Int :=
  let q := n / (d : Int)
  let r := (n % (d : Int)).toNat
  if 2 * r < d then q else if d < 2 * r then q + 1 else if q % 2 = 0 then q else q + 1

/-- A rational rounded to the nearest integer, half to even. -/
def roundHalfEven (x : Rat) : Int := divHalfEven x.num x.den

/-- One bit of a cyclic redundancy check with the register kept to `w` bits, most significant bit first. -/
def crcBit (w poly crc : Nat) (b : Bool) : Nat :=
  let top := bitAt crc (w - 1)
  let sh := (crc * 2) % 2 ^ w
  if top != b then sh ^^^ poly else sh

/-- The bits of a byte, most significant first. -/
def bitsMsb (b : Byte) : List Bool := (List.range 8).map (fun i => bitAt b.toNat (7 - i))

/-- CRC-16/CCITT-FALSE: polynomial 0x1021, initial 0xFFFF, no reflection, no final XOR. -/
def crc16 (bs : List Byte) : Nat :=
  (bs.flatMap bitsMsb).foldl (crcBit 16 0x1021) 0xFFFF

/-- One byte of a reflected CRC of 32 bits. -/
def crcReflByte (poly crc : Nat) (b : Byte) : Nat :=
  (List.range 8).foldl (fun c _ => if c % 2 = 1 then (c / 2) ^^^ poly else c / 2) (crc ^^^ b.toNat)

/-- CRC-32 (reflected, polynomial 0x04C11DB7, initial and final all ones). -/
def crc32 (bs : List Byte) : Nat := bs.foldl (crcReflByte 0xEDB88320) 0xFFFFFFFF ^^^ 0xFFFFFFFF


/-! ## Association lists kept without repeats -/

/-- The value at a key, or the default. -/
def look {κ α : Type} [DecidableEq κ] (d : α) : List (κ × α) → κ → α
  | [], _ => d
  | (k', v) :: l, k => if k' = k then v else look d l k

/-- Replace the value at a key, or add the pair at the end. -/
def put {κ α : Type} [DecidableEq κ] : List (κ × α) → κ → α → List (κ × α)
  | [], k, v => [(k, v)]
  | (k', v') :: l, k, v => if k' = k then (k, v) :: l else (k', v') :: put l k v

/-- Remove a key. -/
def drop1 {κ α : Type} [DecidableEq κ] (l : List (κ × α)) (k : κ) : List (κ × α) :=
  l.filter (fun p => decide (p.1 ≠ k))

/-- The element at a position, or the default. -/
def nth {α : Type} (d : α) (l : List α) (i : Nat) : α := l.getD i d

/-- Change the element at a position. -/
def modNth {α : Type} (l : List α) (i : Nat) (f : α → α) : List α :=
  l.modify i f

/-- Replace the element at a position; a list that ends before it is filled up with the default. -/
def setAt {α : Type} (d : α) : List α → Nat → α → List α
  | [], 0, x => [x]
  | [], n + 1, x => d :: setAt d [] n x
  | _ :: l, 0, x => x :: l
  | a :: l, n + 1, x => a :: setAt d l n x

/-- A number put into an ascending list, and a list in ascending order. -/
def insertAsc (x : Nat) : List Nat → List Nat
  | [] => [x]
  | y :: l => if x ≤ y then x :: y :: l else y :: insertAsc x l

def sortAsc (l : List Nat) : List Nat := l.foldr insertAsc []

/-- Insert by ascending key, before what has a larger one; equal keys keep their order when inserted from the right. -/
def insertOn {α : Type} (key : α → Nat) (x : α) : List α → List α
  | [] => [x]
  | y :: l => if key x ≤ key y then x :: y :: l else y :: insertOn key x l

/-- A list by ascending key, equal keys in their order. -/
def sortOn {α : Type} (key : α → Nat) (l : List α) : List α := l.foldr (insertOn key) []

/-- The ASCII bytes of a text. -/
def ascii (text : String) : List Byte := text.toList.map (fun c => BitVec.ofNat 8 c.toNat)

/-- The sum of a list of numbers. -/
def sumNat (l : List Nat) : Nat := l.foldl (· + ·) 0

/-- The largest of a list of numbers, 0 for the empty list. -/
def maxNat (l : List Nat) : Nat := l.foldl max 0

end Sys2Proof.Machine
end

