-- ==== Sys2Proof/Machine/Formats.lean ====
section
/-! DEFINITION. Number formats and rounding: block formats, floating formats, encoding, alignment and the
stochastic-rounding generator (R145 to R163). Values are exact rationals. -/

namespace Sys2Proof.Machine

/-! ## Powers of two and rounding -/

/-- 2 to an integer power. -/
def pow2 (e : Int) : Rat := if 0 ≤ e then ((2 ^ e.toNat : Nat) : Rat) else 1 / ((2 ^ (-e).toNat : Nat) : Rat)

/-- The magnitude of a rational. -/
def absRat (x : Rat) : Rat := if x < 0 then -x else x

/-- The integer e with 2^e ≤ a < 2^(e+1), for a positive a. -/
def floorLog2 (a : Rat) : Int :=
  let e : Int := (Nat.log2 a.num.natAbs : Int) - (Nat.log2 a.den : Int)
  if a < pow2 e then e - 1 else if a < pow2 (e + 1) then e else e + 1

/-- A rational rounded up. -/
def ceilRat (x : Rat) : Int := -((-x).floor)

/-- A rounding mode: nearest even, or stochastic with the 24-bit draw (R161, R162). -/
inductive Rounding where
  | nearest
  | draw (k : Nat)
  deriving DecidableEq, Repr

/-- Round to an integer in a mode; whether a draw was consumed (R162). -/
def Rounding.round (m : Rounding) (x : Rat) : Int × Bool :=
  match m with
  | .nearest => (roundHalfEven x, false)
  | .draw k =>
    let lo := x.floor
    if (lo : Rat) = x then (lo, false)
    else (if (k : Rat) / 16777216 < x - (lo : Rat) then lo + 1 else lo, true)

/-! ## The generator (R163) -/

/-- One round of the generator's function. -/
def srRound (p : Nat × Nat) : Nat × Nat :=
  let z := (p.1 + p.2) % 2 ^ 64
  let z := z ^^^ (z / 2 ^ 29)
  let z := z * 0xA3C59B174E2D6F81 % 2 ^ 64
  (z, (p.2 * 0x6C8E9CF570932B5D + 1) % 2 ^ 64)

/-- The 24-bit draw for a seed, stream, step, layer and element. -/
def srDraw (seed stream step layer element : Nat) : Nat :=
  let keyHi := seed ^^^ 0x5A17C3E90B64D28F
  let cHi := stream * 2 ^ 48 + step % 2 ^ 48
  let cLo := layer % 2 ^ 16 * 2 ^ 48 + element % 2 ^ 48
  let p := (List.range 6).foldl (fun p _ => srRound p) (cLo ^^^ seed, cHi ^^^ keyHi)
  p.1 / 2 ^ 40

/-! ## Floating formats (R153, R154) -/

/-- A floating format. `ieee` has infinities and NaNs at the top exponent; otherwise only the all-ones word is NaN. -/
structure FloatFmt where
  expBits : Nat
  manBits : Nat
  bias : Int
  maxFinite : Rat
  ieee : Bool
  deriving DecidableEq, Repr

def fmtE4M3 : FloatFmt := ⟨4, 3, 7, 448, false⟩

def fmtE5M2 : FloatFmt := ⟨5, 2, 15, 57344, true⟩

def fmtFp16 : FloatFmt := ⟨5, 10, 15, 65504, true⟩

def fmtBf16 : FloatFmt := ⟨8, 7, 127, ((255 * 2 ^ 120 : Nat) : Rat), true⟩

def fmtFp32 : FloatFmt := ⟨8, 23, 127, (((2 ^ 24 - 1) * 2 ^ 104 : Nat) : Rat), true⟩

/-- What a word of a floating format holds. -/
inductive FloatVal where
  | fin (x : Rat)
  | inf (neg : Bool)
  | nan
  deriving DecidableEq, Repr

/-- Read a word. -/
def FloatFmt.read (f : FloatFmt) (w : Nat) : FloatVal :=
  let man := w % 2 ^ f.manBits
  let ex := w / 2 ^ f.manBits % 2 ^ f.expBits
  let neg := bitAt w (f.manBits + f.expBits)
  let top := ex = 2 ^ f.expBits - 1
  if f.ieee ∧ top then (if man = 0 then .inf neg else .nan)
  else if !f.ieee ∧ top ∧ man = 2 ^ f.manBits - 1 then .nan
  else
    let x : Rat := if ex = 0 then (man : Rat) * pow2 (1 - f.bias - f.manBits)
      else ((2 ^ f.manBits + man : Nat) : Rat) * pow2 ((ex : Int) - f.bias - f.manBits)
    .fin (if neg then -x else x)

/-- The value a word brings into a computation, and whether it was replaced under R154: an infinity saturates, a NaN
becomes +0. -/
def FloatFmt.value (f : FloatFmt) (w : Nat) : Rat × Bool :=
  match f.read w with
  | .fin x => (x, false)
  | .inf neg => (if neg then -f.maxFinite else f.maxFinite, true)
  | .nan => (0, true)

/-- Write a value: the word, whether it saturated (R154), and whether a draw was consumed. Subnormals are kept (R153). Assumption log 16, DESIGN CHOICE. -/
def FloatFmt.write (f : FloatFmt) (m : Rounding) (x : Rat) : Nat × Bool × Bool :=
  let a := absRat x
  let sign := if x < 0 then 2 ^ (f.manBits + f.expBits) else 0
  if a = 0 then (0, false, false)
  else
    let e := max (floorLog2 a) (1 - f.bias)
    let y := x / pow2 (e - f.manBits)
    let (q, drew) := m.round y
    let n := q.natAbs
    if f.maxFinite < (n : Rat) * pow2 (e - f.manBits) then
      let me := max (floorLog2 f.maxFinite) (1 - f.bias)
      let mq := (f.maxFinite / pow2 (me - f.manBits)).floor.toNat
      (sign + ((me + f.bias).toNat * 2 ^ f.manBits + (mq - 2 ^ f.manBits)), true, drew)
    else if n < 2 ^ f.manBits then (sign + n, false, drew)
    else (sign + ((e + f.bias).toNat * 2 ^ f.manBits + (n - 2 ^ f.manBits)), false, drew)

/-- Write nearest even. -/
def FloatFmt.rne (f : FloatFmt) (x : Rat) : Nat := (f.write .nearest x).1

/-- A value rounded to a format, nearest even, as a value again. -/
def FloatFmt.to (f : FloatFmt) (x : Rat) : Rat := (f.value (f.rne x)).1

/-! ## Block formats (R145 to R149) -/

/-- The unit exponent of a block's field (R145). -/
def unitExp (b8 : Bool) (f : Nat) : Int := if b8 then (f : Int) - 133 else (f : Int) - 20

/-- The values of a block; `none` is NaV (R146, R147). -/
def blkValues (b : Blk) : List (Option Rat) :=
  if b.field = 0 then b.codes.map (fun c => if c = some 0 then some 0 else none)
  else if b.b8 && b.field = 255 then b.codes.map (fun _ => none)
  else b.codes.map (fun c => c.map (fun v => (v : Rat) * pow2 (unitExp b.b8 b.field)))

/-- The code an element's bits spell (R146). -/
def elementCode (b8 : Bool) (w : Nat) : Option Int :=
  let n := if b8 then 8 else 4
  if w % 2 ^ n = 2 ^ (n - 1) then none else some (signed n w)

/-- A block of a tile some of whose codewords memory reports uncorrectable: a bad exponent line takes every block of the tile, a bad
codeword of elements those held in it (R150). Codeword 0 is the exponent line. -/
def Blk.held (bad : Nat → Bool) (i : Nat) (b : Blk) : Blk :=
  if bad 0 || bad (1 + if b.b8 then i else i / 2) then { b with field := max 1 b.field, codes := b.codes.map (fun _ => none) } else b

/-- The 32 blocks of a tile in memory (R149), with the codewords of it that are bad. -/
def tileBlocks (b8 : Bool) (bad : Nat → Bool) (bytes : List Byte) : List Blk :=
  (List.range 32).map (fun b =>
    Blk.held bad b (if b8 then
      ⟨true, leAt bytes b 1, (List.range 32).map (fun k => elementCode true (leAt bytes (32 + 32 * b + k) 1))⟩
    else
      ⟨false, leAt bytes b 1 % 32, (List.range 32).map (fun k =>
        let w := leAt bytes (32 + 16 * b + k / 2) 1
        elementCode false (if k % 2 = 0 then w % 16 else w / 16))⟩))

/-- A B4 block in B8 form: the same unit and codes. -/
def Blk.asB8 (b : Blk) : Blk := if b.b8 then b else { b with b8 := true, field := if b.field = 0 then 0 else b.field + 113 }

/-- The bits of an element's code (R146). -/
def codeBits (b8 : Bool) (c : Option Int) : Nat :=
  match c with
  | none => if b8 then 0x80 else 8
  | some v => unsigned (if b8 then 8 else 4) v

/-- The bytes of a block's elements (R149). -/
def Blk.elementBytes (b : Blk) : List Byte :=
  if b.b8 then b.codes.flatMap (fun (c : Option Int) => toLE 1 (codeBits true c))
  else (List.range 16).flatMap (fun (k : Nat) =>
    toLE 1 (codeBits false (b.codes.getD (2 * k) (some 0)) + 16 * codeBits false (b.codes.getD (2 * k + 1) (some 0))))

/-- Blocks in one form: a B8 block among them takes the others to B8 form (assumption log 135, DESIGN CHOICE). -/
def sameForm (bs : List Blk) : List Blk := if bs.any (fun (b : Blk) => b.b8) then bs.map Blk.asB8 else bs

/-- A tile of 32 blocks (R149). -/
def tileBytes (bs : List Blk) : List Byte :=
  let bs := sameForm (bs ++ List.replicate (32 - bs.length) ⟨bs.all (fun (b : Blk) => b.b8), 0, List.replicate 32 (some 0)⟩)
  bs.flatMap (fun (b : Blk) => toLE 1 b.field) ++ bs.flatMap Blk.elementBytes

/-- The tiles of a block vector. -/
def tiles : Nat → List Blk → List Byte
  | 0, _ => []
  | n + 1, bs => if bs.isEmpty then [] else tileBytes (bs.take 32) ++ tiles n (bs.drop 32)

/-- Beat n of a block vector in transit (R151): a fixed run of elements, and the exponent fields of the blocks that begin in it. -/
def beatBytes (bs : List Blk) (n : Nat) : List Byte :=
  let b8 := bs.any (fun (b : Blk) => b.b8)
  let per : Nat := if b8 then 60 else 120
  let elements := ((bs.flatMap Blk.elementBytes).drop (60 * n)).take 60
  let fields := (bs.zipIdx.filter (fun (q : Blk × Nat) => decide (per * n ≤ 32 * q.2) && decide (32 * q.2 < per * (n + 1)))).map (fun (q : Blk × Nat) => q.1.field)
  elements ++ List.replicate (60 - elements.length) 0 ++ fields.flatMap (toLE 1) ++ List.replicate (4 - fields.length) 0

/-- The beats of a block vector (R151). -/
def beats (bs : List Blk) : List (List Byte) :=
  let bs := sameForm bs
  let per : Nat := if bs.any (fun (b : Blk) => b.b8) then 60 else 120
  (List.range ((32 * bs.length + per - 1) / per)).map (beatBytes bs)

/-! ## Encoding a block (R156) -/

/-- What encoding counts (R170). -/
structure EncCounts where
  b4 : Nat
  b8 : Nat
  zero : Nat
  floor : Nat
  ceiling : Nat
  sat : Nat
  under : Nat
  nav : Nat
  draws : Nat
  events : Nat
  fpSat : Nat
  invalid : Nat
  deriving DecidableEq, Repr

def EncCounts.none : EncCounts := ⟨0, 0, 0, 0, 0, 0, 0, 0, 0, 0, 0, 0⟩

def EncCounts.plus (a b : EncCounts) : EncCounts :=
  ⟨a.b4 + b.b4, a.b8 + b.b8, a.zero + b.zero, a.floor + b.floor, a.ceiling + b.ceiling, a.sat + b.sat,
   a.under + b.under, a.nav + b.nav, a.draws + b.draws, a.events + b.events, a.fpSat + b.fpSat, a.invalid + b.invalid⟩

/-- fit(a / 2^e, limit) of R156. -/
def fitsAt (stochastic : Bool) (a : Rat) (e : Int) (limit : Int) : Bool :=
  let y := a / pow2 e
  if stochastic then decide (ceilRat y ≤ limit) else decide (roundHalfEven y ≤ limit)

/-- The smallest e with fit(a / 2^e, limit), limit 7 or 127. -/
def fitExp (stochastic : Bool) (a : Rat) (limit : Int) : Int :=
  let e := floorLog2 a - (if limit = 7 then 2 else 6)
  if fitsAt stochastic a e limit then e else e + 1

/-- Codes of a block at unit 2^e, clamped to the limit, and how many draws were consumed. -/
def blockCodes (draws : Nat → Option Nat) (xs : List (Option Rat)) (e limit : Int) : List (Option Int) × Nat :=
  let rs := xs.mapIdx (fun i x => x.map (fun v =>
    let m := match draws i with
      | some k => Rounding.draw k
      | none => Rounding.nearest
    let (q, d) := m.round (v / pow2 e)
    (clampInt (-limit) limit q, d)))
  (rs.map (Option.map (·.1)), (rs.filter (fun r => match r with | some (_, d) => d | none => false)).length)

/-- Encode 32 values (`none` poisoned) with a target and a rounding mode; `draws i` is the draw for element i when the
mode is stochastic (R156, R157). -/
def encodeBlock (b4 : Bool) (draws : Nat → Option Nat) (xs : List (Option Rat)) : Blk × EncCounts :=
  let stochastic := (draws 0).isSome
  let poisoned := (xs.filter (·.isNone)).length
  let a := xs.foldl (fun m x => match x with | some v => max m (absRat v) | none => m) 0
  let c0 : EncCounts := { EncCounts.none with nav := poisoned }
  let fixed := fun (f : Nat) (c : EncCounts) =>
    (Blk.mk (!b4) f (xs.map (fun x => x.map (fun _ => (0 : Int)))),
      if b4 then { c with b4 := c.b4 + 1 } else { c with b8 := c.b8 + 1 })
  if poisoned = xs.length then fixed 1 c0
  else if a = 0 then (if poisoned = 0 then fixed 0 { c0 with zero := 1 } else fixed 1 c0)
  else
    let e4 := fitExp stochastic a 7
    if b4 ∧ -19 ≤ e4 ∧ e4 ≤ 11 then
      let (codes, d) := blockCodes draws xs e4 7
      (⟨false, (e4 + 20).toNat, codes⟩, { c0 with b4 := 1, draws := d })
    else
      let c1 := if !b4 then c0 else if e4 < -19 then { c0 with floor := 1 } else { c0 with ceiling := 1 }
      let e8 := fitExp stochastic a 127
      let e := clampInt (-132) 121 e8
      let c2 := if 121 < e8 then { c1 with sat := 1, events := 1 } else if e8 < -132 then { c1 with under := 1 } else c1
      let (codes, d) := blockCodes draws xs e 127
      let allZero := codes.all (fun c => c = some 0)
      (⟨true, if allZero && poisoned = 0 then 0 else (e + 133).toNat, codes⟩,
        { c2 with b8 := 1, draws := d, zero := if allZero && poisoned = 0 then 1 else 0 })

/-- Split a list into runs of 32, the last padded with zeros (R149). -/
def blocksOf32 : Nat → List (Option Rat) → List (List (Option Rat))
  | 0, _ => []
  | n + 1, xs =>
    if xs.isEmpty then []
    else ((xs.take 32 ++ List.replicate (32 - (xs.take 32).length) (some 0))) :: blocksOf32 n (xs.drop 32)

/-- Encode a whole vector; `draws i` is the draw for element i of the vector. -/
def encodeVector (b4 : Bool) (draws : Nat → Option Nat) (xs : List (Option Rat)) : List Blk × EncCounts :=
  let rs := (blocksOf32 (xs.length / 32 + 1) xs).mapIdx (fun b ys => encodeBlock b4 (fun i => draws (32 * b + i)) ys)
  (rs.map (·.1), rs.foldl (fun c r => c.plus r.2) EncCounts.none)

/-! ## Aligning an engine's input (R159) -/

/-- The largest magnitude of a block's codes that are not NaV. -/
def blkAmax (b : Blk) : Nat :=
  b.codes.foldl (fun m c => match c with | some v => max m v.natAbs | none => m) 0

/-- In nz of R159: a nonzero field and a nonzero code. -/
def blkInNz (b : Blk) : Bool := b.field ≠ 0 && !(b.b8 && b.field = 255) && (blkAmax b) ≠ 0

/-- The aligned input of an engine slice: whether it runs wide, E_in, the driven integers (`none` NaV), how many blocks
rounded entirely to zero, and whether nz is empty. -/
structure Aligned where
  wide : Bool
  eIn : Int
  drive : List (Option Int)
  zeroed : Nat
  empty : Bool
  nav : Bool
  deriving DecidableEq, Repr

/-- rne(c * 2^sh). -/
def shiftCode (c : Int) (sh : Int) : Int := roundHalfEven ((c : Rat) * pow2 sh)

/-- Pass form and E_in of a slice (R159). -/
def alignSlice (markedWide : Bool) (bs : List Blk) : Aligned :=
  let nz := bs.filter blkInNz
  let nav := bs.any (fun b => (blkValues b).any (·.isNone))
  match nz with
  | [] => ⟨false, 0, bs.flatMap (fun b => (blkValues b).map (fun v => v.map (fun _ => 0))), 0, true, nav⟩
  | b0 :: rest =>
    let u := fun (b : Blk) => unitExp b.b8 b.field
    let e := rest.foldl (fun m b => max m (u b)) (u b0)
    let b4ok := !markedWide && nz.all (fun b => !b.b8) && nz.all (fun b => decide (1 ≤ shiftCode (blkAmax b) (u b - e)))
    let uw := fun (b : Blk) => if b.b8 then u b else u b - 4
    let eIn := if b4ok then e else rest.foldl (fun m b => max m (uw b)) (uw b0)
    let drv := fun (b : Blk) =>
      if blkInNz b then b.codes.map (fun c => c.map (fun v => shiftCode v (u b - eIn)))
      else (blkValues b).map (fun v => v.map (fun _ => 0))
    let zeroed := (nz.filter (fun b => (drv b).all (fun c => c = some 0 || c = none))).length
    ⟨!b4ok, eIn, bs.flatMap drv, if b4ok then 0 else zeroed, false, nav⟩

end Sys2Proof.Machine
end

