-- ==== Sys2Proof/Machine/Objects.lean ====
section
/-! DEFINITION. The object dictionary's names and its defining tables (R42, R43, R45, R46, R48, R52): every object of
the spec's object tables, with its type, access right, persistence class, default, legal range and visibility.
The tables are those of spec/01 to spec/19 (rules R38, R74, R112, R143, R170, R222, R251, R252, R276, R310, R340, R374,
R409, R440, R461, R479, R506, R531, R546, R570, R571, R572). -/

namespace Sys2Proof

/-- The object types of R43. -/
inductive ObjType where
  | u8 | u16 | u32 | u64 | i32 | bool | bits32 | str | domain
  deriving DecidableEq, Repr

/-- The access rights of R45. -/
inductive Access where
  | ro | rw | wo | w1c | cmd
  deriving DecidableEq, Repr

/-- The persistence classes of R46. -/
inductive PClass where
  | p | s | d | t | i
  deriving DecidableEq, Repr

/-- The words a Default column may hold (R48). -/
inductive DefaultWord where
  | fused | manufacture | asFound | perId | firmware
  deriving DecidableEq, Repr

/-- A Default column: a literal or a word (R48). An empty DOMAIN has the literal 0. -/
inductive Default where
  | lit (v : Nat)
  | word (w : DefaultWord)
  deriving DecidableEq, Repr

/-- The name of one stored value: index, sub-index, and for class T the tenant whose instance it is (0 otherwise). -/
structure Key where
  index : Nat
  sub : Nat
  tenant : Nat
  deriving DecidableEq, Repr

/-- One row of an object table (R42): index, range of sub-indices, attributes, and the smallest and largest legal value
(for a CMD, of its argument). -/
structure Row where
  index : Nat
  subLo : Nat
  subHi : Nat
  name : String
  ty : ObjType
  access : Access
  cls : PClass
  dflt : Default
  min : Nat
  max : Nat
  tenantVisible : Bool
  abortable : Bool
  deriving DecidableEq, Repr


/-! ## Names of the objects -/

/-- DICT_VERSION, U32 RO D (R74). -/
abbrev Obj.dictVersion : Key := ⟨0x1F00, 0x01, 0⟩

/-- MAX_SEGMENT, U16 RO D (R74). -/
abbrev Obj.maxSegment : Key := ⟨0x1F00, 0x02, 0⟩

/-- OPEN_SESSIONS, U8 RO D (R74). -/
abbrev Obj.openSessions : Key := ⟨0x1F00, 0x03, 0⟩

/-- SESSION_IDLE_LIMIT, U32 RW S (R74). -/
abbrev Obj.sessionIdleLimit : Key := ⟨0x1F00, 0x04, 0⟩

/-- REQUESTS_SERVED, U64 RO D (R74). -/
abbrev Obj.requestsServed : Key := ⟨0x1F00, 0x05, 0⟩

/-- REQUESTS_REFUSED, U32 W1C D (R74). -/
abbrev Obj.requestsRefused : Key := ⟨0x1F00, 0x06, 0⟩

/-- PARKED_NOW, U16 RO D (R74). -/
abbrev Obj.parkedNow : Key := ⟨0x1F00, 0x07, 0⟩

/-- RESTORE_DEFAULTS, U32 CMD D (R74). -/
abbrev Obj.restoreDefaults : Key := ⟨0x1F00, 0x08, 0⟩

/-- MY_PATH, U8 RO D (R74). -/
abbrev Obj.myPath : Key := ⟨0x1F00, 0x09, 0⟩

/-- MY_TENANT, U16 RO D (R74). -/
abbrev Obj.myTenant : Key := ⟨0x1F00, 0x0A, 0⟩

/-- RANGE_OWNER, U8 RW D (R74). -/
abbrev Obj.rangeOwner (n : Nat) : Key := ⟨0x1F01, n + 1, 0⟩

/-- VENDOR, STR RO P (R570). -/
abbrev Obj.vendor : Key := ⟨0x1000, 0x01, 0⟩

/-- PART_NUMBER, STR RO P (R570). -/
abbrev Obj.partNumber : Key := ⟨0x1000, 0x02, 0⟩

/-- SERIAL, U64 RO P (R570). -/
abbrev Obj.serial : Key := ⟨0x1000, 0x03, 0⟩

/-- ENTERPRISE_NUMBER, U32 RO P (R570). -/
abbrev Obj.enterpriseNumber : Key := ⟨0x1000, 0x04, 0⟩

/-- MANUFACTURED, U64 RO P (R570). -/
abbrev Obj.manufactured : Key := ⟨0x1000, 0x05, 0⟩

/-- ROM_VERSION, U32 RO P (R570). -/
abbrev Obj.romVersion : Key := ⟨0x1000, 0x06, 0⟩

/-- FIRMWARE_VERSION, U32 RO D (R570). -/
abbrev Obj.firmwareVersion : Key := ⟨0x1000, 0x07, 0⟩

/-- INACTIVE_VERSION, U32 RO D (R570). -/
abbrev Obj.inactiveVersion : Key := ⟨0x1000, 0x08, 0⟩

/-- CERT_CHAIN, DOMAIN RO P (R570). -/
abbrev Obj.certChain : Key := ⟨0x1010, 0x01, 0⟩

/-- BOOT_STAGE, U8 RO D (R571). -/
abbrev Obj.bootStage : Key := ⟨0xC000, 0x01, 0⟩

/-- BOOT_TIME_MS, U32 RO D (R571). -/
abbrev Obj.bootTimeMs : Key := ⟨0xC000, 0x02, 0⟩

/-- ACTIVE_BANK, U8 RO D (R571). -/
abbrev Obj.activeBank : Key := ⟨0xC000, 0x03, 0⟩

/-- FW_SVN, U32 RO P (R571). -/
abbrev Obj.fwSvn : Key := ⟨0xC000, 0x04, 0⟩

/-- FIRMWARE_IMAGE, DOMAIN RW D (R571). -/
abbrev Obj.firmwareImage : Key := ⟨0xC000, 0x05, 0⟩

/-- FIRMWARE_ACTIVATE, U8 CMD D (R571). -/
abbrev Obj.firmwareActivate : Key := ⟨0xC000, 0x06, 0⟩

/-- MEASUREMENT_LOG, DOMAIN RO D (R571). -/
abbrev Obj.measurementLog : Key := ⟨0xC000, 0x07, 0⟩

/-- OWNER_KEYS, DOMAIN RW P (R571). -/
abbrev Obj.ownerKeys : Key := ⟨0xC100, 0x01, 0⟩

/-- REQUIRE_SIGNED_BOLT, BOOL RW P (R571). -/
abbrev Obj.requireSignedBolt : Key := ⟨0xC100, 0x02, 0⟩

/-- REQUIRE_SIGNED_DELTA, BOOL RW P (R571). -/
abbrev Obj.requireSignedDelta : Key := ⟨0xC100, 0x03, 0⟩

/-- KEY_LOCK, BOOL RW P (R571). -/
abbrev Obj.keyLock : Key := ⟨0xC100, 0x04, 0⟩

/-- UNLOCK_NONCE, U64 RO P (R571). -/
abbrev Obj.unlockNonce : Key := ⟨0xC100, 0x05, 0⟩

/-- OWNER_UNLOCK, DOMAIN RW D (R571). -/
abbrev Obj.ownerUnlock : Key := ⟨0xC100, 0x06, 0⟩

/-- SIGNATURE_FAILURES, U32 W1C D (R571). -/
abbrev Obj.signatureFailures : Key := ⟨0xC100, 0x07, 0⟩

/-- SPDM_VERSION, U8 RO D (R571). -/
abbrev Obj.spdmVersion : Key := ⟨0xC200, 0x01, 0⟩

/-- SPDM_CHALLENGES, U32 RO D (R571). -/
abbrev Obj.spdmChallenges : Key := ⟨0xC200, 0x02, 0⟩

/-- POWER_STATE, U8 RO D (R572). -/
abbrev Obj.powerState : Key := ⟨0xD000, 0x01, 0⟩

/-- POWER_STATE_REQUEST, U8 CMD D (R572). -/
abbrev Obj.powerStateRequest : Key := ⟨0xD000, 0x02, 0⟩

/-- GROUP_POWER, U8 CMD D (R572). -/
abbrev Obj.groupPower : Key := ⟨0xD000, 0x03, 0⟩

/-- L1_IDLE_US, U16 RW S (R572). -/
abbrev Obj.l1IdleUs : Key := ⟨0xD000, 0x04, 0⟩

/-- LAST_TRANSITION_US, U32 RO D (R572). -/
abbrev Obj.lastTransitionUs : Key := ⟨0xD000, 0x05, 0⟩

/-- STATE_ENTRIES, U32 RO P (R572). -/
abbrev Obj.stateEntries (n : Nat) : Key := ⟨0xD001, n + 1, 0⟩

/-- STATE_SECONDS, U64 RO P (R572). -/
abbrev Obj.stateSeconds (n : Nat) : Key := ⟨0xD002, n + 1, 0⟩

/-- DEVICE_RESET, U8 CMD D (R572). -/
abbrev Obj.deviceReset : Key := ⟨0xD010, 0x01, 0⟩

/-- RESET_ASSERT, BITS32 RO D (R572). -/
abbrev Obj.resetAssert : Key := ⟨0xD010, 0x02, 0⟩

/-- RESET_WINDOW_MS, U16 RW S (R572). -/
abbrev Obj.resetWindowMs : Key := ⟨0xD010, 0x03, 0⟩

/-- DEVICE_RESETS, U32 RO P (R572). -/
abbrev Obj.deviceResets : Key := ⟨0xD010, 0x04, 0⟩

/-- LAST_RESET_CAUSE, U8 RO S (R572). -/
abbrev Obj.lastResetCause : Key := ⟨0xD010, 0x05, 0⟩

/-- TRIM_POINTS, U8 RO D (R251). -/
abbrev Obj.trimPoints : Key := ⟨0x4800, 0x01, 0⟩

/-- TRIM_STEP, U8 RW S (R251). -/
abbrev Obj.trimStep : Key := ⟨0x4800, 0x02, 0⟩

/-- TRIM_APPLICATIONS, U64 RO D (R251). -/
abbrev Obj.trimApplications : Key := ⟨0x4800, 0x03, 0⟩

/-- OUT_OF_TRIM_RANGE_MS, U64 RO D (R251). -/
abbrev Obj.outOfTrimRangeMs : Key := ⟨0x4800, 0x04, 0⟩

/-- TRIM_STORE_ERRORS, U32 W1C D (R251). -/
abbrev Obj.trimStoreErrors : Key := ⟨0x4800, 0x05, 0⟩

/-- TRIM_READ, U16 CMD D (R251). -/
abbrev Obj.trimRead : Key := ⟨0x4800, 0x06, 0⟩

/-- TRIM_RECORD, DOMAIN RO D (R251). -/
abbrev Obj.trimRecord : Key := ⟨0x4800, 0x07, 0⟩

/-- CAL_ENABLE, BOOL RW S (R251). -/
abbrev Obj.calEnable : Key := ⟨0x4900, 0x01, 0⟩

/-- CAL_SAMPLES, U32 RW S (R251). -/
abbrev Obj.calSamples : Key := ⟨0x4900, 0x02, 0⟩

/-- CAL_CONVERSIONS_PER_STEP, U16 RO D (R251). -/
abbrev Obj.calConversionsPerStep : Key := ⟨0x4900, 0x03, 0⟩

/-- SLICE_RETIRE_OFFSET, U16 RW S (R251). -/
abbrev Obj.sliceRetireOffset : Key := ⟨0x4900, 0x04, 0⟩

/-- SLICE_RETIRE_GAIN, U16 RW S (R251). -/
abbrev Obj.sliceRetireGain : Key := ⟨0x4900, 0x05, 0⟩

/-- CAL_COMPLETED, U64 RO D (R251). -/
abbrev Obj.calCompleted : Key := ⟨0x4900, 0x06, 0⟩

/-- CAL_GAIN_SKIPPED, U64 W1C D (R251). -/
abbrev Obj.calGainSkipped : Key := ⟨0x4900, 0x07, 0⟩

/-- SLICE_RETIRE_EVENTS, U32 W1C D (R251). -/
abbrev Obj.sliceRetireEvents : Key := ⟨0x4900, 0x08, 0⟩

/-- ROW_CAL_INTERVAL, U32 RW S (R251). -/
abbrev Obj.rowCalInterval : Key := ⟨0x4900, 0x09, 0⟩

/-- DRIFT_MIN_SAMPLES, U16 RW S (R251). -/
abbrev Obj.driftMinSamples : Key := ⟨0x4A00, 0x01, 0⟩

/-- REFRESH_SHIFT, U16 RW S (R251). -/
abbrev Obj.refreshShift : Key := ⟨0x4A00, 0x02, 0⟩

/-- REFRESH_INTERVAL, U16 RW S (R251). -/
abbrev Obj.refreshInterval : Key := ⟨0x4A00, 0x03, 0⟩

/-- REFRESHES_SCHEDULED, U32 RO D (R251). -/
abbrev Obj.refreshesScheduled : Key := ⟨0x4A00, 0x04, 0⟩

/-- REFRESHES_DONE, U32 RO D (R251). -/
abbrev Obj.refreshesDone : Key := ⟨0x4A00, 0x05, 0⟩

/-- REFRESH_QUEUE, U16 RO D (R251). -/
abbrev Obj.refreshQueue : Key := ⟨0x4A00, 0x06, 0⟩

/-- REFRESH_BLOCKED, U32 W1C D (R251). -/
abbrev Obj.refreshBlocked : Key := ⟨0x4A00, 0x07, 0⟩

/-- DRIFT_MAX_SHIFT, U16 W1C D (R251). -/
abbrev Obj.driftMaxShift : Key := ⟨0x4A00, 0x08, 0⟩

/-- WEAR_WARN_COUNT, U16 RW S (R251). -/
abbrev Obj.wearWarnCount : Key := ⟨0x4A00, 0x09, 0⟩

/-- WEAR_MAX, U16 RO P (R251). -/
abbrev Obj.wearMax : Key := ⟨0x4A00, 0x0A, 0⟩

/-- FACET_WEAR, DOMAIN RO D (R251). -/
abbrev Obj.facetWear : Key := ⟨0x4A00, 0x0B, 0⟩

/-- REFRESH_FACET, U16 CMD D (R251). -/
abbrev Obj.refreshFacet : Key := ⟨0x4A00, 0x0C, 0⟩

/-- POWERED_SECONDS, U64 RO P (R252). -/
abbrev Obj.poweredSeconds : Key := ⟨0x1100, 0x01, 0⟩

/-- COLD_STARTS, U32 RO P (R252). -/
abbrev Obj.coldStarts : Key := ⟨0x1100, 0x02, 0⟩

/-- EQUIV_HOURS_85, U64 RO P (R252). -/
abbrev Obj.equivHours85 : Key := ⟨0x1100, 0x03, 0⟩

/-- LIFE_USED, U16 RO P (R252). -/
abbrev Obj.lifeUsed : Key := ⟨0x1100, 0x04, 0⟩

/-- TJ_MAX_EVER, U8 RO P (R252). -/
abbrev Obj.tjMaxEver : Key := ⟨0x1100, 0x05, 0⟩

/-- TEMP_HISTOGRAM, DOMAIN RO P (R252). -/
abbrev Obj.tempHistogram : Key := ⟨0x1100, 0x06, 0⟩

/-- SAVE_INTERVAL, U16 RO D (R252). -/
abbrev Obj.saveInterval : Key := ⟨0x1100, 0x07, 0⟩

/-- CALENDAR_STAMP, U64 WO P (R252). -/
abbrev Obj.calendarStamp : Key := ⟨0x1180, 0x01, 0⟩

/-- CALENDAR_NOW, U64 RO D (R252). -/
abbrev Obj.calendarNow : Key := ⟨0x1180, 0x02, 0⟩

/-- LAST_STAMP, U64 RO P (R252). -/
abbrev Obj.lastStamp : Key := ⟨0x1180, 0x03, 0⟩

/-- SINCE_STAMP_MS, U64 RO P (R252). -/
abbrev Obj.sinceStampMs : Key := ⟨0x1180, 0x04, 0⟩

/-- UNPOWERED_CREDIT, U32 RO P (R252). -/
abbrev Obj.unpoweredCredit : Key := ⟨0x1180, 0x05, 0⟩

/-- STAMP_LOG, DOMAIN RO P (R252). -/
abbrev Obj.stampLog : Key := ⟨0x1180, 0x06, 0⟩

/-- GRADE, U8 RO P (R38). -/
abbrev Obj.grade : Key := ⟨0x2000, 0x01, 0⟩

/-- GOOD_CORES, U8 RO P (R38). -/
abbrev Obj.goodCores : Key := ⟨0x2000, 0x02, 0⟩

/-- CORE_MASK_LO, BITS32 RO P (R38). -/
abbrev Obj.coreMaskLo : Key := ⟨0x2000, 0x03, 0⟩

/-- CORE_MASK_HI, BITS32 RO P (R38). -/
abbrev Obj.coreMaskHi : Key := ⟨0x2000, 0x04, 0⟩

/-- ASSIGNABLE_FACETS, U16 RO P (R38). -/
abbrev Obj.assignableFacets : Key := ⟨0x2000, 0x05, 0⟩

/-- SPARE_FACETS, U16 RO P (R38). -/
abbrev Obj.spareFacets : Key := ⟨0x2000, 0x06, 0⟩

/-- DIE_STEPPING, STR RO P (R38). -/
abbrev Obj.dieStepping : Key := ⟨0x2000, 0x07, 0⟩

/-- ISLAND_COUNT, U8 RO P (R38). -/
abbrev Obj.islandCount : Key := ⟨0x2000, 0x08, 0⟩

/-- ISLAND_STATUS, U32 RO D (R38). -/
abbrev Obj.islandStatus (n : Nat) : Key := ⟨0x2100, n, 0⟩

/-- SEAM_RATE, U32 RO D (R38). -/
abbrev Obj.seamRate : Key := ⟨0x2200, 0x01, 0⟩

/-- SEAM_BYTES_WE, U64 RO D (R38). -/
abbrev Obj.seamBytesWe : Key := ⟨0x2200, 0x02, 0⟩

/-- SEAM_BYTES_EW, U64 RO D (R38). -/
abbrev Obj.seamBytesEw : Key := ⟨0x2200, 0x03, 0⟩

/-- SEAM_RATE_CHANGES, U32 RO D (R38). -/
abbrev Obj.seamRateChanges : Key := ⟨0x2200, 0x04, 0⟩

/-- SELVEDGE_BOUND, U16 RO D (R38). -/
abbrev Obj.selvedgeBound : Key := ⟨0x2300, 0x01, 0⟩

/-- SELVEDGE_MAX, U16 W1C D (R38). -/
abbrev Obj.selvedgeMax : Key := ⟨0x2300, 0x02, 0⟩

/-- SELVEDGE_OVERRUNS, U32 RO D (R38). -/
abbrev Obj.selvedgeOverruns : Key := ⟨0x2300, 0x03, 0⟩

/-- MESH_PLANE_BYTES, U64 RO D (R38). -/
abbrev Obj.meshPlaneBytes (n : Nat) : Key := ⟨0x2400, n + 1, 0⟩

/-- MESH_POISON_FLITS, U64 RO D (R38). -/
abbrev Obj.meshPoisonFlits : Key := ⟨0x2400, 0x09, 0⟩

/-- INPUT_POWER_MW, U32 RO D (R531). -/
abbrev Obj.inputPowerMw : Key := ⟨0x3000, 0x01, 0⟩

/-- INPUT_VOLTAGE_MV, U32 RO D (R531). -/
abbrev Obj.inputVoltageMv : Key := ⟨0x3000, 0x02, 0⟩

/-- INPUT_CURRENT_MA, U32 RO D (R531). -/
abbrev Obj.inputCurrentMa : Key := ⟨0x3000, 0x03, 0⟩

/-- INPUT_ENERGY_J, U64 RO D (R531). -/
abbrev Obj.inputEnergyJ : Key := ⟨0x3000, 0x04, 0⟩

/-- PEAK_INPUT_MW, U32 W1C D (R531). -/
abbrev Obj.peakInputMw : Key := ⟨0x3000, 0x05, 0⟩

/-- POWER_BOUND_W, U16 RO D (R531). -/
abbrev Obj.powerBoundW : Key := ⟨0x3000, 0x06, 0⟩

/-- POWER_WINDOW_MS, U8 RO D (R531). -/
abbrev Obj.powerWindowMs : Key := ⟨0x3000, 0x07, 0⟩

/-- POWER_CAP_W, U16 RW P (R531). -/
abbrev Obj.powerCapW : Key := ⟨0x3010, 0x01, 0⟩

/-- GOVERNOR_SKIP, U8 RO D (R531). -/
abbrev Obj.governorSkip : Key := ⟨0x3010, 0x02, 0⟩

/-- HEADROOM_MW, I32 RO D (R531). -/
abbrev Obj.headroomMw : Key := ⟨0x3010, 0x03, 0⟩

/-- CAP_LIMITED_MS, U64 W1C D (R531). -/
abbrev Obj.capLimitedMs : Key := ⟨0x3010, 0x04, 0⟩

/-- CAP_UNREACHED, U32 W1C D (R531). -/
abbrev Obj.capUnreached : Key := ⟨0x3010, 0x05, 0⟩

/-- PEAK_EVENTS, U32 W1C D (R531). -/
abbrev Obj.peakEvents : Key := ⟨0x3010, 0x06, 0⟩

/-- DOMAIN_TEMP, I32 RO D (R531). -/
abbrev Obj.domainTemp (n : Nat) : Key := ⟨0x3100, n + 1, 0⟩

/-- THERMAL_STATE, U32 RO D (R531). -/
abbrev Obj.thermalState (n : Nat) : Key := ⟨0x3101, n + 1, 0⟩

/-- DOMAIN_TEMP_MAX, I32 W1C D (R531). -/
abbrev Obj.domainTempMax (n : Nat) : Key := ⟨0x3102, n + 1, 0⟩

/-- THROTTLE_ENTRIES, U32 W1C D (R531). -/
abbrev Obj.throttleEntries (n : Nat) : Key := ⟨0x3103, n + 1, 0⟩

/-- ENFORCED_MS, U64 W1C D (R531). -/
abbrev Obj.enforcedMs (n : Nat) : Key := ⟨0x3104, n + 1, 0⟩

/-- DIVISIONS, U32 W1C D (R531). -/
abbrev Obj.divisions (n : Nat) : Key := ⟨0x3105, n + 1, 0⟩

/-- WARN_ON_C, U8 RO D (R531). -/
abbrev Obj.warnOnC : Key := ⟨0x3110, 0x01, 0⟩

/-- WARN_OFF_C, U8 RO D (R531). -/
abbrev Obj.warnOffC : Key := ⟨0x3110, 0x02, 0⟩

/-- THROTTLE_ON_C, U8 RO D (R531). -/
abbrev Obj.throttleOnC : Key := ⟨0x3110, 0x03, 0⟩

/-- THROTTLE_OFF_C, U8 RO D (R531). -/
abbrev Obj.throttleOffC : Key := ⟨0x3110, 0x04, 0⟩

/-- SHUTDOWN_C, U8 RO D (R531). -/
abbrev Obj.shutdownC : Key := ⟨0x3110, 0x05, 0⟩

/-- GRACE_MS, U16 RW S (R531). -/
abbrev Obj.graceMs : Key := ⟨0x3110, 0x06, 0⟩

/-- SKIP_STEP_MS, U8 RW S (R531). -/
abbrev Obj.skipStepMs : Key := ⟨0x3110, 0x07, 0⟩

/-- DIVIDE_AFTER_MS, U16 RO D (R531). -/
abbrev Obj.divideAfterMs : Key := ⟨0x3110, 0x08, 0⟩

/-- THROTTLE_STEP_SHARE, U16 RW S (R531). -/
abbrev Obj.throttleStepShare : Key := ⟨0x3110, 0x09, 0⟩

/-- ENGINE_MHZ, U16 RO D (R531). -/
abbrev Obj.engineMhz (n : Nat) : Key := ⟨0x3200, n + 1, 0⟩

/-- ISLAND_STOPS, U32 RO D (R531). -/
abbrev Obj.islandStops : Key := ⟨0x3300, 0x01, 0⟩

/-- DRAIN_MAX_US, U32 W1C D (R531). -/
abbrev Obj.drainMaxUs : Key := ⟨0x3300, 0x02, 0⟩

/-- SUPPLY_STATUS, BITS32 RO D (R531). -/
abbrev Obj.supplyStatus : Key := ⟨0x3400, 0x01, 0⟩

/-- HK_CHANNELS, U8 RO D (R546). -/
abbrev Obj.hkChannels : Key := ⟨0x3800, 0x01, 0⟩

/-- HK_ENTRY_LIMIT, U8 RO D (R546). -/
abbrev Obj.hkEntryLimit : Key := ⟨0x3800, 0x02, 0⟩

/-- HK_URGENT_DEPTH, U8 RO D (R546). -/
abbrev Obj.hkUrgentDepth : Key := ⟨0x3800, 0x03, 0⟩

/-- ROUND_US, U16 RW S (R546). -/
abbrev Obj.roundUs (n : Nat) : Key := ⟨0x3810, n + 1, 0⟩

/-- SEQUENCE, DOMAIN RW S (R546). -/
abbrev Obj.sequence (n : Nat) : Key := ⟨0x3811, n + 1, 0⟩

/-- ROUNDS, U64 RO D (R546). -/
abbrev Obj.rounds (n : Nat) : Key := ⟨0x3812, n + 1, 0⟩

/-- ROUND_OVERRUNS, U32 W1C D (R546). -/
abbrev Obj.roundOverruns (n : Nat) : Key := ⟨0x3813, n + 1, 0⟩

/-- URGENT_CONVERSIONS, U64 RO D (R546). -/
abbrev Obj.urgentConversions (n : Nat) : Key := ⟨0x3814, n + 1, 0⟩

/-- URGENT_MAX_NS, U32 W1C D (R546). -/
abbrev Obj.urgentMaxNs (n : Nat) : Key := ⟨0x3815, n + 1, 0⟩

/-- HK_STATUS, U32 RO D (R546). -/
abbrev Obj.hkStatus (n : Nat) : Key := ⟨0x3816, n + 1, 0⟩

/-- CAL_PERIOD_MS, U16 RW S (R546). -/
abbrev Obj.calPeriodMs (n : Nat) : Key := ⟨0x3820, n + 1, 0⟩

/-- CAL_SWAPS, U64 RO D (R546). -/
abbrev Obj.calSwaps (n : Nat) : Key := ⟨0x3821, n + 1, 0⟩

/-- CAL_FAILURES, U32 W1C D (R546). -/
abbrev Obj.calFailures (n : Nat) : Key := ⟨0x3822, n + 1, 0⟩

/-- ENTRY_RESULT, U64 RO D (R546). -/
abbrev Obj.entryResult (n : Nat) : Key := ⟨0x3830, n + 1, 0⟩

/-- ENTRY_MIN, I32 RO D (R546). -/
abbrev Obj.entryMin (n : Nat) : Key := ⟨0x3831, n + 1, 0⟩

/-- ENTRY_MAX, I32 RO D (R546). -/
abbrev Obj.entryMax (n : Nat) : Key := ⟨0x3832, n + 1, 0⟩

/-- MINMAX_RESET, U32 CMD D (R546). -/
abbrev Obj.minmaxReset (n : Nat) : Key := ⟨0x3833, n + 1, 0⟩

/-- ROWS, U16 RO D (R112). -/
abbrev Obj.rows : Key := ⟨0x4000, 0x01, 0⟩

/-- WEIGHT_PAIRS, U16 RO D (R112). -/
abbrev Obj.weightPairs : Key := ⟨0x4000, 0x02, 0⟩

/-- CELL_LEVELS, U8 RO D (R112). -/
abbrev Obj.cellLevels : Key := ⟨0x4000, 0x03, 0⟩

/-- PHASE_ROW_LIMIT, U16 RO D (R112). -/
abbrev Obj.phaseRowLimit : Key := ⟨0x4000, 0x04, 0⟩

/-- PHASE_CYCLES, U8 RO D (R112). -/
abbrev Obj.phaseCycles : Key := ⟨0x4000, 0x05, 0⟩

/-- TPHASE_PAIR_LIMIT, U16 RO D (R112). -/
abbrev Obj.tphasePairLimit : Key := ⟨0x4000, 0x06, 0⟩

/-- TPHASE_CYCLES, U8 RO D (R112). -/
abbrev Obj.tphaseCycles : Key := ⟨0x4000, 0x07, 0⟩

/-- DRIVE_SLOT, U16 RO D (R112). -/
abbrev Obj.driveSlot : Key := ⟨0x4000, 0x08, 0⟩

/-- HOLD_LIMIT, U16 RO D (R112). -/
abbrev Obj.holdLimit : Key := ⟨0x4000, 0x09, 0⟩

/-- PHASES, U64 RO D (R112). -/
abbrev Obj.phases : Key := ⟨0x4100, 0x01, 0⟩

/-- ZERO_MVMS, U64 RO D (R112). -/
abbrev Obj.zeroMvms : Key := ⟨0x4100, 0x02, 0⟩

/-- SPLIT_REPLAYS, U64 W1C D (R112). -/
abbrev Obj.splitReplays : Key := ⟨0x4100, 0x03, 0⟩

/-- CLAMPED_COLUMNS, U64 W1C D (R112). -/
abbrev Obj.clampedColumns : Key := ⟨0x4100, 0x04, 0⟩

/-- UNRECOVERED_CLAMPS, U32 W1C D (R112). -/
abbrev Obj.unrecoveredClamps : Key := ⟨0x4100, 0x05, 0⟩

/-- TPHASES, U64 RO D (R112). -/
abbrev Obj.tphases : Key := ⟨0x4100, 0x06, 0⟩

/-- TSPLIT_REPLAYS, U64 W1C D (R112). -/
abbrev Obj.tsplitReplays : Key := ⟨0x4100, 0x07, 0⟩

/-- TCLAMPED_ROWS, U64 W1C D (R112). -/
abbrev Obj.tclampedRows : Key := ⟨0x4100, 0x08, 0⟩

/-- CHECK_MISMATCHES, U32 W1C D (R112). -/
abbrev Obj.checkMismatches : Key := ⟨0x4100, 0x09, 0⟩

/-- CHECK_SKIPPED, U64 W1C D (R112). -/
abbrev Obj.checkSkipped : Key := ⟨0x4100, 0x0A, 0⟩

/-- REF_SATURATED, U64 W1C D (R112). -/
abbrev Obj.refSaturated : Key := ⟨0x4100, 0x0B, 0⟩

/-- NAV_MVMS, U64 W1C D (R112). -/
abbrev Obj.navMvms : Key := ⟨0x4100, 0x0C, 0⟩

/-- LAYER_COUNTS, DOMAIN RO D (R112). -/
abbrev Obj.layerCounts : Key := ⟨0x4100, 0x10, 0⟩

/-- LAYER_COUNTS_CLEAR, U8 CMD D (R112). -/
abbrev Obj.layerCountsClear : Key := ⟨0x4100, 0x11, 0⟩

/-- REPLAY_EVENT_LIMIT, U32 RW S (R112). -/
abbrev Obj.replayEventLimit : Key := ⟨0x4200, 0x01, 0⟩

/-- CLAMP_EVENT_LIMIT, U16 RW S (R112). -/
abbrev Obj.clampEventLimit : Key := ⟨0x4200, 0x02, 0⟩

/-- FACET_TABLE, DOMAIN RO D (R112). -/
abbrev Obj.facetTable : Key := ⟨0x4300, 0x01, 0⟩

/-- FACETS_ASSIGNED, U16 RO D (R112). -/
abbrev Obj.facetsAssigned : Key := ⟨0x4300, 0x02, 0⟩

/-- FACETS_SUSPECT, U16 RO D (R112). -/
abbrev Obj.facetsSuspect : Key := ⟨0x4300, 0x03, 0⟩

/-- SPARES_FREE, U16 RO D (R112). -/
abbrev Obj.sparesFree : Key := ⟨0x4300, 0x04, 0⟩

/-- SLICES_RETIRED, U16 RO D (R112). -/
abbrev Obj.slicesRetired : Key := ⟨0x4300, 0x05, 0⟩

/-- ARRAY_ENERGY_WARP, U64 RO D (R112). -/
abbrev Obj.arrayEnergyWarp : Key := ⟨0x4380, 0x01, 0⟩

/-- ARRAY_ENERGY_WEFT, U64 RO D (R112). -/
abbrev Obj.arrayEnergyWeft : Key := ⟨0x4380, 0x02, 0⟩

/-- ACC_BITS, U8 RO D (R143). -/
abbrev Obj.accBits : Key := ⟨0x4400, 0x01, 0⟩

/-- ACC_LANES, U16 RO D (R143). -/
abbrev Obj.accLanes : Key := ⟨0x4400, 0x02, 0⟩

/-- ACC_BANKS, U8 RO D (R143). -/
abbrev Obj.accBanks : Key := ⟨0x4400, 0x03, 0⟩

/-- OUTLIER_STORE_BYTES, U32 RO D (R143). -/
abbrev Obj.outlierStoreBytes : Key := ⟨0x4400, 0x04, 0⟩

/-- OUTLIER_ENTRY_LIMIT, U16 RO D (R143). -/
abbrev Obj.outlierEntryLimit : Key := ⟨0x4400, 0x05, 0⟩

/-- OUTLIER_WEIGHT_LIMIT, U16 RO D (R143). -/
abbrev Obj.outlierWeightLimit : Key := ⟨0x4400, 0x06, 0⟩

/-- DIGITAL_MACS, U8 RO D (R143). -/
abbrev Obj.digitalMacs : Key := ⟨0x4400, 0x07, 0⟩

/-- RECOMPUTE_LIMIT, U8 RO D (R143). -/
abbrev Obj.recomputeLimit : Key := ⟨0x4400, 0x08, 0⟩

/-- ENGINE_MVMS, U64 RO D (R143). -/
abbrev Obj.engineMvms : Key := ⟨0x4500, 0x01, 0⟩

/-- WIDE_MVMS, U64 RO D (R143). -/
abbrev Obj.wideMvms : Key := ⟨0x4500, 0x02, 0⟩

/-- OUTLIER_MACS, U64 RO D (R143). -/
abbrev Obj.outlierMacs : Key := ⟨0x4500, 0x03, 0⟩

/-- DELTA_MACS, U64 RO D (R143). -/
abbrev Obj.deltaMacs : Key := ⟨0x4500, 0x04, 0⟩

/-- RECOMPUTES, U64 W1C D (R143). -/
abbrev Obj.recomputes : Key := ⟨0x4500, 0x05, 0⟩

/-- RECOMPUTE_STALL_CYCLES, U64 W1C D (R143). -/
abbrev Obj.recomputeStallCycles : Key := ⟨0x4500, 0x06, 0⟩

/-- DIGITAL_BOUND_MVMS, U64 W1C D (R143). -/
abbrev Obj.digitalBoundMvms : Key := ⟨0x4500, 0x07, 0⟩

/-- ACC_OVERFLOWS, U32 W1C D (R143). -/
abbrev Obj.accOverflows : Key := ⟨0x4500, 0x08, 0⟩

/-- POISONED_OUTPUTS, U64 W1C D (R143). -/
abbrev Obj.poisonedOutputs : Key := ⟨0x4500, 0x09, 0⟩

/-- OUTLIER_ECC_CORRECTED, U32 W1C D (R143). -/
abbrev Obj.outlierEccCorrected : Key := ⟨0x4500, 0x0A, 0⟩

/-- OUTLIER_ECC_UNCORRECTABLE, U32 W1C D (R143). -/
abbrev Obj.outlierEccUncorrectable : Key := ⟨0x4500, 0x0B, 0⟩

/-- GAIN_LIMITED, U32 W1C D (R143). -/
abbrev Obj.gainLimited : Key := ⟨0x4500, 0x0C, 0⟩

/-- EPILOGUE_OVERFLOWS, U32 W1C D (R143). -/
abbrev Obj.epilogueOverflows : Key := ⟨0x4500, 0x0D, 0⟩

/-- ENGINE_TABLE, DOMAIN RO D (R143). -/
abbrev Obj.engineTable : Key := ⟨0x4600, 0x01, 0⟩

/-- ENGINES_IN_SERVICE, U16 RO D (R143). -/
abbrev Obj.enginesInService : Key := ⟨0x4600, 0x02, 0⟩

/-- BLOCK_ELEMENTS, U8 RO D (R170). -/
abbrev Obj.blockElements : Key := ⟨0x4C00, 0x01, 0⟩

/-- B4_EXP_FLOOR, I32 RO D (R170). -/
abbrev Obj.b4ExpFloor : Key := ⟨0x4C00, 0x02, 0⟩

/-- B4_EXP_CEILING, I32 RO D (R170). -/
abbrev Obj.b4ExpCeiling : Key := ⟨0x4C00, 0x03, 0⟩

/-- B8_EXP_FLOOR, I32 RO D (R170). -/
abbrev Obj.b8ExpFloor : Key := ⟨0x4C00, 0x04, 0⟩

/-- B8_EXP_CEILING, I32 RO D (R170). -/
abbrev Obj.b8ExpCeiling : Key := ⟨0x4C00, 0x05, 0⟩

/-- B4_BLOCKS, U64 RO D (R170). -/
abbrev Obj.b4Blocks : Key := ⟨0x4D00, 0x01, 0⟩

/-- B8_BLOCKS, U64 RO D (R170). -/
abbrev Obj.b8Blocks : Key := ⟨0x4D00, 0x02, 0⟩

/-- ZERO_BLOCKS, U64 RO D (R170). -/
abbrev Obj.zeroBlocks : Key := ⟨0x4D00, 0x03, 0⟩

/-- FLOOR_FALLBACKS, U64 W1C D (R170). -/
abbrev Obj.floorFallbacks : Key := ⟨0x4D00, 0x04, 0⟩

/-- CEILING_FALLBACKS, U64 W1C D (R170). -/
abbrev Obj.ceilingFallbacks : Key := ⟨0x4D00, 0x05, 0⟩

/-- B8_SATURATIONS, U32 W1C D (R170). -/
abbrev Obj.b8Saturations : Key := ⟨0x4D00, 0x06, 0⟩

/-- B8_UNDERFLOWS, U64 W1C D (R170). -/
abbrev Obj.b8Underflows : Key := ⟨0x4D00, 0x07, 0⟩

/-- ALIGN_WIDE_MVMS, U64 W1C D (R170). -/
abbrev Obj.alignWideMvms : Key := ⟨0x4D00, 0x08, 0⟩

/-- ALIGN_ZEROED_BLOCKS, U64 W1C D (R170). -/
abbrev Obj.alignZeroedBlocks : Key := ⟨0x4D00, 0x09, 0⟩

/-- INVALID_OPS, U32 W1C D (R170). -/
abbrev Obj.invalidOps : Key := ⟨0x4D00, 0x0A, 0⟩

/-- FP_SATURATIONS, U32 W1C D (R170). -/
abbrev Obj.fpSaturations : Key := ⟨0x4D00, 0x0B, 0⟩

/-- NAV_ELEMENTS, U64 W1C D (R170). -/
abbrev Obj.navElements : Key := ⟨0x4D00, 0x0C, 0⟩

/-- SR_DRAWS, U64 RO D (R170). -/
abbrev Obj.srDraws : Key := ⟨0x4D00, 0x0D, 0⟩

/-- NUMERIC_EVENTS, U32 W1C D (R170). -/
abbrev Obj.numericEvents : Key := ⟨0x4D00, 0x0E, 0⟩

/-- WIDE_CAP, U8 RW T (R170). -/
abbrev Obj.wideCap (t : Nat) : Key := ⟨0x4E00, 0x01, t⟩

/-- WIDE_WINDOW, U8 RW S (R170). -/
abbrev Obj.wideWindow : Key := ⟨0x4E00, 0x02, 0⟩

/-- WIDE_STORMS, U32 W1C D (R170). -/
abbrev Obj.wideStorms : Key := ⟨0x4E00, 0x03, 0⟩

/-- TENANT_WIDE_STORMS, U32 W1C T (R170). -/
abbrev Obj.tenantWideStorms (t : Nat) : Key := ⟨0x4E00, 0x04, t⟩

/-- WIDE_CLASS_NOW, U16 RO D (R170). -/
abbrev Obj.wideClassNow : Key := ⟨0x4E00, 0x05, 0⟩

/-- SLOT_LIMIT, U8 RO D (R222). -/
abbrev Obj.slotLimit : Key := ⟨0x5000, 0x01, 0⟩

/-- BOLT_FORMAT, U32 RO D (R222). -/
abbrev Obj.boltFormat : Key := ⟨0x5000, 0x02, 0⟩

/-- MICROBATCH_LIMIT, U16 RO D (R222). -/
abbrev Obj.microbatchLimit : Key := ⟨0x5000, 0x03, 0⟩

/-- EDGE_SHARE_LIMIT, U8 RW S (R222). -/
abbrev Obj.edgeShareLimit : Key := ⟨0x5000, 0x04, 0⟩

/-- FACETS_UNALLOCATED, U16 RO D (R222). -/
abbrev Obj.facetsUnallocated : Key := ⟨0x5000, 0x05, 0⟩

/-- SLOT_STATE, U8 RO P (R222). -/
abbrev Obj.slotState (n : Nat) : Key := ⟨0x5010, n + 1, 0⟩

/-- SLOT_BOLT_ID, U64 RO P (R222). -/
abbrev Obj.slotBoltId (n : Nat) : Key := ⟨0x5011, n + 1, 0⟩

/-- SLOT_BOLT_VERSION, U32 RO P (R222). -/
abbrev Obj.slotBoltVersion (n : Nat) : Key := ⟨0x5012, n + 1, 0⟩

/-- SLOT_DIE_INDEX, U16 RO P (R222). -/
abbrev Obj.slotDieIndex (n : Nat) : Key := ⟨0x5013, n + 1, 0⟩

/-- SLOT_KIND, U8 RO P (R222). -/
abbrev Obj.slotKind (n : Nat) : Key := ⟨0x5014, n + 1, 0⟩

/-- SLOT_FACETS, U16 RO P (R222). -/
abbrev Obj.slotFacets (n : Nat) : Key := ⟨0x5015, n + 1, 0⟩

/-- SLOT_LAYERS, U16 RO P (R222). -/
abbrev Obj.slotLayers (n : Nat) : Key := ⟨0x5016, n + 1, 0⟩

/-- SLOT_EDGE_SHARE, U8 RO P (R222). -/
abbrev Obj.slotEdgeShare (n : Nat) : Key := ⟨0x5017, n + 1, 0⟩

/-- SLOT_OWNER_KEY, U64 RO P (R222). -/
abbrev Obj.slotOwnerKey (n : Nat) : Key := ⟨0x5018, n + 1, 0⟩

/-- SLOT_HEADER, DOMAIN RO P (R222). -/
abbrev Obj.slotHeader (n : Nat) : Key := ⟨0x5019, n + 1, 0⟩

/-- SLOT_SHAPE, DOMAIN RO D (R222). -/
abbrev Obj.slotShape (n : Nat) : Key := ⟨0x501A, n + 1, 0⟩

/-- OPS_EXECUTED, U64 RO D (R222). -/
abbrev Obj.opsExecuted : Key := ⟨0x5100, 0x01, 0⟩

/-- PROGRAM_WORD_ERRORS, U32 W1C D (R222). -/
abbrev Obj.programWordErrors : Key := ⟨0x5100, 0x02, 0⟩

/-- EXPERT_OVERRUNS, U64 W1C D (R222). -/
abbrev Obj.expertOverruns : Key := ⟨0x5100, 0x03, 0⟩

/-- COLLECTIVE_WAIT_NS, U64 W1C D (R222). -/
abbrev Obj.collectiveWaitNs : Key := ⟨0x5100, 0x04, 0⟩

/-- MB_DEPTH_STALLS, U64 W1C D (R222). -/
abbrev Obj.mbDepthStalls : Key := ⟨0x5100, 0x05, 0⟩

/-- LOAD_REQUEST, DOMAIN RW D (R276). -/
abbrev Obj.loadRequest : Key := ⟨0x5400, 0x01, 0⟩

/-- LOAD_START, U8 CMD D (R276). -/
abbrev Obj.loadStart : Key := ⟨0x5400, 0x02, 0⟩

/-- LOAD_BYTES, U64 RO D (R276). -/
abbrev Obj.loadBytes : Key := ⟨0x5400, 0x03, 0⟩

/-- LOAD_FACETS_DONE, U16 RO D (R276). -/
abbrev Obj.loadFacetsDone : Key := ⟨0x5400, 0x04, 0⟩

/-- LOAD_TIME_US, U32 RO D (R276). -/
abbrev Obj.loadTimeUs : Key := ⟨0x5400, 0x05, 0⟩

/-- SLOT_RELEASE, U8 CMD D (R276). -/
abbrev Obj.slotRelease : Key := ⟨0x5400, 0x06, 0⟩

/-- PROGRAM_CONCURRENCY, U16 RW S (R276). -/
abbrev Obj.programConcurrency : Key := ⟨0x5500, 0x01, 0⟩

/-- PROGRAM_DRAW_MW, U16 RO D (R276). -/
abbrev Obj.programDrawMw : Key := ⟨0x5500, 0x02, 0⟩

/-- PROGRAMS_TOTAL, U64 RO P (R276). -/
abbrev Obj.programsTotal : Key := ⟨0x5500, 0x03, 0⟩

/-- PROGRAM_RETRIES, U32 W1C D (R276). -/
abbrev Obj.programRetries : Key := ⟨0x5500, 0x04, 0⟩

/-- PROGRAM_FAILURES, U32 W1C D (R276). -/
abbrev Obj.programFailures : Key := ⟨0x5500, 0x05, 0⟩

/-- PROGRAM_POWER_WAITS, U64 W1C D (R276). -/
abbrev Obj.programPowerWaits : Key := ⟨0x5500, 0x06, 0⟩

/-- PROGRAM_THERMAL_WAITS, U64 W1C D (R276). -/
abbrev Obj.programThermalWaits : Key := ⟨0x5500, 0x07, 0⟩

/-- REPLACE_SLOT, U32 CMD D (R276). -/
abbrev Obj.replaceSlot : Key := ⟨0x5600, 0x01, 0⟩

/-- SLOT_ADMISSION, U8 RO D (R276). -/
abbrev Obj.slotAdmission (n : Nat) : Key := ⟨0x5601, n + 1, 0⟩

/-- DRAINS_DISCARDED, U32 W1C D (R276). -/
abbrev Obj.drainsDiscarded : Key := ⟨0x5600, 0x02, 0⟩

/-- SHADOW_TABLE, DOMAIN RO D (R276). -/
abbrev Obj.shadowTable : Key := ⟨0x5700, 0x01, 0⟩

/-- SHADOWS_ACTIVE, U16 RO D (R276). -/
abbrev Obj.shadowsActive : Key := ⟨0x5700, 0x02, 0⟩

/-- FLIPS, U64 RO D (R276). -/
abbrev Obj.flips : Key := ⟨0x5700, 0x03, 0⟩

/-- REMAPS, U16 RO P (R276). -/
abbrev Obj.remaps : Key := ⟨0x5700, 0x04, 0⟩

/-- IN_PLACE_ENABLE, BOOL RW S (R276). -/
abbrev Obj.inPlaceEnable : Key := ⟨0x5700, 0x05, 0⟩

/-- IN_PLACE_AFTER, U16 RW S (R276). -/
abbrev Obj.inPlaceAfter : Key := ⟨0x5700, 0x06, 0⟩

/-- PAUSE_LIMIT_MS, U8 RW S (R276). -/
abbrev Obj.pauseLimitMs : Key := ⟨0x5700, 0x07, 0⟩

/-- IN_PLACE_REFRESHES, U32 RO D (R276). -/
abbrev Obj.inPlaceRefreshes : Key := ⟨0x5700, 0x08, 0⟩

/-- REQUEST_ENTRIES, U16 RO D (R310). -/
abbrev Obj.requestEntries : Key := ⟨0x6000, 0x01, 0⟩

/-- LANE_LIMIT, U16 RO D (R310). -/
abbrev Obj.laneLimit : Key := ⟨0x6000, 0x02, 0⟩

/-- PREFILL_RECORD_LIMIT, U16 RO D (R310). -/
abbrev Obj.prefillRecordLimit : Key := ⟨0x6000, 0x03, 0⟩

/-- DECODE_VECTOR_LIMIT, U16 RO D (R310). -/
abbrev Obj.decodeVectorLimit : Key := ⟨0x6000, 0x04, 0⟩

/-- PREFILL_VECTOR_LIMIT, U16 RO D (R310). -/
abbrev Obj.prefillVectorLimit : Key := ⟨0x6000, 0x05, 0⟩

/-- STEP_BOUND_US, U16 RO D (R310). -/
abbrev Obj.stepBoundUs : Key := ⟨0x6000, 0x06, 0⟩

/-- VARIANTS_PER_STEP, U8 RO D (R310). -/
abbrev Obj.variantsPerStep : Key := ⟨0x6000, 0x07, 0⟩

/-- PLANNER_RUN, BOOL RW D (R310). -/
abbrev Obj.plannerRun : Key := ⟨0x6010, 0x01, 0⟩

/-- STEP_TARGET_US, U16 RW S (R310). -/
abbrev Obj.stepTargetUs : Key := ⟨0x6010, 0x02, 0⟩

/-- PREFILL_SHARE, U8 RW S (R310). -/
abbrev Obj.prefillShare : Key := ⟨0x6010, 0x03, 0⟩

/-- AGE_STEPS, U16 RW S (R310). -/
abbrev Obj.ageSteps : Key := ⟨0x6010, 0x04, 0⟩

/-- WIDE_PERIOD, U8 RW S (R310). -/
abbrev Obj.widePeriod : Key := ⟨0x6010, 0x05, 0⟩

/-- OUTPUT_BACKLOG, U16 RW S (R310). -/
abbrev Obj.outputBacklog : Key := ⟨0x6010, 0x06, 0⟩

/-- PAGE_RESERVE, U32 RW S (R310). -/
abbrev Obj.pageReserve : Key := ⟨0x6010, 0x07, 0⟩

/-- CORRECTION, U16 RO D (R310). -/
abbrev Obj.correction : Key := ⟨0x6010, 0x08, 0⟩

/-- RATE_FACTOR, U16 RO D (R310). -/
abbrev Obj.rateFactor : Key := ⟨0x6010, 0x09, 0⟩

/-- STEP_COST, DOMAIN RW D (R310). -/
abbrev Obj.stepCost (n : Nat) : Key := ⟨0x6011, n + 1, 0⟩

/-- CONTEXT_LIMIT, U32 RW S (R310). -/
abbrev Obj.contextLimit (n : Nat) : Key := ⟨0x6012, n + 1, 0⟩

/-- STEPS, U64 RO D (R310). -/
abbrev Obj.steps : Key := ⟨0x6100, 0x01, 0⟩

/-- STEP_OVERRUNS, U32 W1C D (R310). -/
abbrev Obj.stepOverruns : Key := ⟨0x6100, 0x02, 0⟩

/-- STEP_MAX_US, U32 W1C D (R310). -/
abbrev Obj.stepMaxUs : Key := ⟨0x6100, 0x03, 0⟩

/-- REQUESTS_ADMITTED, U64 RO D (R310). -/
abbrev Obj.requestsAdmitted : Key := ⟨0x6100, 0x04, 0⟩

/-- INTAKE_REFUSED, U32 W1C D (R310). -/
abbrev Obj.intakeRefused : Key := ⟨0x6100, 0x05, 0⟩

/-- REQUESTS_EXPIRED, U32 W1C D (R310). -/
abbrev Obj.requestsExpired : Key := ⟨0x6100, 0x06, 0⟩

/-- LATE_DELIVERIES, U64 W1C D (R310). -/
abbrev Obj.lateDeliveries : Key := ⟨0x6100, 0x07, 0⟩

/-- REQUESTS_CANCELLED, U32 W1C D (R310). -/
abbrev Obj.requestsCancelled : Key := ⟨0x6100, 0x08, 0⟩

/-- REQUESTS_FAILED, U32 W1C D (R310). -/
abbrev Obj.requestsFailed : Key := ⟨0x6100, 0x09, 0⟩

/-- TOKENS_COMMITTED, U64 RO D (R310). -/
abbrev Obj.tokensCommitted : Key := ⟨0x6100, 0x0A, 0⟩

/-- PREFILL_VECTORS, U64 RO D (R310). -/
abbrev Obj.prefillVectors : Key := ⟨0x6100, 0x0B, 0⟩

/-- BUDGET_SKIPS, U64 W1C D (R310). -/
abbrev Obj.budgetSkips : Key := ⟨0x6100, 0x0C, 0⟩

/-- BACKLOG_SKIPS, U64 W1C D (R310). -/
abbrev Obj.backlogSkips : Key := ⟨0x6100, 0x0D, 0⟩

/-- PAGE_HOLDS, U32 W1C D (R310). -/
abbrev Obj.pageHolds : Key := ⟨0x6100, 0x0E, 0⟩

/-- LIVE_REQUESTS, U16 RO D (R310). -/
abbrev Obj.liveRequests : Key := ⟨0x6100, 0x0F, 0⟩

/-- KV_PAGE_BYTES, U32 RO D (R310). -/
abbrev Obj.kvPageBytes : Key := ⟨0x6200, 0x01, 0⟩

/-- KV_PAGES_TOTAL, U32 RO D (R310). -/
abbrev Obj.kvPagesTotal : Key := ⟨0x6200, 0x02, 0⟩

/-- KV_PAGES_FREE, U32 RO D (R310). -/
abbrev Obj.kvPagesFree : Key := ⟨0x6200, 0x03, 0⟩

/-- KV_PAGES_SHARED, U32 RO D (R310). -/
abbrev Obj.kvPagesShared : Key := ⟨0x6200, 0x04, 0⟩

/-- COW_COPIES, U64 RO D (R310). -/
abbrev Obj.cowCopies : Key := ⟨0x6200, 0x05, 0⟩

/-- PAGE_POSITIONS, U16 RO D (R310). -/
abbrev Obj.pagePositions (n : Nat) : Key := ⟨0x6201, n + 1, 0⟩

/-- TENANT_LANE_CAP, U16 RW T (R310). -/
abbrev Obj.tenantLaneCap (t : Nat) : Key := ⟨0x6300, 0x01, t⟩

/-- TENANT_PRIORITY_MAX, U8 RW T (R310). -/
abbrev Obj.tenantPriorityMax (t : Nat) : Key := ⟨0x6300, 0x02, t⟩

/-- TENANT_REQUEST_CAP, U16 RW T (R310). -/
abbrev Obj.tenantRequestCap (t : Nat) : Key := ⟨0x6300, 0x03, t⟩

/-- TENANT_PAGE_CAP, U32 RW T (R310). -/
abbrev Obj.tenantPageCap (t : Nat) : Key := ⟨0x6300, 0x04, t⟩

/-- TENANT_LIVE, U16 RO T (R310). -/
abbrev Obj.tenantLive (t : Nat) : Key := ⟨0x6300, 0x05, t⟩

/-- TENANT_PAGES, U32 RO T (R310). -/
abbrev Obj.tenantPages (t : Nat) : Key := ⟨0x6300, 0x06, t⟩

/-- TENANT_TOKENS, U64 RO T (R310). -/
abbrev Obj.tenantTokens (t : Nat) : Key := ⟨0x6300, 0x07, t⟩

/-- TENANT_EXPIRED, U32 W1C T (R310). -/
abbrev Obj.tenantExpired (t : Nat) : Key := ⟨0x6300, 0x08, t⟩

/-- TENANT_LATE, U32 W1C T (R310). -/
abbrev Obj.tenantLate (t : Nat) : Key := ⟨0x6300, 0x09, t⟩

/-- REQUEST_SELECT, U32 RW T (R310). -/
abbrev Obj.requestSelect (t : Nat) : Key := ⟨0x6400, 0x01, t⟩

/-- REQUEST_ENTRY, DOMAIN RO T (R310). -/
abbrev Obj.requestEntry (t : Nat) : Key := ⟨0x6400, 0x02, t⟩

/-- REQUEST_CANCEL, U32 CMD T (R310). -/
abbrev Obj.requestCancel (t : Nat) : Key := ⟨0x6400, 0x03, t⟩

/-- REQUEST_HOLD, U32 CMD T (R310). -/
abbrev Obj.requestHold (t : Nat) : Key := ⟨0x6400, 0x04, t⟩

/-- REQUEST_RESUME, U32 CMD T (R310). -/
abbrev Obj.requestResume (t : Nat) : Key := ⟨0x6400, 0x05, t⟩

/-- REQUEST_RELEASE, U32 CMD T (R310). -/
abbrev Obj.requestRelease (t : Nat) : Key := ⟨0x6400, 0x06, t⟩

/-- REQUEST_TABLE, DOMAIN RO D (R310). -/
abbrev Obj.requestTable : Key := ⟨0x6400, 0x07, 0⟩

/-- DRAFT_DEPTH_LIMIT, U8 RO D (R340). -/
abbrev Obj.draftDepthLimit : Key := ⟨0x6800, 0x01, 0⟩

/-- ZERO_ACCEPT_LIMIT, U8 RO D (R340). -/
abbrev Obj.zeroAcceptLimit : Key := ⟨0x6800, 0x02, 0⟩

/-- STACK_DEPTH_LIMIT, U8 RO D (R340). -/
abbrev Obj.stackDepthLimit : Key := ⟨0x6800, 0x03, 0⟩

/-- GRAMMAR_STATE_LIMIT, U32 RO D (R340). -/
abbrev Obj.grammarStateLimit : Key := ⟨0x6800, 0x04, 0⟩

/-- MASK_BYTES, U32 RO D (R340). -/
abbrev Obj.maskBytes : Key := ⟨0x6800, 0x05, 0⟩

/-- DRAFT_RETRY_STEPS, U16 RW S (R340). -/
abbrev Obj.draftRetrySteps : Key := ⟨0x6810, 0x01, 0⟩

/-- DRAFT_CATCHUP, U16 RW S (R340). -/
abbrev Obj.draftCatchup : Key := ⟨0x6810, 0x02, 0⟩

/-- SPEC_LANES, U64 RO D (R340). -/
abbrev Obj.specLanes : Key := ⟨0x6900, 0x01, 0⟩

/-- DRAFTS_PROPOSED, U64 RO D (R340). -/
abbrev Obj.draftsProposed : Key := ⟨0x6900, 0x02, 0⟩

/-- DRAFTS_ACCEPTED, U64 RO D (R340). -/
abbrev Obj.draftsAccepted : Key := ⟨0x6900, 0x03, 0⟩

/-- ZERO_ACCEPT_LANES, U64 W1C D (R340). -/
abbrev Obj.zeroAcceptLanes : Key := ⟨0x6900, 0x04, 0⟩

/-- DEPTH_HALVINGS, U32 W1C D (R340). -/
abbrev Obj.depthHalvings : Key := ⟨0x6900, 0x05, 0⟩

/-- DEPTH_RAISES, U32 W1C D (R340). -/
abbrev Obj.depthRaises : Key := ⟨0x6900, 0x06, 0⟩

/-- DRAFT_EMPTY_LANES, U64 W1C D (R340). -/
abbrev Obj.draftEmptyLanes : Key := ⟨0x6900, 0x07, 0⟩

/-- CATCHUP_POSITIONS, U64 RO D (R340). -/
abbrev Obj.catchupPositions : Key := ⟨0x6900, 0x08, 0⟩

/-- DRAFT_PROB_ACCEPTED, U64 RO D (R340). -/
abbrev Obj.draftProbAccepted : Key := ⟨0x6900, 0x09, 0⟩

/-- DRAFT_PROB_REJECTED, U64 RO D (R340). -/
abbrev Obj.draftProbRejected : Key := ⟨0x6900, 0x0A, 0⟩

/-- DRAFT_PAGES_FREE, U32 RO D (R340). -/
abbrev Obj.draftPagesFree : Key := ⟨0x6900, 0x0B, 0⟩

/-- DRAFT_POISON, U32 W1C D (R340). -/
abbrev Obj.draftPoison : Key := ⟨0x6900, 0x0C, 0⟩

/-- GRAMMAR_STORE_BYTES, U64 RO D (R340). -/
abbrev Obj.grammarStoreBytes : Key := ⟨0x6A00, 0x01, 0⟩

/-- GRAMMAR_STORE_FREE, U64 RO D (R340). -/
abbrev Obj.grammarStoreFree : Key := ⟨0x6A00, 0x02, 0⟩

/-- GRAMMARS_LOADED, U16 RO D (R340). -/
abbrev Obj.grammarsLoaded : Key := ⟨0x6A00, 0x03, 0⟩

/-- MASKS_GENERATED, U64 RO D (R340). -/
abbrev Obj.masksGenerated : Key := ⟨0x6A00, 0x04, 0⟩

/-- MASK_NS_MAX, U32 W1C D (R340). -/
abbrev Obj.maskNsMax : Key := ⟨0x6A00, 0x05, 0⟩

/-- GRAMMAR_DEAD_ENDS, U32 W1C D (R340). -/
abbrev Obj.grammarDeadEnds : Key := ⟨0x6A00, 0x06, 0⟩

/-- STACK_LIMIT_MASKS, U64 W1C D (R340). -/
abbrev Obj.stackLimitMasks : Key := ⟨0x6A00, 0x07, 0⟩

/-- GRAMMAR_POISON, U32 W1C D (R340). -/
abbrev Obj.grammarPoison : Key := ⟨0x6A00, 0x08, 0⟩

/-- GRAMMAR_ID, U16 RW T (R340). -/
abbrev Obj.grammarId (t : Nat) : Key := ⟨0x6A10, 0x01, t⟩

/-- GRAMMAR_IMAGE, DOMAIN RW T (R340). -/
abbrev Obj.grammarImage (t : Nat) : Key := ⟨0x6A10, 0x02, t⟩

/-- GRAMMAR_DELETE, U16 CMD T (R340). -/
abbrev Obj.grammarDelete (t : Nat) : Key := ⟨0x6A10, 0x03, t⟩

/-- TENANT_GRAMMAR_CAP, U32 RW T (R340). -/
abbrev Obj.tenantGrammarCap (t : Nat) : Key := ⟨0x6A10, 0x04, t⟩

/-- GLOBAL_GRAMMAR_ID, U16 RW D (R340). -/
abbrev Obj.globalGrammarId : Key := ⟨0x6A20, 0x01, 0⟩

/-- GLOBAL_GRAMMAR_IMAGE, DOMAIN RW D (R340). -/
abbrev Obj.globalGrammarImage : Key := ⟨0x6A20, 0x02, 0⟩

/-- GLOBAL_GRAMMAR_DELETE, U16 CMD D (R340). -/
abbrev Obj.globalGrammarDelete : Key := ⟨0x6A20, 0x03, 0⟩

/-- SAMPLES, U64 RO D (R340). -/
abbrev Obj.samples : Key := ⟨0x6B00, 0x01, 0⟩

/-- GREEDY_SAMPLES, U64 RO D (R340). -/
abbrev Obj.greedySamples : Key := ⟨0x6B00, 0x02, 0⟩

/-- NUCLEUS_SHORT, U64 W1C D (R340). -/
abbrev Obj.nucleusShort : Key := ⟨0x6B00, 0x03, 0⟩

/-- TENANT_DRAFTED, U64 RO T (R340). -/
abbrev Obj.tenantDrafted (t : Nat) : Key := ⟨0x6C00, 0x01, t⟩

/-- TENANT_ACCEPTED, U64 RO T (R340). -/
abbrev Obj.tenantAccepted (t : Nat) : Key := ⟨0x6C00, 0x02, t⟩

/-- SETS_PER_SLOT, U16 RO D (R374). -/
abbrev Obj.setsPerSlot : Key := ⟨0x7000, 0x01, 0⟩

/-- DENSITY_DIVISOR, U16 RO D (R374). -/
abbrev Obj.densityDivisor : Key := ⟨0x7000, 0x02, 0⟩

/-- DELTA_RESERVE_GIB, U16 RW S (R374). -/
abbrev Obj.deltaReserveGib : Key := ⟨0x7000, 0x03, 0⟩

/-- DELTA_RESERVE_BYTES, U64 RO D (R374). -/
abbrev Obj.deltaReserveBytes : Key := ⟨0x7000, 0x04, 0⟩

/-- DELTA_RESERVE_FREE, U64 RO D (R374). -/
abbrev Obj.deltaReserveFree : Key := ⟨0x7000, 0x05, 0⟩

/-- DELTA_BUFFER_KIB, U16 RW S (R374). -/
abbrev Obj.deltaBufferKib : Key := ⟨0x7000, 0x06, 0⟩

/-- DELTA_SETS_LOADED, U16 RO D (R374). -/
abbrev Obj.deltaSetsLoaded : Key := ⟨0x7000, 0x07, 0⟩

/-- DELTA_BYTES_STREAMED, U64 RO D (R374). -/
abbrev Obj.deltaBytesStreamed : Key := ⟨0x7100, 0x01, 0⟩

/-- DELTA_STALLS, U64 W1C D (R374). -/
abbrev Obj.deltaStalls : Key := ⟨0x7100, 0x02, 0⟩

/-- DELTA_STALL_NS, U64 W1C D (R374). -/
abbrev Obj.deltaStallNs : Key := ⟨0x7100, 0x03, 0⟩

/-- DELTA_SPLITS, U64 W1C D (R374). -/
abbrev Obj.deltaSplits : Key := ⟨0x7100, 0x04, 0⟩

/-- DELTA_EVICTIONS, U32 W1C D (R374). -/
abbrev Obj.deltaEvictions : Key := ⟨0x7100, 0x05, 0⟩

/-- DELTA_LOADS_REFUSED, U32 W1C D (R374). -/
abbrev Obj.deltaLoadsRefused : Key := ⟨0x7100, 0x06, 0⟩

/-- DELTA_SETS_BAD, U16 RO D (R374). -/
abbrev Obj.deltaSetsBad : Key := ⟨0x7100, 0x07, 0⟩

/-- DELTA_POISON, U32 W1C D (R374). -/
abbrev Obj.deltaPoison : Key := ⟨0x7100, 0x08, 0⟩

/-- VARIANT_SELECT, U16 RW T (R374). -/
abbrev Obj.variantSelect (t : Nat) : Key := ⟨0x7200, 0x01, t⟩

/-- VARIANT_INFO, DOMAIN RO T (R374). -/
abbrev Obj.variantInfo (t : Nat) : Key := ⟨0x7200, 0x02, t⟩

/-- VARIANT_LOAD_REQUEST, DOMAIN RW T (R374). -/
abbrev Obj.variantLoadRequest (t : Nat) : Key := ⟨0x7200, 0x03, t⟩

/-- VARIANT_LOAD, U8 CMD T (R374). -/
abbrev Obj.variantLoad (t : Nat) : Key := ⟨0x7200, 0x04, t⟩

/-- VARIANT_UNLOAD, U16 CMD T (R374). -/
abbrev Obj.variantUnload (t : Nat) : Key := ⟨0x7200, 0x05, t⟩

/-- VARIANT_PIN, U32 CMD D (R374). -/
abbrev Obj.variantPin : Key := ⟨0x7200, 0x06, 0⟩

/-- TENANT_DELTA_CAP, U32 RW T (R374). -/
abbrev Obj.tenantDeltaCap (t : Nat) : Key := ⟨0x7200, 0x07, t⟩

/-- TENANT_DELTA_BYTES, U64 RO T (R374). -/
abbrev Obj.tenantDeltaBytes (t : Nat) : Key := ⟨0x7200, 0x08, t⟩

/-- TUNE_JOB, DOMAIN RW T (R374). -/
abbrev Obj.tuneJob (t : Nat) : Key := ⟨0x7300, 0x01, t⟩

/-- TUNE_START, U8 CMD T (R374). -/
abbrev Obj.tuneStart (t : Nat) : Key := ⟨0x7300, 0x02, t⟩

/-- TUNE_STATUS, DOMAIN RO T (R374). -/
abbrev Obj.tuneStatus (t : Nat) : Key := ⟨0x7300, 0x03, t⟩

/-- TUNE_PERIOD, U8 RW S (R374). -/
abbrev Obj.tunePeriod : Key := ⟨0x7300, 0x04, 0⟩

/-- TUNE_JOBS_RUNNING, U8 RO D (R374). -/
abbrev Obj.tuneJobsRunning : Key := ⟨0x7300, 0x05, 0⟩

/-- PUBLISH_DEFERRED, U32 W1C D (R374). -/
abbrev Obj.publishDeferred : Key := ⟨0x7300, 0x06, 0⟩

/-- TUNE_STEP_COST, DOMAIN RW D (R374). -/
abbrev Obj.tuneStepCost (n : Nat) : Key := ⟨0x7301, n + 1, 0⟩

/-- TUNE_PROGRAM, DOMAIN RW D (R374). -/
abbrev Obj.tuneProgram (n : Nat) : Key := ⟨0x7302, n + 1, 0⟩

/-- TUNE_STEPS, U64 RO D (R374). -/
abbrev Obj.tuneSteps : Key := ⟨0x7400, 0x01, 0⟩

/-- TUNE_UPDATES, U64 RO D (R374). -/
abbrev Obj.tuneUpdates : Key := ⟨0x7400, 0x02, 0⟩

/-- TUNE_PUBLISHES, U32 RO D (R374). -/
abbrev Obj.tunePublishes : Key := ⟨0x7400, 0x03, 0⟩

/-- ROLE, U8 RO D (R409). -/
abbrev Obj.role : Key := ⟨0x8000, 0x01, 0⟩

/-- DEVICE_ID, U8 RO D (R409). -/
abbrev Obj.deviceId : Key := ⟨0x8000, 0x02, 0⟩

/-- GROUP_STATE, U8 RO D (R409). -/
abbrev Obj.groupState : Key := ⟨0x8000, 0x03, 0⟩

/-- GROUP_EPOCH, U32 RO P (R409). -/
abbrev Obj.groupEpoch : Key := ⟨0x8000, 0x04, 0⟩

/-- GROUP_MEMBERS, U16 RO D (R409). -/
abbrev Obj.groupMembers : Key := ⟨0x8000, 0x05, 0⟩

/-- WORKER_COUNT, U8 RO D (R409). -/
abbrev Obj.workerCount : Key := ⟨0x8000, 0x06, 0⟩

/-- GROUP_FORM, U8 CMD D (R409). -/
abbrev Obj.groupForm : Key := ⟨0x8000, 0x07, 0⟩

/-- GROUP_DISSOLVE, U8 CMD D (R409). -/
abbrev Obj.groupDissolve : Key := ⟨0x8000, 0x08, 0⟩

/-- GROUP_PLAN, DOMAIN RW S (R409). -/
abbrev Obj.groupPlan : Key := ⟨0x8000, 0x09, 0⟩

/-- PLAN_STRICT, BOOL RW S (R409). -/
abbrev Obj.planStrict : Key := ⟨0x8000, 0x0A, 0⟩

/-- AUTO_REFORM, BOOL RW S (R409). -/
abbrev Obj.autoReform : Key := ⟨0x8000, 0x0B, 0⟩

/-- TAKEOVER_ENABLE, BOOL RW S (R409). -/
abbrev Obj.takeoverEnable : Key := ⟨0x8000, 0x0C, 0⟩

/-- HEARTBEAT_US, U16 RW S (R409). -/
abbrev Obj.heartbeatUs : Key := ⟨0x8000, 0x0D, 0⟩

/-- MANAGER_TIMEOUT_MS, U8 RW S (R409). -/
abbrev Obj.managerTimeoutMs : Key := ⟨0x8000, 0x0E, 0⟩

/-- STEP_RESULT_TIMEOUT_MS, U16 RW S (R409). -/
abbrev Obj.stepResultTimeoutMs : Key := ⟨0x8000, 0x0F, 0⟩

/-- TOPOLOGY, DOMAIN RO D (R409). -/
abbrev Obj.topology : Key := ⟨0x8000, 0x10, 0⟩

/-- ROUTE_TABLE, DOMAIN RO D (R409). -/
abbrev Obj.routeTable : Key := ⟨0x8000, 0x11, 0⟩

/-- EXCLUDED_DEVICES, U16 RO D (R409). -/
abbrev Obj.excludedDevices : Key := ⟨0x8000, 0x12, 0⟩

/-- LINK_REPLAY_LIMIT, U32 RW S (R409). -/
abbrev Obj.linkReplayLimit : Key := ⟨0x8000, 0x13, 0⟩

/-- GROUP_FAULTS, U32 W1C D (R409). -/
abbrev Obj.groupFaults : Key := ⟨0x8100, 0x01, 0⟩

/-- LAST_GROUP_FAULT, U64 RO S (R409). -/
abbrev Obj.lastGroupFault : Key := ⟨0x8100, 0x02, 0⟩

/-- TAKEOVERS, U32 RO S (R409). -/
abbrev Obj.takeovers : Key := ⟨0x8100, 0x03, 0⟩

/-- MIRROR_TABLE, DOMAIN RO D (R409). -/
abbrev Obj.mirrorTable : Key := ⟨0x8100, 0x04, 0⟩

/-- MIRROR_RELEASE, U8 CMD D (R409). -/
abbrev Obj.mirrorRelease : Key := ⟨0x8100, 0x05, 0⟩

/-- STANDBY_LOST_EVENTS, U32 W1C D (R409). -/
abbrev Obj.standbyLostEvents : Key := ⟨0x8100, 0x06, 0⟩

/-- LINK_STATUS, U32 RO D (R409). -/
abbrev Obj.linkStatus (n : Nat) : Key := ⟨0x8200, n + 1, 0⟩

/-- LINK_ENABLE, BOOL RW S (R409). -/
abbrev Obj.linkEnable (n : Nat) : Key := ⟨0x8201, n + 1, 0⟩

/-- LINK_LATENCY_NS, U16 RO D (R409). -/
abbrev Obj.linkLatencyNs (n : Nat) : Key := ⟨0x8202, n + 1, 0⟩

/-- LINK_PARTNER, U64 RO D (R409). -/
abbrev Obj.linkPartner (n : Nat) : Key := ⟨0x8203, n + 1, 0⟩

/-- LINK_TX_BYTES, U64 RO D (R409). -/
abbrev Obj.linkTxBytes (n : Nat) : Key := ⟨0x8204, n + 1, 0⟩

/-- LINK_RX_BYTES, U64 RO D (R409). -/
abbrev Obj.linkRxBytes (n : Nat) : Key := ⟨0x8205, n + 1, 0⟩

/-- LINK_CRC_ERRORS, U32 W1C D (R409). -/
abbrev Obj.linkCrcErrors (n : Nat) : Key := ⟨0x8206, n + 1, 0⟩

/-- LINK_REPLAYS, U32 W1C D (R409). -/
abbrev Obj.linkReplays (n : Nat) : Key := ⟨0x8207, n + 1, 0⟩

/-- LINK_DOWN_EVENTS, U32 W1C D (R409). -/
abbrev Obj.linkDownEvents (n : Nat) : Key := ⟨0x8208, n + 1, 0⟩

/-- SELVEDGE_WAIT_MAX_PS, U16 W1C D (R409). -/
abbrev Obj.selvedgeWaitMaxPs (n : Nat) : Key := ⟨0x8209, n + 1, 0⟩

/-- SELVEDGE_REPLAY_WAITS, U32 W1C D (R409). -/
abbrev Obj.selvedgeReplayWaits (n : Nat) : Key := ⟨0x820A, n + 1, 0⟩

/-- REDUCTIONS, U64 RO D (R409). -/
abbrev Obj.reductions : Key := ⟨0x8300, 0x01, 0⟩

/-- REDUCE_BYTES_WEST, U64 RO D (R409). -/
abbrev Obj.reduceBytesWest : Key := ⟨0x8300, 0x02, 0⟩

/-- REDUCE_BYTES_EAST, U64 RO D (R409). -/
abbrev Obj.reduceBytesEast : Key := ⟨0x8300, 0x03, 0⟩

/-- COMBINE_STALL_NS, U64 W1C D (R409). -/
abbrev Obj.combineStallNs : Key := ⟨0x8300, 0x04, 0⟩

/-- BUDGET_MESSAGES, U64 RO D (R409). -/
abbrev Obj.budgetMessages : Key := ⟨0x8300, 0x05, 0⟩

/-- FUNCTIONS_PER_PORT, U16 RO D (R440). -/
abbrev Obj.functionsPerPort : Key := ⟨0x9000, 0x01, 0⟩

/-- TENANT_LIMIT, U16 RO D (R440). -/
abbrev Obj.tenantLimit : Key := ⟨0x9000, 0x02, 0⟩

/-- WINDOW_SPACE_GIB, U16 RO D (R440). -/
abbrev Obj.windowSpaceGib : Key := ⟨0x9000, 0x03, 0⟩

/-- WINDOWS_PER_FUNCTION, U8 RO D (R440). -/
abbrev Obj.windowsPerFunction : Key := ⟨0x9000, 0x04, 0⟩

/-- INTAKE_DESCRIPTORS, U64 RO D (R440). -/
abbrev Obj.intakeDescriptors : Key := ⟨0x9000, 0x05, 0⟩

/-- COMPLETIONS_WRITTEN, U64 RO D (R440). -/
abbrev Obj.completionsWritten : Key := ⟨0x9000, 0x06, 0⟩

/-- UNMAPPED_ACCESSES, U32 W1C D (R440). -/
abbrev Obj.unmappedAccesses : Key := ⟨0x9000, 0x07, 0⟩

/-- PORT_STATUS, U32 RO D (R440). -/
abbrev Obj.portStatus (n : Nat) : Key := ⟨0x9010, n + 1, 0⟩

/-- VFS_ENABLED, U16 RO D (R440). -/
abbrev Obj.vfsEnabled (n : Nat) : Key := ⟨0x9011, n + 1, 0⟩

/-- ATTENTION, BITS32 W1C D (R440). -/
abbrev Obj.attention (n : Nat) : Key := ⟨0x9012, n + 1, 0⟩

/-- ATTENTION_MASK, BITS32 RW S (R440). -/
abbrev Obj.attentionMask (n : Nat) : Key := ⟨0x9013, n + 1, 0⟩

/-- PORT_RESETS, U32 RO S (R440). -/
abbrev Obj.portResets (n : Nat) : Key := ⟨0x9014, n + 1, 0⟩

/-- HOST_READ_BYTES, U64 RO D (R440). -/
abbrev Obj.hostReadBytes (n : Nat) : Key := ⟨0x9015, n + 1, 0⟩

/-- HOST_WRITE_BYTES, U64 RO D (R440). -/
abbrev Obj.hostWriteBytes (n : Nat) : Key := ⟨0x9016, n + 1, 0⟩

/-- INTAKE_ENTRIES, U16 RW T (R440). -/
abbrev Obj.intakeEntries (t : Nat) : Key := ⟨0x9100, 0x01, t⟩

/-- CQ_BASE, U64 RW T (R440). -/
abbrev Obj.cqBase (t : Nat) : Key := ⟨0x9100, 0x02, t⟩

/-- CQ_ENTRIES, U32 RW T (R440). -/
abbrev Obj.cqEntries (t : Nat) : Key := ⟨0x9100, 0x03, t⟩

/-- RING_ENABLE, BOOL RW T (R440). -/
abbrev Obj.ringEnable (t : Nat) : Key := ⟨0x9100, 0x04, t⟩

/-- CQ_IRQ_COUNT, U8 RW T (R440). -/
abbrev Obj.cqIrqCount (t : Nat) : Key := ⟨0x9100, 0x05, t⟩

/-- CQ_IRQ_US, U16 RW T (R440). -/
abbrev Obj.cqIrqUs (t : Nat) : Key := ⟨0x9100, 0x06, t⟩

/-- TENANT_ATTENTION, BITS32 W1C T (R440). -/
abbrev Obj.tenantAttention (t : Nat) : Key := ⟨0x9100, 0x07, t⟩

/-- TENANT_ATTENTION_MASK, BITS32 RW T (R440). -/
abbrev Obj.tenantAttentionMask (t : Nat) : Key := ⟨0x9100, 0x08, t⟩

/-- TENANT_DESCRIPTORS, U64 RO T (R440). -/
abbrev Obj.tenantDescriptors (t : Nat) : Key := ⟨0x9100, 0x09, t⟩

/-- TENANT_COMPLETIONS, U64 RO T (R440). -/
abbrev Obj.tenantCompletions (t : Nat) : Key := ⟨0x9100, 0x0A, t⟩

/-- COMPLETIONS_WAITING, U32 RO T (R440). -/
abbrev Obj.completionsWaiting (t : Nat) : Key := ⟨0x9100, 0x0B, t⟩

/-- WINDOW_EDIT, DOMAIN RW D (R440). -/
abbrev Obj.windowEdit : Key := ⟨0x9200, 0x01, 0⟩

/-- WINDOW_TABLE, DOMAIN RO D (R440). -/
abbrev Obj.windowTable : Key := ⟨0x9200, 0x02, 0⟩

/-- WINDOW_BACKING_FREE, U64 RO D (R440). -/
abbrev Obj.windowBackingFree : Key := ⟨0x9200, 0x03, 0⟩

/-- WINDOWS_ZEROING, U16 RO D (R440). -/
abbrev Obj.windowsZeroing : Key := ⟨0x9200, 0x04, 0⟩

/-- DMA_CHANNELS, U8 RO D (R461). -/
abbrev Obj.dmaChannels : Key := ⟨0x9800, 0x01, 0⟩

/-- DMA_FIRMWARE_CHANNELS, U8 RO D (R461). -/
abbrev Obj.dmaFirmwareChannels : Key := ⟨0x9800, 0x02, 0⟩

/-- DMA_BYTES_READ, U64 RO D (R461). -/
abbrev Obj.dmaBytesRead : Key := ⟨0x9800, 0x03, 0⟩

/-- DMA_BYTES_WRITTEN, U64 RO D (R461). -/
abbrev Obj.dmaBytesWritten : Key := ⟨0x9800, 0x04, 0⟩

/-- DMA_TRANSFERS, U64 RO D (R461). -/
abbrev Obj.dmaTransfers : Key := ⟨0x9800, 0x05, 0⟩

/-- DMA_FAILURES, U32 W1C D (R461). -/
abbrev Obj.dmaFailures : Key := ⟨0x9800, 0x06, 0⟩

/-- DMA_SATURATED, U64 W1C D (R461). -/
abbrev Obj.dmaSaturated : Key := ⟨0x9800, 0x07, 0⟩

/-- DMA_POISONED, U32 W1C D (R461). -/
abbrev Obj.dmaPoisoned : Key := ⟨0x9800, 0x08, 0⟩

/-- DMA_MY_CHANNELS, BITS32 RO T (R461). -/
abbrev Obj.dmaMyChannels (t : Nat) : Key := ⟨0x9800, 0x09, t⟩

/-- DMA_ASSIGN, U16 RW D (R461). -/
abbrev Obj.dmaAssign (n : Nat) : Key := ⟨0x9810, n + 1, 0⟩

/-- DMA_DESC_0, DOMAIN RW T (R461). -/
abbrev Obj.dmaDesc0 (n : Nat) : Key := ⟨0x9811, n + 1, 0⟩

/-- DMA_DESC_1, DOMAIN RW T (R461). -/
abbrev Obj.dmaDesc1 (n : Nat) : Key := ⟨0x9812, n + 1, 0⟩

/-- DMA_GO_0, U8 CMD T (R461). -/
abbrev Obj.dmaGo0 (n : Nat) : Key := ⟨0x9813, n + 1, 0⟩

/-- DMA_GO_1, U8 CMD T (R461). -/
abbrev Obj.dmaGo1 (n : Nat) : Key := ⟨0x9814, n + 1, 0⟩

/-- DMA_STATUS, U32 RO T (R461). -/
abbrev Obj.dmaStatus (n : Nat) : Key := ⟨0x9815, n + 1, 0⟩

/-- DMA_DONE_COUNT, U32 RO T (R461). -/
abbrev Obj.dmaDoneCount (n : Nat) : Key := ⟨0x9816, n + 1, 0⟩

/-- DMA_LAST_TAG, U64 RO T (R461). -/
abbrev Obj.dmaLastTag (n : Nat) : Key := ⟨0x9817, n + 1, 0⟩

/-- STACKS, U8 RO D (R479). -/
abbrev Obj.dram : Key := ⟨0xA000, 0x01, 0⟩

/-- STACK_GIB, U8 RO D (R479). -/
abbrev Obj.stackGib : Key := ⟨0xA000, 0x02, 0⟩

/-- INTERLEAVE_BYTES, U16 RO D (R479). -/
abbrev Obj.interleaveBytes : Key := ⟨0xA000, 0x03, 0⟩

/-- CODEWORD_DATA_BYTES, U8 RO D (R479). -/
abbrev Obj.codewordDataBytes : Key := ⟨0xA000, 0x04, 0⟩

/-- REGION_MAP, DOMAIN RO D (R479). -/
abbrev Obj.regionMap : Key := ⟨0xA010, 0x01, 0⟩

/-- MODEL_REGION_GIB, U8 RW S (R479). -/
abbrev Obj.modelRegionGib : Key := ⟨0xA010, 0x02, 0⟩

/-- SCRATCH_REGION_GIB, U8 RW S (R479). -/
abbrev Obj.scratchRegionGib : Key := ⟨0xA010, 0x03, 0⟩

/-- WINDOW_REGION_GIB, U8 RW S (R479). -/
abbrev Obj.windowRegionGib : Key := ⟨0xA010, 0x04, 0⟩

/-- KV_REGION_GIB, U16 RO D (R479). -/
abbrev Obj.kvRegionGib : Key := ⟨0xA010, 0x05, 0⟩

/-- CORRECTED_SYMBOLS, U64 W1C D (R479). -/
abbrev Obj.correctedSymbols : Key := ⟨0xA100, 0x01, 0⟩

/-- CORRECTED_CODEWORDS, U64 W1C D (R479). -/
abbrev Obj.correctedCodewords : Key := ⟨0xA100, 0x02, 0⟩

/-- UNCORRECTABLE, U32 W1C D (R479). -/
abbrev Obj.uncorrectable : Key := ⟨0xA100, 0x03, 0⟩

/-- POISON_WRITES, U64 W1C D (R479). -/
abbrev Obj.poisonWrites : Key := ⟨0xA100, 0x04, 0⟩

/-- POISON_READS, U64 W1C D (R479). -/
abbrev Obj.poisonReads : Key := ⟨0xA100, 0x05, 0⟩

/-- ERROR_LOG, DOMAIN RO S (R479). -/
abbrev Obj.errorLog : Key := ⟨0xA100, 0x06, 0⟩

/-- SCRUB_ENABLE, BOOL RW S (R479). -/
abbrev Obj.scrubEnable : Key := ⟨0xA200, 0x01, 0⟩

/-- SCRUB_INTERVAL_H, U16 RW S (R479). -/
abbrev Obj.scrubIntervalH : Key := ⟨0xA200, 0x02, 0⟩

/-- SCRUB_PASSES, U64 RO D (R479). -/
abbrev Obj.scrubPasses : Key := ⟨0xA200, 0x03, 0⟩

/-- SCRUB_PROGRESS, U16 RO D (R479). -/
abbrev Obj.scrubProgress : Key := ⟨0xA200, 0x04, 0⟩

/-- SCRUB_NOW, U8 CMD D (R479). -/
abbrev Obj.scrubNow : Key := ⟨0xA200, 0x05, 0⟩

/-- STACK_TEMP, U8 RO D (R479). -/
abbrev Obj.stackTemp (n : Nat) : Key := ⟨0xA300, n + 1, 0⟩

/-- REFRESH_RATE, U8 RO D (R479). -/
abbrev Obj.refreshRate (n : Nat) : Key := ⟨0xA301, n + 1, 0⟩

/-- STACK_READ_BYTES, U64 RO D (R479). -/
abbrev Obj.stackReadBytes (n : Nat) : Key := ⟨0xA302, n + 1, 0⟩

/-- STACK_WRITE_BYTES, U64 RO D (R479). -/
abbrev Obj.stackWriteBytes (n : Nat) : Key := ⟨0xA303, n + 1, 0⟩

/-- DELTA_CROSS_BYTES, U64 RO D (R479). -/
abbrev Obj.deltaCrossBytes : Key := ⟨0xA400, 0x01, 0⟩

/-- ARB_TOL, U16 RW S (R506). -/
abbrev Obj.arbTol : Key := ⟨0xB000, 0x01, 0⟩

/-- SHADOW_PAIR_TOL, U8 RW S (R506). -/
abbrev Obj.shadowPairTol : Key := ⟨0xB000, 0x02, 0⟩

/-- ARB_TIMEOUT_US, U16 RW S (R506). -/
abbrev Obj.arbTimeoutUs : Key := ⟨0xB000, 0x03, 0⟩

/-- SHADOW_LEVEL, U8 RW S (R506). -/
abbrev Obj.shadowLevel (n : Nat) : Key := ⟨0xB010, n + 1, 0⟩

/-- SHADOW_SAMPLES, U64 RO D (R506). -/
abbrev Obj.shadowSamples : Key := ⟨0xB100, 0x01, 0⟩

/-- SHADOW_MISMATCHES, U32 W1C D (R506). -/
abbrev Obj.shadowMismatches : Key := ⟨0xB100, 0x02, 0⟩

/-- ARBITRATIONS, U64 RO D (R506). -/
abbrev Obj.arbitrations : Key := ⟨0xB100, 0x03, 0⟩

/-- ARB_SENTINEL, U32 W1C D (R506). -/
abbrev Obj.arbSentinel : Key := ⟨0xB100, 0x04, 0⟩

/-- ARB_FACET, U32 W1C D (R506). -/
abbrev Obj.arbFacet : Key := ⟨0xB100, 0x05, 0⟩

/-- ARB_NEITHER, U32 W1C D (R506). -/
abbrev Obj.arbNeither : Key := ⟨0xB100, 0x06, 0⟩

/-- ARB_NO_GOLDEN, U32 W1C D (R506). -/
abbrev Obj.arbNoGolden : Key := ⟨0xB100, 0x07, 0⟩

/-- ARB_TIMEOUTS, U32 W1C D (R506). -/
abbrev Obj.arbTimeouts : Key := ⟨0xB100, 0x08, 0⟩

/-- STANDIN_INSTANCES, U64 RO D (R506). -/
abbrev Obj.standinInstances : Key := ⟨0xB100, 0x09, 0⟩

/-- CORE_RECOVERIES, U32 W1C D (R506). -/
abbrev Obj.coreRecoveries : Key := ⟨0xB100, 0x0A, 0⟩

/-- SWEEP_INTERVAL_H, U16 RW S (R506). -/
abbrev Obj.sweepIntervalH : Key := ⟨0xB200, 0x01, 0⟩

/-- SWEEP_NOW, U8 CMD D (R506). -/
abbrev Obj.sweepNow : Key := ⟨0xB200, 0x02, 0⟩

/-- SWEEP_PASSES, U64 RO D (R506). -/
abbrev Obj.sweepPasses : Key := ⟨0xB200, 0x03, 0⟩

/-- SWEEP_PROGRESS, U16 RO D (R506). -/
abbrev Obj.sweepProgress : Key := ⟨0xB200, 0x04, 0⟩

/-- SWEEP_MISMATCHES, U32 W1C D (R506). -/
abbrev Obj.sweepMismatches : Key := ⟨0xB200, 0x05, 0⟩

/-- SWEEP_DELAYS, U64 W1C D (R506). -/
abbrev Obj.sweepDelays : Key := ⟨0xB200, 0x06, 0⟩

/-- DIGEST_TABLE, DOMAIN RO D (R506). -/
abbrev Obj.digestTable : Key := ⟨0xB200, 0x07, 0⟩

/-- SLOT_DIGESTS, DOMAIN RO D (R506). -/
abbrev Obj.slotDigests (n : Nat) : Key := ⟨0xB210, n + 1, 0⟩

/-- TEST_ENABLE, BOOL RW S (R506). -/
abbrev Obj.testEnable : Key := ⟨0xB300, 0x01, 0⟩

/-- TEST_INTERVAL_S, U16 RW S (R506). -/
abbrev Obj.testIntervalS : Key := ⟨0xB300, 0x02, 0⟩

/-- TEST_NOW, U8 CMD D (R506). -/
abbrev Obj.testNow : Key := ⟨0xB300, 0x03, 0⟩

/-- TESTS_RUN, U64 RO D (R506). -/
abbrev Obj.testsRun : Key := ⟨0xB300, 0x04, 0⟩

/-- TEST_FAILURES, U32 W1C D (R506). -/
abbrev Obj.testFailures : Key := ⟨0xB300, 0x05, 0⟩

/-- TEST_OVERDUE_EVENTS, U32 W1C D (R506). -/
abbrev Obj.testOverdueEvents : Key := ⟨0xB300, 0x06, 0⟩

/-- TEST_TABLE, DOMAIN RO D (R506). -/
abbrev Obj.testTable : Key := ⟨0xB300, 0x07, 0⟩

/-- FAULT_LOG, DOMAIN RO P (R506). -/
abbrev Obj.faultLog : Key := ⟨0xB400, 0x01, 0⟩

/-- FAULT_TOTAL, U64 RO P (R506). -/
abbrev Obj.faultTotal : Key := ⟨0xB400, 0x02, 0⟩

/-- EVENT_LOG, DOMAIN RO S (R506). -/
abbrev Obj.eventLog : Key := ⟨0xB400, 0x03, 0⟩

/-- LAST_DEVICE_FAULT, U16 RO S (R506). -/
abbrev Obj.lastDeviceFault : Key := ⟨0xB400, 0x04, 0⟩


/-! ## The tables -/

/-- Object rows of spec/02_tymus_dictionary.md, part 1. -/
def Catalogue.rows02a : List Row := [
  ⟨0x1F00, 0x01, 0x01, "DICT_VERSION", .u32, .ro, .d, (.word .firmware), 0x0, 0xffffffff, true, false⟩,
  ⟨0x1F00, 0x02, 0x02, "MAX_SEGMENT", .u16, .ro, .d, (.word .perId), 0x0, 0xffff, true, false⟩,
  ⟨0x1F00, 0x03, 0x03, "OPEN_SESSIONS", .u8, .ro, .d, (.lit 0), 0x0, 0xff, false, false⟩,
  ⟨0x1F00, 0x04, 0x04, "SESSION_IDLE_LIMIT", .u32, .rw, .s, (.lit 0x2710), 0x64, 0x927c0, false, false⟩,
  ⟨0x1F00, 0x05, 0x05, "REQUESTS_SERVED", .u64, .ro, .d, (.lit 0), 0x0, 0xffffffffffffffff, false, false⟩,
  ⟨0x1F00, 0x06, 0x06, "REQUESTS_REFUSED", .u32, .w1c, .d, (.lit 0), 0x0, 0xffffffff, false, false⟩,
  ⟨0x1F00, 0x07, 0x07, "PARKED_NOW", .u16, .ro, .d, (.lit 0), 0x0, 0xffff, false, false⟩,
  ⟨0x1F00, 0x08, 0x08, "RESTORE_DEFAULTS", .u32, .cmd, .d, (.lit 0), 0x0, 0xffffffff, false, false⟩,
  ⟨0x1F00, 0x09, 0x09, "MY_PATH", .u8, .ro, .d, (.word .perId), 0x0, 0xff, true, false⟩,
  ⟨0x1F00, 0x0A, 0x0A, "MY_TENANT", .u16, .ro, .d, (.word .perId), 0x0, 0xffff, true, false⟩,
  ⟨0x1F01, 0x01, 0x10, "RANGE_OWNER", .u8, .rw, .d, (.lit 0), 0x0, 0x4, false, false⟩]

/-- Object rows of spec/19_reset_states_boot_security.md, part 1. -/
def Catalogue.rows19a : List Row := [
  ⟨0x1000, 0x01, 0x01, "VENDOR", .str, .ro, .p, (.word .fused), 0x0, 0x40, true, false⟩,
  ⟨0x1000, 0x02, 0x02, "PART_NUMBER", .str, .ro, .p, (.word .fused), 0x0, 0x40, true, false⟩,
  ⟨0x1000, 0x03, 0x03, "SERIAL", .u64, .ro, .p, (.word .fused), 0x0, 0xffffffffffffffff, true, false⟩,
  ⟨0x1000, 0x04, 0x04, "ENTERPRISE_NUMBER", .u32, .ro, .p, (.word .fused), 0x0, 0xffffffff, true, false⟩,
  ⟨0x1000, 0x05, 0x05, "MANUFACTURED", .u64, .ro, .p, (.word .fused), 0x0, 0xffffffffffffffff, true, false⟩,
  ⟨0x1000, 0x06, 0x06, "ROM_VERSION", .u32, .ro, .p, (.word .fused), 0x0, 0xffffffff, true, false⟩,
  ⟨0x1000, 0x07, 0x07, "FIRMWARE_VERSION", .u32, .ro, .d, (.word .firmware), 0x0, 0xffffffff, true, false⟩,
  ⟨0x1000, 0x08, 0x08, "INACTIVE_VERSION", .u32, .ro, .d, (.word .asFound), 0x0, 0xffffffff, false, false⟩,
  ⟨0x1010, 0x01, 0x01, "CERT_CHAIN", .domain, .ro, .p, (.word .fused), 0x0, 0xffffffff, false, false⟩,
  ⟨0xC000, 0x01, 0x01, "BOOT_STAGE", .u8, .ro, .d, (.word .asFound), 0x0, 0xff, false, false⟩,
  ⟨0xC000, 0x02, 0x02, "BOOT_TIME_MS", .u32, .ro, .d, (.word .asFound), 0x0, 0xffffffff, false, false⟩,
  ⟨0xC000, 0x03, 0x03, "ACTIVE_BANK", .u8, .ro, .d, (.word .asFound), 0x0, 0xff, false, false⟩,
  ⟨0xC000, 0x04, 0x04, "FW_SVN", .u32, .ro, .p, (.word .manufacture), 0x0, 0xffffffff, false, false⟩,
  ⟨0xC000, 0x05, 0x05, "FIRMWARE_IMAGE", .domain, .rw, .d, (.lit 0), 0x0, 0xffffffff, false, false⟩,
  ⟨0xC000, 0x06, 0x06, "FIRMWARE_ACTIVATE", .u8, .cmd, .d, (.lit 0), 0x0, 0x0, false, false⟩,
  ⟨0xC000, 0x07, 0x07, "MEASUREMENT_LOG", .domain, .ro, .d, (.word .asFound), 0x0, 0xffffffff, false, false⟩,
  ⟨0xC100, 0x01, 0x01, "OWNER_KEYS", .domain, .rw, .p, (.lit 0), 0x0, 0xffffffff, false, false⟩,
  ⟨0xC100, 0x02, 0x02, "REQUIRE_SIGNED_BOLT", .bool, .rw, .p, (.lit 0), 0x0, 0x1, false, false⟩,
  ⟨0xC100, 0x03, 0x03, "REQUIRE_SIGNED_DELTA", .bool, .rw, .p, (.lit 0), 0x0, 0x1, false, false⟩,
  ⟨0xC100, 0x04, 0x04, "KEY_LOCK", .bool, .rw, .p, (.lit 0), 0x0, 0x1, false, false⟩,
  ⟨0xC100, 0x05, 0x05, "UNLOCK_NONCE", .u64, .ro, .p, (.word .manufacture), 0x0, 0xffffffffffffffff, false, false⟩,
  ⟨0xC100, 0x06, 0x06, "OWNER_UNLOCK", .domain, .rw, .d, (.lit 0), 0x0, 0xffffffff, false, false⟩,
  ⟨0xC100, 0x07, 0x07, "SIGNATURE_FAILURES", .u32, .w1c, .d, (.lit 0), 0x0, 0xffffffff, false, false⟩,
  ⟨0xC200, 0x01, 0x01, "SPDM_VERSION", .u8, .ro, .d, (.lit 18), 0x0, 0xff, false, false⟩,
  ⟨0xC200, 0x02, 0x02, "SPDM_CHALLENGES", .u32, .ro, .d, (.lit 0), 0x0, 0xffffffff, false, false⟩,
  ⟨0xD000, 0x01, 0x01, "POWER_STATE", .u8, .ro, .d, (.lit 0), 0x0, 0xff, false, false⟩,
  ⟨0xD000, 0x02, 0x02, "POWER_STATE_REQUEST", .u8, .cmd, .d, (.lit 0), 0x0, 0x4, false, false⟩,
  ⟨0xD000, 0x03, 0x03, "GROUP_POWER", .u8, .cmd, .d, (.lit 0), 0x0, 0x2, false, false⟩,
  ⟨0xD000, 0x04, 0x04, "L1_IDLE_US", .u16, .rw, .s, (.lit 0), 0x0, 0xffff, false, false⟩,
  ⟨0xD000, 0x05, 0x05, "LAST_TRANSITION_US", .u32, .ro, .d, (.lit 0), 0x0, 0xffffffff, false, false⟩]

/-- Object rows of spec/19_reset_states_boot_security.md, part 2. -/
def Catalogue.rows19b : List Row := [
  ⟨0xD001, 0x01, 0x05, "STATE_ENTRIES", .u32, .ro, .p, (.lit 0), 0x0, 0xffffffff, false, false⟩,
  ⟨0xD002, 0x01, 0x05, "STATE_SECONDS", .u64, .ro, .p, (.lit 0), 0x0, 0xffffffffffffffff, false, false⟩,
  ⟨0xD010, 0x01, 0x01, "DEVICE_RESET", .u8, .cmd, .d, (.lit 0), 0x0, 0x0, false, false⟩,
  ⟨0xD010, 0x02, 0x02, "RESET_ASSERT", .bits32, .ro, .d, (.lit 0), 0x0, 0x3, false, false⟩,
  ⟨0xD010, 0x03, 0x03, "RESET_WINDOW_MS", .u16, .rw, .s, (.lit 1000), 0x64, 0x2710, false, false⟩,
  ⟨0xD010, 0x04, 0x04, "DEVICE_RESETS", .u32, .ro, .p, (.lit 0), 0x0, 0xffffffff, false, false⟩,
  ⟨0xD010, 0x05, 0x05, "LAST_RESET_CAUSE", .u8, .ro, .s, (.lit 0), 0x0, 0xff, false, false⟩]

/-- Object rows of spec/07_accuracy_calibration_wear.md, part 1. -/
def Catalogue.rows07a : List Row := [
  ⟨0x4800, 0x01, 0x01, "TRIM_POINTS", .u8, .ro, .d, (.lit 5), 0x0, 0xff, false, false⟩,
  ⟨0x4800, 0x02, 0x02, "TRIM_STEP", .u8, .rw, .s, (.lit 1), 0x1, 0x4, false, false⟩,
  ⟨0x4800, 0x03, 0x03, "TRIM_APPLICATIONS", .u64, .ro, .d, (.lit 0), 0x0, 0xffffffffffffffff, false, false⟩,
  ⟨0x4800, 0x04, 0x04, "OUT_OF_TRIM_RANGE_MS", .u64, .ro, .d, (.lit 0), 0x0, 0xffffffffffffffff, false, false⟩,
  ⟨0x4800, 0x05, 0x05, "TRIM_STORE_ERRORS", .u32, .w1c, .d, (.lit 0), 0x0, 0xffffffff, false, false⟩,
  ⟨0x4800, 0x06, 0x06, "TRIM_READ", .u16, .cmd, .d, (.lit 0), 0x0, 0x9fff, false, false⟩,
  ⟨0x4800, 0x07, 0x07, "TRIM_RECORD", .domain, .ro, .d, (.lit 0), 0x0, 0xffffffff, false, false⟩,
  ⟨0x4900, 0x01, 0x01, "CAL_ENABLE", .bool, .rw, .s, (.lit 1), 0x0, 0x1, false, false⟩,
  ⟨0x4900, 0x02, 0x02, "CAL_SAMPLES", .u32, .rw, .s, (.lit 0x10000), 0x4000, 0x100000, false, false⟩,
  ⟨0x4900, 0x03, 0x03, "CAL_CONVERSIONS_PER_STEP", .u16, .ro, .d, (.lit 1024), 0x0, 0xffff, false, false⟩,
  ⟨0x4900, 0x04, 0x04, "SLICE_RETIRE_OFFSET", .u16, .rw, .s, (.lit 256), 0x0, 0xffff, false, false⟩,
  ⟨0x4900, 0x05, 0x05, "SLICE_RETIRE_GAIN", .u16, .rw, .s, (.lit 320), 0x0, 0xffff, false, false⟩,
  ⟨0x4900, 0x06, 0x06, "CAL_COMPLETED", .u64, .ro, .d, (.lit 0), 0x0, 0xffffffffffffffff, false, false⟩,
  ⟨0x4900, 0x07, 0x07, "CAL_GAIN_SKIPPED", .u64, .w1c, .d, (.lit 0), 0x0, 0xffffffffffffffff, false, false⟩,
  ⟨0x4900, 0x08, 0x08, "SLICE_RETIRE_EVENTS", .u32, .w1c, .d, (.lit 0), 0x0, 0xffffffff, false, false⟩,
  ⟨0x4900, 0x09, 0x09, "ROW_CAL_INTERVAL", .u32, .rw, .s, (.lit 0x927c0), 0x2710, 0x36ee80, false, false⟩,
  ⟨0x4A00, 0x01, 0x01, "DRIFT_MIN_SAMPLES", .u16, .rw, .s, (.lit 256), 0x10, 0xffff, false, false⟩,
  ⟨0x4A00, 0x02, 0x02, "REFRESH_SHIFT", .u16, .rw, .s, (.lit 32), 0x8, 0x60, false, false⟩,
  ⟨0x4A00, 0x03, 0x03, "REFRESH_INTERVAL", .u16, .rw, .s, (.lit 120), 0x7, 0x16d, false, false⟩,
  ⟨0x4A00, 0x04, 0x04, "REFRESHES_SCHEDULED", .u32, .ro, .d, (.lit 0), 0x0, 0xffffffff, false, false⟩,
  ⟨0x4A00, 0x05, 0x05, "REFRESHES_DONE", .u32, .ro, .d, (.lit 0), 0x0, 0xffffffff, false, false⟩,
  ⟨0x4A00, 0x06, 0x06, "REFRESH_QUEUE", .u16, .ro, .d, (.lit 0), 0x0, 0xffff, false, false⟩,
  ⟨0x4A00, 0x07, 0x07, "REFRESH_BLOCKED", .u32, .w1c, .d, (.lit 0), 0x0, 0xffffffff, false, false⟩,
  ⟨0x4A00, 0x08, 0x08, "DRIFT_MAX_SHIFT", .u16, .w1c, .d, (.lit 0), 0x0, 0xffff, false, false⟩,
  ⟨0x4A00, 0x09, 0x09, "WEAR_WARN_COUNT", .u16, .rw, .s, (.lit 0x2328), 0x3e8, 0x270f, false, false⟩,
  ⟨0x4A00, 0x0A, 0x0A, "WEAR_MAX", .u16, .ro, .p, (.lit 0), 0x0, 0xffff, false, false⟩,
  ⟨0x4A00, 0x0B, 0x0B, "FACET_WEAR", .domain, .ro, .d, (.word .asFound), 0x0, 0xffffffff, false, false⟩,
  ⟨0x4A00, 0x0C, 0x0C, "REFRESH_FACET", .u16, .cmd, .d, (.lit 0), 0x0, 0x1fff, false, false⟩,
  ⟨0x1100, 0x01, 0x01, "POWERED_SECONDS", .u64, .ro, .p, (.lit 0), 0x0, 0xffffffffffffffff, false, false⟩,
  ⟨0x1100, 0x02, 0x02, "COLD_STARTS", .u32, .ro, .p, (.lit 0), 0x0, 0xffffffff, false, false⟩]

/-- Object rows of spec/07_accuracy_calibration_wear.md, part 2. -/
def Catalogue.rows07b : List Row := [
  ⟨0x1100, 0x03, 0x03, "EQUIV_HOURS_85", .u64, .ro, .p, (.lit 0), 0x0, 0xffffffffffffffff, false, false⟩,
  ⟨0x1100, 0x04, 0x04, "LIFE_USED", .u16, .ro, .p, (.lit 0), 0x0, 0xffff, false, false⟩,
  ⟨0x1100, 0x05, 0x05, "TJ_MAX_EVER", .u8, .ro, .p, (.lit 0), 0x0, 0xff, false, false⟩,
  ⟨0x1100, 0x06, 0x06, "TEMP_HISTOGRAM", .domain, .ro, .p, (.lit 0), 0x0, 0xffffffff, false, false⟩,
  ⟨0x1100, 0x07, 0x07, "SAVE_INTERVAL", .u16, .ro, .d, (.lit 900), 0x0, 0xffff, false, false⟩,
  ⟨0x1180, 0x01, 0x01, "CALENDAR_STAMP", .u64, .wo, .p, (.lit 0), 0x0, 0xffffffffffffffff, false, false⟩,
  ⟨0x1180, 0x02, 0x02, "CALENDAR_NOW", .u64, .ro, .d, (.lit 0), 0x0, 0xffffffffffffffff, false, false⟩,
  ⟨0x1180, 0x03, 0x03, "LAST_STAMP", .u64, .ro, .p, (.lit 0), 0x0, 0xffffffffffffffff, false, false⟩,
  ⟨0x1180, 0x04, 0x04, "SINCE_STAMP_MS", .u64, .ro, .p, (.lit 0), 0x0, 0xffffffffffffffff, false, false⟩,
  ⟨0x1180, 0x05, 0x05, "UNPOWERED_CREDIT", .u32, .ro, .p, (.lit 0), 0x0, 0xffffffff, false, false⟩,
  ⟨0x1180, 0x06, 0x06, "STAMP_LOG", .domain, .ro, .p, (.lit 0), 0x0, 0xffffffff, false, false⟩]

/-- Object rows of spec/01_die_organisation.md, part 1. -/
def Catalogue.rows01a : List Row := [
  ⟨0x2000, 0x01, 0x01, "GRADE", .u8, .ro, .p, (.word .fused), 0x0, 0xff, false, false⟩,
  ⟨0x2000, 0x02, 0x02, "GOOD_CORES", .u8, .ro, .p, (.word .fused), 0x0, 0xff, false, false⟩,
  ⟨0x2000, 0x03, 0x03, "CORE_MASK_LO", .bits32, .ro, .p, (.word .fused), 0x0, 0xffffffff, false, false⟩,
  ⟨0x2000, 0x04, 0x04, "CORE_MASK_HI", .bits32, .ro, .p, (.word .fused), 0x0, 0xffffffff, false, false⟩,
  ⟨0x2000, 0x05, 0x05, "ASSIGNABLE_FACETS", .u16, .ro, .p, (.word .fused), 0x0, 0xffff, false, false⟩,
  ⟨0x2000, 0x06, 0x06, "SPARE_FACETS", .u16, .ro, .p, (.word .fused), 0x0, 0xffff, false, false⟩,
  ⟨0x2000, 0x07, 0x07, "DIE_STEPPING", .str, .ro, .p, (.word .fused), 0x0, 0x40, false, false⟩,
  ⟨0x2000, 0x08, 0x08, "ISLAND_COUNT", .u8, .ro, .p, (.word .fused), 0x0, 0xff, false, false⟩,
  ⟨0x2100, 0x00, 0xAF, "ISLAND_STATUS", .u32, .ro, .d, (.word .asFound), 0x0, 0xffffffff, false, false⟩,
  ⟨0x2200, 0x01, 0x01, "SEAM_RATE", .u32, .ro, .d, (.lit 3072), 0x0, 0xffffffff, false, false⟩,
  ⟨0x2200, 0x02, 0x02, "SEAM_BYTES_WE", .u64, .ro, .d, (.lit 0), 0x0, 0xffffffffffffffff, false, false⟩,
  ⟨0x2200, 0x03, 0x03, "SEAM_BYTES_EW", .u64, .ro, .d, (.lit 0), 0x0, 0xffffffffffffffff, false, false⟩,
  ⟨0x2200, 0x04, 0x04, "SEAM_RATE_CHANGES", .u32, .ro, .d, (.lit 0), 0x0, 0xffffffff, false, false⟩,
  ⟨0x2300, 0x01, 0x01, "SELVEDGE_BOUND", .u16, .ro, .d, (.lit 40), 0x0, 0xffff, false, false⟩,
  ⟨0x2300, 0x02, 0x02, "SELVEDGE_MAX", .u16, .w1c, .d, (.lit 0), 0x0, 0xffff, false, false⟩,
  ⟨0x2300, 0x03, 0x03, "SELVEDGE_OVERRUNS", .u32, .ro, .d, (.lit 0), 0x0, 0xffffffff, false, false⟩,
  ⟨0x2400, 0x01, 0x08, "MESH_PLANE_BYTES", .u64, .ro, .d, (.lit 0), 0x0, 0xffffffffffffffff, false, false⟩,
  ⟨0x2400, 0x09, 0x09, "MESH_POISON_FLITS", .u64, .ro, .d, (.lit 0), 0x0, 0xffffffffffffffff, false, false⟩]

/-- Object rows of spec/17_power_thermal_clocks.md, part 1. -/
def Catalogue.rows17a : List Row := [
  ⟨0x3000, 0x01, 0x01, "INPUT_POWER_MW", .u32, .ro, .d, (.word .asFound), 0x0, 0xffffffff, false, false⟩,
  ⟨0x3000, 0x02, 0x02, "INPUT_VOLTAGE_MV", .u32, .ro, .d, (.word .asFound), 0x0, 0xffffffff, false, false⟩,
  ⟨0x3000, 0x03, 0x03, "INPUT_CURRENT_MA", .u32, .ro, .d, (.word .asFound), 0x0, 0xffffffff, false, false⟩,
  ⟨0x3000, 0x04, 0x04, "INPUT_ENERGY_J", .u64, .ro, .d, (.lit 0), 0x0, 0xffffffffffffffff, false, false⟩,
  ⟨0x3000, 0x05, 0x05, "PEAK_INPUT_MW", .u32, .w1c, .d, (.lit 0), 0x0, 0xffffffff, false, false⟩,
  ⟨0x3000, 0x06, 0x06, "POWER_BOUND_W", .u16, .ro, .d, (.lit 1400), 0x0, 0xffff, false, false⟩,
  ⟨0x3000, 0x07, 0x07, "POWER_WINDOW_MS", .u8, .ro, .d, (.lit 10), 0x0, 0xff, false, false⟩,
  ⟨0x3010, 0x01, 0x01, "POWER_CAP_W", .u16, .rw, .p, (.lit 1350), 0x258, 0x578, false, false⟩,
  ⟨0x3010, 0x02, 0x02, "GOVERNOR_SKIP", .u8, .ro, .d, (.lit 0), 0x0, 0xff, false, false⟩,
  ⟨0x3010, 0x03, 0x03, "HEADROOM_MW", .i32, .ro, .d, (.word .asFound), 0x0, 0xffffffff, false, false⟩,
  ⟨0x3010, 0x04, 0x04, "CAP_LIMITED_MS", .u64, .w1c, .d, (.lit 0), 0x0, 0xffffffffffffffff, false, false⟩,
  ⟨0x3010, 0x05, 0x05, "CAP_UNREACHED", .u32, .w1c, .d, (.lit 0), 0x0, 0xffffffff, false, false⟩,
  ⟨0x3010, 0x06, 0x06, "PEAK_EVENTS", .u32, .w1c, .d, (.lit 0), 0x0, 0xffffffff, false, false⟩,
  ⟨0x3100, 0x01, 0x04, "DOMAIN_TEMP", .i32, .ro, .d, (.word .asFound), 0x0, 0xffffffff, false, false⟩,
  ⟨0x3101, 0x01, 0x04, "THERMAL_STATE", .u32, .ro, .d, (.word .asFound), 0x0, 0xffffffff, false, false⟩,
  ⟨0x3102, 0x01, 0x04, "DOMAIN_TEMP_MAX", .i32, .w1c, .d, (.lit 0), 0x0, 0xffffffff, false, false⟩,
  ⟨0x3103, 0x01, 0x04, "THROTTLE_ENTRIES", .u32, .w1c, .d, (.lit 0), 0x0, 0xffffffff, false, false⟩,
  ⟨0x3104, 0x01, 0x04, "ENFORCED_MS", .u64, .w1c, .d, (.lit 0), 0x0, 0xffffffffffffffff, false, false⟩,
  ⟨0x3105, 0x01, 0x04, "DIVISIONS", .u32, .w1c, .d, (.lit 0), 0x0, 0xffffffff, false, false⟩,
  ⟨0x3110, 0x01, 0x01, "WARN_ON_C", .u8, .ro, .d, (.lit 95), 0x0, 0xff, false, false⟩,
  ⟨0x3110, 0x02, 0x02, "WARN_OFF_C", .u8, .ro, .d, (.lit 90), 0x0, 0xff, false, false⟩,
  ⟨0x3110, 0x03, 0x03, "THROTTLE_ON_C", .u8, .ro, .d, (.lit 105), 0x0, 0xff, false, false⟩,
  ⟨0x3110, 0x04, 0x04, "THROTTLE_OFF_C", .u8, .ro, .d, (.lit 100), 0x0, 0xff, false, false⟩,
  ⟨0x3110, 0x05, 0x05, "SHUTDOWN_C", .u8, .ro, .d, (.lit 118), 0x0, 0xff, false, false⟩,
  ⟨0x3110, 0x06, 0x06, "GRACE_MS", .u16, .rw, .s, (.lit 20), 0x0, 0x64, false, false⟩,
  ⟨0x3110, 0x07, 0x07, "SKIP_STEP_MS", .u8, .rw, .s, (.lit 5), 0x1, 0x32, false, false⟩,
  ⟨0x3110, 0x08, 0x08, "DIVIDE_AFTER_MS", .u16, .ro, .d, (.lit 100), 0x0, 0xffff, false, false⟩,
  ⟨0x3110, 0x09, 0x09, "THROTTLE_STEP_SHARE", .u16, .rw, .s, (.lit 192), 0x40, 0x100, false, false⟩,
  ⟨0x3200, 0x01, 0x02, "ENGINE_MHZ", .u16, .ro, .d, (.lit 940), 0x0, 0xffff, false, false⟩,
  ⟨0x3300, 0x01, 0x01, "ISLAND_STOPS", .u32, .ro, .d, (.lit 0), 0x0, 0xffffffff, false, false⟩]

/-- Object rows of spec/17_power_thermal_clocks.md, part 2. -/
def Catalogue.rows17b : List Row := [
  ⟨0x3300, 0x02, 0x02, "DRAIN_MAX_US", .u32, .w1c, .d, (.lit 0), 0x0, 0xffffffff, false, false⟩,
  ⟨0x3400, 0x01, 0x01, "SUPPLY_STATUS", .bits32, .ro, .d, (.word .asFound), 0x0, 0xf, false, false⟩]

/-- Object rows of spec/18_housekeeping_monitor.md, part 1. -/
def Catalogue.rows18a : List Row := [
  ⟨0x3800, 0x01, 0x01, "HK_CHANNELS", .u8, .ro, .d, (.lit 64), 0x0, 0xff, false, false⟩,
  ⟨0x3800, 0x02, 0x02, "HK_ENTRY_LIMIT", .u8, .ro, .d, (.lit 16), 0x0, 0xff, false, false⟩,
  ⟨0x3800, 0x03, 0x03, "HK_URGENT_DEPTH", .u8, .ro, .d, (.lit 4), 0x0, 0xff, false, false⟩,
  ⟨0x3810, 0x01, 0x02, "ROUND_US", .u16, .rw, .s, (.lit 1000), 0xfa, 0x3e8, false, false⟩,
  ⟨0x3811, 0x01, 0x02, "SEQUENCE", .domain, .rw, .s, (.word .firmware), 0x0, 0xffffffff, false, false⟩,
  ⟨0x3812, 0x01, 0x02, "ROUNDS", .u64, .ro, .d, (.lit 0), 0x0, 0xffffffffffffffff, false, false⟩,
  ⟨0x3813, 0x01, 0x02, "ROUND_OVERRUNS", .u32, .w1c, .d, (.lit 0), 0x0, 0xffffffff, false, false⟩,
  ⟨0x3814, 0x01, 0x02, "URGENT_CONVERSIONS", .u64, .ro, .d, (.lit 0), 0x0, 0xffffffffffffffff, false, false⟩,
  ⟨0x3815, 0x01, 0x02, "URGENT_MAX_NS", .u32, .w1c, .d, (.lit 0), 0x0, 0xffffffff, false, false⟩,
  ⟨0x3816, 0x01, 0x02, "HK_STATUS", .u32, .ro, .d, (.word .asFound), 0x0, 0xffffffff, false, false⟩,
  ⟨0x3820, 0x01, 0x02, "CAL_PERIOD_MS", .u16, .rw, .s, (.lit 1000), 0x64, 0xea60, false, false⟩,
  ⟨0x3821, 0x01, 0x02, "CAL_SWAPS", .u64, .ro, .d, (.lit 0), 0x0, 0xffffffffffffffff, false, false⟩,
  ⟨0x3822, 0x01, 0x02, "CAL_FAILURES", .u32, .w1c, .d, (.lit 0), 0x0, 0xffffffff, false, false⟩,
  ⟨0x3830, 0x01, 0x20, "ENTRY_RESULT", .u64, .ro, .d, (.word .asFound), 0x0, 0xffffffffffffffff, false, false⟩,
  ⟨0x3831, 0x01, 0x20, "ENTRY_MIN", .i32, .ro, .d, (.word .asFound), 0x0, 0xffffffff, false, false⟩,
  ⟨0x3832, 0x01, 0x20, "ENTRY_MAX", .i32, .ro, .d, (.word .asFound), 0x0, 0xffffffff, false, false⟩,
  ⟨0x3833, 0x01, 0x02, "MINMAX_RESET", .u32, .cmd, .d, (.lit 0), 0x0, 0xffff, false, false⟩]

/-- Object rows of spec/03_facets.md, part 1. -/
def Catalogue.rows03a : List Row := [
  ⟨0x4000, 0x01, 0x01, "ROWS", .u16, .ro, .d, (.lit 1024), 0x0, 0xffff, false, false⟩,
  ⟨0x4000, 0x02, 0x02, "WEIGHT_PAIRS", .u16, .ro, .d, (.lit 512), 0x0, 0xffff, false, false⟩,
  ⟨0x4000, 0x03, 0x03, "CELL_LEVELS", .u8, .ro, .d, (.lit 8), 0x0, 0xff, false, false⟩,
  ⟨0x4000, 0x04, 0x04, "PHASE_ROW_LIMIT", .u16, .ro, .d, (.lit 256), 0x0, 0xffff, false, false⟩,
  ⟨0x4000, 0x05, 0x05, "PHASE_CYCLES", .u8, .ro, .d, (.lit 16), 0x0, 0xff, false, false⟩,
  ⟨0x4000, 0x06, 0x06, "TPHASE_PAIR_LIMIT", .u16, .ro, .d, (.lit 128), 0x0, 0xffff, false, false⟩,
  ⟨0x4000, 0x07, 0x07, "TPHASE_CYCLES", .u8, .ro, .d, (.lit 64), 0x0, 0xff, false, false⟩,
  ⟨0x4000, 0x08, 0x08, "DRIVE_SLOT", .u16, .ro, .d, (.lit 0x1f40), 0x0, 0xffff, false, false⟩,
  ⟨0x4000, 0x09, 0x09, "HOLD_LIMIT", .u16, .ro, .d, (.lit 400), 0x0, 0xffff, false, false⟩,
  ⟨0x4100, 0x01, 0x01, "PHASES", .u64, .ro, .d, (.lit 0), 0x0, 0xffffffffffffffff, false, false⟩,
  ⟨0x4100, 0x02, 0x02, "ZERO_MVMS", .u64, .ro, .d, (.lit 0), 0x0, 0xffffffffffffffff, false, false⟩,
  ⟨0x4100, 0x03, 0x03, "SPLIT_REPLAYS", .u64, .w1c, .d, (.lit 0), 0x0, 0xffffffffffffffff, false, false⟩,
  ⟨0x4100, 0x04, 0x04, "CLAMPED_COLUMNS", .u64, .w1c, .d, (.lit 0), 0x0, 0xffffffffffffffff, false, false⟩,
  ⟨0x4100, 0x05, 0x05, "UNRECOVERED_CLAMPS", .u32, .w1c, .d, (.lit 0), 0x0, 0xffffffff, false, false⟩,
  ⟨0x4100, 0x06, 0x06, "TPHASES", .u64, .ro, .d, (.lit 0), 0x0, 0xffffffffffffffff, false, false⟩,
  ⟨0x4100, 0x07, 0x07, "TSPLIT_REPLAYS", .u64, .w1c, .d, (.lit 0), 0x0, 0xffffffffffffffff, false, false⟩,
  ⟨0x4100, 0x08, 0x08, "TCLAMPED_ROWS", .u64, .w1c, .d, (.lit 0), 0x0, 0xffffffffffffffff, false, false⟩,
  ⟨0x4100, 0x09, 0x09, "CHECK_MISMATCHES", .u32, .w1c, .d, (.lit 0), 0x0, 0xffffffff, false, false⟩,
  ⟨0x4100, 0x0A, 0x0A, "CHECK_SKIPPED", .u64, .w1c, .d, (.lit 0), 0x0, 0xffffffffffffffff, false, false⟩,
  ⟨0x4100, 0x0B, 0x0B, "REF_SATURATED", .u64, .w1c, .d, (.lit 0), 0x0, 0xffffffffffffffff, false, false⟩,
  ⟨0x4100, 0x0C, 0x0C, "NAV_MVMS", .u64, .w1c, .d, (.lit 0), 0x0, 0xffffffffffffffff, false, false⟩,
  ⟨0x4100, 0x10, 0x10, "LAYER_COUNTS", .domain, .ro, .d, (.lit 0), 0x0, 0xffffffff, false, false⟩,
  ⟨0x4100, 0x11, 0x11, "LAYER_COUNTS_CLEAR", .u8, .cmd, .d, (.lit 0), 0x0, 0x4, false, false⟩,
  ⟨0x4200, 0x01, 0x01, "REPLAY_EVENT_LIMIT", .u32, .rw, .s, (.lit 0x1000), 0x0, 0xffffffff, false, false⟩,
  ⟨0x4200, 0x02, 0x02, "CLAMP_EVENT_LIMIT", .u16, .rw, .s, (.lit 16), 0x0, 0xffff, false, false⟩,
  ⟨0x4300, 0x01, 0x01, "FACET_TABLE", .domain, .ro, .d, (.word .asFound), 0x0, 0xffffffff, false, false⟩,
  ⟨0x4300, 0x02, 0x02, "FACETS_ASSIGNED", .u16, .ro, .d, (.lit 0), 0x0, 0xffff, false, false⟩,
  ⟨0x4300, 0x03, 0x03, "FACETS_SUSPECT", .u16, .ro, .d, (.lit 0), 0x0, 0xffff, false, false⟩,
  ⟨0x4300, 0x04, 0x04, "SPARES_FREE", .u16, .ro, .d, (.word .asFound), 0x0, 0xffff, false, false⟩,
  ⟨0x4300, 0x05, 0x05, "SLICES_RETIRED", .u16, .ro, .d, (.word .asFound), 0x0, 0xffff, false, false⟩]

/-- Object rows of spec/03_facets.md, part 2. -/
def Catalogue.rows03b : List Row := [
  ⟨0x4380, 0x01, 0x01, "ARRAY_ENERGY_WARP", .u64, .ro, .d, (.lit 0), 0x0, 0xffffffffffffffff, false, false⟩,
  ⟨0x4380, 0x02, 0x02, "ARRAY_ENERGY_WEFT", .u64, .ro, .d, (.lit 0), 0x0, 0xffffffffffffffff, false, false⟩]

/-- Object rows of spec/04_engines.md, part 1. -/
def Catalogue.rows04a : List Row := [
  ⟨0x4400, 0x01, 0x01, "ACC_BITS", .u8, .ro, .d, (.lit 24), 0x0, 0xff, false, false⟩,
  ⟨0x4400, 0x02, 0x02, "ACC_LANES", .u16, .ro, .d, (.lit 2048), 0x0, 0xffff, false, false⟩,
  ⟨0x4400, 0x03, 0x03, "ACC_BANKS", .u8, .ro, .d, (.lit 2), 0x0, 0xff, false, false⟩,
  ⟨0x4400, 0x04, 0x04, "OUTLIER_STORE_BYTES", .u32, .ro, .d, (.lit 0x20000), 0x0, 0xffffffff, false, false⟩,
  ⟨0x4400, 0x05, 0x05, "OUTLIER_ENTRY_LIMIT", .u16, .ro, .d, (.lit 0xaaaa), 0x0, 0xffff, false, false⟩,
  ⟨0x4400, 0x06, 0x06, "OUTLIER_WEIGHT_LIMIT", .u16, .ro, .d, (.lit 0xa3d7), 0x0, 0xffff, false, false⟩,
  ⟨0x4400, 0x07, 0x07, "DIGITAL_MACS", .u8, .ro, .d, (.lit 64), 0x0, 0xff, false, false⟩,
  ⟨0x4400, 0x08, 0x08, "RECOMPUTE_LIMIT", .u8, .ro, .d, (.lit 16), 0x0, 0xff, false, false⟩,
  ⟨0x4500, 0x01, 0x01, "ENGINE_MVMS", .u64, .ro, .d, (.lit 0), 0x0, 0xffffffffffffffff, false, false⟩,
  ⟨0x4500, 0x02, 0x02, "WIDE_MVMS", .u64, .ro, .d, (.lit 0), 0x0, 0xffffffffffffffff, false, false⟩,
  ⟨0x4500, 0x03, 0x03, "OUTLIER_MACS", .u64, .ro, .d, (.lit 0), 0x0, 0xffffffffffffffff, false, false⟩,
  ⟨0x4500, 0x04, 0x04, "DELTA_MACS", .u64, .ro, .d, (.lit 0), 0x0, 0xffffffffffffffff, false, false⟩,
  ⟨0x4500, 0x05, 0x05, "RECOMPUTES", .u64, .w1c, .d, (.lit 0), 0x0, 0xffffffffffffffff, false, false⟩,
  ⟨0x4500, 0x06, 0x06, "RECOMPUTE_STALL_CYCLES", .u64, .w1c, .d, (.lit 0), 0x0, 0xffffffffffffffff, false, false⟩,
  ⟨0x4500, 0x07, 0x07, "DIGITAL_BOUND_MVMS", .u64, .w1c, .d, (.lit 0), 0x0, 0xffffffffffffffff, false, false⟩,
  ⟨0x4500, 0x08, 0x08, "ACC_OVERFLOWS", .u32, .w1c, .d, (.lit 0), 0x0, 0xffffffff, false, false⟩,
  ⟨0x4500, 0x09, 0x09, "POISONED_OUTPUTS", .u64, .w1c, .d, (.lit 0), 0x0, 0xffffffffffffffff, false, false⟩,
  ⟨0x4500, 0x0A, 0x0A, "OUTLIER_ECC_CORRECTED", .u32, .w1c, .d, (.lit 0), 0x0, 0xffffffff, false, false⟩,
  ⟨0x4500, 0x0B, 0x0B, "OUTLIER_ECC_UNCORRECTABLE", .u32, .w1c, .d, (.lit 0), 0x0, 0xffffffff, false, false⟩,
  ⟨0x4500, 0x0C, 0x0C, "GAIN_LIMITED", .u32, .w1c, .d, (.lit 0), 0x0, 0xffffffff, false, false⟩,
  ⟨0x4500, 0x0D, 0x0D, "EPILOGUE_OVERFLOWS", .u32, .w1c, .d, (.lit 0), 0x0, 0xffffffff, false, false⟩,
  ⟨0x4600, 0x01, 0x01, "ENGINE_TABLE", .domain, .ro, .d, (.word .asFound), 0x0, 0xffffffff, false, false⟩,
  ⟨0x4600, 0x02, 0x02, "ENGINES_IN_SERVICE", .u16, .ro, .d, (.word .asFound), 0x0, 0xffff, false, false⟩]

/-- Object rows of spec/05_number_formats.md, part 1. -/
def Catalogue.rows05a : List Row := [
  ⟨0x4C00, 0x01, 0x01, "BLOCK_ELEMENTS", .u8, .ro, .d, (.lit 32), 0x0, 0xff, false, false⟩,
  ⟨0x4C00, 0x02, 0x02, "B4_EXP_FLOOR", .i32, .ro, .d, (.lit 0xffffffed), 0x0, 0xffffffff, false, false⟩,
  ⟨0x4C00, 0x03, 0x03, "B4_EXP_CEILING", .i32, .ro, .d, (.lit 11), 0x0, 0xffffffff, false, false⟩,
  ⟨0x4C00, 0x04, 0x04, "B8_EXP_FLOOR", .i32, .ro, .d, (.lit 0xffffff7c), 0x0, 0xffffffff, false, false⟩,
  ⟨0x4C00, 0x05, 0x05, "B8_EXP_CEILING", .i32, .ro, .d, (.lit 121), 0x0, 0xffffffff, false, false⟩,
  ⟨0x4D00, 0x01, 0x01, "B4_BLOCKS", .u64, .ro, .d, (.lit 0), 0x0, 0xffffffffffffffff, false, false⟩,
  ⟨0x4D00, 0x02, 0x02, "B8_BLOCKS", .u64, .ro, .d, (.lit 0), 0x0, 0xffffffffffffffff, false, false⟩,
  ⟨0x4D00, 0x03, 0x03, "ZERO_BLOCKS", .u64, .ro, .d, (.lit 0), 0x0, 0xffffffffffffffff, false, false⟩,
  ⟨0x4D00, 0x04, 0x04, "FLOOR_FALLBACKS", .u64, .w1c, .d, (.lit 0), 0x0, 0xffffffffffffffff, false, false⟩,
  ⟨0x4D00, 0x05, 0x05, "CEILING_FALLBACKS", .u64, .w1c, .d, (.lit 0), 0x0, 0xffffffffffffffff, false, false⟩,
  ⟨0x4D00, 0x06, 0x06, "B8_SATURATIONS", .u32, .w1c, .d, (.lit 0), 0x0, 0xffffffff, false, false⟩,
  ⟨0x4D00, 0x07, 0x07, "B8_UNDERFLOWS", .u64, .w1c, .d, (.lit 0), 0x0, 0xffffffffffffffff, false, false⟩,
  ⟨0x4D00, 0x08, 0x08, "ALIGN_WIDE_MVMS", .u64, .w1c, .d, (.lit 0), 0x0, 0xffffffffffffffff, false, false⟩,
  ⟨0x4D00, 0x09, 0x09, "ALIGN_ZEROED_BLOCKS", .u64, .w1c, .d, (.lit 0), 0x0, 0xffffffffffffffff, false, false⟩,
  ⟨0x4D00, 0x0A, 0x0A, "INVALID_OPS", .u32, .w1c, .d, (.lit 0), 0x0, 0xffffffff, false, false⟩,
  ⟨0x4D00, 0x0B, 0x0B, "FP_SATURATIONS", .u32, .w1c, .d, (.lit 0), 0x0, 0xffffffff, false, false⟩,
  ⟨0x4D00, 0x0C, 0x0C, "NAV_ELEMENTS", .u64, .w1c, .d, (.lit 0), 0x0, 0xffffffffffffffff, false, false⟩,
  ⟨0x4D00, 0x0D, 0x0D, "SR_DRAWS", .u64, .ro, .d, (.lit 0), 0x0, 0xffffffffffffffff, false, false⟩,
  ⟨0x4D00, 0x0E, 0x0E, "NUMERIC_EVENTS", .u32, .w1c, .d, (.lit 0), 0x0, 0xffffffff, false, false⟩,
  ⟨0x4E00, 0x01, 0x01, "WIDE_CAP", .u8, .rw, .t, (.lit 64), 0x0, 0xff, true, false⟩,
  ⟨0x4E00, 0x02, 0x02, "WIDE_WINDOW", .u8, .rw, .s, (.lit 16), 0x4, 0xff, false, false⟩,
  ⟨0x4E00, 0x03, 0x03, "WIDE_STORMS", .u32, .w1c, .d, (.lit 0), 0x0, 0xffffffff, false, false⟩,
  ⟨0x4E00, 0x04, 0x04, "TENANT_WIDE_STORMS", .u32, .w1c, .t, (.lit 0), 0x0, 0xffffffff, true, false⟩,
  ⟨0x4E00, 0x05, 0x05, "WIDE_CLASS_NOW", .u16, .ro, .d, (.lit 0), 0x0, 0xffff, false, false⟩]

/-- Object rows of spec/06_bolts_layer_programs.md, part 1. -/
def Catalogue.rows06a : List Row := [
  ⟨0x5000, 0x01, 0x01, "SLOT_LIMIT", .u8, .ro, .d, (.lit 4), 0x0, 0xff, false, false⟩,
  ⟨0x5000, 0x02, 0x02, "BOLT_FORMAT", .u32, .ro, .d, (.word .firmware), 0x0, 0xffffffff, false, false⟩,
  ⟨0x5000, 0x03, 0x03, "MICROBATCH_LIMIT", .u16, .ro, .d, (.lit 256), 0x0, 0xffff, false, false⟩,
  ⟨0x5000, 0x04, 0x04, "EDGE_SHARE_LIMIT", .u8, .rw, .s, (.lit 192), 0x80, 0xff, false, false⟩,
  ⟨0x5000, 0x05, 0x05, "FACETS_UNALLOCATED", .u16, .ro, .d, (.word .asFound), 0x0, 0xffff, false, false⟩,
  ⟨0x5010, 0x01, 0x04, "SLOT_STATE", .u8, .ro, .p, (.lit 0), 0x0, 0xff, false, false⟩,
  ⟨0x5011, 0x01, 0x04, "SLOT_BOLT_ID", .u64, .ro, .p, (.lit 0), 0x0, 0xffffffffffffffff, false, false⟩,
  ⟨0x5012, 0x01, 0x04, "SLOT_BOLT_VERSION", .u32, .ro, .p, (.lit 0), 0x0, 0xffffffff, false, false⟩,
  ⟨0x5013, 0x01, 0x04, "SLOT_DIE_INDEX", .u16, .ro, .p, (.lit 0xffff), 0x0, 0xffff, false, false⟩,
  ⟨0x5014, 0x01, 0x04, "SLOT_KIND", .u8, .ro, .p, (.lit 255), 0x0, 0xff, false, false⟩,
  ⟨0x5015, 0x01, 0x04, "SLOT_FACETS", .u16, .ro, .p, (.lit 0), 0x0, 0xffff, false, false⟩,
  ⟨0x5016, 0x01, 0x04, "SLOT_LAYERS", .u16, .ro, .p, (.lit 0), 0x0, 0xffff, false, false⟩,
  ⟨0x5017, 0x01, 0x04, "SLOT_EDGE_SHARE", .u8, .ro, .p, (.lit 128), 0x0, 0xff, false, false⟩,
  ⟨0x5018, 0x01, 0x04, "SLOT_OWNER_KEY", .u64, .ro, .p, (.lit 0), 0x0, 0xffffffffffffffff, false, false⟩,
  ⟨0x5019, 0x01, 0x04, "SLOT_HEADER", .domain, .ro, .p, (.lit 0), 0x0, 0xffffffff, false, false⟩,
  ⟨0x501A, 0x01, 0x04, "SLOT_SHAPE", .domain, .ro, .d, (.lit 0), 0x0, 0xffffffff, false, false⟩,
  ⟨0x5100, 0x01, 0x01, "OPS_EXECUTED", .u64, .ro, .d, (.lit 0), 0x0, 0xffffffffffffffff, false, false⟩,
  ⟨0x5100, 0x02, 0x02, "PROGRAM_WORD_ERRORS", .u32, .w1c, .d, (.lit 0), 0x0, 0xffffffff, false, false⟩,
  ⟨0x5100, 0x03, 0x03, "EXPERT_OVERRUNS", .u64, .w1c, .d, (.lit 0), 0x0, 0xffffffffffffffff, false, false⟩,
  ⟨0x5100, 0x04, 0x04, "COLLECTIVE_WAIT_NS", .u64, .w1c, .d, (.lit 0), 0x0, 0xffffffffffffffff, false, false⟩,
  ⟨0x5100, 0x05, 0x05, "MB_DEPTH_STALLS", .u64, .w1c, .d, (.lit 0), 0x0, 0xffffffffffffffff, false, false⟩]

/-- Object rows of spec/08_weight_residency.md, part 1. -/
def Catalogue.rows08a : List Row := [
  ⟨0x5400, 0x01, 0x01, "LOAD_REQUEST", .domain, .rw, .d, (.lit 0), 0x0, 0xffffffff, false, false⟩,
  ⟨0x5400, 0x02, 0x02, "LOAD_START", .u8, .cmd, .d, (.lit 0), 0x0, 0x0, false, true⟩,
  ⟨0x5400, 0x03, 0x03, "LOAD_BYTES", .u64, .ro, .d, (.lit 0), 0x0, 0xffffffffffffffff, false, false⟩,
  ⟨0x5400, 0x04, 0x04, "LOAD_FACETS_DONE", .u16, .ro, .d, (.lit 0), 0x0, 0xffff, false, false⟩,
  ⟨0x5400, 0x05, 0x05, "LOAD_TIME_US", .u32, .ro, .d, (.lit 0), 0x0, 0xffffffff, false, false⟩,
  ⟨0x5400, 0x06, 0x06, "SLOT_RELEASE", .u8, .cmd, .d, (.lit 0), 0x0, 0x3, false, false⟩,
  ⟨0x5500, 0x01, 0x01, "PROGRAM_CONCURRENCY", .u16, .rw, .s, (.lit 512), 0x8, 0x200, false, false⟩,
  ⟨0x5500, 0x02, 0x02, "PROGRAM_DRAW_MW", .u16, .ro, .d, (.lit 220), 0x0, 0xffff, false, false⟩,
  ⟨0x5500, 0x03, 0x03, "PROGRAMS_TOTAL", .u64, .ro, .p, (.lit 0), 0x0, 0xffffffffffffffff, false, false⟩,
  ⟨0x5500, 0x04, 0x04, "PROGRAM_RETRIES", .u32, .w1c, .d, (.lit 0), 0x0, 0xffffffff, false, false⟩,
  ⟨0x5500, 0x05, 0x05, "PROGRAM_FAILURES", .u32, .w1c, .d, (.lit 0), 0x0, 0xffffffff, false, false⟩,
  ⟨0x5500, 0x06, 0x06, "PROGRAM_POWER_WAITS", .u64, .w1c, .d, (.lit 0), 0x0, 0xffffffffffffffff, false, false⟩,
  ⟨0x5500, 0x07, 0x07, "PROGRAM_THERMAL_WAITS", .u64, .w1c, .d, (.lit 0), 0x0, 0xffffffffffffffff, false, false⟩,
  ⟨0x5600, 0x01, 0x01, "REPLACE_SLOT", .u32, .cmd, .d, (.lit 0), 0x0, 0xffffffff, false, false⟩,
  ⟨0x5601, 0x01, 0x04, "SLOT_ADMISSION", .u8, .ro, .d, (.lit 2), 0x0, 0xff, false, false⟩,
  ⟨0x5600, 0x02, 0x02, "DRAINS_DISCARDED", .u32, .w1c, .d, (.lit 0), 0x0, 0xffffffff, false, false⟩,
  ⟨0x5700, 0x01, 0x01, "SHADOW_TABLE", .domain, .ro, .d, (.word .asFound), 0x0, 0xffffffff, false, false⟩,
  ⟨0x5700, 0x02, 0x02, "SHADOWS_ACTIVE", .u16, .ro, .d, (.lit 0), 0x0, 0xffff, false, false⟩,
  ⟨0x5700, 0x03, 0x03, "FLIPS", .u64, .ro, .d, (.lit 0), 0x0, 0xffffffffffffffff, false, false⟩,
  ⟨0x5700, 0x04, 0x04, "REMAPS", .u16, .ro, .p, (.lit 0), 0x0, 0xffff, false, false⟩,
  ⟨0x5700, 0x05, 0x05, "IN_PLACE_ENABLE", .bool, .rw, .s, (.lit 1), 0x0, 0x1, false, false⟩,
  ⟨0x5700, 0x06, 0x06, "IN_PLACE_AFTER", .u16, .rw, .s, (.lit 24), 0x1, 0x2d0, false, false⟩,
  ⟨0x5700, 0x07, 0x07, "PAUSE_LIMIT_MS", .u8, .rw, .s, (.lit 10), 0x4, 0x14, false, false⟩,
  ⟨0x5700, 0x08, 0x08, "IN_PLACE_REFRESHES", .u32, .ro, .d, (.lit 0), 0x0, 0xffffffff, false, false⟩]

/-- Object rows of spec/09_serving_requests_steps.md, part 1. -/
def Catalogue.rows09a : List Row := [
  ⟨0x6000, 0x01, 0x01, "REQUEST_ENTRIES", .u16, .ro, .d, (.lit 0x4000), 0x0, 0xffff, false, false⟩,
  ⟨0x6000, 0x02, 0x02, "LANE_LIMIT", .u16, .ro, .d, (.lit 256), 0x0, 0xffff, false, false⟩,
  ⟨0x6000, 0x03, 0x03, "PREFILL_RECORD_LIMIT", .u16, .ro, .d, (.lit 256), 0x0, 0xffff, false, false⟩,
  ⟨0x6000, 0x04, 0x04, "DECODE_VECTOR_LIMIT", .u16, .ro, .d, (.lit 2048), 0x0, 0xffff, false, false⟩,
  ⟨0x6000, 0x05, 0x05, "PREFILL_VECTOR_LIMIT", .u16, .ro, .d, (.lit 0x4000), 0x0, 0xffff, false, false⟩,
  ⟨0x6000, 0x06, 0x06, "STEP_BOUND_US", .u16, .ro, .d, (.lit 2000), 0x0, 0xffff, false, false⟩,
  ⟨0x6000, 0x07, 0x07, "VARIANTS_PER_STEP", .u8, .ro, .d, (.lit 32), 0x0, 0xff, false, false⟩,
  ⟨0x6010, 0x01, 0x01, "PLANNER_RUN", .bool, .rw, .d, (.lit 1), 0x0, 0x1, false, false⟩,
  ⟨0x6010, 0x02, 0x02, "STEP_TARGET_US", .u16, .rw, .s, (.lit 1700), 0x1f4, 0x76c, false, false⟩,
  ⟨0x6010, 0x03, 0x03, "PREFILL_SHARE", .u8, .rw, .s, (.lit 64), 0x0, 0xff, false, false⟩,
  ⟨0x6010, 0x04, 0x04, "AGE_STEPS", .u16, .rw, .s, (.lit 64), 0x0, 0xffff, false, false⟩,
  ⟨0x6010, 0x05, 0x05, "WIDE_PERIOD", .u8, .rw, .s, (.lit 4), 0x2, 0x40, false, false⟩,
  ⟨0x6010, 0x06, 0x06, "OUTPUT_BACKLOG", .u16, .rw, .s, (.lit 512), 0x10, 0xffff, false, false⟩,
  ⟨0x6010, 0x07, 0x07, "PAGE_RESERVE", .u32, .rw, .s, (.lit 0x1000), 0x0, 0xffffffff, false, false⟩,
  ⟨0x6010, 0x08, 0x08, "CORRECTION", .u16, .ro, .d, (.lit 256), 0x0, 0xffff, false, false⟩,
  ⟨0x6010, 0x09, 0x09, "RATE_FACTOR", .u16, .ro, .d, (.lit 256), 0x0, 0xffff, false, false⟩,
  ⟨0x6011, 0x01, 0x04, "STEP_COST", .domain, .rw, .d, (.word .firmware), 0x0, 0xffffffff, false, false⟩,
  ⟨0x6012, 0x01, 0x04, "CONTEXT_LIMIT", .u32, .rw, .s, (.lit 0x4000), 0x1, 0x100000, false, false⟩,
  ⟨0x6100, 0x01, 0x01, "STEPS", .u64, .ro, .d, (.lit 0), 0x0, 0xffffffffffffffff, false, false⟩,
  ⟨0x6100, 0x02, 0x02, "STEP_OVERRUNS", .u32, .w1c, .d, (.lit 0), 0x0, 0xffffffff, false, false⟩,
  ⟨0x6100, 0x03, 0x03, "STEP_MAX_US", .u32, .w1c, .d, (.lit 0), 0x0, 0xffffffff, false, false⟩,
  ⟨0x6100, 0x04, 0x04, "REQUESTS_ADMITTED", .u64, .ro, .d, (.lit 0), 0x0, 0xffffffffffffffff, false, false⟩,
  ⟨0x6100, 0x05, 0x05, "INTAKE_REFUSED", .u32, .w1c, .d, (.lit 0), 0x0, 0xffffffff, false, false⟩,
  ⟨0x6100, 0x06, 0x06, "REQUESTS_EXPIRED", .u32, .w1c, .d, (.lit 0), 0x0, 0xffffffff, false, false⟩,
  ⟨0x6100, 0x07, 0x07, "LATE_DELIVERIES", .u64, .w1c, .d, (.lit 0), 0x0, 0xffffffffffffffff, false, false⟩,
  ⟨0x6100, 0x08, 0x08, "REQUESTS_CANCELLED", .u32, .w1c, .d, (.lit 0), 0x0, 0xffffffff, false, false⟩,
  ⟨0x6100, 0x09, 0x09, "REQUESTS_FAILED", .u32, .w1c, .d, (.lit 0), 0x0, 0xffffffff, false, false⟩,
  ⟨0x6100, 0x0A, 0x0A, "TOKENS_COMMITTED", .u64, .ro, .d, (.lit 0), 0x0, 0xffffffffffffffff, false, false⟩,
  ⟨0x6100, 0x0B, 0x0B, "PREFILL_VECTORS", .u64, .ro, .d, (.lit 0), 0x0, 0xffffffffffffffff, false, false⟩,
  ⟨0x6100, 0x0C, 0x0C, "BUDGET_SKIPS", .u64, .w1c, .d, (.lit 0), 0x0, 0xffffffffffffffff, false, false⟩]

/-- Object rows of spec/09_serving_requests_steps.md, part 2. -/
def Catalogue.rows09b : List Row := [
  ⟨0x6100, 0x0D, 0x0D, "BACKLOG_SKIPS", .u64, .w1c, .d, (.lit 0), 0x0, 0xffffffffffffffff, false, false⟩,
  ⟨0x6100, 0x0E, 0x0E, "PAGE_HOLDS", .u32, .w1c, .d, (.lit 0), 0x0, 0xffffffff, false, false⟩,
  ⟨0x6100, 0x0F, 0x0F, "LIVE_REQUESTS", .u16, .ro, .d, (.lit 0), 0x0, 0xffff, false, false⟩,
  ⟨0x6200, 0x01, 0x01, "KV_PAGE_BYTES", .u32, .ro, .d, (.lit 0x10000), 0x0, 0xffffffff, false, false⟩,
  ⟨0x6200, 0x02, 0x02, "KV_PAGES_TOTAL", .u32, .ro, .d, (.word .asFound), 0x0, 0xffffffff, false, false⟩,
  ⟨0x6200, 0x03, 0x03, "KV_PAGES_FREE", .u32, .ro, .d, (.word .asFound), 0x0, 0xffffffff, false, false⟩,
  ⟨0x6200, 0x04, 0x04, "KV_PAGES_SHARED", .u32, .ro, .d, (.lit 0), 0x0, 0xffffffff, false, false⟩,
  ⟨0x6200, 0x05, 0x05, "COW_COPIES", .u64, .ro, .d, (.lit 0), 0x0, 0xffffffffffffffff, false, false⟩,
  ⟨0x6201, 0x01, 0x04, "PAGE_POSITIONS", .u16, .ro, .d, (.lit 0), 0x0, 0xffff, false, false⟩,
  ⟨0x6300, 0x01, 0x01, "TENANT_LANE_CAP", .u16, .rw, .t, (.lit 256), 0x0, 0xffff, false, false⟩,
  ⟨0x6300, 0x02, 0x02, "TENANT_PRIORITY_MAX", .u8, .rw, .t, (.lit 7), 0x0, 0x7, false, false⟩,
  ⟨0x6300, 0x03, 0x03, "TENANT_REQUEST_CAP", .u16, .rw, .t, (.lit 0x4000), 0x0, 0xffff, false, false⟩,
  ⟨0x6300, 0x04, 0x04, "TENANT_PAGE_CAP", .u32, .rw, .t, (.lit 0xffffffff), 0x0, 0xffffffff, false, false⟩,
  ⟨0x6300, 0x05, 0x05, "TENANT_LIVE", .u16, .ro, .t, (.lit 0), 0x0, 0xffff, true, false⟩,
  ⟨0x6300, 0x06, 0x06, "TENANT_PAGES", .u32, .ro, .t, (.lit 0), 0x0, 0xffffffff, true, false⟩,
  ⟨0x6300, 0x07, 0x07, "TENANT_TOKENS", .u64, .ro, .t, (.lit 0), 0x0, 0xffffffffffffffff, true, false⟩,
  ⟨0x6300, 0x08, 0x08, "TENANT_EXPIRED", .u32, .w1c, .t, (.lit 0), 0x0, 0xffffffff, true, false⟩,
  ⟨0x6300, 0x09, 0x09, "TENANT_LATE", .u32, .w1c, .t, (.lit 0), 0x0, 0xffffffff, true, false⟩,
  ⟨0x6400, 0x01, 0x01, "REQUEST_SELECT", .u32, .rw, .t, (.lit 0), 0x0, 0xffffffff, true, false⟩,
  ⟨0x6400, 0x02, 0x02, "REQUEST_ENTRY", .domain, .ro, .t, (.lit 0), 0x0, 0xffffffff, true, false⟩,
  ⟨0x6400, 0x03, 0x03, "REQUEST_CANCEL", .u32, .cmd, .t, (.lit 0), 0x0, 0xffffffff, true, false⟩,
  ⟨0x6400, 0x04, 0x04, "REQUEST_HOLD", .u32, .cmd, .t, (.lit 0), 0x0, 0xffffffff, true, false⟩,
  ⟨0x6400, 0x05, 0x05, "REQUEST_RESUME", .u32, .cmd, .t, (.lit 0), 0x0, 0xffffffff, true, false⟩,
  ⟨0x6400, 0x06, 0x06, "REQUEST_RELEASE", .u32, .cmd, .t, (.lit 0), 0x0, 0xffffffff, true, false⟩,
  ⟨0x6400, 0x07, 0x07, "REQUEST_TABLE", .domain, .ro, .d, (.word .asFound), 0x0, 0xffffffff, false, false⟩]

/-- Object rows of spec/10_speculation_grammar_sampling.md, part 1. -/
def Catalogue.rows10a : List Row := [
  ⟨0x6800, 0x01, 0x01, "DRAFT_DEPTH_LIMIT", .u8, .ro, .d, (.lit 7), 0x0, 0xff, false, false⟩,
  ⟨0x6800, 0x02, 0x02, "ZERO_ACCEPT_LIMIT", .u8, .ro, .d, (.lit 8), 0x0, 0xff, false, false⟩,
  ⟨0x6800, 0x03, 0x03, "STACK_DEPTH_LIMIT", .u8, .ro, .d, (.lit 64), 0x0, 0xff, false, false⟩,
  ⟨0x6800, 0x04, 0x04, "GRAMMAR_STATE_LIMIT", .u32, .ro, .d, (.lit 0x100000), 0x0, 0xffffffff, false, false⟩,
  ⟨0x6800, 0x05, 0x05, "MASK_BYTES", .u32, .ro, .d, (.lit 0x8000), 0x0, 0xffffffff, false, false⟩,
  ⟨0x6810, 0x01, 0x01, "DRAFT_RETRY_STEPS", .u16, .rw, .s, (.lit 64), 0x1, 0xffff, false, false⟩,
  ⟨0x6810, 0x02, 0x02, "DRAFT_CATCHUP", .u16, .rw, .s, (.lit 0x2000), 0x100, 0x4000, false, false⟩,
  ⟨0x6900, 0x01, 0x01, "SPEC_LANES", .u64, .ro, .d, (.lit 0), 0x0, 0xffffffffffffffff, false, false⟩,
  ⟨0x6900, 0x02, 0x02, "DRAFTS_PROPOSED", .u64, .ro, .d, (.lit 0), 0x0, 0xffffffffffffffff, false, false⟩,
  ⟨0x6900, 0x03, 0x03, "DRAFTS_ACCEPTED", .u64, .ro, .d, (.lit 0), 0x0, 0xffffffffffffffff, false, false⟩,
  ⟨0x6900, 0x04, 0x04, "ZERO_ACCEPT_LANES", .u64, .w1c, .d, (.lit 0), 0x0, 0xffffffffffffffff, false, false⟩,
  ⟨0x6900, 0x05, 0x05, "DEPTH_HALVINGS", .u32, .w1c, .d, (.lit 0), 0x0, 0xffffffff, false, false⟩,
  ⟨0x6900, 0x06, 0x06, "DEPTH_RAISES", .u32, .w1c, .d, (.lit 0), 0x0, 0xffffffff, false, false⟩,
  ⟨0x6900, 0x07, 0x07, "DRAFT_EMPTY_LANES", .u64, .w1c, .d, (.lit 0), 0x0, 0xffffffffffffffff, false, false⟩,
  ⟨0x6900, 0x08, 0x08, "CATCHUP_POSITIONS", .u64, .ro, .d, (.lit 0), 0x0, 0xffffffffffffffff, false, false⟩,
  ⟨0x6900, 0x09, 0x09, "DRAFT_PROB_ACCEPTED", .u64, .ro, .d, (.lit 0), 0x0, 0xffffffffffffffff, false, false⟩,
  ⟨0x6900, 0x0A, 0x0A, "DRAFT_PROB_REJECTED", .u64, .ro, .d, (.lit 0), 0x0, 0xffffffffffffffff, false, false⟩,
  ⟨0x6900, 0x0B, 0x0B, "DRAFT_PAGES_FREE", .u32, .ro, .d, (.word .asFound), 0x0, 0xffffffff, false, false⟩,
  ⟨0x6900, 0x0C, 0x0C, "DRAFT_POISON", .u32, .w1c, .d, (.lit 0), 0x0, 0xffffffff, false, false⟩,
  ⟨0x6A00, 0x01, 0x01, "GRAMMAR_STORE_BYTES", .u64, .ro, .d, (.word .firmware), 0x0, 0xffffffffffffffff, false, false⟩,
  ⟨0x6A00, 0x02, 0x02, "GRAMMAR_STORE_FREE", .u64, .ro, .d, (.word .asFound), 0x0, 0xffffffffffffffff, false, false⟩,
  ⟨0x6A00, 0x03, 0x03, "GRAMMARS_LOADED", .u16, .ro, .d, (.lit 0), 0x0, 0xffff, false, false⟩,
  ⟨0x6A00, 0x04, 0x04, "MASKS_GENERATED", .u64, .ro, .d, (.lit 0), 0x0, 0xffffffffffffffff, false, false⟩,
  ⟨0x6A00, 0x05, 0x05, "MASK_NS_MAX", .u32, .w1c, .d, (.lit 0), 0x0, 0xffffffff, false, false⟩,
  ⟨0x6A00, 0x06, 0x06, "GRAMMAR_DEAD_ENDS", .u32, .w1c, .d, (.lit 0), 0x0, 0xffffffff, false, false⟩,
  ⟨0x6A00, 0x07, 0x07, "STACK_LIMIT_MASKS", .u64, .w1c, .d, (.lit 0), 0x0, 0xffffffffffffffff, false, false⟩,
  ⟨0x6A00, 0x08, 0x08, "GRAMMAR_POISON", .u32, .w1c, .d, (.lit 0), 0x0, 0xffffffff, false, false⟩,
  ⟨0x6A10, 0x01, 0x01, "GRAMMAR_ID", .u16, .rw, .t, (.lit 0), 0x0, 0x7fff, true, false⟩,
  ⟨0x6A10, 0x02, 0x02, "GRAMMAR_IMAGE", .domain, .rw, .t, (.lit 0), 0x0, 0xffffffff, true, false⟩,
  ⟨0x6A10, 0x03, 0x03, "GRAMMAR_DELETE", .u16, .cmd, .t, (.lit 0), 0x0, 0xffff, true, false⟩]

/-- Object rows of spec/10_speculation_grammar_sampling.md, part 2. -/
def Catalogue.rows10b : List Row := [
  ⟨0x6A10, 0x04, 0x04, "TENANT_GRAMMAR_CAP", .u32, .rw, .t, (.lit 1024), 0x0, 0xffffffff, false, false⟩,
  ⟨0x6A20, 0x01, 0x01, "GLOBAL_GRAMMAR_ID", .u16, .rw, .d, (.lit 0x8000), 0x8000, 0xfffe, false, false⟩,
  ⟨0x6A20, 0x02, 0x02, "GLOBAL_GRAMMAR_IMAGE", .domain, .rw, .d, (.lit 0), 0x0, 0xffffffff, false, false⟩,
  ⟨0x6A20, 0x03, 0x03, "GLOBAL_GRAMMAR_DELETE", .u16, .cmd, .d, (.lit 0), 0x0, 0xffff, false, false⟩,
  ⟨0x6B00, 0x01, 0x01, "SAMPLES", .u64, .ro, .d, (.lit 0), 0x0, 0xffffffffffffffff, false, false⟩,
  ⟨0x6B00, 0x02, 0x02, "GREEDY_SAMPLES", .u64, .ro, .d, (.lit 0), 0x0, 0xffffffffffffffff, false, false⟩,
  ⟨0x6B00, 0x03, 0x03, "NUCLEUS_SHORT", .u64, .w1c, .d, (.lit 0), 0x0, 0xffffffffffffffff, false, false⟩,
  ⟨0x6C00, 0x01, 0x01, "TENANT_DRAFTED", .u64, .ro, .t, (.lit 0), 0x0, 0xffffffffffffffff, true, false⟩,
  ⟨0x6C00, 0x02, 0x02, "TENANT_ACCEPTED", .u64, .ro, .t, (.lit 0), 0x0, 0xffffffffffffffff, true, false⟩]

/-- Object rows of spec/11_variants_tuning.md, part 1. -/
def Catalogue.rows11a : List Row := [
  ⟨0x7000, 0x01, 0x01, "SETS_PER_SLOT", .u16, .ro, .d, (.lit 0x1000), 0x0, 0xffff, false, false⟩,
  ⟨0x7000, 0x02, 0x02, "DENSITY_DIVISOR", .u16, .ro, .d, (.lit 200), 0x0, 0xffff, false, false⟩,
  ⟨0x7000, 0x03, 0x03, "DELTA_RESERVE_GIB", .u16, .rw, .s, (.lit 96), 0x0, 0xc0, false, false⟩,
  ⟨0x7000, 0x04, 0x04, "DELTA_RESERVE_BYTES", .u64, .ro, .d, (.word .asFound), 0x0, 0xffffffffffffffff, false, false⟩,
  ⟨0x7000, 0x05, 0x05, "DELTA_RESERVE_FREE", .u64, .ro, .d, (.word .asFound), 0x0, 0xffffffffffffffff, false, false⟩,
  ⟨0x7000, 0x06, 0x06, "DELTA_BUFFER_KIB", .u16, .rw, .s, (.lit 3072), 0x0, 0xe00, false, false⟩,
  ⟨0x7000, 0x07, 0x07, "DELTA_SETS_LOADED", .u16, .ro, .d, (.lit 0), 0x0, 0xffff, false, false⟩,
  ⟨0x7100, 0x01, 0x01, "DELTA_BYTES_STREAMED", .u64, .ro, .d, (.lit 0), 0x0, 0xffffffffffffffff, false, false⟩,
  ⟨0x7100, 0x02, 0x02, "DELTA_STALLS", .u64, .w1c, .d, (.lit 0), 0x0, 0xffffffffffffffff, false, false⟩,
  ⟨0x7100, 0x03, 0x03, "DELTA_STALL_NS", .u64, .w1c, .d, (.lit 0), 0x0, 0xffffffffffffffff, false, false⟩,
  ⟨0x7100, 0x04, 0x04, "DELTA_SPLITS", .u64, .w1c, .d, (.lit 0), 0x0, 0xffffffffffffffff, false, false⟩,
  ⟨0x7100, 0x05, 0x05, "DELTA_EVICTIONS", .u32, .w1c, .d, (.lit 0), 0x0, 0xffffffff, false, false⟩,
  ⟨0x7100, 0x06, 0x06, "DELTA_LOADS_REFUSED", .u32, .w1c, .d, (.lit 0), 0x0, 0xffffffff, false, false⟩,
  ⟨0x7100, 0x07, 0x07, "DELTA_SETS_BAD", .u16, .ro, .d, (.lit 0), 0x0, 0xffff, false, false⟩,
  ⟨0x7100, 0x08, 0x08, "DELTA_POISON", .u32, .w1c, .d, (.lit 0), 0x0, 0xffffffff, false, false⟩,
  ⟨0x7200, 0x01, 0x01, "VARIANT_SELECT", .u16, .rw, .t, (.lit 0), 0x0, 0x3fff, true, false⟩,
  ⟨0x7200, 0x02, 0x02, "VARIANT_INFO", .domain, .ro, .t, (.lit 0), 0x0, 0xffffffff, true, false⟩,
  ⟨0x7200, 0x03, 0x03, "VARIANT_LOAD_REQUEST", .domain, .rw, .t, (.lit 0), 0x0, 0xffffffff, true, false⟩,
  ⟨0x7200, 0x04, 0x04, "VARIANT_LOAD", .u8, .cmd, .t, (.lit 0), 0x0, 0x0, true, true⟩,
  ⟨0x7200, 0x05, 0x05, "VARIANT_UNLOAD", .u16, .cmd, .t, (.lit 0), 0x0, 0x3fff, true, false⟩,
  ⟨0x7200, 0x06, 0x06, "VARIANT_PIN", .u32, .cmd, .d, (.lit 0), 0x0, 0x1ffff, false, false⟩,
  ⟨0x7200, 0x07, 0x07, "TENANT_DELTA_CAP", .u32, .rw, .t, (.lit 0xffffffff), 0x0, 0xffffffff, false, false⟩,
  ⟨0x7200, 0x08, 0x08, "TENANT_DELTA_BYTES", .u64, .ro, .t, (.lit 0), 0x0, 0xffffffffffffffff, true, false⟩,
  ⟨0x7300, 0x01, 0x01, "TUNE_JOB", .domain, .rw, .t, (.lit 0), 0x0, 0xffffffff, true, false⟩,
  ⟨0x7300, 0x02, 0x02, "TUNE_START", .u8, .cmd, .t, (.lit 0), 0x0, 0x0, true, true⟩,
  ⟨0x7300, 0x03, 0x03, "TUNE_STATUS", .domain, .ro, .t, (.lit 0), 0x0, 0xffffffff, true, false⟩,
  ⟨0x7300, 0x04, 0x04, "TUNE_PERIOD", .u8, .rw, .s, (.lit 8), 0x1, 0xff, false, false⟩,
  ⟨0x7300, 0x05, 0x05, "TUNE_JOBS_RUNNING", .u8, .ro, .d, (.lit 0), 0x0, 0xff, false, false⟩,
  ⟨0x7300, 0x06, 0x06, "PUBLISH_DEFERRED", .u32, .w1c, .d, (.lit 0), 0x0, 0xffffffff, false, false⟩,
  ⟨0x7301, 0x01, 0x04, "TUNE_STEP_COST", .domain, .rw, .d, (.word .firmware), 0x0, 0xffffffff, false, false⟩]

/-- Object rows of spec/11_variants_tuning.md, part 2. -/
def Catalogue.rows11b : List Row := [
  ⟨0x7302, 0x01, 0x04, "TUNE_PROGRAM", .domain, .rw, .d, (.lit 0), 0x0, 0xffffffff, false, false⟩,
  ⟨0x7400, 0x01, 0x01, "TUNE_STEPS", .u64, .ro, .d, (.lit 0), 0x0, 0xffffffffffffffff, false, false⟩,
  ⟨0x7400, 0x02, 0x02, "TUNE_UPDATES", .u64, .ro, .d, (.lit 0), 0x0, 0xffffffffffffffff, false, false⟩,
  ⟨0x7400, 0x03, 0x03, "TUNE_PUBLISHES", .u32, .ro, .d, (.lit 0), 0x0, 0xffffffff, false, false⟩]

/-- Object rows of spec/12_heddle_fabric_groups.md, part 1. -/
def Catalogue.rows12a : List Row := [
  ⟨0x8000, 0x01, 0x01, "ROLE", .u8, .ro, .d, (.lit 0), 0x0, 0xff, false, false⟩,
  ⟨0x8000, 0x02, 0x02, "DEVICE_ID", .u8, .ro, .d, (.lit 254), 0x0, 0xff, false, false⟩,
  ⟨0x8000, 0x03, 0x03, "GROUP_STATE", .u8, .ro, .d, (.lit 0), 0x0, 0xff, false, false⟩,
  ⟨0x8000, 0x04, 0x04, "GROUP_EPOCH", .u32, .ro, .p, (.lit 0), 0x0, 0xffffffff, false, false⟩,
  ⟨0x8000, 0x05, 0x05, "GROUP_MEMBERS", .u16, .ro, .d, (.lit 0), 0x0, 0xffff, false, false⟩,
  ⟨0x8000, 0x06, 0x06, "WORKER_COUNT", .u8, .ro, .d, (.lit 0), 0x0, 0xff, false, false⟩,
  ⟨0x8000, 0x07, 0x07, "GROUP_FORM", .u8, .cmd, .d, (.lit 0), 0x0, 0x0, false, false⟩,
  ⟨0x8000, 0x08, 0x08, "GROUP_DISSOLVE", .u8, .cmd, .d, (.lit 0), 0x0, 0x0, false, false⟩,
  ⟨0x8000, 0x09, 0x09, "GROUP_PLAN", .domain, .rw, .s, (.lit 0), 0x0, 0xffffffff, false, false⟩,
  ⟨0x8000, 0x0A, 0x0A, "PLAN_STRICT", .bool, .rw, .s, (.lit 1), 0x0, 0x1, false, false⟩,
  ⟨0x8000, 0x0B, 0x0B, "AUTO_REFORM", .bool, .rw, .s, (.lit 1), 0x0, 0x1, false, false⟩,
  ⟨0x8000, 0x0C, 0x0C, "TAKEOVER_ENABLE", .bool, .rw, .s, (.lit 1), 0x0, 0x1, false, false⟩,
  ⟨0x8000, 0x0D, 0x0D, "HEARTBEAT_US", .u16, .rw, .s, (.lit 500), 0x64, 0x3e8, false, false⟩,
  ⟨0x8000, 0x0E, 0x0E, "MANAGER_TIMEOUT_MS", .u8, .rw, .s, (.lit 5), 0x2, 0x64, false, false⟩,
  ⟨0x8000, 0x0F, 0x0F, "STEP_RESULT_TIMEOUT_MS", .u16, .rw, .s, (.lit 20), 0x4, 0x3e8, false, false⟩,
  ⟨0x8000, 0x10, 0x10, "TOPOLOGY", .domain, .ro, .d, (.word .asFound), 0x0, 0xffffffff, false, false⟩,
  ⟨0x8000, 0x11, 0x11, "ROUTE_TABLE", .domain, .ro, .d, (.word .asFound), 0x0, 0xffffffff, false, false⟩,
  ⟨0x8000, 0x12, 0x12, "EXCLUDED_DEVICES", .u16, .ro, .d, (.lit 0), 0x0, 0xffff, false, false⟩,
  ⟨0x8000, 0x13, 0x13, "LINK_REPLAY_LIMIT", .u32, .rw, .s, (.lit 1000), 0x0, 0xffffffff, false, false⟩,
  ⟨0x8100, 0x01, 0x01, "GROUP_FAULTS", .u32, .w1c, .d, (.lit 0), 0x0, 0xffffffff, false, false⟩,
  ⟨0x8100, 0x02, 0x02, "LAST_GROUP_FAULT", .u64, .ro, .s, (.lit 0), 0x0, 0xffffffffffffffff, false, false⟩,
  ⟨0x8100, 0x03, 0x03, "TAKEOVERS", .u32, .ro, .s, (.lit 0), 0x0, 0xffffffff, false, false⟩,
  ⟨0x8100, 0x04, 0x04, "MIRROR_TABLE", .domain, .ro, .d, (.lit 0), 0x0, 0xffffffff, false, false⟩,
  ⟨0x8100, 0x05, 0x05, "MIRROR_RELEASE", .u8, .cmd, .d, (.lit 0), 0x0, 0x0, false, false⟩,
  ⟨0x8100, 0x06, 0x06, "STANDBY_LOST_EVENTS", .u32, .w1c, .d, (.lit 0), 0x0, 0xffffffff, false, false⟩,
  ⟨0x8200, 0x01, 0x10, "LINK_STATUS", .u32, .ro, .d, (.word .asFound), 0x0, 0xffffffff, false, false⟩,
  ⟨0x8201, 0x01, 0x10, "LINK_ENABLE", .bool, .rw, .s, (.lit 1), 0x0, 0x1, false, false⟩,
  ⟨0x8202, 0x01, 0x10, "LINK_LATENCY_NS", .u16, .ro, .d, (.lit 0), 0x0, 0xffff, false, false⟩,
  ⟨0x8203, 0x01, 0x10, "LINK_PARTNER", .u64, .ro, .d, (.lit 0), 0x0, 0xffffffffffffffff, false, false⟩,
  ⟨0x8204, 0x01, 0x10, "LINK_TX_BYTES", .u64, .ro, .d, (.lit 0), 0x0, 0xffffffffffffffff, false, false⟩]

/-- Object rows of spec/12_heddle_fabric_groups.md, part 2. -/
def Catalogue.rows12b : List Row := [
  ⟨0x8205, 0x01, 0x10, "LINK_RX_BYTES", .u64, .ro, .d, (.lit 0), 0x0, 0xffffffffffffffff, false, false⟩,
  ⟨0x8206, 0x01, 0x10, "LINK_CRC_ERRORS", .u32, .w1c, .d, (.lit 0), 0x0, 0xffffffff, false, false⟩,
  ⟨0x8207, 0x01, 0x10, "LINK_REPLAYS", .u32, .w1c, .d, (.lit 0), 0x0, 0xffffffff, false, false⟩,
  ⟨0x8208, 0x01, 0x10, "LINK_DOWN_EVENTS", .u32, .w1c, .d, (.lit 0), 0x0, 0xffffffff, false, false⟩,
  ⟨0x8209, 0x01, 0x10, "SELVEDGE_WAIT_MAX_PS", .u16, .w1c, .d, (.lit 0), 0x0, 0xffff, false, false⟩,
  ⟨0x820A, 0x01, 0x10, "SELVEDGE_REPLAY_WAITS", .u32, .w1c, .d, (.lit 0), 0x0, 0xffffffff, false, false⟩,
  ⟨0x8300, 0x01, 0x01, "REDUCTIONS", .u64, .ro, .d, (.lit 0), 0x0, 0xffffffffffffffff, false, false⟩,
  ⟨0x8300, 0x02, 0x02, "REDUCE_BYTES_WEST", .u64, .ro, .d, (.lit 0), 0x0, 0xffffffffffffffff, false, false⟩,
  ⟨0x8300, 0x03, 0x03, "REDUCE_BYTES_EAST", .u64, .ro, .d, (.lit 0), 0x0, 0xffffffffffffffff, false, false⟩,
  ⟨0x8300, 0x04, 0x04, "COMBINE_STALL_NS", .u64, .w1c, .d, (.lit 0), 0x0, 0xffffffffffffffff, false, false⟩,
  ⟨0x8300, 0x05, 0x05, "BUDGET_MESSAGES", .u64, .ro, .d, (.lit 0), 0x0, 0xffffffffffffffff, false, false⟩]

/-- Object rows of spec/13_host_ports_tenants.md, part 1. -/
def Catalogue.rows13a : List Row := [
  ⟨0x9000, 0x01, 0x01, "FUNCTIONS_PER_PORT", .u16, .ro, .d, (.lit 513), 0x0, 0xffff, true, false⟩,
  ⟨0x9000, 0x02, 0x02, "TENANT_LIMIT", .u16, .ro, .d, (.lit 1024), 0x0, 0xffff, true, false⟩,
  ⟨0x9000, 0x03, 0x03, "WINDOW_SPACE_GIB", .u16, .ro, .d, (.lit 16), 0x0, 0xffff, true, false⟩,
  ⟨0x9000, 0x04, 0x04, "WINDOWS_PER_FUNCTION", .u8, .ro, .d, (.lit 64), 0x0, 0xff, true, false⟩,
  ⟨0x9000, 0x05, 0x05, "INTAKE_DESCRIPTORS", .u64, .ro, .d, (.lit 0), 0x0, 0xffffffffffffffff, false, false⟩,
  ⟨0x9000, 0x06, 0x06, "COMPLETIONS_WRITTEN", .u64, .ro, .d, (.lit 0), 0x0, 0xffffffffffffffff, false, false⟩,
  ⟨0x9000, 0x07, 0x07, "UNMAPPED_ACCESSES", .u32, .w1c, .d, (.lit 0), 0x0, 0xffffffff, false, false⟩,
  ⟨0x9010, 0x01, 0x02, "PORT_STATUS", .u32, .ro, .d, (.word .asFound), 0x0, 0xffffffff, false, false⟩,
  ⟨0x9011, 0x01, 0x02, "VFS_ENABLED", .u16, .ro, .d, (.lit 0), 0x0, 0xffff, false, false⟩,
  ⟨0x9012, 0x01, 0x02, "ATTENTION", .bits32, .w1c, .d, (.word .asFound), 0x0, 0x3ffff, false, false⟩,
  ⟨0x9013, 0x01, 0x02, "ATTENTION_MASK", .bits32, .rw, .s, (.lit 0x3ffff), 0x0, 0x3ffff, false, false⟩,
  ⟨0x9014, 0x01, 0x02, "PORT_RESETS", .u32, .ro, .s, (.lit 0), 0x0, 0xffffffff, false, false⟩,
  ⟨0x9015, 0x01, 0x02, "HOST_READ_BYTES", .u64, .ro, .d, (.lit 0), 0x0, 0xffffffffffffffff, false, false⟩,
  ⟨0x9016, 0x01, 0x02, "HOST_WRITE_BYTES", .u64, .ro, .d, (.lit 0), 0x0, 0xffffffffffffffff, false, false⟩,
  ⟨0x9100, 0x01, 0x01, "INTAKE_ENTRIES", .u16, .rw, .t, (.lit 0), 0x40, 0x1000, true, false⟩,
  ⟨0x9100, 0x02, 0x02, "CQ_BASE", .u64, .rw, .t, (.lit 0), 0x0, 0xffffffffffffffff, true, false⟩,
  ⟨0x9100, 0x03, 0x03, "CQ_ENTRIES", .u32, .rw, .t, (.lit 0), 0x40, 0x10000, true, false⟩,
  ⟨0x9100, 0x04, 0x04, "RING_ENABLE", .bool, .rw, .t, (.lit 0), 0x0, 0x1, true, false⟩,
  ⟨0x9100, 0x05, 0x05, "CQ_IRQ_COUNT", .u8, .rw, .t, (.lit 1), 0x1, 0xff, true, false⟩,
  ⟨0x9100, 0x06, 0x06, "CQ_IRQ_US", .u16, .rw, .t, (.lit 0), 0x0, 0x2710, true, false⟩,
  ⟨0x9100, 0x07, 0x07, "TENANT_ATTENTION", .bits32, .w1c, .t, (.lit 0), 0x0, 0x1f, true, false⟩,
  ⟨0x9100, 0x08, 0x08, "TENANT_ATTENTION_MASK", .bits32, .rw, .t, (.lit 31), 0x0, 0x1f, true, false⟩,
  ⟨0x9100, 0x09, 0x09, "TENANT_DESCRIPTORS", .u64, .ro, .t, (.lit 0), 0x0, 0xffffffffffffffff, true, false⟩,
  ⟨0x9100, 0x0A, 0x0A, "TENANT_COMPLETIONS", .u64, .ro, .t, (.lit 0), 0x0, 0xffffffffffffffff, true, false⟩,
  ⟨0x9100, 0x0B, 0x0B, "COMPLETIONS_WAITING", .u32, .ro, .t, (.lit 0), 0x0, 0xffffffff, true, false⟩,
  ⟨0x9200, 0x01, 0x01, "WINDOW_EDIT", .domain, .rw, .d, (.lit 0), 0x0, 0xffffffff, false, false⟩,
  ⟨0x9200, 0x02, 0x02, "WINDOW_TABLE", .domain, .ro, .d, (.word .asFound), 0x0, 0xffffffff, true, false⟩,
  ⟨0x9200, 0x03, 0x03, "WINDOW_BACKING_FREE", .u64, .ro, .d, (.word .asFound), 0x0, 0xffffffffffffffff, false, false⟩,
  ⟨0x9200, 0x04, 0x04, "WINDOWS_ZEROING", .u16, .ro, .d, (.lit 0), 0x0, 0xffff, false, false⟩]

/-- Object rows of spec/14_dma.md, part 1. -/
def Catalogue.rows14a : List Row := [
  ⟨0x9800, 0x01, 0x01, "DMA_CHANNELS", .u8, .ro, .d, (.lit 32), 0x0, 0xff, true, false⟩,
  ⟨0x9800, 0x02, 0x02, "DMA_FIRMWARE_CHANNELS", .u8, .ro, .d, (.lit 4), 0x0, 0xff, false, false⟩,
  ⟨0x9800, 0x03, 0x03, "DMA_BYTES_READ", .u64, .ro, .d, (.lit 0), 0x0, 0xffffffffffffffff, false, false⟩,
  ⟨0x9800, 0x04, 0x04, "DMA_BYTES_WRITTEN", .u64, .ro, .d, (.lit 0), 0x0, 0xffffffffffffffff, false, false⟩,
  ⟨0x9800, 0x05, 0x05, "DMA_TRANSFERS", .u64, .ro, .d, (.lit 0), 0x0, 0xffffffffffffffff, false, false⟩,
  ⟨0x9800, 0x06, 0x06, "DMA_FAILURES", .u32, .w1c, .d, (.lit 0), 0x0, 0xffffffff, false, false⟩,
  ⟨0x9800, 0x07, 0x07, "DMA_SATURATED", .u64, .w1c, .d, (.lit 0), 0x0, 0xffffffffffffffff, false, false⟩,
  ⟨0x9800, 0x08, 0x08, "DMA_POISONED", .u32, .w1c, .d, (.lit 0), 0x0, 0xffffffff, false, false⟩,
  ⟨0x9800, 0x09, 0x09, "DMA_MY_CHANNELS", .bits32, .ro, .t, (.lit 0), 0x0, 0xffffffff, true, false⟩,
  ⟨0x9810, 0x01, 0x20, "DMA_ASSIGN", .u16, .rw, .d, (.word .perId), 0x0, 0xffff, false, false⟩,
  ⟨0x9811, 0x01, 0x20, "DMA_DESC_0", .domain, .rw, .t, (.lit 0), 0x0, 0xffffffff, true, false⟩,
  ⟨0x9812, 0x01, 0x20, "DMA_DESC_1", .domain, .rw, .t, (.lit 0), 0x0, 0xffffffff, true, false⟩,
  ⟨0x9813, 0x01, 0x20, "DMA_GO_0", .u8, .cmd, .t, (.lit 0), 0x0, 0x0, true, true⟩,
  ⟨0x9814, 0x01, 0x20, "DMA_GO_1", .u8, .cmd, .t, (.lit 0), 0x0, 0x0, true, true⟩,
  ⟨0x9815, 0x01, 0x20, "DMA_STATUS", .u32, .ro, .t, (.lit 0), 0x0, 0xffffffff, true, false⟩,
  ⟨0x9816, 0x01, 0x20, "DMA_DONE_COUNT", .u32, .ro, .t, (.lit 0), 0x0, 0xffffffff, true, false⟩,
  ⟨0x9817, 0x01, 0x20, "DMA_LAST_TAG", .u64, .ro, .t, (.lit 0), 0x0, 0xffffffffffffffff, true, false⟩]

/-- Object rows of spec/15_memory_stacks.md, part 1. -/
def Catalogue.rows15a : List Row := [
  ⟨0xA000, 0x01, 0x01, "STACKS", .u8, .ro, .d, (.lit 12), 0x0, 0xff, false, false⟩,
  ⟨0xA000, 0x02, 0x02, "STACK_GIB", .u8, .ro, .d, (.lit 32), 0x0, 0xff, false, false⟩,
  ⟨0xA000, 0x03, 0x03, "INTERLEAVE_BYTES", .u16, .ro, .d, (.lit 0x1000), 0x0, 0xffff, false, false⟩,
  ⟨0xA000, 0x04, 0x04, "CODEWORD_DATA_BYTES", .u8, .ro, .d, (.lit 32), 0x0, 0xff, false, false⟩,
  ⟨0xA010, 0x01, 0x01, "REGION_MAP", .domain, .ro, .d, (.word .asFound), 0x0, 0xffffffff, false, false⟩,
  ⟨0xA010, 0x02, 0x02, "MODEL_REGION_GIB", .u8, .rw, .s, (.lit 16), 0x8, 0x20, false, false⟩,
  ⟨0xA010, 0x03, 0x03, "SCRATCH_REGION_GIB", .u8, .rw, .s, (.lit 16), 0x8, 0x20, false, false⟩,
  ⟨0xA010, 0x04, 0x04, "WINDOW_REGION_GIB", .u8, .rw, .s, (.lit 64), 0x0, 0x60, false, false⟩,
  ⟨0xA010, 0x05, 0x05, "KV_REGION_GIB", .u16, .ro, .d, (.word .asFound), 0x0, 0xffff, false, false⟩,
  ⟨0xA100, 0x01, 0x01, "CORRECTED_SYMBOLS", .u64, .w1c, .d, (.lit 0), 0x0, 0xffffffffffffffff, false, false⟩,
  ⟨0xA100, 0x02, 0x02, "CORRECTED_CODEWORDS", .u64, .w1c, .d, (.lit 0), 0x0, 0xffffffffffffffff, false, false⟩,
  ⟨0xA100, 0x03, 0x03, "UNCORRECTABLE", .u32, .w1c, .d, (.lit 0), 0x0, 0xffffffff, false, false⟩,
  ⟨0xA100, 0x04, 0x04, "POISON_WRITES", .u64, .w1c, .d, (.lit 0), 0x0, 0xffffffffffffffff, false, false⟩,
  ⟨0xA100, 0x05, 0x05, "POISON_READS", .u64, .w1c, .d, (.lit 0), 0x0, 0xffffffffffffffff, false, false⟩,
  ⟨0xA100, 0x06, 0x06, "ERROR_LOG", .domain, .ro, .s, (.lit 0), 0x0, 0xffffffff, false, false⟩,
  ⟨0xA200, 0x01, 0x01, "SCRUB_ENABLE", .bool, .rw, .s, (.lit 1), 0x0, 0x1, false, false⟩,
  ⟨0xA200, 0x02, 0x02, "SCRUB_INTERVAL_H", .u16, .rw, .s, (.lit 24), 0x1, 0x2d0, false, false⟩,
  ⟨0xA200, 0x03, 0x03, "SCRUB_PASSES", .u64, .ro, .d, (.lit 0), 0x0, 0xffffffffffffffff, false, false⟩,
  ⟨0xA200, 0x04, 0x04, "SCRUB_PROGRESS", .u16, .ro, .d, (.lit 0), 0x0, 0xffff, false, false⟩,
  ⟨0xA200, 0x05, 0x05, "SCRUB_NOW", .u8, .cmd, .d, (.lit 0), 0x0, 0x0, false, true⟩,
  ⟨0xA300, 0x01, 0x0C, "STACK_TEMP", .u8, .ro, .d, (.word .asFound), 0x0, 0xff, false, false⟩,
  ⟨0xA301, 0x01, 0x0C, "REFRESH_RATE", .u8, .ro, .d, (.lit 1), 0x0, 0xff, false, false⟩,
  ⟨0xA302, 0x01, 0x0C, "STACK_READ_BYTES", .u64, .ro, .d, (.lit 0), 0x0, 0xffffffffffffffff, false, false⟩,
  ⟨0xA303, 0x01, 0x0C, "STACK_WRITE_BYTES", .u64, .ro, .d, (.lit 0), 0x0, 0xffffffffffffffff, false, false⟩,
  ⟨0xA400, 0x01, 0x01, "DELTA_CROSS_BYTES", .u64, .ro, .d, (.lit 0), 0x0, 0xffffffffffffffff, false, false⟩]

/-- Object rows of spec/16_reliability_faults.md, part 1. -/
def Catalogue.rows16a : List Row := [
  ⟨0xB000, 0x01, 0x01, "ARB_TOL", .u16, .rw, .s, (.lit 64), 0x10, 0x1000, false, false⟩,
  ⟨0xB000, 0x02, 0x02, "SHADOW_PAIR_TOL", .u8, .rw, .s, (.lit 10), 0x4, 0x7f, false, false⟩,
  ⟨0xB000, 0x03, 0x03, "ARB_TIMEOUT_US", .u16, .rw, .s, (.lit 1000), 0x64, 0x5dc, false, false⟩,
  ⟨0xB010, 0x01, 0x04, "SHADOW_LEVEL", .u8, .rw, .s, (.lit 1), 0x0, 0x4, false, false⟩,
  ⟨0xB100, 0x01, 0x01, "SHADOW_SAMPLES", .u64, .ro, .d, (.lit 0), 0x0, 0xffffffffffffffff, false, false⟩,
  ⟨0xB100, 0x02, 0x02, "SHADOW_MISMATCHES", .u32, .w1c, .d, (.lit 0), 0x0, 0xffffffff, false, false⟩,
  ⟨0xB100, 0x03, 0x03, "ARBITRATIONS", .u64, .ro, .d, (.lit 0), 0x0, 0xffffffffffffffff, false, false⟩,
  ⟨0xB100, 0x04, 0x04, "ARB_SENTINEL", .u32, .w1c, .d, (.lit 0), 0x0, 0xffffffff, false, false⟩,
  ⟨0xB100, 0x05, 0x05, "ARB_FACET", .u32, .w1c, .d, (.lit 0), 0x0, 0xffffffff, false, false⟩,
  ⟨0xB100, 0x06, 0x06, "ARB_NEITHER", .u32, .w1c, .d, (.lit 0), 0x0, 0xffffffff, false, false⟩,
  ⟨0xB100, 0x07, 0x07, "ARB_NO_GOLDEN", .u32, .w1c, .d, (.lit 0), 0x0, 0xffffffff, false, false⟩,
  ⟨0xB100, 0x08, 0x08, "ARB_TIMEOUTS", .u32, .w1c, .d, (.lit 0), 0x0, 0xffffffff, false, false⟩,
  ⟨0xB100, 0x09, 0x09, "STANDIN_INSTANCES", .u64, .ro, .d, (.lit 0), 0x0, 0xffffffffffffffff, false, false⟩,
  ⟨0xB100, 0x0A, 0x0A, "CORE_RECOVERIES", .u32, .w1c, .d, (.lit 0), 0x0, 0xffffffff, false, false⟩,
  ⟨0xB200, 0x01, 0x01, "SWEEP_INTERVAL_H", .u16, .rw, .s, (.lit 24), 0x1, 0x2d0, false, false⟩,
  ⟨0xB200, 0x02, 0x02, "SWEEP_NOW", .u8, .cmd, .d, (.lit 0), 0x0, 0x0, false, true⟩,
  ⟨0xB200, 0x03, 0x03, "SWEEP_PASSES", .u64, .ro, .d, (.lit 0), 0x0, 0xffffffffffffffff, false, false⟩,
  ⟨0xB200, 0x04, 0x04, "SWEEP_PROGRESS", .u16, .ro, .d, (.lit 0), 0x0, 0xffff, false, false⟩,
  ⟨0xB200, 0x05, 0x05, "SWEEP_MISMATCHES", .u32, .w1c, .d, (.lit 0), 0x0, 0xffffffff, false, false⟩,
  ⟨0xB200, 0x06, 0x06, "SWEEP_DELAYS", .u64, .w1c, .d, (.lit 0), 0x0, 0xffffffffffffffff, false, false⟩,
  ⟨0xB200, 0x07, 0x07, "DIGEST_TABLE", .domain, .ro, .d, (.lit 0), 0x0, 0xffffffff, false, false⟩,
  ⟨0xB210, 0x01, 0x04, "SLOT_DIGESTS", .domain, .ro, .d, (.lit 0), 0x0, 0xffffffff, false, false⟩,
  ⟨0xB300, 0x01, 0x01, "TEST_ENABLE", .bool, .rw, .s, (.lit 1), 0x0, 0x1, false, false⟩,
  ⟨0xB300, 0x02, 0x02, "TEST_INTERVAL_S", .u16, .rw, .s, (.lit 600), 0x3c, 0xe10, false, false⟩,
  ⟨0xB300, 0x03, 0x03, "TEST_NOW", .u8, .cmd, .d, (.lit 0), 0x0, 0x3f, false, false⟩,
  ⟨0xB300, 0x04, 0x04, "TESTS_RUN", .u64, .ro, .d, (.lit 0), 0x0, 0xffffffffffffffff, false, false⟩,
  ⟨0xB300, 0x05, 0x05, "TEST_FAILURES", .u32, .w1c, .d, (.lit 0), 0x0, 0xffffffff, false, false⟩,
  ⟨0xB300, 0x06, 0x06, "TEST_OVERDUE_EVENTS", .u32, .w1c, .d, (.lit 0), 0x0, 0xffffffff, false, false⟩,
  ⟨0xB300, 0x07, 0x07, "TEST_TABLE", .domain, .ro, .d, (.word .asFound), 0x0, 0xffffffff, false, false⟩,
  ⟨0xB400, 0x01, 0x01, "FAULT_LOG", .domain, .ro, .p, (.lit 0), 0x0, 0xffffffff, false, false⟩]

/-- Object rows of spec/16_reliability_faults.md, part 2. -/
def Catalogue.rows16b : List Row := [
  ⟨0xB400, 0x02, 0x02, "FAULT_TOTAL", .u64, .ro, .p, (.lit 0), 0x0, 0xffffffffffffffff, false, false⟩,
  ⟨0xB400, 0x03, 0x03, "EVENT_LOG", .domain, .ro, .s, (.lit 0), 0x0, 0xffffffff, false, false⟩,
  ⟨0xB400, 0x04, 0x04, "LAST_DEVICE_FAULT", .u16, .ro, .s, (.lit 0), 0x0, 0xffff, false, false⟩]

/-- Every object row, in index order of the ranges of R65. -/
def Catalogue.rows : List Row :=
  [Catalogue.rows02a, Catalogue.rows19a, Catalogue.rows19b, Catalogue.rows07a, Catalogue.rows07b, Catalogue.rows01a,
    Catalogue.rows17a, Catalogue.rows17b, Catalogue.rows18a, Catalogue.rows03a, Catalogue.rows03b, Catalogue.rows04a,
    Catalogue.rows05a, Catalogue.rows06a, Catalogue.rows08a, Catalogue.rows09a, Catalogue.rows09b, Catalogue.rows10a,
    Catalogue.rows10b, Catalogue.rows11a, Catalogue.rows11b, Catalogue.rows12a, Catalogue.rows12b, Catalogue.rows13a,
    Catalogue.rows14a, Catalogue.rows15a, Catalogue.rows16a, Catalogue.rows16b].flatten


end Sys2Proof
end

