-- ==== Sys2Proof/Config.lean ====
section
/-! DEFINITION. What the spec leaves open, as constants with no body: nothing can be proved of their values. -/

namespace Sys2Proof

/-- The n-th fresh value a step takes for something the spec calls random or leaves open. -/
opaque Config.freeValue : Nat → Nat

/-- What an object reads once a count has passed the range of its type: the spec does not say. -/
opaque Config.counterPast : Key → Nat → Nat

/-- The mesh plane of a destination stop and flow tag: the spec gives no hash (R22). -/
opaque Config.meshPlane : Nat → Nat → Nat

/-- The firmware's numbers: dictionary version, firmware version of an image. -/
opaque Config.dictVersion : Nat

/-- Where the memory copy of a slot's section begins in device memory, by slot and section type, 0x103 for its TUNE_PROGRAM: the spec gives
no layout of MODEL. -/
opaque Config.sectionPlace : Nat → Nat → Nat

/-- PROGRESS of an action in percent, or 101 where it cannot be estimated (R69); by the same. -/
opaque Config.progress : Key → Nat → Nat → Nat

/-- The default bytes that DESCRIBE gives for an object whose default is a word, and the detail of BUSY where no path holds what is
busy: the spec gives neither (R48, R52, R53, R421). -/
opaque Config.wordDefault : Key → Nat
opaque Config.busyDetail : Key → Nat

/-- A byte of SHA-512 of a message, a function the spec names and another standard defines; and its 64 bytes. -/
opaque Config.sha512Byte : List Byte → Nat → Byte

def Config.sha512 (message : List Byte) : List Byte := (List.range 64).map (Config.sha512Byte message)

/-- RSASSA-PSS verification of a signature over a message under a key (R176, R559, R567). -/
opaque Config.rsaPssVerify : List Byte → List Byte → List Byte → Bool

/-- A signature made with the device's identity key (R563). -/
opaque Config.identitySign : List Byte → List Byte

/-- Whether a firmware image file has a well-formed header and length, its version, its security version, and whether it names
the Crasiast member: the spec gives no layout of the file (R559, R562). -/
opaque Config.imageWellFormed : List Byte → Bool
opaque Config.imageVersion : List Byte → Nat
opaque Config.imageSvn : List Byte → Nat
opaque Config.imageForCrasiast : List Byte → Bool

/-- Whether an image file's signature verifies under the fused Aglum firmware key (R559). -/
opaque Config.imageSigned : List Byte → Bool

/-- The certificate chain fused at manufacture (R563). -/
opaque Config.certChain : List Byte

/-- The digest of the boot ROM, fused (R565). -/
opaque Config.romDigest : List Byte

/-- The draw of shadow sampling over step, slot, SEQ, micro-batch and facet ID: the spec gives no generator (R482). -/
opaque Config.shadowDraw : Nat → Nat → Nat → Nat → Nat → Nat

/-- How far the ageing factor of a temperature in 1/16 °C lies above the multiple of 2^-32 next below it, in 2^-64, where it is irrational
(R238): the spec gives no number format for it. -/
opaque Config.ageRest : Int → Nat

/-- A byte of a trim set as written at manufacture, by array, trim point 0 to 4 and place, and of one that fails its CRC as it is read
(R227, R229). -/
opaque Config.trimByte : Nat → Nat → Nat → Byte
opaque Config.badTrimByte : Nat → Nat → Nat → Byte

/-- The STEP_COST that firmware derives from a program at load (R310). -/
opaque Config.derivedCost : List Byte → List Byte

/-- A BUDGET that a 32-bit signed word cannot hold, from its DEADLINE_US: the spec gives no value (R281, R422). -/
opaque Config.longBudget : Nat → Int

/-- Which of the free pages the manager takes: the spec does not say (R305). -/
opaque Config.pickPage : Nat → Nat

/-- Where the manager keeps an entry's page list and token log in its memory (R281). -/
opaque Config.pageHead : Nat → Nat
opaque Config.tokenLog : Nat → Nat

/-- A difference in whole LSB that is no multiple of one: the spec gives no rounding (R502). -/
opaque Config.wholeLsb : Nat → Nat → Nat

/-- Which whole number stands for a quantity that is none, where the spec gives no rounding (even the one below, odd the one above), and
what a word holds whose range it leaves: CORRECTION, RATE_FACTOR, WIDE_RATIO and SLOT_EDGE_SHARE in 1/256, ESTIMATE_US, joules, whole
hours of equivalent age, LIFE_USED, a reference shift, a step of a correction or of a slice adjustment's target (R190, R230, R235, R239,
R248, R252, R281, R295, R310, R531). The arguments are numerator and denominator. -/
opaque Config.wholeOpen : Int → Nat → Nat

/-- The body bytes of a fabric message whose layout the spec does not give, by its type code and an ordinal (R386, R387). -/
opaque Config.bodyBytes : Nat → Nat → Nat

/-- Who reads a codeword that a scrub has just poisoned: 0 nobody, 1 firmware as data of its own, k + 2 request entry k's owner. The spec says
neither which codewords hold what nor when they are read (R472). Assumption log 109, DESIGN CHOICE. -/
opaque Config.poisonReader : Nat → Nat → Nat

/-- How many picoseconds a Selvedge flit of a link waited for its boundary (R385), one for each flit. Assumption log 1. -/
opaque Config.selvedgeWaitPs : Nat → Nat → Nat

/-- Which edge router a message to a member is injected at: the spec gives no rule (R393). -/
opaque Config.injectEast : Nat → Nat → Bool

/-- The member that holds a die index of a slot, as another member knows it: the spec does not say how (R394). The arguments
are epoch, slot and die index. -/
opaque Config.dieHolder : Nat → Nat → Nat → Nat

/-- Which two of the FP32 words still to be added a DTU adds next: the spec gives no order of accumulation (R166, R206, R208, R368). -/
opaque Config.sumPick : List Nat → Nat

/-- Where within its error an FP32 result lies that the spec gives an error for and no value, or an expression for and no order of
operations: a code for the expression, and its operand words (R204, R206, R207, R209). -/
opaque Config.dtuError : Nat → List Nat → Nat

/-- An element of two attention records combined in a segment that cuts a record (R204, R394). -/
opaque Config.lseCut : List Nat → List Nat → Nat → Nat

/-- The op whose kept K and V an ATTN with KEEP 0 reads from the request's pages, by slot and op: the spec names none (R209, R218). -/
opaque Config.kvOp : Nat → Nat → Nat

/-- An element's index in its layer's whole tensor: the Bolt does not say where a die's part lies in it (R163, R368). The
arguments are die index, slot, op or stream, and the element's place on this die. -/
opaque Config.wholeIndex : Nat → Nat → Nat → Nat → Nat

/-- Cosine and sine words of a rotation, from BASE, ROT_DIMS, pair and position: the spec gives no formula (R206). -/
opaque Config.ropeCos : Nat → Nat → Nat → Nat → Nat
opaque Config.ropeSin : Nat → Nat → Nat → Nat → Nat

/-- A pixel normalised, from pixel, offset and scale: the spec gives no formula (R213). -/
opaque Config.patchNorm : Rat → Nat → Nat → Nat

/-- The maximum of an attention record over no position, and the zMax of a range whose tokens are all masked (R209, R213). -/
opaque Config.emptyMax : Nat

/-- What stands in LOGITS mode in the place of a token that the mask excludes (R213). -/
opaque Config.maskedLogit : Nat

/-- The loss sum of a record of a TUNE step, by job, step and lane: the spec does not say which op forms it (R367). -/
opaque Config.tuneLoss : Nat → Nat → Nat → Nat

end Sys2Proof
end

