-- ==== Sys2Proof/Machine/Types.lean ====
section
/-! DEFINITION. The records the state is made of, chapter by chapter: plain data. -/

namespace Sys2Proof.Machine

/-! ## What the module is (R1, R4, R16, R570) -/

/-- What is fixed at manufacture: grade, good-core mask (bit c is core c), identity, and the strap pins of its slot. -/
structure Ident where
  grade : Nat
  coreMask : Nat
  serial : Nat
  enterprise : Nat
  manufactured : Nat
  romVersion : Nat
  stepping : List Byte
  straps : Nat
  deriving DecidableEq, Repr

/-! ## Device memory (R463, R471) -/

/-- Memory: the bytes that differ from zero in rising address order, and the codewords (address / 32) stored poisoned,
rising. -/
structure Mem where
  cells : List (Nat × BitVec 8)
  poison : List Nat
  deriving DecidableEq, Repr

/-- A change of memory. -/
inductive MemOp where
  /-- Store bytes from an address on, poison clear. -/
  | write (addr : Nat) (bytes : List Byte)
  /-- Store zeros over a range (R417, R557), poison clear. -/
  | zero (addr len : Nat)
  /-- Store a codeword's poison mark (R471). -/
  | poison (codeword : Nat)
  deriving DecidableEq, Repr

/-! ## 02: the dictionary -/

/-- A committed DOMAIN: its bytes, and how many commits have replaced it (R72). -/
structure DomVal where
  gen : Nat
  bytes : List Byte
  deriving DecidableEq, Repr

/-- A function window (R59 to R61). `payload` has zeros after its last byte. -/
structure Window where
  hdr : List Byte
  resp : List Byte
  payload : List Byte
  doneIrq : Bool
  busy : Bool
  done : Bool
  parked : Bool
  deriving DecidableEq, Repr

/-- A DOMAIN session (R71 to R73). In a read session `data` is the value when it was opened, in a write session the
bytes received. -/
structure Session where
  handle : Nat
  origin : Origin
  write : Bool
  key : Key
  declared : Nat
  data : List Byte
  gen : Nat
  deriving DecidableEq, Repr

/-- A request waiting on a stopped island (R63); `dead` is an abandoned WRITE, whose response is discarded (R64). -/
structure ParkedReq where
  req : Req
  opcode : Nat
  island : Nat
  dead : Bool
  deriving DecidableEq, Repr

/-- A class P write being stored (R47), by the opcode that made it; `dead` when its window has been reset since. -/
structure PersistWrite where
  req : Req
  opcode : Nat
  key : Key
  value : Nat
  bytes : List Byte
  dead : Bool
  deriving DecidableEq, Repr

/-- A request forwarded on the management lane (R56, R57): the members still to answer, how many accepted, and the
lowest-numbered refusal (device, status, detail). -/
structure Forwarded where
  req : Req
  opcode : Nat
  waiting : List Nat
  accepted : Nat
  failed : Option (Nat × Nat × Nat)
  deriving DecidableEq, Repr

/-- The dictionary server. `held` are requests that wait for READY (R435), or for a parked one of the same caller (R68), `starters` who
started each CMD's last action (R70), `servedPath` and `servedFns` the path served last and on each port the function (R68). -/
structure DictState where
  windows : List (FnWin × Window)
  sessions : List Session
  nextHandle : Nat
  parked : List ParkedReq
  persist : List PersistWrite
  held : List (Nat × Req)
  forwarded : List Forwarded
  starters : List (Key × Origin)
  servedPath : Nat
  servedFns : Nat × Nat
  deriving DecidableEq, Repr

/-! ## 01: islands and networks -/

/-- An island's own condition (R40): skipping and division belong to its half or edge. -/
inductive IslandCond where
  | gated | stopped | running | draining | faulted
  deriving DecidableEq, Repr

/-- A Selvedge message in flight: its source, its class and when it is delivered (R27). -/
structure SelvedgeFlight where
  src : Nat
  cls : Nat
  untilNs : Nat
  deriving DecidableEq, Repr

/-- The seam and the networks: transfers waiting at their source for a stopped half (R34), the Selvedge messages that hold a credit
(R27), and the clusters whose shared SRAM has no power (R21). -/
structure NetState where
  waiting : List MeshTransfer
  flights : List SelvedgeFlight
  sramOff : List Nat
  deriving DecidableEq, Repr

/-! ## 17: power and heat -/

/-- The state of a thermal domain (R532). -/
inductive ThermState where
  | normal | warning | request | skipping | divided | shutdown
  deriving DecidableEq, Repr

/-- A thermal domain (R515, R518): its temperature and its hottest stack in 1/16 °C, its place on the ladder, whether the
temperature is held, the time in its state, whether the lower ticks run, and whether DIVIDE_AFTER_MS has passed since
REQUEST. -/
structure ThermDomain where
  temp : Int
  stackTemp : Int
  state : ThermState
  skip : Nat
  divided : Bool
  stale : Bool
  ms : Nat
  lowering : Bool
  divideDue : Bool
  deriving DecidableEq, Repr

/-- The governor and the input supply (R510, R512, R580). `samples` are the 100 µs samples of the last 10 ms, newest
first; `sinceChange` the decisions since g changed; `withhold` no programming start (R512); `energy` in 0.1 µJ. -/
structure PowerState where
  samples : List Nat
  sinceChange : Nat
  withhold : Bool
  domains : List ThermDomain
  vinMv : Nat
  vinMa : Nat
  energy : Nat
  pwrgd : Bool
  regulatorFault : Bool
  supplyLatched : Bool
  shutdownLatched : Bool
  deriving DecidableEq, Repr

/-! ## 18: the housekeeping monitor -/

/-- An entry record of SEQUENCE (R535). -/
structure HkEntryCfg where
  channel : Nat
  enable : Bool
  sample : Nat
  gain : Nat
  conversions : Nat
  accLog2 : Nat
  deriving DecidableEq, Repr

/-- An entry's accumulator, result and tracker (R539, R540). -/
structure HkEntry where
  cfg : HkEntryCfg
  sum : Int
  count : Nat
  value : Int
  publishes : Nat
  valid : Bool
  stale : Bool
  slice : Nat
  minV : Option Int
  maxV : Option Int
  done : Nat
  deriving DecidableEq, Repr

/-- An urgent request (R541). The first four are the half's queue, later ones wait in firmware. -/
structure Urgent where
  channel : Nat
  sample : Nat
  gain : Nat
  requestNs : Nat
  deriving DecidableEq, Repr

/-- One half's monitor. `correction` is each slice's fitted offset and gain; `committed` a SEQUENCE and `swap` a fit that await the round
boundary; `inRound` that a round has started (R536, R537, R542). -/
structure HkHalf where
  entries : List HkEntry
  urgent : List Urgent
  serving : Nat
  failed : Option Nat
  corrections : List (Int × Int)
  committed : Option (List HkEntryCfg)
  running : Bool
  inRound : Bool
  swap : Option (Int × Int)
  deriving DecidableEq, Repr

/-! ## 15: memory -/

/-- A record of ERROR_LOG (R474). -/
structure ErrRec where
  address : Nat
  stack : Nat
  kind : Nat
  region : Nat
  symbols : Nat
  when_ : Nat
  deriving DecidableEq, Repr

/-- The controllers (R466, R473, R475): the region sizes in force (GiB, whole die), the error log latest first, the
stacks' power, and which stacks' scrub pass is complete; `bufferKib` is DELTA_BUFFER_KIB in force (R374). -/
structure StackState where
  modelGib : Nat
  scratchGib : Nat
  windowGib : Nat
  deltaGib : Nat
  errors : List ErrRec
  off : Bool
  selfRefresh : Bool
  scrubDone : List Nat
  loggedPoison : List Nat
  bufferKib : Nat
  deriving DecidableEq, Repr

/-! ## 13: host ports -/

/-- A port (R413, R441). -/
structure Port where
  speed : Nat
  width : Nat
  flit : Bool
  linkUp : Bool
  perst : Bool
  vfs : Nat
  deriving DecidableEq, Repr

/-- A window record (R416). -/
structure WindowRec where
  owner : Nat
  window : Nat
  readOnly : Bool
  offset : Nat
  size : Nat
  backing : Nat
  deriving DecidableEq, Repr

/-- A completion record before its STAMP and the fields taken when it is written (R427). `deadline` is the manager's time at
which its budget reaches 0, `none` when it has none; `reserved` says that it holds a reservation of R425. -/
structure CompRec where
  kind : Nat
  cause : Nat
  late : Bool
  numericFlag : Bool
  retained : Bool
  handle : Nat
  hostTag : Nat
  committed : Nat
  deadline : Option Int
  numeric : Nat
  tokens : List Nat
  outBytes : Nat
  reserved : Bool
  deriving DecidableEq, Repr

/-- A descriptor in the intake ring: its slot, its 128 bytes, and whether any came from a poisoned TLP (R424). -/
structure Announced where
  slot : Nat
  desc : List Byte
  poisoned : Bool
  deriving DecidableEq, Repr

/-- A tenant's rings (R420, R421, R425, R431). `aperture` is the intake ring's slots by slot number. -/
structure Ring where
  expected : Nat
  intakeHead : Nat
  cqTail : Nat
  cqHead : Nat
  reserved : Nat
  stalled : Bool
  waiting : List CompRec
  sinceIrq : Nat
  timer : Bool
  aperture : List Announced
  deriving DecidableEq, Repr

/-- An entry of a function's MSI-X table (R414). -/
structure MsixEntry where
  address : Nat
  data : Nat
  masked : Bool
  deriving DecidableEq, Repr

/-- The ports and what tenants reach through them; `visited` is the tenant that intake visited last (R425). -/
structure HostState where
  visited : Nat
  ports : List Port
  windows : List WindowRec
  zeroing : List (Nat × Nat)
  rings : List (Nat × Ring)
  msix : List (FnWin × List MsixEntry)
  msixPending : List (FnWin × Nat)
  deriving DecidableEq, Repr

/-! ## 14: DMA -/

/-- A DMA descriptor (R447). -/
structure DmaDesc where
  dir : Nat
  shuffle : Nat
  srcWidth : Nat
  dstWidth : Nat
  signed : Bool
  halfIrq : Bool
  fullIrq : Bool
  shift : Int
  bands : Nat
  src : Nat
  dst : Nat
  pixels : Nat
  planeStride : Nat
  tag : Nat
  deriving DecidableEq, Repr

/-- One byte of a transfer's destination: its offset from DST, its value, whether it derives from poison, and whether
it belongs to the first half of the pixels (R455, R457). -/
structure DmaByte where
  offset : Nat
  value : Byte
  poison : Bool
  firstHalf : Bool
  deriving DecidableEq, Repr

/-- A channel (R446, R462): the running slot with its snapshot, whether its start checks have run, and the bytes it
still has to write. -/
structure DmaChan where
  running : Option (Nat × DmaDesc)
  queued : Option (Nat × DmaDesc)
  started : Bool
  bytes : List DmaByte
  poisoned : Bool
  halfReached : Bool
  lastResult : Nat
  deriving DecidableEq, Repr

/-! ## 16: reliability -/

/-- A record of the fault or event log (R501). -/
structure LogRec where
  seq : Nat
  powered : Nat
  calendar : Nat
  severity : Nat
  device : Nat
  code : Nat
  unitKind : Nat
  slot : Nat
  unit : Nat
  repeats : Nat
  tenant : Nat
  detail : Nat
  deriving DecidableEq, Repr

/-- A core's known-answer test (R492 to R495). `dueIn` is the seconds to its due time, negative once it is due. -/
structure CoreTest where
  result : Nat
  kernel : Nat
  overdue : Nat
  startedAt : Nat
  dueIn : Int
  requested : Bool
  running : Bool
  second : Bool
  deriving DecidableEq, Repr

/-- Reliability records; `noGolden` are the SUSPECT facets whose SUSPECT_NO_GOLDEN is logged (R488). -/
structure RelState where
  faultLog : List LogRec
  eventLog : List LogRec
  faultSeq : Nat
  eventSeq : Nat
  pendingLog : List LogRec
  tests : List (Nat × CoreTest)
  spareTurn : List (Nat × Nat)
  lastRecovery : List (Nat × Nat)
  sweepRecs : List SweepRec
  slotDigests : List (Nat × Nat × SweepRec)
  sweeping : Bool
  sweepDueS : Int
  deviceFault : Option Nat
  sentinelSeen : List (Nat × Nat × Nat)
  noGolden : List Nat
  deriving DecidableEq, Repr

/-! ## 19: boot and security -/

/-- A firmware bank (R559): the image file, or none when the bank holds no valid image. -/
structure Bank where
  image : Option (List Byte)
  version : Nat
  svn : Nat
  deriving DecidableEq, Repr

/-- An SPDM connection (R564): what has been negotiated and what has been exchanged so far. -/
structure SpdmConn where
  version : Bool
  capabilities : Bool
  algorithms : Bool
  transcript : List Byte
  deriving DecidableEq, Repr

/-- Boot, banks, power state and attestation. `active` is the bank booted, `nextActive` the one marked for the next boot;
`resetting` that a device reset is in progress; `target` the power state a transition runs toward, `begun` that what precedes
the stopping of islands has been done (R554), `gating` the draining islands that are to be gated (R527); `groupDown` that
GROUP_POWER has taken the group to L2, `groupPending` that its orders await the commit of the step in progress (R553). -/
structure BootState where
  stage : Nat
  timeMs : Nat
  banks : List Bank
  active : Nat
  nextActive : Nat
  measured : List (Nat × Nat × List Byte)
  spdm : List (Path × SpdmConn)
  target : Option Nat
  begun : Bool
  gating : List Nat
  groupDown : Bool
  groupPending : Bool
  dynAddress : Option Nat
  staticAddress : Nat
  resetting : Bool
  deriving DecidableEq, Repr

/-! ## 12: links and groups -/

/-- A link (R378 to R384, R410, R579). `state` is 0 DISABLED to 5 FAULTED; `unacked` the replay buffer, oldest first, each
sequence number with how often it has been resent; `credits` those held toward the partner per lane; `waiting` the flits that
wait to be sent, as their lanes; `sinceMgmt` and `sinceBulk` the flits sent since a management or a bulk flit (R384);
`lastSerial` the partner it last trained with; `cable` whether a cable is present. -/
structure Link where
  state : Nat
  lock : Nat
  reversed : Bool
  replaying : Bool
  partner : Option Identity
  fails : Nat
  nextSeq : Nat
  expect : Nat
  unacked : List (Nat × Nat)
  nakSent : Bool
  credits : List Nat
  waiting : List Nat
  sinceMgmt : Nat
  sinceBulk : Nat
  replaysSec : Nat
  lastSerial : Nat
  cable : Bool
  deriving DecidableEq, Repr

/-- A formation in progress (R389): the epoch probed, who has answered, whether a takeover started it (R405), whether
GROUP_FORM did, and the GROUP_STATE before it. -/
structure Forming where
  epoch : Nat
  found : List Identity
  takeover : Bool
  byCmd : Bool
  was : Nat
  deriving DecidableEq, Repr

/-- What the device knows of its group. `noticed` is the epoch whose fault has been handled, `throttled` the workers
that reported REQUEST or beyond (R520), `heartbeat` a heartbeat awaiting its replies, `heard` whether a manager
message came since the last timeout, `found` the devices of TOPOLOGY with device ID, depth and parent, `probed` the epoch and link of the last probe
forwarded. -/
structure GroupRec where
  forming : Option Forming
  membership : Option Membership
  identities : List (Nat × Identity)
  found : List (Identity × Nat × Nat × Nat)
  noticed : Option Nat
  throttled : List Nat
  heartbeatOut : Bool
  acks : List (Nat × Nat)
  mirror : List (Nat × List Byte)
  standbyLost : Bool
  heard : Bool
  probed : Option (Nat × Nat)
  deriving DecidableEq, Repr

/-! ## 03, 07: arrays -/

/-- A slice position's calibration (R230, R231), in 1/64 LSB and for the gain in 1/64 LSB at code 127; `rOff` and `rGain` are its last
reference fit, `conversions` those since its adjustment last moved. -/
structure SlicePos where
  targetOff : Int
  targetGain : Int
  appliedOff : Int
  appliedGain : Int
  rOff : Rat
  rGain : Rat
  conversions : Nat
  deriving DecidableEq, Repr

/-- Pairs of codes gathered for a calibration, x the slice's and y its peer's or the sentinel converter's (R230): their number, sums, sums
of products and squares. -/
structure PairSums where
  n : Nat
  x : Int
  y : Int
  xx : Int
  xy : Int
  yy : Int
  deriving DecidableEq, Repr

/-- What the slice position out of service has gathered (R230): the conversion windows since it went out, the data samples and the reference
samples. -/
structure CalSums where
  windows : Nat
  data : PairSums
  refs : PairSums
  deriving DecidableEq, Repr

/-- The cells of an array (R76, R77, R79, R100): erased or written, the golden record its data cells were written from, the checksum levels
(FACET_IMAGE bytes 16 on), and the cells found at another level than these give. -/
structure Cells where
  written : Bool
  record : List Byte
  fine : List Byte
  off : List CellOff
  deriving DecidableEq, Repr

/-- The running sums of R235: the REF2 products, the squares of sum1, and over the other pairs the products of measured
and ideal outputs, of sum1 and ideal outputs, and of ideal outputs; and how many phases contributed. -/
structure Drift where
  m2s : Int
  ss : Int
  mi : Int
  si : Int
  ii : Int
  phases : Nat
  deriving DecidableEq, Repr

/-- An array: facet f under key f, spare n under key 0x8000 + n (R113, R114, R248). `mapTo` is the spare that serves the
facet, `golden` its record of GOLDEN, `image` the checksum levels of its FACET_IMAGE record (R179; assumption log 131, DEDUCED), `baseAt` when its baseline falls due, `outPos` the slice position out of service
(`none` when rotation has stopped), `groupPos` the slice position that serves each column group (R83), `trimBad` the trim points that failed
their CRC, `sentCal` and `rowCal` the offset and gain last found for the sentinel converter and the row-side slices (R234). -/
structure Arr where
  state : Nat
  slot : Nat
  partner : Nat
  slice : Nat
  golden : Nat
  image : List Byte
  mapTo : Option Nat
  gamma : Int
  beta : Int
  gammaBase : Int
  betaBase : Int
  baseAt : Option Nat
  age : Rat
  programs : Nat
  refreshes : Nat
  lastReason : Nat
  queued : Nat
  warned : Bool
  blockedAt : Option Nat
  outPos : Option Nat
  retiredPos : Option Nat
  calCount : Nat
  positions : List (Nat × SlicePos)
  groupPos : List Nat
  cal : CalSums
  cells : Cells
  trimTemp : Option Int
  trimBad : List Nat
  drift : Drift
  lastForward : Nat
  sentCalAt : Nat
  rowCalAt : Nat
  sentDue : Bool
  sentCal : Int × Int
  rowCal : List (Int × Int)
  deriving DecidableEq, Repr

/-! ## 04: engines -/

/-- A delta entry of an engine's MVM (R345): input element, lane, mantissa and exponent field of its run. -/
structure DeltaEntry where
  row : Nat
  lane : Nat
  value : Int
  exp : Nat
  deriving DecidableEq, Repr

/-- One engine MVM of an op instance (R118, R119, R200): the vector and expert rank it belongs to, its facets, its
converter codes, and its aligned input. -/
structure MvmJob where
  slot : Nat
  seq : Nat
  m : Nat
  layer : Nat
  vec : Nat
  rank : Nat
  slice : Nat
  join : Nat
  mask : Nat
  transposed : Bool
  wide : Bool
  fallback : Bool
  fsc : Nat
  tol : Nat
  eIn : Int
  drive : List (Option Int)
  outOff : Nat
  n : Nat
  outFmt : Nat
  deltas : List DeltaEntry
  deltaPoison : Bool
  deriving DecidableEq, Repr

/-- A phase in a facet's schedule (R93, R96): the MVM, the pass (0 the only or high pass, 1 the low pass), whole (0) or
half A or B (1, 2), and the driven rows with their inputs. -/
structure Phase where
  tag : Nat
  pass : Nat
  half : Nat
  rows : List (Nat × Int)
  deriving DecidableEq, Repr

/-- What one facet has done of an MVM: its array, input slice, pass registers, the codes of a half A that awaits its
half B, the pairs clamped, those among them being recomputed (with whether both passes are excluded), the conversion windows it took, the
sums of R102 per pass and the groups not checked. -/
structure FacetRun where
  facet : Nat
  array : Nat
  input : List (Option Int)
  hi : List Int
  lo : List Int
  hiDone : Bool
  loDone : Bool
  halfA : Option WindowEnd
  clamped : List Nat
  excluded : List (Nat × Bool)
  windows : Nat
  dataHi : List Int
  dataLo : List Int
  chkHi : List Int
  chkLo : List Int
  skipped : List Nat
  sampled : Bool
  deriving DecidableEq, Repr

/-- An MVM in a bank (R117, R133, R137). `nav` says that an element of its input is NaV (R82). -/
structure Run where
  tag : Nat
  job : MvmJob
  nav : Bool
  facets : List FacetRun
  lanes : List Int
  outlier : List (Nat × Int)
  delta : List (Nat × Nat)
  poison : Bool
  pendingCheck : Bool
  unrecovered : Bool
  overflow : Bool
  recomputed : Bool
  digitalBound : Bool
  facetFault : Bool
  clamps : Nat
  deriving DecidableEq, Repr

/-- A recompute of a clamped pair (R132); `full` covers v of a wide high pass. -/
structure Recompute where
  tag : Nat
  facet : Nat
  pair : Nat
  full : Bool
  deriving DecidableEq, Repr

/-- An engine (R117, R129, R133): MVMs issued to it, its banks, each facet's schedule, and the recomputes that wait for a
place, whose golden read is outstanding, and whose golden data has arrived, each oldest first. `badWords` are outlier
words with an uncorrectable error. -/
structure Engine where
  queue : List MvmJob
  runs : List Run
  phases : List (Nat × List Phase)
  waiting : List Recompute
  reading : List Recompute
  arrived : List Recompute
  badWords : List Nat
  deriving DecidableEq, Repr

/-! ## 06, 08: slots -/

/-- A slot's memory copies by section type (R185), key 0 the header; a GOLDEN section while it is held. -/
structure SlotData where
  sections : List (Nat × List Byte)
  deriving DecidableEq, Repr

/-! ## 06, 09: a step on a die -/

/-- A lane record (R297). -/
structure Lane where
  entry : Nat
  tenant : Nat
  slot : Nat
  kind : Nat
  k : Nat
  variant : Nat
  pos : Nat
  count : Nat
  first : Nat
  input : Nat
  temperature : Nat
  laneStep : Nat
  deriving DecidableEq, Repr

/-- A micro-batch entry (R296). -/
structure MicroBatch where
  first : Nat
  count : Nat
  slot : Nat
  deriving DecidableEq, Repr

/-- A variant table entry (R296). -/
structure VariantRef where
  variant : Nat
  version : Nat
  handle : Nat
  deriving DecidableEq, Repr

/-- A page operation (R298). -/
structure PageOp where
  op : Nat
  entry : Nat
  arg : Nat
  page : Nat
  src : Nat
  deriving DecidableEq, Repr

/-- A step body (R296). -/
structure StepBody where
  lanes : List Lane
  mbs : List MicroBatch
  variants : List VariantRef
  pageOps : List PageOp
  tokens : List Nat
  deriving DecidableEq, Repr

/-- What a vector has met in the step (R164, R167, R299), and the status words of its engine MVMs merged: their bits [7:0], and the sum of
their CLAMPS (R137, R200). -/
structure VecNote where
  numeric : Nat
  poison : Bool
  fault : Bool
  mvms : Nat
  wide : Nat
  status : Nat
  clamps : Nat
  deriving DecidableEq, Repr

/-- One part of a vector's result: the expert rank, the engine, where its lanes go, and once it is in, the status word of
R137 and the partial sums (FP32 words, `none` poison). -/
structure VecPart where
  rank : Nat
  engine : Nat
  outOff : Nat
  result : Option (Nat × List (Option Nat))
  deriving DecidableEq, Repr

/-- A vector of a running CIM_MVM, CIM_MVMT or EXPERT instance: its parts, the MVM tags whose check is pending, the
routing weights by rank, and whether its result is written. -/
structure VecAsm where
  vec : Nat
  parts : List VecPart
  checks : List (Nat × Nat)
  weights : List Nat
  written : Bool
  deriving DecidableEq, Repr

/-- A running instance on the engines; `kind` is 0 CIM_MVM, 1 CIM_MVMT, 2 EXPERT UP, 3 EXPERT DOWN. -/
structure OpRun where
  ctx : OpCtx
  kind : Nat
  outFmt : Nat
  accumulate : Bool
  n : Nat
  vecs : List VecAsm
  deriving DecidableEq, Repr

/-- A collective instance in progress on this die (R203, R394 to R396): what it does, the die indices of its set, this die's
rank, its own contribution, the segments whose combination here is done, the results in so far by segment, and the NORM
whose statistics it carries. -/
structure CollRun where
  slot : Nat
  seq : Nat
  m : Nat
  gather : Bool
  dst : Nat
  args : CollArgs
  members : List Nat
  rank : Nat
  own : List Vec
  sent : List Nat
  results : List (Nat × List Vec)
  norm : Option (OpCtx × NormArgs)
  deriving DecidableEq, Repr

/-- An op instance (R196). -/
structure Inst where
  slot : Nat
  seq : Nat
  m : Nat
  deriving DecidableEq, Repr

/-- A barrier in progress (R214, R400): the arrivals in so far by device, whether this device's own has been sent, and the
instances that wait, oldest first. -/
structure BarrierRun where
  barrierId : Nat
  scope : Nat
  arrived : List Nat
  sent : Bool
  waiting : List OpCtx
  deriving DecidableEq, Repr

/-- A held check (R483, R484): a failing group, or with no group a shadow sample (with the groups that failed their check
in it), the pairs a recompute replaces, the kept pass registers, checksum codes and driven input. -/
structure HeldCheck where
  engine : Nat
  facet : Nat
  group : Option Nat
  failed : List Nat
  tag : Nat
  slot : Nat
  seq : Nat
  m : Nat
  vec : Nat
  fsc : Nat
  wide : Bool
  transposed : Bool
  clamped : List Nat
  input : List (Option Int)
  hi : List Int
  lo : List Int
  chkHi : List Int
  chkLo : List Int
  deriving DecidableEq, Repr

/-- A buffer's instance (R192). -/
structure BufKey where
  slot : Nat
  handle : Nat
  m : Nat
  deriving DecidableEq, Repr

/-- A vector of a step: slot, micro-batch, and its place in the micro-batch. -/
structure VecKey where
  slot : Nat
  m : Nat
  vec : Nat
  deriving DecidableEq, Repr

/-- A facet's part in an instance (R482, R487). -/
structure FacetInst where
  inst : Inst
  facet : Nat
  deriving DecidableEq, Repr

/-- The deltas of an instance present in a core's buffer, and the sets whose records came poisoned (R359, R351). -/
structure DeltaIn where
  inst : Inst
  core : Nat
  bad : List Nat
  deriving DecidableEq, Repr

/-- A layer's Level 1 and Level 2 counts in the step, and whether its event is raised (R99). -/
structure LayerSat where
  slot : Nat
  layer : Nat
  replays : Nat
  clamps : Nat
  raised : Bool
  deriving DecidableEq, Repr

/-- MASKS of a slot (R294): mask rows by lane and position; poisoned. -/
structure MaskSet where
  slot : Nat
  rows : List (Nat × Nat × List Byte)
  poison : Bool
  deriving DecidableEq, Repr

/-- An entry's page list, committed length, and after ACCEPT its tentative length as a worker mirrors them (R298, R318). -/
structure PageList where
  entry : Nat
  pages : List Nat
  committed : Nat
  tentative : Nat
  deriving DecidableEq, Repr

/-- What a stored position of a page holds for one ATTN of a slot: its K and V (R209, R305). -/
structure KvPos where
  page : Nat
  off : Nat
  slot : Nat
  seq : Nat
  k : Vec
  v : Vec
  deriving DecidableEq, Repr

/-- A die's step (R196 to R198, R294): the body received, the head that waits for it, how often the body failed, the
step running, its buffers by slot, handle and micro-batch, the instances completed, the notes of its vectors, what is
still in progress, the instances held back for MB_DEPTH alone (R222), the STEP_RESULT parts in so far, its own and its children's, and
the collective parts and results received (R397); `ended` says that the die's step has ended (R198). -/
structure StepState where
  body : Option (List Byte)
  head : Option StepHead
  bodyFails : Nat
  running : Option (StepHead × StepBody)
  bufs : List (BufKey × List Vec)
  done : List Inst
  issued : List Inst
  stalled : List Inst
  ops : List OpRun
  colls : List CollRun
  barriers : List BarrierRun
  notes : List (VecKey × VecNote)
  drafts : Option (List LaneDrafts)
  masks : List MaskSet
  accept : Option (List Nat)
  deltas : List DeltaIn
  sampled : List FacetInst
  held : List HeldCheck
  layerSat : List LayerSat
  standin : List FacetInst
  pages : List PageList
  kv : List KvPos
  lastClock : Nat
  results : List StepResult
  partsIn : List CollPart
  resultsIn : List CollPart
  ended : Bool
  deriving DecidableEq, Repr

/-- Counts of a layer (R115): phases, replays, clamps, unrecovered, transposed replays and clamps. -/
structure LayerCount where
  slot : Nat
  layer : Nat
  phases : Nat
  replays : Nat
  clamps : Nat
  unrecovered : Nat
  treplays : Nat
  tclamps : Nat
  deriving DecidableEq, Repr

/-! ## 07, 08: lifetime, loads and shadows -/

/-- What LIFETIME_SAVE keeps of an array (R244). -/
structure ArrSave where
  age : Rat
  gamma : Int
  beta : Int
  positions : List (Nat × SlicePos)
  deriving DecidableEq, Repr

/-- The saved copy of the lifetime records (R244). -/
structure LifeSave where
  powered : Nat
  sinceStamp : Nat
  dieAge : Rat
  histogram : List Byte
  arrays : List (Nat × ArrSave)
  deriving DecidableEq, Repr

/-- Lifetime records that are not objects: the die's equivalent age in hours, the unpowered seconds credited, the results
of the minute by sensor (sum in 1/16 °C, count), COLD_STARTS at the last stamp, and the saved copy. -/
structure LifeState where
  dieAge : Rat
  creditS : Nat
  minute : List (Int × Nat)
  stampColds : Nat
  saved : LifeSave
  deriving DecidableEq, Repr

/-- A shadow operation (R269, R277); `spare` 0xFF until one is taken and for IN_PLACE, `blockedS` the seconds it has been
blocked for lack of spares (R272). -/
structure Shadow where
  spare : Nat
  kind : Nat
  facet : Nat
  phase : Nat
  reason : Nat
  blockedS : Nat
  deriving DecidableEq, Repr

/-- A load (R256 to R264): the committed request, the parts received (key 0 the header, 0xFF the section table), the
section types still to come, the facets to program with the array each takes, those verified, whether a read-back is
awaited, the result it is stopping with, when it started, and the arrays of its slot and REMAPS as they were, which a reattach that
fails leaves (R258). -/
structure LoadRun where
  slot : Nat
  mode : Nat
  source : Nat
  link : Nat
  die : Nat
  port : Nat
  withGolden : Bool
  expectId : Nat
  expectVersion : Nat
  got : List (Nat × List Byte)
  todo : List Nat
  arrays : List (Nat × Nat)
  verified : List Nat
  started : Bool
  readback : Bool
  stopping : Option Nat
  startUs : Nat
  was : Nat
  before : List (Nat × Arr)
  remaps : Nat
  deriving DecidableEq, Repr

/-- Slots awaiting reprogram after a drain (R263), the in-place pause granted (R272), programming attempts, and the arrays whose start is held
back, each with why and counted once (R261, R262). -/
structure ResState where
  load : Option LoadRun
  shadows : List Shadow
  attempts : List (Nat × Nat)
  delayed : List (Nat × Nat)
  awaiting : List Nat
  pauseAsked : List Nat
  paused : List Nat
  deriving DecidableEq, Repr

/-! ## 09, 10: the manager's requests and steps -/

/-- A request's grammar state (R324): automaton state, stack with the top first, output tokens advanced. -/
structure GramState where
  state : Nat
  stack : List Nat
  tokens : Nat
  deriving DecidableEq, Repr

/-- A request entry (R281) and what the manager holds with it: its page list, token log, grammar image (0 none), input and
output, orders that act at the next boundary, the references its fork took (R306), when its budget was last charged, the counts of its last steps (R167) and
its draft model's length and pages (R315). `resume` is STATE[7:4], `k` and `wantK` the two halves of DEPTH, `mvms` pairs of
MVMs and wide MVMs, latest first. -/
structure Entry where
  index : Nat
  generation : Nat
  tenant : Nat
  slot : Nat
  state : Nat
  resume : Nat
  priority : Nat
  hard : Bool
  failPolicy : Bool
  retain : Bool
  wide : Bool
  late : Bool
  basePriority : Nat
  hold : Nat
  cause : Nat
  variant : Nat
  pin : Bool
  k : Nat
  wantK : Nat
  version : Nat
  budget : Int
  committed : Nat
  tentative : Nat
  promptLen : Nat
  prefilled : Nat
  maxNew : Nat
  pages : List Nat
  seed : Nat
  hostTag : Nat
  grammarId : Nat
  grammarKind : Nat
  grammar : GramState
  image : Nat
  temperature : Nat
  topK : Nat
  topP : Nat
  minP : Nat
  stopToken : Nat
  numeric : Nat
  zeroRun : Nat
  waited : Nat
  laneStep : Nat
  wideRatio : Nat
  charged : Nat
  lateTokens : Nat
  intakeSeq : Nat
  log : List Nat
  encode : Bool
  windowInput : Bool
  inputAddr : Nat
  outputAddr : Nat
  outputLen : Nat
  forkHandle : Nat
  forkLength : Nat
  forkPages : List Nat
  forkFrom : Nat
  reserved : Bool
  holdAsked : Bool
  resumeAsked : Bool
  releaseAsked : Bool
  mvms : List (Nat × Nat)
  draftLen : Nat
  draftPages : Nat
  output : List Byte
  frozen : Bool
  deriving DecidableEq, Repr

/-- A lane of the step in progress at the manager: whose it is, its record, the drafts, what SAMPLE chose (tokens, drafts
accepted, the cause of R327 or 0, the grammar copy), and whether its candidates or masks were poisoned or its draft output
was. -/
structure LanePlan where
  entry : Nat
  generation : Nat
  lane : Lane
  drafted : Bool
  drafts : List Nat
  probs : List Nat
  out : List Nat
  accepted : Nat
  stop : Nat
  grammar : GramState
  poison : Bool
  draftPoison : Bool
  deriving DecidableEq, Repr

/-- The step in progress at the manager (R294): head, body, lanes, the estimate in ns, the parts of STEP_RESULT in so far,
the complete result, when STEP_HEAD went out, the tuning job of a TUNE step, and the records of data it carries. -/
structure StepPlan where
  head : StepHead
  body : StepBody
  lanes : List LanePlan
  estimateNs : Rat
  parts : List StepResult
  result : Option StepResult
  startUs : Nat
  job : Option Nat
  deriving DecidableEq, Repr

/-- A drain (R266): kind 0 RELEASE, 1 REPROGRAM, the deadline on the manager's clock, whether the workers have been set
DRAINING, whether they have been told of its completion, and the workers that have since to give the slot up for its new
load (R263, R267). -/
structure Drain where
  slot : Nat
  kind : Nat
  deadlineUs : Nat
  started : Bool
  complete : Bool
  left : List Nat
  deriving DecidableEq, Repr

/-- What a worker last said of a slot (R267), with the slot's PROGRAM, SHAPE and DIE_SETS, which the manager
plans and gathers by (assumption log 43, DEDUCED). -/
structure SlotHeld where
  worker : Nat
  slot : Nat
  state : Nat
  dieIndex : Nat
  boltId : Nat
  version : Nat
  dies : Nat
  positions : Nat
  vocab : Nat
  kind : Nat
  program : List Byte
  shape : List Byte
  dieSets : List Byte
  deriving DecidableEq, Repr

/-- A grammar image in the store (R329, R333): its serial, owner (0xFFFF global), ID, whether the ID still names it, and
whether it is bad. -/
structure Grammar where
  serial : Nat
  owner : Nat
  id : Nat
  installed : Bool
  bad : Bool
  image : List Byte
  deriving DecidableEq, Repr

/-- A pause asked for by a worker at a slot (R272): for how many facets, whether it has been granted, and the manager time
it ends. -/
structure SlotPause where
  slot : Nat
  worker : Nat
  facets : Nat
  granted : Bool
  untilUs : Nat
  deriving DecidableEq, Repr

/-- The manager: its entries other than FREE, generations by entry index, the step in progress, page operations for the next
body, CORRECTION and RATE_FACTOR exactly, drains, what workers hold, pauses, grammars, the engine clock of the last step
result, the seam rates that workers reported by event (R33), the candidate sets gathered in the step (R294), and the
descriptors whose prompts are being fetched, the workers whose cores GROUP_POWER still restores, and the delta sets
reported poisoned that the next commit makes BAD. `step` is
the number of the last step sent. -/
structure ServeState where
  entries : List Entry
  gens : List (Nat × Nat)
  nextSeq : Nat
  step : Nat
  plan : Option StepPlan
  pageOps : List PageOp
  correction : Rat
  rate : Rat
  drains : List Drain
  held : List SlotHeld
  pauses : List SlotPause
  grammars : List Grammar
  nextGrammar : Nat
  lastHeadUs : Nat
  lastMhz : Nat
  seamNow : List (Nat × Nat)
  candidates : List CollPart
  fetching : List (Nat × List Byte)
  restoring : List Nat
  badSets : List Nat
  deriving DecidableEq, Repr

/-! ## 11: variants and tuning -/

/-- A delta set as the manager accounts for it (R349, R352): state 1 LOADING, 2 CURRENT, 3 RETIRING, 4 BAD; `ready` says that its
load or publish is complete and it becomes CURRENT at the next step start; `values` its value entries at the largest part. -/
structure DeltaSet where
  handle : Nat
  slot : Nat
  variant : Nat
  version : Nat
  state : Nat
  ready : Bool
  bytes : Nat
  values : Nat
  lastUsed : Nat
  owner : Nat
  deriving DecidableEq, Repr

/-- A variant (R349): owner 0xFFFF for SHARED, RESIDENT_PIN, the next version number, and whether its ID has been
unloaded. -/
structure Variant where
  slot : Nat
  id : Nat
  owner : Nat
  pinned : Bool
  next : Nat
  unloaded : Bool
  deriving DecidableEq, Repr

/-- A VARIANT_LOAD in progress (R357): the CMD's key, the set it makes, the window range it names, and the workers still to report with the codes
reported so far. -/
structure VarLoad where
  key : Key
  set : DeltaSet
  pin : Bool
  tenant : Nat
  offset : Nat
  length : Nat
  waiting : List Nat
  codes : List Nat
  deriving DecidableEq, Repr

/-- A tuning job (R364, R366, R371): state as TUNE_STATUS has it; `work` the working set's handle, `charge` its reserve
charge, `positions` and `lossSum` those of the open window, `due` updates not yet published. -/
structure TuneJob where
  index : Nat
  key : Key
  tenant : Nat
  owner : Nat
  slot : Nat
  variant : Nat
  numericFail : Bool
  seed : Nat
  dataOffset : Nat
  dataLength : Nat
  lr : Nat
  decay : Nat
  windowSteps : Nat
  publishEvery : Nat
  epochs : Nat
  state : Nat
  cause : Nat
  epoch : Nat
  record : Nat
  steps : Nat
  updates : Nat
  published : Nat
  loss : Nat
  numeric : Nat
  base : Nat
  work : Nat
  values : Nat
  charge : Nat
  positions : Nat
  lossSum : Rat
  lastOfEpoch : Bool
  deriving DecidableEq, Repr

/-- A delta set on a worker: its die part; BAD; and for a working set the masters and accumulators of its value entries
(FP16 words) with the job's parameters. -/
structure WorkSet where
  job : Nat
  seed : Nat
  lr : Nat
  decay : Nat
  windowSteps : Nat
  steps : Nat
  positions : Nat
  masters : List Nat
  accs : List Nat
  deriving DecidableEq, Repr

structure HeldSet where
  handle : Nat
  slot : Nat
  variant : Nat
  version : Nat
  part : List Byte
  bad : Bool
  placed : Nat × Nat
  work : Option WorkSet
  deriving DecidableEq, Repr

/-- A part that a worker has checked and not yet been told to install (R357). -/
structure CheckedPart where
  slot : Nat
  variant : Nat
  part : List Byte
  deriving DecidableEq, Repr

/-- Variants: what the manager keeps of them, and the sets a worker holds. -/
structure VarState where
  variants : List Variant
  sets : List DeltaSet
  loads : List VarLoad
  jobs : List TuneJob
  nextHandle : Nat
  lastJob : Nat
  held : List HeldSet
  checked : List CheckedPart
  deriving DecidableEq, Repr

/-! ## What the device sends -/

/-- A message on the fabric (R387). -/
inductive FabricMsg where
  | stepHead (h : StepHead)
  | stepBody (bytes : List Byte)
  | bodyResend
  | drafts (lanes : List LaneDrafts)
  | masks (slot : Nat) (rows : List (Nat × Nat × List Byte))
  | gatherPart (p : CollPart)
  | accept (words : List Nat)
  | stepResult (x : StepResult)
  | reducePart (p : CollPart)
  | reduceResult (p : CollPart)
  | barrier (scope barrierId : Nat) (release : Bool)
  | heartbeat (budgetNs : Nat)
  | heartbeatAck (workers : Nat)
  | faultNotice (n : Notice)
  | loadData (ty die : Nat) (bytes : List Byte)
  | dictRequest (opcode : Nat) (r : Req)
  | dictResponse (opcode tag status detail : Nat) (payload : List Byte)
  | probe (epoch : Nat)
  | probeReply (x : Identity)
  | membership (x : Membership)
  | order (o : OrderKind) (budgetNs : Option Int)
  | mirror (x : MirrorMsg)
  | report (x : ReportKind)
  | record (x : RecordIn)
  | throttle (requesting : Bool)
  | sweepRecords (records : List SweepRec)
  | nak (ack : Nat)
  | askManager
  deriving DecidableEq, Repr

/-- What the device gives out: a dictionary response (R50), a completion record in its slot (R427), data written to a
host on behalf of a requester (R419), an MSI-X vector (R430), a fabric message to a device or along a tree
(`none`) and, for link traffic, the link, an SPDM response (R564), or a management in-band interrupt (R578). -/
inductive Output where
  | response (o : Origin) (opcode tag device status : Nat) (index sub tenant detail : Nat) (payload : List Byte)
  | completion (tenant slot : Nat) (record : List Byte)
  | hostWrite (requester address : Nat) (bytes : List Byte) (poison : List Nat)
  | msix (port fn vector : Nat)
  | fabric (dst : Option Nat) (link : Option Nat) (m : FabricMsg)
  | spdm (path : Path) (code : Nat) (bytes : List Byte)
  | selvedge (m : SelvedgeMsg)
  deriving DecidableEq, Repr

end Sys2Proof.Machine
end

