-- ==== Sys2Proof/Machine/State.lean ====
section
/-! DEFINITION. The machine's state, its reset value, and the reasons a step can stop. -/

namespace Sys2Proof.Machine

/-- Why the machine stops. Assumption log 99, DESIGN CHOICE. -/
inductive Fault where
  /-- Raised by an event that names a unit the module does not have (an engine, facet, stack, link, port, channel,
  domain or half out of range): no such event can occur. Safe. -/
  | noSuchUnit
  deriving DecidableEq, Repr

/-- Why a command has no meaning here. -/
inductive Refusal where
  /-- Raised by Machine/Dispatch.lean alone, for a row that has no meaning yet. Safe. -/
  | notModelled (mnemonic : String)
  deriving DecidableEq, Repr

/-- Everything of the device that commands change, but for memory, the queue and what has been sent. `now` is the
device's clock in µs as the last command that carried a time gave it; `free` numbers the free values taken. -/
structure Dev where
  now : Nat
  free : Nat
  objs : List (Key × Nat)
  doms : List (Key × DomVal)
  dict : DictState
  islands : List (Nat × IslandCond)
  net : NetState
  power : PowerState
  programming : List Nat
  hk : List HkHalf
  dram : StackState
  host : HostState
  dma : List (Nat × DmaChan)
  rel : RelState
  boot : BootState
  links : List Link
  group : GroupRec
  arrs : List (Nat × Arr)
  engines : List (Nat × Engine)
  nextTag : Nat
  unverifiable : List (Nat × Nat)
  slots : List SlotData
  layerCounts : List LayerCount
  step : StepState
  life : LifeState
  res : ResState
  serve : ServeState
  vars : VarState
  deriving DecidableEq, Repr

/-- The machine: the commands waiting, the module, its memory, its other state, and what it has sent, oldest first. Assumption log 98, DESIGN CHOICE. -/
structure State where
  pending : List Instr
  ident : Ident
  mem : Mem
  dev : Dev
  out : List Output
  deriving DecidableEq, Repr

/-! ## Reset: a cold start at the rise of PWRGD (R548, R558) -/

def Window.reset : Window := ⟨List.replicate 16 0, List.replicate 16 0, [], false, false, false, false⟩

def ThermDomain.reset : ThermDomain := ⟨0, 0, .normal, 0, false, false, 0, false, false⟩

def HkEntry.reset (cfg : HkEntryCfg) : HkEntry := ⟨cfg, 0, 0, 0, 0, false, false, 0, none, none, 0⟩

/-- The default sequence of R538. -/
def HkHalf.defaultSequence : List HkEntryCfg :=
  (List.range 5).map (fun c => ⟨c, true, 5, 0, 4, 2⟩) ++
  (List.range 6).map (fun c => ⟨6 + c, true, 4, 0, 1, 0⟩) ++
  [⟨12, true, 2, 1, 1, 0⟩, ⟨13, true, 2, 1, 1, 0⟩, ⟨15, true, 2, 0, 1, 0⟩, ⟨18, true, 2, 0, 1, 0⟩, ⟨5, true, 5, 0, 1, 2⟩]

def HkHalf.reset : HkHalf :=
  ⟨HkHalf.defaultSequence.map HkEntry.reset, [], 0, none, [(0, 0), (0, 0)], none, true, false, none⟩

def Port.reset : Port := ⟨0, 0, false, false, true, 0⟩

def Ring.reset : Ring := ⟨1, 0, 0, 0, 0, false, [], 0, false, []⟩

def DmaChan.reset : DmaChan := ⟨none, none, false, [], false, false, 0⟩

def CoreTest.reset : CoreTest := ⟨0, 0, 0, 0, 600, false, false, false⟩

def SpdmConn.reset : SpdmConn := ⟨false, false, false, []⟩

def Link.reset : Link :=
  ⟨1, 0, false, false, none, 0, 0, 0, [], false, [0, 0, 0, 0], [], 0, 0, 0, 0, false⟩

def GroupRec.reset : GroupRec := ⟨none, none, [], [], none, [], false, [], [], false, false, none⟩

def DictState.reset : DictState := ⟨[], [], 1, [], [], [], [], [], 3, (512, 512)⟩

def PowerState.reset : PowerState :=
  ⟨[], 10, false, List.replicate 4 ThermDomain.reset, 48000, 0, 0, true, false, false, false⟩

def StackState.reset : StackState := ⟨16, 16, 64, 96, [], true, false, [], [], 3072⟩

def HostState.reset : HostState := ⟨1023, [Port.reset, Port.reset], [], [], [], [], []⟩

def RelState.reset : RelState := ⟨[], [], 0, 0, [], [], [], [], [], [], false, 86400, none, [], []⟩

def BootState.reset : BootState :=
  ⟨0, 0, [⟨some [], 1, 0⟩, ⟨none, 0, 0⟩], 0, 0, [], [], none, false, [], false, false, none, 0x30, false⟩

def Drift.reset : Drift := ⟨0, 0, 0, 0, 0, 0⟩

def SlicePos.reset : SlicePos := ⟨0, 0, 0, 0, 0, 0, 0⟩

def PairSums.reset : PairSums := ⟨0, 0, 0, 0, 0, 0⟩

def CalSums.reset : CalSums := ⟨0, .reset, .reset⟩

/-- Erased cells: every one at level 0 (R253). -/
def Cells.erased : Cells := ⟨false, [], [], []⟩

def Engine.reset : Engine := ⟨[], [], [], [], [], [], []⟩

def StepState.reset : StepState :=
  ⟨none, none, 0, none, [], [], [], [], [], [], [], [], none, [], none, [], [], [], [], [], [], [], 0, [], [], [], false⟩

def LifeState.reset : LifeState :=
  ⟨0, 0, List.replicate 4 (0, 0), 0, ⟨0, 0, 0, List.replicate 320 0, []⟩⟩

def ResState.reset : ResState := ⟨none, [], [], [], [], [], []⟩

def ServeState.reset : ServeState := ⟨[], [], 1, 0, none, [], 1, 1, [], [], [], [], 1, 0, 940, [], [], [], [], []⟩

def VarState.reset : VarState := ⟨[], [], [], [], 1, 0, [], []⟩

/-- The islands that are not yet powered as boot begins (R558): all but the host ports, housekeeping and management. Assumption log 6, DEDUCED. -/
def islandsAtReset : List (Nat × IslandCond) :=
  (List.range 0x94 ++ (List.range 16).map (0x98 + ·) ++ [0xAC, 0xAE, 0xAF]).map (fun i => (i, .gated))

def Dev.reset : Dev where
  now := 0
  free := 0
  objs := []
  doms := []
  dict := .reset
  islands := islandsAtReset
  net := ⟨[], [], []⟩
  power := .reset
  programming := []
  hk := [.reset, .reset]
  dram := .reset
  host := .reset
  dma := []
  rel := .reset
  boot := .reset
  links := List.replicate 16 .reset
  group := .reset
  arrs := []
  engines := []
  nextTag := 0
  unverifiable := []
  slots := List.replicate 4 ⟨[]⟩
  layerCounts := []
  step := .reset
  life := .reset
  res := .reset
  serve := .reset
  vars := .reset

/-- A Beryl module (assumption log 3, DESIGN CHOICE) with every fused value the spec leaves to the part at zero. -/
def Ident.reset : Ident := ⟨0, 2 ^ 64 - 1, 0, 0, 0, 0, [], 0⟩

/-- The machine right after a cold start (R548, R557, R558). Assumption log 3, DESIGN CHOICE. -/
def State.reset : State where
  pending := []
  ident := .reset
  mem := ⟨[], []⟩
  dev := .reset
  out := []

end Sys2Proof.Machine
end

