-- ==== Sys2Proof/Machine/Ops.lean ====
section
/-! DEFINITION. The named operations the meanings are built of: memory in its canonical form, the store of the object
dictionary, what is sent, the logs and ATTENTION, and how a command's work becomes the next state. -/

namespace Sys2Proof.Machine

/-! ## Memory: rising addresses, no zero byte listed -/

/-- Store one byte; a zero is stored by listing nothing. -/
def setCell : List (Nat × BitVec 8) → Nat → BitVec 8 → List (Nat × BitVec 8)
  | [], a, v => if v = 0 then [] else [(a, v)]
  | (b, u) :: l, a, v =>
    if a < b then (if v = 0 then (b, u) :: l else (a, v) :: (b, u) :: l)
    else if a = b then (if v = 0 then l else (a, v) :: l)
    else (b, u) :: setCell l a v

/-- Read one byte; an unlisted address reads zero (R557). -/
def getCell : List (Nat × BitVec 8) → Nat → BitVec 8
  | [], _ => 0
  | (b, u) :: l, a => if a = b then u else if a < b then 0 else getCell l a

/-- Store bytes from an address on. -/
def setCells : List (Nat × BitVec 8) → Nat → List Byte → List (Nat × BitVec 8)
  | l, _, [] => l
  | l, a, v :: vs => setCells (setCell l a v) (a + 1) vs

/-- Add a codeword to the rising list of poisoned ones. -/
def addPoison : List Nat → Nat → List Nat
  | [], c => [c]
  | d :: l, c => if c < d then c :: d :: l else if c = d then d :: l else d :: addPoison l c

/-- The codewords a range of bytes covers wholly: a write of all 32 bytes clears the poison (R471). -/
def coversCodeword (addr len c : Nat) : Bool := addr ≤ 32 * c && 32 * c + 32 ≤ addr + len

/-- Apply one change of memory. -/
def Mem.apply (m : Mem) : MemOp → Mem
  | .write addr bytes =>
    { cells := setCells m.cells addr bytes
      poison := m.poison.filter (fun c => !coversCodeword addr bytes.length c) }
  | .zero addr len =>
    { cells := m.cells.filter (fun p => p.1 < addr || addr + len ≤ p.1)
      poison := m.poison.filter (fun c => !coversCodeword addr len c) }
  | .poison c => { m with poison := addPoison m.poison c }

/-- Apply changes in order. -/
def Mem.applyAll (m : Mem) (ops : List MemOp) : Mem := ops.foldl Mem.apply m

/-- The canonical form of memory: addresses strictly rising, no zero listed, poisoned codewords strictly rising. -/
def risingCells : List (Nat × BitVec 8) → Bool
  | [] => true
  | [(_, v)] => decide (v ≠ 0)
  | (a, v) :: (b, w) :: l => decide (v ≠ 0) && decide (a < b) && risingCells ((b, w) :: l)

def risingNats : List Nat → Bool
  | [] => true
  | [_] => true
  | a :: b :: l => decide (a < b) && risingNats (b :: l)

def Mem.wf (m : Mem) : Bool := risingCells m.cells && risingNats m.poison

/-! ## A command's work -/

/-- What a command works on: the changing state, the module and memory, the memory changes made so far and what has
been sent so far. -/
structure Work extends Dev where
  ident : Ident
  mem : Mem
  writes : List MemOp
  sent : List Output
  deriving DecidableEq, Repr

/-- Change memory. -/
def Work.memOp (s : Work) (o : MemOp) : Work := { s with mem := s.mem.apply o, writes := s.writes ++ [o] }

/-- Send something. -/
def Work.send (s : Work) (o : Output) : Work := { s with sent := s.sent ++ [o] }

/-- `len` bytes of memory from an address on. -/
def Work.memRead (s : Work) (addr len : Nat) : List Byte :=
  (List.range len).map (fun i => getCell s.mem.cells (addr + i))

/-- Whether any codeword of a range is poisoned. -/
def Work.memPoisoned (s : Work) (addr len : Nat) : Bool :=
  s.mem.poison.any (fun c => decide (32 * c < addr + len) && decide (addr < 32 * c + 32))

/-- Take a fresh free value. Assumption log 97, DESIGN CHOICE. -/
def Work.fresh (s : Work) : Nat × Work := (Config.freeValue s.free, { s with free := s.free + 1 })

/-! ## The object dictionary's store -/

/-- The row of an object's table (R42). -/
def findRow (index sub : Nat) : Option Row :=
  Catalogue.rows.find? (fun r => r.index = index && r.subLo ≤ sub && sub ≤ r.subHi)

/-- The literal default of an object; words of R48 stand as zero here, the value a word's object has before the device
first sets it (assumption log 3, DESIGN CHOICE). -/
def defaultOf (k : Key) : Nat :=
  match findRow k.index k.sub with
  | some r => match r.dflt with
    | .lit v => v
    | .word _ => 0
  | none => 0

/-- The value an object holds. -/
def Work.get (s : Work) (k : Key) : Nat := look (defaultOf k) s.objs k

/-- Set an object. -/
def Work.set (s : Work) (k : Key) (v : Nat) : Work := { s with objs := put s.objs k v }

/-- The bits of an object's type (R43). -/
def typeBits : ObjType → Nat
  | .u8 => 8
  | .u16 => 16
  | .u32 => 32
  | .u64 => 64
  | .i32 => 32
  | .bool => 1
  | .bits32 => 32
  | .str => 512
  | .domain => 0

/-- The bits of an object. -/
def bitsOf (k : Key) : Nat :=
  match findRow k.index k.sub with
  | some r => typeBits r.ty
  | none => 64

/-- Add to a count; past the range of its type its value is open (assumption log 4, DESIGN CHOICE). -/
def Work.add (s : Work) (k : Key) (n : Nat) : Work :=
  let v := s.get k + n
  s.set k (if v < 2 ^ bitsOf k then v else Config.counterPast k v % 2 ^ bitsOf k)

/-- Add to a measurement what no command carries: an energy or a time (assumption log 23, DESIGN CHOICE). -/
def Work.meter (s : Work) (k : Key) : Work :=
  let r := s.fresh
  r.2.add k r.1

/-- A measurement as an object of its type holds it; past the range its value is open (assumption log 4, DESIGN CHOICE). -/
def objValue (k : Key) (v : Nat) : Nat := if v < 2 ^ bitsOf k then v else Config.counterPast k v % 2 ^ bitsOf k

/-- Raise a maximum. -/
def Work.raise (s : Work) (k : Key) (v : Nat) : Work := s.set k (max (s.get k) (objValue k v))

/-- The committed value of a DOMAIN; the default is empty. -/
def Work.dom (s : Work) (k : Key) : DomVal := look ⟨0, []⟩ s.doms k

/-- Commit a DOMAIN. -/
def Work.setDom (s : Work) (k : Key) (bytes : List Byte) : Work :=
  { s with doms := put s.doms k ⟨(s.dom k).gen + 1, bytes⟩ }

/-! ## Roles (R388) -/

/-- ROLE: 0 NONE, 1 MANAGER, 2 STANDBY, 3 WORKER. -/
def Work.isManager (s : Work) : Bool := s.get Obj.role = 1

def Work.isStandby (s : Work) : Bool := s.get Obj.role = 2

def Work.isWorker (s : Work) : Bool := s.get Obj.role = 3

/-- GROUP_STATE is FORMED. -/
def Work.formed (s : Work) : Bool := s.get Obj.groupState = 2

/-- Send a fabric message to a member by route. -/
def Work.toMember (s : Work) (d : Nat) (m : FabricMsg) : Work := s.send (.fabric (some d) none m)

/-- Send a fabric message down the broadcast tree (R400). -/
def Work.broadcast (s : Work) (m : FabricMsg) : Work := s.send (.fabric none none m)

/-- Send on every link in one of the given states (R389, R403). -/
def Work.flood (s : Work) (ok : Nat → Bool) (m : FabricMsg) : Work :=
  (List.range 16).foldl (fun s l =>
    match s.links[l]? with
    | some k => if ok k.state then s.send (.fabric none (some l) m) else s
    | none => s) s

/-- The IDs of the workers of the group, ascending (R388). -/
def Work.workers (s : Work) : List Nat :=
  match s.group.membership with
  | some x => x.members.filter (fun d => 2 ≤ d && d ≤ 253)
  | none => []

/-! ## ATTENTION and interrupts (R430 to R434) -/

/-- Set an ATTENTION bit on both ports' copies (R434). -/
def Work.attend (s : Work) (i : Nat) : Work :=
  let s := s.set (Obj.attention 0) (setBit (s.get (Obj.attention 0)) i)
  s.set (Obj.attention 1) (setBit (s.get (Obj.attention 1)) i)

/-- Set a bit of a tenant's TENANT_ATTENTION (R432). -/
def Work.attendTenant (s : Work) (t i : Nat) : Work :=
  s.set (Obj.tenantAttention t) (setBit (s.get (Obj.tenantAttention t)) i)

/-- The port and function of a tenant (R413). -/
def tenantPort (t : Nat) : Nat := t / 512

def tenantFn (t : Nat) : Nat := t % 512 + 1

/-- Whether a tenant exists (R413). -/
def Work.tenantExists (s : Work) (t : Nat) : Bool :=
  t < 1024 && match s.host.ports[tenantPort t]? with
    | some p => t % 512 < p.vfs
    | none => false

/-- Raise a vector of an owner: a tenant, or a physical function 0x0400 or 0x0401 (R413, R430). `vTenant` is the vector
of a virtual function, `vPhys` of a physical one. -/
def Work.msixOwner (s : Work) (owner vTenant vPhys : Nat) : Work :=
  if owner < 1024 then s.send (.msix (tenantPort owner) (tenantFn owner) vTenant)
  else if owner = 0x400 ∨ owner = 0x401 then s.send (.msix (owner - 0x400) 0 vPhys)
  else s

/-! ## CMD objects (R69, R70) -/

/-- The path code of R55. -/
def pathCode : Path → Nat
  | .portA => 1
  | .portB => 2
  | .mgmt => 3
  | .fabric => 4

/-- A progress word (R69): state, source, percent, result. -/
def progressWord (st src pct res : Nat) : Nat := st + 16 * src + 256 * pct + 65536 * res

/-- STATE of a CMD: 0 IDLE, 1 QUEUED, 2 RUNNING, 3 DONE, 4 FAILED, 5 ABORTED. -/
def Work.cmdState (s : Work) (k : Key) : Nat := field (s.get k) 3 0

def Work.cmdSource (s : Work) (k : Key) : Nat := field (s.get k) 7 4

/-- QUEUED or RUNNING. -/
def Work.cmdBusy (s : Work) (k : Key) : Bool := s.cmdState k = 1 || s.cmdState k = 2

/-- An action starts, in state QUEUED (1) or RUNNING (2), for the function that wrote it (R70). -/
def Work.cmdStart (s : Work) (k : Key) (st : Nat) (o : Origin) : Work :=
  { s.set k (progressWord st (pathCode o.path) 0 0) with dict := { s.dict with starters := put s.dict.starters k o } }

/-- An action starts on firmware's own account: SOURCE 0. -/
def Work.cmdStartFirmware (s : Work) (k : Key) (st : Nat) : Work :=
  { s.set k (progressWord st 0 0 0) with dict := { s.dict with starters := drop1 s.dict.starters k } }

/-- STATE and PROGRESS of a running action. -/
def Work.cmdTo (s : Work) (k : Key) (st pct : Nat) : Work := s.set k (progressWord st (s.cmdSource k) pct 0)

/-- A function window; those never used stand at reset. -/
def Work.window (s : Work) (w : FnWin) : Window := look .reset s.dict.windows w

def Work.setWindow (s : Work) (w : FnWin) (x : Window) : Work :=
  { s with dict := { s.dict with windows := put s.dict.windows w x } }

/-- The window of a function on a port's path. -/
def originWindow (o : Origin) : Option FnWin :=
  match o.path with
  | .portA => some ⟨0, o.fn⟩
  | .portB => some ⟨1, o.fn⟩
  | .mgmt => none
  | .fabric => none

/-- Raise the dictionary vector of a function whose window has DONE_IRQ set (R60, R70, R430). -/
def Work.doneIrq (s : Work) (o : Origin) : Work :=
  match originWindow o with
  | some w => if (s.window w).doneIrq then s.send (.msix w.port w.fn (if w.fn = 0 then 0 else 1)) else s
  | none => s

/-- An action ends in state DONE (3), FAILED (4) or ABORTED (5) with a result, and its starter is told (R70). -/
def Work.cmdEnd (s : Work) (k : Key) (st res : Nat) : Work :=
  let pct := if st = 3 then 100 else field (s.get k) 15 8
  let s := s.set k (progressWord st (s.cmdSource k) pct res)
  match s.dict.starters.find? (fun p => p.1 = k) with
  | some (_, o) => s.doneIrq o
  | none => s

/-- An action that fails as it starts, or succeeds at once. -/
def Work.cmdFail (s : Work) (k : Key) (o : Origin) (res : Nat) : Work := (s.cmdStart k 2 o).cmdEnd k 4 res

def Work.cmdDone (s : Work) (k : Key) (o : Origin) : Work := (s.cmdStart k 2 o).cmdEnd k 3 0

/-! ## Logs (R500 to R502) -/

/-- The ATTENTION bit the table of R502 gives a code. -/
def attentionOf (code : Nat) : Option Nat :=
  if code = 1 then some 16
  else if code = 2 then some 17
  else if code = 3 then some 11
  else if code = 4 then some 13
  else if code = 5 then some 10
  else if code = 7 then some 12
  else if code = 8 then some 9
  else if code = 9 then some 8
  else if 0x20 ≤ code ∧ code ≤ 0x25 then some 6
  else if 0x81 ≤ code ∧ code ≤ 0x89 then some 5
  else none

/-- CALENDAR_NOW: the last stamp plus SINCE_STAMP_MS, 0 before the first stamp (R245). -/
def Work.calendarNow (s : Work) : Nat :=
  if (s.dom Obj.stampLog).bytes.isEmpty then 0 else s.get Obj.lastStamp + s.get Obj.sinceStampMs

/-- A record as it is stored (R501). -/
def logRecOf (s : Work) (r : RecordIn) : LogRec :=
  { seq := 0, powered := s.get Obj.poweredSeconds % 2 ^ 32, calendar := s.calendarNow
    severity := r.severity, device := r.device, code := r.code, unitKind := r.unitKind, slot := r.slot, unit := r.unit
    repeats := 0, tenant := r.tenant, detail := r.detail }

/-- Whether a record coalesces into the latest of its log (R501). -/
def coalesces (old new : LogRec) : Bool :=
  old.code = new.code && old.unit = new.unit && old.slot = new.slot && old.device = new.device &&
    (new.powered + 2 ^ 32 - old.powered) % 2 ^ 32 < 60

/-- A log, latest first, with a record stored or coalesced (R501): the log, the next record number, and the limit on
records kept. -/
def logStore (limit : Nat) (log : List LogRec) (seq : Nat) (r : LogRec) : List LogRec × Nat :=
  match log with
  | old :: rest =>
    if coalesces old r then ({ old with repeats := min (old.repeats + 1) 65535 } :: rest, seq)
    else (({ r with seq := seq } :: log).take limit, seq + 1)
  | [] => ([{ r with seq := seq }], seq + 1)

/-- Store the oldest fault record that waits for the non-volatile store (R47, R501). -/
def Work.storeFault (s : Work) (r : LogRec) : Work :=
  let (log, seq) := logStore 4096 s.rel.faultLog s.rel.faultSeq r
  let s := { s with rel := { s.rel with faultLog := log, faultSeq := seq % 2 ^ 32 } }
  (s.add Obj.faultTotal 1).attend 7

/-- Record a fault or event that arose here or was forwarded (R500, R501): an event is stored at once, a fault waits for
the non-volatile store; its ATTENTION bit is set; a worker forwards it to the manager. -/
def Work.record (s : Work) (r : RecordIn) : Work :=
  let rec_ := logRecOf s r
  let s := if r.severity = 0 then
      let (log, seq) := logStore 1024 s.rel.eventLog s.rel.eventSeq rec_
      { s with rel := { s.rel with eventLog := log, eventSeq := seq % 2 ^ 32 } }
    else { s with rel := { s.rel with pendingLog := s.rel.pendingLog ++ [rec_] } }
  let s := match attentionOf r.code with
    | some b => s.attend b
    | none => s
  let s := if r.code = 2 ∧ r.tenant < 1024 then s.attendTenant r.tenant 0 else s
  if s.isWorker && s.formed then s.toMember 0 (.record r) else s

/-- The DEVICE field of a record that arises here (R500, R501). -/
def Work.ownDevice (s : Work) : Nat := s.get Obj.deviceId

/-- Record something that arose here. -/
def Work.log (s : Work) (severity code unitKind slot unit tenant detail : Nat) : Work :=
  s.record ⟨s.ownDevice, severity, code, unitKind, slot, unit, tenant, detail % 2 ^ 32⟩

/-! ## Islands (R16 to R20, R40) -/

/-- Whether a core is good (R4). -/
def goodCore (m : Ident) (c : Nat) : Bool := c < 64 && bitAt m.coreMask c

/-- The kind of an island (R17, R40); 15 for a reserved ID. -/
def islandKind (i : Nat) : Nat :=
  if i < 0x40 then 0
  else if i < 0x80 then 1
  else if i < 0x88 then 2
  else if i < 0x94 then 3
  else if 0x98 ≤ i ∧ i < 0xA8 then 4
  else if i = 0xA8 ∨ i = 0xA9 then 5
  else if i = 0xAA ∨ i = 0xAB then 6
  else if i = 0xAC then 7
  else if i = 0xAD then 8
  else if i = 0xAE ∨ i = 0xAF then 9
  else 15

/-- Whether an island is present (R36, R39). -/
def islandPresent (m : Ident) (i : Nat) : Bool :=
  if i < 0x40 then goodCore m i
  else if i < 0x80 then goodCore m (i - 0x40)
  else islandKind i ≠ 15

/-- The half of an island, 0 Warp and 1 Weft; 0 for the seam and the management island (R16, R18, R40). -/
def islandHalf (i : Nat) : Nat :=
  if i < 0x40 then i / 32
  else if i < 0x80 then (i - 0x40) / 32
  else if i < 0x88 then (i - 0x80) / 4
  else if i < 0x94 then (i - 0x88) / 6
  else if 0x98 ≤ i ∧ i < 0xA8 then (i - 0x98) / 8
  else if i = 0xA9 ∨ i = 0xAB ∨ i = 0xAF then 1
  else 0

/-- The nominal clock of an island, MHz (R17). -/
def nominalMhz (i : Nat) : Nat :=
  match islandKind i with
  | 0 => 940
  | 1 => 1250
  | 2 => 1500
  | 3 => 1500
  | 4 => 1750
  | 5 => 2000
  | 6 => 100
  | 7 => 1500
  | 8 => 400
  | 9 => 1500
  | _ => 0

/-- An island's own condition. -/
def Work.islandCond (s : Work) (i : Nat) : IslandCond := look .running s.islands i

/-- Whether accesses into an island complete (R20, R41). -/
def Work.islandOpen (s : Work) (i : Nat) : Bool := s.islandCond i ≠ .gated && s.islandCond i ≠ .stopped

/-- What happens inside an island: nothing while its clock is stopped or its power gated (R20). -/
def Work.inside (s : Work) (i : Nat) (f : Work → Work) : Work := if s.islandOpen i then f s else s

def Work.setIsland (s : Work) (i : Nat) (c : IslandCond) : Work := { s with islands := put s.islands i c }

/-- A thermal domain. -/
def Work.domain (s : Work) (d : Nat) : ThermDomain := s.power.domains.getD d .reset

def Work.setDomain (s : Work) (d : Nat) (x : ThermDomain) : Work :=
  { s with power := { s.power with domains := setAt .reset s.power.domains d x } }

/-- A rational as a whole number: itself, or one of the two beside it, as the spec gives no rounding (assumption log 26, DESIGN CHOICE). -/
def openWhole (x : Rat) : Int := if x.den = 1 then x.num else x.num / (x.den : Int) + (Config.wholeOpen x.num x.den % 2 : Nat)

/-- A temperature in 1/16 °C as whole degrees; between two, either, the spec gives no rounding (assumption log 26, DESIGN CHOICE). -/
def wholeDegrees (t16 : Int) : Nat :=
  min 255 ((max 0 (t16 / 16)).toNat + (if t16 % 16 = 0 then 0 else Config.wholeOpen t16 16 % 2))

/-- The records that a junction temperature of a domain, 1/16 °C, may raise: the domain's highest and TJ_MAX_EVER (R252, R531). -/
def Work.hottest (s : Work) (d : Nat) (t : Int) : Work :=
  let s := s.raise Obj.tjMaxEver (wholeDegrees t)
  if signed 32 (s.get (Obj.domainTempMax d)) < t then s.set (Obj.domainTempMax d) (unsigned 32 t) else s

/-- The skip level in force on an island, in eighths: the larger of the governor's and the half's, on engine and core
islands only (R19, R513). -/
def Work.skipOf (s : Work) (i : Nat) : Nat :=
  if islandKind i ≤ 1 then max (s.get Obj.governorSkip) (s.domain (islandHalf i)).skip else 0

/-- Whether division is in force on an island (R19, R515). -/
def Work.dividedOf (s : Work) (i : Nat) : Bool :=
  if islandKind i ≤ 2 then (s.domain (islandHalf i)).divided
  else if i = 0xAE then (s.domain 2).divided
  else if i = 0xAF then (s.domain 3).divided
  else false

/-- The effective clock in MHz, rounded down (R523). -/
def Work.effMhz (s : Work) (i : Nat) : Nat :=
  nominalMhz i * (8 - s.skipOf i) / (if s.dividedOf i then 16 else 8)

/-- The ISLAND_STATUS word (R39 to R41). -/
def Work.islandStatus (s : Work) (i : Nat) : Nat :=
  if islandKind i = 15 then 0xF0
  else
    let half := islandHalf i
    let word := fun (st skip clk : Nat) => st + 16 * islandKind i + 256 * skip + 2048 * half + 65536 * clk
    if !islandPresent s.ident i then word 0 0 0
    else match s.islandCond i with
      | .gated => word 1 0 0
      | .stopped => word 2 0 0
      | .draining => word 6 0 (s.effMhz i)
      | .faulted => word 7 0 (s.effMhz i)
      | .running =>
        if s.dividedOf i then word 5 (s.skipOf i) (s.effMhz i)
        else if s.skipOf i ≠ 0 then word 4 (s.skipOf i) (s.effMhz i)
        else word 3 0 (s.effMhz i)

/-- Whether a domain is in REQUEST or beyond (R520). -/
def ThermDomain.requesting (d : ThermDomain) : Bool :=
  d.state = .request || d.state = .skipping || d.state = .divided || d.state = .shutdown

/-- Whether the device asks hosts to slow down (R520): a domain of its own, or at the manager a member's. -/
def Work.throttleRequest (s : Work) : Bool :=
  s.power.domains.any ThermDomain.requesting || (s.isManager && !s.group.throttled.isEmpty)

/-- Whether skipping or division is in force on the device's own islands (R514, R520). -/
def Work.throttleEnforced (s : Work) : Bool :=
  s.get Obj.governorSkip ≠ 0 || s.power.domains.any (fun d => d.skip ≠ 0 || d.divided)

/-- A port. -/
def Work.port (s : Work) (p : Nat) : Port := s.host.ports.getD p .reset

def Work.setPort (s : Work) (p : Nat) (x : Port) : Work :=
  { s with host := { s.host with ports := setAt .reset s.host.ports p x } }

/-- A port trained below 64 GT/s or below ×8 (R434). -/
def Port.degraded (p : Port) : Bool := p.linkUp && (p.speed < 6 || p.width < 8)

/-- The ATTENTION word of a port: the bits held and the level bits (R434). Slot states 1, 2 and 5 are LOADING,
PROGRAMMING and RESIDENT (R184). -/
def Work.attentionWord (s : Work) (p : Nat) : Nat :=
  let unverified := (List.range 4).any (fun n => let v := s.get (Obj.slotState n); v = 1 || v = 2 || v = 5)
  s.get (Obj.attention p)
    + bit (decide (s.boot.stage ≠ 4))
    + 2 * bit unverified
    + 8 * bit s.throttleRequest
    + 16 * bit s.throttleEnforced
    + 0x4000 * bit (s.port p).degraded
    + 0x8000 * bit (decide (2 ≤ s.get Obj.powerState))

/-- TENANT_ATTENTION with its level bit (R432). -/
def Work.tenantAttentionWord (s : Work) (t : Nat) : Nat :=
  s.get (Obj.tenantAttention t) + 16 * bit s.throttleRequest

/-- ATTENTION_MASK, whose bit 0 reads 1 (R433). -/
def Work.attentionMask (s : Work) (p : Nat) : Nat := s.get (Obj.attentionMask p) ||| 1

/-- RDYBSY of a port is driven low (R433). -/
def Work.rdybsyLow (s : Work) (p : Nat) : Bool :=
  s.power.shutdownLatched || (s.attentionWord p &&& s.attentionMask p) ≠ 0

/-- ALERT_L is low (R578). -/
def Work.alertLow (s : Work) : Bool :=
  (s.attentionWord 0 &&& 0x6C) ≠ 0 || (s.attentionWord 1 &&& 0x6C) ≠ 0

/-- THERMTRIP_L is low (R522, R578). -/
def Work.thermtripLow (s : Work) : Bool := s.power.shutdownLatched

/-! ## The transmitters of the links (R381, R383, R384, R386, R387) -/

/-- A message's type code, its virtual lane, and its body bytes where the spec lays the body out (R295 to R299, R387). Assumption log 56, DESIGN CHOICE. -/
def msgForm (toManager : Bool) : FabricMsg → Nat × Nat × Option Nat
  | .barrier _ _ _ => (0x01, 0, none)
  | .stepHead _ => (0x02, 0, some 64)
  | .accept ws => (0x03, 0, some (4 * ws.length))
  | .faultNotice _ => (0x04, 0, none)
  | .reducePart _ => (0x10, 1, none)
  | .reduceResult _ => (0x11, 1, none)
  | .stepResult x => (0x12, 1, some (16 + 16 * x.lanes.length))
  | .heartbeatAck _ => (0x13, 1, none)
  | .stepBody b => (0x20, 2, some b.length)
  | .drafts _ => (0x21, 2, none)
  | .masks _ _ => (0x22, 2, none)
  | .gatherPart _ => (0x23, if toManager then 2 else 1, none)
  | .loadData _ _ b => (0x24, 2, some b.length)
  | .dictRequest _ r => (0x30, 3, some (16 + r.payload.length))
  | .dictResponse _ _ _ _ p => (0x31, 3, some (16 + p.length))
  | .probe _ => (0x32, 3, none)
  | .probeReply _ => (0x33, 3, none)
  | .membership _ => (0x34, 3, none)
  | .heartbeat _ => (0x35, 3, none)
  | .bodyResend => (0x36, 3, none)
  | .order _ _ => (0x37, 3, none)
  | .mirror _ => (0x38, 3, none)
  | .report _ => (0x31, 3, none)
  | .record _ => (0x31, 3, none)
  | .throttle _ => (0x31, 3, none)
  | .sweepRecords _ => (0x31, 3, none)
  | .nak _ => (0, 4, none)
  | .askManager => (0x30, 3, none)

/-- The link toward a member: the first link of its route on the edge it is injected at, or on the other edge (R393). -/
def Work.linkTo (s : Work) (d code : Nat) : Option Nat :=
  match s.group.membership with
  | some x =>
    match x.routes.find? (fun (r : Nat × Nat × Nat × Nat) => r.1 = d) with
    | some (_, w, e, _) =>
      let first := if Config.injectEast d code then e else w
      let other := if Config.injectEast d code then w else e
      if first < 16 then some first else if other < 16 then some other else none
    | none => none
  | none => none

/-- Whether the transmitter has sent 15 flits since one of a lane that holds a flit and a credit (R384). -/
def Link.owed (k : Link) (vl since : Nat) : Bool := k.waiting.contains vl && decide (0 < k.credits.getD vl 0) && decide (15 ≤ since)

/-- The lane of the next flit: Selvedge, then the guaranteed management and bulk flits, then reduction, management and bulk
(R384). -/
def Link.pick (k : Link) : Option Nat :=
  let ready := fun (vl : Nat) => k.waiting.contains vl && decide (0 < k.credits.getD vl 0)
  if ready 0 then some 0
  else if k.owed 3 k.sinceMgmt then some 3
  else if k.owed 2 k.sinceBulk then some 2
  else if ready 1 then some 1
  else if ready 3 then some 3
  else if ready 2 then some 2
  else none

/-- Send waiting flits while credit and the replay buffer allow: the link and the flits sent (R381, R383). -/
def Link.pump : Nat → Link → Link × Nat
  | 0, k => (k, 0)
  | n + 1, k =>
    if 256 ≤ k.unacked.length then (k, 0)
    else match k.pick with
      | none => (k, 0)
      | some vl =>
        let r := Link.pump n
          { k with waiting := k.waiting.erase vl, credits := k.credits.modify vl (· - 1)
                   unacked := k.unacked ++ [(k.nextSeq, 0)], nextSeq := (k.nextSeq + 1) % 1024
                   sinceMgmt := if vl = 3 then 0 else min 15 (k.sinceMgmt + 1)
                   sinceBulk := if vl = 2 then 0 else min 15 (k.sinceBulk + 1) }
        (r.1, r.2 + 1)

/-- The transmitter of a link runs: the payload bytes of the flits sent are counted (R409). -/
def Work.pumpLink (s : Work) (l : Nat) : Work :=
  match s.links[l]? with
  | none => s
  | some k =>
    let r := k.pump k.waiting.length
    let s := { s with links := s.links.set l r.1 }
    if r.2 = 0 then s else s.add (Obj.linkTxBytes l) (64 * r.2)

/-- Flits of a message join a link's transmitter; a Selvedge flit that meets a replay is counted, and another waits at most one flit
time for its boundary (R385); how long within it the spec leaves open. -/
def Work.queueFlits (s : Work) (l vl n : Nat) : Work :=
  match s.links[l]? with
  | none => s
  | some k =>
    if k.state ≠ 3 ∧ k.state ≠ 4 then s
    else
      let s := { s with links := s.links.set l { k with waiting := k.waiting ++ List.replicate n vl } }
      let s :=
        if vl ≠ 0 then s
        else if k.replaying then s.add (Obj.selvedgeReplayWaits l) n
        else s.raise (Obj.selvedgeWaitMaxPs l) (Config.selvedgeWaitPs l s.free % 644)
      s.pumpLink l

/-- The links a message leaves by: one link, a route, or the links of the broadcast tree to the children (R392, R393). -/
def Work.linksOf (s : Work) (dst link : Option Nat) (code : Nat) : List Nat :=
  match link, dst with
  | some l, _ => [l]
  | none, some d => match s.linkTo d code with
    | some l => [l]
    | none => []
  | none, none => match s.group.membership with
    | some x => x.children.filterMap (fun (d : Nat) => s.linkTo d code)
    | none => []

/-- What has been sent on the fabric goes onto the links. A NAK is a flit of its own kind and takes no part (R380). -/
def Work.transmit (s : Work) : List Output → Work
  | [] => s
  | .fabric dst link m :: os =>
    let f := msgForm (dst = some 0) m
    if 4 ≤ f.2.1 then s.transmit os
    else
      let body := f.2.2.getD (Config.bodyBytes f.1 s.free)
      let s := { s with free := s.free + 1 }
      let flits := (8 + body + 63) / 64
      ((s.linksOf dst link f.1).foldl (fun (s : Work) (l : Nat) => s.queueFlits l f.2.1 flits) s).transmit os
  | _ :: os => s.transmit os

/-! ## From work to the next state -/

/-- The work of a state. -/
def State.work (s : State) : Work := { s.dev with ident := s.ident, mem := s.mem, writes := [], sent := [] }

/-- Whether some unmasked bit went from 0 to 1. -/
def edge (mask before after : Nat) : Bool := ((after &&& mask) ||| (before &&& mask)) ≠ (before &&& mask)

/-- The ATTENTION and TENANT vectors that a change raises (R430). -/
def edgeVectors (a b : Work) : List Output :=
  ((List.range 2).filter (fun p => edge (b.attentionMask p) (a.attentionWord p) (b.attentionWord p))).map
      (fun p => .msix p 0 1) ++
  ((List.range 2).flatMap (fun p => (List.range (b.port p).vfs).filterMap (fun n =>
      let t := 512 * p + n
      if edge (b.get (Obj.tenantAttentionMask t)) (a.tenantAttentionWord t) (b.tenantAttentionWord t)
      then some (.msix p (n + 1) 5) else none)))

/-- The next state once a command's work is done: the queue and the module stay, memory takes the changes made, and what
was sent is appended. -/
def State.run (s : State) (f : Work → Work) : State :=
  let w := f s.work
  let w := w.transmit w.sent
  { s with
    mem := s.mem.applyAll w.writes
    dev := w.toDev
    out := s.out ++ w.sent ++ edgeVectors s.work w }

/-- A command whose work always completes. -/
def State.next (s : State) (f : Work → Work) : Host.Outcome State Fault Refusal := .next (s.run f)

/-- A command that names a unit: it completes when the module has the unit. -/
def State.nextIf (s : State) (c : Bool) (f : Work → Work) : Host.Outcome State Fault Refusal :=
  if c then .next (s.run f) else .fault .noSuchUnit

end Sys2Proof.Machine
end

