-- ==== Sys2Proof/Machine/Slots.lean ====
section
/-! DEFINITION. Slots and what their Bolt sections say: placement, program, buffers, golden weights, outliers and column
scales (R172 to R194), and the arrays that serve facets (R113, R114, R480). -/

namespace Sys2Proof.Machine

/-- The same of a quantity that is not negative. -/
def wholeOf (x : Rat) : Nat := (openWhole x).toNat

/-- The same in a word of so many bits; what it holds past its range the spec does not say. -/
def wholeIn (bits : Nat) (x : Rat) : Nat :=
  let v := openWhole x
  if 0 ≤ v ∧ v < 2 ^ bits then v.toNat else Config.wholeOpen x.num x.den % 2 ^ bits

/-- A count in a word of so many bits; what it holds past its range the spec does not say. Assumption log 114, DESIGN CHOICE. -/
def countIn (bits n : Nat) : Nat := if n < 2 ^ bits then n else Config.wholeOpen n 1 % 2 ^ bits

/-- The largest number of so many bits whose k-th power is at most x, found from the highest bit down. -/
def rootFloor (k : Nat) : Nat → Nat → Nat → Nat
  | 0, _, r => r
  | b + 1, x, r => rootFloor k b x (if (r + 2 ^ b) ^ k ≤ x then r + 2 ^ b else r)

/-! ## Sections -/

/-- The slots. -/
def Work.slot (s : Work) (n : Nat) : SlotData := s.slots.getD n ⟨[]⟩

def Work.setSlot (s : Work) (n : Nat) (x : SlotData) : Work := { s with slots := setAt ⟨[]⟩ s.slots n x }

/-- A section's bytes; an absent section is empty (R174, R185). -/
def SlotData.section (x : SlotData) (ty : Nat) : List Byte := look [] x.sections ty

def SlotData.has (x : SlotData) (ty : Nat) : Bool := x.sections.any (fun p => p.1 = ty)

/-- A slice record (R187). -/
structure Slice where
  layer : Nat
  half : Nat
  join : Nat
  k : Nat
  n : Nat
  firstEntry : Nat
  deriving DecidableEq, Repr

/-- An engine entry (R188). -/
structure EngEntry where
  engine : Nat
  mask : Nat
  inOff : Nat
  outOff : Nat
  deriving DecidableEq, Repr

/-- A PLACEMENT section (R186). -/
structure Placement where
  slices : List Slice
  entries : List EngEntry
  coreSets : List Nat
  facets : Nat
  coreMask : Nat
  deriving DecidableEq, Repr

def placementOf (b : List Byte) : Placement :=
  let ns := leAt b 0 2
  let nc := leAt b 2 2
  let ne := leAt b 4 4
  let rec0 := fun (i : Nat) => slice b (32 + 16 * i) 16
  { slices := (List.range ns).map (fun i =>
      let r := rec0 i
      ⟨leAt r 0 2, leAt r 2 1, leAt r 3 1, leAt r 4 4, leAt r 8 4, leAt r 12 4⟩)
    entries := (List.range ne).map (fun i =>
      let r := rec0 (ns + i)
      ⟨leAt r 0 2, leAt r 2 1, leAt r 4 4, leAt r 8 4⟩)
    coreSets := (List.range nc).map (fun i => leAt b (32 + 16 * (ns + ne) + 8 * i) 8)
    facets := leAt b 8 2
    coreMask := leAt b 16 8 }

/-- The engine entries of a slice (R187). -/
def Placement.entriesOf (p : Placement) (i : Nat) : List EngEntry :=
  match p.slices[i]? with
  | none => []
  | some x =>
    let stop := match p.slices[i + 1]? with
      | some y => y.firstEntry
      | none => p.entries.length
    (p.entries.drop x.firstEntry).take (stop - x.firstEntry)

/-- A buffer table entry (R192). -/
structure Buffer where
  kind : Nat
  format : Nat
  perMb : Bool
  offset : Nat
  elements : Nat
  vectors : Nat
  deriving DecidableEq, Repr

/-- An op record (R194), with its argument bytes 14 to 27. -/
structure OpRec where
  opcode : Nat
  flags : Nat
  layer : Nat
  coreset : Nat
  dst : Nat
  src0 : Nat
  src1 : Nat
  src2 : Nat
  args : List Byte
  seq : Nat
  bytes : List Byte
  deriving DecidableEq, Repr

/-- A PROGRAM section (R191). -/
structure Program where
  depth : Nat
  maxVectors : Nat
  buffers : List Buffer
  ops : List OpRec
  deriving DecidableEq, Repr

/-- A length rounded up to a multiple. -/
def alignUp (n a : Nat) : Nat := (n + a - 1) / a * a

def opRecOf (r : List Byte) : OpRec :=
  ⟨leAt r 0 1, leAt r 1 1, leAt r 2 2, leAt r 4 2, leAt r 6 2, leAt r 8 2, leAt r 10 2, leAt r 12 2, slice r 14 14,
   leAt r 28 2, r⟩

def programOf (b : List Byte) : Program :=
  let nops := leAt b 0 4
  let nb := leAt b 4 2
  let bufAt := 32
  let opAt := alignUp (bufAt + 16 * nb) 32
  { depth := leAt b 6 1
    maxVectors := leAt b 8 4
    buffers := (List.range nb).map (fun i =>
      let r := slice b (bufAt + 16 * i) 16
      ⟨leAt r 0 1, leAt r 1 1, bitAt (leAt r 2 1) 0, leAt r 4 4, leAt r 8 4, leAt r 12 4⟩)
    ops := (List.range nops).map (fun i => opRecOf (slice b (opAt + 32 * i) 32)) }

/-- An op argument: `len` bytes at byte `off` of the record (R194). -/
def OpRec.arg (o : OpRec) (off len : Nat) : Nat := leAt o.bytes off len

def Work.placement (s : Work) (n : Nat) : Placement := placementOf ((s.slot n).section 0x10)

def Work.program (s : Work) (n : Nat) : Program := programOf ((s.slot n).section 0x03)

/-- TUNE_PROGRAM of a slot (R363). -/
def Work.tuneProgram (s : Work) (n : Nat) : Program := programOf (s.dom (Obj.tuneProgram n)).bytes

/-- Whether the step in progress is a TUNE step. -/
def Work.tuning (s : Work) : Bool :=
  match s.step.running with
  | some (h, _) => h.kind = 2
  | none => false

/-- The program a slot runs in the step in progress: the tuning program in a TUNE step (R363). -/
def Work.stepProgram (s : Work) (n : Nat) : Program := if s.tuning then s.tuneProgram n else s.program n

/-- A buffer of the program a slot runs. -/
def Work.buffer (s : Work) (n h : Nat) : Option Buffer := if h = 0xFFFF then none else (s.stepProgram n).buffers[h]?

/-- The key of a buffer's instance: one per micro-batch when PER_MB is set, otherwise one (R192). -/
def Work.bufKey (s : Work) (n h m : Nat) : BufKey :=
  match s.buffer n h with
  | some b => ⟨n, h, if b.perMb then m else 0⟩
  | none => ⟨n, h, m⟩

/-- The lowest core of a core set. -/
def lowBit64 (m : Nat) : Nat := ((List.range 64).find? (fun (b : Nat) => bitAt m b)).getD 0

/-- The half that holds SRC0 of op i, for EDGE 0 (R203): that of the slice of the last op before it that writes SRC0 from
engines, else that of the lowest core of the writer's core set, or of its own. Assumption log 103, DEDUCED. -/
def Program.srcHalf (p : Program) (pl : Placement) (i : Nat) (o : OpRec) : Nat :=
  let coreHalf := fun (x : OpRec) => if 32 ≤ lowBit64 (pl.coreSets.getD x.coreset 0) then 1 else 0
  match ((p.ops.take i).filter (fun (x : OpRec) => x.dst = o.src0)).getLast? with
  | some x =>
    if x.opcode = 1 ∨ x.opcode = 2 ∨ x.opcode = 0x41 then
      match pl.slices[x.arg 14 2]? with
      | some y => y.half
      | none => coreHalf o
    else coreHalf x
  | none => coreHalf o

/-! ## Golden weights, outliers and scales -/

/-- The weight at row r of pair j of golden record g (R177). -/
def goldenWeight (b : List Byte) (g j r : Nat) : Int :=
  let w := leAt b (262144 * g + 512 * j + r / 2) 1
  signed 4 (if r % 2 = 0 then w % 16 else w / 16)

/-- An outlier entry: engine facet, pair, row and signed weight (R126). -/
structure Outlier where
  facet : Nat
  pair : Nat
  row : Nat
  value : Int
  deriving DecidableEq, Repr

/-- A raw outlier store entry with its slot and its marker's facet and pair. -/
structure StoreEntry where
  slot : Nat
  facet : Nat
  pair : Nat
  word : Nat
  marker : Bool
  deriving DecidableEq, Repr

/-- Walk raw 24-bit entries, each under its last marker (R126). -/
def storeEntries (slot : Nat) : List Nat → Nat × Nat → List StoreEntry
  | [], _ => []
  | w :: ws, at_ =>
    if bitAt w 23 then ⟨slot, field w 10 9, field w 8 0, w, true⟩ :: storeEntries slot ws (field w 10 9, field w 8 0)
    else ⟨slot, at_.1, at_.2, w, false⟩ :: storeEntries slot ws at_

/-- The raw entries an OUTLIERS section holds for an engine (R181): walk its records. -/
def outlierRecords : Nat → List Byte → List (Nat × List Nat)
  | 0, _ => []
  | n + 1, b =>
    if b.length < 8 then []
    else
      let e := leAt b 4 4
      let len := alignUp (8 + 3 * e) 4
      (leAt b 0 2, (List.range e).map (fun i => leAt b (8 + 3 * i) 3)) :: outlierRecords n (b.drop len)

def outlierRaw (b : List Byte) (engine : Nat) : List Nat :=
  match (outlierRecords 2048 b).find? (fun p => p.1 = engine) with
  | some p => p.2
  | none => []

/-- Order of two entries in the merged store: by marker. -/
def storeLe (a b : StoreEntry) : Bool := a.facet < b.facet || (a.facet = b.facet && a.pair ≤ b.pair)

/-- Merge two stores that are in marker order (R181). -/
def mergeStore : Nat → List StoreEntry → List StoreEntry → List StoreEntry
  | 0, a, b => a ++ b
  | _ + 1, [], b => b
  | _ + 1, a, [] => a
  | n + 1, x :: a, y :: b =>
    if storeLe x y then x :: mergeStore n a (y :: b) else y :: mergeStore n (x :: a) b

/-- The one store of an engine, its slots' images merged in marker order (R181). -/
def mergedStore (images : List (Nat × List Nat)) : List StoreEntry :=
  images.foldl (fun acc im => let e := storeEntries im.1 im.2 (0, 0); mergeStore (acc.length + e.length) acc e) []

def Work.engineStore (s : Work) (engine : Nat) : List StoreEntry :=
  mergedStore ((List.range 4).map (fun n => (n, outlierRaw ((s.slot n).section 0x13) engine)))

/-- The slots whose entries lie in a 64-bit word of a store (R128). -/
def wordOwners (store : List StoreEntry) (w : Nat) : List Nat :=
  ((store.zipIdx.filter (fun p => decide (3 * p.2 / 8 = w) || decide ((3 * p.2 + 2) / 8 = w))).map (·.1.slot)).eraseDups

/-- The weight entries of a store under markers of the facets of a mask, and the 64-bit words they and their markers
occupy. -/
def storeOutliers (store : List StoreEntry) (mask : Nat) : List Outlier :=
  (store.filter (fun e => !e.marker && bitAt mask e.facet)).map
    (fun e => ⟨e.facet, e.pair, field e.word 22 13, signed 11 (field e.word 10 0)⟩)

def storeWords (store : List StoreEntry) (mask : Nat) : List Nat :=
  ((store.zipIdx.filter (fun p => bitAt mask p.1.facet)).flatMap (fun p => [3 * p.2 / 8, (3 * p.2 + 2) / 8])).eraseDups

/-- The byte offset of a slice's scales in SCALES (R180). -/
def scalesOffset (p : Placement) (i : Nat) : Nat :=
  (p.slices.take i).foldl (fun a x => a + alignUp (2 * x.n) 32) 0

/-- The FP16 column scale of a lane of a slice (R180). -/
def Work.scale (s : Work) (n i lane : Nat) : Nat :=
  leAt ((s.slot n).section 0x12) (scalesOffset (s.placement n) i + 2 * lane) 2

/-! ## Arrays -/

/-- The core of a facet (R2): 32 engines of 4 facets. -/
def facetCore (f : Nat) : Nat := f / 128

/-- The core of an array: spare n belongs to core n / 4 (R3). -/
def arrayCore (a : Nat) : Nat := if a < 0x8000 then facetCore a else (a - 0x8000) / 4

/-- The facet or spare ID of an array's records (R113). -/
def arrayUnit (a : Nat) : Nat := if a < 0x8000 then a else a - 0x8000

/-- UNIT_KIND of an array (R501). -/
def arrayKind (a : Nat) : Nat := if a < 0x8000 then 1 else 2

def arrayExists (a : Nat) : Bool := a < 8192 || (0x8000 ≤ a && a < 0x8100)

/-- The array as manufactured (R113, R114): absent in a fused-off core, a reference engine's facet, free, or a free
spare. -/
def Arr.manufactured (m : Ident) (a : Nat) : Arr where
  state := if !goodCore m (arrayCore a) then 0 else if 0x8000 ≤ a then 7 else if a / 4 % 32 = 31 then 3 else 1
  slot := 0xFF
  partner := 0xFFFF
  slice := 0xFFFF
  golden := 0xFFFF
  image := []
  mapTo := none
  gamma := 0
  beta := 0
  gammaBase := 0
  betaBase := 0
  baseAt := none
  age := 0
  programs := 0
  refreshes := 0
  lastReason := 0xFF
  queued := 0
  warned := false
  blockedAt := none
  outPos := some 0
  retiredPos := none
  calCount := 0
  positions := []
  groupPos := (List.range 32).map (· + 1)
  cal := .reset
  cells := .erased
  trimTemp := none
  trimBad := []
  drift := .reset
  lastForward := 0
  sentCalAt := 0
  rowCalAt := 0
  sentDue := false
  sentCal := (0, 0)
  rowCal := List.replicate 16 (0, 0)

/-- A spare no longer used: free, or withdrawn once it has reached 10,000 cycles (R243). -/
def Arr.freed (x : Arr) : Arr := { x with state := if 10000 ≤ x.programs then 11 else 7, slot := 0xFF, partner := 0xFFFF }

def Work.arr (s : Work) (a : Nat) : Arr := look (Arr.manufactured s.ident a) s.arrs a

def Work.setArr (s : Work) (a : Nat) (x : Arr) : Work := { s with arrs := put s.arrs a x }

def Work.modArr (s : Work) (a : Nat) (f : Arr → Arr) : Work := s.setArr a (f (s.arr a))

/-- A slice position's calibration. -/
def Arr.position (x : Arr) (q : Nat) : SlicePos := look .reset x.positions q

/-- The keys of every array, facets first (R113). -/
def allArrays : List Nat := List.range 8192 ++ (List.range 256).map (0x8000 + ·)

/-- The array that serves a facet (R270). Assumption log 88, DEDUCED. -/
def Work.serving (s : Work) (f : Nat) : Nat :=
  match (s.arr f).mapTo with
  | some n => 0x8000 + n
  | none => f

/-- The golden image of a facet group is present (R480). -/
def Work.goldenPresent (s : Work) (core slot : Nat) : Bool :=
  (s.slot slot).has 0x14 && !s.unverifiable.contains (core, slot)

/-- Mark a facet group unverifiable (R480). -/
def Work.markUnverifiable (s : Work) (core slot : Nat) : Work :=
  if s.unverifiable.contains (core, slot) then s else { s with unverifiable := s.unverifiable ++ [(core, slot)] }

/-- The weights of a row set of pair j of a facet, from the golden image. -/
def Work.goldenOf (s : Work) (f j r : Nat) : Int :=
  let x := s.arr f
  goldenWeight ((s.slot x.slot).section 0x14) x.golden j r

/-- Facets in a state, over facet IDs. -/
def Work.countState (s : Work) (st : Nat) : Nat :=
  ((List.range 8192).filter (fun f => (s.arr f).state = st)).length

/-- The smallest full-scale code that any op of a program uses for a slice (R239): forward codes of CIM_MVM and EXPERT,
the transposed code of CIM_MVMT. -/
def Program.sliceCodes (p : Program) (experts i : Nat) : List Nat :=
  p.ops.flatMap (fun o =>
    if o.opcode = 1 ∧ o.arg 14 2 = i then [field (o.arg 16 1) 2 0, field (o.arg 16 1) 5 3]
    else if o.opcode = 2 ∧ o.arg 14 2 = i then [field (o.arg 16 1) 2 0]
    else if o.opcode = 0x41 ∧ o.arg 14 2 ≤ i ∧ i < o.arg 14 2 + experts then [field (o.arg 16 1) 2 0, field (o.arg 16 1) 5 3]
    else [])

def minList (d : Nat) : List Nat → Nat
  | [] => d
  | x :: xs => xs.foldl min x

end Sys2Proof.Machine
end

