-- ==== Sys2Proof/Machine/Cells.lean ====
section
/-! DEFINITION. The cells of an array: conductance levels, signed weights, and what program-and-verify writes and reads (R76, R77, R79,
R100, R179, R253). -/

namespace Sys2Proof.Machine

/-- The P and the N cell level of a value in the canonical form (R77). -/
def canonicalLevels (v : Int) : Nat × Nat := if 0 ≤ v then (v.toNat, 0) else (0, (-v).toNat)

/-- What reference pair c holds at a row (R100). -/
def refLevel (c r : Nat) : Int := ([7, -7, 0, if r % 2 = 0 then 7 else -7, 1, 3, 5, -1] : List Int).getD c 0

/-- What pair j is written with at a row: a weight of the golden record in pairs 0 to 511, and in eighths the checksum level of the image
or the level of the reference pair (R77, R79, R100). -/
def Cells.pairTarget (c : Cells) (j r : Nat) : Int :=
  if j < 512 then goldenWeight c.record 0 j r
  else if j < 520 then signed 8 (leAt c.fine (1024 * (j - 512) + r) 1)
  else 8 * refLevel (j - 520) r

/-- The target of the cell at a row and physical column: column 2j is pair j's P cell, column 2j + 1 its N cell (R76). -/
def Cells.target (c : Cells) (r col : Nat) : Nat :=
  let t := canonicalLevels (c.pairTarget (col / 2) r)
  if col % 2 = 0 then t.1 else t.2

/-- The level of a cell: a data level 0 to 7, or in the sentinel columns a fine level 0 to 63 (R77, R79). -/
def Cells.level (c : Cells) (r col : Nat) : Nat :=
  if !c.written then 0
  else match c.off.find? (fun x => x.row = r && x.col = col) with
    | some x => x.level
    | none => c.target r col

/-- The signed value of pair j at a row: the P cell's level minus the N cell's (R77), in eighths for a sentinel pair (R79). -/
def Cells.weight (c : Cells) (j r : Nat) : Int := (c.level r (2 * j) : Int) - (c.level r (2 * j + 1) : Int)

/-- Whether a pair is in the canonical form (R77). -/
def Cells.canonical (c : Cells) (j r : Nat) : Bool := c.level r (2 * j) = 0 || c.level r (2 * j + 1) = 0

/-- The final read agrees with the golden record: no weight pair differs from its golden weight or is not canonical (R253). Pairs none of
whose cells is off agree. -/
def Cells.matchesGolden (c : Cells) : Bool :=
  c.written && c.off.all (fun x => 1024 ≤ x.col ||
    (c.canonical (x.col / 2) x.row && c.weight (x.col / 2) x.row = goldenWeight c.record 0 (x.col / 2) x.row))

/-- A golden record with the weight of pair j at row r replaced (R177). -/
def putWeight (b : List Byte) (j r : Nat) (v : Int) : List Byte :=
  b.modify (512 * j + r / 2) (fun x =>
    let w := x.toNat
    BitVec.ofNat 8 (if r % 2 = 0 then w / 16 * 16 + unsigned 4 v else w % 16 + 16 * unsigned 4 v))

/-- The quantised weights of an array in the form of a golden record, which the digest of its group is taken over (R178, R253). -/
def Cells.quantised (c : Cells) : List Byte :=
  if c.written then
    c.off.foldl (fun b x => if x.col < 1024 then putWeight b (x.col / 2) x.row (c.weight (x.col / 2) x.row) else b) c.record
  else List.replicate 262144 0

/-- The weights of pair j of a golden record, row by row (R177). -/
def pairWeights (b : List Byte) (j : Nat) : List Int :=
  (slice b (512 * j) 512).flatMap (fun x => [signed 4 (x.toNat % 16), signed 4 (x.toNat / 16)])

/-- The checksum levels of group g that a golden record gives: the row sums of pairs 64g to 64g + 63, an eighth of each rounded half to even
(R100). -/
def chkLevels (b : List Byte) (g : Nat) : List Int :=
  ((List.range 63).foldl (fun acc j => acc.zipWith (· + ·) (pairWeights b (64 * g + j + 1))) (pairWeights b (64 * g))).map
    (fun v => divHalfEven v 8)

/-- CHK0 to CHK7 recomputed from a golden record agree with those of its image record (R179, R253). -/
def chkAgree (record fine : List Byte) : Bool :=
  (List.range 8).all (fun g => chkLevels record g = (slice fine (1024 * g) 1024).map (fun x => signed 8 x.toNat))

end Sys2Proof.Machine
end

