-- ==== Sys2Proof/Machine/Bolt.lean ====
section
/-! DEFINITION. Bolt images: the header, sections, placement, program and shape rules a die checks at a load, with the
reasons of R216 (R171 to R192, R194, R199 to R219). -/

namespace Sys2Proof.Machine

/-! ## Header and section table (R172 to R174) -/

/-- A section table entry (R173). -/
structure SecEntry where
  ty : Nat
  die : Nat
  offset : Nat
  length : Nat
  clean : Bool
  deriving DecidableEq, Repr

def secEntryOf (r : List Byte) : SecEntry :=
  ⟨leAt r 0 1, leAt r 2 2, leAt r 8 8, leAt r 16 8, leAt r 1 1 = 0 && leAt r 4 4 = 0 && leAt r 24 8 = 0⟩

def sectionTable (header table : List Byte) : List SecEntry :=
  (List.range (leAt header 26 2)).map (fun i => secEntryOf (slice table (32 * i) 32))

/-- The section types of R174: common ones, and those of each die. -/
def commonTypes : List Nat := [0x01, 0x02, 0x03, 0x04, 0x05]

def dieTypes : List Nat := [0x10, 0x11, 0x12, 0x13, 0x14, 0x15, 0x16]

/-- The die parts a die index receives (R171). -/
def delivered (die : Nat) (t : List SecEntry) : List SecEntry := t.filter (fun e => e.die = 0xFFFF || e.die = die)

/-- The section table has exactly the content R174 allows. -/
def sectionsOk (header : List Byte) (t : List SecEntry) : Bool :=
  let dies := leAt header 22 2
  let count := fun (ty die : Nat) => (t.filter (fun e => e.ty = ty && e.die = die)).length
  commonTypes.all (fun ty => count ty 0xFFFF = 1) &&
    (List.range dies).all (fun d => dieTypes.all (fun ty => count ty d = 1)) &&
    count 0x7F 0xFFFF ≤ 1 && (decide (count 0x7F 0xFFFF = 1) == bitAt (leAt header 28 4) 0) &&
    t.all (fun e => e.clean && e.offset % 4096 = 0 &&
      ((commonTypes.contains e.ty || e.ty = 0x7F) && e.die = 0xFFFF || dieTypes.contains e.ty && decide (e.die < dies)))

/-- Reasons of R216 that the header and its table can raise: the codes that apply. -/
def Work.headerReasons (s : Work) (slot : Nat) (header table : List Byte) : List Nat :=
  let kind := leAt header 21 1
  let dies := leAt header 22 2
  let role := s.get Obj.role
  let bf := s.get Obj.boltFormat
  let bad := leAt header 0 4 ≠ 0x42585653 ∨ slice header 192 64 ≠ Config.sha512 (slice header 0 192) ∨ header.length ≠ 256 ∨
    leAt header 56 8 ≠ 0 ∨ leAt header 28 4 ≥ 32 ∨ kind > 1 ∨ leAt header 24 2 = 0 ∨
    (kind = 0 ∧ ¬ (1 ≤ dies ∧ dies ≤ 252)) ∨ (kind = 1 ∧ dies ≠ 1)
  let holdsOther := (List.range 4).any (fun n => decide (n ≠ slot ∧ s.get (Obj.slotState n) ≠ 0 ∧ s.get (Obj.slotState n) ≠ 6 ∧
    s.get (Obj.slotKind n) ≠ kind))
  (if bad then [0x10] else []) ++
  (if leAt header 4 2 < bf % 65536 ∨ bf / 65536 < leAt header 4 2 ∨ leAt header 20 1 ≠ 0x40 then [0x11] else []) ++
  (if (role = 3 ∧ kind = 1) ∨ ((role = 1 ∨ role = 2) ∧ kind = 0) ∨ (role = 0 ∧ holdsOther = true) then [0x12] else []) ++
  (if table.length ≠ 32 * leAt header 26 2 ∨ !sectionsOk header (sectionTable header table) then [0x13] else [])

/-- The manifest binds the table and every section (R175). -/
def manifestOk (header table manifest : List Byte) : Bool :=
  Config.sha512 manifest = slice header 128 64 && slice manifest 0 64 = Config.sha512 table

/-- A section matches its manifest entry. -/
def sectionDigestOk (t : List SecEntry) (manifest : List Byte) (ty die : Nat) (bytes : List Byte) : Bool :=
  match t.zipIdx.find? (fun p => p.1.ty = ty && (p.1.die = 0xFFFF || p.1.die = die)) with
  | some (e, i) => e.length = bytes.length && slice manifest (64 + 64 * i) 64 = Config.sha512 bytes
  | none => false

/-- The enrolled owner keys, in DER form (R566). -/
def ownerKeyList : Nat → List Byte → List (List Byte)
  | 0, _ => []
  | n + 1, b => let len := leAt b 0 2; slice b 4 len :: ownerKeyList n (b.drop (alignUp (4 + len) 4))

def Work.ownerKeys (s : Work) : List (List Byte) :=
  let b := (s.dom Obj.ownerKeys).bytes
  ownerKeyList (leAt b 0 1) (b.drop 8)

/-- A signature section over a message verifies under an enrolled key (R176). Assumption log 94, DESIGN CHOICE. -/
def Work.signatureOk (s : Work) (sig msg : List Byte) : Bool :=
  sig.length = 576 && s.ownerKeys.any (fun k => Config.sha512 k = slice sig 0 64 && Config.rsaPssVerify k msg (slice sig 64 512))

/-! ## Placement (R186 to R189) -/

/-- The facets of a placement with the slice and engine entry that name them, ascending. -/
def Placement.facetsOf (p : Placement) : List (Nat × Nat) :=
  ((List.range p.slices.length).flatMap (fun i =>
    (p.entriesOf i).flatMap (fun e => (maskBits e.mask).map (fun f => (4 * e.engine + f, i))))).mergeSort
      (fun a b => decide (a.1 ≤ b.1))
where
  maskBits (m : Nat) : List Nat := (List.range 4).filter (bitAt m)

/-- Whether a facet counts as free for a load of a slot (R189, R258, R273). -/
def Work.facetFree (s : Work) (slot : Nat) (own : Bool) (f : Nat) : Bool :=
  let x := s.arr f
  x.state = 1 || (x.state = 6 && x.slot = 0xFF) || (own && x.slot = slot)

/-- The lanes an entry produces. -/
def entryLanes (join : Nat) : Nat := if join = 0 then 512 else if join = 1 then 1024 else 2048

/-- A facet image record (R179): facet, slice, golden index. -/
def imageRecord (b : List Byte) (i : Nat) : Nat × Nat × Nat :=
  (leAt b (8208 * i) 2, leAt b (8208 * i + 2) 2, leAt b (8208 * i + 4) 4)

/-- The rules of R189 but for the facets being free. -/
def placementOk (m : Ident) (p : Placement) (image : List Byte) : Bool :=
  let fs := p.facetsOf
  let n := p.facets
  image.length = 8208 * n && fs.length = n &&
    fs.all (fun x => goodCore m (facetCore x.1) && bitAt p.coreMask (facetCore x.1) && decide (x.1 / 4 % 32 ≠ 31)) &&
    (fs.map (·.1)).eraseDups.length = n &&
    (List.range p.slices.length).all (fun i =>
      match p.slices[i]? with
      | none => true
      | some x =>
        let es := p.entriesOf i
        x.join < 3 && x.half < 2 && x.k % 32 = 0 &&
          es.all (fun e => e.engine < 2048 && e.engine / 1024 = x.half && e.inOff % 32 = 0 && e.mask < 16) &&
          (List.range x.n).all (fun l => es.any (fun e => decide (e.outOff ≤ l) && decide (l < e.outOff + entryLanes x.join))) &&
          (fs.filter (fun f => f.2 = i)).length ≤ 124 * ((List.range 32).filter (fun c => goodCore m (32 * x.half + c))).length) &&
    (List.range n).all (fun i =>
      let r := imageRecord image i
      fs[i]? = some (r.1, r.2.1) && r.2.2 < n)

/-! ## Golden records, checksums, outliers, scales, digests -/

/-- The checksum levels of an image record (R179). -/
def imageLevels (image : List Byte) (i : Nat) : List Byte := slice image (8208 * i + 16) 8192

/-- The checksum levels of an image record agree with the golden record (R100, R179). -/
def checksumOk (image golden : List Byte) (i : Nat) : Bool :=
  chkAgree (slice golden (262144 * (imageRecord image i).2.2) 262144) (imageLevels image i)

/-- No golden weight has the code 1000b (R177). -/
def goldenCodesOk (golden : List Byte) : Bool := golden.all (fun b => b.toNat % 16 ≠ 8 && b.toNat / 16 ≠ 8)

/-- Whether entries under markers keep R127 (order, rows, counts, reserved bits). -/
def storeLegal (store : List StoreEntry) : Bool :=
  let key := fun (e : StoreEntry) => 512 * e.facet + e.pair
  let markers := store.filter (·.marker)
  let weights := store.filter (fun e => !e.marker)
  (match store with | [] => true | e :: _ => e.marker) &&
    (markers.zip (markers.drop 1)).all (fun p => decide (key p.1 < key p.2)) &&
    (store.zip (store.drop 1)).all (fun p => p.1.marker || p.2.marker || decide (field p.1.word 22 13 < field p.2.word 22 13)) &&
    weights.length ≤ 41943 && store.length ≤ 43690 &&
    weights.all (fun e => field e.word 12 11 = 0 && field e.word 10 0 ≠ 1024) &&
    markers.all (fun e => field e.word 22 11 = 0)

/-- Numbers each above the one before. -/
def ascending (l : List Nat) : Bool := (l.zip (l.drop 1)).all (fun p => decide (p.1 < p.2))

/-- The records of an OUTLIERS section stand in ascending engine order and the merged stores of every engine named are legal (R127, R181). -/
def Work.outliersOk (s : Work) (slot : Nat) (section_ : List Byte) : Bool :=
  let recs := outlierRecords 2048 section_
  ascending (recs.map (·.1)) && sumNat (recs.map (fun r => alignUp (8 + 3 * r.2.length) 4)) = section_.length && recs.all (fun r =>
    let others := ((List.range 4).filter (· ≠ slot)).map (fun n => (n, outlierRaw ((s.slot n).section 0x13) r.1))
    let mine := storeEntries slot r.2 (0, 0)
    storeLegal mine && storeLegal (mergedStore ((slot, r.2) :: others)) &&
      -- two slots may not name the same facet
      others.all (fun o => (storeEntries o.1 o.2 (0, 0)).all (fun e => !mine.any (fun x => x.facet = e.facet))))

/-- Every outlier position of the facets of a placement holds golden weight 0 (R126, R127). -/
def outlierPositionsZero (image golden section_ : List Byte) (facets : Nat) : Bool :=
  (outlierRecords 2048 section_).all (fun r =>
    (storeOutliers (storeEntries 0 r.2 (0, 0)) 15).all (fun o =>
      match (List.range facets).find? (fun i => (imageRecord image i).1 = 4 * r.1 + o.facet) with
      | some i => goldenWeight golden (imageRecord image i).2.2 o.pair o.row = 0
      | none => true))

/-- A column scale is neither NaN nor infinite nor subnormal (R180). -/
def scaleOk (w : Nat) : Bool := field w 14 10 ≠ 31 && (field w 14 10 ≠ 0 || field w 9 0 = 0)

def scalesOk (p : Placement) (b : List Byte) : Bool :=
  b.length = scalesOffset p p.slices.length &&
    (List.range p.slices.length).all (fun i => match p.slices[i]? with
      | some x => (List.range x.n).all (fun l => scaleOk (leAt b (scalesOffset p i + 2 * l) 2))
      | none => true)

/-- The DIGESTS record of a core (R178). -/
def digestOf (b : List Byte) (core : Nat) : Option (List Byte) :=
  ((List.range (b.length / 72)).find? (fun i => leAt b (72 * i) 1 = core)).map (fun i => slice b (72 * i + 8) 64)

/-- The golden records of a group's facets, concatenated in ascending facet-ID order (R178). -/
def groupGolden (image golden : List Byte) (facets core : Nat) : List Byte :=
  (List.range facets).flatMap (fun i =>
    let r := imageRecord image i
    if facetCore r.1 = core then slice golden (262144 * r.2.2) 262144 else [])

/-- DIGESTS holds one record for each core that holds a facet of the slot and no other, in ascending order, with reserved bytes 0 (R178). -/
def digestRecordsOk (image digests : List Byte) (facets : Nat) : Bool :=
  let cores := sortAsc ((List.range facets).map (fun i => facetCore (imageRecord image i).1)).eraseDups
  digests.length = 72 * cores.length && (List.range cores.length).all (fun i =>
    leAt digests (72 * i) 1 = cores.getD i 64 && leAt digests (72 * i + 1) 7 = 0)

/-- The golden groups agree with DIGESTS (R260, R264). -/
def groupDigestsOk (image golden digests : List Byte) (facets : Nat) : Bool :=
  let cores := ((List.range facets).map (fun i => facetCore (imageRecord image i).1)).eraseDups
  digests.length = 72 * cores.length &&
    cores.all (fun c => digestOf digests c = some (Config.sha512 (groupGolden image golden facets c)))

/-! ## The program (R191 to R215) -/

/-- Bytes of n elements of a format (R193; block formats with their exponent bytes). -/
def formatBytes (fmt n : Nat) : Nat :=
  match fmt with
  | 0 => (n + 1) / 2 + (n + 31) / 32
  | 1 => n + (n + 31) / 32
  | 2 => n
  | 3 => n
  | 4 => 2 * n
  | 5 => 2 * n
  | 6 => 4 * n
  | 7 => 4 * n
  | 8 => 32768
  | 9 => 3 * n
  | 10 => 16 + 8 * n
  | 11 => 32
  | _ => 6 * n

/-- Bytes of a word of a floating or integer format (R151, R193). -/
def wordBytes (fmt : Nat) : Nat := if fmt ≤ 3 then 1 else if fmt ≤ 5 then 2 else 4

/-- Bytes of a vector of n elements where memory or SRAM holds it: block vectors in whole tiles (R149). -/
def heldBytes (fmt n : Nat) : Nat :=
  if fmt = 0 then 544 * ((n + 1023) / 1024) else if fmt = 1 then 1056 * ((n + 1023) / 1024) else formatBytes fmt n

/-- The opcodes of R195. -/
def opcodes : List Nat :=
  [0x01, 0x02, 0x10, 0x11, 0x20, 0x21, 0x22, 0x30, 0x40, 0x41, 0x50, 0x51, 0x52, 0x60, 0x61, 0x62, 0x70, 0x71, 0x72]

/-- Argument bytes that an opcode's tables name (R194). -/
def argBytes (opcode : Nat) : List Nat :=
  let span := fun (lo hi : Nat) => (List.range (hi + 1 - lo)).map (lo + ·)
  match opcode with
  | 0x01 => span 14 18 ++ span 20 23
  | 0x02 => span 14 18 ++ span 20 23
  | 0x10 => span 14 18 ++ span 20 23
  | 0x11 => [14, 15, 17, 18] ++ span 20 23
  | 0x20 => span 14 20
  | 0x21 => span 14 20
  | 0x22 => span 14 23
  | 0x30 => span 14 27
  | 0x40 => span 14 19
  | 0x41 => span 14 23
  | 0x50 => span 14 18
  | 0x51 => span 14 22
  | 0x52 => span 14 22 ++ [24, 25]
  | 0x60 => [14, 15]
  | 0x61 => span 14 25
  | 0x62 => span 14 17
  | 0x70 => [14, 15]
  | 0x71 => [14]
  | 0x72 => [14]
  | _ => []

def managerOp (opcode : Nat) : Bool := opcode = 0x70 || opcode = 0x71 || opcode = 0x72

/-- Encoding rules of an op record (R194, OP_ENCODING). -/
def opEncodingOk (i : Nat) (o : OpRec) : Bool :=
  opcodes.contains o.opcode && o.flags < 16 && (bitAt o.flags 3 == managerOp o.opcode) && o.seq = i % 65536 &&
    leAt o.bytes 30 2 = crc16 (slice o.bytes 0 30) &&
    ((List.range 14).map (14 + ·)).all (fun b => (argBytes o.opcode).contains b || o.arg b 1 = 0)

/-- A buffer handle is in the table, or names no buffer. -/
def Program.fmt (p : Program) (h : Nat) : Option Nat := (p.buffers[h]?).map (·.format)

def Program.isNone (_ : Program) (h : Nat) : Bool := h = 0xFFFF

def Program.kindOf (p : Program) (h : Nat) : Option Nat := (p.buffers[h]?).map (·.kind)

/-- The elements per vector of a buffer. -/
def Program.elementsOf (p : Program) (h : Nat) : Option Nat := (p.buffers[h]?).map (·.elements)

/-- A WIDE section's directory: formats of R182, offsets on 32-byte boundaries, reserved bytes 0, tensors within the section. -/
def wideOk (w : List Byte) : Bool :=
  w.isEmpty || ((slice w 4 12).all (fun b => b = 0) && (List.range (leAt w 0 4)).all (fun i =>
    let fmt := leAt w (18 + 16 * i) 1
    let cols := leAt w (24 + 16 * i) 4
    let row := if fmt = 1 then (cols + 1023) / 1024 * 1056 else if fmt = 4 then 2 * cols else 4 * cols
    [1, 4, 6].contains fmt && leAt w (19 + 16 * i) 1 = 0 && leAt w (28 + 16 * i) 4 % 32 = 0 &&
      decide (leAt w (28 + 16 * i) 4 + leAt w (20 + 16 * i) 4 * row ≤ w.length)))

/-- Every WEIGHTS buffer of a program names a tensor of a WIDE section in the buffer's format (R182, R192). -/
def tensorsNamed (p : Program) (w : List Byte) : Bool :=
  p.buffers.all (fun b => b.kind ≠ 3 || (List.range (leAt w 0 4)).any (fun i =>
    leAt w (16 + 16 * i) 2 = b.offset && leAt w (18 + 16 * i) 1 = b.format))

/-- FP32 word is a finite number. -/
def finiteWord (w : Nat) : Bool := field w 30 23 ≠ 255

/-- The fields and formats an op allows (R199 to R215, R394, OPERANDS). `sets` gives each die set's members and `tables` the number of
activation tables; draft programs may hold the manager's ops and no op that R195 keeps to main programs. The CORESET of the manager's ops,
which run on no core set, is not checked (assumption log 115, DEDUCED). -/
def operandsOk (p : Program) (pl : Placement) (sets : List Nat) (tables : Nat) (draft tune : Bool) (o : OpRec) : Bool :=
  let src := p.fmt o.src0
  let dst := p.fmt o.dst
  let srcIn := fun (l : List Nat) => match src with | some f => l.contains f | none => false
  let dstIs := fun (f : Nat) => dst = some f
  let setOk := fun (x : Nat) => x = 0xFF || x < sets.length
  let setSize := fun (x : Nat) => if x = 0xFF then 1 else sets.getD x 1
  let onCores := [0x01, 0x02, 0x41].contains o.opcode || managerOp o.opcode || decide (o.coreset < pl.coreSets.length)
  let sizes := fun (sl : Nat) (transposed : Bool) => match pl.slices[sl]? with
    | some x => p.elementsOf o.src0 = some (if transposed then x.n else x.k) && p.elementsOf o.dst = some (if transposed then x.k else x.n)
    | none => false
  let none1 := o.src1 = 0xFFFF
  let none2 := o.src2 = 0xFFFF
  let toManager := o.opcode = 0x11 && o.arg 15 1 = 1
  let handles := (if toManager then [o.src0, o.src1, o.src2] else [o.dst, o.src0, o.src1, o.src2]).all
    (fun h => h = 0xFFFF || decide (h < p.buffers.length))
  let both := src.isSome && dst.isSome
  let notBoth := if managerOp o.opcode then draft else true
  let main := if [0x02, 0x10, 0x11, 0x51].contains o.opcode then !draft else true
  let cim := fun (sl : Nat) => match pl.slices[sl]? with
    | some x => x.layer = o.layer && o.arg 16 1 < 64 && [1, 4, 6].contains (o.arg 17 1) && dstIs (o.arg 17 1) && o.arg 18 1 < 8 &&
        decide (1 ≤ o.arg 20 2) && (bitAt (o.arg 18 1) 1 || o.arg 22 2 = 0xFFFF)
    | none => false
  handles && notBoth && main && onCores &&
  match o.opcode with
  | 0x01 => cim (o.arg 14 2) && sizes (o.arg 14 2) false && srcIn [0, 1, 4, 5, 6] && none1 && none2
  | 0x02 => tune && cim (o.arg 14 2) && sizes (o.arg 14 2) true && srcIn [1, 4, 6] && [4, 6].contains (o.arg 17 1) && !bitAt (o.arg 18 1) 0 &&
      !bitAt (o.arg 18 1) 2 && (bitAt (o.arg 18 1) 1 || none1) && none2
  | 0x10 => setOk (o.arg 14 1) && o.arg 15 1 < 3 && (o.arg 15 1 = 2 || o.arg 16 1 < 2) && [1, 4, 6].contains (o.arg 17 1) &&
      src = some (o.arg 17 1) && dstIs (o.arg 17 1) && (o.arg 15 1 ≠ 2 || o.arg 17 1 = 6) && o.arg 18 1 < 3 && p.elementsOf o.src0 = some (o.arg 20 4) &&
      o.arg 20 4 % (32 * max 1 (setSize (o.arg 14 1))) = 0
  | 0x11 => setOk (o.arg 14 1) && o.arg 15 1 < 2 && o.arg 17 1 < 13 && src = some (o.arg 17 1) && (toManager || dstIs (o.arg 17 1)) && o.arg 18 1 < 3 && p.elementsOf o.src0 = some (o.arg 20 4)
  | 0x20 => both && o.arg 14 1 < 2 && finiteWord (o.arg 15 4) && [0, 1, 4, 5].contains (o.arg 19 1) && dstIs (o.arg 19 1) &&
      setOk (o.arg 20 1) && p.kindOf o.src1 = some 3 && p.fmt o.src1 = some 1 && none2
  | 0x21 => both && (o.arg 14 1 < 7 || decide (0x80 ≤ o.arg 14 1 ∧ o.arg 14 1 < 0x80 + tables)) && o.arg 15 1 < 3 && ((o.arg 15 1 = 0) == none1) &&
      [0, 1, 4, 5, 6].contains (o.arg 16 1) && dstIs (o.arg 16 1) && none2
  | 0x22 => both && 32 ≤ o.arg 14 2 && o.arg 14 2 ≤ 256 && o.arg 14 2 % 32 = 0 && o.arg 16 2 % 2 = 0 && o.arg 16 2 ≤ o.arg 14 2 &&
      o.arg 22 1 < 2 && o.arg 23 1 < 2 && none1 && none2
  | 0x30 => both && !none1 && !none2 && 1 ≤ o.arg 14 1 && o.arg 14 1 ≤ 64 && 1 ≤ o.arg 15 1 && o.arg 14 1 % o.arg 15 1 = 0 && 32 ≤ o.arg 16 2 &&
      o.arg 16 2 ≤ 256 && o.arg 16 2 % 32 = 0 && (o.arg 18 1 = 1 || o.arg 18 1 = 2) && o.arg 19 1 < 5 &&
      ((o.arg 19 1 = 2 || o.arg 19 1 = 3) || o.arg 20 2 = 0) && field (o.arg 26 1) 6 5 = 0 && 1 ≤ field (o.arg 26 1) 4 0 &&
      field (o.arg 26 1) 4 0 ≤ 16 && (if field (o.arg 26 1) 4 0 = 1 then o.arg 27 1 = 0xFF else decide (o.arg 27 1 < sets.length))
  | 0x40 => both && !none1 && 2 ≤ o.arg 14 2 && o.arg 14 2 ≤ 256 && 1 ≤ o.arg 16 1 && o.arg 16 1 ≤ 8 && o.arg 17 1 < 3 && dstIs 9
  | 0x41 => both && o.arg 16 1 < 64 && [1, 4, 6].contains (o.arg 17 1) && dstIs (o.arg 17 1) && srcIn [0, 1, 4, 5, 6] && o.arg 18 1 < 8 && o.arg 19 1 < 2 && 1 ≤ o.arg 20 2 &&
      decide (o.arg 14 2 < pl.slices.length) && p.fmt o.src1 = some 9 && (bitAt (o.arg 18 1) 1 || o.arg 22 2 = 0xFFFF)
  | 0x50 => o.arg 14 4 ≤ 262144 && [4, 5].contains (o.arg 18 1) && dstIs (o.arg 18 1) && srcIn [7] && p.kindOf o.src1 = some 3
  | 0x51 => [8, 14, 16, 32].contains (o.arg 14 1) && 1 ≤ o.arg 15 1 && o.arg 15 1 ≤ 32 && o.arg 16 2 % o.arg 14 1 = 0 &&
      o.arg 18 2 % o.arg 14 1 = 0 && o.arg 16 2 ≤ 4096 && o.arg 18 2 ≤ 4096 && o.arg 20 1 < 2 && [4, 5].contains (o.arg 22 1) &&
      srcIn [4, 5] && p.kindOf o.src1 = some 3 && p.fmt o.src2 = some 6 && dstIs (o.arg 22 1) && (o.arg 20 1 = 0 || (decide (o.arg 21 1 ≠ 0) && o.arg 16 2 / o.arg 14 1 % o.arg 21 1 = 0 &&
        o.arg 18 2 / o.arg 14 1 % o.arg 21 1 = 0))
  | 0x52 => o.arg 22 1 < 2 && (o.arg 22 1 = 0 || (decide (1 ≤ o.arg 24 2) && decide (o.arg 24 2 ≤ 1024))) &&
      src.isSome && dstIs (if o.arg 22 1 = 0 then 6 else 10) && p.kindOf o.src1 = some 3 && (none2 || p.fmt o.src2 = some 8)
  | 0x60 => src.isSome && o.arg 14 1 < 7 && o.arg 15 1 < 2 && dstIs (o.arg 14 1)
  | 0x61 => both && src = dst && p.kindOf o.src0 ≠ some 3 && p.kindOf o.dst ≠ some 3
  | 0x62 => o.arg 14 1 < 4 && (o.arg 14 1 ≠ 2 || setOk (o.arg 15 1))
  | 0x70 => o.arg 14 1 < 4 && o.arg 15 1 < 8 && srcIn [11] && dstIs 12
  | 0x71 => setOk (o.arg 14 1) && srcIn [11] && (none1 || p.fmt o.src1 = some 12) && dstIs 8
  | 0x72 => srcIn [10] && (none1 || p.fmt o.src1 = some 12) && p.fmt o.src2 = some 11 && p.kindOf (o.arg 14 1) = some 5
  | _ => false

/-- MB_DEPTH and the kinds and formats of the buffer table are in range (R191 to R193). -/
def tableOk (p : Program) : Bool :=
  1 ≤ p.depth && p.depth ≤ 16 && p.buffers.all (fun b => b.format < 13 && b.kind < 6)

/-- The buffers fit their regions (R192). -/
def buffersOk (p : Program) (coreBytes scratchBytes : Nat) : Bool :=
  p.buffers.all (fun b =>
    let n := heldBytes b.format b.elements * b.vectors * (if b.perMb then p.depth else 1)
    if b.kind = 0 then decide (b.offset + n ≤ coreBytes)
    else if b.kind = 1 then decide (b.offset + n ≤ 8 * 2 ^ 20)
    else if b.kind = 2 then decide (b.offset + n ≤ scratchBytes) else true)

/-- Bytes per vector routed through the west and east edge routers (R190). -/
def edgeBytes (p : Program) (pl : Placement) : Nat × Nat :=
  p.ops.zipIdx.foldl (fun acc x =>
    let o := x.1
    if o.opcode = 0x10 ∨ o.opcode = 0x11 then
      let n := formatBytes (o.arg 17 1) (o.arg 20 4)
      let west := if o.arg 18 1 = 0 then p.srcHalf pl x.2 o = 0 else o.arg 18 1 = 1
      if west then (acc.1 + n, acc.2) else (acc.1, acc.2 + n)
    else acc) (0, 0)

/-- The west share in 1/256 as SLOT_EDGE_SHARE holds it; of nothing routed it is open (assumption log 85, DESIGN CHOICE). -/
def edgeShare (b : Nat × Nat) : Nat :=
  if b.1 + b.2 = 0 then Config.wholeOpen 0 0 % 256 else wholeIn 8 (((256 * b.1 : Nat) : Rat) / ((b.1 + b.2 : Nat) : Rat))

def edgeOk (b : Nat × Nat) (limit : Nat) : Bool := 256 * max b.1 b.2 ≤ limit * (b.1 + b.2) || b.1 + b.2 = 0

/-! ## Shape (R218, R219) -/

/-- The bytes a stored position takes in KV pages on this die: twice those of the half whose layers take the more (R468). A B8 element comes
with its share of an exponent byte (assumption log 116, DEDUCED). -/
def kvBytes (p : Program) (pl : Placement) : Nat :=
  let of := fun (half : Nat) => sumNat ((p.ops.filter (fun o => o.opcode = 0x30 && bitAt (o.arg 26 1) 7)).map (fun o =>
    if (pl.slices.find? (fun x => x.layer = o.layer)).any (fun x => x.half = half) then 2 * formatBytes (o.arg 18 1) (o.arg 15 1 * o.arg 16 2) else 0))
  2 * max (of 0) (of 1)

def shapeOk (header sh : List Byte) (p : Program) (pl : Placement) (sets : Nat) : Bool :=
  let flags := leAt sh 0 4
  let uses := fun (op : Nat) => p.ops.any (fun o => o.opcode = op)
  let layers := leAt sh 4 2
  let enc := leAt sh 6 2
  let vocab := leAt sh 12 4
  let qh := leAt sh 16 2
  let kvh := leAt sh 18 2
  let hd := leAt sh 20 2
  let kvb := leAt sh 28 4
  let attns := p.ops.filter (fun o => o.opcode = 0x30)
  let keeps := attns.filter (fun o => bitAt (o.arg 26 1) 7)
  let patches := p.ops.filter (fun o => o.opcode = 0x51)
  let moe := bitAt flags 0
  let img := bitAt flags 3
  sh.length = 128 && flags < 16 && flags = field (leAt header 28 4) 4 1 && layers = leAt header 24 2 && layers ≤ 4096 &&
    enc ≤ layers && (bitAt flags 1 || enc = 0) && 1 ≤ leAt sh 8 4 && leAt sh 8 4 ≤ 65536 &&
    (if uses 0x50 || uses 0x52 then decide (1 ≤ vocab ∧ vocab ≤ 262144) else vocab = 0) &&
    p.ops.all (fun o => (o.opcode ≠ 0x50 || o.arg 14 4 = vocab) && (o.opcode ≠ 0x52 || o.arg 14 4 + o.arg 18 4 ≤ vocab)) &&
    (if attns.isEmpty then qh = 0 else qh ≠ 0 && kvh ≠ 0 && qh % kvh = 0) &&
    32 ≤ hd && hd ≤ 256 && hd % 32 = 0 && attns.all (fun o => o.arg 16 2 = hd) &&
    1 ≤ leAt sh 22 1 && leAt sh 22 1 ≤ 64 && (attns.isEmpty || leAt sh 22 1 = maxNat (attns.map (fun o => o.arg 14 1))) &&
    (if keeps.isEmpty then leAt sh 23 1 = 0 else keeps.all (fun o => o.arg 18 1 = leAt sh 23 1)) &&
    (moe || (!uses 0x40 && !uses 0x41)) && (img || !uses 0x51) && (keeps.isEmpty || decide (kvBytes p pl ≤ kvb)) &&
    p.ops.all (fun o => o.opcode ≠ 0x40 || (o.arg 14 2 = leAt sh 24 2 && o.arg 16 1 = leAt sh 26 1)) &&
    (if moe then decide (2 ≤ leAt sh 24 2 ∧ leAt sh 24 2 ≤ 256 ∧ 1 ≤ leAt sh 26 1 ∧ leAt sh 26 1 ≤ 8)
     else leAt sh 24 2 = 0 && leAt sh 26 1 = 0) &&
    leAt sh 27 1 = 0 && 2 ≤ kvb && kvb ≤ 65536 && (!keeps.isEmpty || kvb = 2) &&
    1 ≤ leAt sh 32 4 && leAt sh 32 4 ≤ 1048576 && 1 ≤ leAt sh 36 4 && leAt sh 36 4 ≤ 16384 &&
    (if img then [8, 14, 16, 32].contains (leAt sh 40 2) && patches.all (fun o => o.arg 14 1 = leAt sh 40 2) else leAt sh 40 2 = 0) &&
    (if img then decide (1 ≤ leAt sh 42 1 ∧ leAt sh 42 1 ≤ 32) && patches.all (fun o => o.arg 15 1 = leAt sh 42 1) else leAt sh 42 1 = 0) && leAt sh 43 1 = 0 &&
    leAt sh 44 4 = p.ops.length && p.ops.length ≤ 65536 && leAt sh 48 2 = sets && sets ≤ 255 && 1 ≤ leAt sh 50 2 && pl.slices.length ≤ leAt sh 50 2 &&
    (slice sh 52 76).all (fun b => b = 0)

/-- Die sets in a DIE_SETS section (R202). -/
def dieSetCount (b : List Byte) : Nat := leAt b 0 2

/-- The members of a die set: die indices (R202). -/
def dieSetMembers (b : List Byte) (i : Nat) : List Nat :=
  (List.range 256).filter (fun d => bitAt (leAt b (16 + 32 * i + d / 8) 1) (d % 8))

/-- The member counts of the sets of a DIE_SETS section. -/
def setSizes (b : List Byte) : List Nat := (List.range (dieSetCount b)).map (fun i => (dieSetMembers b i).length)

/-- A set holds every die whose placement holds a slice that feeds the set's reduction: for this die, the sets of the reductions its slices
feed name it (R202). -/
def setsHoldDie (p : Program) (pl : Placement) (sets : List Byte) (die : Nat) : Bool :=
  p.ops.all (fun o => o.opcode ≠ 0x10 || o.arg 14 1 = 0xFF || !feeds o.src0 || (dieSetMembers sets (o.arg 14 1)).contains die)
where
  feeds (h : Nat) : Bool := p.ops.any (fun x => x.dst = h && ((x.opcode = 1 && decide (x.arg 14 2 < pl.slices.length)) ||
    (x.opcode = 0x41 && decide (x.arg 14 2 < pl.slices.length))))

/-- The reserved fields of a PROGRAM section's header and buffer table are 0 (R191, R192). -/
def programReserved (b : List Byte) : Bool :=
  leAt b 7 1 = 0 && leAt b 12 4 = 0 &&
    (List.range (leAt b 4 2)).all (fun i => leAt b (34 + 16 * i) 1 < 2 && leAt b (35 + 16 * i) 1 = 0)

/-- The program's reasons of R216: encoding, operands, buffers. -/
def Work.programReasons (s : Work) (b : List Byte) (pl : Placement) (sets : List Nat) (tables : Nat) (draft tune : Bool) : List Nat :=
  let p := programOf b
  let core := 4 * 2 ^ 20 - 1024 * s.dram.bufferKib
  (if programReserved b && p.ops.zipIdx.all (fun x => opEncodingOk x.2 x.1) then [] else [0x1E]) ++
  (if tableOk p && p.ops.all (operandsOk p pl sets tables draft tune) then [] else [0x1F]) ++
  -- a SCRATCH buffer lies in one half (R467), so it fits that half's part of the region: assumption log 148, DEDUCED
  (if buffersOk p core (s.dram.scratchGib * 2 ^ 29) then [] else [0x20])

/-- The lowest of a list of reasons. -/
def lowest : List Nat → Option Nat
  | [] => none
  | r :: rs => some (rs.foldl min r)

end Sys2Proof.Machine
end

