-- ==== Sys2Proof/Machine/Ecc.lean ====
section
/-! DEFINITION. The code of memory codewords: its field, its check bytes, its poison marker and its decoding (R469 to R471). -/

namespace Sys2Proof.Machine

/-- Twice an element of GF(2^8) with field polynomial x^8 + x^4 + x^3 + x^2 + 1. -/
def gfDouble (a : Nat) : Nat := if 128 ≤ a then (2 * a) ^^^ 0x11D else 2 * a

/-- The product of two elements, over the low `n` bits of the second. -/
def gfMulBits : Nat → Nat → Nat → Nat
  | 0, _, _ => 0
  | n + 1, a, b => (if b % 2 = 1 then a else 0) ^^^ gfMulBits n (gfDouble a) (b / 2)

def gfMul (a b : Nat) : Nat := gfMulBits 8 a b

/-- A power of the generator element. -/
def gfPow : Nat → Nat
  | 0 => 1
  | n + 1 => gfDouble (gfPow n)

/-- The inverse of an element, its power 254: the product of its squares from the first to the seventh. -/
def gfInv (b : Nat) : Nat :=
  ((List.range 7).foldl (fun (acc : Nat × Nat) (_ : Nat) => let q := gfMul acc.2 acc.2; (gfMul acc.1 q, q)) (1, b)).1

/-- The power of x that a symbol of a codeword stands for: 32 data bytes in address order, then 4 check bytes. Assumption log 147,
DESIGN CHOICE. -/
def symbolPower (i : Nat) : Nat := 35 - i

/-- Syndrome `k` of a word of symbols, the first of which stands for the highest power. -/
def syndrome (word : List Nat) (k : Nat) : Nat :=
  word.foldl (fun (acc : Nat) (v : Nat) => gfMul acc (gfPow k) ^^^ v) 0

def syndromes (word : List Nat) : List Nat := (List.range 4).map (syndrome word)

/-- The syndromes of one symbol in error. -/
def oneError (i v : Nat) : List Nat := (List.range 4).map (fun (k : Nat) => gfMul v (gfPow (k * symbolPower i)))

def xorLists (a b : List Nat) : List Nat := List.zipWith (fun (x y : Nat) => x ^^^ y) a b

/-- The single symbol whose error has given syndromes. -/
def findOne (syn : List Nat) : Option (Nat × Nat) :=
  ((List.range 36).map (fun (i : Nat) => (i, syn.getD 0 0))).find? (fun (e : Nat × Nat) => decide (e.2 ≠ 0) && oneError e.1 e.2 = syn)

/-- The two symbols whose errors together have given syndromes. -/
def findTwo (syn : List Nat) : Option ((Nat × Nat) × (Nat × Nat)) :=
  ((List.range 36).flatMap (fun (i : Nat) => (List.range i).map (fun (j : Nat) =>
    let xi := gfPow (symbolPower i)
    let xj := gfPow (symbolPower j)
    let vj := gfMul (syn.getD 1 0 ^^^ gfMul (syn.getD 0 0) xi) (gfInv (xi ^^^ xj))
    ((i, syn.getD 0 0 ^^^ vj), (j, vj))))).find? (fun (e : (Nat × Nat) × (Nat × Nat)) =>
      decide (e.1.2 ≠ 0) && decide (e.2.2 ≠ 0) && xorLists (oneError e.1.1 e.1.2) (oneError e.2.1 e.2.2) = syn)

/-- The marker that a poisoned codeword's check bytes are combined with (R471), as an error pattern of 36 symbols. -/
def poisonMarker : List Nat := List.replicate 32 0 ++ [0x5A, 0xA5, 0x3C, 0xC3]

/-- What a controller makes of a codeword (R470): nothing wrong, symbols it corrects, a poison marker, or none of these. -/
inductive Decoded where
  | clean
  | corrected (fixes : List (Nat × Nat))
  | poisoned
  | uncorrectable
  deriving DecidableEq, Repr

/-- The decoding of a codeword that reads `flips` (36 symbol differences) away from the one stored, which carries the poison marker or
not. The code is linear, so the data and the address, being those the check bytes were formed of, take no part. -/
def decodeFlips (flips : List Nat) (marked : Bool) : Decoded :=
  let syn := syndromes (if marked then xorLists flips poisonMarker else flips)
  let unmarked := xorLists syn (syndromes poisonMarker)
  if syn.all (· = 0) then .clean
  else match findOne syn with
    | some e => .corrected [e]
    | none =>
      match findTwo syn with
      | some (a, b) => .corrected [a, b]
      | none => if unmarked.all (· = 0) || (findOne unmarked).isSome then .poisoned else .uncorrectable

/-- What is left of an error pattern once corrections are made. -/
def leftOver (flips : List Nat) (fixes : List (Nat × Nat)) : List Nat :=
  fixes.foldl (fun (l : List Nat) (e : Nat × Nat) => l.set e.1 (l.getD e.1 0 ^^^ e.2)) flips

/-- The symbols of a codeword's address: bits [38:5] in five bytes. -/
def addressSymbols (codeword : Nat) : List Nat := (toLE 5 (codeword % 2 ^ 34)).map BitVec.toNat

/-- One step of the division by (x + 1)(x + α)(x + α^2)(x + α^3): the remainder's four symbols, highest power first. -/
def rsStep (rem : List Nat) (v : Nat) : List Nat :=
  let f := v ^^^ rem.getD 0 0
  xorLists (rem.drop 1 ++ [0]) (([15, 54, 120, 64] : List Nat).map (gfMul f))

/-- The check bytes of 32 data bytes at a codeword (R469), as stored: combined with the marker when poisoned (R471). -/
def checkBytes (codeword : Nat) (data : List Nat) (poisoned : Bool) : List Nat :=
  let rem := (addressSymbols codeword ++ data).foldl rsStep [0, 0, 0, 0]
  if poisoned then xorLists rem (poisonMarker.drop 32) else rem

end Sys2Proof.Machine
end

