-- ==== Sys2Proof/Machine/Network.lean ====
section
/-! DEFINITION. The bulk mesh, the Selvedge network and the seam (R8, R19 to R34). -/

namespace Sys2Proof.Machine

/-- The row of a core (R8). -/
def coreRow (c : Nat) : Nat := 2 * (c / 8 % 2) + c % 8 / 4

/-- The column of a core (R8). -/
def coreCol (c : Nat) : Nat :=
  let inward := 4 * (c / 16 % 2) + c % 4
  if c < 32 then inward else 15 - inward

/-- The cluster whose router holds a stop (R8, R12). -/
def stopCluster (row col : Nat) : Nat :=
  let half := col / 8
  let inward := if half = 0 then col else 15 - col
  4 * half + 2 * (inward / 4) + row / 2

/-- The router island of a stop (R17). -/
def stopRouter (row col : Nat) : Nat := 0x80 + stopCluster row col

/-! ## Where the stacks, links and ports stand (R7, R9 to R11) -/

/-- The half of a stack. -/
def stackHalf (n : Nat) : Nat := n / 6

/-- Whether a stack stands on the north edge of its half. -/
def stackNorth (n : Nat) : Bool := decide (n % 6 < 3)

/-- The place of a stack on its edge, from the west. -/
def stackPlace (n : Nat) : Nat := n % 3

/-- The row that a memory controller attaches to: the one nearest its stack (R9). -/
def stackRow (n : Nat) : Nat := if stackNorth n then 0 else 3

/-- The first of the two adjacent columns that a memory controller attaches to (R9, R10). -/
def stackCol (n : Nat) : Nat := 8 * stackHalf n + 3 * stackPlace n

/-- The column of the stops that the edge router of a half attaches to (R11). -/
def edgeCol (half : Nat) : Nat := if half = 0 then 0 else 15

/-- The edge router island of a half (R17). -/
def edgeRouter (half : Nat) : Nat := 0xAE + half

/-- The connector that carries a Heddle link (R11). -/
def linkConnector (l : Nat) : Nat := 2 + l / 4

/-- The stop of an end: row and column. -/
def meshStop : MeshEnd → Nat × Nat
  | .core c => (coreRow c, coreCol c)
  | .sram row col => (row, col)
  | .stack n second => (stackRow n, stackCol n + bit second)
  | .link l row => (row, edgeCol (l / 8))
  | .port p row => (row, edgeCol p)

/-- The islands behind the stop of an end that an access goes into. -/
def endIslands : MeshEnd → List Nat
  | .core c => [0x40 + c]
  | .sram _ _ => []
  | .stack n _ => [0x88 + n]
  | .link l _ => [edgeRouter (l / 8), 0x98 + l]
  | .port p _ => [edgeRouter p, 0xA8 + p]

/-! ## Routes and injection (R20 to R22, R34, R41) -/

/-- The numbers from one to another, both included, in the order they are passed. -/
def passed (a b : Nat) : List Nat :=
  if a ≤ b then (List.range (b + 1 - a)).map (a + ·) else (List.range (a + 1 - b)).map (a - ·)

/-- The stops of a transfer's route: column first, then row (R22). -/
def routeStops (a b : Nat × Nat) : List (Nat × Nat) :=
  (passed a.2 b.2).map (fun col => (a.1, col)) ++ ((passed a.1 b.1).drop 1).map (fun row => (row, b.2))

/-- The islands that a transfer goes through: the routers of its route, the seam where it crosses, and those behind its ends. -/
def meshIslands (t : MeshTransfer) : List Nat :=
  let a := meshStop t.src
  let b := meshStop t.dst
  (routeStops a b).map (fun p => stopRouter p.1 p.2) ++ (if a.2 / 8 = b.2 / 8 then [] else [0xAC]) ++ endIslands t.src ++ endIslands t.dst

/-- Whether the shared SRAM behind an end has power (R21). -/
def Work.sramOpen (s : Work) (e : MeshEnd) : Bool :=
  match e with
  | .sram row col => !s.net.sramOff.contains (stopCluster row col)
  | _ => true

/-- A transfer's payload and poison counted on its plane and, when it crosses, on the seam (R22, R25, R38). -/
def Work.carry (s : Work) (t : MeshTransfer) : Work :=
  let a := meshStop t.src
  let b := meshStop t.dst
  let plane := Config.meshPlane (16 * b.1 + b.2) t.flowTag % 8
  let s := s.add (Obj.meshPlaneBytes plane) t.bytes
  let s := if t.poisonFlits = 0 then s else s.add Obj.meshPoisonFlits t.poisonFlits
  if a.2 < 8 ∧ 8 ≤ b.2 then s.add Obj.seamBytesWe t.bytes
  else if 8 ≤ a.2 ∧ b.2 < 8 then s.add Obj.seamBytesEw t.bytes
  else s

/-- Whether a transfer can be injected and delivered: accesses into every island it goes through complete (R20, R34, R41). -/
def Work.canCarry (s : Work) (t : MeshTransfer) : Bool :=
  (meshIslands t).all s.islandOpen && s.sramOpen t.src && s.sramOpen t.dst

/-- BULK_MESH_TRANSFER: carried on its plane, or waiting at its source for a stopped island (R20, R22, R34). -/
def Work.meshTransfer (s : Work) (t : MeshTransfer) : Work :=
  if s.canCarry t then s.carry t else { s with net := { s.net with waiting := s.net.waiting ++ [t] } }

/-- Transfers that waited and now can be carried, in the order they were sent (R23, R34). -/
def Work.releaseMesh (s : Work) : Work :=
  let go := s.net.waiting.filter (fun t => s.canCarry t)
  let stay := s.net.waiting.filter (fun t => !s.canCarry t)
  go.foldl Work.carry { s with net := { s.net with waiting := stay } }

/-- Whether the module has an end (R4, R12). -/
def endExists (m : Ident) : MeshEnd → Bool
  | .core c => goodCore m c
  | .sram row col => decide (row < 4) && decide (col < 16)
  | .stack n _ => decide (n < 12)
  | .link l row => decide (l < 16) && decide (row < 4)
  | .port p row => decide (p < 2) && decide (row < 4)

def execBulkMeshTransfer (t : MeshTransfer) (s : State) : Host.Outcome State Fault Refusal :=
  s.nextIf (endExists s.ident t.src && endExists s.ident t.dst) (fun w => w.meshTransfer t)

/-- Whether either half's router islands are divided (R29, R32). -/
def Work.routersDivided (s : Work) : Bool := (s.domain 0).divided || (s.domain 1).divided

/-- The available seam throughput (R32). -/
def Work.seamRateNow (s : Work) : Nat := if s.routersDivided then 1536 else 3072

/-- The Selvedge bound in force (R29). -/
def Work.selvedgeBoundNow (s : Work) : Nat := if s.routersDivided then 60 else 40

/-- SEAM_RATE: the object follows the throughput, and a change is counted and reported (R33); SELVEDGE_BOUND follows
(R29). -/
def Work.refreshRates (s : Work) : Work :=
  let s := s.set Obj.selvedgeBound s.selvedgeBoundNow
  if s.get Obj.seamRate = s.seamRateNow then s
  else
    let s := s.set Obj.seamRate s.seamRateNow
    let s := s.add Obj.seamRateChanges 1
    s.log 0 0x0006 0 0xFF 0 0xFFFF s.seamRateNow

/-- When a source injects a message of a class that it has to send: at once while fewer than two of them are in flight, else when that
is so again (R27). `times` are the deliveries of those in flight, ascending. -/
def injectAt (atNs : Nat) (times : List Nat) : Nat := if times.length < 2 then atNs else max atNs (times.getD (times.length - 2) atNs)

/-- The credits of a source and class: a message takes one from its injection to its delivery (R27). -/
def Work.selvedgeCredit (s : Work) (m : SelvedgeMsg) : Work :=
  let mine := fun (f : SelvedgeFlight) => decide (f.src = m.src) && decide (f.cls = m.cls)
  let out := s.net.flights.filter (fun (f : SelvedgeFlight) => !mine f)
  let held := s.net.flights.filter (fun (f : SelvedgeFlight) => mine f && decide (m.atNs < f.untilNs))
  let times := sortAsc (held.map (·.untilNs))
  let new : SelvedgeFlight := ⟨m.src, m.cls, injectAt m.atNs times + m.latencyNs⟩
  { s with net := { s.net with flights := out ++ held ++ [new] } }

/-- SELVEDGE_MESSAGE: delivered whatever its latency; a late one is counted and logged (R27, R31). The spec gives the record's unit as an
island and does not say which: it is the router of the destination's stop, or of the source's for a broadcast (assumption log 112, DESIGN
CHOICE). -/
def Work.selvedgeMessage (s : Work) (m : SelvedgeMsg) : Work :=
  let s := (s.selvedgeCredit m).send (.selvedge m)
  let s := s.raise Obj.selvedgeMax m.latencyNs
  if m.latencyNs ≤ s.selvedgeBoundNow then s
  else
    let stop := m.dst.getD m.src
    let s := s.add Obj.selvedgeOverruns 1
    s.log 2 0x004C 5 0xFF (stopRouter (stop / 16) (stop % 16)) 0xFFFF m.latencyNs

def execSelvedgeMessage (m : SelvedgeMsg) (s : State) : Host.Outcome State Fault Refusal :=
  s.nextIf (m.src < 64 && m.dst.getD 0 < 64) (fun w => w.selvedgeMessage m)

end Sys2Proof.Machine
end

