-- ==== Sys2Proof/Machine/Thermal.lean ====
section
/-! DEFINITION. The power governor and the throttle ladder (R512 to R520). -/

namespace Sys2Proof.Machine

/-! ## The governor -/

/-- The draw of the facets being programmed, mW (R512). -/
def Work.programDraw (s : Work) : Nat := s.get Obj.programDrawMw * s.programming.length

/-- The mean input power over the window, mW (R512). -/
def Work.meanPower (s : Work) : Rat :=
  if s.power.samples.isEmpty then 0 else (sumNat s.power.samples : Rat) / (s.power.samples.length : Rat)

/-- POWER_SAMPLE: the first stage's 100 µs report, and the peak check that acts at once (R512). Assumption log 15, DEDUCED. -/
def Work.powerSample (s : Work) (mw mv ma : Nat) : Work :=
  let s := { s with power := { s.power with
    samples := (mw :: s.power.samples).take 100
    vinMv := mv, vinMa := ma, energy := s.power.energy + mw } }
  let s := s.raise Obj.peakInputMw mw
  let bound := 1000 * s.get Obj.powerBoundW
  if bound + s.programDraw < mw then
    let s := s.add Obj.peakEvents 1
    if s.get Obj.governorSkip < 4 then
      { s.set Obj.governorSkip 4 with power := { s.power with sinceChange := 0 } }
    else s
  else if bound < mw then
    { s.add Obj.peakEvents 1 with power := { s.power with withhold := true } }
  else if s.power.withhold ∧ s.power.samples.all (fun x => x + s.get Obj.programDrawMw < bound) then
    { s with power := { s.power with withhold := false } }
  else s

def execPowerSample (mw mv ma : Nat) (s : State) : Host.Outcome State Fault Refusal :=
  s.next (fun w => w.powerSample mw mv ma)

/-- Set the governor's skip level and note the change. -/
def Work.setGovernor (s : Work) (g : Nat) : Work :=
  { s.set Obj.governorSkip g with power := { s.power with sinceChange := 0 } }

/-- A millisecond passes in every domain (R531, R532; assumption log 9, DEDUCED). -/
def Work.thermalMs (s : Work) : Work :=
  (List.range 4).foldl (fun s d =>
    let x := s.domain d
    let s := s.setDomain d { x with ms := min (x.ms + 1) 65535 }
    if x.state = .skipping ∨ x.state = .divided then s.add (Obj.enforcedMs d) 1 else s) s

/-- What the governor's decision does: raise g, lower it, count a decision at its end, or nothing (R512). Powers in mW. -/
inductive GovAct where
  | raise | lower | unreached | keep
  deriving DecidableEq, Repr

def governorAct (cap : Nat) (mean : Rat) (prog g since : Nat) : GovAct :=
  if (cap : Rat) < mean ∧ (cap : Rat) + (prog : Rat) < mean then (if g < 7 then .raise else .unreached)
  else if mean + 25000 < (cap : Rat) + (prog : Rat) ∧ 10 ≤ since ∧ 0 < g then .lower
  else .keep

/-- GOVERNOR_DECISION, every millisecond (R512, R514). Assumption log 9, DEDUCED. -/
def Work.governorDecision (s : Work) : Work :=
  let s := s.thermalMs
  let g := s.get Obj.governorSkip
  let s := if g ≠ 0 then s.add Obj.capLimitedMs 1 else s
  let s := { s with power := { s.power with sinceChange := s.power.sinceChange + 1 } }
  match governorAct (1000 * s.get Obj.powerCapW) s.meanPower s.programDraw g s.power.sinceChange with
  | .raise => s.setGovernor (g + 1)
  | .lower => s.setGovernor (g - 1)
  | .unreached => s.add Obj.capUnreached 1
  | .keep => s

def execGovernorDecision (s : State) : Host.Outcome State Fault Refusal := s.next Work.governorDecision

/-! ## The ladder -/

/-- At or above T_on: the domain's own temperature or a stack of its half (R515, R516). -/
def ThermDomain.hot (d : ThermDomain) : Bool := 105 * 16 ≤ d.temp || 105 * 16 ≤ d.stackTemp

/-- At or below T_off. -/
def ThermDomain.cool (d : ThermDomain) : Bool := d.temp ≤ 100 * 16 && d.stackTemp ≤ 100 * 16

/-- At or above the Warning On value. -/
def ThermDomain.warm (d : ThermDomain) : Bool := 95 * 16 ≤ d.temp || 100 * 16 ≤ d.stackTemp

/-- At or below the Warning Off value. -/
def ThermDomain.calm (d : ThermDomain) : Bool := d.temp ≤ 90 * 16 && d.stackTemp ≤ 95 * 16

/-- A stack holds the domain at Throttle (R532). -/
def ThermDomain.byStack (d : ThermDomain) : Bool := d.requesting && decide (100 * 16 < d.stackTemp)

/-- A domain with a new state; the time in state restarts when it changes (R532). -/
def ThermDomain.to (d : ThermDomain) (st : ThermState) : ThermDomain :=
  if d.state = st then d else { d with state := st, ms := 0 }

/-- The state a domain leaves the ladder for (R518). -/
def ThermDomain.settle (d : ThermDomain) : ThermDomain :=
  { d.to (if d.calm then .normal else .warning) with lowering := false, divideDue := false }

/-- Install a domain's new state with what follows from it: the seam rate (R519), and a worker's report when it enters
or leaves REQUEST or enforcement (R520). -/
def Work.putDomain (s : Work) (d : Nat) (x : ThermDomain) : Work :=
  let old := s.domain d
  let s := (s.setDomain d x).refreshRates
  let enforced := fun (y : ThermDomain) => decide (y.skip ≠ 0) || y.divided
  if (old.requesting ≠ x.requesting ∨ enforced old ≠ enforced x) ∧ s.isWorker ∧ s.formed then
    s.toMember 0 (.throttle x.requesting)
  else s

/-- Divide a domain's clocks (R518). -/
def Work.divideDomain (s : Work) (d : Nat) (x : ThermDomain) : Work :=
  (s.add (Obj.divisions d) 1).putDomain d ({ x with divided := true }.to .divided)

/-- A confirmed result judged on the ladder (R517, R518). -/
def Work.ladder (s : Work) (d : Nat) (x : ThermDomain) : Work :=
  match x.state with
  | .normal =>
    if x.hot then
      ((s.attend 2).add (Obj.throttleEntries d) 1).putDomain d ({ x with divideDue := false, lowering := false }.to .request)
    else if x.warm then (s.attend 2).putDomain d (x.to .warning)
    else s.putDomain d x
  | .warning =>
    if x.hot then
      (s.add (Obj.throttleEntries d) 1).putDomain d ({ x with divideDue := false, lowering := false }.to .request)
    else if x.calm then s.putDomain d (x.to .normal)
    else s.putDomain d x
  | .request =>
    if x.cool then s.putDomain d x.settle
    else if d < 2 && x.divideDue && x.hot then s.divideDomain d x
    else s.putDomain d x
  | .skipping | .divided =>
    if x.cool then
      let y := { x with divided := false, lowering := true }
      if y.skip = 0 then s.putDomain d y.settle else s.putDomain d (y.to .skipping)
    else
      let y := { x with lowering := false }
      if d < 2 && y.divideDue && y.hot && !y.divided then s.divideDomain d y else s.putDomain d y
  | .shutdown => s.putDomain d x

/-- THERMAL_CROSSING: a confirmed result of the domain's diodes or of its hottest stack (R515, R518). Assumption log 95, DEDUCED. -/
def Work.thermalCrossing (s : Work) (d : Nat) (temp : Int) (byStack : Bool) : Work :=
  let x := s.domain d
  if byStack then s.ladder d { x with stackTemp := temp }
  else
    (s.hottest d temp).ladder d { x with temp := temp, stale := false }

/-- GRACE_EXPIRY: enforcement begins when the domain is still above T_off in REQUEST (R518). -/
def Work.graceExpiry (s : Work) (d : Nat) : Work :=
  let x := s.domain d
  if x.state = .request ∧ !x.cool then
    if d < 2 then s.putDomain d ({ x with skip := 1 }.to .skipping) else s.divideDomain d x
  else s

def execGraceExpiry (domain : Nat) (s : State) : Host.Outcome State Fault Refusal :=
  s.nextIf (domain < 4) (fun w => w.graceExpiry domain)

/-- SKIP_STEP_TICK: a lower tick while the domain has fallen to T_off, a raise tick otherwise (R518; assumption log 8, DEDUCED). -/
def Work.skipStepTick (s : Work) (d : Nat) : Work :=
  let x := s.domain d
  if 2 ≤ d then s
  else if x.lowering then
    if x.cool then
      let y := { x with skip := x.skip - 1 }
      if y.skip = 0 ∧ !y.divided then s.putDomain d y.settle else s.putDomain d y
    else s
  else if (x.state = .skipping ∨ x.state = .divided) ∧ x.hot then
    s.putDomain d { x with skip := min (x.skip + 1) 7 }
  else s

def execSkipStepTick (domain : Nat) (s : State) : Host.Outcome State Fault Refusal :=
  s.nextIf (domain < 4) (fun w => w.skipStepTick domain)

/-- DIVIDE_AFTER_EXPIRY: DIVIDE_AFTER_MS since REQUEST has passed (R518). -/
def Work.divideAfterExpiry (s : Work) (d : Nat) : Work :=
  let x := s.domain d
  if 2 ≤ d ∨ !x.requesting ∨ x.state = .shutdown then s
  else
    let x := { x with divideDue := true }
    if x.hot && !x.divided then s.divideDomain d x else s.setDomain d x

def execDivideAfterExpiry (domain : Nat) (s : State) : Host.Outcome State Fault Refusal :=
  s.nextIf (domain < 4) (fun w => w.divideAfterExpiry domain)

/-- THROTTLE_STATE_CHANGE at the manager: a worker's report (R520). -/
def Work.throttleStateChange (s : Work) (worker : Nat) (requesting : Bool) : Work :=
  if !s.isManager then s
  else
    let others := s.group.throttled.filter (fun d => d ≠ worker)
    { s with group := { s.group with throttled := if requesting then worker :: others else others } }

def execThrottleStateChange (worker : Nat) (requesting : Bool) (s : State) : Host.Outcome State Fault Refusal :=
  s.next (fun w => w.throttleStateChange worker requesting)

/-- THERMAL_STATE of a domain (R532). Assumption log 14, DEDUCED. -/
def thermalStateWord (d : ThermDomain) : Nat :=
  let code := match d.state with
    | .normal => 0
    | .warning => 1
    | .request => 2
    | .skipping => 3
    | .divided => 4
    | .shutdown => 5
  code + 16 * d.skip + 128 * bit d.divided + 256 * bit d.stale + 512 * bit d.byStack + 65536 * d.ms

/-- SUPPLY_STATUS (R531). -/
def Work.supplyStatus (s : Work) : Nat :=
  bit (decide (s.power.vinMv < 38000)) + 2 * bit (decide (62000 < s.power.vinMv))
    + 4 * bit s.power.regulatorFault + 8 * bit s.power.supplyLatched

end Sys2Proof.Machine
end

