-- ==== Sys2Proof/Machine/Housekeeping.lean ====
section
/-! DEFINITION. The housekeeping monitor (R533 to R547). -/

namespace Sys2Proof.Machine

/-- One half's monitor. -/
def Work.hkHalf (s : Work) (h : Nat) : HkHalf := s.hk.getD h .reset

def Work.setHk (s : Work) (h : Nat) (x : HkHalf) : Work := { s with hk := setAt .reset s.hk h x }

/-! ## SEQUENCE (R535, R537) -/

/-- An entry record of 8 bytes (R535), or none when a reserved field is not 0. -/
def hkCfgOf (bytes : List Byte) : Option HkEntryCfg :=
  let w := ofLE bytes
  if bitAt w 6 || bitAt w 11 || field w 15 14 ≠ 0 || field w 19 18 ≠ 0 || field w 63 23 ≠ 0 || 6 < field w 22 20 then none
  else some ⟨field w 5 0, bitAt w 7, field w 10 8, field w 13 12, field w 17 16 + 1, field w 22 20⟩

/-- The bytes of an entry record. -/
def hkCfgBytes (c : HkEntryCfg) : List Byte :=
  toLE 8 (c.channel + 128 * bit c.enable + 256 * c.sample + 4096 * c.gain + 65536 * (c.conversions - 1) + 1048576 * c.accLog2)

/-- The sixteen records of a SEQUENCE value. -/
def hkSequenceOf (bytes : List Byte) : Option (List HkEntryCfg) :=
  if bytes.length ≠ 128 then none
  else (List.range 16).mapM (fun i => hkCfgOf (slice bytes (8 * i) 8))

/-- The island cycles of a conversion: sampling and 16 cycles (R535, R536). -/
def hkCycles (c : HkEntryCfg) : Nat := 32 * 2 ^ c.sample + 16

/-- The busy time of a round in island cycles of 10 ns (R537). -/
def hkBusy (cfgs : List HkEntryCfg) : Nat :=
  sumNat ((cfgs.filter (·.enable)).map (fun c => c.conversions * hkCycles c))

/-- The channels that enabled entries must name (R537). -/
def hkNeeded : List Nat := [0, 1, 2, 3, 4, 6, 7, 8, 9, 10, 11, 12, 13, 15, 18]

/-- Commit validation of SEQUENCE: the detail of the refusal, or the records (R537). `stacksOff` in L4 (R544). -/
def hkValidate (roundUs : Nat) (stacksOff : Bool) (bytes : List Byte) : Except Nat (List HkEntryCfg) :=
  match hkSequenceOf bytes with
  | none => .error 2
  | some cfgs =>
    let on := cfgs.filter (·.enable)
    if on.any (fun c => decide (38 ≤ c.channel)) then .error 3
    else if 3 * (100 * roundUs) < 4 * hkBusy cfgs then .error 4
    else if !stacksOff && !hkNeeded.all (fun n => on.any (fun c => c.channel = n)) then .error 5
    else .ok cfgs

/-- Whether a value of ROUND_US is refused with RANGE: below 4/3 of the committed busy time (R537). -/
def Work.roundRefused (s : Work) (h v : Nat) : Bool :=
  let cfgs := (s.hkHalf h).committed.getD ((s.hkHalf h).entries.map (·.cfg))
  3 * (100 * v) < 4 * hkBusy cfgs

/-! ## Rounds and results -/

/-- Whether an entry takes part: enabled, and no stack channel while the stacks are off (R536, R544). -/
def HkEntry.takesPart (e : HkEntry) (stacksOff : Bool) : Bool :=
  e.cfg.enable && !(stacksOff && decide (6 ≤ e.cfg.channel ∧ e.cfg.channel ≤ 11))

/-- An entry under a newly committed record (R544). -/
def HkEntry.withCfg (e : HkEntry) (c : HkEntryCfg) : HkEntry :=
  if e.cfg = c then e
  else if e.cfg.channel = c.channel then { e with cfg := c, sum := 0, count := 0, minV := none, maxV := none }
  else { HkEntry.reset c with publishes := e.publishes }

/-- A committed SEQUENCE takes effect (R537). -/
def HkHalf.applyCommitted (x : HkHalf) : HkHalf :=
  match x.committed with
  | none => x
  | some cfgs => { x with entries := List.zipWith HkEntry.withCfg x.entries cfgs, committed := none }

/-- The entry whose conversion is due: the first, in entry order, with conversions left in the round (R536). -/
def HkHalf.due (x : HkHalf) (stacksOff : Bool) : Option Nat :=
  (List.range 16).find? (fun i =>
    match x.entries[i]? with
    | some e => e.takesPart stacksOff && e.done < e.cfg.conversions
    | none => false)

/-- ACCUMULATOR_PUBLISH (R539). Assumption log 11, DESIGN CHOICE. -/
def HkEntry.publish (e : HkEntry) (serving : Nat) : HkEntry :=
  let n : Nat := 2 ^ e.cfg.accLog2
  { e with
    value := openWhole ((e.sum : Rat) / (n : Rat))
    sum := 0, count := 0, publishes := (e.publishes + 1) % 65536, valid := true, stale := false, slice := serving }

/-- A conversion into an entry's accumulator and tracker (R539). -/
def HkEntry.convert (e : HkEntry) (v : Int) (serving : Nat) : HkEntry :=
  let e := { e with
    sum := e.sum + v, count := e.count + 1, done := e.done + 1
    minV := some (match e.minV with | some m => min m v | none => v)
    maxV := some (match e.maxV with | some m => max m v | none => v) }
  if e.count = 2 ^ e.cfg.accLog2 then e.publish serving else e

/-- The most recent result of a channel of a half (R540), when an entry holds one. -/
def HkHalf.resultOf (x : HkHalf) (channel : Nat) : Option HkEntry :=
  x.entries.find? (fun e => e.cfg.channel = channel && e.valid)

/-- The results of a domain's diodes (R515): channels 0 to 3 of a half, or channel 4 for its edge router. -/
def Work.domainResults (s : Work) (d : Nat) : List HkEntry :=
  if d < 2 then (List.range 4).filterMap (fun c => (s.hkHalf d).resultOf c)
  else ((s.hkHalf (d - 2)).resultOf 4).toList

/-- A domain's temperature follows its results (R515). -/
def Work.followDomain (s : Work) (d : Nat) : Work :=
  match s.domainResults d with
  | [] => s
  | r :: rs =>
    let t := rs.foldl (fun m e => max m e.value) r.value
    (s.hottest d t).setDomain d { s.domain d with temp := t, stale := (r :: rs).any (·.stale) }

/-- A diode's published result joins its sensor's minute (R247): the half, or its edge router. -/
def Work.minuteResult (s : Work) (h : Nat) (e : HkEntry) : Work :=
  if e.cfg.channel < 5 then
    let i := if e.cfg.channel < 4 then h else 2 + h
    { s with life := { s.life with minute := s.life.minute.modify i (fun p => (p.1 + e.value, p.2 + 1)) } }
  else s

/-- HK_CONVERSION: a conversion of the entry that is due (R539). -/
def Work.hkConversion (s : Work) (h e : Nat) (v : Int) : Work :=
  let x := s.hkHalf h
  if !x.running || !x.inRound || x.due s.dram.off ≠ some e then s
  else
    let x' := { x with entries := x.entries.modify e (fun y => y.convert v x.serving) }
    let s := match x.entries[e]?, x'.entries[e]? with
      | some a, some b => if a.publishes ≠ b.publishes then s.minuteResult h b else s
      | _, _ => s
    let x := x'
    ((s.setHk h x).followDomain h).followDomain (h + 2)

def execHkConversion (half entry : Nat) (value : Int) (s : State) : Host.Outcome State Fault Refusal :=
  s.nextIf (half < 2 && entry < 16) (fun w => w.hkConversion half entry value)

/-! ## Urgent conversions (R541) -/

/-- URGENT_CONVERSION: a request of firmware; the first four are the queue, others wait in firmware. -/
def Work.urgentConversion (s : Work) (h : Nat) (u : Urgent) : Work :=
  let x := s.hkHalf h
  if !x.running || 38 ≤ u.channel then s else s.setHk h { x with urgent := x.urgent ++ [u] }

def execUrgentConversion (half channel sample gain requestNs : Nat) (s : State) :
    Host.Outcome State Fault Refusal :=
  s.nextIf (half < 2) (fun w => w.urgentConversion half ⟨channel, sample, gain, requestNs⟩)

/-- URGENT_RESULT: the oldest request is served; its result goes to firmware only. -/
def Work.urgentResult (s : Work) (h : Nat) (resultNs : Nat) : Work :=
  let x := s.hkHalf h
  match x.urgent with
  | [] => s
  | u :: rest =>
    if !x.running then s
    else ((s.setHk h { x with urgent := rest }).add (Obj.urgentConversions h) 1).raise (Obj.urgentMaxNs h) (resultNs - u.requestNs)

def execUrgentResult (half : Nat) (_value : Int) (resultNs : Nat) (s : State) : Host.Outcome State Fault Refusal :=
  s.nextIf (half < 2) (fun w => w.urgentResult half resultNs)

/-! ## Calibration with the spare slice (R542, R543) -/

/-- Conversions of the round in progress are still to be made. -/
def HkHalf.midRound (x : HkHalf) (stacksOff : Bool) : Bool := x.inRound && (x.due stacksOff).isSome

/-- The slices exchange roles, the incoming one with its fitted correction; accumulations in progress are discarded (R542, R543). -/
def HkHalf.exchange (x : HkHalf) (fit : Int × Int) : HkHalf :=
  let other := 1 - x.serving
  { x with
    serving := other, swap := none
    corrections := x.corrections.set other fit
    entries := x.entries.map (fun e => { e with sum := 0, count := 0, stale := e.valid }) }

/-- The exchange of roles takes place. -/
def Work.swapSlices (s : Work) (h : Nat) (fit : Int × Int) : Work :=
  ((s.setHk h ((s.hkHalf h).exchange fit)).add (Obj.calSwaps h) 1).followDomain h |>.followDomain (h + 2)

/-- CAL_SWAP: the calibrating slice's fit, and the exchange of roles when it passes, which waits for the round boundary (R542, R544). The
offset is in LSB, the gain in ppm. -/
def Work.calSwap (s : Work) (h : Nat) (offset gain : Int) : Work :=
  let x := s.hkHalf h
  if !x.running || x.failed.isSome then s
  else if 32 < offset ∨ offset < -32 ∨ 20000 < gain ∨ gain < -20000 then
    (s.setHk h { x with failed := some (1 - x.serving), swap := none }).add (Obj.calFailures h) 1
  else if x.midRound s.dram.off then s.setHk h { x with swap := some (offset, gain) }
  else s.swapSlices h (offset, gain)

def execCalSwap (half : Nat) (offsetLsb gainPpm : Int) (s : State) : Host.Outcome State Fault Refusal :=
  s.nextIf (half < 2) (fun w => w.calSwap half offsetLsb gainPpm)

/-- HK_ROUND: a round starts; the one before it is complete, with no conversion left to make, and an exchange and a SEQUENCE that waited for
the boundary take effect (R536, R537, R542). Assumption log 10, DESIGN CHOICE. -/
def Work.hkRound (s : Work) (h : Nat) (late : Bool) : Work :=
  let x := s.hkHalf h
  if !x.running || x.midRound s.dram.off then s
  else
    let s := if x.inRound then s.add (Obj.rounds h) 1 else s
    let s := match x.swap with
      | some fit => s.swapSlices h fit
      | none => s
    let x := (s.hkHalf h).applyCommitted
    let x := { x with inRound := true, entries := x.entries.map (fun e =>
      { e with done := 0, valid := e.valid && e.takesPart s.dram.off || e.valid && !e.cfg.enable }) }
    let s := s.setHk h x
    if late then s.add (Obj.roundOverruns h) 1 else s

def execHkRound (half : Nat) (late : Bool) (s : State) : Host.Outcome State Fault Refusal :=
  s.nextIf (half < 2) (fun w => w.hkRound half late)

/-- MINMAX_RESET's action: the trackers the argument names restart (R546). -/
def Work.minmaxRestart (s : Work) (h arg : Nat) : Work :=
  let x := s.hkHalf h
  s.setHk h { x with entries := x.entries.mapIdx (fun i e => if bitAt arg i then { e with minV := none, maxV := none } else e) }

/-! ## Status words -/

/-- HK_STATUS (R547). -/
def hkStatusWord (x : HkHalf) : Nat :=
  x.serving + 2 * bit x.failed.isNone + 4 * bit x.failed.isSome + 8 * bit x.committed.isSome
    + 16 * min x.urgent.length 4 + 256 * (x.entries.filter (·.stale)).length

/-- ENTRY_RESULT (R540). -/
def hkResultWord (e : HkEntry) : Nat :=
  unsigned 32 e.value + 2 ^ 32 * e.publishes + 2 ^ 48 * bit e.valid + 2 ^ 49 * bit e.stale + 2 ^ 50 * e.slice

/-- The temperature of a stack, 1/16 °C, from its half's monitor (R475, R533). -/
def Work.stackTemp16 (s : Work) (stack : Nat) : Int :=
  match (s.hkHalf (stack / 6)).resultOf (6 + stack % 6) with
  | some e => e.value
  | none => 0

/-- STACK_TEMP, °C (R479). -/
def Work.stackTempC (s : Work) (stack : Nat) : Nat :=
  let t := s.stackTemp16 stack
  unsigned 8 (openWhole ((t : Rat) / 16))

end Sys2Proof.Machine
end

