-- ==== Sys2Proof/Machine/Memory.lean ====
section
/-! DEFINITION. The memory stacks: the address map, regions, the error code's outcomes, scrub and refresh
(R463 to R479). -/

namespace Sys2Proof.Machine

/-! ## The address map (R463) -/

def halfBase : Nat := 0x3000000000

/-- The half of an address. -/
def addrHalf (a : Nat) : Nat := if a < halfBase then 0 else 1

/-- The stack of an address. -/
def addrStack (a : Nat) : Nat :=
  let o := a - addrHalf a * halfBase
  6 * addrHalf a + (o / 4096) % 6

/-- The offset of an address in its stack. -/
def addrStackOffset (a : Nat) : Nat :=
  let o := a - addrHalf a * halfBase
  (o / 4096) / 6 * 4096 + o % 4096

/-- Whether an address lies in the 384 GiB of the device. -/
def addrValid (a : Nat) : Bool := a < 2 * halfBase

/-! ## Regions (R465) -/

/-- The regions' sizes per die in GiB, in order: SYSTEM, MODEL, SCRATCH, WINDOW, DELTA, KV. -/
def StackState.sizes (x : StackState) : List Nat :=
  [8, x.modelGib, x.scratchGib, x.windowGib, x.deltaGib,
   384 - (8 + x.modelGib + x.scratchGib + x.windowGib + x.deltaGib)]

/-- The start offset and size of a region (order 1 to 6) within each half, in bytes. -/
def StackState.region (x : StackState) (order : Nat) : Nat × Nat :=
  (sumNat (x.sizes.take (order - 1)) * 2 ^ 29, x.sizes.getD (order - 1) 0 * 2 ^ 29)

/-- The order number of the region of an address. -/
def StackState.regionOf (x : StackState) (a : Nat) : Nat :=
  let o := a - addrHalf a * halfBase
  match (List.range 6).find? (fun i => let r := x.region (i + 1); decide (r.1 ≤ o) && decide (o < r.1 + r.2)) with
  | some i => i + 1
  | none => 6

/-- Whether a range lies wholly inside one half's part of a region. -/
def StackState.inRegion (x : StackState) (order addr len : Nat) : Bool :=
  let r := x.region order
  (List.range 2).any (fun h => decide (h * halfBase + r.1 ≤ addr) && decide (addr + len ≤ h * halfBase + r.1 + r.2))

/-- REGION_MAP (R479). -/
def StackState.regionMap (x : StackState) : List Byte :=
  (List.range 6).flatMap (fun i => toLE 8 (x.region (i + 1)).1 ++ toLE 8 (x.region (i + 1)).2)

/-! ## The error log (R474) -/

/-- Record a codeword in ERROR_LOG, latest first, 256 kept. -/
def Work.logError (s : Work) (address kind symbols : Nat) : Work :=
  let r : ErrRec :=
    { address := address / 32, stack := addrStack address, kind := kind, region := s.dram.regionOf address
      symbols := symbols, when_ := s.get Obj.poweredSeconds % 2 ^ 32 }
  { s with dram := { s.dram with errors := (r :: s.dram.errors).take 256 } }

/-- The bytes of a record (R474). -/
def errRecBytes (r : ErrRec) : List Byte :=
  toLE 5 r.address ++ toLE 1 r.stack ++ toLE 1 r.kind ++ toLE 1 r.region ++ toLE 1 r.symbols ++ toLE 3 0 ++ toLE 4 r.when_

/-- Note that a poisoned codeword stands in ERROR_LOG (R477). -/
def Work.notePoison (s : Work) (codeword : Nat) : Work :=
  { s with dram := { s.dram with loggedPoison := addPoison s.dram.loggedPoison codeword } }

/-- Store a codeword poisoned (R471). -/
def Work.poisonCodeword (s : Work) (codeword : Nat) : Work :=
  (s.memOp (.poison codeword)).add Obj.poisonWrites 1

/-- An uncorrectable codeword: written back poisoned, counted and logged (R470, R474). -/
def Work.uncorrectable (s : Work) (address kind : Nat) : Work :=
  let s := s.poisonCodeword (address / 32)
  let s := s.add Obj.uncorrectable 1
  let s := (s.logError address kind 0xFF).notePoison (address / 32)
  s.log 2 0x0044 6 0xFF (addrStack address) 0xFFFF (s.dram.regionOf address)

/-- The data symbols of a codeword. -/
def Work.dataSymbols (s : Work) (codeword : Nat) : List Nat := (s.memRead (32 * codeword) 32).map BitVec.toNat

/-- A codeword as the stack holds it: its data and the check bytes in the stack's metadata bits (R469, R471). -/
def Work.storedCodeword (s : Work) (codeword : Nat) : List Nat :=
  s.dataSymbols codeword ++ checkBytes codeword (s.dataSymbols codeword) (s.mem.poison.contains codeword)

/-- A codeword's data is written back as read, `flips` away from what stood. -/
def Work.writeBack (s : Work) (codeword : Nat) (flips : List Nat) : Work :=
  s.memOp (.write (32 * codeword) ((xorLists (s.dataSymbols codeword) (flips.take 32)).map (BitVec.ofNat 8)))

/-- What a scrub read of a codeword does (R470); `flips` are the symbol differences between what is read and what is stored. A poisoned
codeword found again is not counted again (R477; assumption log 13, DEDUCED). An error pattern past the code's reach may decode as one within
it: the wrong data then stands as the code has it. -/
def Work.decodeCodeword (s : Work) (address : Nat) (flips : List Nat) : Work :=
  let c := address / 32
  let marked := s.mem.poison.contains c
  match decodeFlips flips marked with
  | .clean => s
  | .corrected fixes =>
    let left := leftOver flips fixes
    let s := if (left.take 32).all (· = 0) && !marked then s else s.writeBack c left
    ((s.add Obj.correctedSymbols fixes.length).add Obj.correctedCodewords 1).logError address 1 fixes.length
  | .poisoned =>
    if s.dram.loggedPoison.contains c then s
    else ((s.add Obj.poisonReads 1).logError address 4 0).notePoison c
  | .uncorrectable =>
    (if (flips.take 32).all (· = 0) then s else s.writeBack c flips).uncorrectable address 3

/-! ## Reading and writing for a unit of the die -/

/-- Count bytes of a range on their stacks, granule by granule (R463, R479). -/
def Work.countRange (s : Work) (obj : Nat → Key) : Nat → Nat → Nat → Work
  | 0, _, _ => s
  | fuel + 1, addr, len =>
    if len = 0 then s
    else
      let here := min len (4096 - addr % 4096)
      Work.countRange (s.add (obj (addrStack addr)) here) obj fuel (addr + here) (len - here)

/-- A demand read of a range: its bytes, whether any codeword is poisoned, and the counts (R470). -/
def Work.memLoad (s : Work) (addr len : Nat) : List Byte × Bool × Work :=
  let bad := s.mem.poison.filter (fun c => decide (32 * c < addr + len) && decide (addr < 32 * c + 32))
  let s' := Work.countRange s Obj.stackReadBytes (len / 4096 + 2) addr len
  (s.memRead addr len, !bad.isEmpty, if bad.isEmpty then s' else s'.add Obj.poisonReads bad.length)

/-- A write of a range; a codeword written in part keeps its poison, which is a poisoned write of it (R471, R474). -/
def Work.memStore (s : Work) (addr : Nat) (bytes : List Byte) : Work :=
  let kept := s.mem.poison.filter (fun c =>
    decide (32 * c < addr + bytes.length) && decide (addr < 32 * c + 32) && !coversCodeword addr bytes.length c)
  let s := (s.memOp (.write addr bytes))
  let s := kept.foldl (fun (s : Work) (c : Nat) => ((s.add Obj.poisonWrites 1).logError (32 * c) 4 0).notePoison c) s
  Work.countRange s Obj.stackWriteBytes (bytes.length / 4096 + 2) addr bytes.length

/-- A poisoned write of one codeword, logged (R471, R474). -/
def Work.memStorePoison (s : Work) (codeword : Nat) : Work :=
  ((s.poisonCodeword codeword).logError (32 * codeword) 4 0).notePoison codeword

/-! ## Scrubbing (R473) -/

/-- SCRUB_READ: one codeword of a stack's pass; `passEnd` marks the stack's last, `perMille` the pass's progress. -/
def Work.scrubRead (s : Work) (stack address : Nat) (syn : List Byte) (passEnd : Bool) (perMille : Nat) : Work :=
  if s.dram.off || s.dram.selfRefresh || (s.get Obj.scrubEnable = 0 && !s.cmdBusy Obj.scrubNow) then s
  else
    let s := s.decodeCodeword address (syn.map BitVec.toNat)
    let s := s.set Obj.scrubProgress (min perMille 1000)
    let s := if s.cmdBusy Obj.scrubNow then s.cmdTo Obj.scrubNow 2 (min (perMille / 10) 100) else s
    if !passEnd then s
    else
      let finished := addPoison s.dram.scrubDone stack
      if finished.length < 12 then { s with dram := { s.dram with scrubDone := finished } }
      else
        let s := { s with dram := { s.dram with scrubDone := [] } }
        let s := (s.add Obj.scrubPasses 1).set Obj.scrubProgress 0
        if s.cmdBusy Obj.scrubNow then s.cmdEnd Obj.scrubNow 3 0 else s

/-- SCRUB_NOW's action: a full pass from the start. -/
def Work.scrubStart (s : Work) (o : Origin) : Work :=
  let s := s.cmdStart Obj.scrubNow 2 o
  { s.set Obj.scrubProgress 0 with dram := { s.dram with scrubDone := [] } }

/-! ## Refresh (R475) -/

/-- The refresh rate for a temperature in 1/16 °C, given the rate in force: a band is entered at its lower bound and left
3 °C below it. Assumption log 12, DEDUCED. -/
def refreshBand (rate : Nat) (t : Int) : Nat :=
  let four := 95 * 16 ≤ t ∨ (rate = 4 ∧ 92 * 16 < t)
  let two := 85 * 16 ≤ t ∨ (2 ≤ rate ∧ 82 * 16 < t)
  if four then 4 else if two then 2 else 1

/-- REFRESH_BAND_CHANGE: the controller follows its stack's temperature; in self-refresh the stack does so itself. -/
def Work.refreshBandChange (s : Work) (stack : Nat) : Work :=
  if s.dram.off || s.dram.selfRefresh then s
  else s.set (Obj.refreshRate stack) (refreshBand (s.get (Obj.refreshRate stack)) (s.stackTemp16 stack))

def execRefreshBandChange (stack : Nat) (s : State) : Host.Outcome State Fault Refusal :=
  s.nextIf (stack < 12) (fun w => w.refreshBandChange stack)

end Sys2Proof.Machine
end

