-- ==== Sys2Proof/Machine/Dma.lean ====
section
/-! DEFINITION. The DMA engine (R443 to R462), and the tenant windows its sides name (R416, R418). -/

namespace Sys2Proof.Machine

/-! ## Windows (R416, R418) -/

/-- The device address of a window-space range wholly inside one window of its owner. -/
def Work.windowSpan (s : Work) (owner offset len : Nat) : Option Nat :=
  match s.host.windows.find? (fun w => w.owner = owner && w.offset ≤ offset && offset + len ≤ w.offset + w.size) with
  | some w => some (w.backing + (offset - w.offset))
  | none => none

/-! ## Descriptors (R447, R448, R452) -/

/-- The bits of a width code (R448). -/
def dmaWidth (code : Nat) : Nat := [8, 10, 12, 14, 16, 32, 16, 16].getD code 8

/-- Bytes that a number of bits fill. -/
def bytesOfBits (n : Nat) : Nat := (n + 7) / 8

/-- The fields of a descriptor of 64 bytes (R447). -/
def dmaDescOf (b : List Byte) : DmaDesc :=
  { dir := leAt b 0 1, shuffle := leAt b 1 1, srcWidth := leAt b 2 1, dstWidth := leAt b 3 1
    signed := bitAt (leAt b 4 1) 0, halfIrq := bitAt (leAt b 4 1) 1, fullIrq := bitAt (leAt b 4 1) 2
    shift := signed 8 (leAt b 5 1), bands := leAt b 6 1, src := leAt b 8 8, dst := leAt b 16 8
    pixels := leAt b 24 4, planeStride := leAt b 28 4, tag := leAt b 32 8 }

/-- Planes and bits per plane of a side, or none for a single stream; `src` says which side. -/
def DmaDesc.planes (d : DmaDesc) (src : Bool) : Option (Nat × Nat) :=
  if d.shuffle = 1 ∧ !src then some (d.bands, d.pixels * dmaWidth d.dstWidth)
  else if d.shuffle = 2 ∧ src then some (d.bands, d.pixels * dmaWidth d.srcWidth)
  else if d.shuffle = 3 ∧ !src then some (dmaWidth d.srcWidth, d.pixels)
  else if d.shuffle = 4 ∧ src then some (dmaWidth d.srcWidth, d.pixels)
  else none

/-- Bytes from the start of a side to its end (R449, R451). -/
def DmaDesc.span (d : DmaDesc) (src : Bool) : Nat :=
  match d.planes src with
  | some (n, bits) => (n - 1) * d.planeStride + bytesOfBits bits
  | none =>
    let count := if d.shuffle = 1 ∨ d.shuffle = 2 then d.pixels * d.bands else d.pixels
    bytesOfBits (count * dmaWidth (if src then d.srcWidth else d.dstWidth))

/-- The offset and length of each plane of a side, or of its one stream. -/
def DmaDesc.parts (d : DmaDesc) (src : Bool) : List (Nat × Nat) :=
  match d.planes src with
  | some (n, bits) => (List.range n).map (fun (q : Nat) => (q * d.planeStride, bytesOfBits bits))
  | none => [(0, d.span src)]

/-- Bytes of data on a side, gaps between planes left out. -/
def DmaDesc.dataBytes (d : DmaDesc) (src : Bool) : Nat :=
  match d.planes src with
  | some (n, bits) => n * bytesOfBits bits
  | none => d.span src

/-- Commit validation of a descriptor: the first applicable detail (R452; BANDS of an interleave outside 1 to 32 is detail 2:
assumption log 108, DEDUCED). `busy` is the slot's GO QUEUED or RUNNING. -/
def dmaValidate (b : List Byte) (busy : Bool) : Option Nat :=
  let d := dmaDescOf b
  let interleave := d.shuffle = 1 ∨ d.shuffle = 2
  let bitplane := d.shuffle = 3 ∨ d.shuffle = 4
  let plane := (d.planes true).orElse (fun _ => d.planes false)
  if b.length ≠ 64 ∨ leAt b 4 1 / 8 ≠ 0 ∨ leAt b 7 1 ≠ 0 ∨ (b.drop 40).any (fun x => x ≠ 0) ∨ 2 < d.dir ∨ 4 < d.shuffle
      ∨ 7 < d.srcWidth ∨ 7 < d.dstWidth ∨ d.shift < -31 ∨ 31 < d.shift ∨ (interleave ∧ (d.bands = 0 ∨ 32 < d.bands)) then some 2
  else if 6 ≤ d.srcWidth ∨ (d.shuffle = 0 ∧ d.bands ≠ 1) ∨ (interleave ∧ d.bands = 1)
      ∨ (bitplane ∧ (d.bands ≠ 1 ∨ d.srcWidth ≠ d.dstWidth ∨ 6 ≤ d.dstWidth ∨ d.shift ≠ 0 ∨ d.signed)) then some 3
  else if d.pixels = 0 ∨ (plane.isSome ∧ d.planeStride = 0) ∨ (plane.isNone ∧ d.planeStride ≠ 0)
      ∨ (plane.any (fun q => decide (d.planeStride < bytesOfBits q.2)))
      ∨ 2 ^ 34 < d.span true ∨ 2 ^ 34 < d.span false then some 4
  else if busy then some 5
  else none

/-! ## Moving elements (R449 to R451) -/

/-- A source byte and whether it is poisoned. -/
abbrev SrcByte := Byte × Bool

/-- Element i of width w of the stream that starts at an offset: its bits, and whether any of its bytes is poisoned. -/
def srcElement (src : Nat → SrcByte) (base w i : Nat) : Nat × Bool :=
  let first := w * i / 8
  let last := (w * i + w - 1) / 8
  let bs := (List.range (last + 1 - first)).map (fun k => src (base + first + k))
  (ofLE (bs.map (·.1)) / 2 ^ (w * i % 8) % 2 ^ w, bs.any (·.2))

/-- The conversion of one element (R450): the destination bits, and whether it saturated. -/
def dmaConvert (d : DmaDesc) (v : Nat) : Nat × Bool :=
  let w := dmaWidth d.srcWidth
  let x : Int := if d.signed then signed w v else (v : Int)
  let y : Int := if 0 ≤ d.shift then x / ((2 ^ d.shift.toNat : Nat) : Int) else x * ((2 ^ (-d.shift).toNat : Nat) : Int)
  if d.dstWidth = 6 then let r := fmtFp16.write .nearest (y : Rat); (r.1, r.2.1)
  else if d.dstWidth = 7 then let r := fmtBf16.write .nearest (y : Rat); (r.1, r.2.1)
  else
    let wd := dmaWidth d.dstWidth
    let lo : Int := if d.signed then -((2 ^ (wd - 1) : Nat) : Int) else 0
    let hi : Int := if d.signed then ((2 ^ (wd - 1) : Nat) : Int) - 1 else ((2 ^ wd : Nat) : Int) - 1
    (unsigned wd (clampInt lo hi y), decide (y < lo ∨ hi < y))

/-- A destination stream: its offset, the element width, and per element its bits, poison and pixel. -/
structure DmaStream where
  base : Nat
  width : Nat
  elements : List (Nat × Bool × Nat)
  deriving DecidableEq, Repr

/-- The streams a descriptor writes, and how many elements saturated (R451). -/
def dmaStreams (d : DmaDesc) (src : Nat → SrcByte) : List DmaStream × Nat :=
  let ws := dmaWidth d.srcWidth
  let wd := dmaWidth d.dstWidth
  let conv := fun (e : Nat × Bool) (p : Nat) => let r := dmaConvert d e.1; ((r.1, e.2, p), r.2)
  if d.shuffle = 1 then
    let rs := (List.range d.bands).map (fun b => (List.range d.pixels).map (fun p =>
      conv (srcElement src 0 ws (p * d.bands + b)) p))
    (rs.mapIdx (fun b r => ⟨b * d.planeStride, wd, r.map (·.1)⟩), (rs.flatMap (fun r => r.filter (·.2))).length)
  else if d.shuffle = 2 then
    let r := (List.range d.pixels).flatMap (fun p => (List.range d.bands).map (fun b =>
      conv (srcElement src (b * d.planeStride) ws p) p))
    ([⟨0, wd, r.map (·.1)⟩], (r.filter (·.2)).length)
  else if d.shuffle = 3 then
    ((List.range ws).map (fun q => ⟨q * d.planeStride, 1, (List.range d.pixels).map (fun p =>
      let e := srcElement src 0 ws p
      (e.1 / 2 ^ q % 2, e.2, p))⟩), 0)
  else if d.shuffle = 4 then
    ([⟨0, ws, (List.range d.pixels).map (fun p =>
      let bits := (List.range ws).map (fun q => srcElement src (q * d.planeStride) 1 p)
      (bits.foldr (fun e n => e.1 + 2 * n) 0, bits.any (·.2), p))⟩], 0)
  else
    let r := (List.range d.pixels).map (fun p => conv (srcElement src 0 ws p) p)
    ([⟨0, wd, r.map (·.1)⟩], (r.filter (·.2)).length)

/-- The bytes of a stream, packed without gaps and padded with zero bits (R449). -/
def DmaStream.bytes (t : DmaStream) (pixels : Nat) : List DmaByte :=
  let packed := t.elements.foldr (fun e n => e.1 + 2 ^ t.width * n) 0
  let len := bytesOfBits (t.width * t.elements.length)
  (toLE len packed).mapIdx (fun k v =>
    let es := (List.range ((8 * k + 7) / t.width + 1 - 8 * k / t.width)).filterMap (fun j => t.elements[8 * k / t.width + j]?)
    ⟨t.base + k, v, es.any (fun e => e.2.1), es.any (fun e => decide (e.2.2 < pixels / 2))⟩)

/-! ## Channels -/

/-- A channel. -/
def Work.dmaChan (s : Work) (c : Nat) : DmaChan := look .reset s.dma c

def Work.setDma (s : Work) (c : Nat) (x : DmaChan) : Work := { s with dma := put s.dma c x }

/-- The owner of a channel: free channels 0 to 27 and firmware's 28 to 31 until assigned (R443, R461). -/
def Work.dmaOwner (s : Work) (c : Nat) : Nat :=
  look (if c < 28 then 0xFFFE else 0xFFFF) s.objs (Obj.dmaAssign c)

/-- The host port of a function that owns a channel. -/
def ownerPort (owner : Nat) : Nat := if owner < 1024 then tenantPort owner else owner - 0x400

/-- The island a channel runs in: its owner's host port; firmware's channels run whatever the ports do (R443). -/
def Work.dmaInside (s : Work) (c : Nat) (f : Work → Work) : Work :=
  let owner := s.dmaOwner c
  if owner < 0x402 then s.inside (0xA8 + ownerPort owner) f else f s

/-- The GO object of a slot. -/
def dmaGoKey (c slot : Nat) : Key := if slot = 0 then Obj.dmaGo0 c else Obj.dmaGo1 c

def dmaDescKey (c slot : Nat) : Key := if slot = 0 then Obj.dmaDesc0 c else Obj.dmaDesc1 c

/-- DMA_STATUS (R462). -/
def dmaStatusWord (x : DmaChan) : Nat :=
  (match x.running with | some (n, _) => n + 1 | none => 0) + 4 * bit x.queued.isSome + 8 * bit x.halfReached
    + 256 * x.lastResult

/-- The windows named by slots that are queued or running (R418). -/
def Work.dmaUses (s : Work) : List (Nat × Nat × Nat) :=
  s.dma.flatMap (fun (c, x) => (x.running.toList ++ x.queued.toList).flatMap (fun (_, d) =>
    (if d.dir = 0 then [] else [(s.dmaOwner c, d.src, d.span true)]) ++
    (if d.dir = 1 then [] else [(s.dmaOwner c, d.dst, d.span false)])))

/-- The next slot runs, if one waits (R446). -/
def Work.dmaNext (s : Work) (c : Nat) : Work :=
  let x := s.dmaChan c
  match x.queued with
  | some (slot, d) =>
    let s := s.setDma c { x with running := some (slot, d), queued := none, started := false, bytes := [], poisoned := false, halfReached := false }
    s.cmdTo (dmaGoKey c slot) 2 0
  | none => s.setDma c { x with running := none, started := false, bytes := [], poisoned := false, halfReached := false }

/-- The running slot ends in a CMD state with a result; its owner's vectors; the next slot runs (R446, R455, R461). -/
def Work.dmaEnd (s : Work) (c st res : Nat) (vectors : Bool) : Work :=
  let x := s.dmaChan c
  match x.running with
  | none => s
  | some (slot, d) =>
    let owner := s.dmaOwner c
    let full := st = 3 ∨ (st = 4 ∧ res = 0x91)
    let s := if vectors ∧ full ∧ d.halfIrq ∧ !x.halfReached then s.msixOwner owner 2 2 else s
    let s := if vectors ∧ full ∧ d.fullIrq then s.msixOwner owner 3 3 else s
    let s := if vectors ∧ st = 4 then s.msixOwner owner 4 4 else s
    let s := if st = 3 then (s.add Obj.dmaTransfers 1).add (Obj.dmaDoneCount c) 1
      else if st = 4 then s.add Obj.dmaFailures 1 else s
    let s := if res = 0x91 then s.add Obj.dmaPoisoned 1 else s
    let s := s.set (Obj.dmaLastTag c) d.tag
    let s := (s.setDma c { x with lastResult := res }).cmdEnd (dmaGoKey c slot) st res
    s.dmaNext c

/-- DMA_GO's action on a committed descriptor (R446). -/
def Work.dmaStart (s : Work) (c slot : Nat) (o : Origin) : Work :=
  let d := dmaDescOf (s.dom (dmaDescKey c slot)).bytes
  let x := s.dmaChan c
  if x.running.isNone then
    (s.setDma c { x with running := some (slot, d), started := false, bytes := [], poisoned := false, halfReached := false }).cmdStart
      (dmaGoKey c slot) 2 o
  else (s.setDma c { x with queued := some (slot, d) }).cmdStart (dmaGoKey c slot) 1 o

/-- Destination bytes in runs of consecutive offsets: the first offset and the values. -/
def dmaRuns : List DmaByte → List (Nat × List Byte)
  | [] => []
  | b :: bs =>
    match dmaRuns bs with
    | [] => [(b.offset, [b.value])]
    | (o, vs) :: rest => if o = b.offset + 1 then (b.offset, b.value :: vs) :: rest else (b.offset, [b.value]) :: (o, vs) :: rest

/-- Write destination bytes of the running slot: to the host under its owner's requester ID, or to a window, where a
codeword that holds a poisoned element is written poisoned (R419, R457). -/
def Work.dmaWrite (s : Work) (owner : Nat) (d : DmaDesc) (bs : List DmaByte) : Work :=
  if bs.isEmpty then s
  else
    let s := s.add Obj.dmaBytesWritten bs.length
    if d.dir = 1 then
      let s := s.add (Obj.hostWriteBytes (ownerPort owner)) bs.length
      bs.foldl (fun s b => s.send (.hostWrite owner (d.dst + b.offset) [b.value] (if b.poison then [0] else []))) s
    else
      match s.windowSpan owner d.dst (d.span false) with
      | none => s
      | some a =>
        let s := (dmaRuns bs).foldl (fun (s : Work) (r : Nat × List Byte) => s.memStore (a + r.1) r.2) s
        (bs.filter (·.poison)).foldl (fun s b =>
          if s.mem.poison.contains ((a + b.offset) / 32) then s else s.memStorePoison ((a + b.offset) / 32)) s

/-- The source bytes of a transfer, for the element reader. -/
def dmaSource (bytes : List Byte) (poison : List Nat) (i : Nat) : SrcByte := (bytes.getD i 0, poison.contains i)

/-- DMA_SLOT_START: the checks of R453, then the transfer's data is read and converted. `hostBytes` and `poisonBytes` are
what the host returned for the source range (offsets from SRC). -/
def Work.dmaSlotStart (s : Work) (c : Nat) (hostBytes : List Byte) (poisonBytes : List Nat) : Work :=
  let x := s.dmaChan c
  match x.running with
  | none => s
  | some (_, d) =>
    if x.started then s
    else
      let owner := s.dmaOwner c
      let srcAt := s.windowSpan owner d.src (d.span true)
      let dstAt := s.windowSpan owner d.dst (d.span false)
      if (d.dir ≠ 0 ∧ srcAt = none) ∨ (d.dir ≠ 1 ∧ dstAt = none) then s.dmaEnd c 4 0x90 true
      else if d.dir = 2 ∧ d.src < d.dst + d.span false ∧ d.dst < d.src + d.span true then s.dmaEnd c 4 0x93 true
      else if 3 ≤ s.get Obj.powerState then s.dmaEnd c 4 0x94 true
      else
        let (bytes, poison, s) :=
          match d.dir, srcAt with
          | 0, _ =>
            (hostBytes, poisonBytes, s.add (Obj.hostReadBytes (ownerPort owner)) (d.dataBytes true))
          | _, some a =>
            let bs := s.memRead a (d.span true)
            (bs, (List.range bs.length).filter (fun i => s.mem.poison.contains ((a + i) / 32)),
              (d.parts true).foldl (fun (s : Work) (p : Nat × Nat) => (s.memLoad (a + p.1) p.2).2.2) s)
          | _, none => ([], [], s)
        let s := s.add Obj.dmaBytesRead (d.dataBytes true)
        let (streams, sat) := dmaStreams d (dmaSource bytes poison)
        let out := streams.flatMap (fun t => t.bytes d.pixels)
        let s := if sat = 0 then s else s.add Obj.dmaSaturated sat
        let s := if sat ≠ 0 ∧ 6 ≤ d.dstWidth then s.add Obj.fpSaturations sat else s
        s.setDma c { x with started := true, bytes := out, poisoned := out.any (·.poison) }

/-- DMA_HALF: every destination element of the first half of the pixels has been written (R455). -/
def Work.dmaHalf (s : Work) (c : Nat) : Work :=
  let x := s.dmaChan c
  match x.running with
  | none => s
  | some (_, d) =>
    if !x.started || x.halfReached || d.pixels < 2 then s
    else
      let s := s.dmaWrite (s.dmaOwner c) d (x.bytes.filter (·.firstHalf))
      let s := s.setDma c { x with bytes := x.bytes.filter (fun b => !b.firstHalf), halfReached := true }
      if d.halfIrq then s.msixOwner (s.dmaOwner c) 2 2 else s

/-- DMA_SLOT_END: the rest is written and the slot ends, DONE or with DMA_POISON (R455, R457). -/
def Work.dmaSlotEnd (s : Work) (c : Nat) : Work :=
  let x := s.dmaChan c
  match x.running with
  | none => s
  | some (_, d) =>
    if !x.started then s
    else
      let s := s.dmaWrite (s.dmaOwner c) d x.bytes
      if x.poisoned then s.dmaEnd c 4 0x91 true else s.dmaEnd c 3 0 true

/-- Stop the running slot: destination bytes below the 64-byte boundary at or above `reached` bytes past DST are
written, the others keep their values (R456). -/
def Work.dmaStop (s : Work) (c reached st res : Nat) (vectors : Bool) : Work :=
  let x := s.dmaChan c
  match x.running with
  | none => s
  | some (_, d) =>
    let stopAt := (d.dst + reached + 63) / 64 * 64
    let s := if x.started then s.dmaWrite (s.dmaOwner c) d (x.bytes.filter (fun b => decide (d.dst + b.offset < stopAt))) else s
    s.dmaEnd c st res vectors

/-- HOST_READ_ERROR (R456, R457). -/
def Work.hostReadError (s : Work) (c written : Nat) : Work :=
  match (s.dmaChan c).running with
  | none => s
  | some (_, d) => if d.dir = 0 then s.dmaStop c written 4 0x92 true else s

/-- How far a stopped slot got is open: a free value (R456; assumption log 5, DESIGN CHOICE). -/
def Work.dmaStopFree (s : Work) (c st res : Nat) (vectors : Bool) : Work :=
  let (n, s) := s.fresh
  s.dmaStop c n st res vectors

/-- The waiting slot ends without having run. -/
def Work.dmaDropQueued (s : Work) (c st res : Nat) (vectors : Bool) : Work :=
  let x := s.dmaChan c
  match x.queued with
  | none => s
  | some (slot, d) =>
    let s := s.setDma c { x with queued := none, lastResult := res }
    let s := if st = 4 then s.add Obj.dmaFailures 1 else s
    let s := if vectors ∧ st = 4 then s.msixOwner (s.dmaOwner c) 4 4 else s
    (s.set (Obj.dmaLastTag c) d.tag).cmdEnd (dmaGoKey c slot) st res

/-- Abort of a slot's GO (R456). -/
def Work.dmaAbort (s : Work) (c slot : Nat) : Work :=
  let x := s.dmaChan c
  match x.running with
  | some (n, _) => if n = slot then s.dmaStopFree c 5 0x30 false else s.dmaDropQueued c 5 0x30 false
  | none => s

/-- Both slots of a channel end FAILED with POWER_STATE (R459). -/
def Work.dmaPowerEnd (s : Work) (c : Nat) : Work :=
  (s.dmaDropQueued c 4 0x94 true).dmaStopFree c 4 0x94 true

/-- The channel's class T objects return to their defaults, and sessions of its descriptors are aborted (R73). -/
def Work.dmaDefaults (s : Work) (c : Nat) : Work :=
  { s with
    dma := drop1 s.dma c
    dict := { s.dict with sessions := s.dict.sessions.filter (fun (x : Session) => decide (x.key ≠ dmaDescKey c 0 ∧ x.key ≠ dmaDescKey c 1)) }
    objs := s.objs.filter (fun p => !(decide (0x9813 ≤ p.1.index ∧ p.1.index ≤ 0x9817 ∧ p.1.sub = c + 1)))
    doms := s.doms.map (fun p => if decide ((p.1.index = 0x9811 ∨ p.1.index = 0x9812) ∧ p.1.sub = c + 1)
      then (p.1, ⟨p.2.gen + 1, []⟩) else p) }

/-- A reset of a channel's owner stops both slots and raises no vector (R456). -/
def Work.dmaOwnerReset (s : Work) (c : Nat) : Work :=
  let s := if (s.dmaChan c).queued.isSome then s.dmaDropQueued c 4 0x30 false else s
  let s := if (s.dmaChan c).running.isSome then s.dmaStopFree c 4 0x30 false else s
  s.dmaDefaults c

/-- Whether a write of DMA_ASSIGN is refused, and how: RANGE (4) or BUSY (5) (R444). -/
def Work.dmaAssignRefused (s : Work) (o : Origin) (c v : Nat) : Option Nat :=
  let owner := s.dmaOwner c
  let named := v < 1024 ∨ v = 0x400 ∨ v = 0x401 ∨ v = 0xFFFE
  let portOf := fun (v : Nat) => if v < 1024 then some (tenantPort v) else if v = 0x400 then some 0 else if v = 0x401 then some 1 else none
  let x := s.dmaChan c
  let busy := x.running.isSome || x.queued.isSome
  if 28 ≤ c ∨ !named then some 4
  else match o.path with
    | .mgmt => if busy then some 5 else none
    | .portA | .portB =>
      let p := if o.path = .portA then 0 else 1
      if (v = 0xFFFE ∨ portOf v = some p) ∧ (owner = 0xFFFE ∨ portOf owner = some p) then (if busy then some 5 else none)
      else some 4
    | .fabric => some 4

/-- An accepted DMA_ASSIGN (R444). -/
def Work.dmaAssignTo (s : Work) (c v : Nat) : Work := (s.dmaDefaults c).set (Obj.dmaAssign c) v

/-- DMA_MY_CHANNELS of an owner (R445). Assumption log 64, DEDUCED. -/
def Work.dmaMyChannels (s : Work) (owner : Nat) : Nat :=
  (List.range 32).foldl (fun n c => if s.dmaOwner c = owner then n + 2 ^ c else n) 0

/-! ## The events -/

def execDmaSlotStart (channel : Nat) (hostBytes : List Byte) (poisonBytes : List Nat) (s : State) :
    Host.Outcome State Fault Refusal :=
  s.nextIf (channel < 32) (fun w => w.dmaInside channel (fun (w : Work) => w.dmaSlotStart channel hostBytes poisonBytes))

def execDmaHalf (channel : Nat) (s : State) : Host.Outcome State Fault Refusal :=
  s.nextIf (channel < 32) (fun w => w.dmaInside channel (fun (w : Work) => w.dmaHalf channel))

def execDmaSlotEnd (channel : Nat) (s : State) : Host.Outcome State Fault Refusal :=
  s.nextIf (channel < 32) (fun w => w.dmaInside channel (fun (w : Work) => w.dmaSlotEnd channel))

def execHostReadError (channel written : Nat) (s : State) : Host.Outcome State Fault Refusal :=
  s.nextIf (channel < 32) (fun w => w.dmaInside channel (fun (w : Work) => w.hostReadError channel written))

end Sys2Proof.Machine
end

