-- ==== Sys2Proof/Machine/Float.lean ====
section
/-! DEFINITION. FP32 arithmetic of the DTUs and cores, with the numeric events each result raises (R154, R164), and the built-in
functions within their error (R207). -/

namespace Sys2Proof.Machine

/-- The value an FP32 word brings into a computation. -/
def f32Value (w : Nat) : Rat := (fmtFp32.value w).1

/-- Round to FP32. -/
def r32 (x : Rat) : Rat := f32Value (fmtFp32.rne x)

/-- An FP32 result: its word, and the saturations and invalid operations met in forming it. -/
structure Fp where
  word : Nat
  sat : Nat
  bad : Nat
  deriving DecidableEq, Repr

def Fp.zero : Fp := ⟨0, 0, 0⟩

def Fp.value (x : Fp) : Rat := f32Value x.word

/-- A value rounded to FP32. -/
def fpOf (x : Rat) : Fp := let r := fmtFp32.write .nearest x; ⟨r.1, bit r.2.1, 0⟩

/-- A result with the events of others it was formed from. -/
def Fp.after (x : Fp) (ys : List Fp) : Fp :=
  { x with sat := x.sat + sumNat (ys.map (·.sat)), bad := x.bad + sumNat (ys.map (·.bad)) }

/-- A quotient: 0/0 is invalid and +0, and a division of anything else by 0 saturates (R154). -/
def fpDiv (x y : Rat) : Fp :=
  if y ≠ 0 then fpOf (x / y)
  else if x = 0 then ⟨0, 0, 1⟩
  else ⟨fmtFp32.rne (if x < 0 then -fmtFp32.maxFinite else fmtFp32.maxFinite), 1, 0⟩

/-- What results count (R154, R170). -/
def fpCounts (xs : List Fp) : EncCounts :=
  let sat := sumNat (xs.map (·.sat))
  let bad := sumNat (xs.map (·.bad))
  { EncCounts.none with fpSat := sat, invalid := bad, events := sat + bad }

/-! ## Sums in an open order -/

/-- A sum of FP32 words, two at a time: the spec does not say in what order a DTU accumulates (assumption log 28, DESIGN CHOICE). -/
def sumOpen : Nat → List Nat → Fp
  | 0, ws => ⟨ws.headD 0, 0, 0⟩
  | n + 1, ws =>
    match ws with
    | [] => Fp.zero
    | [w] => ⟨w, 0, 0⟩
    | _ :: _ :: _ =>
      let k := Config.sumPick ws
      let i := k % ws.length
      let rest := ws.eraseIdx i
      let j := k / ws.length % rest.length
      let c := fpOf (f32Value (ws.getD i 0) + f32Value (rest.getD j 0))
      (sumOpen n (c.word :: rest.eraseIdx j)).after [c]

def sumFp (ws : List Nat) : Fp := sumOpen ws.length ws

/-- A sum of results, with their events. -/
def sumFps (xs : List Fp) : Fp := (sumFp (xs.map (·.word))).after xs

/-- A sum of products, each rounded to FP32. -/
def dotFp (a b : List Rat) : Fp := sumFps ((a.zip b).map (fun (p : Rat × Rat) => fpOf (p.1 * p.2)))

/-! ## Open expressions -/

/-- A number from -1 to 1 that nothing else fixes. -/
def openUnit (tag : Nat) (args : List Nat) : Rat := ((Config.dtuError tag args % 2097153 : Nat) : Rat) / 1048576 - 1

/-- An expression in FP32 of which the spec gives no order of operations: its exact value `v` but for rounding, which FP32 keeps within
2^-20 of the size of its terms (assumption log 28, DESIGN CHOICE). -/
def openFp (tag : Nat) (args : List Nat) (v size : Rat) : Fp :=
  fpOf (if size = 0 then v else v + (size * pow2 (-20) + pow2 (-140)) * openUnit tag args)

/-! ## Functions -/

/-- A rational cut to 100 places after the binary point. -/
def cut100 (x : Rat) : Rat := (((x * pow2 100).floor : Int) : Rat) * pow2 (-100)

/-- The terms 1 + r/k (1 + r/(k+1) (…)) of the exponential series, from k up. -/
def expSeries (r : Rat) : List Nat → Rat
  | [] => 1
  | k :: ks => cut100 (1 + r / (k : Rat) * expSeries r ks)

/-- e^x to far more places than FP32 has; beyond ±200, where FP32 saturates or rounds to 0, a value that does so too. -/
def expReal (x : Rat) : Rat :=
  if x < -200 then 0
  else if 200 < x then pow2 300
  else
    let ln2 : Rat := ((235865763225513294137944142764154484399 : Nat) : Rat) * pow2 (-128)
    let n := (x / ln2 + 1 / 2).floor
    expSeries (cut100 (x - (n : Rat) * ln2)) ((List.range 24).map (· + 1)) * pow2 n

/-- e^x - 1, by its series where that is small. -/
def expm1Real (x : Rat) : Rat :=
  if absRat x ≤ 1 / 2 then x * expSeries x ((List.range 24).map (· + 2)) else expReal x - 1

def tanhReal (x : Rat) : Rat :=
  if 100 < x then 1 else if x < -100 then -1 else let t := expm1Real (2 * x); t / (t + 2)

def sigmoidReal (x : Rat) : Rat := 1 / (1 + expReal (-x))

/-- x (1 + tanh u) / 2 with u = √(2/π) (x + 0.044715 x³), in the form that loses no places. -/
def geluReal (x : Rat) : Rat :=
  let c : Rat := ((271506046879672464325182014351570923903 : Nat) : Rat) * pow2 (-128)
  x * sigmoidReal (2 * c * (x + 44715 / 1000000 * x * x * x))

/-- The functions FUNC names (R206). -/
def builtinReal (func : Nat) (x : Rat) : Rat :=
  if func = 2 then geluReal x
  else if func = 3 then x * sigmoidReal x
  else if func = 4 then sigmoidReal x
  else if func = 5 then tanhReal x
  else expReal x

/-- A built-in function of an FP32 word: within 2^-20 of its value before rounding (R207). -/
def builtin (func x : Nat) : Fp :=
  let y := builtinReal func (f32Value x)
  openFp func [x] y (absRat y)

def expFp (x : Nat) : Fp := builtin 6 x

/-- The reciprocal square root NORM takes: the root of a negative is invalid and +0, and 1/0 saturates (R154). -/
def rsqrtFp (x : Nat) : Fp :=
  let v := f32Value x
  if v ≤ 0 then (fpDiv 1 0).after [⟨0, 0, bit (decide (v < 0))⟩]
  else
    let h := floorLog2 v / 2
    let r := rootFloor 2 66 ((v * pow2 (128 - 2 * h)).floor.toNat) 0
    let y : Rat := pow2 (64 - h) / (r : Rat)
    openFp 0x100 [x] y y

end Sys2Proof.Machine
end

