-- ==== Sys2Proof/Machine/Vectors.lean ====
section
/-! DEFINITION. A step's buffers, vectors and lanes on a die; when an op instance may start and what its end records
(R192, R196 to R198, R296, R297); numeric events (R154, R164). -/

namespace Sys2Proof.Machine

/-! ## Values of vectors and writing them in a format (R152 to R157, R193) -/

/-- The floating format of a code of R193. -/
def floatOf (fmt : Nat) : FloatFmt :=
  if fmt = 2 then fmtE4M3 else if fmt = 3 then fmtE5M2 else if fmt = 4 then fmtFp16 else if fmt = 5 then fmtBf16 else fmtFp32

/-- The values of a vector's elements; `none` is poison (R146, R152). Integers count as themselves. -/
def vecReals : Vec → List (Option Rat)
  | .blocks bs => bs.flatMap blkValues
  | .words fmt ws => ws.map (fun w => w.map (fun (x : Nat) => if fmt = 7 then ((x : Nat) : Rat) else ((floatOf fmt).value x).1))
  | .cand _ => []
  | .route _ => []
  | .mask _ _ => []

/-- Infinities and NaNs a vector brings into an op: the first saturate, the second become +0, each a numeric event (R154). -/
def inputCounts : Vec → EncCounts
  | .words fmt ws =>
    if 7 ≤ fmt then EncCounts.none
    else
      let vs := ws.filterMap (fun (w : Option Nat) => w.map (floatOf fmt).read)
      let infs := (vs.filter (fun (v : FloatVal) => v = .inf true || v = .inf false)).length
      let nans := (vs.filter (fun (v : FloatVal) => v = .nan)).length
      { EncCounts.none with fpSat := infs, invalid := nans, events := infs + nans }
  | .blocks _ => EncCounts.none
  | .cand _ => EncCounts.none
  | .route _ => EncCounts.none
  | .mask _ _ => EncCounts.none

/-- Whether a vector carries poison. -/
def vecPoisoned : Vec → Bool
  | .cand c => c.poison
  | .mask _ p => p
  | .route _ => false
  | .blocks bs => bs.any (fun b => (blkValues b).any Option.isNone)
  | .words _ ws => ws.any Option.isNone

/-- A poisoned vector of n elements in a format (R137, R497). -/
def poisonVec (fmt n : Nat) : Vec :=
  if fmt ≤ 1 then .blocks ((List.range ((n + 31) / 32)).map (fun _ => ⟨fmt = 1, 1, List.replicate 32 none⟩))
  else .words fmt (List.replicate n none)

/-- Write values in a floating format: the words, and what it counts. -/
def writeWords (f : FloatFmt) (draws : Nat → Option Nat) (xs : List (Option Rat)) : List (Option Nat) × EncCounts :=
  let rs := xs.mapIdx (fun i x => x.map (fun v =>
    f.write (match draws i with | some k => Rounding.draw k | none => Rounding.nearest) v))
  let sat := (rs.filter (fun r => match r with | some (_, b, _) => b | none => false)).length
  let drew := (rs.filter (fun r => match r with | some (_, _, d) => d | none => false)).length
  (rs.map (Option.map (·.1)), { EncCounts.none with fpSat := sat, draws := drew, events := sat })

/-- Write values in a format of R193 (codes 0 to 6): nearest even, or stochastic with a draw per element. -/
def writeVec (fmt : Nat) (draws : Nat → Option Nat) (xs : List (Option Rat)) : Vec × EncCounts :=
  if fmt ≤ 1 then
    let (bs, c) := encodeVector (fmt = 0) draws xs
    (.blocks bs, c)
  else
    let (ws, c) := writeWords (floatOf fmt) draws xs
    (.words fmt ws, c)

/-- No draws: nearest even. -/
def noDraw : Nat → Option Nat := fun _ => none

/-! ## Steps, lanes and micro-batches (R296, R297) -/

def Work.modStep (s : Work) (f : StepState → StepState) : Work := { s with step := f s.step }

def Work.body (s : Work) : StepBody :=
  match s.step.running with
  | some (_, b) => b
  | none => ⟨[], [], [], [], []⟩

/-- The vectors of a slot in micro-batch m, by number in the step (R291). -/
def Work.mbVectors (s : Work) (slot m : Nat) : List Nat :=
  match s.body.mbs[m]? with
  | some b => if b.slot = slot then (List.range b.count).map (b.first + ·) else []
  | none => []

/-- The lane of a vector of a slot (R297). -/
def Work.laneOf (s : Work) (slot g : Nat) : Option Lane :=
  s.body.lanes.find? (fun l => l.slot = slot && l.first ≤ g && g < l.first + l.count)

/-- The lane of a vector of an instance. -/
def Work.laneAt (s : Work) (slot m vec : Nat) : Option Lane :=
  match (s.mbVectors slot m)[vec]? with
  | some g => s.laneOf slot g
  | none => none

/-- The position of a vector of an instance (R297). -/
def Work.positionAt (s : Work) (slot m vec : Nat) : Nat :=
  match (s.mbVectors slot m)[vec]? with
  | some g => match s.laneOf slot g with
    | some l => l.pos + (g - l.first)
    | none => vec
  | none => vec

/-- Lane kinds and flags of R297. -/
def Lane.code (l : Lane) : Nat := l.kind % 8
def Lane.windowInput (l : Lane) : Bool := bitAt l.kind 3
def Lane.masked (l : Lane) : Bool := bitAt l.kind 4

/-- The token a lane's vector takes: from the token block (INPUT_REF in bytes, assumption log 20, DEDUCED), for positions 1 to k of
a decode lane from DRAFTS, and for window input from the tenant's window (R296, R367). -/
def Work.tokenOf (s : Work) (lane : Nat) (l : Lane) (i : Nat) : Option Nat :=
  if l.windowInput then
    match s.windowSpan l.tenant (l.input + 4 * i) 4 with
    | some a => if s.memPoisoned a 4 then none else some (ofLE (s.memRead a 4))
    | none => none
  else if l.code = 0 ∧ i ≠ 0 then
    match s.step.drafts with
    | some ds => match ds[lane]? with
      | some d => some ((d.tokens.getD (i - 1) none).getD 0)
      | none => some 0
    | none => some 0
  else some (s.body.tokens.getD (l.input / 4 + i) 0)

/-- The words a STEP_IN buffer of a floating format holds for a lane with window input (R286, R297). -/
def Work.windowWords (s : Work) (l : Lane) (fmt elements : Nat) : Vec :=
  match s.windowSpan l.tenant l.input (2 * elements) with
  | some a => .words fmt ((List.range elements).map (fun i =>
      if s.memPoisoned (a + 2 * i) 2 then none else some (ofLE (s.memRead (a + 2 * i) 2))))
  | none => .words fmt (List.replicate elements none)

/-- The lanes whose vectors are in a micro-batch, with their index. -/
def Work.mbLanes (s : Work) (slot m : Nat) : List (Nat × Lane) :=
  let gs := s.mbVectors slot m
  (s.body.lanes.zipIdx.filter (fun p => p.1.slot = slot && gs.any (fun g => decide (p.1.first ≤ g) && decide (g < p.1.first + p.1.count)))).map
    (fun p => (p.2, p.1))

/-- What a STEP_IN buffer holds for a micro-batch (R192, R193). -/
def Work.stepIn (s : Work) (slot : Nat) (b : Buffer) (m : Nat) : List Vec :=
  if b.format = 7 then
    (s.mbVectors slot m).map (fun g =>
      match s.body.lanes.zipIdx.find? (fun p => p.1.slot = slot && p.1.first ≤ g && g < p.1.first + p.1.count) with
      | some (l, i) => .words 7 [s.tokenOf i l (g - l.first)]
      | none => .words 7 [none])
  else if b.format = 8 then
    match s.step.masks.find? (fun x => x.slot = slot) with
    | some x => x.rows.map (fun r => .mask r.2.2 x.poison)
    | none => []
  else (s.mbLanes slot m).map (fun p => s.windowWords p.2 b.format b.elements)

/-! ## The cores an op runs on (R194, R202) -/

/-- The cores that hold a slice's engines. -/
def Work.sliceCores (s : Work) (slot slice : Nat) : List Nat :=
  (((s.placement slot).entriesOf slice).map (fun (e : EngEntry) => e.engine / 32)).eraseDups

/-- The cores that run an op: those that hold its slices for CIM_MVM, CIM_MVMT and EXPERT, otherwise its core set. -/
def Work.recCores (s : Work) (slot : Nat) (o : OpRec) : List Nat :=
  if o.opcode = 0x01 ∨ o.opcode = 0x02 then s.sliceCores slot (o.arg 14 2)
  else if o.opcode = 0x41 then
    ((List.range (leAt ((s.slot slot).section 0x02) 24 2)).flatMap (fun (e : Nat) => s.sliceCores slot (o.arg 14 2 + e))).eraseDups
  else (List.range 64).filter (bitAt ((s.placement slot).coreSets.getD o.coreset 0))

/-- Whether an op ignores its CORESET. -/
def OpRec.onSlices (o : OpRec) : Bool := o.opcode = 0x01 || o.opcode = 0x02 || o.opcode = 0x41

/-- Two ops run on a core in common, or name one core set (assumption log 118, DEDUCED). -/
def Work.opsShare (s : Work) (slot : Nat) (a b : OpRec) : Bool :=
  (!a.onSlices && !b.onSlices && a.coreset = b.coreset) || (s.recCores slot a).any (s.recCores slot b).contains

/-- The die indices of a set of a slot, ascending; this die alone for 0xFF (R202). -/
def Work.setMembers (s : Work) (slot set : Nat) : List Nat :=
  if set = 0xFF then [s.get (Obj.slotDieIndex slot)] else dieSetMembers ((s.slot slot).section 0x05) set

/-! ## SCRATCH buffers in memory (R149, R192, R467) -/

/-- The address of a vector of a SCRATCH buffer's instance: in the half of the first op in program order that writes it. -/
def Work.scratchAt (s : Work) (slot h m i : Nat) (b : Buffer) : Nat :=
  let p := s.stepProgram slot
  let half : Nat := match p.ops.find? (fun (o : OpRec) => o.dst = h) with
    | some o => bit (decide (32 ≤ (s.recCores slot o).headD 0))
    | none => 0
  let size := heldBytes b.format b.elements
  half * halfBase + (s.dram.region 3).1 + b.offset + ((if b.perMb then m % max 1 p.depth else 0) * b.vectors + i) * size

/-- The bytes of a vector as memory holds it. -/
def vecBytes : Vec → List Byte
  | .blocks bs => tiles (bs.length + 1) bs
  | .words fmt ws => ws.flatMap (fun (w : Option Nat) => toLE (wordBytes fmt) (w.getD 0))
  | _ => []

/-- A vector is stored in a SCRATCH buffer; a codeword with a poisoned word is stored poisoned (R471). -/
def Work.scratchStore (s : Work) (slot h m i : Nat) (v : Vec) : Work :=
  match s.buffer slot h with
  | none => s
  | some b =>
    if b.kind ≠ 2 then s
    else
      let a := s.scratchAt slot h m i b
      let s := s.memStore a ((vecBytes v).take (heldBytes b.format b.elements))
      match v with
      | .words fmt ws =>
        ((ws.zipIdx.filter (fun (w : Option Nat × Nat) => w.1.isNone)).map (fun (w : Option Nat × Nat) => (a + wordBytes fmt * w.2) / 32)).eraseDups.foldl
          (fun (s : Work) (c : Nat) => s.memStorePoison c) s
      | _ => s

/-- A vector read from memory that reports codewords uncorrectable: `bad` says it of a byte's codeword (R150, R472). -/
def Vec.held (bad : Nat → Bool) : Vec → Vec
  | .blocks bs =>
    let size : Nat := if bs.any (fun (b : Blk) => b.b8) then 1056 else 544
    .blocks ((sameForm bs).mapIdx (fun (i : Nat) (b : Blk) => Blk.held (fun (c : Nat) => bad (i / 32 * size + 32 * c)) (i % 32) b))
  | .words fmt ws => .words fmt (ws.mapIdx (fun (i : Nat) (w : Option Nat) => if bad (wordBytes fmt * i) then none else w))
  | .cand r => .cand { r with poison := r.poison || bad 0 }
  | .route es => .route es
  | .mask b p => .mask b (p || bad 0)

/-- What a buffer's instance reads: SCRATCH through memory. -/
def Work.readHeld (s : Work) (slot h m : Nat) (b : Buffer) (vs : List Vec) : List Vec :=
  if b.kind ≠ 2 || s.mem.poison.isEmpty then vs
  else vs.mapIdx (fun (i : Nat) (v : Vec) =>
    let a := s.scratchAt slot h m i b
    let whole : Bool := match v with
      | .blocks _ => false
      | .words _ _ => false
      | _ => s.memPoisoned a (heldBytes b.format b.elements)
    Vec.held (fun (o : Nat) => whole || s.memPoisoned (a + o) 1) v)

/-- A buffer's vectors for a micro-batch. -/
def Work.buf (s : Work) (slot h m : Nat) : List Vec :=
  match s.buffer slot h with
  | some b => if b.kind = 4 then s.stepIn slot b m else s.readHeld slot h m b (look [] s.step.bufs (s.bufKey slot h m))
  | none => look [] s.step.bufs (s.bufKey slot h m)

/-- What a buffer holds from now on. -/
def Work.putBuf (s : Work) (slot h m : Nat) (vs : List Vec) : Work :=
  if h = 0xFFFF then s else s.modStep (fun x => { x with bufs := put x.bufs (s.bufKey slot h m) vs })

/-- Write a buffer whole. -/
def Work.setBuf (s : Work) (slot h m : Nat) (vs : List Vec) : Work :=
  vs.zipIdx.foldl (fun (s : Work) (v : Vec × Nat) => s.scratchStore slot h m v.2 v.1) (s.putBuf slot h m vs)

/-- Write one vector of a buffer, extending it with empty vectors as needed. -/
def Work.setVec (s : Work) (slot h m i : Nat) (v : Vec) : Work :=
  let vs := s.buf slot h m
  let vs := if vs.length ≤ i then vs ++ List.replicate (i + 1 - vs.length) (.words 6 []) else vs
  (s.putBuf slot h m (vs.set i v)).scratchStore slot h m i v

/-! ## Notes and numeric events (R164, R299) -/

def VecNote.none : VecNote := ⟨0, false, false, 0, 0, 0, 0⟩

/-- Change what is noted of a vector. -/
def Work.note (s : Work) (k : VecKey) (f : VecNote → VecNote) : Work :=
  s.modStep (fun x => { x with notes := put x.notes k (f (look VecNote.none x.notes k)) })

/-- Numeric events of a vector's request (R164). -/
def Work.numeric (s : Work) (k : VecKey) (n : Nat) : Work :=
  if n = 0 then s else (s.note k (fun v => { v with numeric := v.numeric + n })).add Obj.numericEvents n

/-- A vector consumed poison (R472). -/
def Work.notePoison1 (s : Work) (k : VecKey) : Work := s.note k (fun v => { v with poison := true })

/-- Count what an encoding counted (R170), its events against the vector's request. -/
def Work.countEnc (s : Work) (k : VecKey) (c : EncCounts) : Work :=
  let adds := [(Obj.b4Blocks, c.b4), (Obj.b8Blocks, c.b8), (Obj.zeroBlocks, c.zero), (Obj.floorFallbacks, c.floor),
    (Obj.ceilingFallbacks, c.ceiling), (Obj.b8Saturations, c.sat), (Obj.b8Underflows, c.under),
    (Obj.navElements, c.nav), (Obj.srDraws, c.draws), (Obj.fpSaturations, c.fpSat), (Obj.invalidOps, c.invalid)]
  let s := adds.foldl (fun s p => if p.2 = 0 then s else s.add p.1 p.2) s
  s.numeric k c.events

/-- The inputs an op replaces in the vectors it reads for one of its vectors. -/
def Work.countInputs (s : Work) (k : VecKey) (vs : List Vec) : Work := vs.foldl (fun (s : Work) (v : Vec) => s.countEnc k (inputCounts v)) s

/-- NaV elements, or poison words, put in place of a value count as elements written so in block form (R170). -/
def navCounts (v : Vec) : EncCounts :=
  match v with
  | .blocks bs => { EncCounts.none with nav := sumNat (bs.map (fun (b : Blk) => (b.codes.filter Option.isNone).length)) }
  | .words _ _ => EncCounts.none
  | .cand _ => EncCounts.none
  | .route _ => EncCounts.none
  | .mask _ _ => EncCounts.none

/-! ## When an instance may start, and its end (R197, R198) -/

def OpRec.mb (o : OpRec) : Bool := bitAt o.flags 0

def OpRec.fence (o : OpRec) : Bool := bitAt o.flags 1

/-- The buffers an op reads (R194). -/
def OpRec.reads (o : OpRec) : List Nat := [o.src0, o.src1, o.src2].filter (· ≠ 0xFFFF)

def Work.isDone (s : Work) (slot seq m : Nat) : Bool := s.step.done.contains ⟨slot, seq, m⟩

/-- The instance of op i that counts for micro-batch m. -/
def Work.doneFor (s : Work) (slot : Nat) (o : OpRec) (i m : Nat) : Bool := s.isDone slot i (if o.mb then m else 0)

/-- The micro-batches of a slot in the step. -/
def Work.slotMbs (s : Work) (slot : Nat) : List Nat :=
  (s.body.mbs.zipIdx.filter (fun (b : MicroBatch × Nat) => b.1.slot = slot)).map (·.2)

/-- What an op waits for of earlier op i: the instance for its own micro-batch, or all of them when it runs once per step.
Assumption log 101, DEDUCED. -/
def Work.doneBefore (s : Work) (slot : Nat) (once : Bool) (o : OpRec) (i m : Nat) : Bool :=
  if o.mb && once then (s.slotMbs slot).all (fun (n : Nat) => s.isDone slot i n) else s.doneFor slot o i m

/-- Whether a BARRIER holds back an op that follows it on this die (R214). -/
def Work.barrierHolds (s : Work) (slot : Nat) (b o : OpRec) : Bool :=
  let scope := b.arg 14 1
  b.opcode = 0x62 && (if scope = 0 then s.opsShare slot b o
    else if scope = 2 then (s.setMembers slot (b.arg 15 1)).contains (s.get (Obj.slotDieIndex slot)) else true)

/-- What an op reads: its sources, and its destination where it adds into it (R200). -/
def OpRec.needs (o : OpRec) : List Nat := o.reads ++ (if (o.opcode = 0x01 ∨ o.opcode = 0x41) ∧ bitAt (o.arg 18 1) 2 then [o.dst] else [])

/-- The conditions of R197 but for MB_DEPTH, with the fences and barriers of R194 and R214. An instance is earlier than another whose
micro-batch is higher, and within a micro-batch by program order (assumption log 119, DEDUCED). -/
def Work.orderReady (s : Work) (c : OpCtx) : Bool :=
  let p := s.stepProgram c.slot
  match p.ops[c.seq]? with
  | none => true
  | some me =>
    let perMb := match p.buffers[c.dst]? with
      | some b => b.perMb
      | none => true
    p.ops.zipIdx.all (fun x =>
      let o := x.1
      let i := x.2
      let before := decide (i < c.seq)
      let done := s.doneBefore c.slot (!me.mb) o i c.m
      (!before || !(o.dst ≠ 0xFFFF && me.needs.contains o.dst) || done) &&
      (!(c.dst ≠ 0xFFFF && o.reads.contains c.dst) ||
        (if perMb || !o.mb || !me.mb then !before || done
         else (s.slotMbs c.slot).all (fun (m : Nat) => !(decide (m < c.m) || (before && decide (m = c.m))) || s.isDone c.slot i m))) &&
      (!(before && me.fence && s.opsShare c.slot o me) || done) &&
      (!(before && s.barrierHolds c.slot o me) || done))

/-- Instance m − MB_DEPTH of a PER_MB buffer it writes is released: all who read it have completed (R197). -/
def Work.depthReady (s : Work) (c : OpCtx) : Bool :=
  let p := s.stepProgram c.slot
  match p.buffers[c.dst]? with
  | none => true
  | some b =>
    !b.perMb || c.m < p.depth ||
      p.ops.zipIdx.all (fun x => !x.1.reads.contains c.dst || s.doneFor c.slot x.1 x.2 (c.m - p.depth))

/-- Whether masks come for a slot in this step: it has a masked lane that chooses a token (R323, R328). -/
def Work.awaitsMasks (s : Work) (slot : Nat) : Bool :=
  s.body.lanes.any (fun (l : Lane) => l.slot = slot && l.masked && (l.code = 0 || l.code = 2))

/-- Manager data an instance reads has arrived: a STEP_IN buffer of masks, where any come (R220, R323). -/
def Work.dataReady (s : Work) (c : OpCtx) : Bool :=
  [c.src0, c.src1, c.src2].all (fun h =>
    match s.buffer c.slot h with
    | some b => !(b.kind = 4 && b.format = 8) || !s.awaitsMasks c.slot || s.step.masks.any (fun x => x.slot = c.slot)
    | none => true)

/-- Whether bytes of a slot's memory copy of a section read poisoned (R472). Where the copy lies in memory is free; it starts on a codeword
(R149). -/
def Work.sectionPoisoned (s : Work) (slot ty off len : Nat) : Bool :=
  !s.mem.poison.isEmpty && s.memPoisoned (32 * Config.sectionPlace slot ty + off) len

/-- An instance has completed. -/
def Work.endOp (s : Work) (c : OpCtx) : Work :=
  (s.modStep (fun x => { x with done := x.done ++ [⟨c.slot, c.seq, c.m⟩] })).add Obj.opsExecuted 1

/-- Write a result vector of an op in a format, counting and noting it. -/
def Work.writeResult (s : Work) (c : OpCtx) (i fmt : Nat) (draws : Nat → Option Nat) (xs : List (Option Rat)) : Work :=
  let k : VecKey := ⟨c.slot, c.m, i⟩
  let (v, n) := writeVec fmt draws xs
  let s := (s.setVec c.slot c.dst c.m i v).countEnc k n
  if xs.any Option.isNone then s.notePoison1 k else s

/-- Elements of B8 blocks whose value changes when widened to FP16 below its smallest normal (R155). -/
def widenUnders (v : Vec) : Nat :=
  match v with
  | .blocks bs => sumNat ((bs.filter (·.b8)).map (fun (b : Blk) => ((blkValues b).filter (fun (x : Option Rat) => match x with
      | some y => decide (absRat y < pow2 (-14) ∧ fmtFp16.to y ≠ y)
      | none => false)).length))
  | .words _ _ => 0
  | .cand _ => 0
  | .route _ => 0
  | .mask _ _ => 0

/-- Count what widening a vector's B8 elements to FP16 loses below the smallest normal: each a numeric event (R155, R164).
Assumption log 102, DEDUCED. -/
def Work.countWiden (s : Work) (k : VecKey) (fmt : Nat) (v : Vec) : Work :=
  let n := if fmt = 4 then widenUnders v else 0
  if n = 0 then s else (s.add Obj.b8Underflows n).numeric k n

/-- Whether a vector is in block form; to the floating formats it then widens, nearest even (R155, R161). -/
def isBlocks : Vec → Bool
  | .blocks _ => true
  | .words _ _ => false
  | .cand _ => false
  | .route _ => false
  | .mask _ _ => false

/-- An op that works vector by vector: `g` gives each vector's values from its index, and what forming them counts. -/
def Work.eachVec (s : Work) (c : OpCtx) (n fmt : Nat) (g : Nat → List (Option Rat) × EncCounts) : Work :=
  ((List.range n).foldl (fun s i => (s.countEnc ⟨c.slot, c.m, i⟩ (g i).2).writeResult c i fmt noDraw (g i).1) s).endOp c

end Sys2Proof.Machine
end

