-- ==== Sys2Proof/Machine/Engine.lean ====
section
/-! DEFINITION. Engines: starting an MVM, conversion windows and the split-replay ladder, drift correction, sentinel
checks, recomputes, the epilogue and the assembly of a vector's result (R76 to R108, R116 to R140, R200). -/

namespace Sys2Proof.Machine

def Work.engine (s : Work) (e : Nat) : Engine := look .reset s.engines e

def Work.setEngine (s : Work) (e : Nat) (x : Engine) : Work := { s with engines := put s.engines e x }

def Work.modEngine (s : Work) (e : Nat) (f : Engine → Engine) : Work := s.setEngine e (f (s.engine e))

/-- Whether an engine exists (R2, R4). -/
def engineExists (m : Ident) (e : Nat) : Bool := e < 2048 && goodCore m (e / 32)

/-! ## Shapes (R118, R139) -/

/-- The lane that pair (or, transposed, row) j of facet f feeds. -/
def laneIndex (transposed : Bool) (join f j : Nat) : Nat :=
  if transposed then (if join = 0 then 1024 * f + j else if join = 1 then (if f % 2 = 0 then j else 1024 + j) else j)
  else if join = 0 then j
  else if join = 1 then (if f < 2 then j else 512 + j)
  else 512 * f + j

/-- The lanes of a join mode. -/
def laneCount (transposed : Bool) (join : Nat) : Nat :=
  if transposed then (if join = 0 then 4096 else if join = 1 then 2048 else 1024)
  else if join = 0 then 512 else if join = 1 then 1024 else 2048

/-- The input elements of a join mode. -/
def inputCount (transposed : Bool) (join : Nat) : Nat :=
  if transposed then (if join = 0 then 512 else if join = 1 then 1024 else 2048)
  else if join = 0 then 4096 else if join = 1 then 2048 else 1024

/-- The first input element of facet f. -/
def facetInOff (transposed : Bool) (join f : Nat) : Nat :=
  if transposed then (if join = 0 then 0 else if join = 1 then (if f < 2 then 0 else 512) else 512 * f)
  else if join = 0 then 1024 * f
  else if join = 1 then (if f % 2 = 0 then 0 else 1024)
  else 0

/-- Inputs per facet: rows, or pairs in a transposed MVM. -/
def facetIn (transposed : Bool) : Nat := if transposed then 512 else 1024

/-- Outputs per facet: pairs, or rows in a transposed MVM. -/
def facetOut (transposed : Bool) : Nat := if transposed then 1024 else 512

/-- Whether a job runs two passes (R105, R124). -/
def MvmJob.twoPass (j : MvmJob) : Bool := j.wide || j.transposed

/-- The input slice of facet f. -/
def MvmJob.facetInput (j : MvmJob) (f : Nat) : List (Option Int) :=
  let xs := (j.drive.drop (facetInOff j.transposed j.join f)).take (facetIn j.transposed)
  xs ++ List.replicate (facetIn j.transposed - xs.length) (some 0)

/-! ## Packing (R93, R105) -/

/-- v = 16 h + l with l in 0 to 15 (R81, R105). -/
def highPart (v : Int) : Int := v / 16

def lowPart (v : Int) : Int := v % 16

/-- What a pass drives of an element: x itself, or h or l of a two-pass MVM. -/
def passValue (two : Bool) (pass : Nat) (v : Int) : Int := if !two then v else if pass = 0 then highPart v else lowPart v

/-- The driven rows of a pass, ascending: nonzero and not NaV. -/
def drivenRows (two : Bool) (pass : Nat) (xs : List (Option Int)) : List (Nat × Int) :=
  (xs.zipIdx.filterMap (fun p => match p.1 with
    | some v => let x := passValue two pass v; if x = 0 then none else some (p.2, x)
    | none => none))

/-- Cut a list into runs of the given sizes. -/
def cutSizes {α : Type} : List Nat → List α → List (List α)
  | [], _ => []
  | n :: ns, xs => xs.take n :: cutSizes ns (xs.drop n)

/-- The packer: each phase's rows, sizes differing by at most one. -/
def packRows (limit : Nat) (rows : List (Nat × Int)) : List (List (Nat × Int)) :=
  let n := rows.length
  let p := (n + limit - 1) / limit
  if p = 0 then []
  else cutSizes ((List.range p).map (fun i => if i < n % p then n / p + 1 else n / p)) rows

/-- sum1 and sum_alt of a phase (R93). -/
def sum1 (rows : List (Nat × Int)) : Int := rows.foldl (fun a p => a + p.2) 0

def sumAlt (rows : List (Nat × Int)) : Int := rows.foldl (fun a p => if p.1 % 2 = 0 then a + p.2 else a - p.2) 0

/-! ## Lanes (R125) -/

/-- Add to a lane, saturating; whether it saturated. -/
def laneAdd (a v : Int) : Int × Bool :=
  let t := a + v
  (clampInt (-8388607) 8388607 t, decide (t < -8388607 ∨ 8388607 < t))

/-- Lanes with a list of (lane, value) added in order, and the lanes that saturated: once for each addition that would leave the range, as
the spec does not say that a lane counts once in an MVM (assumption log 113, DESIGN CHOICE). -/
def lanesAdd (lanes : List Int) (vs : List (Nat × Int)) : List Int × List Nat :=
  vs.foldl (fun acc p =>
    let r := laneAdd (acc.1.getD p.1 0) p.2
    (acc.1.set p.1 r.1, if r.2 then acc.2 ++ [p.1] else acc.2)) (lanes, [])

/-- ENGINE_OVERFLOW for each saturated lane: counted, logged, a numeric event (R125). -/
def Work.overflows (s : Work) (e : Nat) (j : MvmJob) (ls : List Nat) : Work :=
  ls.foldl (fun s l =>
    ((s.add Obj.accOverflows 1).log 2 0x4B 3 j.slot e 0xFFFF l).numeric ⟨j.slot, j.m, j.vec⟩ 1) s

def Work.setRun (s : Work) (e : Nat) (r : Run) : Work :=
  s.modEngine e (fun x => { x with runs := x.runs.map (fun y => if y.tag = r.tag then r else y) })

/-- Merge values into a run's lanes. -/
def Work.mergeLanes (s : Work) (e : Nat) (r : Run) (vs : List (Nat × Int)) : Work :=
  let (lanes, past) := lanesAdd r.lanes vs
  (s.setRun e { r with lanes := lanes, overflow := r.overflow || !past.isEmpty }).overflows e r.job past

def Work.runOf (s : Work) (e tag : Nat) : Option Run := (s.engine e).runs.find? (fun r => r.tag = tag)

def Run.facetRun (r : Run) (f : Nat) : Option FacetRun := r.facets.find? (fun x => x.facet = f)

def Run.setFacet (r : Run) (x : FacetRun) : Run :=
  { r with facets := r.facets.map (fun y => if y.facet = x.facet then x else y) }

/-! ## Exact products from the golden image (R132, R484, R487) -/

/-- What an exact product takes of an input element: v whole, or its low part. -/
def exactValue (full two : Bool) (v : Int) : Int := if full || !two then v else lowPart v

/-- The exact dot product of pair (or, transposed, row) j of a facet with an input slice. -/
def Work.exactDot (s : Work) (f : Nat) (transposed full two : Bool) (input : List (Option Int)) (j : Nat) : Int :=
  input.zipIdx.foldl (fun a p => match p.1 with
    | some v =>
      if v = 0 then a
      else a + exactValue full two v * (if transposed then s.goldenOf f p.2 j else s.goldenOf f j p.2)
    | none => a) 0

/-! ## Starting an MVM (R133) -/

/-- The limit of outstanding recomputes (R133, R139). -/
def MvmJob.recomputeLimit (j : MvmJob) : Nat := if j.transposed ∧ j.join = 0 then 8 else 16

/-- Both banks as one (R139). -/
def MvmJob.bothBanks (j : MvmJob) : Bool := j.transposed && j.join = 0

def Engine.places (x : Engine) : Nat := x.reading.length + x.arrived.length

/-- An MVM may start (R133). -/
def Engine.mayStart (x : Engine) (j : MvmJob) : Bool :=
  x.runs.length < 2 && !(j.bothBanks && !x.runs.isEmpty) && !x.runs.any (fun r => r.job.bothBanks) &&
    x.places < 16 && x.waiting.isEmpty

/-- How a facet takes part in an MVM: in phases, by a stand-in (R487), or not at all, with its work lost (R488). What it is when the MVM
starts counts: assumption log 149, DEDUCED. -/
inductive Part where
  | phases (array : Nat)
  | standin
  | lost
  deriving DecidableEq, Repr

def Work.partOf (s : Work) (f : Nat) : Part :=
  let x := s.arr f
  let broken := x.state = 5 || (x.state = 6 && x.mapTo = none)
  if !broken then .phases (s.serving f)
  else if s.goldenPresent (facetCore f) x.slot then .standin
  else .lost

/-- GOLDEN_NEEDED of a slot, for the core of its first group affected (R488, R490). -/
def Work.goldenNeeded (s : Work) (slot core : Nat) : Work := s.log 0 0x0A 8 slot slot 0xFFFF core

/-- A SUSPECT facet whose golden image is absent: logged once per facet (R488). -/
def Work.suspectNoGolden (s : Work) (f g : Nat) : Work :=
  let slot := (s.arr f).slot
  if s.rel.noGolden.contains f then s
  else (({ s with rel := { s.rel with noGolden := s.rel.noGolden ++ [f] } } : Work).log 2 0x42 1 slot f 0xFFFF g).goldenNeeded slot (facetCore f)

/-- The fraction of a checking level, of 1,024 (R481). -/
def shadowFraction (level : Nat) : Nat := [0, 1, 4, 16, 64].getD level 0

/-- The fresh record of a facet that takes phases. -/
def facetRunOf (j : MvmJob) (f array : Nat) (sampled : Bool) : FacetRun :=
  let input := j.facetInput f
  let z := List.replicate (facetOut j.transposed) (0 : Int)
  { facet := f, array := array, input := input, hi := z, lo := z
    hiDone := (drivenRows j.twoPass 0 input).isEmpty
    loDone := !j.twoPass || (drivenRows j.twoPass 1 input).isEmpty
    halfA := none, clamped := [], excluded := []
    windows := 0, dataHi := List.replicate 8 0, dataLo := List.replicate 8 0
    chkHi := List.replicate 8 0, chkLo := List.replicate 8 0, skipped := [], sampled := sampled }

/-- A facet's phases of an MVM, in order (R93, R124). -/
def facetPhases (j : MvmJob) (tag f : Nat) : List Phase :=
  let input := j.facetInput f
  let limit := if j.transposed then 128 else 256
  (if j.twoPass then [0, 1] else [0]).flatMap (fun p =>
    (packRows limit (drivenRows j.twoPass p input)).map (fun rows => ⟨tag, p, 0, rows⟩))

/-- Whether this vector is a shadow sample of a facet (R482): the first vector of the instance that drives it, drawn. A
sample whose golden record is absent is skipped and counted (R483). Assumption log 22, DESIGN CHOICE. -/
def Work.drawSample (s : Work) (j : MvmJob) (f facet : Nat) : Bool × Work :=
  let key : FacetInst := ⟨⟨j.slot, j.seq, j.m⟩, facet⟩
  let driven := (j.facetInput f).any (fun x => decide (x ≠ some 0 ∧ x ≠ none))
  if !driven || s.step.sampled.contains key then (false, s)
  else
    let s := s.modStep (fun x => { x with sampled := x.sampled ++ [key] })
    let step := match s.step.running with
      | some (h, _) => h.step
      | none => 0
    let hit := Config.shadowDraw step j.slot j.seq j.m facet % 1024 < shadowFraction (s.get (Obj.shadowLevel j.slot))
    if !hit then (false, s)
    else if s.goldenPresent (facetCore facet) (s.arr facet).slot then (true, s)
    else (false, s.add Obj.arbNoGolden 1)

/-- The FP32 delta sums of a job, in stream order (R131), lane by lane, and how many of its additions saturated (R154). -/
def deltaSums (j : MvmJob) : List (Nat × Nat) × Nat :=
  j.deltas.foldl (fun (acc : List (Nat × Nat) × Nat) (d : DeltaEntry) =>
    let row := if j.transposed then d.lane else d.row
    let lane := if j.transposed then d.row else d.lane
    let x : Int := ((j.drive.getD row (some 0)).getD 0)
    let r := fpOf (f32Value (look 0 acc.1 lane) + ((d.value * x : Int) : Rat) * pow2 ((d.exp : Int) - 133))
    (put acc.1 lane r.word, acc.2 + r.sat)) ([], 0)

/-- The outlier sums of a job (R126, R129). -/
def outlierSums (j : MvmJob) (os : List Outlier) : List (Nat × Int) :=
  os.foldl (fun acc o =>
    let input := j.facetInput o.facet
    let x : Int := ((input.getD (if j.transposed then o.pair else o.row) (some 0)).getD 0)
    let lane := laneIndex j.transposed j.join o.facet (if j.transposed then o.row else o.pair)
    put acc lane (look 0 acc lane + o.value * x)) []

/-- The facets of a mask. -/
def maskFacets (mask : Nat) : List Nat := (List.range 4).filter (bitAt mask)

/-- The words of the store that an ECC event concerns, counted and logged (R128). -/
def Work.outlierEcc (s : Work) (e slot : Nat) (words : List Nat) (ecc : List (Nat × Bool)) : Work :=
  ecc.foldl (fun s p =>
    if !words.contains p.1 then s
    else if p.2 then
      let s := (s.add Obj.outlierEccUncorrectable 1).log 2 0x45 3 slot e 0xFFFF p.1
      s.modEngine e (fun x => { x with badWords := (x.badWords ++ [p.1]).eraseDups })
    else s.add Obj.outlierEccCorrected 1) s

/-- Uncorrectable outlier words are rewritten, on the cores a test names, from the outlier sets of the slots whose entries they hold; a
word of a slot whose set is absent stays (R128, R185; assumption log 75, DEDUCED). -/
def Work.rewriteWords (s : Work) (core : Nat → Bool) : Work :=
  { s with engines := s.engines.map (fun (p : Nat × Engine) =>
      (p.1, { p.2 with badWords := p.2.badWords.filter (fun (w : Nat) =>
        !core (p.1 / 32) || (wordOwners (s.engineStore p.1) w).any (fun (n : Nat) => !s.goldenPresent (p.1 / 32) n)) })) }

/-- A slot that is reloaded has its outlier words written anew (R128). -/
def Work.reloadWords (s : Work) (n : Nat) : Work :=
  { s with engines := s.engines.map (fun (p : Nat × Engine) =>
      (p.1, { p.2 with badWords := p.2.badWords.filter (fun (w : Nat) => !(wordOwners (s.engineStore p.1) w).contains n) })) }

/-- ENGINE_MVM_START: the next MVM issued to an engine starts in a free bank, or waits (R133). -/
def Work.mvmStart (s : Work) (e : Nat) (ecc : List (Nat × Bool)) : Work :=
  let x := s.engine e
  match x.queue with
  | [] => s
  | j :: rest =>
    if !x.mayStart j then s.meter Obj.recomputeStallCycles
    else
      let tag := s.nextTag
      let s := { s with nextTag := (tag + 1) % 2 ^ 24 }
      let store := s.engineStore e
      let words := storeWords store j.mask
      let s := s.outlierEcc e j.slot words ecc
      let os := storeOutliers store j.mask
      let fs := maskFacets j.mask
      let parts := fs.map (fun f => (f, s.partOf (4 * e + f)))
      let (frs, s) := parts.foldl (fun acc p => match p.2 with
        | .phases a =>
          let (smp, s) := acc.2.drawSample j p.1 (4 * e + p.1)
          (acc.1 ++ [facetRunOf j p.1 a smp], s)
        | _ => acc) (([] : List FacetRun), s)
      let zeros := (frs.map (fun r => bit r.hiDone + bit (j.twoPass && r.loDone))).foldl (· + ·) 0
      let nav := fs.any (fun f => (j.facetInput f).any Option.isNone)
      let s := s.add Obj.zeroMvms zeros
      let s := s.add Obj.navMvms (if nav then 1 + bit j.twoPass else 0)
      let s := (s.add Obj.outlierMacs os.length).add Obj.deltaMacs j.deltas.length
      let bad := words.any (fun w => (s.engine e).badWords.contains w) ||
        (!s.goldenPresent (e / 32) j.slot && (s.engine e).badWords.any (fun w => (wordOwners store w).contains j.slot))
      let r : Run :=
        { tag := tag, job := j, nav := nav, facets := frs
          lanes := List.replicate (laneCount j.transposed j.join) 0
          outlier := outlierSums j os, delta := (deltaSums j).1
          poison := bad || nav || j.deltaPoison
          pendingCheck := false, unrecovered := false, overflow := false, recomputed := false, digitalBound := false
          facetFault := parts.any (fun p => decide (p.2 = .lost)), clamps := 0 }
      let past := (deltaSums j).2
      let s := s.countEnc ⟨j.slot, j.m, j.vec⟩ { EncCounts.none with fpSat := past, events := past }
      -- the record names a group, and here none has failed: a free one (assumption log 152, DESIGN CHOICE)
      let s := parts.foldl (fun (s : Work) (p : Nat × Part) =>
        if p.2 = .lost ∧ (s.arr (4 * e + p.1)).state = 5 then
          let (n, s) := s.fresh
          s.suspectNoGolden (4 * e + p.1) (Config.wholeOpen n 8 % 8)
        else s) s
      let s := s.modEngine e (fun x => { x with
        queue := rest
        runs := x.runs ++ [r]
        phases := fs.foldl (fun ph f =>
          if frs.any (fun y => y.facet = f) then put ph f (look [] ph f ++ facetPhases j tag f) else ph) x.phases })
      -- stand-ins: exact contributions, once counted per instance and facet
      parts.foldl (fun s p =>
        if p.2 ≠ .standin then s
        else
          let facet := 4 * e + p.1
          let key : FacetInst := ⟨⟨j.slot, j.seq, j.m⟩, facet⟩
          let s := if s.step.standin.contains key then s
            else (s.add Obj.standinInstances 1).modStep (fun x => { x with standin := x.standin ++ [key] })
          match s.runOf e tag with
          | some r =>
            let input := j.facetInput p.1
            s.mergeLanes e r ((List.range (facetOut j.transposed)).map (fun i =>
              (laneIndex j.transposed j.join p.1 i, s.exactDot facet j.transposed true j.twoPass input i)))
          | none => s) s

/-! ## Counting by layer (R99, R115) -/

def LayerCount.zero (slot layer : Nat) : LayerCount := ⟨slot, layer, 0, 0, 0, 0, 0, 0⟩

/-- Change a layer's counts. -/
def Work.layerCount (s : Work) (slot layer : Nat) (f : LayerCount → LayerCount) : Work :=
  let here := fun (c : LayerCount) => c.slot = slot && c.layer = layer
  if s.layerCounts.any here then { s with layerCounts := s.layerCounts.map (fun c => if here c then f c else c) }
  else { s with layerCounts := s.layerCounts ++ [f (.zero slot layer)] }

/-- Count a Level 1 replay or Level 2 clamp of a layer in this step; FACET_SATURATION once per layer and step (R99). What
its half of DETAIL holds of a count past 65,535 is free, as the spec does not say that it saturates (assumption log 114). -/
def Work.saturation (s : Work) (slot layer facet dr dc : Nat) : Work :=
  let here := fun (c : LayerSat) => c.slot = slot && c.layer = layer
  let old := (s.step.layerSat.find? here).getD ⟨slot, layer, 0, 0, false⟩
  let r := old.replays + dr
  let c := old.clamps + dc
  let lr := s.get Obj.replayEventLimit
  let lc := s.get Obj.clampEventLimit
  let hit := !old.raised && ((lr ≠ 0 && lr ≤ r) || (lc ≠ 0 && lc ≤ c))
  let new : LayerSat := ⟨slot, layer, r, c, old.raised || hit⟩
  let s := s.modStep (fun x => { x with layerSat := x.layerSat.filter (fun y => !here y) ++ [new] })
  if hit then s.log 0 1 1 slot facet 0xFFFF (countIn 16 r + 65536 * countIn 16 c) else s

/-! ## Recomputes (R98, R132 to R134) -/

/-- A clamp that stands: counted, a numeric event, and the pair's registers of the passes merged already are merged. -/
def Work.unrecover (s : Work) (e : Nat) (q : Recompute) : Work :=
  match s.runOf e q.tag with
  | none => s
  | some r =>
    let j := r.job
    let s := (s.add Obj.unrecoveredClamps 1).numeric ⟨j.slot, j.m, j.vec⟩ 1
    let s := s.layerCount j.slot j.layer (fun c => { c with unrecovered := c.unrecovered + 1 })
    match r.facetRun q.facet with
    | none => s.setRun e { r with unrecovered := true }
    | some x =>
      let lane := laneIndex j.transposed j.join q.facet q.pair
      let hi := if q.full && x.hiDone then [(lane, (if j.twoPass then 16 else 1) * x.hi.getD q.pair 0)] else []
      let lo := if j.twoPass && x.hiDone && x.loDone then [(lane, x.lo.getD q.pair 0)] else []
      let r := r.setFacet { x with excluded := x.excluded.filter (fun p => decide (p.1 ≠ q.pair)) }
      s.mergeLanes e { r with unrecovered := true } (hi ++ lo)

/-- Issue waiting golden reads while places are free; a pair whose golden image has become absent stays clamped. -/
def Work.issueReads (s : Work) (e : Nat) : Nat → Work
  | 0 => s
  | n + 1 =>
    let x := s.engine e
    match x.waiting with
    | [] => s
    | q :: rest =>
      match s.runOf e q.tag with
      | none => (s.setEngine e { x with waiting := rest }).issueReads e n
      | some r =>
        if !s.goldenPresent (e / 32) (s.arr (4 * e + q.facet)).slot then
          ((s.setEngine e { x with waiting := rest }).unrecover e q).issueReads e n
        else if x.places < r.job.recomputeLimit then
          (s.setEngine e { x with waiting := rest, reading := x.reading ++ [q] }).issueReads e n
        else s

/-- A pair reaches Level 2 (R96, R98, R132): counted once per MVM, and its recompute requested or its clamp left. -/
def Work.clampPair (s : Work) (e f : Nat) (tag pass pair : Nat) : Work :=
  match s.runOf e tag with
  | none => s
  | some r =>
    match r.facetRun f with
    | none => s
    | some x =>
      if x.clamped.contains pair then s
      else
        let j := r.job
        let full := j.twoPass && pass = 0
        let golden := s.goldenPresent (e / 32) (s.arr (4 * e + f)).slot
        let x := { x with
          clamped := x.clamped ++ [pair]
          excluded := if golden then x.excluded ++ [(pair, full || !j.twoPass)] else x.excluded
          skipped := (x.skipped ++ (if j.transposed then [] else [pair / 64])).eraseDups }
        let s := s.setRun e { (r.setFacet x) with clamps := r.clamps + 1 }
        let s := s.add (if j.transposed then Obj.tclampedRows else Obj.clampedColumns) 1
        let s := s.layerCount j.slot j.layer (fun c =>
          if j.transposed then { c with tclamps := c.tclamps + 1 } else { c with clamps := c.clamps + 1 })
        let s := s.saturation j.slot j.layer (4 * e + f) 0 1
        let q : Recompute := ⟨tag, f, pair, full || !j.twoPass⟩
        if golden then
          (s.modEngine e (fun y => { y with waiting := y.waiting ++ [q] })).issueReads e 4096
        else s.unrecover e q

/-! ## The end of a conversion window -/

/-- The correction stage (R121, R122): the corrected value of a phase code. -/
def correct (fsc : Nat) (gamma beta : Int) (c s1 : Int) : Int :=
  roundHalfEven (((c * 2 ^ (fsc + 1) : Int) : Rat) * (1 + (gamma : Rat) / 524288) - (beta : Rat) / 65536 * (s1 : Rat))

/-- The code of a pair in a window; absent pairs gave 0. -/
def codeAt (w : WindowEnd) (j : Nat) : Int :=
  match w.codes.find? (fun p => p.pair = j) with
  | some p => p.code
  | none => 0

/-- A window's codes added to another's (R96). Assumption log 79, DEDUCED. -/
def plusCodes (a b : WindowEnd) : WindowEnd :=
  { a with
    codes := (List.range 1024).filterMap (fun j =>
      let v := codeAt a j + codeAt b j
      if v = 0 then none else some ⟨j, v, false⟩)
    chk := (List.range 8).map (fun g => a.chk.getD g 0 + b.chk.getD g 0)
    ref := [], shadow := [] }

/-- A checksum code within its converter's range (R101). -/
def clampChk (v : Int) : Int := clampInt (-2047) 2047 v

/-- A code as a slice returns it: an output of 127.5 LSB or more gives ±127 and the flag, and a flag stands on no other code (R85, R107). -/
def convertedCode (c : PairCode) : PairCode :=
  if 127 < c.code.natAbs then { c with code := clampInt (-127) 127 c.code, sat := true }
  else { c with sat := c.sat && decide (c.code.natAbs = 127) }

/-- A window's data codes as its slices return them. -/
def convertedWindow (w : WindowEnd) : WindowEnd := { w with codes := w.codes.map convertedCode, shadow := w.shadow.map convertedCode }

/-- The sum of the codes of pairs 64g to 64g + 63. -/
def groupSum (codes : List PairCode) (g : Nat) : Int :=
  (codes.filter (fun p => p.pair / 64 = g)).foldl (fun a p => a + p.code) 0

/-- The level of reference pair c on every row; REF3 alternates (R100, R103). -/
def refIdeal (c : Nat) (s1 sa : Int) : Int :=
  match c with
  | 0 => 7 * s1
  | 1 => -7 * s1
  | 2 => 0
  | 3 => 7 * sa
  | 4 => s1
  | 5 => 3 * s1
  | 6 => 5 * s1
  | _ => -s1

/-- A code beyond the sentinel converter's range (R101). -/
def refOut (v : Int) : Bool := v < -2047 || 2047 < v

/-- The drift sums with a phase's reference codes added (R235), and how many samples were out of range (R101); a phase all of whose
samples were does not contribute. -/
def Drift.sample (d : Drift) (fsc : Nat) (ref : List Int) (s1 sa : Int) : Drift × Nat :=
  let d := if (List.range 8).all (fun c => refOut (ref.getD c 0)) then d else { d with phases := d.phases + 1 }
  (List.range 8).foldl (fun acc c =>
    let v := ref.getD c 0
    if refOut v then (acc.1, acc.2 + 1)
    else
      let mm : Int := v * 2 ^ (fsc + 1)
      let ideal := refIdeal c s1 sa
      let d := acc.1
      (if c = 2 then { d with m2s := d.m2s + mm * s1, ss := d.ss + s1 * s1 }
       else { d with mi := d.mi + mm * ideal, si := d.si + s1 * ideal, ii := d.ii + ideal * ideal }, acc.2)) (d, 0)

/-- The reference codes of a window taken into an array's drift sums. -/
def Work.sampleRefs (s : Work) (array fsc : Nat) (ref : List Int) (rows : List (Nat × Int)) : Work :=
  let (d, out) := (s.arr array).drift.sample fsc ref (sum1 rows) (sumAlt rows)
  let s := s.modArr array (fun a => { a with drift := d })
  if out = 0 then s else s.add Obj.refSaturated out

/-- Reference samples out of range, counted where no drift is tracked: in a poisoned MVM (R101, R235). -/
def Work.countRefs (s : Work) (ref : List Int) : Work :=
  let out := ((List.range 8).filter (fun c => refOut (ref.getD c 0))).length
  if out = 0 then s else s.add Obj.refSaturated out

/-! ## What the slice out of service gathers (R83, R230, R231) -/

/-- A pair of codes joins the sums. -/
def PairSums.join (p : PairSums) (c : Int × Int) : PairSums :=
  { n := p.n + 1, x := p.x + c.1, y := p.y + c.2, xx := p.xx + c.1 * c.1, xy := p.xy + c.1 * c.2, yy := p.yy + c.2 * c.2 }

/-- A code a slice returned, `none` with its flag set; absent codes gave 0. -/
def unflagged (l : List PairCode) (j : Nat) : Option Int :=
  match l.find? (fun c => c.pair = j) with
  | some c => if c.sat then none else some c.code
  | none => some 0

/-- The samples of window n since a slice went out: in an even one its code in each cycle with that of its peer, the slice of group
(n / 2) mod 32; in an odd one its code of each reference pair with the sentinel converter's. Peers beyond ±120 give none. -/
def calSamples (n : Nat) (w : WindowEnd) : List (Int × Int) :=
  let peer := fun (t : Nat) => if n % 2 = 0 then unflagged w.codes (16 * (n / 2 % 32) + t) else w.ref[t]?
  (List.range (if n % 2 = 0 then 16 else 8)).filterMap (fun t => match unflagged w.shadow t, peer t with
    | some x, some y => if y.natAbs ≤ 120 then some (x, y) else none
    | _, _ => none)

/-- A conversion window of an array: each slice in service has converted 16 pairs, the one out of service what it shadows; the samples of a
window whose codes are used join its sums. CAL_ENABLE 0 freezes both (R251). -/
def Work.calWindow (s : Work) (a : Nat) (used : Bool) (w : WindowEnd) : Work :=
  if s.get Obj.calEnable = 0 then s
  else s.modArr a (fun x =>
    let n := x.cal.windows
    let count := fun (l : List (Nat × SlicePos)) (q by_ : Nat) =>
      let p := look SlicePos.reset l q
      put l q { p with conversions := p.conversions + by_ }
    let ps := x.groupPos.foldl (fun l q => count l q 16) x.positions
    match x.outPos with
    | none => { x with positions := ps }
    | some q =>
      let cs := if used then calSamples n w else []
      { x with
        positions := count ps q (if n % 2 = 0 then 16 else 8)
        cal := { windows := n + 1
                 data := if n % 2 = 0 then cs.foldl PairSums.join x.cal.data else x.cal.data
                 refs := if n % 2 = 0 then x.cal.refs else cs.foldl PairSums.join x.cal.refs } })

/-- The registers of a pass with a phase's corrected codes added. -/
def addCodes (regs : List Int) (fsc : Nat) (gamma beta : Int) (w : WindowEnd) (s1 : Int) : List Int :=
  regs.mapIdx (fun j v => v + correct fsc gamma beta (codeAt w j) s1)

/-- Commit a phase's codes to the facet's registers and check sums. -/
def FacetRun.commit (x : FacetRun) (j : MvmJob) (a : Arr) (pass : Nat) (w : WindowEnd) (rows : List (Nat × Int)) :
    FacetRun :=
  let beta := if j.transposed then 0 else a.beta
  let s1 := sum1 rows
  if pass = 0 then
    { x with
      hi := addCodes x.hi j.fsc a.gamma beta w s1
      dataHi := x.dataHi.mapIdx (fun g v => v + groupSum w.codes g)
      chkHi := x.chkHi.mapIdx (fun g v => v + w.chk.getD g 0) }
  else
    { x with
      lo := addCodes x.lo j.fsc a.gamma beta w s1
      dataLo := x.dataLo.mapIdx (fun g v => v + groupSum w.codes g)
      chkLo := x.chkLo.mapIdx (fun g v => v + w.chk.getD g 0) }

/-- The check values D_g of a facet's pass (R102). -/
def checkValue (data chk : List Int) (g : Nat) : Int := 16 * data.getD g 0 - 64 * chk.getD g 0

/-- What a pass merges into the lanes: its registers but for the pairs excluded (R123, R124, R132). -/
def mergeList (j : MvmJob) (x : FacetRun) (pass : Nat) : List (Nat × Int) :=
  let regs := if pass = 0 then x.hi else x.lo
  (regs.zipIdx.filter (fun p => !x.excluded.any (fun q => q.1 = p.2 && (q.2 || pass = 1)))).map
    (fun p => (laneIndex j.transposed j.join x.facet p.2, if j.twoPass && pass = 0 then 16 * p.1 else p.1))

/-- The held check of a facet of a run. -/
def heldOf (e : Nat) (r : Run) (x : FacetRun) (g : Option Nat) (failed : List Nat) : HeldCheck :=
  { engine := e, facet := 4 * e + x.facet, group := g, failed := failed, tag := r.tag, slot := r.job.slot
    seq := r.job.seq, m := r.job.m, vec := r.job.vec, fsc := r.job.fsc, wide := r.job.twoPass
    transposed := r.job.transposed, clamped := x.clamped, input := x.input, hi := x.hi, lo := x.lo, chkHi := x.chkHi, chkLo := x.chkLo }

/-- When a facet has finished its MVM: the sentinel checks of its groups, judged over both passes, and a shadow sample
kept (R102, R109, R483, R504). Assumption log 80, DEDUCED. -/
def Work.facetDone (s : Work) (e : Nat) (r : Run) (x : FacetRun) : Work :=
  let j := r.job
  if r.nav then s
  else
    let bad := fun (g : Nat) => decide (j.tol < (checkValue x.dataHi x.chkHi g).natAbs) ||
      (j.twoPass && decide (j.tol < (checkValue x.dataLo x.chkLo g).natAbs))
    let failed := if j.transposed then [] else (List.range 8).filter (fun g => !x.skipped.contains g && bad g)
    let s := if x.skipped.isEmpty then s else s.add Obj.checkSkipped x.skipped.length
    let s := if failed.isEmpty then s else s.add Obj.checkMismatches failed.length
    let held := if x.sampled then [heldOf e r x none failed] else failed.map (fun g => heldOf e r x (some g) [g])
    if held.isEmpty then s
    else
      let s := s.modStep (fun y => { y with held := y.held ++ held
                                            ops := y.ops.map (fun o =>
          if o.ctx.slot = j.slot ∧ o.ctx.seq = j.seq ∧ o.ctx.m = j.m then
            { o with vecs := o.vecs.map (fun v =>
                if v.vec = j.vec then { v with checks := v.checks ++ held.map (fun h => (h.tag, h.facet)) } else v) }
          else o) })
      match s.runOf e r.tag with
      | some r => s.setRun e { r with pendingCheck := true }
      | none => s

/-- The end of a facet's pass: its registers merge; with its last pass the facet is done. The low pass of a wide MVM merges no sooner than
its high pass, whose replay may follow it (R97) and decides what the low pass leaves out (R132). -/
def Work.passDone (s : Work) (e f tag pass : Nat) : Work :=
  match s.runOf e tag with
  | none => s
  | some r =>
    match r.facetRun f with
    | none => s
    | some x =>
      let x := if pass = 0 then { x with hiDone := true } else { x with loDone := true }
      let r := r.setFacet x
      let hi := if pass = 0 then mergeList r.job x 0 else []
      let lo := if r.job.twoPass && x.hiDone && x.loDone then mergeList r.job x 1 else []
      let s := s.mergeLanes e r (hi ++ lo)
      if x.hiDone && x.loDone then
        match s.runOf e tag with
        | some r => s.facetDone e r x
        | none => s
      else s

/-- Insert half-phases after the held phase and after the halves already waiting (R97); a phase of the other mode is not held until the
replay has ended (R92). -/
def insertHalves (sameMode : Phase → Bool) (rest halves : List Phase) : List Phase :=
  match rest with
  | [] => halves
  | p :: ps =>
    if !sameMode p then halves ++ p :: ps else
    let waiting := ps.takeWhile (fun q => q.half ≠ 0)
    p :: (waiting ++ halves ++ ps.drop waiting.length)

/-- The two half-phases of a phase: the first ceil(n/2) of its rows, and the rest (R96). -/
def halves (p : Phase) : List Phase :=
  let n := (p.rows.length + 1) / 2
  [{ p with half := 1, rows := p.rows.take n }, { p with half := 2, rows := p.rows.drop n }]

/-- Change a facet's record in a run. -/
def Work.modFacet (s : Work) (e tag f : Nat) (g : FacetRun → FacetRun) : Work :=
  match s.runOf e tag with
  | some r => match r.facetRun f with
    | some x => s.setRun e (r.setFacet (g x))
    | none => s
  | none => s

/-- Groups whose checksum code is out of range (R101). -/
def chkOut (w : WindowEnd) : List Nat := (List.range 8).filter (fun g => refOut (w.chk.getD g 0))

/-- A window with its checksum codes clamped. -/
def clampSentinels (w : WindowEnd) : WindowEnd := { w with chk := w.chk.map clampChk }

/-- PHASE_WINDOW_END: the flags of the facet's phase are evaluated, its codes taken, replayed or clamped (R96 to R102). -/
def Work.windowEnd (s : Work) (w : WindowEnd) : Work :=
  let w := convertedWindow w
  let e := w.engine
  let f := w.facet
  let x := s.engine e
  match look [] x.phases f with
  | [] => s
  | p :: rest =>
    match s.runOf e p.tag with
    | none => s.setEngine e { x with phases := put x.phases f rest }
    | some r =>
      match r.facetRun f with
      | none => s.setEngine e { x with phases := put x.phases f rest }
      | some fr =>
        let j := r.job
        let flagged := if r.nav then [] else (w.codes.filter (fun c => c.sat && c.pair < facetOut j.transposed)).map (·.pair)
        let s := s.add (if j.transposed then Obj.tphases else Obj.phases) 1
        let s := if j.transposed then s else
          (s.layerCount j.slot j.layer (fun c => { c with phases := c.phases + 1 })).modArr fr.array
            (fun a => { a with lastForward := s.get Obj.poweredSeconds })
        let s := (s.modFacet e p.tag f (fun y => { y with windows := y.windows + 1 })).meter (if e < 1024 then Obj.arrayEnergyWarp else Obj.arrayEnergyWeft)
        let s := if j.transposed then s else s.calWindow fr.array (!r.poison && !(decide (p.half = 0) && !flagged.isEmpty)) w
        let sameMode := fun (q : Phase) => match s.runOf e q.tag with
          | some r' => r'.job.transposed = j.transposed
          | none => true
        if p.half = 0 ∧ flagged ≠ [] then
          let s := s.modEngine e (fun x => { x with phases := put x.phases f (insertHalves sameMode rest (halves p)) })
          let s := s.add (if j.transposed then Obj.tsplitReplays else Obj.splitReplays) 1
          let s := s.layerCount j.slot j.layer (fun c =>
            if j.transposed then { c with treplays := c.treplays + 1 } else { c with replays := c.replays + 1 })
          s.saturation j.slot j.layer (4 * e + f) 1 0
        else
          let s := s.modEngine e (fun x => { x with phases := put x.phases f rest })
          let outs := if j.transposed || r.nav then [] else chkOut w
          let s := s.modFacet e p.tag f (fun y => { y with skipped := (y.skipped ++ outs).eraseDups })
          let s := if j.transposed then s else if r.poison then s.countRefs w.ref else s.sampleRefs fr.array j.fsc w.ref p.rows
          let w := clampSentinels w
          let s := flagged.foldl (fun s q => s.clampPair e f p.tag p.pass q) s
          let a := s.arr fr.array
          let s :=
            if p.half = 1 then s.modFacet e p.tag f (fun y => { y with halfA := some w })
            else if p.half = 2 then
              s.modFacet e p.tag f (fun y =>
                -- the offset term covers the whole phase: the rows of both halves
                let wa := y.halfA.getD ⟨e, f, [], [], [], []⟩
                let all := (facetPhases j p.tag f).find? (fun ph => ph.pass = p.pass && p.rows.all (fun q => ph.rows.contains q))
                let rows := match all with
                  | some ph => ph.rows
                  | none => p.rows
                { (y.commit j a p.pass (plusCodes wa w) rows) with halfA := none })
            else s.modFacet e p.tag f (fun y => y.commit j a p.pass w p.rows)
          let left := (look [] (s.engine e).phases f).any (fun q => q.tag = p.tag && q.pass = p.pass)
          if left then s else s.passDone e f p.tag p.pass

/-- GOLDEN_READ_RETURN (R132, R134). -/
def Work.goldenReturn (s : Work) (g : GoldenReturn) : Work :=
  let x := s.engine g.engine
  match x.reading.find? (fun q => q.facet = g.facet && q.pair = g.pair) with
  | none => s
  | some q =>
    let s := s.setEngine g.engine { x with reading := x.reading.erase q }
    if g.poison then
      let facet := 4 * g.engine + g.facet
      ((s.markUnverifiable (facetCore facet) (s.arr facet).slot).unrecover g.engine q).issueReads g.engine 4096
    else s.modEngine g.engine (fun x => { x with arrived := x.arrived ++ [q] })

/-- RECOMPUTE_COMPLETE: the oldest arrived recompute is formed and added, without shift (R132, R133). -/
def Work.recomputeDone (s : Work) (e : Nat) : Work :=
  let x := s.engine e
  match x.arrived with
  | [] => s
  | q :: rest =>
    let s := (s.setEngine e { x with arrived := rest }).add Obj.recomputes 1
    let s := match s.runOf e q.tag with
      | none => s
      | some r =>
        match r.facetRun q.facet with
        | none => s
        | some fr =>
          let j := r.job
          let v := s.exactDot (4 * e + q.facet) j.transposed q.full j.twoPass fr.input q.pair
          s.mergeLanes e { r with recomputed := true } [(laneIndex j.transposed j.join q.facet q.pair, v)]
    s.issueReads e 4096

/-! ## Epilogue and assembly (R135 to R137, R200) -/

/-- A value rounded to FP32, and whether it saturated. -/
def f32 (x : Rat) : Rat × Bool :=
  let r := fpOf x
  (r.value, decide (r.sat ≠ 0))

/-- y of a lane (R135), and how many of its operations overflowed. Assumption log 21, DEDUCED. -/
def epilogueLane (x : Int) (scale : Option Nat) (eIn : Int) (d : Nat) : Nat × Nat :=
  let (a, o1) := f32 x
  let (b, o2) := match scale with
    | some w => f32 (a * (fmtFp16.value w).1)
    | none => (a, false)
  let (c, o3) := f32 (b * pow2 eIn)
  let (dd, o4) := f32 ((fmtFp32.value d).1 * pow2 eIn)
  let (w, o5, _) := fmtFp32.write .nearest (c + dd)
  (w, bit o1 + bit o2 + bit o3 + bit o4 + bit o5)

/-- The array cycles of an MVM: its slowest facet's windows (R130). -/
def Run.arrayCycles (r : Run) : Nat := 16 * maxNat (r.facets.map (·.windows))

/-- The status word of R137. -/
def Run.status (r : Run) (pending digital : Bool) : Nat :=
  bit r.poison + 2 * bit pending + 4 * bit r.unrecovered + 8 * bit r.overflow + 16 * bit r.job.twoPass +
    32 * bit r.recomputed + 64 * bit digital + 256 * min 255 r.clamps

/-- Sum of FP32 words in order, and how many additions saturated; `none` when any is poison. -/
def sumWords : List (Option Nat) → Option Nat × Nat
  | [] => (some 0, 0)
  | w :: ws => ws.foldl (fun acc v =>
      match acc.1, v with
      | some a, some b =>
        let (r, sat, _) := fmtFp32.write .nearest ((fmtFp32.value a).1 + (fmtFp32.value b).1)
        (some r, acc.2 + bit sat)
      | _, _ => (none, acc.2)) (w, 0)

/-- The status words of a vector's engine MVMs merged: their bits, and the sum of their CLAMPS (R200). -/
def VecAsm.status (v : VecAsm) : Nat × Nat :=
  v.parts.foldl (fun (acc : Nat × Nat) (p : VecPart) => match p.result with
    | some (w, _) => (acc.1 ||| w % 256, acc.2 + w / 256)
    | none => acc) (0, 0)

/-- A rank's lanes: the engine outputs summed per lane in ascending engine-ID order; one engine's POISON poisons them all (R200). -/
def rankLanes (v : VecAsm) (n rank : Nat) : List (Option Nat) × Nat :=
  let ps := sortOn (·.engine) (v.parts.filter (fun p => p.rank = rank))
  if ps.any (fun p => match p.result with | some (w, _) => bitAt w 0 | none => false) then (List.replicate n none, 0) else
  let cols := (List.range n).map (fun i =>
    sumWords (ps.filterMap (fun p => match p.result with
      | some (_, ws) => if p.outOff ≤ i ∧ i < p.outOff + ws.length then some (ws.getD (i - p.outOff) none) else none
      | none => none)))
  (cols.map (·.1), sumNat (cols.map (·.2)))

/-- FP32 multiply-add of a weighted output (R211). -/
def weighted (w : Nat) (y : Option Nat) : Option Nat × Nat :=
  match y with
  | some v =>
    let (r, sat, _) := fmtFp32.write .nearest ((fmtFp16.value w).1 * (fmtFp32.value v).1)
    (some r, bit sat)
  | none => (none, 0)

/-- The final lanes of a vector of an instance (R200, R211), before conversion. -/
def OpRun.lanes (o : OpRun) (v : VecAsm) : List (Option Nat) × Nat :=
  if o.kind ≤ 1 then rankLanes v o.n 0
  else
    let rs := (List.range v.weights.length).map (fun k => rankLanes v o.n k)
    if o.kind = 2 then (rs.flatMap (·.1), sumNat (rs.map (·.2)))
    else
      let ws := rs.mapIdx (fun k r => r.1.map (weighted (v.weights.getD k 0)))
      let cols := (List.range o.n).map (fun i => sumWords (ws.map (fun r => (r.getD i (none, 0)).1)))
      (cols.map (·.1), sumNat (rs.map (·.2)) + sumNat (ws.map (fun r => sumNat (r.map (·.2)))) + sumNat (cols.map (·.2)))

/-- Write a vector whose parts are all in and whose checks are settled (R200). -/
def Work.finishVec (s : Work) (o : OpRun) (v : VecAsm) : Work :=
  let c := o.ctx
  let (lanes, sats) := o.lanes v
  let old := if o.accumulate then vecReals ((s.buf c.slot c.dst c.m).getD v.vec (.words 6 [])) else []
  let (xs, sats) := (lanes.zipIdx.foldl (fun (acc : List (Option Rat) × Nat) p =>
    match p.1 with
    | none => (acc.1 ++ [none], acc.2)
    | some w =>
      let y := (fmtFp32.value w).1
      if o.accumulate then
        match old.getD p.2 (some 0) with
        | some z => let (t, sat) := f32 (z + y); (acc.1 ++ [some t], acc.2 + bit sat)
        | none => (acc.1 ++ [none], acc.2)
      else (acc.1 ++ [some y], acc.2)) ([], sats))
  let k : VecKey := ⟨c.slot, c.m, v.vec⟩
  let st := v.status
  let s := s.note k (fun (x : VecNote) => { x with status := x.status ||| st.1, clamps := x.clamps + st.2 })
  let s := s.countEnc k { EncCounts.none with fpSat := sats, events := sats }
  s.writeResult c v.vec o.outFmt noDraw xs

/-- Whether a vector is ready to be written. -/
def VecAsm.ready (v : VecAsm) : Bool := !v.written && v.checks.isEmpty && v.parts.all (fun p => p.result.isSome)

/-- Write every ready vector of the running instances; instances all of whose vectors are written end. -/
def Work.settleOps (s : Work) : Work :=
  s.step.ops.foldl (fun (s : Work) (o : OpRun) =>
    let s := (o.vecs.filter VecAsm.ready).foldl (fun (s : Work) (v : VecAsm) => s.finishVec o v) s
    let o' := { o with vecs := o.vecs.map (fun (v : VecAsm) => if v.ready then { v with written := true } else v) }
    if o'.vecs.all (·.written) then
      (s.modStep (fun x => { x with ops := x.ops.filter (fun (y : OpRun) => decide (y.ctx ≠ o.ctx)) })).endOp o.ctx
    else s.modStep (fun x => { x with ops := x.ops.map (fun (y : OpRun) => if y.ctx = o.ctx then o' else y) })) s

/-- A part of a vector comes in. -/
def Work.partIn (s : Work) (j : MvmJob) (e status : Nat) (ws : List (Option Nat)) : Work :=
  let s := s.modStep (fun x => { x with ops := x.ops.map (fun o =>
    if o.ctx.slot = j.slot ∧ o.ctx.seq = j.seq ∧ o.ctx.m = j.m then
      { o with vecs := o.vecs.map (fun v =>
          if v.vec = j.vec then
            { v with parts := v.parts.map (fun p =>
                if p.engine = e ∧ p.rank = j.rank ∧ p.outOff = j.outOff ∧ p.result.isNone
                then { p with result := some (status, ws) } else p) }
          else v) }
    else o) })
  s.settleOps

/-- A run whose epilogue may run: every facet done, no recompute, no sample unjudged (R133, R481). -/
def Work.epilogueReady (s : Work) (e : Nat) (r : Run) : Bool :=
  let x := s.engine e
  r.facets.all (fun f => f.hiDone && f.loDone) &&
    !(x.waiting ++ x.reading ++ x.arrived).any (fun q => q.tag = r.tag) &&
    !s.step.held.any (fun h => h.tag = r.tag && h.engine = e && h.group.isNone)

/-- EPILOGUE: the oldest MVM of the engine leaves with its partial sums and status word (R133, R135 to R137). -/
def Work.epilogue (s : Work) (e : Nat) : Work :=
  match (s.engine e).runs with
  | [] => s
  | r :: rest =>
    if !s.epilogueReady e r then s
    else
      let j := r.job
      let count := min (laneCount j.transposed j.join) (j.n - j.outOff)
      let outs := (List.range count).map (fun i =>
        let x : Int := r.lanes.getD i 0 + look 0 r.outlier i
        let sc := if j.transposed then none else some (s.scale j.slot j.slice (j.outOff + i))
        epilogueLane x sc j.eIn (look 0 r.delta i))
      let past := sumNat (outs.map (·.2))
      let digital := !j.transposed &&
        decide (r.arrayCycles < (s.engineStore e |> fun st => ((storeOutliers st j.mask).length + 63) / 64) + (j.deltas.length + 63) / 64)
      let pending := s.step.held.any (fun h => h.tag = r.tag && h.engine = e)
      let status := r.status pending digital
      let k : VecKey := ⟨j.slot, j.m, j.vec⟩
      let s := s.modEngine e (fun x => { x with runs := rest })
      let s := if past = 0 then s else (s.add Obj.epilogueOverflows past).numeric k past
      let s := s.add Obj.engineMvms 1
      let s := if j.twoPass then s.add Obj.wideMvms 1 else s
      let s := if digital then s.add Obj.digitalBoundMvms 1 else s
      let s := if r.poison then (s.add Obj.poisonedOutputs 1).notePoison1 k else s
      let s := if r.facetFault then s.note k (fun v => { v with fault := true }) else s
      s.partIn j e status (outs.map (fun o => if r.poison then none else some o.1))

/-! ## The rows -/

def execEngineMvmStart (engine : Nat) (ecc : List (Nat × Bool)) (s : State) : Host.Outcome State Fault Refusal :=
  s.nextIf (engineExists s.ident engine) (fun w => w.inside (engine / 32) (fun w => w.mvmStart engine ecc))

def execPhaseWindowEnd (x : WindowEnd) (s : State) : Host.Outcome State Fault Refusal :=
  s.nextIf (engineExists s.ident x.engine && x.facet < 4) (fun w => w.inside (x.engine / 32) (fun w => w.windowEnd x))

def execGoldenReadReturn (g : GoldenReturn) (s : State) : Host.Outcome State Fault Refusal :=
  s.nextIf (engineExists s.ident g.engine && g.facet < 4) (fun w => w.inside (g.engine / 32) (fun w => w.goldenReturn g))

def execRecomputeComplete (engine : Nat) (s : State) : Host.Outcome State Fault Refusal :=
  s.nextIf (engineExists s.ident engine) (fun w => w.inside (engine / 32) (fun w => w.recomputeDone engine))

def execEpilogue (engine : Nat) (s : State) : Host.Outcome State Fault Refusal :=
  s.nextIf (engineExists s.ident engine) (fun w => w.inside (engine / 32) (fun w => w.epilogue engine))

end Sys2Proof.Machine
end

