-- ==== Sys2Proof/Machine/Calibration.lean ====
section
/-! DEFINITION. Trim sets, background calibration, drift tracking, ageing and refresh, lifetime records and the calendar
(R227 to R252). -/

namespace Sys2Proof.Machine

/-! ## Temperatures and codes -/

/-- The temperature of an array, 1/16 °C: its cluster's diode on the monitor of its half (R228); the domain's held value
before the diode's first result. -/
def Work.arrayTemp (s : Work) (a : Nat) : Int :=
  let c := arrayCore a
  let h := c / 32
  let ch := stopCluster (coreRow c) (coreCol c) % 4
  match (s.hkHalf h).resultOf ch with
  | some e => e.value
  | none => (s.domain h).temp

/-- The facet an array serves. -/
def Work.facetOfArray (s : Work) (a : Nat) : Nat := if a < 0x8000 then a else (s.arr a).partner

/-- The smallest full-scale code any slice on a facet uses, in the slot's program or its tuning program (R201, R239); 7 when none does. -/
def Work.smallestCode (s : Work) (f : Nat) : Nat :=
  let x := s.arr f
  let experts := leAt ((s.slot x.slot).section 0x02) 24 2
  minList 7 ((s.program x.slot).sliceCodes experts x.slice ++ (s.tuneProgram x.slot).sliceCodes experts x.slice)

/-- The reference shift of an array, 1/64 LSB, before rounding (R239). -/
def Work.arrayShift (s : Work) (a : Nat) : Rat :=
  let x := s.arr a
  let lsb : Nat := 2 ^ (s.smallestCode (s.facetOfArray a) + 1)
  64 * (((x.gamma - x.gammaBase).natAbs : Rat) / 524288 * 127 + ((x.beta - x.betaBase).natAbs : Rat) / 65536 * 1024 / (lsb : Rat))

/-- The reference shift of a facet: that of the array that serves it. -/
def Work.shiftExact (s : Work) (f : Nat) : Rat := s.arrayShift (s.serving f)

/-- The shift as a record holds it; the spec gives no rounding (assumption log 26, DESIGN CHOICE). -/
def Work.shiftWord (s : Work) (a : Nat) : Nat := wholeIn 16 (s.arrayShift a)

/-! ## Refresh and replacement (R229, R240, R241, R271) -/

/-- The spare IDs of a core in a state. -/
def Work.sparesIn (s : Work) (core st : Nat) : List Nat :=
  ((List.range 4).map (4 * core + ·)).filter (fun n => (s.arr (0x8000 + n)).state = st)

/-- A queued refresh that cannot start: no golden image, or no spare beyond the reserved one (R241, R271). -/
def Work.refreshBlockedNow (s : Work) (f : Nat) : Bool :=
  !s.goldenPresent (facetCore f) (s.arr f).slot || (s.sparesIn (facetCore f) 7).length < 2

/-- Note that a queued refresh is blocked, once (R241). -/
def Work.noteBlocked (s : Work) (f : Nat) : Work :=
  let x := s.arr f
  if x.queued ≠ 0 ∧ x.blockedAt.isNone ∧ s.refreshBlockedNow f then
    ((s.setArr f { x with blockedAt := some (s.get Obj.poweredSeconds) }).add Obj.refreshBlocked 1).log 0 9 1 x.slot f 0xFFFF x.queued
  else s

/-- Facets now queued (R251). -/
def Work.refreshCount (s : Work) : Nat := (s.arrs.filter (fun p => p.1 < 8192 && p.2.queued ≠ 0)).length

/-- The Priority column of R240. -/
def refreshPriority (reason : Nat) : Nat := [9, 2, 3, 1, 1, 3].getD reason 9

/-- A facet that holds part of a slot and serves: ASSIGNED, or RETIRED with a spare standing for it. -/
def Arr.holds (x : Arr) : Bool := x.state = 2 || (x.state = 6 && x.slot ≠ 0xFF && x.mapTo.isSome)

/-- A refresh of a facet is under way, by a shadow or in place (R269, R272). -/
def Work.refreshing (s : Work) (f : Nat) : Bool := s.res.shadows.any (fun h => h.facet = f && (h.kind = 0 || h.kind = 3))

/-- Queue a refresh of a facet (R240); one already queued keeps the reason of the better priority. -/
def Work.queueRefresh (s : Work) (f reason : Nat) : Work :=
  let x := s.arr f
  if !x.holds then s
  else if x.queued = 0 then
    ((s.setArr f { x with queued := reason, blockedAt := none }).add Obj.refreshesScheduled 1).noteBlocked f
  else if refreshPriority reason < refreshPriority x.queued then s.setArr f { x with queued := reason }
  else s

/-- Queue a shadow operation (R269): kind 0 REFRESH, 1 REVERIFY, 2 REPLACE, 3 IN_PLACE. -/
def Work.queueShadow (s : Work) (kind f reason : Nat) : Work :=
  if s.res.shadows.any (fun h => h.facet = f && h.kind = kind) then s
  else { s with res := { s.res with shadows := s.res.shadows ++ [⟨0xFF, kind, f, 0, reason, 0⟩] } }

/-- A spare that stands for a facet and is found at fault is withdrawn; the facet has no array then. -/
def Work.withdrawRemap (s : Work) (f : Nat) : Work :=
  match (s.arr f).mapTo with
  | some n => (s.modArr (0x8000 + n) (fun y => { y with state := 11, partner := 0xFFFF, slot := 0xFF })).modArr f
      (fun x => { x with mapTo := none, partner := 0xFFFF })
  | none => s

/-- A facet becomes SUSPECT and its replacement is queued, ahead of every refresh (R229, R232, R485); where a spare stands for it,
the spare is withdrawn. A facet in no slot has nothing to replace. Assumption log 88, DEDUCED. -/
def Work.suspect (s : Work) (f reason : Nat) : Work :=
  let x := s.arr f
  if x.state = 1 then s.setArr f { x with state := 5 }
  else if x.state = 2 ∨ (x.state = 6 ∧ x.mapTo.isSome) then
    let s := if x.state = 6 then s.withdrawRemap f else s
    let s : Work := { s with rel := { s.rel with noGolden := s.rel.noGolden.filter (fun (g : Nat) => decide (g ≠ f)) } }
    let s := (s.modArr f (fun x => { x with state := 5 })).queueShadow 2 f reason
    if (s.sparesIn (facetCore f) 7).isEmpty && s.get Obj.inPlaceEnable = 0 then
      s.log 2 0x43 1 x.slot f 0xFFFF (2 ^ 31)
    else s
  else s

/-! ## Trim sets (R227 to R229) -/

/-- The trim points, °C. -/
def trimPointsC : List Nat := [25, 50, 75, 95, 110]

/-- Whether an array has an MVM in progress (R92). -/
def Work.arrayBusy (s : Work) (a : Nat) : Bool :=
  s.engines.any (fun e => e.2.runs.any (fun r => r.facets.any (fun f => f.array = a && !(f.hiDone && f.loDone))))

/-- A trim set record as written at manufacture (R227): its fields, eight zero bytes and the CRC over both. Assumption
log 27, DESIGN CHOICE. -/
def trimRecord (a p : Nat) : List Byte :=
  let body := (List.range 630).map (Config.trimByte a p) ++ List.replicate 8 0
  body ++ toLE 2 (crc16 body)

/-- A field of the set in force: interpolated between the nearest valid points (R228, R229). -/
def trimApplied (bad : List Nat) (t16 : Int) (fld : Nat → Int) : Option Int :=
  let good := trimPointsC.zipIdx.filter (fun p => !bad.contains p.2)
  let t := clampInt (25 * 16) (110 * 16) t16
  let lo := (good.filter (fun p => ((16 * p.1 : Nat) : Int) ≤ t)).getLast?
  let hi := (good.filter (fun p => t ≤ ((16 * p.1 : Nat) : Int))).head?
  match lo, hi with
  | some a, some b =>
    if a.1 = b.1 then some (fld a.2)
    else some (roundHalfEven ((fld a.2 : Rat) + ((t - (16 * a.1 : Nat) : Int) : Rat) / ((16 * (b.1 - a.1) : Nat) : Rat) *
      ((fld b.2 - fld a.2 : Int) : Rat)))
  | some a, none => some (fld a.2)
  | none, some b => some (fld b.2)
  | none, none => none

/-- A field of the set in force on an array, by its place and width; COL_OFFSET alone is signed (R227, R228). -/
def Work.trimField (s : Work) (a off len : Nat) (sgn : Bool) : Option Int :=
  match (s.arr a).trimTemp with
  | some t => trimApplied (s.arr a).trimBad t (fun p =>
      let v := leAt (trimRecord a p) off len
      if sgn then signed (8 * len) v else (v : Int))
  | none => none

/-- What is in force on an array (R227, R228): the read-pulse amplitude and sentinel reference codes, and a row-side slice's reference. -/
def Work.readAmplitude (s : Work) (a : Nat) : Option Int := s.trimField a 0 2 false

def Work.sentRef (s : Work) (a : Nat) : Option Int := s.trimField a 2 2 false

def Work.rowRef (s : Work) (a i : Nat) : Option Int := s.trimField a (70 + 2 * i) 2 false

/-- The reference code in force of a slice position: its trim plus its gain adjustment (R228, R231, R249). The spec gives no scale between
their steps (assumption log 132, DEDUCED). -/
def Work.sliceRef (s : Work) (a q : Nat) : Option Int :=
  (s.trimField a (4 + 2 * q) 2 false).map (· + ((s.arr a).position q).appliedGain)

/-- The offset in force of a pair, pu of a phase at full-scale code k: its trim in steps of 0.125 pu plus the offset adjustment, in 1/64 LSB,
of the slice position that serves its column group (R83, R86, R227, R231, R249). -/
def Work.colOffset (s : Work) (a j k : Nat) : Option Rat :=
  let x := s.arr a
  (s.trimField a (102 + j) 1 true).map (fun v =>
    let adj : Int := if j < 512 then (x.position (x.groupPos.getD (j / 16) 0)).appliedOff else 0
    (v : Rat) / 8 + (adj : Rat) / 64 * ((2 ^ (k + 1) : Nat) : Rat))

/-- TRIM_APPLY: the interpolated set is applied between MVMs when the temperature has moved by TRIM_STEP; `bad` are the
trim points whose record failed its CRC at this read. -/
def Work.trimApply (s : Work) (a : Nat) (bad : List Nat) : Work :=
  let x := s.arr a
  let t := s.arrayTemp a
  let due := match x.trimTemp with
    | none => true
    | some u => decide (16 * (s.get Obj.trimStep : Int) ≤ ((t - u).natAbs : Int))
  if x.state = 0 || !due || s.arrayBusy a then s
  else
    let bad := (bad.filter (· < 5)).eraseDups
    let s := bad.foldl (fun s p => (s.add Obj.trimStoreErrors 1).log 2 0x4A (arrayKind a) x.slot (arrayUnit a) 0xFFFF p) s
    let all := (x.trimBad ++ bad).eraseDups
    let s := s.setArr a { x with trimTemp := some t, trimBad := all }
    let s := s.add Obj.trimApplications 1
    if bad.isEmpty then s
    else
      let f := s.facetOfArray a
      if 2 ≤ 5 - all.length then s.queueRefresh f 5
      else if x.state = 7 then s.modArr a (fun x => { x with state := 11 })
      else s.suspect f 0x11

/-- TRIM_READ: the five trim sets of an array into TRIM_RECORD (R251); one that fails its CRC as the store returns it. -/
def Work.trimSnapshot (s : Work) (id : Nat) : Work :=
  let a := if bitAt id 15 then 0x8000 + id % 256 else id % 8192
  s.setDom Obj.trimRecord (toLE 2 id ++ List.replicate 14 0 ++ (List.range 5).flatMap (fun p =>
    if (s.arr a).trimBad.contains p then (List.range 640).map (Config.badTrimByte a p) else trimRecord a p))

/-! ## Background calibration (R230 to R234) -/

/-- A quantity as an I16: a whole number beside it, and past the range, of which the spec says nothing, any I16 (assumption log 26, DESIGN
CHOICE). -/
def openI16 (x : Rat) : Int :=
  let v := openWhole x
  if -32768 ≤ v ∧ v ≤ 32767 then v else signed 16 (Config.wholeOpen x.num x.den)

/-- The mean of x - y over the pairs (R230). -/
def PairSums.meanDiff (p : PairSums) : Rat := ((p.x - p.y : Int) : Rat) / ((p.n : Nat) : Rat)

/-- n² times the variances of x and of y, over the pairs as a whole population (assumption log 130, DESIGN CHOICE). -/
def PairSums.varX (p : PairSums) : Int := p.n * p.xx - p.x * p.x

def PairSums.varY (p : PairSums) : Int := p.n * p.yy - p.y * p.y

/-- Whether sd(y) is at least 2 LSB (R230). -/
def PairSums.spread (p : PairSums) : Bool := 4 * ((p.n * p.n : Nat) : Int) ≤ p.varY

/-- sd(y) / sd(x) - 1 in steps of 1/64 LSB at code 127, below `none` where sd(x) is 0 (R230, R231): the whole number below it or the one
above. -/
def PairSums.gain (p : PairSums) : Option Rat :=
  if p.varX ≤ 0 then none
  else
    let q := (8128 * 8128 * p.varY).toNat / p.varX.toNat
    let r := rootFloor 2 48 q 0
    if r * r * p.varX.toNat = (8128 * 8128 * p.varY).toNat then some ((r : Rat) - 8128)
    else some ((r : Rat) - 8128 + ((Config.wholeOpen p.varY p.varX.toNat % 2 : Nat) : Rat))

/-- The fit x = (1 + gain) y + off by least squares, in 1/64 LSB and 1/64 LSB at code 127; `none` where y does not vary (R230; assumption log
130, DESIGN CHOICE). -/
def PairSums.fit (p : PairSums) : Option (Rat × Rat) :=
  if p.varY ≤ 0 then none
  else
    let slope : Rat := ((p.n * p.xy - p.x * p.y : Int) : Rat) / (p.varY : Rat)
    some (64 * ((p.x : Rat) - slope * (p.y : Rat)) / ((p.n : Nat) : Rat), 8128 * (slope - 1))

/-- The common term is subtracted from every position's target after every 33rd calibration (R230). -/
def Arr.commonCorrect (x : Arr) : Arr :=
  let ps := (List.range 33).map (fun q => (q, x.position q))
  let mean := fun (vs : List Rat) => vs.foldl (· + ·) 0 / 33
  let co := mean (ps.map (·.2.rOff))
  let cg := mean (ps.map (·.2.rGain))
  { x with positions := ps.map (fun p =>
      (p.1, { p.2 with targetOff := openI16 ((p.2.targetOff : Rat) - co), targetGain := openI16 ((p.2.targetGain : Rat) - cg) })) }

/-- A failing slice keeps its applied adjustments (R232). -/
def Arr.keepApplied (x : Arr) (q : Nat) : Arr :=
  let p := x.position q
  { x with positions := put x.positions q { p with targetOff := p.appliedOff, targetGain := p.appliedGain } }

/-- Slice q returns to service in the place of the next position, which goes out and begins to gather (R83, R230). -/
def Arr.rotate (x : Arr) (q : Nat) : Arr :=
  let next := (q + 1) % 33
  { x with outPos := some next, groupPos := x.groupPos.map (fun p => if p = next then q else p), cal := .reset }

/-- Rotation stops with a slice retired: where that is not the position out of service, the latter takes its place (R84, R232). -/
def Arr.retire (x : Arr) (q r : Nat) : Arr :=
  { x with outPos := none, retiredPos := some r, groupPos := x.groupPos.map (fun p => if p = r then q else p), cal := .reset }

/-- SLICE_CALIBRATION_COMPLETE: once slice q holds CAL_SAMPLES data samples, its targets are derived and it returns to service, or it fails
(R230, R232). Assumption logs 81, DEDUCED, and 130, DESIGN CHOICE. -/
def Work.sliceCalibrated (s : Work) (a : Nat) : Work :=
  let x := s.arr a
  match x.outPos with
  | none => s
  | some q =>
    if s.get Obj.calEnable = 0 ∨ x.state = 0 ∨ x.cal.data.n < s.get Obj.calSamples then s
    else
      let s := s.add Obj.calCompleted 1
      let p := x.position q
      let (dGain, s) : Rat × Work :=
        if !x.cal.data.spread then (0, s.add Obj.calGainSkipped 1)
        else match x.cal.data.gain with
          | some g => (g, s)
          | none => let (u, s) := s.fresh; ((signed 16 u : Rat), s)
      let ((rOff, rGain), s) : (Rat × Rat) × Work :=
        match x.cal.refs.fit with
        | some r => (r, s)
        | none =>
          let (u, s) := s.fresh
          let (v, s) := s.fresh
          (((signed 16 u : Rat), (signed 16 v : Rat)), s)
      let p := { p with targetOff := openI16 ((p.appliedOff : Rat) - 64 * x.cal.data.meanDiff), targetGain := openI16 ((p.appliedGain : Rat) + dGain)
                        rOff := rOff, rGain := rGain }
      let x := { x with positions := put x.positions q p, calCount := x.calCount + 1 }
      let common := x.calCount % 33 = 0
      let x := if common then { x.commonCorrect with sentDue := true } else x
      let fails := fun (n : Nat) => decide (s.get Obj.sliceRetireOffset < (x.position n).targetOff.natAbs ∨
        s.get Obj.sliceRetireGain < (x.position n).targetGain.natAbs)
      -- the common term moves every target; the calibrated slice is judged first
      let failing := (q :: (if common then (List.range 33).filter (· ≠ q) else [])).filter fails
      match failing with
      | [] => s.setArr a (x.rotate q)
      | r :: more =>
        let x := (failing.foldl Arr.keepApplied x).retire q r
        let f := s.facetOfArray a
        let s := ((s.setArr a x).add Obj.sliceRetireEvents 1).log 1 0x62 (arrayKind a) x.slot (arrayUnit a) 0xFFFF r
        let s := s.queueRefresh f 3
        if more.isEmpty then s else s.suspect f 0x11

/-- One step of an applied adjustment toward its target. -/
def stepToward (v target : Int) : Int := if v < target then v + 1 else if target < v then v - 1 else v

/-- SLICE_ADJUST_STEP: after every 1,024 conversions by a slice, one step (R231). -/
def Work.sliceAdjust (s : Work) (a q : Nat) : Work :=
  let x := s.arr a
  let p := x.position q
  if s.get Obj.calEnable = 0 ∨ x.retiredPos = some q ∨ p.conversions < 1024 then s
  else
    let p := { p with appliedOff := stepToward p.appliedOff p.targetOff, appliedGain := stepToward p.appliedGain p.targetGain
                      conversions := p.conversions - 1024 }
    s.setArr a { x with positions := put x.positions q p }

/-- A step boundary of the die: no step in progress, or its own part of it ended (R198). -/
def Work.atBoundary (s : Work) : Bool := s.step.running.isNone || s.step.ended

/-- Gain and offset found against the internal reference, two I16 that the spec leaves to the measurement. -/
def Work.measured (s : Work) : (Int × Int) × Work :=
  let (u, s) := s.fresh
  let (v, s) := s.fresh
  ((signed 16 u, signed 16 v), s)

/-- SENTINEL_CONVERTER_CAL: after a rotation, and once 10 s have passed, at a step boundary; its result is applied at once (R234). -/
def Work.sentinelCal (s : Work) (a : Nat) : Work :=
  let now := s.get Obj.poweredSeconds
  if !s.atBoundary || s.arrayBusy a || !((s.arr a).sentDue || decide ((s.arr a).sentCalAt + 10 ≤ now)) then s
  else
    let (r, s) := s.measured
    s.modArr a (fun x => { x with sentCalAt := now, sentDue := false, sentCal := r })

/-- The row-side slices are calibrated against the internal reference, their result applied at once. -/
def Work.rowCalibrate (s : Work) (a : Nat) : Work :=
  let (rs, s) := (List.range 16).foldl (fun (acc : List (Int × Int) × Work) _ =>
    let (r, s) := acc.2.measured
    (acc.1 ++ [r], s)) ([], s)
  s.modArr a (fun x => { x with rowCalAt := s.get Obj.poweredSeconds, rowCal := rs })

/-- The row-side slices' last calibration is older than ROW_CAL_INTERVAL (R234). -/
def Work.rowCalStale (s : Work) (a : Nat) : Bool := 1000 * (s.arr a).rowCalAt + s.get Obj.rowCalInterval < 1000 * s.get Obj.poweredSeconds

/-- ROW_SIDE_CAL: at a step boundary with no MVM on the facet, so not in transpose mode, when the last is too old (R108, R234). -/
def Work.rowCal (s : Work) (a : Nat) : Work := if !s.atBoundary || s.arrayBusy a || !s.rowCalStale a then s else s.rowCalibrate a

/-! ## Drift (R235, R236, R239) -/

/-- Clamp a correction to I16 (R121); whether it was clamped. -/
def clamp16 (v : Int) : Int × Bool := (clampInt (-32768) 32767 v, decide (v < -32768 ∨ 32767 < v))

/-- The targets of R235 from running sums, in steps of 2^-19 and 2^-16; `none` where a division has no value. Assumption log 78, DESIGN CHOICE. -/
def Drift.targets (d : Drift) : Option (Rat × Rat) :=
  if d.ss = 0 ∨ d.ii = 0 then none
  else
    let b : Rat := (d.m2s : Rat) / (d.ss : Rat)
    let a : Rat := ((d.mi : Rat) - b * (d.si : Rat)) / (d.ii : Rat)
    if a = 0 then none else some ((1 / a - 1) * 524288, b / a * 65536)

/-- A move of an eighth of the way in whole steps, limited; the spec gives no rounding to a step (assumption log 26, DESIGN CHOICE). -/
def driftMove (cur : Int) (target : Rat) (limit : Int) : Int := cur + clampInt (-limit) limit (openWhole ((target - (cur : Rat)) / 8))

/-- γ_f and β_f of an array take new values, clamped to their spans; each clamping is counted (R121, R235). -/
def Work.setCorrection (s : Work) (a : Nat) (gamma beta : Int) : Work :=
  let (g, c1) := clamp16 gamma
  let (b, c2) := clamp16 beta
  let s := if c1 || c2 then s.add Obj.gainLimited (bit c1 + bit c2) else s
  s.modArr a (fun x => { x with gamma := g, beta := b, drift := .reset })

/-- The targets of an array's sums, free where they have none. -/
def Work.targetsOf (s : Work) (d : Drift) : (Rat × Rat) × Work :=
  match d.targets with
  | some t => (t, s)
  | none =>
    let (r, s) := s.measured
    (((r.1 : Rat), (r.2 : Rat)), s)

/-- DRIFT_UPDATE of one array at a step boundary. -/
def Work.driftUpdate (s : Work) (a : Nat) : Work :=
  let x := s.arr a
  if x.drift.phases < s.get Obj.driftMinSamples then s
  else
    let (t, s) := s.targetsOf x.drift
    s.setCorrection a (driftMove x.gamma t.1 64) (driftMove x.beta t.2 4)

/-- The drift update of every array with samples. -/
def Work.driftAll (s : Work) : Work := (s.arrs.map (·.1)).foldl Work.driftUpdate s

/-- The targets of an array just written, formed from its calibration phases alone, at once; its ageing restarts (R237 to R240). -/
def Work.seed (s : Work) (a : Nat) (phases : List CalPhase) : Work :=
  let used := phases.take (s.get Obj.driftMinSamples)
  let k := s.smallestCode (s.facetOfArray a)
  let (d, out) := used.foldl (fun (acc : Drift × Nat) (p : CalPhase) =>
    let r := acc.1.sample k p.ref p.sum1 p.sumAlt
    (r.1, acc.2 + r.2)) (Drift.reset, 0)
  let s := s.add Obj.phases used.length
  let s := if out = 0 then s else s.add Obj.refSaturated out
  let (t, s) := s.targetsOf d
  (s.setCorrection a (openWhole t.1) (openWhole t.2)).modArr a (fun x =>
    { x with age := 0, baseAt := some (s.get Obj.poweredSeconds + 600), lastForward := s.get Obj.poweredSeconds })

/-- CALIBRATION_MVM: the firmware calibration MVM of a facet with no forward phase for 24 h (R236); its codes are at the
smallest full-scale code of the facet. Assumption log 82, DEDUCED. -/
def Work.calibrationMvm (s : Work) (a : Nat) (s1 sa : Int) (ref : List Int) : Work :=
  let x := s.arr a
  let now := s.get Obj.poweredSeconds
  if x.state = 0 ∨ !s.atBoundary ∨ now < x.lastForward + 86400 then s
  else
    let (d, out) := x.drift.sample (s.smallestCode (s.facetOfArray a)) ref s1 sa
    let s := (s.setArr a { x with drift := d, lastForward := now }).add Obj.phases 1
    if out = 0 then s else s.add Obj.refSaturated out

/-- BASELINE_RECORD: ten powered minutes after the last program-and-verify. -/
def Work.baseline (s : Work) (a : Nat) : Work :=
  let x := s.arr a
  match x.baseAt with
  | some t => if t ≤ s.get Obj.poweredSeconds then s.setArr a { x with gammaBase := x.gamma, betaBase := x.beta, baseAt := none } else s
  | none => s

/-! ## Ageing, refresh and lifetime (R238, R240, R244 to R247) -/

/-- F = 2^((T - 85) / 10) at a temperature in 1/16 °C, T limited to 25 to 118. Where it is irrational: a number between the multiple of 2^-32
below it, found by an integer root, and the one above (assumption log 28, DESIGN CHOICE). -/
def ageFactor (t16 : Int) : Rat :=
  let t := clampInt (25 * 16) (118 * 16) t16
  let n := t - 85 * 16
  if n % 160 = 0 then pow2 (n / 160)
  else ((rootFloor 160 40 (2 ^ (n + 5120).toNat) 0 : Nat) : Rat) / 4294967296 + ((Config.ageRest t % 4294967296 : Nat) : Rat) / 18446744073709551616

/-- Age every programmed array. -/
def Work.ageArrays (s : Work) (hours : Nat → Rat) : Work :=
  { s with arrs := s.arrs.map (fun p =>
      (p.1, if p.2.state ≠ 0 ∧ p.2.programs ≠ 0 then { p.2 with age := p.2.age + hours p.1 } else p.2)) }

/-- The objects that follow the die's equivalent age. -/
def Work.setDieAge (s : Work) (age : Rat) : Work :=
  let h := wholeIn 64 age
  (({ s with life := { s.life with dieAge := age } }).set Obj.equivHours85 h).set Obj.lifeUsed
    (wholeIn 16 (((1000 * h : Nat) : Rat) / 52596))

/-- Refresh evaluation of a facet (R240). -/
def Work.evaluateRefresh (s : Work) (f : Nat) : Work :=
  let x := s.arr f
  let st := s.get (Obj.slotState x.slot)
  if !x.holds ∨ ¬ (st = 3 ∨ st = 4) then s
  else
    let sh := s.shiftExact f
    let s := s.raise Obj.driftMaxShift (s.shiftWord (s.serving f))
    if s.refreshing f then s
    else
      let s := if ((s.get Obj.refreshShift : Nat) : Rat) < sh then s.queueRefresh f 1 else s
      let s := if ((24 * s.get Obj.refreshInterval : Nat) : Rat) ≤ (s.arr (s.serving f)).age then s.queueRefresh f 2 else s
      s.noteBlocked f

/-- Out of trim range: above 110 or below 25 °C with that end's set in force, ms (R228). -/
def Work.outOfTrimMs (s : Work) : Nat :=
  1000 * (s.arrs.filter (fun p => match p.2.trimTemp with
    | some u =>
      let t := s.arrayTemp p.1
      decide ((t < 25 * 16 ∧ u ≤ 25 * 16) ∨ (110 * 16 < t ∧ 110 * 16 ≤ u))
    | none => false)).length

/-- A second off the due time of each core's test, but for cores gated in L2 (R493). -/
def Work.testClock (s : Work) : Work :=
  if s.get Obj.testEnable = 0 ∨ 2 ≤ s.get Obj.powerState then s
  else { s with rel := { s.rel with tests := ((List.range 64).filter (goodCore s.ident)).map (fun c =>
    let t := look CoreTest.reset s.rel.tests c
    (c, { t with dueIn := t.dueIn - 1 })) } }

/-- AGE_TICK: a powered second. -/
def Work.ageTick (s : Work) : Work :=
  let s := s.add Obj.poweredSeconds 1
  let s := s.add Obj.sinceStampMs 1000
  let s := s.add (Obj.stateSeconds (s.get Obj.powerState)) 1
  let s := s.add Obj.outOfTrimRangeMs s.outOfTrimMs
  let temps := fun (a : Nat) => s.arrayTemp a
  let s := s.ageArrays (fun a => ageFactor (temps a) / 3600)
  let hot := max (s.domain 0).temp (s.domain 1).temp
  let s := s.setDieAge (s.life.dieAge + ageFactor hot / 3600)
  let s := s.testClock
  let shadows := s.res.shadows.map (fun (h : Shadow) =>
    if h.spare = 0xFF ∧ h.phase = 0 then { h with blockedS := h.blockedS + 1 } else h)
  let s : Work := { s with rel := { s.rel with sweepDueS := s.rel.sweepDueS - 1 }, res := { s.res with shadows := shadows } }
  ((s.arrs.map (·.1)).filter (· < 8192)).foldl Work.evaluateRefresh s

/-- LIFETIME_SAVE (R244): class P values are stored as they change; what firmware keeps running is copied. -/
def Work.lifetimeSave (s : Work) : Work :=
  { s with life := { s.life with saved :=
    { powered := s.get Obj.poweredSeconds, sinceStamp := s.get Obj.sinceStampMs, dieAge := s.life.dieAge
      histogram := (s.dom Obj.tempHistogram).bytes
      arrays := s.arrs.map (fun p => (p.1, ⟨p.2.age, p.2.gamma, p.2.beta, p.2.positions⟩)) } } }

/-- The saved copy comes back at a cold start (R244). -/
def Work.lifetimeRestore (s : Work) : Work :=
  let v := s.life.saved
  let s := (s.set Obj.poweredSeconds v.powered).set Obj.sinceStampMs v.sinceStamp
  let s := (s.setDieAge v.dieAge).setDom Obj.tempHistogram v.histogram
  v.arrays.foldl (fun s p => s.modArr p.1 (fun x =>
    { x with age := p.2.age, gamma := p.2.gamma, beta := p.2.beta, positions := p.2.positions })) s

/-- A stamp-log record (R246). -/
def stampRec (stamp powered elapsed gap colds flags path : Nat) : List Byte :=
  toLE 8 stamp ++ toLE 8 powered ++ toLE 8 elapsed ++ toLE 4 gap ++ toLE 2 colds ++ toLE 1 flags ++ toLE 1 path

/-- CALENDAR_STAMP (R245): the unpowered gap, its credit, the record, and a new interval. -/
def Work.stamp (s : Work) (new path : Nat) : Work :=
  let log := (s.dom Obj.stampLog).bytes
  let first := log.isEmpty
  let prev := s.get Obj.lastStamp
  let since := s.get Obj.sinceStampMs
  let colds := s.get Obj.coldStarts - s.life.stampColds
  let backward := !first && decide (new + 1000 < prev + since)
  let gap : Nat := if first || backward then 0 else (new - (prev + since)) / 1000
  let credit := if colds ≠ 0 then gap else 0
  let s := if credit = 0 then s
    else
      let s := s.ageArrays (fun _ => (credit : Rat) / 4 / 3600)
      let s := s.setDieAge (s.life.dieAge + (credit : Rat) / 4 / 3600)
      let s := { s with life := { s.life with creditS := s.life.creditS + credit } }
      s.set Obj.unpoweredCredit (wholeIn 32 ((s.life.creditS : Rat) / 3600))
  let rec_ := stampRec new (s.get Obj.poweredSeconds) since gap colds (bit backward + 2 * bit first) path
  let s := s.setDom Obj.stampLog ((rec_ ++ log).take (64 * 32))
  let s := { s with life := { s.life with stampColds := s.get Obj.coldStarts } }
  ((s.set Obj.calendarStamp new).set Obj.lastStamp new).set Obj.sinceStampMs 0

/-- The bin of a mean temperature in 1/16 °C (R247). -/
def histogramBin (t : Rat) : Nat :=
  if t < 25 * 16 then 0 else min 19 (((t - 400) / 80).floor.toNat + 1)

/-- HISTOGRAM_MINUTE: each sensor's minute placed by the mean of its results; a sensor with no result in the minute keeps
its held value. -/
def Work.histogramMinute (s : Work) : Work :=
  let old := (s.dom Obj.tempHistogram).bytes
  let old := old ++ List.replicate (320 - old.length) (0 : Byte)
  let bins := (List.range 4).map (fun i =>
    let p := s.life.minute.getD i (0, 0)
    20 * i + histogramBin (if p.2 = 0 then ((s.domain i).temp : Rat) else (p.1 : Rat) / (p.2 : Rat)))
  let words := (List.range 80).flatMap (fun i => toLE 4 (leAt old (4 * i) 4 + (bins.filter (· = i)).length))
  { s.setDom Obj.tempHistogram words with life := { s.life with minute := List.replicate 4 (0, 0) } }

/-- LAYER_COUNTS_CLEAR for a slot 0 to 3, or 4 for all (R112). -/
def Work.layerClear (s : Work) (n : Nat) : Work :=
  { s with layerCounts := s.layerCounts.filter (fun c => decide (n ≠ 4 ∧ c.slot ≠ n)) }

/-! ## The rows -/

def execSliceCalibrationComplete (x : SliceCal) (s : State) : Host.Outcome State Fault Refusal :=
  s.nextIf (arrayExists x.array) (fun w => w.sliceCalibrated x.array)

def execSliceAdjustStep (array pos : Nat) (s : State) : Host.Outcome State Fault Refusal :=
  s.nextIf (arrayExists array && pos < 33) (fun w => w.sliceAdjust array pos)

def execSentinelConverterCal (array : Nat) (s : State) : Host.Outcome State Fault Refusal :=
  s.nextIf (arrayExists array) (fun w => w.sentinelCal array)

def execRowSideCal (array : Nat) (s : State) : Host.Outcome State Fault Refusal :=
  s.nextIf (arrayExists array) (fun w => w.rowCal array)

def execTrimApply (array : Nat) (badPoints : List Nat) (s : State) : Host.Outcome State Fault Refusal :=
  s.nextIf (arrayExists array) (fun w => w.trimApply array badPoints)

def execCalibrationMvm (array : Nat) (sum1 sumAlt : Int) (ref : List Int) (s : State) : Host.Outcome State Fault Refusal :=
  s.nextIf (arrayExists array) (fun w => w.calibrationMvm array sum1 sumAlt ref)

def execBaselineRecord (array : Nat) (s : State) : Host.Outcome State Fault Refusal :=
  s.nextIf (arrayExists array) (fun w => w.baseline array)

def execAgeTick (s : State) : Host.Outcome State Fault Refusal := s.next Work.ageTick

def execLifetimeSave (s : State) : Host.Outcome State Fault Refusal := s.next Work.lifetimeSave

def execHistogramMinute (s : State) : Host.Outcome State Fault Refusal := s.next Work.histogramMinute

end Sys2Proof.Machine
end

