-- ==== Sys2Proof/Machine/Residency.lean ====
section
/-! DEFINITION. Loading and replacing resident weights: loads, program-and-verify, shadows and spares (R253 to R277). -/

namespace Sys2Proof.Machine

/-! ## Slots -/

/-- What a worker tells its manager of a slot (R267, R388). Assumption log 43, DEDUCED. -/
def Work.slotReport (s : Work) (n : Nat) : ReportKind :=
  let sh := (s.slot n).section 0x02
  let hd := (s.slot n).section 0
  .slotState n (s.get (Obj.slotState n)) (s.get (Obj.slotDieIndex n)) (s.get (Obj.slotBoltId n)) (s.get (Obj.slotBoltVersion n))
    (leAt hd 22 2) (65536 / max 1 (leAt sh 28 4)) (leAt sh 12 4) (s.get (Obj.slotKind n)) ((s.slot n).section 0x03) sh
    ((s.slot n).section 0x05)

/-- A slot's state code (R184), reported to the manager. -/
def Work.setSlotState (s : Work) (n st : Nat) : Work :=
  let s := s.set (Obj.slotState n) st
  if s.isWorker && s.formed then s.toMember 0 (.report (s.slotReport n)) else s

/-- The slot records of an empty slot (R222). -/
def Work.clearSlotRecords (s : Work) (n : Nat) : Work :=
  let s := (((s.set (Obj.slotBoltId n) 0).set (Obj.slotBoltVersion n) 0).set (Obj.slotDieIndex n) 0xFFFF).set (Obj.slotKind n) 0xFF
  let s := (((s.set (Obj.slotFacets n) 0).set (Obj.slotLayers n) 0).set (Obj.slotEdgeShare n) 128).set (Obj.slotOwnerKey n) 0
  let s : Work := { s with rel := { s.rel with sweepRecs := s.rel.sweepRecs.filter (fun (r : SweepRec) => decide (r.slot ≠ n)) } }
  (s.setDom (Obj.slotHeader n) []).setDom (Obj.slotShape n) []

/-- Free every array of a slot: a retired position stays RETIRED with slot 0xFF, its partner standing by (R268, R273). -/
def Work.freeFacets (s : Work) (n : Nat) : Work :=
  { s with
    arrs := s.arrs.map (fun p =>
      let x := p.2
      (p.1, if x.slot ≠ n then x
        else if x.state = 6 then { x with slot := 0xFF, slice := 0xFFFF, image := [], queued := 0 }
        else if p.1 < 0x8000 then { x with state := 1, slot := 0xFF, slice := 0xFFFF, image := [], mapTo := none, queued := 0 }
        else if x.state = 8 then x.freed
        else { x with slot := 0xFF }))
    res := { s.res with shadows := s.res.shadows.filter (fun h => decide ((s.arr h.facet).slot ≠ n)) }
    unverifiable := s.unverifiable.filter (fun g => decide (g.2 ≠ n)) }

/-! ## Program-and-verify (R243, R253, R255, R261, R262) -/

/-- The golden record of a facet in its slot's golden image (R177). -/
def Work.goldenRecord (s : Work) (f : Nat) : List Byte :=
  let x := s.arr f
  slice ((s.slot x.slot).section 0x14) (262144 * x.golden) 262144

/-- CHK0 to CHK7 of a facet, recomputed from its golden record before an array is erased for it, agree with its image (R253). -/
def Work.chkStands (s : Work) (f : Nat) : Bool := chkAgree (s.goldenRecord f) (s.arr f).image

/-- An erase: every cell at level 0, the program counts, and WEAR_WARNING once (R243, R253, R255). -/
def Work.erase (s : Work) (a : Nat) : Work :=
  let x := s.arr a
  let n := x.programs + 1
  let warn := !x.warned && decide (s.get Obj.wearWarnCount ≤ n)
  let cells := { x.cells with written := false, off := [] }
  let s := (s.setArr a { x with programs := n, warned := x.warned || warn, cells := cells }).add Obj.programsTotal 1
  let s := s.raise Obj.wearMax n
  if warn then s.log 0 8 (arrayKind a) x.slot (arrayUnit a) 0xFFFF n else s

/-- The targets of an array's cells, and the first erase (R253). -/
def Work.writeCells (s : Work) (a : Nat) (record fine : List Byte) : Work :=
  ((s.modArr a (fun x => { x with cells := ⟨false, record, fine, []⟩ })).erase a |> fun (s : Work) =>
    { s with res := { s.res with attempts := put s.res.attempts a 1 } })

def Work.beginProgram (s : Work) (a : Nat) (record fine : List Byte) : Work :=
  let s := s.writeCells a record fine
  { s with programming := s.programming ++ [a], res := { s.res with delayed := s.res.delayed.filter (fun p => decide (p.1 ≠ a)) } }

/-- The start of an array is held back: each wait counts once (R261, R262). -/
def Work.holdBack (s : Work) (a bar : Nat) (k : Key) : Work :=
  if s.res.delayed.contains (a, bar) then s
  else ({ s with res := { s.res with delayed := s.res.delayed ++ [(a, bar)] } }).add k 1

def Work.endProgram (s : Work) (a : Nat) : Work :=
  { s with programming := s.programming.erase a, res := { s.res with attempts := drop1 s.res.attempts a } }

/-- Governor headroom below the input cap, mW (R261, R512). -/
def Work.headroomCovers (s : Work) : Bool :=
  !s.power.withhold && decide (s.meanPower + (s.get Obj.programDrawMw : Rat) ≤ ((1000 * s.get Obj.powerCapW : Nat) : Rat))

/-- The die's limit of facets programmed at once (R261). -/
def Work.programLimit (s : Work) : Nat :=
  min (s.get Obj.programConcurrency) (8 * ((List.range 64).filter (goodCore s.ident)).length)

/-- Why a waiting array of a core cannot start now: 0 it can, 1 concurrency, 2 throttling of its half, 3 power. -/
def Work.startBar (s : Work) (a : Nat) : Nat :=
  let c := arrayCore a
  let d := s.domain (c / 32)
  if 8 ≤ (s.programming.filter (fun b => arrayCore b = c)).length ∨ s.programLimit ≤ s.programming.length then 1
  else if d.skip ≠ 0 ∨ d.divided then 2
  else if !s.headroomCovers then 3
  else 0

/-! ## Shadows (R269 to R273) -/

def Work.setShadows (s : Work) (l : List Shadow) : Work := { s with res := { s.res with shadows := l } }

def Work.putShadow (s : Work) (old new : Shadow) : Work :=
  s.setShadows (s.res.shadows.map (fun h => if h = old then new else h))

def Work.dropShadow (s : Work) (old : Shadow) : Work := s.setShadows (s.res.shadows.filter (fun h => decide (h ≠ old)))

/-- The operation that has taken a spare. -/
def Work.shadowOfSpare (s : Work) (n : Nat) : Option Shadow := s.res.shadows.find? (fun h => h.spare = n && h.kind ≠ 3)

/-- The REPLACE or REVERIFY that waits for a spare in a core, oldest first. -/
def Work.waitingShadow (s : Work) (kind core : Nat) : Option Shadow :=
  s.res.shadows.find? (fun h => h.kind = kind && h.spare = 0xFF && h.phase = 0 && facetCore h.facet = core &&
    s.goldenPresent core (s.arr h.facet).slot)

/-- Whether facet a is refreshed before facet b (R240). -/
def Work.refreshBefore (s : Work) (a b : Nat) : Bool :=
  let x := s.arr a
  let y := s.arr b
  let p := refreshPriority x.queued
  let q := refreshPriority y.queued
  p < q || (p = q && (x.queued < y.queued || (x.queued = y.queued &&
    (s.shiftExact b < s.shiftExact a || (s.shiftExact a = s.shiftExact b && decide ((s.arr (s.serving b)).age < (s.arr (s.serving a)).age))))))

/-- The ASSIGNED facet of a core whose queued refresh starts next. -/
def Work.nextRefresh (s : Work) (core : Nat) : Option Nat :=
  let fs := (s.arrs.map (·.1)).filter (fun f => f < 8192 && facetCore f = core && (s.arr f).state = 2 && (s.arr f).queued ≠ 0 &&
    s.goldenPresent core (s.arr f).slot && !s.res.shadows.any (fun h => h.facet = f))
  match fs with
  | [] => none
  | f :: rest => some (rest.foldl (fun b g => if s.refreshBefore g b then g else b) f)

/-- The refreshes that could start now, one per core (R262). -/
def Work.refreshStarts (s : Work) : List Nat :=
  (((s.arrs.filter (fun p => p.2.queued ≠ 0)).map (fun p => facetCore p.1)).eraseDups.filter (fun c =>
    let free := s.sparesIn c 7
    2 ≤ free.length && free.any (fun n => s.startBar (0x8000 + n) = 0))).filterMap s.nextRefresh

/-- A facet is retired and its spare stands for it permanently (R243, R255, R269). -/
def Work.remap (s : Work) (f n : Nat) : Work :=
  let x := s.arr f
  let s := s.setArr f { x with state := 6, partner := n, mapTo := some n, queued := 0 }
  let s := s.modArr (0x8000 + n) (fun y => { y with state := 9, partner := f, slot := x.slot })
  s.add Obj.remaps 1

/-- REPLACE shadows go first: whether one waits that could start (R262). -/
def Work.replaceWaits (s : Work) : Bool :=
  s.res.shadows.any (fun h => h.kind = 2 && h.spare = 0xFF && h.phase = 0 &&
    s.goldenPresent (facetCore h.facet) (s.arr h.facet).slot &&
    (s.sparesIn (facetCore h.facet) 7).any (fun n => s.startBar (0x8000 + n) = 0))

def LoadRun.part (l : LoadRun) (ty : Nat) : List Byte := look [] l.got ty

/-- A section of a load, or the slot's own memory copy where the load does not fetch it. -/
def Work.loadOr (s : Work) (l : LoadRun) (ty : Nat) : List Byte :=
  if l.got.any (fun p => p.1 = ty) then l.part ty else (s.slot l.slot).section ty

/-- The golden bytes a load programs from: those it has fetched so far, or the slot's golden image (R256). -/
def Work.loadGolden (s : Work) (l : LoadRun) : List Byte := if l.source = 2 then (s.slot l.slot).section 0x14 else l.part 0x14

/-- The golden record of a load's facet. -/
def Work.loadRecord (s : Work) (l : LoadRun) (f : Nat) : List Byte := slice (s.loadGolden l) (262144 * (s.arr f).golden) 262144

/-- A facet may be programmed once its own golden record has arrived (R259). -/
def Work.recordIn (s : Work) (l : LoadRun) (f : Nat) : Bool :=
  l.source = 2 || decide (262144 * ((s.arr f).golden + 1) ≤ (l.part 0x14).length)

/-- A facet of the load running waits that could start (R262). -/
def Work.loadWaits (s : Work) : Bool :=
  match s.res.load with
  | some l => l.stopping.isNone && l.arrays.any (fun p =>
      !l.verified.contains p.1 && !s.programming.contains p.2 && s.startBar p.2 = 0 && s.recordIn l p.1)
  | none => false

/-- A REVERIFY shadow waits that could start (R262). -/
def Work.reverifyWaits (s : Work) : Bool :=
  s.res.shadows.any (fun h => h.kind = 1 && (if h.spare = 0xFF then
      h.phase = 0 && s.goldenPresent (facetCore h.facet) (s.arr h.facet).slot &&
        (s.sparesIn (facetCore h.facet) 7).any (fun n => s.startBar (0x8000 + n) = 0)
    else h.phase = 2 && s.goldenPresent (facetCore h.facet) (s.arr h.facet).slot && s.startBar h.facet = 0))

/-- The load's facet that an array is to be programmed for. -/
def LoadRun.facetFor (l : LoadRun) (a : Nat) : Option Nat :=
  match l.arrays.find? (fun p => p.2 = a) with
  | some p => if l.verified.contains p.1 then none else some p.1
  | none => none

/-- A spare takes an operation and its programming starts, unless the golden record does not stand (R253; assumption log 131, DEDUCED). -/
def Work.takeSpare (s : Work) (n f kind reason : Nat) : Work :=
  if !s.chkStands f then s else
  let s := s.modArr (0x8000 + n) (fun y => { y with state := 8, partner := f, slot := (s.arr f).slot })
  let s := s.beginProgram (0x8000 + n) (s.goldenRecord f) (s.arr f).image
  match s.res.shadows.find? (fun h => h.kind = kind && h.facet = f && h.spare = 0xFF) with
  | some h => s.putShadow h { h with spare := n }
  | none => s.setShadows (s.res.shadows ++ [⟨n, kind, f, 0, reason, 0⟩])

/-- Start programming a free spare for what its core waits for, in the order of R262. -/
def Work.startSpare (s : Work) (n : Nat) : Work :=
  let core := n / 4
  match s.waitingShadow 2 core with
  | some h => s.takeSpare n h.facet 2 h.reason
  | none =>
    if s.replaceWaits || s.loadWaits then s
    else match s.waitingShadow 1 core with
      | some h => s.takeSpare n h.facet 1 h.reason
      | none =>
        if s.reverifyWaits || (s.sparesIn core 7).length < 2 then s
        else match s.nextRefresh core with
          | none => s
          | some f =>
            let before := s.refreshStarts.any (fun g => s.refreshBefore g f)
            let reason := (s.arr f).queued
            if before || !s.chkStands f then s
            else (s.modArr f (fun x => { x with queued := 0, blockedAt := none })).takeSpare n f 0 reason

/-- An array at 10,000 cycles is never erased (R243): a free spare is withdrawn; a facet of a shadow is retired, its spare
staying for good. -/
def Work.wornOut (s : Work) (a : Nat) : Bool := 10000 ≤ (s.arr a).programs

/-- A transition to L2 or deeper runs, or the device is there: nothing starts to be programmed (R554). -/
def Work.deepening (s : Work) : Bool := decide (2 ≤ s.get Obj.powerState) || decide (2 ≤ s.boot.target.getD 0)

/-! ## Ending a load (R258) -/

def loadStartKey : Key := Obj.loadStart

/-- A reattach that fails leaves the facet map as it was: the slot's facets, and the spares that stood or stand for them (R258). -/
def Work.restoreMap (s : Work) (l : LoadRun) : Work :=
  let old := fun (a : Nat) => look (Arr.manufactured s.ident a) l.before a
  let mine := fun (f : Nat) => f < 8192 && (old f).slot = l.slot
  let back := fun (x b : Arr) => { x with
    state := b.state, slot := b.slot, partner := b.partner, slice := b.slice, golden := b.golden, image := b.image, mapTo := b.mapTo }
  let s : Work := { s with arrs := s.arrs.map (fun (p : Nat × Arr) =>
    (p.1, if mine p.1 || (decide (0x8000 ≤ p.1) && (mine p.2.partner || mine (old p.1).partner)) then back p.2 (old p.1) else p.2)) }
  s.set Obj.remaps l.remaps

/-- A load ends without success, according to its mode. -/
def Work.loadEnd (s : Work) (reason : Nat) : Work :=
  match s.res.load with
  | none => s
  | some l =>
    let s := { s with res := { s.res with load := none } }
    let s :=
      if l.mode = 0 ∨ l.mode = 3 then
        (((s.freeFacets l.slot).setSlot l.slot ⟨[]⟩).clearSlotRecords l.slot).setSlotState l.slot 6
      else if l.mode = 1 then (s.restoreMap l).setSlotState l.slot 5
      else s
    s.cmdEnd loadStartKey (if reason = 0x30 then 5 else 4) reason

/-- A load is to end: at once, or when the facets being programmed finish. -/
def Work.loadStop (s : Work) (reason : Nat) : Work :=
  match s.res.load with
  | none => s
  | some l =>
    if l.arrays.any (fun p => s.programming.contains p.2) then
      { s with res := { s.res with load := some { l with stopping := some (l.stopping.getD reason) } } }
    else s.loadEnd reason

/-- A spare of its core takes the place of a load's array for facet f, or the load fails; a spare so replaced is withdrawn
(R255, R273). -/
def Work.loadReplace (s : Work) (l : LoadRun) (f reason : Nat) : Work :=
  match s.sparesIn (facetCore f) 7 with
  | n :: _ =>
    let s := match l.arrays.find? (fun p => p.1 = f) with
      | some p => if 0x8000 ≤ p.2 then s.modArr p.2 (fun x => { x with state := 11, partner := 0xFFFF, slot := 0xFF }) else s
      | none => s
    let s := s.remap f n
    { s with res := { s.res with load := some { l with
        arrays := l.arrays.map (fun p => if p.1 = f then (f, 0x8000 + n) else p)
        verified := l.verified.filter (· ≠ f) } } }
  | [] => s.loadStop reason

/-- A load's worn-out arrays are replaced before programming starts (R255). -/
def Work.replaceWorn (s : Work) : Work :=
  match s.res.load with
  | none => s
  | some l => l.arrays.foldl (fun (s : Work) (p : Nat × Nat) => match s.res.load with
    | some l => if s.wornOut p.2 && l.stopping.isNone then s.loadReplace l p.1 0x31 else s
    | none => s) s

/-- FACET_PROGRAM_START: a waiting array starts when concurrency, its half and the headroom allow (R261, R262). Spares are taken in spare-ID order
(R274). -/
def Work.programStart (s : Work) (a : Nat) : Work :=
  let bar := s.startBar a
  let loadFacet := match s.res.load with
    | some l => (l.facetFor a).filter (fun f => l.stopping.isNone && s.recordIn l f)
    | none => none
  let shadowFacet := s.res.shadows.find? (fun h => h.facet = a && (h.phase = 2 || h.phase = 3) && h.kind ≠ 3 &&
    s.goldenPresent (facetCore a) (s.arr a).slot)
  let spare := decide (0x8000 ≤ a) && (s.sparesIn (arrayCore a) 7).head? = some (a - 0x8000)
  let s := if a < 8192 then s.noteBlocked a else s
  if s.deepening || s.programming.contains a || !(loadFacet.isSome || shadowFacet.isSome || spare) then s
  else if bar = 2 then s.holdBack a 2 Obj.programThermalWaits
  else if bar = 3 then s.holdBack a 3 Obj.programPowerWaits
  else if bar = 1 then s
  else match loadFacet, s.res.load with
    | some f, some l =>
      if s.replaceWaits then s
      else if s.wornOut a then s.loadReplace l f 0x31
      else if !chkAgree (s.loadRecord l f) (s.arr f).image then s.loadStop 0x1A
      else
        let s := { s with res := { s.res with load := some { l with started := true } } }
        let s := if l.mode ≠ 2 ∧ s.get (Obj.slotState l.slot) = 1 then s.setSlotState l.slot 2 else s
        (s.modArr a (fun x => if x.state = 9 then x else { x with state := 4 })).beginProgram a (s.loadRecord l f) (s.arr f).image
    | _, _ =>
      match shadowFacet with
      | some h =>
        if s.replaceWaits || s.loadWaits || (decide (h.kind = 0) && s.reverifyWaits) then s
        else if s.wornOut a then (s.dropShadow h).remap a h.spare
        else if h.kind = 1 then
          -- a re-verification reads the facet back first: no erase yet
          let s := s.putShadow h { h with phase := 3 }
          { s with programming := s.programming ++ [a], res := { s.res with attempts := put s.res.attempts a 0 } }
        else if !s.chkStands a then s
        else ((s.putShadow h { h with phase := 3 }).modArr a (fun x => { x with state := 4 })).beginProgram a (s.goldenRecord a) (s.arr a).image
      | none =>
        if s.wornOut a then s.modArr a (fun x => { x with state := 11 })
        else s.startSpare (a - 0x8000)

/-- Sections a READY slot keeps (R185), the section table (0xFF) with its header. -/
def keptSections : List Nat := [0, 0xFF, 1, 2, 3, 4, 5, 0x10, 0x12, 0x13, 0x14, 0x15, 0x16]

/-- The slot is READY: memory copies, records and what firmware derives (R185, R222, R263, R305, R310). -/
def Work.slotReady (s : Work) (l : LoadRun) : Work :=
  let n := l.slot
  let old := (s.slot n).sections
  -- a reattach without GOLDEN leaves a golden image that GOLDEN_ONLY has installed
  let goldenStays : Bool := decide (l.mode = 1) && !l.got.any (fun p => p.1 = 0x14)
  let secs := if l.source = 2 then old
    else keptSections.filterMap (fun ty =>
      match l.got.find? (fun p => p.1 = ty) with
      | some p => some p
      | none => if goldenStays then old.find? (fun p => p.1 = ty) else none)
  let s := (s.reloadWords n).setSlot n ⟨secs⟩
  let hd := (s.slot n).section 0
  let sh := (s.slot n).section 0x02
  let p := s.program n
  let pl := s.placement n
  let s := (s.set (Obj.slotBoltId n) (leAt hd 8 8)).set (Obj.slotBoltVersion n) (leAt hd 16 4)
  let s := (s.set (Obj.slotDieIndex n) l.die).set (Obj.slotKind n) (leAt hd 21 1)
  let s := (s.set (Obj.slotFacets n) pl.facets).set (Obj.slotLayers n) (leAt hd 24 2)
  let s := s.set (Obj.slotEdgeShare n) (edgeShare (edgeBytes p pl))
  let sig := l.part 0x7F
  let s := if l.source = 2 then s else s.set (Obj.slotOwnerKey n) (leAt sig 0 8)
  let s := (s.setDom (Obj.slotHeader n) hd).setDom (Obj.slotShape n) sh
  let s := s.set (Obj.pagePositions n) (65536 / max 1 (leAt sh 28 4))
  let s := s.setDom (Obj.stepCost n) (Config.derivedCost ((s.slot n).section 0x03))
  let s := s.layerClear n
  let s := { s with res := { s.res with load := none, awaiting := s.res.awaiting.filter (· ≠ n) }
                    unverifiable := if goldenStays then s.unverifiable else s.unverifiable.filter (fun g => decide (g.2 ≠ n)) }
  let s := l.arrays.foldl (fun s p => s.modArr p.1 (fun x => if x.state = 4 then { x with state := 2 } else x)) s
  let s := s.setSlotState n 3
  let s := s.set Obj.loadTimeUs (s.now - l.startUs)
  s.cmdEnd loadStartKey 3 0

/-- The facets of a slot's map with the array that serves each. -/
def Work.slotArrays (s : Work) (n : Nat) : List (Nat × Nat) :=
  ((s.arrs.map (·.1)).filter (fun f => f < 8192 && (s.arr f).slot = n && (s.arr f).state ≠ 1)).mergeSort (· ≤ ·) |>.map
    (fun f => (f, s.serving f))

/-! ## Digest sweeps of a group (R489, R490, R507) -/

/-- The facets of a group that a sweep reads, with the arrays that serve them: those of the slot's map in the core, but for a RETIRED facet
with no spare (R489, R504). -/
def Work.sweptArrays (s : Work) (core slot : Nat) : List (Nat × Nat) :=
  (s.slotArrays slot).filter (fun (p : Nat × Nat) => facetCore p.1 = core && !((s.arr p.1).state = 6 && (s.arr p.1).mapTo.isNone))

/-- A cell found at another level than the model holds. -/
def Work.cellFound (s : Work) (a : Nat) (x : CellOff) : Work :=
  s.modArr a (fun y => { y with cells := { y.cells with
    off := y.cells.off.filter (fun (z : CellOff) => !(z.row = x.row && z.col = x.col)) ++ [x] } })

/-- One group's read-back (R490). A group with a facet that is not read has no digest that matches: assumption log 150, DEDUCED. -/
def Work.sweepGroup (s : Work) (core slot : Nat) (off : List (Nat × CellOff)) (waits : Nat) : Work :=
  let arrs := s.sweptArrays core slot
  let s := (off.filter (fun (x : Nat × CellOff) => arrs.any (fun (p : Nat × Nat) => p.2 = x.1))).foldl
    (fun (s : Work) (x : Nat × CellOff) => s.cellFound x.1 x.2) s
  let s := if waits = 0 then s else s.add Obj.sweepDelays waits
  let digest := Config.sha512 (arrs.flatMap (fun (p : Nat × Nat) => (s.arr p.2).cells.quantised))
  let good := digestOf ((s.slot slot).section 0x16) core = some digest
  let golden := s.goldenPresent core slot
  let result := if good then 1 else if golden then 2 else 3
  let s := if good then s
    else
      let s := (s.add Obj.sweepMismatches 1).log 2 0x49 4 slot core 0xFFFF result
      if golden then
        (arrs.filter (fun (p : Nat × Nat) => (s.arr p.2).cells.quantised ≠ s.goldenRecord p.1)).foldl
          (fun (s : Work) (p : Nat × Nat) => s.suspect p.1 0x11) s
      else s.goldenNeeded slot core
  let r : SweepRec := ⟨core, slot, result, s.get Obj.poweredSeconds % 2 ^ 32, s.get (Obj.slotDieIndex slot), digest⟩
  let rest := s.rel.sweepRecs.filter (fun (y : SweepRec) => !(y.core = core && y.slot = slot))
  { s with rel := { s.rel with sweepRecs := rest ++ [r] } }

/-- A sweep record's 80 bytes. -/
def sweepRecBytes (r : SweepRec) : List Byte :=
  toLE 1 r.core ++ toLE 1 r.slot ++ toLE 1 r.result ++ toLE 1 0 ++ toLE 4 r.powered ++ toLE 2 r.dieIndex ++ toLE 6 0 ++
    (r.digest ++ List.replicate (64 - r.digest.length) 0)

/-- A list of records under the 8-byte header (R506). -/
def countedRecords (rs : List (List Byte)) : List Byte := toLE 4 rs.length ++ toLE 4 0 ++ rs.flatMap id

/-- DIGEST_TABLE holds the records of the groups swept. -/
def Work.showSweeps (s : Work) : Work := s.setDom Obj.digestTable (countedRecords (s.rel.sweepRecs.map sweepRecBytes))

/-- A GOLDEN_ONLY load installs the golden image, and groups left unresolved for want of it are swept again (R264, R480, R490). -/
def Work.goldenReady (s : Work) (l : LoadRun) : Work :=
  let x := s.slot l.slot
  let s := s.setSlot l.slot ⟨put x.sections 0x14 (l.part 0x14)⟩
  let s := { s with res := { s.res with load := none }
                    unverifiable := s.unverifiable.filter (fun g => decide (g.2 ≠ l.slot)) }
  let s := s.set Obj.loadTimeUs (s.now - l.startUs)
  let s := (s.rel.sweepRecs.filter (fun (r : SweepRec) => r.slot = l.slot && r.result = 3)).foldl
    (fun (s : Work) (r : SweepRec) => s.sweepGroup r.core r.slot [] 0) s
  s.showSweeps.cmdEnd loadStartKey 3 0

/-- The load is complete when every part is in and every facet verified (R259, R263). -/
def Work.loadSettle (s : Work) : Work :=
  match s.res.load with
  | none => s
  | some l =>
    if l.stopping.isSome || !l.todo.isEmpty || l.readback then s
    else if l.mode = 2 then s.goldenReady l
    else if l.arrays.all (fun p => l.verified.contains p.1) then s.slotReady l
    else s

/-! ## FACET_PROGRAM_DONE -/

/-- A facet of a load failed both attempts. -/
def Work.loadFacetFailed (s : Work) (l : LoadRun) (f : Nat) : Work := s.loadReplace l f 0x32

/-- A load's facets in a core, ascending, with their arrays. -/
def LoadRun.groupOf (l : LoadRun) (core : Nat) : List (Nat × Nat) := l.arrays.filter (fun p => facetCore p.1 = core)

/-- The digest accumulated from the quantised final reads of a group, and that of its golden records in memory (R178, R253, R260). -/
def Work.readDigest (s : Work) (l : LoadRun) (core : Nat) : List Byte :=
  Config.sha512 ((l.groupOf core).flatMap (fun p => (s.arr p.2).cells.quantised))

def Work.memoryDigest (s : Work) (l : LoadRun) (core : Nat) : List Byte :=
  Config.sha512 ((l.groupOf core).flatMap (fun p => s.loadRecord l p.1))

/-- Program-and-verify of a load's array succeeded; once its group's last facet has verified the group's digests are checked (R260). -/
def Work.loadFacetDone (s : Work) (l : LoadRun) (f a : Nat) (r : ProgramResult) : Work :=
  let s := s.seed a r.samples
  let s := s.modArr a (fun x => { x with lastReason := 0 })
  let l := { l with verified := l.verified ++ [f] }
  let s := { s with res := { s.res with load := some l } }
  let s := s.set Obj.loadFacetsDone (l.verified.length % 65536)
  let core := facetCore f
  let group := l.groupOf core
  let want := digestOf (s.loadOr l 0x16) core
  if !group.all (fun p => l.verified.contains p.1) then s
  else if want ≠ some (s.readDigest l core) then
    group.foldl (fun s p => match s.res.load with
      | some l => if l.stopping.isSome then s else (s.add Obj.programFailures 1).loadFacetFailed l p.1
      | none => s) s
  else if want ≠ some (s.memoryDigest l core) then s.loadStop 0x14
  else s.loadSettle

/-- LAST_REASON of an array a shadow has written: the reason of a refresh under R240; what is written for another reason keeps its own, or
counts as loaded (R248; assumption log 133, DESIGN CHOICE). -/
def lastReasonOf (old reason : Nat) : Nat := if 1 ≤ reason ∧ reason ≤ 5 then reason else if old = 0xFF then 0 else old

/-- Program-and-verify of an array of a shadow ended well (R269). -/
def Work.shadowDone (s : Work) (h : Shadow) (a : Nat) (r : ProgramResult) : Work :=
  let s := s.seed a r.samples
  let s := s.modArr a (fun x => { x with lastReason := lastReasonOf x.lastReason h.reason })
  if h.kind = 3 then
    let s := s.modArr a (fun x => { x with queued := 0, blockedAt := none, refreshes := x.refreshes + 1 })
    let s := s.modArr h.facet (fun x => { x with queued := 0, blockedAt := none, state := if x.state = 6 then 6 else 2 })
    ((s.dropShadow h).add Obj.inPlaceRefreshes 1).add Obj.refreshesDone 1
  else if h.phase = 0 then s.putShadow h { h with phase := 1 }
  else s.putShadow h { h with phase := 4 }

/-- Both attempts failed on an array of a shadow (R255, R269, R487). In place: a SUSPECT facet is retired with no array, another is replaced.
A spare that fails is withdrawn; the refresh it was taken for is queued again, a replacement waits for another spare. -/
def Work.shadowFailed (s : Work) (h : Shadow) (a : Nat) : Work :=
  if h.kind = 3 then
    if (s.arr h.facet).state = 5 then
      let s := s.modArr h.facet (fun x => { x with state := 6, mapTo := none, queued := 0 })
      (s.dropShadow h).log 2 0x43 1 (s.arr h.facet).slot h.facet 0xFFFF 0
    else
      let s := s.modArr h.facet (fun x => { x with queued := 0, blockedAt := none, state := if x.state = 4 then 2 else x.state })
      (s.dropShadow h).suspect h.facet 0x10
  else if h.phase = 0 then
    let s := s.modArr a (fun x => { x with state := 11, partner := 0xFFFF, slot := 0xFF })
    if h.kind = 0 then ((s.dropShadow h).modArr h.facet (fun x => { x with queued := h.reason })).noteBlocked h.facet
    else s.putShadow h { h with spare := 0xFF }
  else (s.dropShadow h).remap h.facet h.spare

/-- FACET_PROGRAM_DONE. -/
def Work.programDone (s : Work) (r : ProgramResult) : Work :=
  let a := r.array
  if !s.programming.contains a then s
  else
    let attempt := look 1 s.res.attempts a
    let shadow := s.res.shadows.find? (fun h =>
      if h.kind = 3 then s.serving h.facet = a else (h.phase = 0 && 0x8000 + h.spare = a) || (h.phase = 3 && h.facet = a))
    let retry := fun (s : Work) =>
      { (s.erase a).add Obj.programRetries 1 with res := { s.res with attempts := put s.res.attempts a 2 } }
    let cells := (s.arr a).cells
    if attempt = 0 then
      -- the read-back of a re-verification (R269)
      let cells := { cells with off := r.off }
      let s := s.modArr a (fun x => { x with cells := cells })
      match shadow with
      | some h =>
        if cells.matchesGolden && cells.record = s.goldenRecord a then (s.endProgram a).putShadow h { h with phase := 4 }
        else if !s.chkStands a then (s.endProgram a).putShadow h { h with phase := 2 }
        else (s.modArr a (fun x => { x with state := 4 })).writeCells a (s.goldenRecord a) (s.arr a).image
      | none => s.endProgram a
    else
      let cells := { cells with written := true, off := r.off }
      let s := s.modArr a (fun x => { x with cells := cells })
      let verified := r.rowsOk && cells.matchesGolden
      if !verified ∧ attempt = 1 ∧ !s.wornOut a then retry s else
      let s := s.endProgram a
      let s := if verified then s else s.add Obj.programFailures 1
      match shadow with
      | some h => if verified then s.shadowDone h a r else s.shadowFailed h a
      | none =>
        match s.res.load with
        | none => s
        | some l =>
          match l.stopping with
          | some why => s.loadStop why
          | none =>
            match l.facetFor a with
            | none => s
            | some f => if verified then s.loadFacetDone l f a r else s.loadFacetFailed l f

/-! ## Flips at a step boundary (R269, R270) -/

/-- One shadow's flip, forward or back. -/
def Work.flip (s : Work) (h : Shadow) : Work :=
  let n := h.spare
  if h.phase = 1 then
    let s := s.add Obj.flips 1
    if h.kind = 2 then (s.dropShadow h).remap h.facet n
    else (s.modArr h.facet (fun x => { x with mapTo := some n })).putShadow h { h with phase := 2 }
  else if h.phase = 4 then
    let s := s.add Obj.flips 1
    let s := if h.kind = 0 then s.add Obj.refreshesDone 1 else s
    let s := s.modArr h.facet (fun x => { x with mapTo := none, state := 2, refreshes := x.refreshes + bit (h.kind = 0), partner := 0xFFFF })
    (s.modArr (0x8000 + n) Arr.freed).dropShadow h
  else s

/-- MAP_FLIP: every flip due takes effect. -/
def Work.flipAll (s : Work) : Work := s.res.shadows.foldl Work.flip s

/-! ## LOAD_START and the arrival of parts (R256 to R260, R264) -/

/-- A LOAD_REQUEST (R257) as a load about to run. -/
def loadRunOf (b : List Byte) (was now : Nat) : LoadRun :=
  { slot := leAt b 0 1, mode := leAt b 1 1, source := leAt b 2 1, link := leAt b 3 1, die := leAt b 4 2, port := leAt b 6 1
    withGolden := bitAt (leAt b 7 1) 0, expectId := leAt b 24 8, expectVersion := leAt b 32 4
    got := [], todo := [0], arrays := [], verified := [], started := false, readback := false, stopping := none
    startUs := now, was := was, before := [], remaps := 0 }

/-- Commit validation of LOAD_REQUEST: the detail of its refusal (R257). -/
def loadRequestCheck (b : List Byte) : Option Nat :=
  let src := leAt b 2 1
  if b.length ≠ 64 ∨ (slice b 36 28).any (· ≠ 0) ∨ 2 ≤ leAt b 7 1 ∨ (src ≠ 1 ∧ leAt b 3 1 ≠ 0) then some 2
  else if 4 ≤ leAt b 0 1 ∨ 4 ≤ leAt b 1 1 ∨ 3 ≤ src ∨ 16 ≤ leAt b 3 1 ∨ 2 ≤ leAt b 6 1 ∨ 252 ≤ leAt b 4 2 ∨
    leAt b 8 8 % 4096 ≠ 0 then some 3
  else if src = 2 ∧ leAt b 1 1 ≠ 3 then some 4
  else none

/-- The slot state permits the mode (R257, R263). -/
def Work.modeAllowed (s : Work) (l : LoadRun) : Bool :=
  let st := s.get (Obj.slotState l.slot)
  match l.mode with
  | 0 => st = 0 || st = 6
  | 1 => st = 5
  | 2 => ((st = 3 || st = 4) && (!(s.slot l.slot).has 0x14 || s.unverifiable.any (fun g => g.2 = l.slot))) || st = 5
  | _ => st = 3 && s.res.awaiting.contains l.slot

/-- The shadow operations of a slot end when its facets are to be programmed again: their spares become free (R274; assumption log
84, DEDUCED). -/
def Work.dropSlotShadows (s : Work) (n : Nat) : Work :=
  let mine := s.res.shadows.filter (fun (h : Shadow) => (s.arr h.facet).slot = n && h.kind ≠ 3)
  let s := mine.foldl (fun (s : Work) (h : Shadow) =>
    if h.spare = 0xFF then s
    else (s.modArr (0x8000 + h.spare) Arr.freed).modArr h.facet
      (fun x => if x.state = 6 then x else { x with mapTo := none, state := if x.state = 4 then 2 else x.state })) s
  s.setShadows (s.res.shadows.filter (fun h => !mine.contains h))

/-- LOAD_START (R258): the result when it fails at once. Assumption logs 25 and 138, DEDUCED. -/
def Work.loadStart (s : Work) (o : Origin) : Work :=
  let b := (s.dom Obj.loadRequest).bytes
  let l := loadRunOf b (s.get (Obj.slotState (leAt b 0 1))) s.now
  let fail := fun (res : Nat) => s.cmdFail loadStartKey o res
  if s.rel.deviceFault.isSome then fail 0xB0
  else if b.isEmpty then fail 0x37
  else if !s.modeAllowed l then fail (if l.mode = 0 then 0x22 else 0x37)
  else if l.mode ≠ 0 ∧ l.die ≠ s.get (Obj.slotDieIndex l.slot) then fail 0x35
  else if l.source = 1 ∧ ((s.links.getD l.link .reset).state ≠ 3 ∧ (s.links.getD l.link .reset).state ≠ 4) then fail 0x33
  else if l.source = 2 ∧ !(s.slot l.slot).has 0x14 then fail 0x34
  else if (l.mode = 2 ∨ l.source = 2) ∧ ((l.expectId ≠ 0 ∧ l.expectId ≠ s.get (Obj.slotBoltId l.slot)) ∨
    (l.expectVersion ≠ 0 ∧ l.expectVersion ≠ s.get (Obj.slotBoltVersion l.slot))) then fail 0x38
  else
    let s := s.cmdStart loadStartKey 2 o
    let s := if l.mode = 3 then s.dropSlotShadows l.slot else s
    let s := (s.set Obj.loadBytes 0).set Obj.loadFacetsDone 0
    let l := if l.mode = 2 then (if s.get (Obj.slotState l.slot) = 5 then l else { l with todo := [0x14] })
      else if l.source = 2 then { l with todo := [], arrays := s.slotArrays l.slot }
      else l
    let l := { l with before := s.arrs, remaps := s.get Obj.remaps }
    let s := { s with res := { s.res with load := some l } }
    (if l.mode = 2 then s else s.setSlotState l.slot 1).replaceWorn

/-- The parts that follow the header, in the order of R258. -/
def partsAfterHeader (l : LoadRun) (header : List Byte) : List Nat :=
  [0x01] ++ (if bitAt (leAt header 28 4) 0 then [0x7F] else []) ++ [0x02, 0x03, 0x04, 0x05, 0x10, 0x12, 0x13, 0x16, 0x11] ++
    (if l.mode ≠ 1 ∨ l.withGolden then [0x14] else []) ++ [0x15]

/-- The length the section table gives a section (R173). -/
def sectionLength (t : List SecEntry) (ty die : Nat) : Nat :=
  match t.find? (fun e => e.ty = ty && (e.die = 0xFFFF || e.die = die)) with
  | some e => e.length
  | none => 0

/-- The bytes of MODEL space that a slot's memory copies and golden image take (R185, R465). -/
def SlotData.modelBytes (x : SlotData) : Nat :=
  sumNat ((x.sections.filter (fun (p : Nat × List Byte) => p.1 ≠ 0 && p.1 ≠ 0xFF)).map (fun (p : Nat × List Byte) => p.2.length))

/-- Whether what a load keeps in memory finds room beside the other slots' (R466). -/
def Work.modelFits (s : Work) (l : LoadRun) (table : List SecEntry) : Bool :=
  let kept := if l.mode = 2 then [0x14] else keptSections.filter (fun (ty : Nat) => ty ≠ 0 && ty ≠ 0xFF && (ty ≠ 0x14 || l.mode ≠ 1 || l.withGolden))
  let need := sumNat (kept.map (fun (ty : Nat) => sectionLength table ty l.die))
  let used := sumNat ((List.range 4).map (fun (n : Nat) => if n = l.slot ∧ l.mode ≠ 2 then 0 else (s.slot n).modelBytes))
  decide (used + need ≤ 2 * (s.dram.region 2).2)

/-- The checks that need every part before GOLDEN (R37, R189, R190, R216, R219). -/
def Work.structureReasons (s : Work) (l : LoadRun) : List Nat :=
  let header := l.part 0
  let pl := placementOf (l.part 0x10)
  let p := programOf (l.part 0x03)
  let image := l.part 0x11
  let sets := dieSetCount (l.part 0x05)
  let tables := (l.part 0x04).length / 3088
  let own := l.mode = 3
  let fs := pl.facetsOf
  let free := ((List.range 8192).filter (fun f => s.facetFree l.slot own f && decide (f / 4 % 32 ≠ 31))).length
  (if (List.range 64).all (fun c => !bitAt pl.coreMask c || goodCore s.ident c) then [] else [0x16]) ++
  (if l.mode ≠ 1 ∧ free < pl.facets then [0x17] else []) ++
  (if placementOk s.ident pl image && fs.all (fun f => s.facetFree l.slot (own || l.mode = 1) f.1) then [] else [0x18]) ++
  (if edgeOk (edgeBytes p pl) (s.get Obj.edgeShareLimit) then [] else [0x19]) ++
  (if s.outliersOk l.slot (l.part 0x13) then [] else [0x1B]) ++
  (if scalesOk pl (l.part 0x12) then [] else [0x1D]) ++
  (if digestRecordsOk image (l.part 0x16) pl.facets then [] else [0x14]) ++
  s.programReasons (l.part 0x03) pl (setSizes (l.part 0x05)) tables (leAt header 21 1 = 1) false ++
  (if setsHoldDie p pl (l.part 0x05) l.die then [] else [0x1F]) ++
  (if shapeOk header (l.part 0x02) p pl sets then [] else [0x21])

/-- The checks of GOLDEN (R127, R177, R179, R260). -/
def goldenReasons (pl : Placement) (image golden outliers digests : List Byte) : List Nat :=
  (if groupDigestsOk image golden digests pl.facets then [] else [0x14]) ++
  (if (List.range pl.facets).all (checksumOk image golden) then [] else [0x1A]) ++
  (if outlierPositionsZero image golden outliers pl.facets then [] else [0x1B]) ++
  (if golden.length = 262144 * pl.facets ∧ goldenCodesOk golden then [] else [0x1C])

/-- Take a load's facets: a retired position's spare, or a free spare for a worn-out or retired one (R243, R255, R273). Assumption log 84, DEDUCED. -/
def Work.takeFacets (s : Work) (l : LoadRun) : Option Work :=
  let pl := placementOf (l.part 0x10)
  let image := l.part 0x11
  -- a REPROGRAM counts the slot's own facets as free: those the new placement does not name are released (R258)
  let s := if l.mode = 3 then s.freeFacets l.slot else s
  let go := (List.range pl.facets).foldl (fun (acc : Option (Work × List (Nat × Nat))) i =>
    match acc with
    | none => none
    | some (s, arrs) =>
      let r := imageRecord image i
      let f := r.1
      let x := s.arr f
      let partner := 0x8000 + x.partner
      let named := fun (s : Work) (st : Nat) => s.modArr f (fun y =>
        { y with slot := l.slot, slice := r.2.1, golden := r.2.2, image := imageLevels image i, state := st })
      if x.state = 1 ∧ x.programs < 10000 then some (named s 4, arrs ++ [(f, f)])
      else if x.state = 6 ∧ x.partner ≠ 0xFFFF ∧ !s.wornOut partner then
        some ((named s 6).modArr partner (fun y => { y with slot := l.slot }), arrs ++ [(f, partner)])
      else match s.sparesIn (facetCore f) 7 with
        | n :: _ =>
          let s := if x.state = 6 ∧ x.partner ≠ 0xFFFF then s.modArr partner Arr.freed else s
          some ((named s 6).remap f n, arrs ++ [(f, 0x8000 + n)])
        | [] => none) (some (s, []))
  match go with
  | none => none
  | some (s, arrs) => some { s with res := { s.res with load := some { l with arrays := arrs } } }

/-- The facets of a slot's map, ascending. -/
def Work.mapFacets (s : Work) (n : Nat) : List (Nat × Arr) :=
  (s.arrs.filter (fun p => p.1 < 8192 && p.2.slot = n && p.2.slice ≠ 0xFFFF)).mergeSort (fun a b => decide (a.1 ≤ b.1))

/-- GOLDEN of a GOLDEN_ONLY load against DIGESTS, group by group of the facet map (R264). -/
def Work.goldenOnlyOk (s : Work) (n : Nat) (golden digests : List Byte) : Bool :=
  let fs := s.mapFacets n
  ((fs.map (fun p => facetCore p.1)).eraseDups).all (fun c =>
    digestOf digests c = some (Config.sha512 ((fs.filter (fun p => facetCore p.1 = c)).flatMap
      (fun p => slice golden (262144 * p.2.golden) 262144))))

/-- A part has arrived and is checked; GOLDEN may come in pieces, and is checked when it is whole (R258, R259, R264). Assumption logs 24 and
104, DEDUCED. -/
def Work.loadPart (s : Work) (ty : Nat) (bytes : List Byte) (poison : Bool) : Work :=
  match s.res.load with
  | none => s
  | some l =>
    if l.stopping.isSome || l.todo.head? ≠ some ty then s
    else
      let s := s.add Obj.loadBytes bytes.length
      let bytes := if ty = 0x14 then l.part 0x14 ++ bytes else bytes
      let whole := ty ≠ 0x14 || decide (sectionLength (sectionTable (s.loadOr l 0) (s.loadOr l 0xFF)) ty l.die ≤ bytes.length)
      if poison then s.loadStop 0x39
      else if !whole then { s with res := { s.res with load := some { l with got := put l.got ty bytes } } }
      else
        let l := if ty = 0 then { l with got := [(0, bytes.take 256), (0xFF, bytes.drop 256)] }
          else { l with got := put l.got ty bytes }
        let header := s.loadOr l 0
        let table := s.loadOr l 0xFF
        let rest := if ty = 0 then (if l.mode = 2 then [0x01, 0x16, 0x14] else partsAfterHeader l header) else l.todo.drop 1
        let l := { l with todo := rest }
        let s := { s with res := { s.res with load := some l } }
        let digestBad :=
          if ty = 0 then decide (l.mode = 2 ∧ header ≠ (s.dom (Obj.slotHeader l.slot)).bytes)
          else if ty = 1 then !manifestOk header table bytes
          else !sectionDigestOk (sectionTable header table) (s.loadOr l 1) ty l.die bytes
        let idBad := (l.expectId ≠ 0 ∧ l.expectId ≠ leAt header 8 8) ∨ (l.expectVersion ≠ 0 ∧ l.expectVersion ≠ leAt header 16 4)
        let reasons :=
          (if digestBad then [0x14] else []) ++
          (if ty = 0 ∧ !s.modelFits l (sectionTable header table) then [0x20] else []) ++
          (if ty = 0 ∧ l.mode = 2 then []
           else if ty = 0 then
            s.headerReasons l.slot header table ++ (if leAt header 22 2 ≤ l.die then [0x13] else []) ++
            (if l.mode = 1 ∧ (leAt header 8 8 ≠ s.get (Obj.slotBoltId l.slot) ∨ leAt header 16 4 ≠ s.get (Obj.slotBoltVersion l.slot))
              then [0x35] else []) ++
            (if idBad then [0x38] else [])
           -- an absent signature fails where the signature would be checked: after the header and the manifest (R175)
           else if ty = 1 then (if s.get Obj.requireSignedBolt ≠ 0 ∧ !bitAt (leAt header 28 4) 0 ∧ l.mode ≠ 2 then [0x15] else [])
           else if ty = 0x15 then (if wideOk bytes && tensorsNamed (programOf (l.part 0x03)) bytes then [] else [0x1F])
           else if ty = 0x7F then (if s.signatureOk bytes (slice header 0 192) then [] else [0x15])
           else if ty = 0x11 then s.structureReasons l
           else if ty = 0x14 then
             (if l.mode = 2 then
               (if s.goldenOnlyOk l.slot bytes (s.loadOr l 0x16) then [] else [0x14]) ++
               (if bytes.length = 262144 * (s.mapFacets l.slot).length ∧ goldenCodesOk bytes then [] else [0x1C])
              else goldenReasons (placementOf (l.part 0x10)) (l.part 0x11) bytes (l.part 0x13) (l.part 0x16))
           else [])
        match lowest reasons with
        | some r =>
          let s := if r = 0x15 then s.add Obj.signatureFailures 1 else s
          s.loadStop r
        | none =>
          if ty = 0x11 ∧ l.mode ≠ 1 then
            match s.takeFacets l with
            | some s => s
            | none => s.loadStop 0x31
          else if l.mode = 1 ∧ rest.isEmpty then { s with res := { s.res with load := some { l with readback := true } } }
          else s.loadSettle

/-- What the read-back of a slot's group in a core gives: the digest the command brings, or that of the cells as they were left. -/
def Work.groupRead (s : Work) (slot : Nat) (digests : List (Nat × List Byte)) (core : Nat) : List Byte :=
  match digests.find? (fun d => d.1 = core) with
  | some d => d.2
  | none => Config.sha512 (((s.slotArrays slot).filter (fun p => facetCore p.1 = core)).flatMap (fun p => (s.arr p.2).cells.quantised))

/-- REATTACH_READBACK_DONE (R264): the quantised groups against DIGESTS; the command brings the digests of groups that read otherwise than
they were left. -/
def Work.readbackDone (s : Work) (digests : List (Nat × List Byte)) : Work :=
  match s.res.load with
  | none => s
  | some l =>
    if !l.readback || l.stopping.isSome then s
    else
      let bad := (((s.slotArrays l.slot).map (fun p => facetCore p.1)).eraseDups).filter (fun core =>
        digestOf (l.part 0x16) core ≠ some (s.groupRead l.slot digests core))
      let l := { l with readback := false }
      if bad.isEmpty then ({ s with res := { s.res with load := some l } }).loadSettle
      else if !l.withGolden then s.loadStop 0x36
      else
        let arrs := (s.slotArrays l.slot).filter (fun p => bad.contains (facetCore p.1))
        ({ s with res := { s.res with load := some { l with arrays := arrs } } }).replaceWorn.loadSettle

/-! ## In-place refresh (R272, R487) -/

/-- A facet may be refreshed in place: blocked for lack of spares long enough, an array with no shadow, or SUSPECT with no
spare free. -/
def Work.inPlaceDue (s : Work) (f : Nat) : Bool :=
  let x := s.arr f
  let noSpare := (s.sparesIn (facetCore f) 7).isEmpty
  s.goldenPresent (facetCore f) x.slot &&
    ((x.state = 5 && noSpare) ||
     (x.state = 6 && x.mapTo.isSome && x.queued ≠ 0) ||
     (x.queued ≠ 0 && match x.blockedAt with
        | some t => decide (t + 3600 * s.get Obj.inPlaceAfter ≤ s.get Obj.poweredSeconds)
        | none => false))

/-- The pause a count of facets needs, µs: ceil(n/8) × 3.2 ms plus 0.1 ms (R272). -/
def pauseUs (n : Nat) : Nat := (n + 7) / 8 * 3200 + 100

/-- IN_PLACE_REFRESH: ask the manager for the pause; once it holds, program the facets where they stand. Assumption log 83, DEDUCED. -/
def Work.inPlace (s : Work) (fs : List Nat) : Work :=
  let fs := fs.eraseDups.filter (fun f => f < 8192 && s.inPlaceDue f && !s.programming.contains (s.serving f) && !s.wornOut (s.serving f) &&
    s.chkStands f)
  match fs with
  | [] => s
  | f :: _ =>
    let slot := (s.arr f).slot
    let core := facetCore f
    let fs := fs.filter (fun g => facetCore g = core && (s.arr g).slot = slot)
    if s.deepening ∨ s.get Obj.inPlaceEnable = 0 ∨ 1000 * s.get Obj.pauseLimitMs < pauseUs fs.length then s
    else if s.formed && !s.res.paused.contains slot then
      if s.res.pauseAsked.contains slot then s
      else ({ s with res := { s.res with pauseAsked := s.res.pauseAsked ++ [slot] } }).toMember 0 (.report (.pauseAsked slot fs.length))
    else
      fs.foldl (fun (s : Work) (g : Nat) =>
        let h := s.res.shadows.find? (fun (h : Shadow) => h.facet = g && h.spare = 0xFF)
        let s : Work := match h with
          | some h => s.dropShadow h
          | none => s
        let reason := if (s.arr g).state = 5 then 0x11 else (s.arr g).queued
        let s := s.setShadows (s.res.shadows ++ [⟨0xFF, 3, g, 5, reason, 0⟩])
        let s := s.modArr g (fun x => if x.state = 2 then { x with state := 4 } else x)
        s.beginProgram (s.serving g) (s.goldenRecord g) (s.arr g).image) { s with res := { s.res with paused := s.res.paused.filter (· ≠ slot) } }

/-! ## The rows -/

def execLoadSectionArrival (ty die : Nat) (bytes : List Byte) (poison : Bool) (s : State) : Host.Outcome State Fault Refusal :=
  s.next (fun w => match w.res.load with
    | some l => if l.source = 0 ∧ (die = 0xFFFF ∨ die = l.die) then w.loadPart ty bytes poison else w
    | none => w)

/-- LOAD_DATA: a part of another die index shows that the partner does not hold the slice (R256, R278; assumption log 86, DEDUCED). -/
def execLoadData (link ty die : Nat) (bytes : List Byte) (poison : Bool) (s : State) : Host.Outcome State Fault Refusal :=
  s.nextIf (link < 16) (fun w => match w.res.load with
    | some l =>
      if l.source ≠ 1 ∨ l.link ≠ link then w
      else if die = 0xFFFF ∨ die = l.die then w.loadPart ty bytes poison
      else if l.todo.head? = some ty then w.loadStop 0x34
      else w
    | none => w)

def execReattachReadbackDone (digests : List (Nat × List Byte)) (s : State) : Host.Outcome State Fault Refusal :=
  s.next (fun w => w.readbackDone digests)

def execFacetProgramStart (array : Nat) (s : State) : Host.Outcome State Fault Refusal :=
  s.nextIf (arrayExists array) (fun w => w.programStart array)

def execFacetProgramDone (x : ProgramResult) (s : State) : Host.Outcome State Fault Refusal :=
  s.nextIf (arrayExists x.array) (fun w => w.programDone x)

def execInPlaceRefresh (facets : List Nat) (s : State) : Host.Outcome State Fault Refusal :=
  s.next (fun w => w.inPlace facets)

end Sys2Proof.Machine
end

