-- ==== Sys2Proof/Machine/Requests.lean ====
section
/-! DEFINITION. Completion rings and the manager's request entries: what every family that ends or changes a request uses
(R280 to R284, R305 to R307, R420, R421, R425, R427 to R431). -/

namespace Sys2Proof.Machine

/-! ## Entries -/

def Work.modServe (s : Work) (f : ServeState → ServeState) : Work := { s with serve := f s.serve }

def Work.entry (s : Work) (i : Nat) : Option Entry := s.serve.entries.find? (fun e => e.index = i)

/-- The handle of an entry (R280). -/
def Entry.handle (e : Entry) : Nat := e.generation * 2 ^ 14 + e.index

/-- The entry a handle names: its generation is current (R280). -/
def Work.byHandle (s : Work) (h : Nat) : Option Entry :=
  match s.entry (h % 2 ^ 14) with
  | some e => if e.generation = h / 2 ^ 14 then some e else none
  | none => none

def Work.putEntry (s : Work) (e : Entry) : Work :=
  s.modServe (fun x => { x with entries := x.entries.map (fun y => if y.index = e.index then e else y) })

def Entry.terminal (e : Entry) : Bool := 7 ≤ e.state

def Entry.live (e : Entry) : Bool := 1 ≤ e.state && e.state ≤ 6

/-- When the budget runs out on the manager's clock; `none` without a deadline (R287). -/
def Entry.deadline (e : Entry) : Option Int := if e.budget = 0x7FFFFFFF then none else some (e.budget + e.charged)

/-- Charge a live budget with the time since its last charge (R287). -/
def Entry.charge (now : Nat) (e : Entry) : Entry :=
  if !e.live then e
  else if e.budget = 0x7FFFFFFF then { e with charged := now }
  else { e with budget := e.budget - ((now - e.charged : Nat) : Int), charged := now }

/-- A page operation for the next body (R298). -/
def Work.pageOp (s : Work) (o : PageOp) : Work := s.modServe (fun x => { x with pageOps := x.pageOps ++ [o] })

/-- An entry returns to FREE: with it go its pages and its token log. -/
def Work.freeEntry (s : Work) (i : Nat) : Work :=
  s.modServe (fun x => { x with entries := x.entries.filter (fun e => decide (e.index ≠ i)) })

/-- A request's final record is in the ring: DRAINING becomes DONE, and FREE at once unless it is retained (R283). -/
def Work.finalWritten (s : Work) (h : Nat) : Work :=
  match s.byHandle h with
  | some e =>
    if e.state ≠ 6 then s
    else if e.retain then s.putEntry { e with state := 7 }
    else (s.pageOp ⟨5, e.index, 0, 0, 0⟩).freeEntry e.index
  | none => s

/-! ## Rings -/

def Work.ring (s : Work) (t : Nat) : Ring := look .reset s.host.rings t

def Work.setRing (s : Work) (t : Nat) (r : Ring) : Work := { s with host := { s.host with rings := put s.host.rings t r } }

/-- CQ_TAIL − CQ_HEAD modulo 2^32. -/
def Ring.used (r : Ring) : Nat := (r.cqTail + 2 ^ 32 - r.cqHead) % 2 ^ 32

/-- Whether a completion slot is free beside those reserved (R425). -/
def Work.slotFree (s : Work) (t : Nat) : Bool := decide ((s.ring t).used + (s.ring t).reserved < s.get (Obj.cqEntries t))

/-- The BUDGET field as re-expressed now (R287). -/
def CompRec.budgetAt (c : CompRec) (now : Nat) : Nat :=
  match c.deadline with
  | none => 0x7FFFFFFF
  | some d => unsigned 32 (d - now)

/-- The 64 bytes of a record (R427). -/
def CompRec.bytes (c : CompRec) (now intakeHead stamp : Nat) : List Byte :=
  let toks := if c.cause = 4 then toLE 4 c.outBytes ++ List.replicate 28 0
    else c.tokens.flatMap (toLE 4) ++ List.replicate (32 - 4 * c.tokens.length) 0
  toLE 1 c.kind ++ toLE 1 c.cause ++ toLE 1 (bit c.late + 2 * bit c.numericFlag + 4 * bit c.retained) ++
    toLE 1 c.tokens.length ++ toLE 4 c.handle ++ toLE 8 c.hostTag ++ toLE 4 c.committed ++ toLE 4 (c.budgetAt now) ++
    toLE 2 (min 65535 c.numeric) ++ toLE 2 intakeHead ++ toks ++ toLE 4 stamp

/-- Raise the COMPLETION vector; the count and the timer restart (R431). Assumption log 96, DEDUCED. -/
def Work.completionIrq (s : Work) (t : Nat) : Work :=
  (s.setRing t { s.ring t with sinceIrq := 0, timer := false }).send (.msix (tenantPort t) (tenantFn t) 0)

/-- Write one record into its slot (R427, R429, R431). -/
def Work.writeRecord (s : Work) (t : Nat) (c : CompRec) : Work :=
  let r := s.ring t
  let m := (r.cqTail + 1) % 2 ^ 32
  let n := s.get (Obj.cqEntries t)
  let slot := (m + 2 ^ 32 - 1) % 2 ^ 32 % (max n 1)
  let s := s.send (.completion t slot (c.bytes s.now r.intakeHead m))
  let r := { r with cqTail := m, reserved := r.reserved - bit c.reserved, sinceIrq := r.sinceIrq + 1, timer := true }
  let s := ((s.setRing t r).add Obj.completionsWritten 1).add (Obj.tenantCompletions t) 1
  let s := s.add (Obj.hostWriteBytes (tenantPort t)) 64
  let s := if c.kind = 3 then s.finalWritten c.handle else s
  if s.get (Obj.cqIrqCount t) ≤ r.sinceIrq then s.completionIrq t else s

/-- Whether the first waiting record can be written: rings enabled, and a slot of its own or one reserved for it. -/
def Work.canWrite (s : Work) (t : Nat) (c : CompRec) : Bool :=
  s.get (Obj.ringEnable t) = 1 &&
    (if c.reserved then decide ((s.ring t).used < s.get (Obj.cqEntries t)) else s.slotFree t)

/-- Write waiting records in order while there is room. -/
def Work.flushRing : Nat → Nat → Work → Work
  | 0, _, s => s
  | fuel + 1, t, s =>
    match (s.ring t).waiting with
    | [] => s
    | c :: rest =>
      if s.canWrite t c then Work.flushRing fuel t ((s.setRing t { s.ring t with waiting := rest }).writeRecord t c)
      else s

/-- A record arises: it is written, or waits behind those before it; TENANT_ATTENTION[3] is set when it begins to wait in an enabled ring
(R429, R432). -/
def Work.putRecord (s : Work) (t : Nat) (c : CompRec) : Work :=
  let s := s.setRing t { s.ring t with waiting := (s.ring t).waiting ++ [c] }
  let s := Work.flushRing (s.ring t).waiting.length t s
  if (s.ring t).waiting.isEmpty || s.get (Obj.ringEnable t) = 0 then s else s.attendTenant t 3

/-- A CANCELLED record goes ahead of the request's records that still wait, which are dropped with their reservations
(R429). -/
def Work.putCancelled (s : Work) (t : Nat) (c : CompRec) : Work :=
  let r := s.ring t
  let mine := fun (x : CompRec) => x.handle = c.handle && x.kind ≠ 4
  let freed := (r.waiting.filter (fun x => mine x && x.reserved)).length
  let before := r.waiting.takeWhile (fun x => !mine x)
  let after := (r.waiting.drop before.length).filter (fun x => !mine x)
  let s := s.setRing t { r with waiting := before ++ [c] ++ after, reserved := r.reserved - freed }
  let s := Work.flushRing (s.ring t).waiting.length t s
  if (s.ring t).waiting.isEmpty || s.get (Obj.ringEnable t) = 0 then s else s.attendTenant t 3

/-! ## Records of entries and their end -/

/-- A record of an entry (R427). -/
def Entry.record (e : Entry) (kind cause : Nat) (late : Bool) (tokens : List Nat) (reserved : Bool) : CompRec :=
  { kind := kind, cause := cause, late := late, numericFlag := decide (e.numeric ≠ 0), retained := kind = 3 && e.retain
    handle := e.handle, hostTag := e.hostTag, committed := e.committed, deadline := e.deadline, numeric := e.numeric
    tokens := tokens, outBytes := e.output.length, reserved := reserved }

/-- Committed output tokens in records that wait (R290, R308). -/
def Work.undelivered (s : Work) (e : Entry) : Nat :=
  sumNat (((s.ring e.tenant).waiting.filter (fun c => c.handle = e.handle)).map (fun c => c.tokens.length))

/-- A request ends in EXPIRED (8) or FAILED (10): counted, its record written, but none for TENANT_RESET; a request still in
INTAKE gives its reservation to that record (R283, R300, R425). -/
def Work.endRequest (s : Work) (e : Entry) (st cause : Nat) : Work :=
  let e' := { e with state := st, resume := 0, hold := 0, cause := cause, reserved := false }
  let s := s.putEntry e'
  let r := s.ring e.tenant
  let s := s.setRing e.tenant { r with waiting := r.waiting.filter (fun c => !(c.handle = e.handle && c.kind = 3)) }
  let s := if e.state = 1 then s else s.pageOp ⟨5, e.index, 0, 0, 0⟩
  let s := if st = 8 then (s.add Obj.requestsExpired 1).add (Obj.tenantExpired e.tenant) 1 else s.add Obj.requestsFailed 1
  if cause = 0x26 then s.setRing e.tenant { s.ring e.tenant with reserved := (s.ring e.tenant).reserved - bit e.reserved }
  else s.putRecord e.tenant (e'.record (if st = 8 then 6 else 7) cause false [] e.reserved)

/-- Every live request that a test picks becomes FAILED with a cause (R307). -/
def Work.failAll (s : Work) (pick : Entry → Bool) (cause : Nat) : Work :=
  (s.serve.entries.filter (fun e => e.live && pick e)).foldl (fun (s : Work) (e : Entry) =>
    match s.entry e.index with
    | some e => s.endRequest e 10 cause
    | none => s) s

/-- Terminal entries are freed, but for a DONE one that is retained and not released (R283, R304). -/
def Work.freeTerminal (s : Work) : Work :=
  (s.serve.entries.filter (fun e => e.terminal && !(e.state = 7 && e.retain && !e.releaseAsked))).foldl
    (fun (s : Work) (e : Entry) =>
      let s := if e.state = 7 then s.pageOp ⟨5, e.index, 0, 0, 0⟩ else s
      s.freeEntry e.index) s

/-! ## Pages (R305, R306) -/

/-- The pages of a device's own pool: its KV region in pages of 64 KiB (R305, R465). -/
def Work.ownPages (s : Work) : Nat := s.dram.sizes.getD 5 0 * 16384

/-- KV_PAGES_TOTAL: at the manager the smallest pool among the workers. -/
def Work.pagesTotal (s : Work) : Nat :=
  if s.isManager then
    match s.group.identities.filter (fun p => s.workers.contains p.1) with
    | [] => 0
    | p :: ps => ps.foldl (fun n q => min n q.2.kvPages) p.2.kvPages
  else s.ownPages

/-- The pages an entry's lists name: its list and the references its fork took. -/
def Entry.names (e : Entry) : List Nat := e.pages ++ e.forkPages

def Work.usedPages (s : Work) : List Nat := (s.serve.entries.flatMap Entry.names).eraseDups

def Work.pagesFree (s : Work) : Nat :=
  if s.isManager then s.pagesTotal - s.usedPages.length else s.ownPages - ((s.step.pages.flatMap (·.pages)).eraseDups).length

def Work.tenantPageCount (s : Work) (t : Nat) : Nat :=
  ((s.serve.entries.filter (fun e => e.tenant = t)).flatMap Entry.names).eraseDups.length

/-- Pages that more than one list names: at the manager of its entries, elsewhere of the mirror. -/
def Work.pagesSharedCount (s : Work) : Nat :=
  let lists := if s.isManager then s.serve.entries.map (·.pages) else s.step.pages.map (·.pages)
  (lists.flatten.eraseDups.filter (fun p => decide (2 ≤ (lists.filter (·.contains p)).length))).length

/-- The free pages, rising. -/
def Work.freePages (s : Work) : List Nat := let used := s.usedPages; (List.range s.pagesTotal).filter (fun p => !used.contains p)

/-- Take n free pages; which ones the spec leaves open. Assumption log 30, DESIGN CHOICE. -/
def Work.takePages (s : Work) : Nat → List Nat → List Nat
  | 0, _ => []
  | n + 1, free =>
    match free with
    | [] => []
    | p :: ps =>
      let i := Config.pickPage (s.free + n) % (p :: ps).length
      let x := (p :: ps).getD i p
      x :: Work.takePages s n ((p :: ps).filter (fun q => decide (q ≠ x)))

end Sys2Proof.Machine
end

