-- ==== Sys2Proof/Machine/Group.lean ====
section
/-! DEFINITION. Forming a group: probing, the graph of links, device IDs, trees and routes, and membership (R388 to R393,
R405, R411). -/

namespace Sys2Proof.Machine

def Work.modGroup (s : Work) (f : GroupRec → GroupRec) : Work := { s with group := f s.group }

def Work.link (s : Work) (l : Nat) : Link := s.links.getD l .reset

def Work.setLink (s : Work) (l : Nat) (x : Link) : Work := { s with links := setAt .reset s.links l x }

/-- Link states of R410. -/
def linkUp : Nat := 3
def linkActive : Nat := 4

/-! ## What a device says of itself -/

/-- The kind of a slot's Bolt: 0 main, 1 draft, 0xFF not known yet; of a load in progress, its header's. -/
def Work.kindOf (s : Work) (n : Nat) : Nat :=
  let k := s.get (Obj.slotKind n)
  if k ≠ 0xFF then k
  else match s.res.load with
    | some l => if l.slot = n ∧ !(l.part 0).isEmpty then leAt (l.part 0) 21 1 else 0xFF
    | none => 0xFF

/-- The slot kinds a device holds in any state but EMPTY and FAILED: 0 none, 1 main, 2 draft (R175, R183). -/
def Work.kindsHeld (s : Work) : Nat :=
  let held := (List.range 4).filter (fun n => let st := s.get (Obj.slotState n); st ≠ 0 && st ≠ 6)
  if held.any (fun n => s.kindOf n = 1) then 2 else if held.any (fun n => s.kindOf n = 0) then 1 else 0

/-- The draft slot of a device (R183). -/
def Work.draftSlot (s : Work) : Option Nat :=
  (List.range 4).find? (fun n => let st := s.get (Obj.slotState n); st ≠ 0 && st ≠ 6 && s.kindOf n = 1)

/-- The delta reserve of a device, bytes (R352). -/
def Work.ownReserve (s : Work) : Nat := s.dram.deltaGib * 2 ^ 30

/-- The identity record (R378) with slot kinds and UP links (R389). Assumption log 33, DESIGN CHOICE. -/
def Work.identity (s : Work) (link : Nat) : Identity :=
  { serial := s.ident.serial, role := s.get Obj.role, deviceId := s.get Obj.deviceId, epoch := s.get Obj.groupEpoch
    groupState := s.get Obj.groupState, link := link, grade := s.ident.grade, kinds := s.kindsHeld
    kvPages := s.ownPages, reserveBytes := s.ownReserve
    partners := (List.range 16).filterMap (fun l =>
      let k := s.link l
      if k.state = linkUp ∨ k.state = linkActive then k.partner.map (fun (p : Identity) => (l, p.serial, p.link)) else none) }

/-! ## The graph of a formation -/

/-- An edge of the graph: from device ID over its link to device ID. -/
structure Hop where
  src : Nat
  link : Nat
  dst : Nat
  deriving DecidableEq, Repr

/-- The members' links to each other. -/
def hopsOf (members : List (Nat × Identity)) : List Hop :=
  members.flatMap (fun m => m.2.partners.filterMap (fun p =>
    match members.find? (fun (n : Nat × Identity) => n.2.serial = p.2.1) with
    | some n => if n.1 = m.1 then none else some ⟨m.1, p.1, n.1⟩
    | none => none))

/-- Depths in the broadcast tree: each round adds the neighbours of the devices reached (R392). -/
def depthsOf (hops : List Hop) : Nat → List (Nat × Nat) → List (Nat × Nat)
  | 0, acc => acc
  | n + 1, acc =>
    let d := maxNat (acc.map (·.2)) + 1
    let new := ((hops.filter (fun h => acc.any (fun p => p.1 = h.src) && !acc.any (fun p => p.1 = h.dst))).map (·.dst)).eraseDups
    if new.isEmpty then acc else depthsOf hops n (acc ++ new.map (fun x => (x, d)))

/-- The parent of a member: the neighbour nearest the manager, then the lower device ID (R392). -/
def parentOf (hops : List Hop) (depths : List (Nat × Nat)) (d : Nat) : Nat :=
  let ns := ((hops.filter (fun h => h.src = d)).map (·.dst)).filter (fun n => depths.any (fun p => p.1 = n))
  match ns with
  | [] => 0xFF
  | n :: rest =>
    rest.foldl (fun (b : Nat) (x : Nat) =>
      let db := look 999 depths b
      let dx := look 999 depths x
      if dx < db ∨ (dx = db ∧ x < b) then x else b) n

/-- A hop is "up": to a smaller depth, or the same depth and a lower ID (R393). -/
def hopUp (depths : List (Nat × Nat)) (h : Hop) : Bool :=
  let a := look 999 depths h.src
  let b := look 999 depths h.dst
  b < a || (a = b && h.dst < h.src)

/-- Hops to a destination: with any legal hop next, and with only down hops next. -/
structure Dist where
  node : Nat
  any : Nat
  down : Nat
  deriving DecidableEq, Repr

def distOf (l : List Dist) (n : Nat) : Dist := (l.find? (fun d => d.node = n)).getD ⟨n, 999, 999⟩

/-- One more round of route lengths: no up hop after a down hop (R393). -/
def distRound (hops : List Hop) (depths : List (Nat × Nat)) (l : List Dist) : List Dist :=
  l.map (fun d =>
    (hops.filter (fun h => h.src = d.node)).foldl (fun (d : Dist) (h : Hop) =>
      let n := distOf l h.dst
      if hopUp depths h then { d with any := min d.any (1 + n.any) }
      else { d with any := min d.any (1 + n.down), down := min d.down (1 + n.down) }) d)

/-- Route lengths of every member to a destination. -/
def distsTo (hops : List Hop) (depths : List (Nat × Nat)) (members : List Nat) (dst : Nat) : List Dist :=
  (List.range 9).foldl (fun (l : List Dist) _ => distRound hops depths l)
    (members.map (fun m => if m = dst then ⟨m, 0, 0⟩ else ⟨m, 999, 999⟩))

/-- The route from a member: destination, first link on the west edge and on the east edge (0xFF none), hops (R393). -/
def routeFrom (hops : List Hop) (depths : List (Nat × Nat)) (l : List Dist) (src dst : Nat) : Nat × Nat × Nat × Nat :=
  let d := distOf l src
  let ok := hops.filter (fun h => h.src = src &&
    (let n := distOf l h.dst; 1 + (if hopUp depths h then n.any else n.down) = d.any))
  match ok.map (·.dst) with
  | [] => (dst, 0xFF, 0xFF, 0)
  | n :: rest =>
    let next := rest.foldl min n
    let links := (ok.filter (fun h => h.dst = next)).map (·.link)
    let west := links.filter (· < 8)
    let east := links.filter (8 ≤ ·)
    (dst, if west.isEmpty then 0xFF else minList 0xFF west, if east.isEmpty then 0xFF else minList 0xFF east, d.any)

/-- One record of TOPOLOGY (R411). -/
def topologyRecord (depths : List (Nat × Nat)) (parent id : Nat) (x : Identity) (idOf : Nat → Nat) : List Byte :=
  toLE 8 x.serial ++ toLE 1 id ++ toLE 1 (if id = 254 then x.role else if id = 0 then 1 else if id = 1 then 2 else 3) ++
    toLE 1 x.grade ++ toLE 1 (look 0 depths id) ++ toLE 1 parent ++ toLE 3 0 ++
    (List.range 16).flatMap (fun l => match x.partners.find? (fun p => p.1 = l) with
      | some p => toLE 1 (idOf p.2.1)
      | none => toLE 1 0xFF)

/-! ## Formation (R389) -/

/-- A formation begins: PROBE on every UP link. -/
def Work.formBegin (s : Work) (takeover byCmd : Bool) : Work :=
  let e := s.get Obj.groupEpoch
  let was := s.get Obj.groupState
  let s := (s.set Obj.groupState 1).modGroup (fun g => { g with forming := some ⟨e, [], takeover, byCmd, was⟩ })
  s.flood (fun st => st = linkUp) (.probe e)

/-- The records of GROUP_PLAN: serial and device ID (R390). -/
def planRecords (b : List Byte) : List (Nat × Nat) :=
  (List.range (b.length / 16)).map (fun i => (leAt b (16 * i) 8, leAt b (16 * i + 8) 1))

/-- Commit validation of GROUP_PLAN: whether it stands (R390). -/
def planOk (serial : Nat) (b : List Byte) : Bool :=
  let rs := planRecords b
  b.length % 16 = 0 && rs.length ≤ 254 && (List.range rs.length).all (fun i => (slice b (16 * i + 9) 7).all (· = 0)) &&
    (rs.map (·.1)).eraseDups.length = rs.length && (rs.map (·.2)).eraseDups.length = rs.length &&
    rs.all (fun r => r.2 < 254 && (r.2 ≠ 0 || r.1 = serial))

/-- A device answers as joinable (R389). -/
def joinable (epoch : Nat) (x : Identity) : Bool := (x.groupState = 0 || x.groupState = 3) && x.epoch < epoch

/-- The members other than the manager, with their IDs, or the failing result (R389, R405). -/
def Work.assign (s : Work) (f : Forming) (epoch : Nat) : Except Nat (List (Nat × Identity)) :=
  let ok := f.found.filter (joinable epoch)
  if f.takeover then .ok ((ok.filter (fun x => x.role = 3 && x.epoch = s.get Obj.groupEpoch)).map (fun x => (x.deviceId, x)))
  else
    let b := (s.dom Obj.groupPlan).bytes
    if b.isEmpty then
      let ws := (ok.filter (fun x => x.kinds ≠ 2)).mergeSort (fun a b => decide (a.serial ≤ b.serial))
      .ok (ws.zipIdx.map (fun p => (p.2 + 2, p.1)))
    else
      let rs := (planRecords b).filter (fun r => r.2 ≠ 0)
      let got := rs.filterMap (fun r => (ok.find? (fun x => x.serial = r.1)).map (fun x => (r.2, x)))
      if s.get Obj.planStrict = 1 ∧ got.length < rs.length then .error 0x89
      else if got.any (fun p => 2 ≤ p.1 && p.2.kinds = 2) then .error 0x8A
      else .ok got

/-- A formation fails: the state before it returns. -/
def Work.formFail (s : Work) (f : Forming) (res : Nat) : Work :=
  let s := (s.set Obj.groupState f.was).modGroup (fun g => { g with forming := none })
  if f.byCmd then s.cmdEnd Obj.groupForm 4 res else s

/-- What a member does with its MEMBERSHIP (R389). -/
def Work.join (s : Work) (x : Membership) : Work :=
  let s := ((s.set Obj.role x.role).set Obj.deviceId x.deviceId).set Obj.groupEpoch x.epoch
  let s := ((s.set Obj.groupState 2).set Obj.groupMembers x.members.length).set Obj.workerCount x.workers
  let s := s.modGroup (fun g => { g with membership := some x, forming := none, noticed := none, throttled := [], heartbeatOut := false
                                         acks := [], standbyLost := false, heard := true })
  let s := { s with links := s.links.mapIdx (fun (i : Nat) (k : Link) =>
    if x.memberLinks.contains i ∧ k.state = linkUp then { k with state := linkActive } else k) }
  let s := s.setDom Obj.topology x.topology
  let s := s.setDom Obj.routeTable ((List.range 256).flatMap (fun d =>
    match x.routes.find? (fun (r : Nat × Nat × Nat × Nat) => r.1 = d) with
    | some r => toLE 1 r.2.1 ++ toLE 1 r.2.2.1 ++ toLE 1 r.2.2.2 ++ toLE 1 0
    | none => toLE 1 0xFF ++ toLE 1 0xFF ++ toLE 1 0 ++ toLE 1 0))
  if x.role = 3 then
    (List.range 4).foldl (fun (s : Work) (n : Nat) =>
      if s.get (Obj.slotState n) = 0 then s else s.toMember 0 (.report (s.slotReport n))) s
  else s

/-- The group is formed: every member gets its MEMBERSHIP (R389, R392, R393). Assumption log 32, DEDUCED. -/
def Work.formDone (s : Work) (f : Forming) (epoch : Nat) (others : List (Nat × Identity)) : Work :=
  let own := s.identity 0
  let all := (0, own) :: others
  let ids := all.map (·.1)
  let hops := hopsOf all
  let depths := depthsOf hops 254 [(0, 0)]
  let dists := ids.map (fun d => (d, distsTo hops depths ids d))
  let far := dists.any (fun p => p.2.any (fun x => decide (8 < x.any)))
  if 252 < (ids.filter (2 ≤ ·)).length then s.formFail f 0x8B
  else if far then s.formFail f 0x8C
  else
    let idOf := fun (ser : Nat) => match all.find? (fun (p : Nat × Identity) => p.2.serial = ser) with
      | some p => p.1
      | none => 254
    let parent := fun (d : Nat) => if d = 0 then 0xFF else parentOf hops depths d
    let left := f.found.filter (fun x => !others.any (fun p => p.2.serial = x.serial))
    let devices := all ++ left.map (fun x => (254, x))
    let topo := toLE 2 devices.length ++ List.replicate 14 0 ++
      devices.flatMap (fun p => topologyRecord depths (if p.1 = 254 then 0xFF else parent p.1) p.1 p.2 idOf)
    let membership := fun (d : Nat) => (⟨epoch, d, if d = 0 then 1 else if d = 1 then 2 else 3, ids,
      (ids.filter (2 ≤ ·)).length, parent d, (ids.filter (fun c => parent c = d && c ≠ 0)).mergeSort (· ≤ ·), look 0 depths d,
      (ids.filter (· ≠ d)).map (fun e => routeFrom hops depths (look [] dists e) d e),
      ((hops.filter (fun h => h.src = d)).map (·.link)).eraseDups, topo⟩ : Membership)
    let s := s.set Obj.excludedDevices left.length
    let s := others.foldl (fun (s : Work) (p : Nat × Identity) => s.toMember p.1 (.membership (membership p.1))) s
    let s := s.join (membership 0)
    let s := s.modGroup (fun g => { g with identities := others })
    let s := s.modServe (fun x => { x with held := [] })
    if f.byCmd then s.cmdEnd Obj.groupForm 3 0 else s

/-- Whether every device that a reply or an own link names has answered (assumption log 17, DESIGN CHOICE). -/
def Work.probesIn (s : Work) (f : Forming) : Bool :=
  let named := (s.identity 0).partners.map (·.2.1) ++ f.found.flatMap (fun x => x.partners.map (·.2.1))
  named.all (fun n => n = s.ident.serial || f.found.any (fun x => x.serial = n))

/-- Complete the formation when the replies are in. -/
def Work.formSettle (s : Work) : Work :=
  match s.group.forming with
  | none => s
  | some f =>
    if !s.probesIn f then s
    else
      let epoch := maxNat (s.get Obj.groupEpoch :: f.found.map (·.epoch)) + 1
      match s.assign f epoch with
      | .error res => s.formFail f res
      | .ok others => s.formDone f epoch others

/-- A formation starts and completes at once where no partner is to answer. -/
def Work.form (s : Work) (takeover byCmd : Bool) : Work := (s.formBegin takeover byCmd).formSettle

/-- Why GROUP_FORM is refused (R389): busy, or a main-model slot held. -/
def Work.formRefusal (s : Work) : Option Nat :=
  let st := s.get Obj.groupState
  if s.rel.deviceFault.isSome then some 0xB0
  else if st = 1 ∨ st = 2 then some 0x88
  else if (s.isWorker || s.isStandby) && st ≠ 3 then some 0x88
  else if (List.range 4).any (fun n => s.get (Obj.slotState n) ≠ 0 && s.kindOf n = 0) then some 0x8D
  else none

/-- GROUP_FORM's action. -/
def Work.groupForm (s : Work) (o : Origin) : Work :=
  match s.formRefusal with
  | some res => s.cmdFail Obj.groupForm o res
  | none => (s.cmdStart Obj.groupForm 2 o).form false true

/-! ## The rows -/

/-- Forward a probe on every UP link but the one it came by. -/
def Work.probeOn (s : Work) (link epoch : Nat) : Work :=
  let s := s.modGroup (fun g => { g with probed := some (epoch, link) })
  (List.range 16).foldl (fun (s : Work) (l : Nat) =>
    if l ≠ link ∧ (s.link l).state = linkUp then s.send (.fabric none (some l) (.probe epoch)) else s) s

/-- PROBE: answered on its link, and forwarded once per epoch and formation on the other UP links. Assumption log 34, DEDUCED. -/
def Work.probe (s : Work) (link epoch : Nat) : Work :=
  let s := s.send (.fabric none (some link) (.probeReply (s.identity link)))
  match s.group.probed with
  | some (e, l) => if e = epoch ∧ l ≠ link then s else s.probeOn link epoch
  | none => s.probeOn link epoch

def execProbe (_src link epoch : Nat) (s : State) : Host.Outcome State Fault Refusal :=
  s.nextIf (link < 16) (fun w => w.probe link epoch)

/-- PROBE_REPLY: at the forming device it joins the replies; elsewhere it goes back along the probe's way. -/
def Work.probeReply (s : Work) (x : Identity) : Work :=
  match s.group.forming with
  | some f =>
    if x.serial = s.ident.serial ∨ f.found.any (fun y => y.serial = x.serial) then s
    else (s.modGroup (fun g => { g with forming := some { f with found := f.found ++ [x] } })).formSettle
  | none =>
    match s.group.probed with
    | some (_, l) => s.send (.fabric none (some l) (.probeReply x))
    | none => s

def execProbeReply (x : Identity) (_link : Nat) (s : State) : Host.Outcome State Fault Refusal :=
  s.next (fun w => w.probeReply x)

/-- MEMBERSHIP at a member whose epoch it advances. -/
def execMembership (x : Membership) (s : State) : Host.Outcome State Fault Refusal :=
  s.next (fun w => if w.get Obj.groupEpoch < x.epoch ∧ !w.formed then w.join x else w)

end Sys2Proof.Machine
end

