-- ==== Sys2Proof/Machine/Reply.lean ====
section
/-! DEFINITION. Requests and responses of the object dictionary as the paths carry them: headers, windows, and what becomes of
forwarded requests when the group is lost (R49, R50, R53, R57, R59 to R62). -/

namespace Sys2Proof.Machine

/-! ## Headers (R49, R50) -/

/-- Bytes 9:8 of a request or response: the tenant, or the session handle. -/
def reqWord9 (r : Req) : Nat := r.tenant % 1024 + 1024 * (r.tenantHi % 64)

/-- A request's header. -/
def reqHeader (op : Nat) (r : Req) : List Byte :=
  toLE 1 op ++ toLE 1 r.tag ++ toLE 1 r.target ++ toLE 1 r.flags ++ toLE 2 r.index ++ toLE 1 r.sub ++ toLE 1 r.rsv7 ++ toLE 2 (reqWord9 r) ++
    toLE 2 r.payload.length ++ toLE 4 r.arg

/-- A response's header: bit 7 of the opcode, the responding device, status and detail. -/
def respHeader (op device status detail len : Nat) (r : Req) : List Byte :=
  toLE 1 (op ||| 0x80) ++ toLE 1 r.tag ++ toLE 1 device ++ toLE 1 status ++ toLE 2 r.index ++ toLE 1 r.sub ++ toLE 1 0 ++ toLE 2 (reqWord9 r) ++
    toLE 2 len ++ toLE 4 detail

/-- The opcode and request that a header and the bytes of PAYLOAD spell; bytes that PAYLOAD does not hold read zero. -/
def reqOf (o : Origin) (hdr payload : List Byte) : Nat × Req :=
  let len := leAt hdr 10 2
  let w := leAt hdr 8 2
  (leAt hdr 0 1,
    { origin := o, tag := leAt hdr 1 1, target := leAt hdr 2 1, flags := leAt hdr 3 1, index := leAt hdr 4 2, sub := leAt hdr 6 1
      rsv7 := leAt hdr 7 1, tenant := w % 1024, tenantHi := w / 1024, arg := leAt hdr 12 4
      payload := (payload ++ List.replicate (len - payload.length) 0).take len })

/-- The message body that MCTP carries for a request or response of the management port (R55): message type 0x7F, the enterprise
number, then the header and payload. Assumption log 120, PRESUMED. -/
def mctpBody (enterprise : Nat) (message : List Byte) : List Byte :=
  toLE 1 0x7F ++ (toLE 4 enterprise).reverse ++ message

/-! ## The function window (R59 to R61) -/

/-- WIN_CTRL as it reads: GO and ABANDON are write-only. -/
def Window.ctrl (x : Window) : Nat := 4 * bit x.doneIrq

/-- WIN_STATUS. -/
def Window.status (x : Window) : Nat := bit x.busy + 2 * bit x.done + 4 * bit x.parked

/-- The byte at an offset of the 8 KiB window; what is reserved reads 0. -/
def Window.byteAt (x : Window) (offset : Nat) : Byte :=
  if offset < 0x10 then x.hdr.getD offset 0
  else if offset < 0x20 then x.resp.getD (offset - 0x10) 0
  else if offset < 0x24 then (toLE 4 x.ctrl).getD (offset - 0x20) 0
  else if offset < 0x28 then (toLE 4 x.status).getD (offset - 0x24) 0
  else if 0x1000 ≤ offset ∧ offset < 0x2000 then x.payload.getD (offset - 0x1000) 0
  else 0

/-! ## Responses -/

/-- A response reaches the window: RESP_HDR and PAYLOAD are valid, DONE is set. -/
def Window.complete (x : Window) (hdr payload : List Byte) : Window :=
  { x with resp := hdr, payload := payload ++ x.payload.drop payload.length, busy := false, done := true, parked := false }

/-- The response of a device to a request goes back on its path; REQUESTS_SERVED and REQUESTS_REFUSED count it (R74). -/
def Work.respondFrom (s : Work) (device op : Nat) (r : Req) (status detail : Nat) (payload : List Byte) : Work :=
  let s := s.add Obj.requestsServed 1
  let s := if status = 0 then s else s.add Obj.requestsRefused 1
  match r.origin.path with
  | .fabric => s.toMember 0 (.dictResponse (op ||| 0x80) r.tag status detail payload)
  | _ =>
    let s := match originWindow r.origin with
      | some w => s.setWindow w ((s.window w).complete (respHeader op device status detail payload.length r) payload)
      | none => s
    let s := s.send (.response r.origin (op ||| 0x80) r.tag device status r.index r.sub (reqWord9 r) detail payload)
    s.doneIrq r.origin

/-- The response of the device itself. -/
def Work.respond (s : Work) (op : Nat) (r : Req) (status detail : Nat) (payload : List Byte) : Work :=
  s.respondFrom s.ownDevice op r status detail payload

/-! ## Forwarded requests (R53, R56, R57) -/

/-- Requests forwarded to members that are lost end with NO_DEVICE; those of firmware itself just end. -/
def Work.failForwarded (s : Work) : Work :=
  let l := s.dict.forwarded
  let s : Work := { s with dict := { s.dict with forwarded := [] } }
  l.foldl (fun (s : Work) (f : Forwarded) =>
    if f.req.origin.path = .fabric then s else s.respond f.opcode f.req 0x0A f.req.target []) s

end Sys2Proof.Machine
end

