-- ==== Sys2Proof/Machine/Faults.lean ====
section
/-! DEFINITION. Faults: group-fatal, device-fatal and the core recovery reset (R307, R402, R403, R496 to R499). -/

namespace Sys2Proof.Machine

/-! ## What a fault takes away -/

/-- MVMs in flight finish and their results are discarded (R403, R499). -/
def Engine.drop (e : Engine) : Engine :=
  { e with queue := [], runs := [], phases := [], waiting := [], reading := [], arrived := [] }

/-- All step work, page lists and tentative KV of the device are discarded (R403). -/
def Work.discardStep (s : Work) : Work :=
  { s with
    engines := s.engines.map (fun p => (p.1, p.2.drop))
    step := { StepState.reset with lastClock := s.step.lastClock } }

def Work.modVars (s : Work) (f : VarState → VarState) : Work := { s with vars := f s.vars }

def Work.putJob (s : Work) (j : TuneJob) : Work :=
  s.modVars (fun v => { v with jobs := v.jobs.map (fun x => if x.index = j.index then j else x) })

/-- A job in RUNNING or PUBLISHING (R374). -/
def TuneJob.active (j : TuneJob) : Bool := j.state = 1 || j.state = 2

/-- Send an order to every worker (R387). -/
def Work.orderAll (s : Work) (o : OrderKind) : Work :=
  if !s.formed then s else s.workers.foldl (fun (s : Work) (d : Nat) => s.toMember d (.order o none)) s

/-- A job ends in DONE (3), FAILED (4) or ABORTED (5): its working set, masters and accumulators are freed (R371). -/
def Work.jobEnd (s : Work) (j : TuneJob) (st cause : Nat) : Work :=
  let s := s.putJob { j with state := st, cause := cause, charge := 0, work := 0 }
  let s := s.orderAll (.tuneEnd j.index)
  s.cmdEnd j.key st (if st = 5 then 0x30 else cause)

/-- Every live request fails, retained ones are freed, and every page returns (R307). -/
def Work.failRequests (s : Work) (cause : Nat) : Work :=
  let s := s.failAll (fun _ => true) cause
  s.modServe (fun x => { x with entries := x.entries.filter (fun e => e.state = 6), plan := none, pageOps := [], candidates := [] })

/-! ## Group faults -/

/-- The record code of a group fault: 0x0080 + its code; that of a member's device-fatal fault is 0x0088 (R402, R502). Assumption log 31, DEDUCED. -/
def groupFaultCode (cause : Nat) : Nat := if 0x20 ≤ cause then 0x88 else 0x80 + cause

/-- A device-fatal code of R498. -/
def deviceCode (cause : Nat) : Bool := 0x20 ≤ cause && cause ≤ 0x25

/-- A member leaves for good after GROUP_DISSOLVE (R409). -/
def Work.leaveGroup (s : Work) : Work :=
  let s := ((s.set Obj.role 0).set Obj.deviceId 254).set Obj.groupState 0
  let s := (s.set Obj.groupMembers 0).set Obj.workerCount 0
  s.modGroup (fun g => { g with membership := none, identities := [] })

/-- A GROUP_POWER order ends with the group (R568). -/
def Work.endGroupPower (s : Work) : Work :=
  let s : Work := { s with boot := { s.boot with groupDown := false, groupPending := false } }
  let s := s.modServe (fun x => { x with restoring := [] })
  if s.cmdBusy Obj.groupPower then s.cmdEnd Obj.groupPower 4 0xD2 else s

/-- A group fault detected here or told by a notice of the current epoch: one per epoch (R403, R407). -/
def Work.groupFault (s : Work) (n : Notice) : Work :=
  if !s.formed || n.epoch ≠ s.get Obj.groupEpoch then s
  else
    let s := s.add Obj.groupFaults 1
    let s := s.set Obj.lastGroupFault (n.cause + 256 * n.device + 65536 * n.link + 2 ^ 24 * n.src + 2 ^ 32 * n.epoch)
    let s := s.log 3 (groupFaultCode n.cause) 0 0xFF 0 0xFFFF n.epoch
    let s := s.flood (fun st => st = linkActive) (.faultNotice n)
    let s := s.discardStep.failForwarded
    let s := s.modVars (fun v => { v with held := v.held.filter (fun h => h.work.isNone) })
    let s := { s with links := s.links.map (fun (k : Link) => if k.state = linkActive then { k with state := linkUp } else k) }
    let s := (s.set Obj.groupState 3).modGroup (fun g => { g with noticed := some n.epoch, heartbeatOut := false, throttled := [] })
    let s := if s.isManager then
        let s := s.failRequests (if deviceCode n.cause then 0x25 else 0x24)
        (s.vars.jobs.filter TuneJob.active).foldl (fun (s : Work) (j : TuneJob) => s.jobEnd j 4 0x24) s
      else s
    let s := s.endGroupPower
    if n.cause = 9 then s.leaveGroup
    else if s.isManager && s.rel.deviceFault.isNone && s.get Obj.autoReform = 1 then s.form false false
    else s

/-- A group fault detected on this device. -/
def Work.groupFatal (s : Work) (cause device link : Nat) : Work :=
  s.groupFault ⟨s.get Obj.groupEpoch, cause, device, link, s.ownDevice⟩

def execFaultNotice (n : Notice) (s : State) : Host.Outcome State Fault Refusal := s.next (fun w => w.groupFault n)

/-! ## Device-fatal faults -/

/-- A device-fatal fault: logged; the first stands in LAST_DEVICE_FAULT (R498, R499, R504). -/
def Work.deviceFatal (s : Work) (code unitKind unit detail : Nat) : Work :=
  let first := s.rel.deviceFault.isNone
  let s := s.log 4 code unitKind 0xFF unit 0xFFFF detail
  if !first then s
  else
    let s := { s.set Obj.lastDeviceFault code with rel := { s.rel with deviceFault := some code } }
    let s := s.discardStep
    let lost := code = 0x20 ∨ code = 0x21 ∨ code = 0x24
    let s := if !s.isManager then s
      else if lost then s.modServe (fun x => { x with entries := [], plan := none, pageOps := [] })
      else s.failRequests 0x25
    s.groupFatal code s.ownDevice 0xFF

/-! ## Memory in SYSTEM (R472) -/

/-- A request whose entry, page list or token log stands in a poisoned codeword ends when that is read (R472). -/
def Work.poisonRequest (s : Work) (index : Nat) : Work :=
  match s.entry index with
  | some e => if e.live then s.endRequest e 10 0x20 else s
  | none => s

/-- A scrub read. Poison it finds has no effect until data is read: a codeword of SYSTEM is device-fatal once firmware reads it as
data of its own, and one of SYSTEM or of the manager's SCRATCH region fails the request whose entry, page list or token log it holds; whose it
is and whether it is read are free (R472, R498). Assumption log 109, DESIGN CHOICE. -/
def Work.scrubChecked (s : Work) (stack address : Nat) (syn : List Byte) (passEnd : Bool) (perMille : Nat) : Work :=
  let s' := s.scrubRead stack address syn passEnd perMille
  let region := s.dram.regionOf address
  if (region = 1 ∨ (region = 3 ∧ s.isManager)) ∧ s'.mem.poison.contains (address / 32) ∧ !s.mem.poison.contains (address / 32) then
    let (n, s') := s'.fresh
    match Config.poisonReader (address / 32) n with
    | 0 => s'
    | 1 => if region = 1 then s'.deviceFatal 0x22 0 0 0 else s'
    | k + 2 => s'.poisonRequest k
  else s'

def execScrubRead (stack address : Nat) (syn : List Byte) (passEnd : Bool) (perMille : Nat) (s : State) :
    Host.Outcome State Fault Refusal :=
  s.nextIf (stack < 12 && addrValid address && addrStack address = stack && syn.length = 36)
    (fun w => w.inside (0x88 + stack) (fun w => w.scrubChecked stack address syn passEnd perMille))

/-! ## Core recovery (R497) -/

/-- Whether an op's whole output is owed by a core: one of its core set, and for an op on engines its home core, which sums the engines'
parts (R194, R200). -/
def Work.owesWhole (s : Work) (slot seq core : Nat) : Bool :=
  match (s.stepProgram slot).ops[seq]? with
  | none => false
  | some o =>
    let cores := s.recCores slot o
    if o.onSlices then cores.contains core && cores.all (fun (k : Nat) => decide (core ≤ k)) else cores.contains core

/-- What an abandoned vector owes is poison: every part that the core owes, or all of it on a core of the op's set. -/
def VecAsm.abandon (v : VecAsm) (core n : Nat) (whole : Bool) : VecAsm :=
  if v.written then v
  else
    { v with
      checks := if whole then [] else v.checks
      parts := v.parts.map (fun (p : VecPart) =>
        if (whole || decide (p.engine / 32 = core)) && (whole || p.result.isNone)
        then { p with result := some (1, List.replicate n none) } else p) }

/-- A collective of the core's in progress: its output is written poisoned. -/
def Work.abandonColl (s : Work) (x : CollRun) : Work :=
  let fmt := x.args.fmt
  let n := (s.mbVectors x.slot x.m).length
  let s := s.modStep (fun y => { y with colls := y.colls.filter (fun (z : CollRun) => !(z.slot = x.slot && z.seq = x.seq && z.m = x.m)) })
  let s := s.setBuf x.slot x.dst x.m (List.replicate n (poisonVec fmt x.args.elements))
  s.endOp ⟨x.slot, x.seq, x.m, 0, 0, x.dst, 0xFFFF, 0xFFFF, 0xFFFF, true, []⟩

/-- The core abandons its instances; what they owe is written poisoned, held outputs too (R497, R504). -/
def Work.abandonCore (s : Work) (core : Nat) : Work :=
  let mine := fun (e : Nat) => decide (e / 32 = core)
  let s := { s with engines := s.engines.map (fun (p : Nat × Engine) => if mine p.1 then (p.1, p.2.drop) else p) }
  let held := s.step.held.filter (fun (h : HeldCheck) => mine h.engine)
  let keys := held.map (fun (h : HeldCheck) => (h.tag, h.facet))
  let s := s.modStep (fun x => { x with
    held := x.held.filter (fun (h : HeldCheck) => !mine h.engine)
    ops := x.ops.map (fun (o : OpRun) =>
      let whole := s.owesWhole o.ctx.slot o.ctx.seq core
      { o with vecs := o.vecs.map (fun (v : VecAsm) =>
          let hit := v.checks.any (fun (c : Nat × Nat) => keys.contains c)
          let v := { v with checks := v.checks.filter (fun (c : Nat × Nat) => !keys.contains c) }
          v.abandon core o.n (whole || hit)) }) })
  let s := s.settleOps
  (s.step.colls.filter (fun (x : CollRun) => s.owesWhole x.slot x.seq core)).foldl (fun (s : Work) (x : CollRun) => s.abandonColl x) s

/-- CORE_RECOVERY_RESET: the core abandons its instances and its on-die copies are rewritten (R185); the second of a core within 60 s is
device-fatal. Trigger 1 SRAM, 2 exception, 3 test. -/
def Work.coreRecovery (s : Work) (core trigger : Nat) : Work :=
  let now := s.get Obj.poweredSeconds
  let again := match s.rel.lastRecovery.find? (fun p => p.1 = core) with
    | some p => decide (now < p.2 + 60)
    | none => false
  let s := (s.abandonCore core).rewriteWords (fun (k : Nat) => k = core)
  let s := { s with rel := { s.rel with lastRecovery := put s.rel.lastRecovery core now } }
  let s := (s.add Obj.coreRecoveries 1).log 2 0x46 4 0xFF core 0xFFFF trigger
  if again then s.deviceFatal 0x21 4 core 0 else s

def execCoreRecoveryReset (core trigger : Nat) (s : State) : Host.Outcome State Fault Refusal :=
  s.nextIf (goodCore s.ident core) (fun w => w.coreRecovery core trigger)

end Sys2Proof.Machine
end

