-- ==== Sys2Proof/Machine/Reliability.lean ====
section
/-! DEFINITION. Shadow samples, arbitration, digest sweeps and known-answer tests (R480 to R495, R503 to R507). -/

namespace Sys2Proof.Machine

/-! ## Outcomes (R485 to R488) -/

/-- A check is settled: it no longer holds its vector back (R200, R485). -/
def Work.settleCheck (s : Work) (h : HeldCheck) : Work :=
  let s := s.modStep (fun x => { x with
    held := x.held.erase h
    ops := x.ops.map (fun (o : OpRun) =>
      if o.ctx.slot = h.slot ∧ o.ctx.seq = h.seq ∧ o.ctx.m = h.m then
        { o with vecs := o.vecs.map (fun (v : VecAsm) =>
            if v.vec = h.vec then { v with checks := v.checks.erase (h.tag, h.facet) } else v) }
      else o) })
  s.settleOps

/-- The lane that consumes a vector is discarded (R485). -/
def Work.faultVec (s : Work) (h : HeldCheck) : Work := s.note ⟨h.slot, h.m, h.vec⟩ (fun v => { v with fault := true })

/-- Outcome SENTINEL of a group: its converter is due for calibration; the second within 24 h of powered time queues a
refresh (R485, R486). Assumption log 40, DEDUCED. -/
def Work.sentinelOutcome (s : Work) (h : HeldCheck) (g : Nat) : Work :=
  let s := (s.add Obj.arbSentinel 1).log 1 0x60 1 h.slot h.facet 0xFFFF g
  let now := s.get Obj.poweredSeconds
  let again := s.rel.sentinelSeen.any (fun x => x.1 = h.facet && x.2.1 = g && decide (now < x.2.2 + 86400))
  let seen := s.rel.sentinelSeen.filter (fun x => !(x.1 = h.facet && x.2.1 = g))
  let s := { s with rel := { s.rel with sentinelSeen := seen ++ [(h.facet, g, now)] } }
  let s := s.modArr (s.serving h.facet) (fun x => { x with sentDue := true })
  if again then s.queueRefresh h.facet 0x10 else s

/-- Outcome FACET, with the record code and DETAIL (R485, R487). -/
def Work.facetOutcome (s : Work) (h : HeldCheck) (code detail : Nat) : Work :=
  let s := (s.add Obj.arbFacet 1).log 2 code 1 h.slot h.facet 0xFFFF detail
  (s.faultVec h).suspect h.facet 0x11

/-- Outcome NO_GOLDEN; logged once per facet (R485, R488). -/
def Work.noGoldenOutcome (s : Work) (h : HeldCheck) (g : Nat) : Work :=
  ((s.add Obj.arbNoGolden 1).faultVec h |>.suspect h.facet 0x11).suspectNoGolden h.facet g

/-! ## Judging (R483, R484) -/

/-- The LSB in pu of a full-scale code (R484). -/
def lsbPu (fsc : Nat) : Nat := 2 ^ (fsc + 1)

/-- A value of both passes combined as R124 does. -/
def bothPasses (wide : Bool) (hi lo : Int) : Int := if wide then 16 * hi + lo else hi

/-- What arbitration finds: SENTINEL, FACET, or FACET with neither agreeing (R484). -/
inductive Verdict where
  | sentinel | facet | neither
  deriving DecidableEq, Repr

def verdict (tol : Nat) (e f c : Int) : Verdict :=
  if (f - e).natAbs ≤ tol then .sentinel else if (c - e).natAbs ≤ tol then .facet else .neither

/-- The pairs of a checksum group. -/
def groupPairs (g : Nat) : List Nat := (List.range 64).map (64 * g + ·)

def sumInt (l : List Int) : Int := l.foldl (· + ·) 0

/-- The exact, measured and checksum values of a group (R484). -/
def Work.arbValues (s : Work) (h : HeldCheck) (g : Nat) : Int × Int × Int :=
  let e := sumInt ((groupPairs g).map (fun j => s.exactDot h.facet false true h.wide h.input j))
  let f := sumInt ((groupPairs g).map (fun j => bothPasses h.wide (h.hi.getD j 0) (h.lo.getD j 0)))
  let c := 64 * bothPasses h.wide (h.chkHi.getD g 0) (h.chkLo.getD g 0)
  (e, f, c)

/-- Arbitration of a held group; `poison` is what its golden read returned (R484, R504). -/
def Work.arbitrate (s : Work) (h : HeldCheck) (g : Nat) (poison : Bool) : Work :=
  let s := s.add Obj.arbitrations 1
  let core := facetCore h.facet
  let present := s.goldenPresent core h.slot
  if !present then (s.noGoldenOutcome h g).settleCheck h
  else if poison then ((s.markUnverifiable core h.slot).noGoldenOutcome h g).settleCheck h
  else
    let (e, f, c) := s.arbValues h g
    let s := match verdict (s.get Obj.arbTol * lsbPu h.fsc) e f c with
      | .sentinel => s.sentinelOutcome h g
      | .facet => s.facetOutcome h 0x40 (g + 256 * h.tag)
      | .neither => (s.add Obj.arbNeither 1).facetOutcome h 0x40 (g + 256 * h.tag)
    s.settleCheck h

def Work.heldGroup (s : Work) (engine facet g : Nat) : Option HeldCheck :=
  s.step.held.find? (fun (h : HeldCheck) => h.engine = engine && h.facet = 4 * engine + facet && h.group = some g)

/-- The recomputes whose golden data arrived before an arbitration's are formed before its sums (R129). -/
def Work.formOlder (s : Work) (e : Nat) : Work :=
  (List.range (s.engine e).arrived.length).foldl (fun (s : Work) (_ : Nat) => s.recomputeDone e) s

def execArbitration (x : ArbitrationIn) (s : State) : Host.Outcome State Fault Refusal :=
  s.nextIf (engineExists s.ident x.engine && x.facet < 4 && x.group < 8) (fun w =>
    match w.heldGroup x.engine x.facet x.group with
    | some h => (w.formOlder x.engine).arbitrate h x.group x.poison
    | none => w)

/-- ARB_TIMEOUT: the outcome is FACET, also of a mismatch that a shadow sample is to settle (R484, R504). -/
def Work.arbTimeout (s : Work) (engine facet g : Nat) : Work :=
  let late := s.step.held.find? (fun (h : HeldCheck) =>
    h.engine = engine && h.facet = 4 * engine + facet && (h.group = some g || (h.group.isNone && h.failed.contains g)))
  match late with
  | some h => (((s.add Obj.arbitrations 1).add Obj.arbTimeouts 1).facetOutcome h 0x40 (g + 256 * h.tag)).settleCheck h
  | none => s

def execArbTimeout (engine facet group : Nat) (s : State) : Host.Outcome State Fault Refusal :=
  s.nextIf (engineExists s.ident engine && facet < 4 && group < 8) (fun w => w.arbTimeout engine facet group)

/-- The differences of a sample's outputs from their exact values, by pass; those a recompute replaces count as equal
(R483). Assumption log 35, DEDUCED. -/
def Work.sampleDiffs (s : Work) (h : HeldCheck) : List Int × List Int :=
  let n := if h.transposed then 1024 else 512
  let exact := fun (full : Bool) (j : Nat) => s.exactDot h.facet h.transposed full h.wide h.input j
  let hi := (List.range n).map (fun j =>
    if h.clamped.contains j then 0
    else if h.wide then h.hi.getD j 0 - (exact true j - exact false j) / 16 else h.hi.getD j 0 - exact true j)
  let lo := if h.wide then (List.range n).map (fun j =>
    if h.clamped.contains j then 0 else h.lo.getD j 0 - exact false j) else []
  (hi, lo)

/-- Blocks of 64 outputs whose differences sum past a tolerance. -/
def blocksOver (tol : Nat) (d : List Int) : Bool :=
  (List.range (d.length / 64)).any (fun b => decide (tol < (sumInt ((d.drop (64 * b)).take 64)).natAbs))

/-- SHADOW_SAMPLE_JUDGED: the facet passes or is judged faulty; a sample of a vector whose check failed too settles both
(R483, R504). -/
def Work.judgeSample (s : Work) (h : HeldCheck) (poison : Bool) : Work :=
  let core := facetCore h.facet
  if poison || !s.goldenPresent core h.slot then
    let s := if poison then s.markUnverifiable core h.slot else s
    let s := if h.failed.isEmpty then s.add Obj.arbNoGolden 1
      else h.failed.foldl (fun (s : Work) (g : Nat) => (s.add Obj.arbitrations 1).noGoldenOutcome h g) s
    s.settleCheck h
  else
    let s := s.add Obj.shadowSamples 1
    let lsb := lsbPu h.fsc
    let (hi, lo) := s.sampleDiffs h
    let past := (hi ++ lo).any (fun d => decide (s.get Obj.shadowPairTol * lsb < d.natAbs)) ||
      blocksOver (s.get Obj.arbTol * lsb) hi || blocksOver (s.get Obj.arbTol * lsb) lo
    let s := if past then
        let largest := maxNat ((hi ++ lo).map Int.natAbs)
        let det := if largest % lsb = 0 then largest / lsb else Config.wholeLsb largest lsb
        ((s.add Obj.arbitrations h.failed.length).add Obj.shadowMismatches 1).facetOutcome h 0x41 det
      else h.failed.foldl (fun (s : Work) (g : Nat) =>
        let s := s.add Obj.arbitrations 1
        let (e, f, c) := s.arbValues h g
        match verdict (s.get Obj.arbTol * lsb) e f c with
        | .sentinel => s.sentinelOutcome h g
        | .facet => s.facetOutcome h 0x40 (g + 256 * h.tag)
        | .neither => (s.add Obj.arbNeither 1).facetOutcome h 0x40 (g + 256 * h.tag)) s
    s.settleCheck h

def execShadowSampleJudged (x : ShadowJudged) (s : State) : Host.Outcome State Fault Refusal :=
  s.nextIf (engineExists s.ident x.engine && x.facet < 4) (fun w =>
    match w.step.held.find? (fun (h : HeldCheck) => h.engine = x.engine && h.facet = 4 * x.engine + x.facet && h.group.isNone) with
    | some h => w.judgeSample h x.poison
    | none => w)

/-! ## Digest sweeps (R489 to R491, R507) -/

/-- The manager's SLOT_DIGESTS of a slot: die index order, then core order (R506). -/
def slotDigestsOf (l : List (Nat × Nat × SweepRec)) (slot : Nat) : List Byte :=
  let rs := ((l.filter (fun x => x.2.1 = slot)).map (·.2.2)).mergeSort (fun (a b : SweepRec) =>
    decide (256 * a.dieIndex + a.core ≤ 256 * b.dieIndex + b.core))
  countedRecords (rs.map sweepRecBytes)

/-- Records of one worker replace what the manager had of it (R491). -/
def Work.gatherSweep (s : Work) (worker : Nat) (rs : List SweepRec) : Work :=
  let l := s.rel.slotDigests.filter (fun x => decide (x.1 ≠ worker)) ++ rs.map (fun (r : SweepRec) => (worker, r.slot, r))
  (List.range 4).foldl (fun (s : Work) (n : Nat) => s.setDom (Obj.slotDigests n) (slotDigestsOf l n))
    { s with rel := { s.rel with slotDigests := l } }

/-- The facet groups of every READY or DRAINING slot, in slot and core order. -/
def Work.sweptGroups (s : Work) : List (Nat × Nat) :=
  (List.range 4).flatMap (fun (n : Nat) =>
    if s.get (Obj.slotState n) = 3 ∨ s.get (Obj.slotState n) = 4 then
      (((s.slotArrays n).map (fun (p : Nat × Nat) => facetCore p.1)).eraseDups).map (fun (c : Nat) => (c, n))
    else [])

/-- SWEEP: a pass over every group, and its end; `reads` says of some groups what their read-back met. -/
def Work.sweep (s : Work) (reads : List SweepRead) : Work :=
  let groups := s.sweptGroups
  let s : Work := { s with rel := { s.rel with sweepRecs := [] } }
  let s := groups.foldl (fun (s : Work) (g : Nat × Nat) =>
    match reads.find? (fun (x : SweepRead) => x.core = g.1 && x.slot = g.2) with
    | some x => s.sweepGroup g.1 g.2 x.off x.waits
    | none => s.sweepGroup g.1 g.2 [] 0) s
  let s := ((s.add Obj.sweepPasses 1).set Obj.sweepProgress 0).showSweeps
  let s := { s with rel := { s.rel with sweeping := false, sweepDueS := 3600 * (s.get Obj.sweepIntervalH : Int) } }
  let s := if s.cmdBusy Obj.sweepNow then s.cmdEnd Obj.sweepNow 3 0 else s
  if s.isWorker && s.formed then s.toMember 0 (.sweepRecords s.rel.sweepRecs) else s

def execSweep (reads : List SweepRead) (s : State) : Host.Outcome State Fault Refusal := s.next (fun w => w.sweep reads)

def execSweepRecords (worker : Nat) (records : List SweepRec) (s : State) : Host.Outcome State Fault Refusal :=
  s.next (fun w => if w.isManager && w.workers.contains worker then w.gatherSweep worker records else w)

/-- SWEEP_NOW's action (R489). -/
def Work.sweepStart (s : Work) (o : Origin) : Work :=
  { s.cmdStart Obj.sweepNow 2 o with rel := { s.rel with sweeping := true } }

/-! ## Known-answer tests (R492 to R495) -/

def Work.coreTest (s : Work) (c : Nat) : CoreTest := look .reset s.rel.tests c

def Work.setTest (s : Work) (c : Nat) (t : CoreTest) : Work := { s with rel := { s.rel with tests := put s.rel.tests c t } }

/-- TEST_INTERVAL_S: a test falls due that long after the one before it started (R493). -/
def Work.setTestInterval (s : Work) (v : Nat) : Work :=
  let d : Int := (v : Int) - (s.get Obj.testIntervalS : Int)
  { s.set Obj.testIntervalS v with rel := { s.rel with
      tests := s.rel.tests.map (fun (p : Nat × CoreTest) => (p.1, { p.2 with dueIn := p.2.dueIn + d })) } }

/-- TEST_DUE: the core's test waits for the next step boundary; not while tests are disabled or the core is gated. -/
def Work.testDue (s : Work) (c : Nat) : Work :=
  if s.get Obj.testEnable = 0 ∨ 2 ≤ s.get Obj.powerState then s
  else s.setTest c { s.coreTest c with dueIn := min 0 (s.coreTest c).dueIn }

def execTestDue (core : Nat) (s : State) : Host.Outcome State Fault Refusal :=
  s.nextIf (goodCore s.ident core) (fun w => w.testDue core)

/-- The spare that a core's test reads back (R114, R492). -/
def Work.spareInTest (s : Work) (c : Nat) : Option Nat := (s.sparesIn c 10).head?

/-- K6 takes the next of the core's free spares in rotation, when at least two are free (R492). -/
def Work.takeTestSpare (s : Work) (c : Nat) : Work :=
  let free := s.sparesIn c 7
  if free.length < 2 then s
  else
    let last := look (4 * c + 3) s.rel.spareTurn c
    let n := ((free.find? (fun (n : Nat) => decide (last < n))).getD (free.headD 0))
    let s := s.modArr (0x8000 + n) (fun x => { x with state := 10 })
    { s with rel := { s.rel with spareTurn := put s.rel.spareTurn c n } }

/-- The spare is free again, or withdrawn when its read-back failed (R494). -/
def Work.giveTestSpare (s : Work) (c : Nat) (failed : Bool) (rows : Nat) : Work :=
  match s.spareInTest c with
  | none => s
  | some n =>
    let s := s.modArr (0x8000 + n) (fun x => if failed then { x with state := 11 } else x.freed)
    if failed then s.log 2 0x48 2 0xFF n 0xFFFF rows else s

/-- A core's test starts (R493). -/
def Work.testStart (s : Work) (c : Nat) : Work :=
  let t := s.coreTest c
  let s := s.takeTestSpare c
  let s := s.setTest c { t with
    startedAt := s.get Obj.poweredSeconds % 2 ^ 32, dueIn := (s.get Obj.testIntervalS : Int), overdue := 0, running := true, second := false }
  if t.requested && s.cmdState Obj.testNow = 1 then s.cmdTo Obj.testNow 2 0 else s

/-- At a step boundary at most one core's test starts: one asked for by TEST_NOW, else the one longest due (R493). Assumption log 90, DEDUCED. -/
def Work.testAtBoundary (s : Work) : Work :=
  let due := (s.rel.tests.filter (fun p => !p.2.running && (p.2.requested || (s.get Obj.testEnable = 1 && decide (p.2.dueIn ≤ 0))))).map
    (fun p => (p.1, if p.2.requested then (-1000000000 : Int) else p.2.dueIn))
  match due with
  | [] => s
  | p :: rest => s.testStart (rest.foldl (fun (b : Nat × Int) (q : Nat × Int) => if q.2 < b.2 then q else b) p).1

/-- TEST_NOW's action: an absent core fails at once (R508). -/
def Work.testNow (s : Work) (c : Nat) (o : Origin) : Work :=
  if !goodCore s.ident c then s.cmdFail Obj.testNow o 0xB1
  else (s.cmdStart Obj.testNow 1 o).setTest c { s.coreTest c with requested := true }

/-- The end of a core's test. -/
def Work.testEnd (s : Work) (c : Nat) (t : CoreTest) : Work :=
  let s := s.setTest c { t with running := false, second := false, requested := false }
  if t.requested && s.cmdBusy Obj.testNow then s.cmdEnd Obj.testNow 3 0 else s

/-- TEST_COMPLETE: the kernels that failed, and the rows of the spare of K6 that differed (R494). Assumption log 36, DEDUCED. -/
def Work.testComplete (s : Work) (c : Nat) (failed : List Nat) (rows : Nat) : Work :=
  let t := s.coreTest c
  if !t.running then s
  else
    let s := s.add Obj.testsRun 1
    let s := if failed.isEmpty then s else s.add Obj.testFailures 1
    let s := s.giveTestSpare c (failed.contains 6) rows
    match failed.filter (fun k => 1 ≤ k && k ≤ 5) with
    | [] =>
      if t.second then (s.log 2 0x47 4 0xFF c 0xFFFF t.kernel).testEnd c { t with result := 2 }
      else if failed.isEmpty then s.testEnd c { t with result := 1 }
      else s.testEnd c { t with result := 3, kernel := 6 }
    | k :: rest =>
      let last := rest.foldl max k
      if t.second then
        (s.testEnd c { t with result := 3, kernel := last }).deviceFatal 0x23 4 c 0
      else
        let s := s.setTest c { t with result := 2, kernel := last, second := true }
        (s.coreRecovery c 3).takeTestSpare c

def execTestComplete (core : Nat) (failed : List Nat) (_spare rowsDiffering : Nat) (s : State) : Host.Outcome State Fault Refusal :=
  s.nextIf (goodCore s.ident core) (fun w => w.testComplete core failed rowsDiffering)

/-- TEST_OVERDUE: the third interval past the due time, and each further one (R495). -/
def Work.testOverdue (s : Work) (c : Nat) : Work :=
  let t := s.coreTest c
  let n := (-t.dueIn).toNat / max 1 (s.get Obj.testIntervalS)
  if t.running || n < 3 || n ≤ t.overdue then s
  else ((s.setTest c { t with overdue := n }).add Obj.testOverdueEvents 1).log 0 5 4 0xFF c 0xFFFF n

def execTestOverdue (core : Nat) (s : State) : Host.Outcome State Fault Refusal :=
  s.nextIf (goodCore s.ident core) (fun w => w.testOverdue core)

/-- TEST_TABLE (R506). -/
def Work.testTable (s : Work) : List Byte :=
  (List.range 64).flatMap (fun c =>
    let t := s.coreTest c
    toLE 1 t.result ++ toLE 1 t.kernel ++ toLE 2 t.overdue ++ toLE 4 t.startedAt)

/-! ## The step boundary -/

/-- Work of a step boundary: drift, outlier words, flips of the facet map, and at most one core's test. -/
def Work.stepBoundary (s : Work) : Work := (s.driftAll.rewriteWords (fun _ => true)).flipAll.testAtBoundary

end Sys2Proof.Machine
end

