-- ==== Sys2Proof/Machine/Variants.lean ====
section
/-! DEFINITION. Delta sets and variants: files and their checks on a worker, versions, the reserve, loading and unloading at
the manager (R267, R342 to R357, R362). -/

namespace Sys2Proof.Machine

/-! ## Delta files (R342 to R348) -/

/-- An engine record of a die part (R344): its raw entries. -/
structure DeltaRec where
  engine : Nat
  stream : Nat
  entries : List Nat
  deriving DecidableEq, Repr

/-- The engine records of a die part, from the end of its directory on. -/
def deltaRecs : Nat → List Byte → List DeltaRec
  | 0, _ => []
  | n + 1, b =>
    if b.length < 8 then []
    else
      let e := leAt b 4 4
      ⟨leAt b 0 2, leAt b 2 2, (List.range e).map (fun i => leAt b (8 + 3 * i) 3)⟩ :: deltaRecs n (b.drop (alignUp (8 + 3 * e) 4))

/-- The records of a die part (R344). -/
def partRecs (b : List Byte) : List DeltaRec := deltaRecs (leAt b 4 4) (b.drop (32 + 8 * leAt b 2 2))

/-- Walk entries under their markers (R345): input element, lane, code and exponent field. -/
def walkEntries : List Nat → Nat → Nat → List DeltaEntry
  | [], _, _ => []
  | w :: ws, lane, ex =>
    if bitAt w 23 then walkEntries ws (field w 22 12) (field w 7 0)
    else ⟨field w 22 11, lane, signed 8 (field w 7 0), ex⟩ :: walkEntries ws lane ex

/-- The delta entries of a record. -/
def DeltaRec.deltas (r : DeltaRec) : List DeltaEntry := walkEntries r.entries 0 0

/-- Runs of a record: each marker with the value entries under it. -/
def runsOf : List Nat → List (Nat × List Nat)
  | [] => []
  | w :: ws =>
    match runsOf ws with
    | [] => if bitAt w 23 then [(w, [])] else [(0, [w])]
    | (m, vs) :: rest =>
      if bitAt w 23 then (if m = 0 then (w, vs) :: rest else (w, []) :: (m, vs) :: rest)
      else if m = 0 then (0, w :: vs) :: rest
      else (0, [w]) :: (m, vs) :: rest

/-- The slice that each delta stream adjusts, by the ops of a program (R199, R210, R344). -/
def Program.streams (p : Program) (experts : Nat) : List (Nat × Nat) :=
  p.ops.flatMap (fun (o : OpRec) =>
    if (o.opcode = 1 ∨ o.opcode = 2) ∧ bitAt (o.arg 18 1) 1 then [(o.arg 22 2, o.arg 14 2)]
    else if o.opcode = 0x41 ∧ bitAt (o.arg 18 1) 1 then (List.range experts).map (fun e => (o.arg 22 2 + e, o.arg 14 2 + e))
    else [])

/-- Strictly rising. -/
def rising : List Nat → Bool
  | [] => true
  | [_] => true
  | a :: b :: l => decide (a < b) && rising (b :: l)

/-- Non-decreasing. -/
def nondecreasing : List Nat → Bool
  | [] => true
  | [_] => true
  | a :: b :: l => decide (a ≤ b) && nondecreasing (b :: l)

/-- An engine record is legal for the slice its stream adjusts (R346). -/
def DeltaRec.legal (r : DeltaRec) (x : Slice) (engines : List Nat) : Bool :=
  let runs := runsOf r.entries
  let ds := r.deltas
  let lanes := runs.map (fun (q : Nat × List Nat) => field q.1 22 12)
  engines.contains r.engine && bitAt (r.entries.headD 0) 23 &&
    runs.all (fun (q : Nat × List Nat) => bitAt q.1 23 && field q.1 11 8 = 0 && field q.1 7 0 ≠ 255 && 1 ≤ q.2.length && q.2.length ≤ 32 &&
      q.2.all (fun w => field w 10 8 = 0 && field w 7 0 ≠ 0x80 && (field q.1 7 0 ≠ 0 || field w 7 0 = 0))) &&
    nondecreasing lanes &&
    lanes.eraseDups.all (fun l => rising ((ds.filter (fun (d : DeltaEntry) => d.lane = l)).map (·.row))) &&
    ds.all (fun (d : DeltaEntry) => d.row < inputCount false x.join && d.lane < laneCount false x.join)

/-- The facets of this die that a slice takes. -/
def Placement.sliceFacets (p : Placement) (i : Nat) : Nat :=
  sumNat ((p.entriesOf i).map (fun (e : EngEntry) => (maskFacets e.mask).length))

/-- The checks of a worker on its die file, in the order of R357; 0 when it passes. `die` is its own die index. -/
def Work.checkDelta (s : Work) (slot : Nat) (file : List Byte) (poison : Bool) : Nat :=
  let h := slice file 0 256
  let dies := leAt h 20 2
  let bolt := (s.slot slot).section 0
  let bf := s.get Obj.boltFormat
  let manifest := slice file 256 (72 * dies)
  let signedFlag := bitAt (leAt h 24 4) 0
  let sig := slice file (256 + 72 * dies) 576
  let die := s.get (Obj.slotDieIndex slot)
  let off := leAt h 32 8
  let part := slice file off (leAt manifest (72 * die) 8)
  let recs := partRecs part
  let p := s.program slot
  let pl := s.placement slot
  let streams := p.streams (leAt ((s.slot slot).section 0x02) 24 2)
  let sliceOf := fun (st : Nat) => (streams.find? (fun q => q.1 = st)).bind (fun q => (pl.slices[q.2]?).map (fun (x : Slice) => (q.2, x)))
  let dirOk := (List.range (leAt part 2 2)).all (fun i =>
    let first := leAt part (32 + 8 * i) 4
    ((recs.drop first).take (leAt part (36 + 8 * i) 4)).all (fun (r : DeltaRec) => r.stream = i)) &&
      sumNat ((List.range (leAt part 2 2)).map (fun i => leAt part (36 + 8 * i) 4)) = recs.length
  let values := sumNat (recs.map (fun (r : DeltaRec) => r.deltas.length))
  let markers := sumNat (recs.map (fun (r : DeltaRec) => r.entries.length)) - values
  if poison then 0x39
  else if leAt h 0 4 ≠ 0x44585653 ∨ leAt h 4 2 < bf % 65536 ∨ bf / 65536 < leAt h 4 2 ∨ 2 ≤ leAt h 24 4 ∨ leAt h 28 4 ≠ 0 ∨
    (slice h 48 16).any (· ≠ 0) ∨ off % 4096 ≠ 0 ∨ h.length ≠ 256 then 0x72
  else if leAt h 8 8 ≠ s.get (Obj.slotBoltId slot) ∨ leAt h 16 4 ≠ s.get (Obj.slotBoltVersion slot) ∨ dies ≠ leAt bolt 22 2 then 0x71
  else if slice h 192 64 ≠ Config.sha512 (slice h 0 192) ∨ slice h 128 64 ≠ Config.sha512 manifest ∨
    slice manifest (72 * die + 8) 64 ≠ Config.sha512 part ∨ part.length ≠ leAt manifest (72 * die) 8 then 0x73
  else if (signedFlag ∧ !s.signatureOk sig (slice h 0 192)) ∨ (!signedFlag ∧ s.get Obj.requireSignedDelta = 1) then 0x74
  else if leAt part 0 2 ≠ die ∨ leAt part 2 2 ≠ leAt h 22 2 ∨ leAt part 8 4 ≠ values ∨ leAt part 12 4 ≠ markers ∨
    (slice part 16 16).any (· ≠ 0) ∨ !dirOk ∨ recs.length ≠ leAt part 4 4 ∨
    part.length ≠ 32 + 8 * leAt part 2 2 + sumNat (recs.map (fun (r : DeltaRec) => alignUp (8 + 3 * r.entries.length) 4)) ∨
    !rising (recs.map (fun (r : DeltaRec) => 65536 * r.stream + r.engine)) ∨
    !recs.all (fun (r : DeltaRec) => match sliceOf r.stream with
      | some (i, x) => r.legal x ((pl.entriesOf i).map (·.engine))
      | none => false) then 0x72
  else if (recs.map (·.stream)).eraseDups.any (fun st =>
      let n := sumNat ((recs.filter (fun (r : DeltaRec) => r.stream = st)).map (fun (r : DeltaRec) => r.deltas.length))
      match sliceOf st with
      | some (i, _) => decide ((524288 * pl.sliceFacets i + 199) / 200 < n)
      | none => true) ∨
    recs.any (fun (r : DeltaRec) => decide (512 * s.dram.bufferKib < alignUp (8 + 3 * r.entries.length) 4)) then 0x75
  else 0

/-! ## Admission (R267) -/

/-- The holders of a slot among the workers. -/
def Work.holders (s : Work) (slot : Nat) : List SlotHeld :=
  s.serve.held.filter (fun (h : SlotHeld) => h.slot = slot && h.state ≠ 0 && h.state ≠ 6 && h.kind = 0)

/-- The workers hold the slot READY with one Bolt, each die index from 0 to DIES − 1 exactly once. -/
def Work.slotWhole (s : Work) (slot : Nat) : Bool :=
  let hs := s.holders slot
  match hs with
  | [] => false
  | h :: _ =>
    hs.all (fun (x : SlotHeld) => x.state = 3 && x.boltId = h.boltId && x.version = h.version) && hs.length = h.dies &&
      (List.range h.dies).all (fun d => hs.any (fun (x : SlotHeld) => x.dieIndex = d))

def Work.drainOf (s : Work) (slot : Nat) : Option Drain := s.serve.drains.find? (fun (d : Drain) => d.slot = slot)

/-- SLOT_ADMISSION: 0 OPEN, 1 REPLACING, 2 CLOSED (R267, R276). -/
def Work.admission (s : Work) (slot : Nat) : Nat :=
  if !s.isManager then 2
  else match s.drainOf slot with
    | some d => if d.complete && d.left.isEmpty && s.slotWhole slot then 0 else 1
    | none => if s.slotWhole slot then 0 else 2

/-- PAGE_POSITIONS as the planner takes it: that of the die holding the most (R305). -/
def Work.slotPositions (s : Work) (slot : Nat) : Nat :=
  match (s.holders slot).map (·.positions) with
  | [] => 0
  | p :: ps => ps.foldl min p

def Work.slotVocab (s : Work) (slot : Nat) : Nat :=
  match s.holders slot with
  | [] => 0
  | h :: _ => h.vocab

/-! ## Variants and their sets at the manager (R349 to R355) -/

def Work.variant (s : Work) (slot id : Nat) : Option Variant := s.vars.variants.find? (fun (v : Variant) => v.slot = slot && v.id = id)

def Work.putVariant (s : Work) (v : Variant) : Work :=
  s.modVars (fun x => { x with variants := (x.variants.filter (fun (y : Variant) => !(y.slot = v.slot && y.id = v.id))) ++ [v] })

/-- A loaded variant: one whose ID has not been unloaded. -/
def Work.loaded (s : Work) (slot id : Nat) : Option Variant := (s.variant slot id).filter (fun (v : Variant) => !v.unloaded)

/-- The set in force of a variant: its CURRENT version, or else the BAD one that was, the highest where there are several. -/
def Work.currentSet (s : Work) (slot id : Nat) : Option DeltaSet :=
  let own := s.vars.sets.filter (fun (x : DeltaSet) => x.slot = slot && x.variant = id && !x.ready)
  match own.find? (fun (x : DeltaSet) => x.state = 2) with
  | some x => some x
  | none => (own.filter (fun (x : DeltaSet) => x.state = 4)).foldl (fun (m : Option DeltaSet) (x : DeltaSet) =>
      if m.any (fun (y : DeltaSet) => decide (x.version ≤ y.version)) then m else some x) none

def Work.setOfVersion (s : Work) (slot id version : Nat) : Option DeltaSet :=
  s.vars.sets.find? (fun (x : DeltaSet) => x.slot = slot && x.variant = id && x.version = version)

/-- A tenant may name a variant: its owner, or anyone a SHARED one (R349). -/
def Variant.visible (v : Variant) (tenant : Nat) : Bool := v.owner = 0xFFFF || v.owner = tenant

/-- Why intake finds no variant (R285, R349 to R351). -/
def Work.noVariant (s : Work) (slot id tenant : Nat) : Bool :=
  match s.loaded slot id with
  | none => true
  | some v => !v.visible tenant || match s.currentSet slot id with
    | some x => x.state = 4
    | none => true

/-- The group reserve: the smallest among the workers (R352); on another device its own. -/
def Work.reserveBytes (s : Work) : Nat :=
  if s.isManager then
    match s.group.identities.filter (fun (p : Nat × Identity) => s.workers.contains p.1) with
    | [] => 0
    | p :: ps => ps.foldl (fun (n : Nat) (q : Nat × Identity) => min n q.2.reserveBytes) p.2.reserveBytes
  else s.ownReserve

/-- Bytes charged to the reserve: sets, sets being loaded, and jobs (R352, R366). -/
def Work.charged (s : Work) : Nat :=
  if s.isManager then
    sumNat (s.vars.sets.map (·.bytes)) + sumNat (s.vars.loads.map (fun (l : VarLoad) => l.set.bytes)) + sumNat (s.vars.jobs.map (·.charge))
  else sumNat (s.vars.held.map (fun (h : HeldSet) => h.part.length +
    (match h.work with | some w => 4 * w.masters.length | none => 0)))

/-- A tenant's charged bytes (R353). -/
def Work.tenantCharged (s : Work) (t : Nat) : Nat :=
  sumNat ((s.vars.sets.filter (fun (x : DeltaSet) => x.owner = t)).map (·.bytes)) +
  sumNat ((s.vars.loads.filter (fun (l : VarLoad) => l.set.owner = t)).map (fun (l : VarLoad) => l.set.bytes)) +
  sumNat ((s.vars.jobs.filter (fun (j : TuneJob) => j.tenant = t)).map (·.charge))

def Work.slotSets (s : Work) (slot : Nat) : Nat :=
  (s.vars.sets.filter (fun (x : DeltaSet) => x.slot = slot)).length + (s.vars.loads.filter (fun (l : VarLoad) => l.set.slot = slot)).length

/-- The step in progress names a set. -/
def Work.stepNames (s : Work) (x : DeltaSet) : Bool :=
  match s.serve.plan with
  | some p => p.body.variants.any (fun (v : VariantRef) => v.handle = x.handle)
  | none => false

/-- A request, live or retained, names a variant. -/
def Work.requestNames (s : Work) (slot id : Nat) : Bool :=
  s.serve.entries.any (fun (e : Entry) => (e.live || e.state = 7) && e.slot = slot && e.variant = id)

def Work.jobNames (s : Work) (slot id : Nat) : Bool :=
  s.vars.jobs.any (fun (j : TuneJob) => j.active && j.slot = slot && j.variant = id)

/-- A set may be evicted (R354). -/
def Work.evictable (s : Work) (x : DeltaSet) : Bool :=
  x.state = 2 && (match s.variant x.slot x.variant with | some v => !v.pinned | none => true) &&
    !s.requestNames x.slot x.variant && !s.jobNames x.slot x.variant && !s.stepNames x

/-- Eviction order: the oldest LAST_USED, then the lower slot and variant. -/
def evictBefore (a b : DeltaSet) : Bool :=
  a.lastUsed < b.lastUsed || (a.lastUsed = b.lastUsed && decide (4096 * a.slot + a.variant ≤ 4096 * b.slot + b.variant))

/-- The shortest prefix of candidates after which n more bytes and one more set of a slot fit. -/
def evictPrefix (charged sets reserve n slot : Nat) : List DeltaSet → List DeltaSet → Option (List DeltaSet)
  | taken, [] => if charged + n ≤ reserve ∧ sets < 4096 then some taken else none
  | taken, x :: rest =>
    if charged + n ≤ reserve ∧ sets < 4096 then some taken
    else evictPrefix (charged - x.bytes) (if x.slot = slot then sets - 1 else sets) reserve n slot (taken ++ [x]) rest

/-- Placement of n bytes in a slot: the sets to evict, or the refusal (R354). Assumption log 37, DEDUCED. -/
def Work.place (s : Work) (slot n : Nat) : Except Nat (List DeltaSet) :=
  let cands := (s.vars.sets.filter s.evictable).mergeSort evictBefore
  match evictPrefix s.charged (s.slotSets slot) s.reserveBytes n slot [] cands with
  | some l => .ok l
  | none => .error (if 4096 ≤ s.slotSets slot ∧ s.charged + n ≤ s.reserveBytes then 0x77 else 0x76)

/-- A set is freed at the manager and on every worker. -/
def Work.dropSet (s : Work) (x : DeltaSet) : Work :=
  (s.modVars (fun v => { v with sets := v.sets.filter (fun (y : DeltaSet) => decide (y.handle ≠ x.handle)) })).orderAll
    (.deltaDrop x.slot x.variant x.handle)

/-- Assumption log 89, DESIGN CHOICE. -/
def Work.putSet (s : Work) (x : DeltaSet) : Work :=
  s.modVars (fun v => { v with sets := v.sets.map (fun (y : DeltaSet) => if y.handle = x.handle then x else y) })

/-- The live FOLLOW requests of a variant keep the set now in force until they end (R350). -/
def Work.freezeFollows (s : Work) (slot id : Nat) : Work :=
  match s.currentSet slot id with
  | none => s
  | some x => s.modServe (fun v => { v with entries := v.entries.map (fun (e : Entry) =>
      if !e.terminal && !e.pin && !e.frozen && e.slot = slot && e.variant = id then { e with version := x.version, frozen := true } else e) })

/-- VARIANT_UNLOAD's effect (R350). -/
def Work.unloadVariant (s : Work) (slot id : Nat) : Work :=
  match s.loaded slot id with
  | none => s
  | some v =>
    let s := (s.freezeFollows slot id).putVariant { v with unloaded := true }
    s.modVars (fun x => { x with sets := x.sets.map (fun (y : DeltaSet) =>
      if y.slot = slot ∧ y.variant = id ∧ (y.state = 2 ∨ y.ready) then { y with state := 3, ready := false } else y) })

/-- Eviction (R355). -/
def Work.evict (s : Work) (l : List DeltaSet) : Work :=
  l.foldl (fun (s : Work) (x : DeltaSet) => ((s.unloadVariant x.slot x.variant).dropSet x).add Obj.deltaEvictions 1) s

/-- A complete load or publish becomes CURRENT at a step start, the one before it RETIRING (R350, R362). -/
def Work.promoteSets (s : Work) : Work :=
  (s.vars.sets.filter (·.ready)).foldl (fun (s : Work) (x : DeltaSet) =>
    let s := s.modVars (fun v => { v with sets := v.sets.map (fun (y : DeltaSet) =>
      if y.slot = x.slot ∧ y.variant = x.variant ∧ y.state = 2 ∧ !y.ready then { y with state := 3 } else y) })
    s.putSet { x with state := 2, ready := false }) s

/-- What still names a RETIRING or BAD set (R350). -/
def Work.setNamed (s : Work) (x : DeltaSet) : Bool :=
  let follows := match s.variant x.slot x.variant with
    | some v => !v.unloaded && x.state = 4 && (s.currentSet x.slot x.variant).any (fun (y : DeltaSet) => y.handle = x.handle)
    | none => false
  s.serve.entries.any (fun (e : Entry) => (e.live || e.state = 7) && e.slot = x.slot && e.variant = x.variant &&
    (if e.pin || e.frozen || e.state = 7 then e.version = x.version else follows && (e.version = x.version || e.version = 0))) ||
  s.vars.jobs.any (fun (j : TuneJob) => j.active && j.slot = x.slot && j.variant = x.variant && j.base = x.version) || s.stepNames x

/-- RETIRING and BAD sets that nothing names are freed (R350). -/
def Work.collectSets (s : Work) : Work :=
  (s.vars.sets.filter (fun (x : DeltaSet) => (x.state = 3 || x.state = 4) && !s.setNamed x)).foldl
    (fun (s : Work) (x : DeltaSet) => s.dropSet x) s

/-- The CURRENT version of a variant, 0 when there is none. -/
def Work.currentVersion (s : Work) (slot id : Nat) : Nat :=
  match s.currentSet slot id with
  | some x => x.version
  | none => 0

/-! ## VARIANT_LOAD (R356, R357) -/

/-- Commit validation of VARIANT_LOAD_REQUEST; `tenantFn` when a tenant function commits it. The bits of SLOT, VARIANT and WINDOW_OFFSET past
their ranges count as reserved (assumption log 143, DEDUCED). -/
def variantRequestCheck (b : List Byte) (tenantFn : Bool) : Option Nat :=
  if b.length ≠ 64 ∨ 4 ≤ leAt b 0 1 ∨ 4 ≤ leAt b 1 1 ∨ 4096 ≤ leAt b 2 2 ∨ leAt b 8 8 % 4096 ≠ 0 ∨ (slice b 24 40).any (· ≠ 0) then some 2
  else if bitAt (leAt b 1 1) 1 ∧ tenantFn then some 3
  else none

/-- A load ends with a result; one that did not succeed leaves nothing on the workers. -/
def Work.varLoadEnd (s : Work) (l : VarLoad) (res : Nat) : Work :=
  let s := s.modVars (fun v => { v with loads := v.loads.filter (fun (x : VarLoad) => decide (x.key ≠ l.key)) })
  let s := if res = 0 then s else (s.add Obj.deltaLoadsRefused 1).orderAll (.deltaDrop l.set.slot l.set.variant l.set.handle)
  s.cmdEnd l.key (if res = 0 then 3 else if res = 0x30 then 5 else 4) res

/-- The installed set of a load, or of a publish that copies a working set (R350, R370). -/
def Work.installSet (s : Work) (x : DeltaSet) (pin : Option Bool) (copyOf : Option Nat) : Work :=
  let v := match s.loaded x.slot x.variant with
    | some v => v
    | none => ⟨x.slot, x.variant, x.owner, false, match s.variant x.slot x.variant with | some v => v.next | none => 1, false⟩
  let x := { x with version := v.next, ready := true, state := 1, lastUsed := s.serve.step }
  let s := s.putVariant { v with next := v.next + 1, pinned := pin.getD v.pinned, unloaded := false, owner := x.owner }
  let s := s.modVars (fun y => { y with sets := y.sets ++ [x] })
  match copyOf with
  | none => s.orderAll (.deltaInstall x.slot x.variant x.version x.handle)
  | some work => s.orderAll (.tunePublish work x.slot x.variant x.version x.handle)

/-- Settle a load when every worker has reported. -/
def Work.varLoadSettle (s : Work) (l : VarLoad) : Work :=
  if !l.waiting.isEmpty then s
  else match lowest (l.codes.filter (· ≠ 0)) with
    | some c => s.varLoadEnd l c
    | none => (s.varLoadEnd l 0).installSet l.set (some l.pin) none

/-- VARIANT_LOAD's action for an owner's request (R357); JOB_ACTIVE of R372 is looked for after the ownership, as TUNE_START does (assumption log
144, DEDUCED). -/
def Work.variantLoad (s : Work) (t : Nat) (o : Origin) : Work :=
  let key := Obj.variantLoad t
  let b := (s.dom (Obj.variantLoadRequest t)).bytes
  let fail := fun (res : Nat) => (s.add Obj.deltaLoadsRefused 1).cmdFail key o res
  let slot := leAt b 0 1 % 4
  let id := leAt b 2 2
  let shared := bitAt (leAt b 1 1) 1
  let owner := if shared then 0xFFFF else t
  let n := leAt b 16 8
  if s.rel.deviceFault.isSome then fail 0xB0
  else if !s.isManager then fail 0x3A
  else if b.isEmpty ∨ s.admission slot ≠ 0 then fail 0x37
  else if (s.loaded slot id).any (fun (v : Variant) => v.owner ≠ owner) then fail 0x70
  else if s.jobNames slot id then fail 0x80
  else if leAt b 4 4 ≠ 0 ∧ leAt b 4 4 ≠ s.currentVersion slot id then fail 0x78
  else if !shared ∧ s.get (Obj.tenantDeltaCap t) * 2 ^ 20 < s.tenantCharged t + n then fail 0x7C
  else match s.place slot n with
    | .error res => fail res
    | .ok l =>
      let s := s.evict l
      let set : DeltaSet := ⟨s.vars.nextHandle, slot, id, 0, 1, false, n, 0, 0, owner⟩
      let s := s.modVars (fun v => { v with nextHandle := v.nextHandle + 1 })
      let run : VarLoad := ⟨key, set, bitAt (leAt b 1 1) 0, t, leAt b 8 8, n, s.workers, []⟩
      let s := (s.cmdStart key 2 o).modVars (fun v => { v with loads := v.loads ++ [run] })
      (s.orderAll (.deltaLoad slot id t (leAt b 8 8) n [] false)).varLoadSettle run

/-- A worker's report on its file. -/
def Work.deltaReport (s : Work) (worker slot id res largest values : Nat) : Work :=
  match s.vars.loads.find? (fun (l : VarLoad) => l.set.slot = slot && l.set.variant = id && l.waiting.contains worker) with
  | none => s
  | some l =>
    let set := { l.set with values := max l.set.values values, bytes := if res = 0 then largest else l.set.bytes }
    let l := { l with waiting := l.waiting.erase worker, codes := l.codes ++ [res], set := set }
    let s := s.modVars (fun v => { v with loads := v.loads.map (fun (x : VarLoad) => if x.key = l.key then l else x) })
    s.varLoadSettle l

/-- VARIANT_LOAD aborted. -/
def Work.variantLoadAbort (s : Work) (t : Nat) : Work :=
  match s.vars.loads.find? (fun (l : VarLoad) => l.key = Obj.variantLoad t) with
  | some l => s.varLoadEnd l 0x30
  | none => s

/-- VARIANT_UNLOAD's action: variant and slot of the argument. -/
def Work.variantUnloadCmd (s : Work) (t arg : Nat) (o : Origin) : Work :=
  let key := Obj.variantUnload t
  let slot := field arg 13 12
  let id := field arg 11 0
  if s.rel.deviceFault.isSome then s.cmdFail key o 0xB0
  else if !s.isManager then s.cmdFail key o 0x3A
  else match s.loaded slot id with
    | none => s.cmdFail key o 0x79
    | some v =>
      if v.owner ≠ t ∧ !(v.owner = 0xFFFF ∧ o.fn = 0) then s.cmdFail key o 0x70
      else (s.cmdDone key o).unloadVariant slot id

/-- VARIANT_PIN's action. -/
def Work.variantPinCmd (s : Work) (arg : Nat) (o : Origin) : Work :=
  if s.rel.deviceFault.isSome then s.cmdFail Obj.variantPin o 0xB0
  else if !s.isManager then s.cmdFail Obj.variantPin o 0x3A
  else match s.loaded (field arg 13 12) (field arg 11 0) with
    | none => s.cmdFail Obj.variantPin o 0x79
    | some v => (s.cmdDone Obj.variantPin o).putVariant { v with pinned := bitAt arg 16 }

/-- A set reported poisoned becomes BAD at the next commit; here its state and the objects that count it (R351). -/
def Work.setBad (s : Work) (handle : Nat) : Work :=
  match s.vars.sets.find? (fun (x : DeltaSet) => x.handle = handle) with
  | none => s
  | some x =>
    if x.state = 4 then s
    else
      let s := (s.putSet { x with state := 4, ready := false })
      if x.owner < 1024 then s.attendTenant x.owner 1 else s

/-! ## On a worker -/

def Work.putHeldSet (s : Work) (h : HeldSet) : Work :=
  s.modVars (fun v => { v with held := (v.held.filter (fun (x : HeldSet) => decide (x.handle ≠ h.handle))) ++ [h] })

def Work.heldSet (s : Work) (handle : Nat) : Option HeldSet := s.vars.held.find? (fun (h : HeldSet) => h.handle = handle)

/-- The reserve bytes that sets held on this device take in the two halves (R467). -/
def Work.reserveUsed (s : Work) : Nat × Nat :=
  (sumNat (s.vars.held.map (·.placed.1)), sumNat (s.vars.held.map (·.placed.2)))

/-- Each engine record of a die part goes to its engine's half of the reserve, and to the other half when that one has no room; the bytes
placed so count (R467). -/
def Work.placeDelta (s : Work) (part : List Byte) : (Nat × Nat) × Nat :=
  let room := s.dram.deltaGib * 2 ^ 30 / 2
  let used := s.reserveUsed
  (partRecs part).foldl (fun a r =>
    let n := alignUp (8 + 3 * r.entries.length) 4
    let weft := if r.engine < 1024 then decide (room < used.1 + a.1.1 + n) else decide (used.2 + a.1.2 + n ≤ room)
    let cross := if weft = decide (1024 ≤ r.engine) then a.2 else a.2 + n
    (if weft then (a.1.1, a.1.2 + n) else (a.1.1 + n, a.1.2), cross)) ((0, 0), 0)

/-- A set is placed in the reserve and held; a set it replaces leaves first. -/
def Work.holdSet (s : Work) (h : HeldSet) : Work :=
  let s := s.modVars (fun v => { v with held := v.held.filter (fun (x : HeldSet) => decide (x.handle ≠ h.handle)) })
  let p := s.placeDelta h.part
  (s.putHeldSet { h with placed := p.1 }).add Obj.deltaCrossBytes p.2

/-- A load order at a worker: its own file is read and checked, and the result reported (R357, R418). Assumption log 87, DEDUCED. -/
def Work.deltaLoadOrder (s : Work) (slot id tenant off len : Nat) (file : List Byte) (poison : Bool) : Work :=
  if (s.get (Obj.slotState slot)) ≠ 3 then s.toMember 0 (.report (.deltaChecked slot id 0 0 0))
  else
    let res := if (s.windowSpan tenant off len).isNone then 0x90 else s.checkDelta slot file poison
    let h := slice file 0 256
    let manifest := slice file 256 (72 * leAt h 20 2)
    let largest := maxNat ((List.range (leAt h 20 2)).map (fun d => leAt manifest (72 * d) 8))
    let die := s.get (Obj.slotDieIndex slot)
    let part := slice file (leAt h 32 8) (leAt manifest (72 * die) 8)
    let rest := s.vars.checked.filter (fun (c : CheckedPart) => !(c.slot = slot && c.variant = id))
    let s := if res = 0 then s.modVars (fun v => { v with checked := rest ++ [⟨slot, id, part⟩] }) else s
    s.toMember 0 (.report (.deltaChecked slot id res largest (leAt part 8 4)))

def Work.deltaInstallOrder (s : Work) (slot id version handle : Nat) : Work :=
  match s.vars.checked.find? (fun (c : CheckedPart) => c.slot = slot && c.variant = id) with
  | some c =>
    (s.modVars (fun v => { v with checked := v.checked.filter (fun (x : CheckedPart) => decide (x ≠ c)) })).holdSet
      ⟨handle, slot, id, version, c.part, false, (0, 0), none⟩
  | none => s

def Work.deltaDropOrder (s : Work) (slot id handle : Nat) : Work :=
  s.modVars (fun v => { v with
    held := v.held.filter (fun (x : HeldSet) => decide (x.handle ≠ handle))
    checked := v.checked.filter (fun (c : CheckedPart) => !(c.slot = slot && c.variant = id)) })

/-- VARIANT_INFO of a visible variant (R375). A load in progress stands with the version it takes when it completes next.
Assumption log 107, DEDUCED. -/
def Work.variantInfo (s : Work) (v : Variant) : List Byte :=
  let loading := (s.vars.loads.filter (fun (l : VarLoad) => l.set.slot = v.slot && l.set.variant = v.id)).map
    (fun (l : VarLoad) => { l.set with version := v.next })
  let sets := s.vars.sets.filter (fun (x : DeltaSet) => x.slot = v.slot && x.variant = v.id) ++ loading
  let cur := s.currentSet v.slot v.id
  let pins := fun (x : DeltaSet) => (s.serve.entries.filter (fun (e : Entry) =>
    e.live && e.pin && e.slot = v.slot && e.variant = v.id && e.version = x.version)).length
  toLE 2 v.id ++ toLE 1 v.slot ++ toLE 1 (bit (decide (v.owner = 0xFFFF)) + 2 * bit v.pinned + 4 * bit (s.jobNames v.slot v.id)) ++
    toLE 2 v.owner ++ toLE 2 0 ++ toLE 4 (s.currentVersion v.slot v.id) ++ toLE 2 sets.length ++ toLE 2 0 ++
    toLE 8 ((cur.map (·.lastUsed)).getD 0) ++ toLE 8 ((cur.map (·.bytes)).getD 0) ++
    sets.flatMap (fun (x : DeltaSet) => toLE 4 x.version ++ toLE 1 x.state ++ toLE 3 0 ++ toLE 4 (pins x) ++ toLE 4 x.handle)

end Sys2Proof.Machine
end

