-- ==== Sys2Proof/Machine/Grammar.lean ====
section
/-! DEFINITION. Grammar images, masks and the automaton; choosing a token (R323 to R338). -/

namespace Sys2Proof.Machine

/-! ## Images (R329 to R331) -/

/-- The header of an image and where its tables start. -/
structure GramHead where
  kind : Nat
  classes : Nat
  vocab : Nat
  states : Nat
  start : Nat
  edges : Nat
  conds : Nat
  masks : Nat
  stateAt : Nat
  edgeAt : Nat
  condAt : Nat
  maskAt : Nat
  deriving DecidableEq, Repr

def gramHead (b : List Byte) : GramHead :=
  let kind := leAt b 4 1
  let vocab := leAt b 8 4
  let states := leAt b 12 4
  let edges := leAt b 20 4
  let conds := leAt b 24 4
  let stateAt := alignUp (64 + (if kind = 2 then 2 * vocab else 0)) 64
  let edgeAt := alignUp (stateAt + 24 * states) 64
  let condAt := alignUp (edgeAt + 12 * edges) 64
  let maskAt := alignUp (condAt + 8 * conds) 64
  ⟨kind, leAt b 6 2, vocab, states, leAt b 16 4, edges, conds, leAt b 28 4, stateAt, edgeAt, condAt, maskAt⟩

/-- An edge record (R331). -/
structure Edge where
  cls : Nat
  top : Nat
  next : Nat
  action : Nat
  symbol : Nat
  deriving DecidableEq, Repr

/-- A state record with its edges and conditional records (top and mask), in table order (R330). -/
structure GramNode where
  edges : List Edge
  conds : List (Nat × Nat)
  base : Nat
  push : Nat
  accepting : Bool
  deriving DecidableEq, Repr

def edgeOf (b : List Byte) (h : GramHead) (i : Nat) : Edge :=
  let a := h.edgeAt + 12 * i
  ⟨leAt b a 2, leAt b (a + 2) 2, leAt b (a + 4) 4 % 2 ^ 20, leAt b (a + 8) 1, leAt b (a + 10) 2⟩

def nodeOf (b : List Byte) (h : GramHead) (st : Nat) : GramNode :=
  let a := h.stateAt + 24 * st
  { edges := (List.range (leAt b (a + 16) 2)).map (fun i => edgeOf b h (leAt b a 4 + i))
    conds := (List.range (leAt b (a + 18) 2)).map (fun i =>
      let c := h.condAt + 8 * (leAt b (a + 4) 4 + i)
      (leAt b c 2, leAt b (c + 4) 4))
    base := leAt b (a + 8) 4, push := leAt b (a + 12) 4, accepting := bitAt (leAt b (a + 20) 1) 0 }

def classOf (b : List Byte) (t : Nat) : Nat := leAt b (64 + 2 * t) 2

def maskBit (b : List Byte) (h : GramHead) (m t : Nat) : Bool := bitAt (leAt b (h.maskAt + 32768 * m + t / 8) 1) (t % 8)

/-! ## Validation (R332) -/

/-- Detail 2: MAGIC, KIND, reserved fields, counts, and the length they give. -/
def gramShapeOk (b : List Byte) : Bool :=
  let h := gramHead b
  leAt b 0 4 = 0x52475653 && (h.kind = 1 || h.kind = 2) && leAt b 5 1 = 0 && (slice b 32 32).all (· = 0) &&
    1 ≤ h.vocab && h.vocab ≤ 262144 && b.length = h.maskAt + 32768 * h.masks &&
    (if h.kind = 1 then h.states = 0 && h.edges = 0 && h.conds = 0 && h.masks = 1
     else 1 ≤ h.classes && 1 ≤ h.states && decide (h.states ≤ 1048576)) &&
    (h.kind = 1 ||
      ((List.range h.states).all (fun i => leAt b (h.stateAt + 24 * i + 20) 1 < 2 && leAt b (h.stateAt + 24 * i + 21) 3 = 0) &&
       (List.range h.edges).all (fun i => leAt b (h.edgeAt + 12 * i + 4) 4 < 2 ^ 20 && leAt b (h.edgeAt + 12 * i + 8) 1 < 4 &&
         leAt b (h.edgeAt + 12 * i + 9) 1 = 0 && decide (leAt b (h.edgeAt + 12 * i + 10) 2 ≤ 0xFFFE)) &&
       (List.range h.conds).all (fun i => leAt b (h.condAt + 8 * i + 2) 2 = 0)))

/-- Detail 3: every index lies in its table. -/
def gramIndexOk (b : List Byte) : Bool :=
  let h := gramHead b
  h.kind = 1 ||
    (h.start < h.states && (List.range h.vocab).all (fun t => classOf b t < h.classes) &&
      (List.range h.states).all (fun i =>
        let a := h.stateAt + 24 * i
        leAt b a 4 + leAt b (a + 16) 2 ≤ h.edges && leAt b (a + 4) 4 + leAt b (a + 18) 2 ≤ h.conds &&
          leAt b (a + 8) 4 < h.masks && (leAt b (a + 12) 4 = 0xFFFFFFFF || leAt b (a + 12) 4 < h.masks)) &&
      (List.range h.edges).all (fun i => let e := edgeOf b h i; e.cls < h.classes && e.next < h.states) &&
      (List.range h.conds).all (fun i => leAt b (h.condAt + 8 * i + 4) 4 < h.masks))

/-- Detail 4: every masked token has its edge, and every token that may push is in the push mask. -/
def gramMasksOk (b : List Byte) : Bool :=
  let h := gramHead b
  h.kind = 1 ||
    (List.range h.states).all (fun st =>
      let n := nodeOf b h st
      (List.range h.vocab).all (fun t =>
        let c := classOf b t
        (!maskBit b h n.base t || n.edges.any (fun (e : Edge) => e.cls = c && e.top = 0xFFFF)) &&
        n.conds.all (fun q => !maskBit b h q.2 t || n.edges.any (fun (e : Edge) => e.cls = c && (e.top = q.1 || e.top = 0xFFFF))) &&
        (!n.edges.any (fun (e : Edge) => e.cls = c && e.action = 1) || (n.push ≠ 0xFFFFFFFF && maskBit b h n.push t))))

/-- Detail 5: no pop or replace on any top. -/
def gramPopsOk (b : List Byte) : Bool :=
  let h := gramHead b
  (List.range h.edges).all (fun i => let e := edgeOf b h i; !((e.action = 2 || e.action = 3) && e.top = 0xFFFF))

/-! ## The store (R332, R333) -/

/-- GRAMMAR_STORE_BYTES: the store lies in the manager's delta reserve (R472). Assumption log 38, DEDUCED. -/
def Work.grammarStore (s : Work) : Nat := s.ownReserve

def Work.grammarUsed (s : Work) : Nat := sumNat (s.serve.grammars.map (fun (g : Grammar) => g.image.length))

/-- Commit validation of an image for an owner (0xFFFF global) under an ID: the first failing detail. -/
def Work.grammarCheck (s : Work) (owner id : Nat) (b : List Byte) : Option Nat :=
  let own := sumNat ((s.serve.grammars.filter (fun (g : Grammar) => g.owner = owner)).map (fun (g : Grammar) => g.image.length))
  if !gramShapeOk b then some 2
  else if !gramIndexOk b then some 3
  else if !gramMasksOk b then some 4
  else if !gramPopsOk b then some 5
  else if s.grammarStore < s.grammarUsed + b.length ∨
    (owner ≠ 0xFFFF ∧ s.get (Obj.tenantGrammarCap owner) * 2 ^ 20 < own + b.length) then some 6
  else if owner = 0xFFFF ∧ ¬ (0x8000 ≤ id ∧ id ≤ 0xFFFE) then some 7
  else none

/-- The owner an ID belongs to (R324). -/
def grammarOwner (tenant id : Nat) : Nat := if id < 0x8000 then tenant else 0xFFFF

/-- The image an ID names for a tenant. -/
def Work.grammarFor (s : Work) (tenant id : Nat) : Option Grammar :=
  s.serve.grammars.find? (fun (g : Grammar) => g.installed && g.id = id && g.owner = grammarOwner tenant id)

/-- Images that no ID and no live request uses are freed (R333). -/
def Work.collectGrammars (s : Work) : Work :=
  s.modServe (fun x => { x with grammars := x.grammars.filter (fun (g : Grammar) =>
    g.installed || x.entries.any (fun (e : Entry) => !e.terminal && e.image = g.serial)) })

/-- An ID no longer names its image. -/
def Work.grammarUnname (s : Work) (owner id : Nat) : Work :=
  s.modServe (fun x => { x with grammars := x.grammars.map (fun (g : Grammar) =>
    if g.installed ∧ g.owner = owner ∧ g.id = id then { g with installed := false } else g) })

/-- A committed image is installed; an image the ID named before stays with the requests that have it (R333). Assumption log 70, DEDUCED. -/
def Work.grammarInstall (s : Work) (owner id : Nat) (b : List Byte) : Work :=
  let s := s.grammarUnname owner id
  let s := s.modServe (fun x => { x with
    grammars := x.grammars ++ [⟨x.nextGrammar, owner, id, true, false, b⟩], nextGrammar := x.nextGrammar + 1 })
  s.collectGrammars

/-- GRAMMAR_DELETE and GLOBAL_GRAMMAR_DELETE (R333, R341). -/
def Work.grammarDelete (s : Work) (key : Key) (owner id : Nat) (o : Origin) : Work :=
  if s.rel.deviceFault.isSome then s.cmdFail key o 0xB0
  else if !s.isManager then s.cmdFail key o 0x3A
  else if !s.serve.grammars.any (fun (g : Grammar) => g.installed && g.owner = owner && g.id = id) then s.cmdFail key o 0x68
  else ((s.cmdDone key o).grammarUnname owner id).collectGrammars

/-- A poisoned table entry marks the grammar bad (R338). -/
def Work.grammarBad (s : Work) (serial : Nat) : Work :=
  match s.serve.grammars.find? (fun (g : Grammar) => g.serial = serial) with
  | none => s
  | some g =>
    if g.bad then s
    else
      let s := s.modServe (fun x => { x with grammars := x.grammars.map (fun (y : Grammar) => if y.serial = serial then { y with bad := true } else y) })
      let s := s.add Obj.grammarPoison 1
      if g.owner < 1024 then s.attendTenant g.owner 2 else s

/-! ## Masks and the automaton (R325 to R327) -/

/-- The image a request runs on. -/
def Work.imageOf (s : Work) (e : Entry) : List Byte :=
  match s.serve.grammars.find? (fun (g : Grammar) => g.serial = e.image) with
  | some g => g.image
  | none => []

/-- Whether the mask of a grammar state allows a token: kind 0 none, 1 LIST, 2 AUTOMATON. -/
def maskAllows (b : List Byte) (kind : Nat) (g : GramState) (stop t : Nat) : Bool :=
  if kind = 0 then true
  else
    let h := gramHead b
    if kind = 1 then t = stop || maskBit b h 0 t
    else
      let n := nodeOf b h g.state
      if t = stop then n.accepting
      else
        let top := g.stack.headD 0xFFFF
        let any := maskBit b h n.base t || n.conds.any (fun q => q.1 = top && maskBit b h q.2 t)
        any && !(g.stack.length = 64 && n.push ≠ 0xFFFFFFFF && maskBit b h n.push t)

/-- Advance by a token (R326). -/
def advance (b : List Byte) (kind : Nat) (g : GramState) (stop t : Nat) : GramState :=
  let g := { g with tokens := g.tokens + 1 }
  if kind ≠ 2 ∨ t = stop then g
  else
    let h := gramHead b
    let c := classOf b t
    let top := g.stack.headD 0xFFFF
    match (nodeOf b h g.state).edges.find? (fun (e : Edge) => e.cls = c && (e.top = top || e.top = 0xFFFF)) with
    | none => g
    | some e =>
      let stack := if e.action = 1 then e.symbol :: g.stack
        else if e.action = 2 then g.stack.tail
        else if e.action = 3 then e.symbol :: g.stack.tail
        else g.stack
      { g with state := e.next, stack := stack }

/-- The mask of a state is empty. -/
def maskEmpty (b : List Byte) (kind : Nat) (g : GramState) (stop : Nat) : Bool :=
  kind ≠ 0 && (List.range (gramHead b).vocab).all (fun t => !maskAllows b kind g stop t)

def gramAccepting (b : List Byte) (g : GramState) : Bool := (nodeOf b (gramHead b) g.state).accepting

/-! ## Choosing a token (R335, R336) -/

/-- draw(position): 32 bits. -/
def sampleDraw (seed position : Nat) : Nat :=
  let keyHi := seed ^^^ 0x3D91E0B75C28A46F
  let cHi := 2 ^ 48 + position % 2 ^ 48
  ((List.range 6).foldl (fun (p : Nat × Nat) _ => srRound p) (seed, cHi ^^^ keyHi)).1 / 2 ^ 32

/-- A candidate: token and logit. -/
structure Candidate where
  token : Nat
  logit : Rat
  deriving DecidableEq, Repr

/-- Logit descending, lower token first. -/
def candBefore (a b : Candidate) : Bool := b.logit < a.logit || (a.logit = b.logit && decide (a.token ≤ b.token))

/-- Assumption log 39, DESIGN CHOICE. -/
def exp32 (x : Rat) : Rat := (expFp (fmtFp32.rne x)).value

/-- The candidates of several records, sorted. -/
def mergedCands (rs : List CandRec) : List Candidate :=
  (rs.flatMap (fun (r : CandRec) => r.cands.map (fun q => (⟨q.1, f32Value q.2⟩ : Candidate)))).mergeSort candBefore

/-- Running sums in FP32. -/
def runningSums : Rat → List Rat → List Rat
  | _, [] => []
  | a, x :: xs => let t := r32 (a + x); t :: runningSums t xs

/-- The sampling parameters of a request: temperature (FP32 word), TOP_K, TOP_P, MIN_P. -/
structure SampleArgs where
  temperature : Nat
  topK : Nat
  topP : Nat
  minP : Nat
  deriving DecidableEq, Repr

/-- choose() over the records of one vector, in die-index order: the token, none when there is no candidate, and whether
TOP_P was not reached (R335). -/
def chooseToken (rs : List CandRec) (candN : Nat) (a : SampleArgs) (draw : Nat) : Option Nat × Bool :=
  let t := f32Value a.temperature
  if t = 0 then ((mergedCands rs).head?.map (·.token), false)
  else
    let rs := rs.filter (fun (r : CandRec) => decide (f32Value r.s ≠ 0))
    match rs with
    | [] => (none, false)
    | r0 :: rest =>
      let z := rest.foldl (fun (m : Rat) (r : CandRec) => max m (f32Value r.zMax)) (f32Value r0.zMax)
      let total := rs.foldl (fun (acc : Rat) (r : CandRec) =>
        r32 (acc + r32 (f32Value r.s * exp32 (r32 (r32 (f32Value r.zMax - z) / t))))) 0
      let cands := (mergedCands rs).take candN
      let ps := cands.map (fun (c : Candidate) => (c.token, r32 (exp32 (r32 (r32 (c.logit - z) / t)) / total)))
      let ps := if 0 < a.topK then ps.take a.topK else ps
      let first := (ps.head?.map (·.2)).getD 0
      let ps := if 0 < a.minP then
          match ps with
          | [] => []
          | p :: q => p :: q.filter (fun c => decide (r32 ((a.minP : Rat) / 65536 * first) ≤ c.2))
        else ps
      let sums := runningSums 0 (ps.map (·.2))
      let p : Rat := (a.topP : Rat) / 65536
      let cut := (sums.takeWhile (fun x => decide (x < p))).length
      let short := decide (0 < a.topP) && cut = sums.length
      let ps := if 0 < a.topP then ps.take (cut + 1) else ps
      let sums := runningSums 0 (ps.map (·.2))
      let w := sums.getLastD 0
      let thr := r32 ((draw : Rat) / 4294967296 * w)
      match (ps.zip sums).find? (fun c => decide (thr < c.2)) with
      | some c => (some c.1.1, short)
      | none => ((ps.getLast?).map (·.1), short)

end Sys2Proof.Machine
end

