-- ==== Sys2Proof/Machine/Planner.lean ====
section
/-! DEFINITION. The planner's tools: what it knows of a slot, micro-batches, estimates, page needs, and the messages of a
step (R288, R289, R291, R294 to R298, R305, R306, R316, R361). -/

namespace Sys2Proof.Machine

/-! ## What the manager knows of a slot (assumption log 43, DEDUCED) -/

/-- The PROGRAM of a main-model slot as its holders reported it. -/
def Work.mainProgram (s : Work) (slot : Nat) : Program :=
  match s.holders slot with
  | [] => programOf []
  | h :: _ => programOf h.program

def Work.mainShape (s : Work) (slot : Nat) : List Byte :=
  match s.holders slot with
  | [] => []
  | h :: _ => h.shape

/-- Vectors per micro-batch of a slot; of a TUNE step, the tuning program's. -/
def Program.mbVectors (p : Program) : Nat := max 1 p.maxVectors

/-- The ATTN ops of a program. -/
def Program.attns (p : Program) : List OpRec := p.ops.filter (fun (o : OpRec) => o.opcode = 0x30)

/-- SHARDS of the KV that a program keeps (R208, R209). -/
def Program.shards (p : Program) : Nat :=
  match p.attns.filter (fun (o : OpRec) => bitAt (o.arg 26 1) 7) with
  | [] => 1
  | o :: _ => max 1 (field (o.arg 26 1) 4 0)

/-- A program whose attention is bidirectional over the prompt (R208). Assumption log 77, DEDUCED. -/
def Program.bidirectional (p : Program) : Bool :=
  p.attns.any (fun (o : OpRec) => let m := o.arg 19 1; m = 1 || m = 3 || m = 4)

/-- Vectors of a window that stay in one micro-batch (R291): WINDOW2D windows, otherwise 1. -/
def Program.windowUnit (p : Program) : Nat :=
  match p.attns.filter (fun (o : OpRec) => o.arg 19 1 = 3) with
  | [] => 1
  | o :: _ => max 1 (o.arg 20 2 * o.arg 20 2)

/-- The largest CAND_N of a program's HEAD ops (R212, R334). -/
def Program.candN (p : Program) : Nat :=
  maxNat ((p.ops.filter (fun (o : OpRec) => o.opcode = 0x52)).map (fun (o : OpRec) => o.arg 24 2))

/-- K_MAX of the draft slot's DRAFT op; 0 when it holds none (R316). -/
def Work.kMax (s : Work) : Nat :=
  match s.draftSlot with
  | none => 0
  | some n =>
    match (s.program n).ops.find? (fun (o : OpRec) => o.opcode = 0x70) with
    | some o => o.arg 15 1
    | none => 0

/-! ## Pages of a list (R209, R305, R306) -/

/-- How many of the first `n` positions the die at rank r of a KV set of `shards` stores. -/
def rankPositions (shards r n : Nat) : Nat :=
  n / (256 * shards) * 256 + min 256 (n % (256 * shards) - 256 * r)

/-- The pages a list of `n` positions needs: those of the die that stores the most. -/
def pagesFor (positions shards n : Nat) : Nat :=
  if positions = 0 then 0
  else maxNat ((List.range shards).map (fun r => (rankPositions shards r n + positions - 1) / positions))

/-- The logical pages that positions from `lo` up to `hi` are written into. -/
def pagesWritten (positions shards lo hi : Nat) : List Nat :=
  if positions = 0 then []
  else ((List.range shards).flatMap (fun r =>
    let a := rankPositions shards r lo
    let b := rankPositions shards r hi
    if a < b then (List.range ((b - 1) / positions + 1 - a / positions)).map (a / positions + ·) else [])).eraseDups

/-- A page that another list or a fork reference names as well. -/
def Work.pageShared (s : Work) (e : Entry) (page : Nat) : Bool :=
  s.serve.entries.any (fun (x : Entry) => (x.index ≠ e.index && x.pages.contains page) || (x.index ≠ e.index && x.forkPages.contains page))

/-- The list an entry has once its fork references are shared in. -/
def Entry.list (e : Entry) : List Nat := if e.forkPages.isEmpty then e.pages else e.forkPages

/-- The logical pages of an entry that must be copied before positions from `lo` up to `hi` are written. -/
def Work.copiesFor (s : Work) (e : Entry) (lo hi : Nat) : List Nat :=
  let p := s.mainProgram e.slot
  (pagesWritten (s.slotPositions e.slot) p.shards lo hi).filter (fun n =>
    match e.list[n]? with
    | some page => s.pageShared e page
    | none => false)

/-- How many new pages a lane needs: those appended and those copied. -/
def Work.newPages (s : Work) (e : Entry) (lo hi : Nat) : Nat :=
  (pagesFor (s.slotPositions e.slot) (s.mainProgram e.slot).shards hi - e.list.length) + (s.copiesFor e lo hi).length

/-! ## Micro-batches (R291, R361) -/

/-- A lane or record as the layout sees it: vectors that stay together, the delta set (0 base), and the pages of its
list. -/
structure Item where
  slot : Nat
  decode : Bool
  count : Nat
  unit : Nat
  handle : Nat
  pages : Nat
  deriving DecidableEq, Repr

/-- The order of a step's vectors: by slot, then by variant in table order with base weights last, then decode lanes before
records; each in planning order. With each item goes its index. -/
def layOrder (items : List Item) : List (Item × Nat) :=
  let idx := items.zipIdx
  let handles := ((items.map (·.handle)).filter (· ≠ 0)).eraseDups ++ [0]
  (List.range 4).flatMap (fun n => handles.flatMap (fun h =>
    let mine := idx.filter (fun (p : Item × Nat) => p.1.slot = n && p.1.handle = h)
    mine.filter (fun (p : Item × Nat) => p.1.decode) ++ mine.filter (fun (p : Item × Nat) => !p.1.decode)))

/-- Put n vectors that stay together into micro-batches of at most `cap`, the latest first. -/
def packWhole (cap n : Nat) : List Nat → List Nat
  | [] => [n]
  | u :: rest => if u + n ≤ cap then (u + n) :: rest else n :: u :: rest

/-- Put n vectors that may be split. -/
def packFree (cap n : Nat) (mbs : List Nat) : List Nat :=
  let (filled, left) := match mbs with
    | [] => ([], n)
    | u :: rest => let take := min n (cap - u); ((u + take) :: rest, n - take)
  let whole := List.replicate (left / cap) cap ++ filled
  if left % cap = 0 then whole else left % cap :: whole

def packItem (cap : Nat) (x : Item) (mbs : List Nat) : List Nat :=
  if x.decode then packWhole cap x.count mbs
  else if 1 < x.unit then
    let whole := (List.range (x.count / x.unit)).foldl (fun (l : List Nat) _ => packWhole cap x.unit l) mbs
    if x.count % x.unit = 0 then whole else packWhole cap (x.count % x.unit) whole
  else packFree cap x.count mbs

/-- A step's layout: the micro-batches, and the first vector of each item by index. -/
structure Laid where
  mbs : List MicroBatch
  firsts : List (Nat × Nat)
  deriving DecidableEq, Repr

/-- Number the micro-batches of a slot from a first vector on. -/
def numberMbs (slot : Nat) : Nat → List Nat → List MicroBatch
  | _, [] => []
  | g, n :: l => ⟨g, n, slot⟩ :: numberMbs slot (g + n) l

/-- Number the items of a layout from a first vector on. -/
def numberItems : Nat → List (Item × Nat) → List (Nat × Nat)
  | _, [] => []
  | g, p :: l => (p.2, g) :: numberItems (g + p.1.count) l

/-- Lay a step out; `cap` is each slot's MAX_MB_VECTORS. Assumption log 76, DESIGN CHOICE. -/
def layOut (cap : Nat → Nat) (items : List Item) : Laid :=
  let order := layOrder items
  let slots := (List.range 4).map (fun n =>
    (n, ((order.filter (fun (p : Item × Nat) => p.1.slot = n)).foldl (fun (l : List Nat) (p : Item × Nat) => packItem (max 1 (cap n)) p.1 l) []).reverse))
  { mbs := (slots.foldl (fun (acc : List MicroBatch × Nat) (q : Nat × List Nat) =>
      (acc.1 ++ numberMbs q.1 acc.2 q.2, acc.2 + sumNat q.2)) ([], 0)).1
    firsts := numberItems 0 order }

/-! ## The estimate (R289, R311, R361) -/

/-- Cost coefficients, ns. -/
structure Costs where
  step : Nat
  mb : Nat
  pos : Nat
  pre : Nat
  kv : Nat
  delta : Nat
  deriving DecidableEq, Repr

def costsOf (b : List Byte) : Costs := ⟨leAt b 0 4, leAt b 4 4, leAt b 8 4, leAt b 12 4, leAt b 16 4, leAt b 20 4⟩

/-- Commit validation of STEP_COST and TUNE_STEP_COST (R311). -/
def costOk (b : List Byte) : Bool := b.length = 32 && (slice b 24 8).all (· = 0) && leAt b 0 4 ≠ 0

/-- The charged bytes of a set; of a working set, those of the set it started from. -/
def Work.setBytes (s : Work) (handle : Nat) : Nat :=
  match s.vars.sets.find? (fun (x : DeltaSet) => x.handle = handle) with
  | some x => x.bytes
  | none =>
    match s.vars.jobs.find? (fun (j : TuneJob) => j.active && j.work = handle) with
    | some j => j.charge - 4 * j.values
    | none => 0

/-- Bytes of deltas that a layout streams: over each pair of micro-batch and distinct set. -/
def Work.pairBytes (s : Work) (items : List Item) (l : Laid) (slot : Nat) : Nat :=
  sumNat ((l.mbs.filter (fun (b : MicroBatch) => b.slot = slot)).map (fun (b : MicroBatch) =>
    let hs := (items.zipIdx.filterMap (fun (p : Item × Nat) =>
      let g := look 0 l.firsts p.2
      if p.1.slot = slot ∧ p.1.handle ≠ 0 ∧ g < b.first + b.count ∧ b.first < g + p.1.count then some p.1.handle else none)).eraseDups
    sumNat (hs.map s.setBytes)))

/-- The time a pause still holds the slot of a step, ns (R272). -/
def Work.pauseNs (s : Work) (items : List Item) : Nat :=
  maxNat ((s.serve.pauses.filter (fun (p : SlotPause) => p.granted && items.any (fun (x : Item) => x.slot = p.slot))).map
    (fun (p : SlotPause) => 1000 * (p.untilUs - s.now)))

/-- The estimate of a step, ns. -/
def Work.estimate (s : Work) (cost : Nat → List Byte × Nat) (items : List Item) : Rat :=
  let l := layOut (fun n => (cost n).2) items
  let slots := (List.range 4).filter (fun n => items.any (fun (x : Item) => x.slot = n))
  let total := slots.foldl (fun (a : Rat) (n : Nat) =>
    let c := costsOf (cost n).1
    let mine := items.filter (fun (x : Item) => x.slot = n)
    let dec := sumNat ((mine.filter (·.decode)).map (·.count))
    let pre := sumNat ((mine.filter (fun (x : Item) => !x.decode)).map (·.count))
    let ms := (l.mbs.filter (fun (b : MicroBatch) => b.slot = n)).length
    a + (c.step + c.mb * ms + c.pos * dec + c.pre * pre : Nat) + (c.kv * sumNat (mine.map (·.pages)) : Nat) / (16 : Rat) +
      (c.delta * s.pairBytes items l n : Nat) / (1048576 : Rat)) 0
  s.serve.correction * s.serve.rate * total + s.pauseNs items

/-- A serving step's costs and micro-batch sizes, by slot. -/
def Work.serveCost (s : Work) (n : Nat) : List Byte × Nat := ((s.dom (Obj.stepCost n)).bytes, (s.mainProgram n).mbVectors)

/-- A tuning step's. -/
def Work.tuneCost (s : Work) (n : Nat) : List Byte × Nat :=
  ((s.dom (Obj.tuneStepCost n)).bytes, (s.tuneProgram n).mbVectors)

/-- The largest estimate planned, ns (R290, R520). -/
def Work.targetNs (s : Work) : Rat :=
  let t : Rat := ((1000 * s.get Obj.stepTargetUs : Nat) : Rat)
  if s.throttleRequest then t * (s.get Obj.throttleStepShare : Nat) / 256 else t

/-! ## Step bodies (R296 to R298) -/

def Lane.bytes (l : Lane) : List Byte :=
  toLE 2 l.entry ++ toLE 2 l.tenant ++ toLE 1 l.slot ++ toLE 1 l.kind ++ toLE 1 l.k ++ toLE 1 l.variant ++ toLE 4 l.pos ++
    toLE 4 l.count ++ toLE 4 l.first ++ toLE 4 l.input ++ toLE 4 l.temperature ++ toLE 4 l.laneStep

def laneAtBytes (b : List Byte) : Lane :=
  ⟨leAt b 0 2, leAt b 2 2, leAt b 4 1, leAt b 5 1, leAt b 6 1, leAt b 7 1, leAt b 8 4, leAt b 12 4, leAt b 16 4, leAt b 20 4,
   leAt b 24 4, leAt b 28 4⟩

def StepBody.bytes (b : StepBody) : List Byte :=
  b.lanes.flatMap Lane.bytes ++
  b.mbs.flatMap (fun (m : MicroBatch) => toLE 4 m.first ++ toLE 2 m.count ++ toLE 1 m.slot ++ toLE 1 0) ++
  b.variants.flatMap (fun (v : VariantRef) => toLE 2 v.variant ++ toLE 2 0 ++ toLE 4 v.version ++ toLE 4 v.handle ++ toLE 4 0) ++
  b.pageOps.flatMap (fun (o : PageOp) => toLE 1 o.op ++ toLE 1 0 ++ toLE 2 o.entry ++ toLE 4 o.arg ++ toLE 4 o.page ++ toLE 4 o.src) ++
  b.tokens.flatMap (toLE 4)

/-- Read a body by the counts of its head. -/
def bodyOf (h : StepHead) (b : List Byte) : StepBody :=
  let mb := 32 * h.lanes
  let va := mb + 8 * h.m
  let po := va + 16 * h.variants
  let tk := po + 16 * h.pageOps
  { lanes := (List.range h.lanes).map (fun i => laneAtBytes (slice b (32 * i) 32))
    mbs := (List.range h.m).map (fun i => ⟨leAt b (mb + 8 * i) 4, leAt b (mb + 8 * i + 4) 2, leAt b (mb + 8 * i + 6) 1⟩)
    variants := (List.range h.variants).map (fun i => ⟨leAt b (va + 16 * i) 2, leAt b (va + 16 * i + 4) 4, leAt b (va + 16 * i + 8) 4⟩)
    pageOps := (List.range h.pageOps).map (fun i =>
      let a := po + 16 * i
      ⟨leAt b a 1, leAt b (a + 2) 2, leAt b (a + 4) 4, leAt b (a + 8) 4, leAt b (a + 12) 4⟩)
    tokens := (List.range ((h.bodyLength - tk) / 4)).map (fun i => leAt b (tk + 4 * i) 4) }

/-! ## A step starts on a die (R196, R198, R294, R298) -/

/-- Apply a page operation to the mirror of page lists. -/
def applyPageOp (l : List PageList) (o : PageOp) : List PageList :=
  let cur : PageList := (l.find? (fun (p : PageList) => p.entry = o.entry)).getD ⟨o.entry, [], 0, 0⟩
  let putL := fun (p : PageList) => (l.filter (fun (q : PageList) => decide (q.entry ≠ o.entry))) ++ [p]
  let at_ := fun (n page : Nat) => if n < cur.pages.length then cur.pages.set n page else cur.pages ++ [page]
  if o.op = 1 ∨ o.op = 3 then putL { cur with pages := at_ o.arg o.page }
  else if o.op = 2 then putL { cur with pages := cur.pages.take o.arg }
  else if o.op = 4 then
    let src : PageList := (l.find? (fun (p : PageList) => p.entry = o.src)).getD ⟨o.src, [], 0, 0⟩
    putL { cur with pages := src.pages.take o.arg }
  else if o.op = 5 then l.filter (fun (q : PageList) => decide (q.entry ≠ o.entry))
  else if o.op = 6 then (if l.any (fun (p : PageList) => p.entry = o.entry) then putL { cur with committed := o.arg, tentative := o.arg } else l)
  else l

/-- The stored positions an operation leaves: a copy takes the source page's (R298, R306). -/
def applyKvOp (l : List KvPos) (o : PageOp) : List KvPos :=
  if o.op = 3 then
    (l.filter (fun (k : KvPos) => decide (k.page ≠ o.page))) ++
      ((l.filter (fun (k : KvPos) => decide (k.page = o.src))).map (fun (k : KvPos) => { k with page := o.page }))
  else l

/-- A die begins a step: page operations in order, then a fresh step; positions that ATTN held for one step only (pages from
2^32 on) are gone. -/
def Work.beginStep (s : Work) (h : StepHead) (b : StepBody) : Work :=
  let s := if s.isManager then s else s.add Obj.cowCopies (b.pageOps.filter (fun (o : PageOp) => o.op = 3)).length
  let s := s.modStep (fun x => b.pageOps.foldl (fun (x : StepState) (o : PageOp) =>
    { x with pages := applyPageOp x.pages o, kv := applyKvOp x.kv o }) x)
  s.modStep (fun x => { StepState.reset with
    running := some (h, b), pages := x.pages, kv := x.kv.filter (fun (k : KvPos) => decide (k.page < 2 ^ 32)), lastClock := x.lastClock
    body := none, head := none
    partsIn := x.partsIn.filter (fun (p : CollPart) => p.step = h.step)
    resultsIn := x.resultsIn.filter (fun (p : CollPart) => p.step = h.step) })

/-! ## Sending a step (R294, R400) -/

/-- The manager runs its draft-slot program in a SERVE or WIDE step with a decode lane or a PREFILL_LAST record. -/
def draftsIn (kind : Nat) (lanes : List Lane) : Bool := kind ≠ 2 && lanes.any (fun (l : Lane) => l.code = 0 || l.code = 2)

/-- The index of a set in the variant table; 0xFF for base weights. -/
def variantIndex (vs : List VariantRef) (handle : Nat) : Nat :=
  if handle = 0 then 0xFF else vs.findIdx (fun (v : VariantRef) => v.handle = handle)

/-- A lane of a step about to be sent: its plan, what the layout needs, and its token block entries. -/
structure Planned where
  plan : LanePlan
  item : Item
  ref : Option VariantRef
  tokens : List Nat
  deriving DecidableEq, Repr

/-- Token block offsets, in bytes, in vector order (R296). -/
def tokenRefs : Nat → List (Nat × List Nat) → List (Nat × Nat)
  | _, [] => []
  | a, p :: l => (p.1, a) :: tokenRefs (a + 4 * p.2.length) l

/-- Send a step: lanes in record order (decode lanes first), their layout, the variant table and the token block. Assumption log 46, DESIGN CHOICE. -/
def Work.sendStep (s : Work) (kind : Nat) (cap : Nat → Nat) (ls : List Planned) (est : Rat) (job : Option Nat) : Work :=
  let laid := layOut cap (ls.map (·.item))
  let refs := (ls.filterMap (·.ref)).eraseDups
  let order := (laid.firsts.filterMap (fun (q : Nat × Nat) => (ls[q.1]?).map (fun (p : Planned) => (q.1, p.tokens))))
  let offs := tokenRefs 0 order
  let plans := ls.zipIdx.map (fun (p : Planned × Nat) =>
    let l := p.1.plan.lane
    { p.1.plan with lane := { l with first := look 0 laid.firsts p.2, variant := variantIndex refs p.1.item.handle
                                     input := if l.windowInput then l.input else look 0 offs p.2 } })
  let lanes := plans.map (fun (p : LanePlan) => p.lane)
  let body : StepBody := ⟨lanes, laid.mbs, refs, s.serve.pageOps, order.flatMap (·.2)⟩
  let bytes := body.bytes
  let n := s.serve.step + 1
  let slots := (List.range 4).foldl (fun (a : Nat) (i : Nat) => if lanes.any (fun (l : Lane) => l.slot = i) then a + 2 ^ i else a) 0
  let head : StepHead := ⟨n % 2 ^ 48, s.get Obj.groupEpoch, kind, slots, laid.mbs.length, lanes.length, refs.length,
    sumNat (lanes.map (·.count)), body.pageOps.length, bytes.length, crc32 bytes, wholeOf (est / 1000)⟩
  let s := (s.broadcast (.stepBody bytes)).broadcast (.stepHead head)
  let s := s.modServe (fun x => { x with
    step := n, pageOps := [], candidates := [], lastHeadUs := s.now
    plan := some ⟨head, body, plans, est, [], none, s.now, job⟩ })
  if draftsIn kind lanes then s.beginStep head { body with pageOps := [] } else s

end Sys2Proof.Machine
end

