-- ==== Sys2Proof/Machine/Tuning.lean ====
section
/-! DEFINITION. On-device tuning: jobs at the manager, TUNE steps, updates and publishes, and working sets on a worker
(R363 to R371, R375). -/

namespace Sys2Proof.Machine

/-! ## TUNE_JOB and its data (R364, R365) -/

/-- Commit validation of TUNE_JOB: the detail of its refusal. -/
def tuneJobCheck (b : List Byte) : Option Nat :=
  let lr := fmtFp32.read (leAt b 32 4)
  let decay := fmtFp32.read (leAt b 36 4)
  let positive := fun (v : FloatVal) => match v with | .fin x => decide (0 < x) | _ => false
  let atLeast := fun (v : FloatVal) => match v with | .fin x => decide (0 ≤ x) | _ => false
  if b.length ≠ 64 ∨ 2 ≤ leAt b 1 1 ∨ (slice b 46 18).any (· ≠ 0) then some 2
  else if 4 ≤ leAt b 0 1 ∨ 4096 ≤ leAt b 2 2 ∨ leAt b 16 8 % 4096 ≠ 0 ∨ !positive lr ∨ !atLeast decay ∨
    leAt b 40 2 = 0 ∨ 1024 < leAt b 40 2 ∨ leAt b 44 2 = 0 then some 3
  else none

/-- A record of training data: the window offset of its LENGTH field, LENGTH, LOSS_FROM and its tokens. -/
structure TuneRec where
  offset : Nat
  length : Nat
  lossFrom : Nat
  tokens : List Nat
  deriving DecidableEq, Repr

/-- The records of data bytes that start at a window offset; `none` when one is malformed. Assumption log 47, DEDUCED. -/
def tuneRecords : Nat → Nat → List Byte → Option (List TuneRec)
  | 0, _, b => if b.isEmpty then some [] else none
  | n + 1, off, b =>
    if b.isEmpty then some []
    else
      let len := leAt b 0 4
      if b.length < 8 ∨ len < 2 ∨ 16384 < len ∨ b.length < 8 + 4 * len ∨ len - 1 ≤ leAt b 4 4 then none
      else
        (tuneRecords n (off + 8 + 4 * len) (b.drop (8 + 4 * len))).map
          (⟨off, len, leAt b 4 4, (List.range len).map (fun i => leAt b (8 + 4 * i) 4)⟩ :: ·)

/-- The records a job trains on, read through its tenant's window. -/
def Work.jobRecords (s : Work) (tenant off len : Nat) : Option (List TuneRec) :=
  match s.windowSpan tenant off len with
  | some a => tuneRecords (len / 16 + 1) off (s.memRead a len)
  | none => none

/-- Trained positions of a record. -/
def TuneRec.trained (r : TuneRec) : Nat := r.length - 1 - r.lossFrom

/-! ## Starting a job (R366) -/

/-- A record as the layout of a TUNE step sees it. -/
def tuneItem (p : Program) (slot work length : Nat) : Item := ⟨slot, false, length, p.windowUnit, work, 0⟩

/-- The smallest job index that no record of a job has. -/
def freeIndex (used : List Nat) : Nat := ((List.range (used.length + 1)).find? (fun i => !used.contains i)).getD 0

/-- TUNE_START's action for an owner's TUNE_JOB. Assumption log 41, DEDUCED. -/
def Work.tuneStart (s : Work) (t : Nat) (o : Origin) : Work :=
  let key := Obj.tuneStart t
  let b := (s.dom (Obj.tuneJob t)).bytes
  let fail := fun (res : Nat) => s.cmdFail key o res
  let slot := leAt b 0 1 % 4
  let id := leAt b 2 2
  let base := if leAt b 4 4 = 0 then s.currentSet slot id else s.setOfVersion slot id (leAt b 4 4)
  let off := leAt b 16 8
  let len := leAt b 24 8
  if s.rel.deviceFault.isSome then fail 0xB0
  else if !s.isManager then fail 0x3A
  else if b.isEmpty ∨ s.admission slot ≠ 0 then fail 0x37
  else match s.loaded slot id with
    | none => fail 0x79
    | some v =>
      if v.owner ≠ t ∧ !(v.owner = 0xFFFF ∧ o.fn = 0) then fail 0x70
      else if s.jobNames slot id then fail 0x80
      else if 16 ≤ (s.vars.jobs.filter TuneJob.active).length then fail 0x7D
      else if (s.dom (Obj.tuneProgram slot)).bytes.isEmpty then fail 0x7F
      else match s.windowSpan t off len, base with
        | none, _ => fail 0x90
        | some _, none => fail 0x79
        | some a, some base =>
          let p := s.tuneProgram slot
          let charge := base.bytes + 4 * base.values
          if s.memPoisoned a len then fail 0x39
          else match s.jobRecords t off len with
            | none => fail 0x7E
            | some rs =>
              let work := s.vars.nextHandle
              let longest := maxNat (rs.map (·.length))
              if rs.isEmpty ∨ rs.any (fun (r : TuneRec) => r.tokens.any (fun x => decide (s.slotVocab slot ≤ x))) ∨
                s.targetNs < s.estimate s.tuneCost [tuneItem p slot base.handle longest] then fail 0x7E
              else if s.get (Obj.tenantDeltaCap t) * 2 ^ 20 < s.tenantCharged t + charge then fail 0x7C
              else if s.reserveBytes < s.charged + charge then fail 0x76
              else
                let kept := s.vars.jobs.filter (fun (j : TuneJob) => decide (j.key ≠ key))
                let j : TuneJob :=
                  { index := freeIndex (kept.map (·.index)), key := key, tenant := t, owner := v.owner, slot := slot, variant := id
                    numericFail := bitAt (leAt b 1 1) 0, seed := leAt b 8 8, dataOffset := off, dataLength := len
                    lr := leAt b 32 4, decay := leAt b 36 4, windowSteps := leAt b 40 2, publishEvery := leAt b 42 2
                    epochs := leAt b 44 2, state := 1, cause := 0, epoch := 0, record := 0, steps := 0, updates := 0
                    published := 0, loss := 0, numeric := 0, base := base.version, work := work, values := base.values
                    charge := charge, positions := 0, lossSum := 0, lastOfEpoch := false }
                let s := (s.cmdStart key 2 o).modVars (fun x => { x with jobs := kept ++ [j], nextHandle := work + 1 })
                s.orderAll (.tuneSetup j.index slot id base.handle work j.seed j.lr j.decay j.windowSteps)

/-- TUNE_START aborted. -/
def Work.tuneAbort (s : Work) (t : Nat) : Work :=
  match s.vars.jobs.find? (fun (j : TuneJob) => j.active && j.key = Obj.tuneStart t) with
  | some j => s.jobEnd j 5 0
  | none => s

/-! ## TUNE steps (R367) -/

/-- A job's data is used up. -/
def TuneJob.spent (j : TuneJob) : Bool := j.epochs ≤ j.epoch

/-- A job may take the next TUNE step: it runs, has data left, and its slot is OPEN and not paused. -/
def Work.jobReady (s : Work) (j : TuneJob) : Bool :=
  j.active && !j.spent && s.admission j.slot = 0 && !s.serve.pauses.any (fun (p : SlotPause) => p.granted && p.slot = j.slot)

/-- The job that takes the next TUNE step, in round robin after the last. -/
def Work.nextJob (s : Work) : Option TuneJob :=
  let js := (s.vars.jobs.filter s.jobReady).mergeSort (fun a b => decide (a.index ≤ b.index))
  match js.find? (fun (j : TuneJob) => decide (s.vars.lastJob < j.index)) with
  | some j => some j
  | none => js.head?

/-- The step about to be planned is a TUNE step. -/
def Work.tuneDue (s : Work) : Option TuneJob :=
  if (s.serve.step + 1) % max 1 (s.get Obj.tunePeriod) = 0 then s.nextJob else none

/-- The records a TUNE step carries: whole ones in data order, within the target, 16,384 vectors and 256 records. -/
def Work.takeRecords (s : Work) (p : Program) (j : TuneJob) : List TuneRec → List TuneRec → List TuneRec
  | got, [] => got
  | got, r :: rest =>
    let next := got ++ [r]
    if 16384 < sumNat (next.map (·.length)) ∨ 256 < next.length ∨
      s.targetNs < s.estimate s.tuneCost (next.map (fun (x : TuneRec) => tuneItem p j.slot j.work x.length)) then got
    else s.takeRecords p j next rest

/-- A planned record of a job. -/
def TuneJob.planned (j : TuneJob) (p : Program) (r : TuneRec) : Planned :=
  { plan := { entry := 0x8000 + j.index, generation := 0, drafted := false, drafts := [], probs := [], out := [], accepted := 0
              stop := 0, grammar := ⟨0, [], 0⟩, poison := false, draftPoison := false
              lane := ⟨0x8000 + j.index, j.tenant, j.slot, 9, 0, 0, 0, r.length, 0, (r.offset + 8) % 2 ^ 32, 0, j.steps % 2 ^ 32⟩ }
    item := tuneItem p j.slot j.work r.length
    ref := some ⟨j.variant, 0, j.work⟩
    tokens := [] }

/-- Send a job's TUNE step. -/
def Work.tuneStep (s : Work) (j : TuneJob) : Work :=
  let p := s.tuneProgram j.slot
  let rs := (s.jobRecords j.tenant j.dataOffset j.dataLength).getD []
  let take := s.takeRecords p j [] (rs.drop j.record)
  let ls := take.map (j.planned p)
  let est := s.estimate s.tuneCost (ls.map (·.item))
  let s := s.modVars (fun x => { x with lastJob := j.index })
  if ls.isEmpty then s else s.sendStep 2 (fun n => (s.tuneCost n).2) ls est (some j.index)

/-! ## Publishing (R370) -/

/-- Publish a job's working set as a new version; `none` when it does not fit. -/
def Work.publish (s : Work) (j : TuneJob) : Option Work :=
  let bytes := j.charge - 4 * j.values
  match s.place j.slot bytes with
  | .error _ => none
  | .ok l =>
    let s := s.evict l
    let set : DeltaSet := ⟨s.vars.nextHandle, j.slot, j.variant, 0, 1, false, bytes, j.values, 0, j.owner⟩
    let s := s.modVars (fun v => { v with nextHandle := v.nextHandle + 1 })
    let version := match s.variant j.slot j.variant with
      | some v => v.next
      | none => 1
    let s := (s.installSet set none (some j.work)).add Obj.tunePublishes 1
    some (s.putJob { j with state := 1, published := version })

/-- Try to publish, `again` when an attempt before did not fit; at the end of the data a successful one ends the job. -/
def Work.tryPublish (s : Work) (j : TuneJob) (again : Bool) : Work :=
  let s := if again then s.add Obj.publishDeferred 1 else s
  match s.publish j with
  | none => s.putJob { j with state := 2 }
  | some s =>
    if j.spent then
      match s.vars.jobs.find? (fun (x : TuneJob) => x.index = j.index) with
      | some j => s.jobEnd j 3 0
      | none => s
    else s

/-- A job whose data is used up retries its publish at the TUNE opportunity (R370). -/
def Work.retryPublish (s : Work) : Work :=
  if (s.serve.step + 1) % max 1 (s.get Obj.tunePeriod) ≠ 0 then s
  else (s.vars.jobs.filter (fun (j : TuneJob) => j.state = 2 && j.spent)).foldl (fun (s : Work) (j : TuneJob) => s.tryPublish j true) s

/-- Commit of a TUNE step (R367, R369 to R371). Discarded work (FACET_FAULT) fails the job as poison does (assumption log 145, DEDUCED). -/
def Work.tuneCommit (s : Work) (index : Nat) (lanes : List LaneResult) : Work :=
  match s.vars.jobs.find? (fun (j : TuneJob) => j.index = index && j.active) with
  | none => s
  | some j =>
    let rs := (s.jobRecords j.tenant j.dataOffset j.dataLength).getD []
    let numeric := j.numeric + sumNat (lanes.map (·.numeric))
    let j := { j with numeric := numeric }
    if lanes.any (·.poison) then s.jobEnd j 4 0x20
    else if lanes.any (·.facetFault) then s.jobEnd j 4 0x23
    else if j.numericFail ∧ 0 < numeric then s.jobEnd j 4 0x21
    else
      let s := s.add Obj.tuneSteps 1
      let done := (rs.drop j.record).take lanes.length
      let record := j.record + lanes.length
      let wrap : Bool := decide (rs.length ≤ record)
      let j : TuneJob := { j with
        steps := j.steps + 1
        positions := j.positions + sumNat (done.map TuneRec.trained)
        lossSum := lanes.foldl (fun (a : Rat) (l : LaneResult) => r32 (a + f32Value l.loss)) j.lossSum
        record := if wrap then 0 else record
        epoch := if wrap then j.epoch + 1 else j.epoch
        lastOfEpoch := wrap }
      let closes : Bool := decide (j.steps % max 1 j.windowSteps = 0)
      let j : TuneJob := if closes then
          { j with updates := j.updates + 1, loss := fmtFp32.rne (j.lossSum / ((max 1 j.positions : Nat) : Rat)), positions := 0, lossSum := 0 }
        else j
      let s := if closes then s.add Obj.tuneUpdates 1 else s
      let s := s.putJob j
      let due := closes && ((0 < j.publishEvery && j.updates % max 1 j.publishEvery = 0) || j.state = 2)
      if j.spent || due then s.tryPublish { j with state := 2 } (decide (j.state = 2)) else s

/-- TUNE_STATUS (R375). -/
def TuneJob.status (j : TuneJob) : List Byte :=
  toLE 1 j.state ++ toLE 1 (if j.state = 4 then j.cause else 0) ++ toLE 2 j.epoch ++ toLE 4 j.record ++ toLE 8 j.steps ++
    toLE 4 j.updates ++ toLE 4 j.published ++ toLE 4 j.loss ++ toLE 4 (countIn 32 j.numeric)

/-! ## On a worker -/

/-- The value of a delta entry (R348). -/
def deltaValue (v : Int) (exp : Nat) : Rat := if exp = 0 then 0 else (v : Rat) * pow2 ((exp : Int) - 133)

/-- The value entries of a die part, in order. -/
def partValues (part : List Byte) : List DeltaEntry := (partRecs part).flatMap DeltaRec.deltas

/-- The entries of an engine and stream in a die part, with the place of the first among all value entries. -/
def partStart (recs : List DeltaRec) (engine stream : Nat) : Nat :=
  sumNat ((recs.takeWhile (fun (r : DeltaRec) => !(r.engine = engine && r.stream = stream))).map (fun (r : DeltaRec) => r.deltas.length))

/-- A working set is built as a copy of its base: masters are its values widened, accumulators 0 (R366). -/
def Work.tuneSetupOrder (s : Work) (job slot variant base work seed lr decay windowSteps : Nat) : Work :=
  match s.heldSet base with
  | none => s
  | some h =>
    let values := (partValues h.part).map (fun (d : DeltaEntry) => deltaValue d.value d.exp)
    let masters := values.map fmtFp16.rne
    let sat := (values.filter (fun (x : Rat) => (fmtFp16.write .nearest x).2.1)).length
    let under := (values.filter (fun (x : Rat) => decide (absRat x < pow2 (-14)) && decide (fmtFp16.to x ≠ x))).length
    let s := if sat = 0 then s else s.add Obj.fpSaturations sat
    let s := if under = 0 then s else s.add Obj.b8Underflows under
    let s := if sat + under = 0 then s else s.add Obj.numericEvents (sat + under)
    s.holdSet ⟨work, slot, variant, 0, h.part, h.bad, (0, 0),
      some ⟨job, seed, lr, decay, windowSteps, 0, 0, masters, List.replicate masters.length 0⟩⟩

def Work.tunePublishOrder (s : Work) (work slot variant version handle : Nat) : Work :=
  match s.heldSet work with
  | none => s
  | some h => s.holdSet ⟨handle, slot, variant, version, h.part, h.bad, (0, 0), none⟩

def Work.tuneEndOrder (s : Work) (job : Nat) : Work :=
  s.modVars (fun v => { v with held := v.held.filter (fun (h : HeldSet) =>
    match h.work with
    | some w => decide (w.job ≠ job)
    | none => true) })

/-- One master after an update, in FP32 in the order written, rounded to FP16 with a draw of stream 3 (R368, R369), and what that counts. -/
def updateMaster (w : WorkSet) (n : Nat) (master acc draw : Nat) : Nat × EncCounts :=
  let m := (fmtFp16.value master).1
  let lr := f32Value w.lr
  let mean := fpOf ((fmtFp16.value acc).1 / ((max 1 n : Nat) : Rat))
  let g := fpOf (lr * mean.value)
  let rate := fpOf (lr * f32Value w.decay)
  let d := fpOf (rate.value * m)
  let moved := fpOf (m - g.value)
  let new := fpOf (moved.value - d.value)
  let q := fmtFp16.write (.draw draw) new.value
  let c := fpCounts [mean, g, rate, d, moved, new]
  (q.1, { c with fpSat := c.fpSat + bit q.2.1, events := c.events + bit q.2.1, draws := bit q.2.2 })

/-- A run's raw entries with new values: the marker takes the block's exponent, the value entries its codes; and what encoding it counts. -/
def encodeRun (draw : Nat → Nat) (marker : Nat) (entries masters : List Nat) : List Nat × EncCounts :=
  let (b, n) := encodeBlock false (fun i => some (draw i)) ((masters.map (fun w => some (fmtFp16.value w).1)) ++ List.replicate (32 - masters.length) (some 0))
  let codes := b.codes.map (fun c => unsigned 8 (c.getD 0))
  ((marker / 256 * 256 + b.field) :: (entries.zip codes).map (fun p => p.1 / 256 * 256 + p.2), n)

/-- The raw entries of a record after its masters changed, with what encoding them counts; `at_` is the place of its first value entry. -/
def DeltaRec.retune (r : DeltaRec) (at_ : Nat) (masters : List Nat) (draw : Nat → Nat) : List Nat × EncCounts :=
  let x := (runsOf r.entries).foldl (fun (acc : (List Nat × EncCounts) × Nat) (q : Nat × List Nat) =>
    let e := encodeRun (fun i => draw (acc.2 + i)) q.1 q.2 ((masters.drop acc.2).take q.2.length)
    ((acc.1.1 ++ e.1, acc.1.2.plus e.2), acc.2 + q.2.length)) (([], EncCounts.none), at_)
  x.1

/-- A record's bytes (R344). -/
def DeltaRec.bytes (r : DeltaRec) (entries : List Nat) : List Byte :=
  let b := toLE 2 r.engine ++ toLE 2 r.stream ++ toLE 4 entries.length ++ entries.flatMap (toLE 3)
  b ++ List.replicate (alignUp b.length 4 - b.length) 0

/-- The update of one working set at the end of a window (R369). `layerOf` and `elementOf` give a value entry's layer and its
index in the layer's whole weight matrix (R163, R368). -/
def HeldSet.update (h : HeldSet) (w : WorkSet) (step : Nat) (place : Nat → Nat × Nat) : HeldSet × EncCounts :=
  let draw := fun (stream i : Nat) => let p := place i; srDraw w.seed stream step p.1 p.2
  let news := (w.masters.zip w.accs).mapIdx (fun (i : Nat) (p : Nat × Nat) => updateMaster w w.positions p.1 p.2 (draw 3 i))
  let masters := news.map (·.1)
  let recs := partRecs h.part
  let starts := recs.map (fun (r : DeltaRec) => partStart recs r.engine r.stream)
  let head := h.part.take (32 + 8 * leAt h.part 2 2)
  let body := (recs.zip starts).map (fun (q : DeltaRec × Nat) => let e := q.1.retune q.2 masters (draw 4); (q.1.bytes e.1, e.2))
  ({ h with part := head ++ body.flatMap (·.1), work := some { w with masters := masters, accs := List.replicate masters.length 0, positions := 0 } },
    (news.map (·.2) ++ body.map (·.2)).foldl EncCounts.plus EncCounts.none)

end Sys2Proof.Machine
end

