-- ==== Sys2Proof/Machine/Power.lean ====
section
/-! DEFINITION. Transitions between the power states L0 to L4: what stops where, what precedes the stopping of islands, what
precedes their return, and GROUP_POWER's orders (R551 to R555, R557). -/

namespace Sys2Proof.Machine

def Work.modBoot (s : Work) (f : BootState → BootState) : Work := { s with boot := f s.boot }

/-- POWER_STATE changes: one entry into the new state. How long the transition took is open: no command carries it (assumption
log 60, DESIGN CHOICE). -/
def Work.setPower (s : Work) (t : Nat) : Work :=
  let s := (s.set Obj.powerState t).add (Obj.stateEntries t) 1
  let r := s.fresh
  r.2.set Obj.lastTransitionUs (r.1 % 2 ^ 32)

/-- The condition of an island in a power state (R21, R551). -/
def islandWanted (target i : Nat) : IslandCond :=
  let k := islandKind i
  if k ≤ 1 then (if target = 0 then .running else if target = 1 then .stopped else .gated)
  else if k = 2 ∨ k = 3 ∨ k = 4 ∨ k = 7 then (if target < 3 then .running else .gated)
  else if k = 5 ∨ k = 9 then (if target < 4 then .running else .gated)
  else .running

/-- The islands the module has (R17, R36). -/
def Work.islandIds (s : Work) : List Nat := (List.range 0xB0).filter (islandPresent s.ident)

/-! ## What memory loses and how it comes back (R555 to R557) -/

/-- A shadow that has not flipped is abandoned: its spare is free again (R274). A facet being programmed again waits for that; one cut off in
place holds no weights and is SUSPECT (assumption log 84, DEDUCED). -/
def Work.abandonShadows (s : Work) : Work :=
  let all := s.res.shadows
  let s := all.foldl (fun (s : Work) (h : Shadow) =>
    if 2 ≤ h.phase ∨ h.spare = 0xFF then s
    else s.modArr (0x8000 + h.spare) (fun x => if x.state = 8 then x.freed else x)) s
  let s := s.setShadows ((all.filter (fun (h : Shadow) => decide (2 ≤ h.phase) && h.kind ≠ 3)).map
    (fun (h : Shadow) => if h.phase = 3 then { h with phase := 2 } else h))
  all.foldl (fun (s : Work) (h : Shadow) =>
    let s := s.modArr h.facet (fun x => if x.state = 4 ∧ (h.phase = 3 ∨ h.kind = 3) then { x with state := 2 } else x)
    if h.kind = 3 then s.suspect h.facet 0x10 else s) s

/-- Everything held in device memory is lost but the bytes themselves, which are rewritten before use: memory copies and golden
images, the request table and its waiting records, page lists and KV, delta sets, jobs and grammars (R421, R556). -/
def Work.loseMemory (s : Work) : Work :=
  let s := s.abandonShadows
  let s : Work := { s with
    slots := List.replicate 4 ⟨[]⟩, unverifiable := []
    engines := s.engines.map (fun (p : Nat × Engine) => (p.1, p.2.drop))
    step := { StepState.reset with lastClock := s.step.lastClock }
    vars := { VarState.reset with nextHandle := s.vars.nextHandle, lastJob := s.vars.lastJob }
    host := { s.host with
      zeroing := []
      rings := s.host.rings.map (fun (p : Nat × Ring) => (p.1, { p.2 with waiting := [], reserved := 0, stalled := false, aperture := [] })) } }
  s.modServe (fun x => { x with entries := [], plan := none, pageOps := [], candidates := [], fetching := [], grammars := [], badSets := [] })

/-- In L2 and deeper the switches of the clusters' shared SRAM are open and the core islands gated: what cores and clusters held is lost
(R21). A buffer in device memory stays (R192). -/
def Work.loseSram (s : Work) : Work :=
  let inMemory := fun (k : BufKey) => match s.buffer k.slot k.handle with
    | some b => b.kind = 2
    | none => false
  { s with
    net := { s.net with sramOff := List.range 8 }
    step := { s.step with bufs := s.step.bufs.filter (fun (p : BufKey × List Vec) => inMemory p.1), deltas := [] } }

/-- The switches closed again. -/
def Work.powerSram (s : Work) : Work := { s with net := { s.net with sramOff := [] } }

/-- Every codeword of a range of both halves is written with zero data (R557). -/
def Work.zeroAll (s : Work) : Work := s.memOp (.zero 0 (2 * halfBase))

/-- Every codeword outside MODEL is written with zero data (R557). -/
def Work.zeroOutsideModel (s : Work) : Work :=
  let r := s.dram.region 2
  let s := s.memOp (.zero 0 r.1)
  let s := s.memOp (.zero (r.1 + r.2) (halfBase + r.1 - (r.1 + r.2)))
  s.memOp (.zero (halfBase + r.1 + r.2) (halfBase - (r.1 + r.2)))

/-- A slot that served without its memory copies is RESIDENT (R185). -/
def Work.residentSlots (s : Work) : Work :=
  (List.range 4).foldl (fun (s : Work) (n : Nat) =>
    let st := s.get (Obj.slotState n)
    if st = 3 ∨ st = 4 then s.setSlotState n 5 else s) s

/-- The applied adjustments, γ and β come back from the saved copy (R244, R555). -/
def Work.restoreCorrections (s : Work) : Work :=
  s.life.saved.arrays.foldl (fun (s : Work) (p : Nat × ArrSave) => s.modArr p.1 (fun x =>
    { x with gamma := p.2.gamma, beta := p.2.beta, positions := p.2.positions })) s

/-- Trims are to be applied again from the trim store (R228, R555). -/
def Work.forgetTrims (s : Work) : Work := { s with arrs := s.arrs.map (fun (p : Nat × Arr) => (p.1, { p.2 with trimTemp := none })) }

/-! ## Beginning a transition -/

/-- What precedes the stopping of islands, once no facet is being programmed: DMA ends for L3 and L4, and the records of R244 are
saved. A worker that enters L4 is lost to its group (R402). -/
def Work.entryBegin (s : Work) (t : Nat) : Work :=
  if s.boot.begun || !s.programming.isEmpty then s
  else
    let s := if 3 ≤ t then (List.range 32).foldl (fun (s : Work) (c : Nat) => s.dmaPowerEnd c) s else s
    let s := s.lifetimeSave.modBoot (fun b => { b with begun := true })
    if t = 4 ∧ s.isWorker then s.groupFatal 2 s.ownDevice 0xFF else s

/-- What precedes the return of islands from L2 or deeper: stacks, memory, slots, trims and corrections. -/
def Work.exitBegin (s : Work) (old t : Nat) : Work :=
  let s : Work := if 3 ≤ old ∧ t < 3 then { s with dram := { s.dram with selfRefresh := false } } else s
  let s : Work := if old = 4 then
      ({ s with dram := { s.dram with off := false, selfRefresh := decide (t = 3) } }).zeroAll.residentSlots.restoreCorrections
    else s
  if 2 ≤ old then s.forgetTrims else s

/-- A transition to another power state starts: loads end, and what precedes the islands' stopping or return is done. The islands
then follow one by one (ISLAND_STOP, ISLAND_DRAIN_COMPLETE, ISLAND_RESTART). -/
def Work.powerBegin (s : Work) (t : Nat) : Work :=
  let old := s.get Obj.powerState
  let s := s.modBoot (fun b => { b with target := some t, begun := false })
  if old < t then
    if 2 ≤ t then (s.loadStop 0x30).entryBegin t else s.modBoot (fun b => { b with begun := true })
  else (s.exitBegin old t).modBoot (fun b => { b with begun := true })

/-! ## GROUP_POWER (R553) -/

/-- Order every other member to a power state. -/
def Work.orderPower (s : Work) (t : Nat) : Work :=
  match s.group.membership with
  | some x => (x.members.filter (· ≠ 0)).foldl (fun (s : Work) (d : Nat) => s.toMember d (.order (.power t) none)) s
  | none => s

/-- The orders of GROUP_POWER for L2 go out once no step is in progress, and the manager follows. -/
def Work.groupPowerAct (s : Work) : Work :=
  if s.boot.groupPending && s.serve.plan.isNone && s.isManager then
    ((s.modBoot (fun b => { b with groupPending := false })).orderPower 2).powerBegin 2
  else s

/-- GROUP_POWER ends once the manager is in the state it asked for and, for L0, every worker has restored its cores. -/
def Work.groupPowerSettle (s : Work) : Work :=
  if !s.cmdBusy Obj.groupPower || s.boot.target.isSome || s.boot.groupPending then s
  else if s.boot.groupDown then (if s.get Obj.powerState = 2 then s.cmdEnd Obj.groupPower 3 0 else s)
  else if s.get Obj.powerState = 0 ∧ s.serve.restoring.isEmpty then s.cmdEnd Obj.groupPower 3 0
  else s

/-- GROUP_POWER's action; `arg` is 2 or 0. -/
def Work.groupPower (s : Work) (arg : Nat) (o : Origin) : Work :=
  let key := Obj.groupPower
  if !s.formed then s.cmdFail key o 0xD2
  else if !s.isManager then s.cmdFail key o 0x3A
  else if s.boot.target.isSome then s.cmdFail key o 0xD3
  else if arg = 2 then
    ((s.cmdStart key 2 o).modBoot (fun b => { b with groupDown := true, groupPending := decide (s.get Obj.powerState ≠ 2) })).groupPowerAct.groupPowerSettle
  else
    let s := (s.cmdStart key 2 o).modBoot (fun b => { b with groupDown := false, groupPending := false })
    let s := (s.modServe (fun x => { x with restoring := s.workers })).orderPower 0
    (if s.get Obj.powerState = 0 then s else s.powerBegin 0).groupPowerSettle

end Sys2Proof.Machine
end

