-- ==== Sys2Proof/Machine/Boundary.lean ====
section
/-! DEFINITION. Step boundaries at the manager: the planner, drains, pauses, holds and what is freed (R266, R267, R272, R283,
R288 to R292, R301, R303 to R306, R316, R362, R586). -/

namespace Sys2Proof.Machine

/-! ## Order (R288) -/

/-- Effective priority. -/
def Work.effPriority (s : Work) (e : Entry) : Nat :=
  let a := s.get Obj.ageSteps
  if a = 0 then e.priority else min 7 (e.priority + e.waited / a)

/-- The planner considers `a` no later than `b`. -/
def Work.ranks (s : Work) (a b : Entry) : Bool :=
  let pa := s.effPriority a
  let pb := s.effPriority b
  decide (pb < pa) || (pa = pb && ((a.hard && !b.hard) || (a.hard = b.hard &&
    (decide (a.budget < b.budget) || (a.budget = b.budget && decide (a.intakeSeq ≤ b.intakeSeq))))))

/-! ## What a lane needs -/

/-- The k of a decode lane (R316). -/
def Work.laneK (s : Work) (e : Entry) : Nat :=
  min (min e.k s.kMax) (min (e.maxNew - e.grammar.tokens - 1)
    (min (s.get (Obj.contextLimit e.slot) - e.committed - 2) ((s.mainProgram e.slot).mbVectors - 1)))

/-- The set a request runs with when it is planned: none for base weights, its version for PIN or where its variant ID was
unloaded, the current one for FOLLOW (R296, R350, R362). -/
def Work.setFor (s : Work) (e : Entry) : Option DeltaSet :=
  if e.variant = 0xFFFF then none
  else if e.pin || e.frozen then s.setOfVersion e.slot e.variant e.version
  else match s.currentSet e.slot e.variant with
    | some x => some x
    | none => match s.setOfVersion e.slot e.variant e.version with
      | some x => some x
      | none => (s.vars.sets.filter (fun (x : DeltaSet) => x.slot = e.slot && x.variant = e.variant)).getLast?

/-- A lane or record considered: its entry, what it sends, the positions it writes and the pages it takes. -/
structure Cand where
  entry : Entry
  planned : Planned
  lo : Nat
  hi : Nat
  pages : Nat
  deriving DecidableEq, Repr

/-- A lane of `count` vectors from position `pos`; `code` as in KIND of R297. -/
def Work.cand (s : Work) (e : Entry) (code k pos count : Nat) : Cand :=
  let p := s.mainProgram e.slot
  let set := s.setFor e
  let window : Bool := e.windowInput && code ≠ 0
  let hi := pos + count
  let lane : Lane :=
    { entry := e.index, tenant := e.tenant, slot := e.slot, kind := code + 8 * bit window + 16 * bit (decide (e.grammarKind ≠ 0)), k := k
      variant := 0xFF, pos := pos, count := count, first := 0, input := if window then (e.inputAddr + 4 * pos) % 2 ^ 32 else 0
      temperature := e.temperature, laneStep := e.laneStep }
  { entry := e, lo := pos, hi := hi, pages := s.newPages e pos hi
    planned := {
      plan := { entry := e.index, generation := e.generation, lane := lane, drafted := false, drafts := [], probs := [], out := []
                accepted := 0, stop := 0, grammar := e.grammar, poison := false, draftPoison := false }
      item := ⟨e.slot, code = 0, count, p.windowUnit, (set.map (·.handle)).getD 0, pagesFor (s.slotPositions e.slot) p.shards hi⟩
      ref := set.map (fun (x : DeltaSet) => ⟨x.variant, x.version, x.handle⟩)
      tokens := if code = 0 then [e.log.getLastD 0] else if window then [] else (e.log.drop pos).take count } }

/-- The decode lane of a request. -/
def Work.decodeCand (s : Work) (e : Entry) : Cand := let k := s.laneK e; s.cand e 0 k e.committed (k + 1)

/-- A record of `n` prompt positions: ENCODE, PREFILL_LAST, or PREFILL. -/
def Work.prefillCand (s : Work) (e : Entry) (n : Nat) : Cand :=
  s.cand e (if e.encode then 3 else if e.prefilled + n = e.promptLen then 2 else 1) 0 e.prefilled n

/-- The record a request would take next: the rest of its prompt. -/
def Work.nextCand (s : Work) (e : Entry) (st : Nat) : Cand :=
  if st = 4 then s.decodeCand e else s.prefillCand e (e.promptLen - e.prefilled)

/-! ## Limits (R290, R291, R305) -/

/-- New pages fit beside those already claimed, within the reserve and the tenant's cap. -/
def Work.pagesFit (s : Work) (got : List Cand) (c : Cand) : Bool :=
  c.pages = 0 ||
    (decide (s.get Obj.pageReserve + sumNat (got.map (·.pages)) + c.pages ≤ s.pagesFree) &&
     decide (s.tenantPageCount c.entry.tenant + sumNat ((got.filter (fun (x : Cand) => x.entry.tenant = c.entry.tenant)).map (·.pages)) + c.pages
      ≤ s.get (Obj.tenantPageCap c.entry.tenant)))

/-- The distinct variants of a step. -/
def variantsOf (got : List Cand) : List Nat := ((got.map (fun (c : Cand) => c.planned.item.handle)).filter (· ≠ 0)).eraseDups

def Work.planCost (s : Work) (got : List Cand) : Rat := s.estimate s.serveCost (got.map (fun (c : Cand) => c.planned.item))

/-- A step of these lanes keeps the limits common to lanes and records, within an estimate. -/
def Work.planFits (s : Work) (got : List Cand) (limit : Rat) : Bool :=
  decide ((variantsOf got).length ≤ 32) &&
    decide ((layOut (fun n => (s.serveCost n).2) (got.map (fun (c : Cand) => c.planned.item))).mbs.length ≤ 256) &&
    decide (s.planCost got ≤ limit)

/-- A request HELD for PAGES. -/
def Work.holdPages (s : Work) (e : Entry) : Work := (s.putEntry { e with state := 5, resume := e.state, hold := 2 }).add Obj.pageHolds 1

/-- Decode lanes, in order. -/
def Work.planDecode (s : Work) (limit : Rat) : List Cand → List Entry → Work × List Cand
  | got, [] => (s, got)
  | got, e :: rest =>
    let c := s.decodeCand e
    let mine := (got.filter (fun (x : Cand) => x.entry.tenant = e.tenant)).length
    if 256 ≤ got.length ∨ s.get (Obj.tenantLaneCap e.tenant) ≤ mine ∨ !s.planFits (got ++ [c]) limit then s.planDecode limit got rest
    else if !s.pagesFit got c then (s.holdPages e).planDecode limit got rest
    else s.planDecode limit (got ++ [c]) rest

/-- The largest n from lo to hi that fits, when what fits is closed downwards; `lo` fits. -/
def largestFit (fits : Nat → Bool) : Nat → Nat → Nat → Nat
  | 0, lo, _ => lo
  | fuel + 1, lo, hi =>
    if hi ≤ lo then lo
    else
      let mid := (lo + hi + 1) / 2
      if fits mid then largestFit fits fuel mid hi else largestFit fits fuel lo (mid - 1)

/-- Prefill records, in order: whole where the attention is bidirectional, otherwise cut to fit. TENANT_LANE_CAP counts decode lanes and
bounds none (assumption log 140, DEDUCED). -/
def Work.planPrefill (s : Work) (limit : Rat) : List Cand → List Cand → List Entry → List Cand
  | _, recs, [] => recs
  | got, recs, e :: rest =>
    let used := sumNat (recs.map (fun (c : Cand) => c.planned.item.count))
    let left := e.promptLen - e.prefilled
    let whole : Bool := e.encode || (s.mainProgram e.slot).bidirectional
    let fits := fun (n : Nat) => decide (used + n ≤ 16384) && s.planFits (got ++ recs ++ [s.prefillCand e n]) limit
    let n := if whole then (if fits left then left else 0) else largestFit fits 21 0 left
    let c := s.prefillCand e n
    if 256 ≤ recs.length ∨ n = 0 ∨ !s.pagesFit (got ++ recs) c then s.planPrefill limit got recs rest
    else s.planPrefill limit got (recs ++ [c]) rest

/-- Remove HARD lanes whose budget does not cover the estimate until none is removed; with how many were removed. -/
def Work.cutHard (s : Work) : Nat → List Cand → Nat → List Cand × Nat
  | 0, got, n => (got, n)
  | fuel + 1, got, n =>
    let e := s.planCost got
    let short := fun (c : Cand) => c.entry.hard && decide (((1000 * c.entry.budget : Int) : Rat) < e)
    let keep := got.filter (fun (c : Cand) => !short c)
    if keep.length = got.length then (got, n) else s.cutHard fuel keep (n + (got.length - keep.length))

/-! ## Page operations of a planned lane (R298, R305, R306) -/

/-- The references a fork took travel as a SHARE while the source keeps them, else page by page. -/
def Work.shareFork (s : Work) (e : Entry) : Work :=
  if e.forkPages.isEmpty then s
  else
    let n := e.forkPages.length
    let held : Bool := match s.entry e.forkFrom with
      | some x => decide (x.pages.take n = e.forkPages)
      | none => false
    if held then s.pageOp ⟨4, e.index, n, 0, e.forkFrom⟩
    else e.forkPages.zipIdx.foldl (fun (s : Work) (p : Nat × Nat) => s.pageOp ⟨1, e.index, p.2, p.1, 0⟩) s

/-- Pages are taken up to the tentative end: copies of shared pages that are written, then new ones. -/
def Work.grow (s : Work) (e : Entry) (lo hi : Nat) : Work :=
  let list := e.list
  let copies := s.copiesFor e lo hi
  let more := pagesFor (s.slotPositions e.slot) (s.mainProgram e.slot).shards hi - list.length
  let fresh := s.takePages (copies.length + more) s.freePages
  let s := { s.shareFork e with free := s.free + (copies.length + more) }
  let s := (copies.zip fresh).foldl (fun (s : Work) (p : Nat × Nat) =>
    (s.pageOp ⟨3, e.index, p.1, p.2, list.getD p.1 0⟩).add Obj.cowCopies 1) s
  let s := (fresh.drop copies.length).zipIdx.foldl (fun (s : Work) (p : Nat × Nat) => s.pageOp ⟨1, e.index, list.length + p.2, p.1, 0⟩) s
  let list := (copies.zip fresh).foldl (fun (l : List Nat) (p : Nat × Nat) => l.set p.1 p.2) list ++ fresh.drop copies.length
  s.putEntry { e with pages := list, forkPages := [], tentative := max e.committed hi }

/-- A planned lane: pages, version, WAITED, and QUEUED becomes PREFILL (R283, R288). -/
def Work.takeLane (s : Work) (c : Cand) : Work :=
  match s.entry c.entry.index with
  | none => s
  | some e =>
    let s := s.grow e c.lo c.hi
    match s.entry c.entry.index with
    | none => s
    | some e =>
      let version := match c.planned.ref with
        | some v => v.version
        | none => e.version
      s.putEntry { e with version := version, waited := 0, state := if e.state = 2 then 3 else e.state }

/-! ## The plan (R290) -/

/-- A pause granted at a slot is running. -/
def Work.slotPaused (s : Work) (n : Nat) : Bool := s.serve.pauses.any (fun (p : SlotPause) => p.granted && p.slot = n)

/-- A request that the planner may consider but for the step class and the backlog. -/
def Work.plannable (s : Work) (e : Entry) : Bool :=
  (e.state = 2 || e.state = 3 || e.state = 4) && s.admission e.slot ≠ 2 && !s.slotPaused e.slot

def Work.backlogged (s : Work) (e : Entry) : Bool := decide (s.get Obj.outputBacklog < s.undelivered e)

/-- Plan and send a SERVE (0) or WIDE (1) step. -/
def Work.serveStep (s : Work) (kind : Nat) : Work :=
  let mine := s.serve.entries.filter (fun (e : Entry) => s.plannable e && e.wide = (decide (kind = 1)))
  let skipped := (mine.filter s.backlogged).length
  let s := if skipped = 0 then s else s.add Obj.backlogSkips skipped
  let order := (mine.filter (fun (e : Entry) => !s.backlogged e)).mergeSort s.ranks
  let target := s.targetNs
  let prefill := order.filter (fun (e : Entry) => decide (e.state ≠ 4))
  let decLimit : Rat := if prefill.isEmpty then target else target * ((256 - s.get Obj.prefillShare : Nat) : Rat) / 256
  let (s, lanes) := s.planDecode decLimit [] (order.filter (fun (e : Entry) => e.state = 4))
  let recs := s.planPrefill target lanes [] prefill
  let (got, cut) := s.cutHard 513 (lanes ++ recs) 0
  let s := if cut = 0 then s else s.add Obj.budgetSkips cut
  let planned := got.map (fun (c : Cand) => c.entry.index)
  let s := order.foldl (fun (s : Work) (e : Entry) =>
    match s.entry e.index with
    | some e => if planned.contains e.index ∨ e.state = 5 then s else s.putEntry { e with waited := min 65535 (e.waited + 1) }
    | none => s) s
  if got.isEmpty then s
  else
    let est := s.planCost got
    let s := got.foldl (fun (s : Work) (c : Cand) => s.takeLane c) s
    s.sendStep kind (fun n => (s.serveCost n).2) (got.map (·.planned)) est none

/-- Sets that the step sent names were last used in it (R354). -/
def Work.markUsed (s : Work) : Work :=
  match s.serve.plan with
  | none => s
  | some p => s.modVars (fun v => { v with sets := v.sets.map (fun (x : DeltaSet) =>
      if p.body.variants.any (fun (r : VariantRef) => r.handle = x.handle) then { x with lastUsed := s.serve.step } else x) })

/-- Requests HELD for PAGES resume while the free count covers their next lane above the reserve (R305). -/
def Work.resumePages (s : Work) : Work :=
  let held := (s.serve.entries.filter (fun (e : Entry) => e.state = 5 && e.hold = 2)).mergeSort s.ranks
  (held.foldl (fun (acc : Work × List Cand) (e : Entry) =>
    let c := acc.1.nextCand e e.resume
    let claimed := sumNat (acc.2.map (·.pages))
    let mine := sumNat ((acc.2.filter (fun (x : Cand) => x.entry.tenant = e.tenant)).map (·.pages))
    if acc.1.get Obj.pageReserve + claimed + c.pages ≤ acc.1.pagesFree ∧
      acc.1.tenantPageCount e.tenant + mine + c.pages ≤ acc.1.get (Obj.tenantPageCap e.tenant) then
      (acc.1.putEntry { e with state := e.resume, resume := 0, hold := 0 }, acc.2 ++ [c])
    else acc) (s, ([] : List Cand))).1

/-- The planner may send a step: a formed group's manager with PLANNER_RUN, in L0 or L1, without a device-fatal fault, and
not while GROUP_POWER has stopped planning (R553). -/
def Work.mayPlan (s : Work) : Bool :=
  s.get Obj.plannerRun = 1 && s.isManager && s.formed && s.rel.deviceFault.isNone && s.serve.plan.isNone && decide (s.get Obj.powerState < 2) &&
    !s.boot.groupDown && s.serve.restoring.isEmpty

/-- Form the next step. -/
def Work.planStep (s : Work) : Work :=
  if !s.mayPlan then s
  else
    let s := match s.tuneDue with
      | some j => s.tuneStep j
      | none => s
    if s.serve.plan.isSome then s
    else
      let wide := s.serve.entries.any (fun (e : Entry) => e.wide && s.plannable e && !s.backlogged e)
      let due := decide ((s.serve.step + 1) % max 1 (s.get Obj.widePeriod) = 0)
      (s.serveStep (if wide && due then 1 else 0)).markUsed

/-! ## Charging and expiry (R287, R301) -/

def Work.chargeAll (s : Work) : Work := s.modServe (fun x => { x with entries := x.entries.map (Entry.charge s.now) })

def Work.expireAll (s : Work) : Work :=
  (s.serve.entries.filter (fun (e : Entry) => e.hard && (2 ≤ e.state && e.state ≤ 5) && decide (e.budget ≤ 0))).foldl
    (fun (s : Work) (e : Entry) => s.endRequest e 8 0x11) s

/-! ## Drains (R266 to R268) -/

def Work.putDrain (s : Work) (d : Drain) : Work :=
  s.modServe (fun x => { x with drains := x.drains.map (fun (y : Drain) => if y.slot = d.slot then d else y) })

/-- A slot's weights are released: its retained requests lose their pages, its sets are freed and its jobs fail. -/
def Work.releaseServed (s : Work) (slot : Nat) : Work :=
  let s := (s.serve.entries.filter (fun (e : Entry) => e.slot = slot && e.state = 7)).foldl (fun (s : Work) (e : Entry) =>
    (s.pageOp ⟨5, e.index, 0, 0, 0⟩).putEntry { e with pages := [] }) s
  let s := (s.vars.jobs.filter (fun (j : TuneJob) => j.active && j.slot = slot)).foldl (fun (s : Work) (j : TuneJob) => s.jobEnd j 4 0x22) s
  let s := (s.vars.sets.filter (fun (x : DeltaSet) => x.slot = slot)).foldl (fun (s : Work) (x : DeltaSet) => s.dropSet x) s
  s.modVars (fun v => { v with variants := v.variants.map (fun (x : Variant) => if x.slot = slot then { x with unloaded := true } else x) })

/-- Requests of a slot that a drain waits for. -/
def Work.slotLive (s : Work) (slot : Nat) : List Entry := s.serve.entries.filter (fun (e : Entry) => e.live && e.slot = slot)

/-- A drain at a boundary: it starts, its deadline discards what remains, and without requests it completes. -/
def Work.drainAct (s : Work) (d : Drain) : Work :=
  if d.complete then s
  else
    let s := if d.started then s else (s.orderAll (.drain d.slot)).putDrain { d with started := true }
    let s := if s.now < d.deadlineUs then s
      else (s.slotLive d.slot).foldl (fun (s : Work) (e : Entry) => (s.endRequest e 10 0x22).add Obj.drainsDiscarded 1) s
    if !(s.slotLive d.slot).isEmpty then s
    else
      let s := s.orderAll (.drainComplete d.slot d.kind)
      let s := s.putDrain { d with started := true, complete := true, left := (s.holders d.slot).map (·.worker) }
      let s := if d.kind = 0 then s.releaseServed d.slot else s
      s.cmdEnd Obj.replaceSlot 3 0

/-- Drains whose slot is OPEN again are forgotten (R267). -/
def Work.drainsAct (s : Work) : Work :=
  let s := s.serve.drains.foldl (fun (s : Work) (d : Drain) => s.drainAct d) s
  s.modServe (fun x => { x with drains := x.drains.filter (fun (d : Drain) => s.admission d.slot ≠ 0) })

/-! ## Holds and pauses (R272, R303) -/

def Work.holdsAct (s : Work) : Work :=
  s.modServe (fun x => { x with entries := x.entries.map (fun (e : Entry) =>
    if e.holdAsked ∧ 2 ≤ e.state ∧ e.state ≤ 4 then { e with state := 5, resume := e.state, hold := 1, holdAsked := false }
    else if e.resumeAsked ∧ e.state = 5 ∧ e.hold = 1 then { e with state := e.resume, resume := 0, hold := 0, resumeAsked := false }
    else { e with holdAsked := false, resumeAsked := false }) })

/-- Pauses end, and those asked for are granted, with the order that tells the worker. -/
def Work.pausesAct (s : Work) : Work :=
  let s := s.modServe (fun x => { x with pauses := x.pauses.filter (fun (p : SlotPause) => !p.granted || decide (s.now < p.untilUs)) })
  let asked := s.serve.pauses.filter (fun (p : SlotPause) => !p.granted)
  let s := s.modServe (fun x => { x with pauses := x.pauses.map (fun (p : SlotPause) =>
    if p.granted then p else { p with granted := true, untilUs := s.now + pauseUs p.facets }) })
  asked.foldl (fun (s : Work) (p : SlotPause) =>
    let ns : Int := 1000 * (pauseUs p.facets : Int)
    s.toMember p.worker (.order (.pause p.slot ns) (some ns))) s

/-! ## Boundaries (R290, R586) -/

/-- Delta sets reported poisoned become BAD (R351). -/
def Work.badAct (s : Work) : Work :=
  s.serve.badSets.foldl (fun (s : Work) (h : Nat) => (s.setBad h).add Obj.deltaPoison 1) (s.modServe (fun x => { x with badSets := [] }))

/-- Everything that takes effect at a boundary, and the next plan. -/
def Work.boundary (s : Work) : Work :=
  let s := s.badAct.chargeAll.expireAll.drainsAct.holdsAct.promoteSets.pausesAct
  let s := s.freeTerminal.collectSets.collectGrammars.retryPublish
  let s := if s.isManager && s.formed then s.resumePages else s
  s.groupPowerAct.planStep

/-- An idle boundary: while no step is running (R586). -/
def Work.idle (s : Work) : Work := if s.isManager && s.serve.plan.isNone then s.boundary else s

/-- A command that carries the manager's local time. -/
def Work.at (s : Work) (nowUs : Nat) : Work := { s with now := nowUs }

/-- A boundary without a step does what a die does at each step's boundary, and then the manager's part. Assumption log 134, DEDUCED. -/
def Work.idleBoundary (s : Work) : Work :=
  if s.atBoundary && (!s.isManager || s.serve.plan.isNone) then s.stepBoundary.idle else s

def execIdleBoundary (nowUs : Nat) (s : State) : Host.Outcome State Fault Refusal := s.next (fun w => (w.at nowUs).idleBoundary)

/-! ## REPLACE_SLOT (R266) -/

/-- REPLACE_SLOT's action. -/
def Work.replaceSlot (s : Work) (arg : Nat) (o : Origin) : Work :=
  let slot := field arg 1 0
  let kind := field arg 3 2
  let key := Obj.replaceSlot
  let hs := s.serve.held.filter (fun (h : SlotHeld) => h.slot = slot && h.state ≠ 0 && h.state ≠ 6)
  if s.rel.deviceFault.isSome then s.cmdFail key o 0xB0
  else if !s.isManager then s.cmdFail key o 0x3A
  else if hs.isEmpty ∨ hs.any (fun (h : SlotHeld) => decide (h.state ≠ 3)) ∨ (s.drainOf slot).isSome then s.cmdFail key o 0x37
  else
    let d : Drain := ⟨slot, kind, s.now + 1000 * field arg 31 8, false, false, []⟩
    ((s.cmdStart key 2 o).modServe (fun x => { x with drains := x.drains ++ [d] })).idle

/-- DRAIN_DEADLINE: the deadline passes; it acts at the next boundary, at once while no step runs. -/
def execDrainDeadline (slot nowUs : Nat) (s : State) : Host.Outcome State Fault Refusal :=
  s.nextIf (slot < 4) (fun w => (w.at nowUs).idle)

end Sys2Proof.Machine
end

