-- ==== Sys2Proof/Machine/Intake.lean ====
section
/-! DEFINITION. Intake of SUBMIT and CANCEL descriptors, and the request commands (R279, R280, R285 to R287, R302 to R304,
R306, R312, R418, R422 to R426, R585). -/

namespace Sys2Proof.Machine

/-! ## L1 (R551) -/

/-- Work that arrives in L1 brings the device back to L0: the clocks of engine and core islands run again. Assumption log 91, DEDUCED. -/
def Work.leaveL1 (s : Work) : Work :=
  if s.get Obj.powerState ≠ 1 || s.boot.target.isSome then s
  else
    { s.setPower 0 with
      islands := s.islands.map (fun (p : Nat × IslandCond) => if islandKind p.1 ≤ 1 ∧ p.2 = .stopped then (p.1, .running) else p) }

/-! ## Descriptors (R422) -/

def descControl (b : List Byte) : Nat := leAt b 2 1
def descEncode (b : List Byte) : Bool := bitAt (descControl b) 6
def descWindow (b : List Byte) : Bool := bitAt (descControl b) 7
def descTag (b : List Byte) : Nat := leAt b 8 8
def descStamp (b : List Byte) : Nat := leAt b 120 8

/-- BUDGET at consumption (R287). Assumption log 29, DESIGN CHOICE. -/
def budgetOf (deadlineUs : Nat) : Int :=
  if deadlineUs = 0 then 0x7FFFFFFF else if deadlineUs < 2 ^ 31 then (deadlineUs : Int) else Config.longBudget deadlineUs

/-- A REFUSED record (R427, R428); it takes the descriptor's reservation. -/
def refusedRecord (cause handle tag : Nat) (deadline : Option Int) : CompRec :=
  { kind := 4, cause := cause, late := false, numericFlag := false, retained := false, handle := handle, hostTag := tag
    committed := 0, deadline := deadline, numeric := 0, tokens := [], outBytes := 0, reserved := true }

/-- A descriptor is refused without an entry. -/
def Work.refuse (s : Work) (t cause handle tag : Nat) (deadline : Option Int) : Work :=
  (s.add Obj.intakeRefused 1).putRecord t (refusedRecord cause handle tag deadline)

/-- A request in INTAKE is refused: its entry is FREE again. -/
def Work.refuseEntry (s : Work) (e : Entry) (cause : Nat) : Work :=
  (s.refuse e.tenant cause 0xFFFFFFFF e.hostTag e.deadline).freeEntry e.index

/-- The entry of a SUBMIT descriptor (R286, steps 2 to 4). -/
def Work.entryOf (s : Work) (t index : Nat) (b : List Byte) : Entry :=
  let c := descControl b
  let d := leAt b 3 1
  let pri := min (field c 2 0) (s.get (Obj.tenantPriorityMax t))
  let deadline := leAt b 24 4
  { index := index, generation := (look 0 s.serve.gens index + 1) % (2 ^ 18 - 1), tenant := t, slot := leAt b 1 1 % 4, state := 1, resume := 0
    priority := pri, hard := bitAt c 3 && decide (deadline ≠ 0), failPolicy := bitAt c 4, retain := bitAt c 5, wide := false, late := false
    basePriority := pri, hold := 0, cause := 0, variant := leAt b 4 2, pin := bitAt d 3, k := field d 2 0, wantK := field d 2 0, version := 0
    budget := budgetOf deadline, committed := 0, tentative := 0, promptLen := leAt b 32 4, prefilled := 0, maxNew := leAt b 28 4, pages := []
    seed := leAt b 16 8, hostTag := descTag b, grammarId := leAt b 6 2, grammarKind := 0, grammar := ⟨0, [], 0⟩, image := 0
    temperature := leAt b 72 4, topK := leAt b 76 2, topP := leAt b 78 2, minP := leAt b 80 2, stopToken := leAt b 84 4
    numeric := 0, zeroRun := 0, waited := 0, laneStep := 0, wideRatio := 0, charged := s.now, lateTokens := 0, intakeSeq := s.serve.nextSeq
    log := [], encode := descEncode b, windowInput := descWindow b, inputAddr := leAt b 48 8, outputAddr := leAt b 56 8, outputLen := leAt b 64 4
    forkHandle := leAt b 36 4, forkLength := leAt b 40 4, forkPages := [], forkFrom := 0, reserved := true
    holdAsked := false, resumeAsked := false, releaseAsked := false, mvms := [], draftLen := 0, draftPages := 0, output := [], frozen := false }

/-! ## The checks (R219, R285, R306, R418, R422, R585) -/

/-- Bytes of a vector of `elements` in a format of R193 (R149, R153). -/
def vectorBytes (fmt elements : Nat) : Nat :=
  if fmt = 0 then (elements + 1023) / 1024 * 544
  else if fmt = 1 then (elements + 1023) / 1024 * 1056
  else if fmt = 2 ∨ fmt = 3 then elements
  else if fmt = 4 ∨ fmt = 5 then 2 * elements
  else 4 * elements

/-- The bytes of WINDOW input that a prompt takes: token IDs, or the words of a STEP_IN buffer. -/
def windowBytes (p : Program) (promptLen : Nat) : Nat :=
  match p.buffers.find? (fun (b : Buffer) => b.kind = 4 && (b.format = 7 || b.format = 4 || b.format = 5 || b.format = 6)) with
  | some b => if b.format = 7 then 4 * promptLen else 2 * b.elements
  | none => 4 * promptLen

/-- The output of a slot's STEP_OUT buffer for a number of positions. -/
def outputBytes (p : Program) (positions : Nat) : Nat :=
  match p.buffers.find? (fun (b : Buffer) => b.kind = 5) with
  | some b => positions * vectorBytes b.format b.elements
  | none => 0

/-- Sampling parameters in their legal ranges (R334). -/
def samplingOk (b : List Byte) (candN : Nat) : Bool :=
  let t := match fmtFp32.read (leAt b 72 4) with
    | .fin x => x = 0 || (decide ((1 : Rat) / 64 ≤ x) && decide (x ≤ 64))
    | _ => false
  t && decide (leAt b 76 2 ≤ 1024) && decide (leAt b 76 2 ≤ candN) && leAt b 82 2 = 0

/-- The BAD_PARAMS check of a SUBMIT descriptor. -/
def Work.badParams (s : Work) (t : Nat) (b : List Byte) : Bool :=
  let slot := leAt b 1 1 % 4
  let p := s.mainProgram slot
  let n := leAt b 32 4
  !(leAt b 1 1 < 4 && leAt b 3 1 < 16 && leAt b 44 4 = 0 && leAt b 68 4 = 0 && (slice b 88 32).all (· = 0)) ||
    !samplingOk b p.candN ||
    (if descEncode b then decide (leAt b 28 4 ≠ 0) || decide (leAt b 64 4 < outputBytes p n)
     else decide (leAt b 56 8 ≠ 0) || decide (leAt b 64 4 ≠ 0)) ||
    (descWindow b && (s.windowSpan t (leAt b 48 8) (windowBytes p n)).isNone)

/-- The fork source of a request, in a state R306 permits. -/
def Work.forkSource (s : Work) (e : Entry) : Option Entry :=
  match s.byHandle e.forkHandle with
  | some x =>
    if x.tenant = e.tenant ∧ x.index ≠ e.index ∧ ((3 ≤ x.state ∧ x.state ≤ 6) ∨ (x.state = 7 ∧ x.retain)) then some x else none
  | none => none

/-- The conditions of R306 on a source. -/
def Work.forkFits (s : Work) (e x : Entry) : Bool :=
  let n := pagesFor (s.slotPositions e.slot) (s.mainProgram e.slot).shards e.forkLength
  x.slot = e.slot && x.variant = e.variant && (e.variant = 0xFFFF || s.currentVersion e.slot e.variant = x.version) &&
    decide (e.forkLength ≤ x.committed) && decide (e.forkLength < e.promptLen) && !e.windowInput &&
    x.log.take e.forkLength = e.log.take e.forkLength && decide (n ≤ x.list.length)

/-- The first check from BAD_SLOT on that fails; `poison` is a prompt fetch that returned poison or failed. -/
def Work.intakeCheck (s : Work) (e : Entry) (b : List Byte) (poison : Bool) : Option Nat :=
  let hs := s.holders e.slot
  let p := s.mainProgram e.slot
  let pos := s.slotPositions e.slot
  let pages := pagesFor pos p.shards e.promptLen
  let vocab := s.slotVocab e.slot
  let hasGrammar : Bool := match s.grammarFor e.tenant e.grammarId with
    | some g => !g.bad && decide ((gramHead g.image).vocab = vocab)
    | none => false
  if hs.isEmpty ∨ (hs.all (fun (h : SlotHeld) => h.state = 3) ∧ pos = 0) then some 0x43
  else if s.admission e.slot = 2 then some 0x44
  else if s.admission e.slot = 1 then some 0x45
  else if s.badParams e.tenant b then some 0x46
  else if e.variant ≠ 0xFFFF ∧ s.noVariant e.slot e.variant e.tenant then some 0x47
  else if e.grammarId ≠ 0xFFFF ∧ !hasGrammar then some 0x48
  else if poison then some 0x4D
  else if e.log.any (fun x => decide (vocab ≤ x)) then some 0x49
  else if e.promptLen = 0 ∨ s.get (Obj.contextLimit e.slot) < e.promptLen + e.maxNew ∨ (p.bidirectional ∧ min 16384 (leAt (s.mainShape e.slot) 36 4) < e.promptLen) ∨
    s.pagesTotal - s.get Obj.pageReserve < pages then some 0x4A
  else
    let limit := fun (shared : Nat) => if s.get (Obj.tenantPageCap e.tenant) < s.tenantPageCount e.tenant + (pages - shared) then some 0x4E else none
    if e.forkLength = 0 then limit 0
    else match s.forkSource e with
      | none => some 0x4B
      | some x => if s.forkFits e x then limit (pagesFor pos p.shards e.forkLength) else some 0x4C

/-! ## Admission -/

/-- A request becomes QUEUED: fork references, grammar, version, and its ACCEPTED record (R283, R286, R306, R324). -/
def Work.admitRequest (s : Work) (e : Entry) : Work :=
  let n := pagesFor (s.slotPositions e.slot) (s.mainProgram e.slot).shards e.forkLength
  let e : Entry := if e.forkLength = 0 then e else match s.forkSource e with
    | some x => { e with forkPages := x.list.take n, forkFrom := x.index, prefilled := e.forkLength, committed := e.forkLength, tentative := e.forkLength }
    | none => e
  let e : Entry := if e.grammarId = 0xFFFF then e else match s.grammarFor e.tenant e.grammarId with
    | some g => { e with image := g.serial, grammarKind := (gramHead g.image).kind, grammar := ⟨(gramHead g.image).start, [], 0⟩ }
    | none => e
  let e : Entry := { e with version := if e.pin ∧ e.variant ≠ 0xFFFF then s.currentVersion e.slot e.variant else 0, state := 2, reserved := false }
  let s := (s.putEntry e).add Obj.requestsAdmitted 1
  (s.putRecord e.tenant (e.record 1 0 false [] true)).idle

/-- The checks run and the request is admitted or refused. -/
def Work.judge (s : Work) (e : Entry) (b : List Byte) (poison : Bool) : Work :=
  match s.intakeCheck e b poison with
  | some cause => (s.refuseEntry e cause).idle
  | none => s.admitRequest e

/-- The lowest-numbered FREE entry. -/
def Work.freeIndexOf (s : Work) : Option Nat :=
  let used := s.serve.entries.map (·.index)
  (List.range (min 16384 (used.length + 1))).find? (fun i => !used.contains i)

/-! ## Cancelling (R302, R423, R425) -/

/-- A live request is cancelled; `slot` says that the cancel brought a reservation of its own. -/
def Work.cancelEntry (s : Work) (e : Entry) (slot : Bool) : Work :=
  let r := s.ring e.tenant
  let inIntake : Bool := e.state = 1
  let s := if inIntake && slot then s.setRing e.tenant { r with reserved := r.reserved - 1 } else s
  let e' := { e with state := 9, resume := 0, hold := 0, cause := 0x10, reserved := false }
  let s := (s.putEntry e').add Obj.requestsCancelled 1
  let s := if inIntake then s else s.pageOp ⟨5, e.index, 0, 0, 0⟩
  (s.putCancelled e.tenant (e'.record 5 0x10 false [] (if inIntake then e.reserved else slot))).idle

/-- A CANCEL descriptor. -/
def Work.cancelDesc (s : Work) (t : Nat) (b : List Byte) : Work :=
  let h := leAt b 4 4
  let clean := (slice b 1 3).all (· = 0) && (slice b 16 104).all (· = 0)
  if !clean then s.refuse t 0x46 h (descTag b) none
  else match s.byHandle h with
    | some e =>
      if e.tenant ≠ t then s.refuse t 0x60 h (descTag b) none
      else if e.terminal then s.refuse t 0x61 h (descTag b) none
      else s.cancelEntry e true
    | none => s.refuse t 0x60 h (descTag b) none

/-! ## Consumption (R424, R425) -/

/-- A SUBMIT descriptor on the manager. -/
def Work.submitDesc (s : Work) (t : Nat) (b : List Byte) : Work :=
  let budget := budgetOf (leAt b 24 4)
  let deadline : Option Int := if budget = 0x7FFFFFFF then none else some (budget + s.now)
  match s.freeIndexOf with
  | none => s.refuse t 0x41 0xFFFFFFFF (descTag b) deadline
  | some i =>
    if s.get (Obj.tenantRequestCap t) < (s.serve.entries.filter (fun (e : Entry) => e.tenant = t)).length + 1 then
      s.refuse t 0x42 0xFFFFFFFF (descTag b) deadline
    else
      let e := s.entryOf t i b
      let s := s.modServe (fun x => { x with
        entries := x.entries ++ [e], gens := put x.gens i e.generation, nextSeq := (x.nextSeq + 1) % 2 ^ 32, fetching := put x.fetching i b })
      if e.windowInput then s.judge e b false else s

/-- A consumed descriptor. -/
def Work.consume (s : Work) (t : Nat) (a : Announced) : Work :=
  let b := a.desc
  let s := (s.add Obj.intakeDescriptors 1).add (Obj.tenantDescriptors t) 1
  if a.poisoned then s.refuse t 0x4D 0xFFFFFFFF (descTag b) none
  else if !s.isManager then s.refuse t 0x40 (if leAt b 0 1 = 2 then leAt b 4 4 else 0xFFFFFFFF) (descTag b) none
  else if leAt b 0 1 = 2 then s.cancelDesc t b
  else if leAt b 0 1 = 1 then s.submitDesc t b
  else s.refuse t 0x46 0xFFFFFFFF (descTag b) none

/-- The descriptor a tenant's intake takes next: that of the expected sequence number, in its slot. Assumption log 50, DEDUCED. -/
def Work.nextDesc (s : Work) (t : Nat) : Option Announced :=
  let r := s.ring t
  let n := s.get (Obj.intakeEntries t)
  r.aperture.find? (fun (a : Announced) => a.slot = (r.expected - 1) % max 1 n && descStamp a.desc = r.expected)

/-- Intake may consume: rings enabled, booted, and L0 to L2. -/
def Work.intakeOpen (s : Work) (t : Nat) : Bool :=
  s.get (Obj.ringEnable t) = 1 && s.boot.stage = 4 && s.rel.deviceFault.isNone && decide (s.get Obj.powerState ≤ 2)

/-- One visit of a tenant: its next announced descriptor is consumed once a completion slot is reserved for it (R425). -/
def Work.intakeVisit (s : Work) (t : Nat) : Work :=
  if !s.intakeOpen t then s
  else match s.nextDesc t with
    | none => s.setRing t { s.ring t with stalled := false }
    | some a =>
      if !s.slotFree t then s.setRing t { s.ring t with stalled := true }
      else
        let s := s.leaveL1
        let r := s.ring t
        let s := s.setRing t { r with
          expected := r.expected + 1, intakeHead := r.expected % 2 ^ 32, reserved := r.reserved + 1, stalled := false
          aperture := r.aperture.filter (fun (x : Announced) => decide (x.slot ≠ a.slot)) }
        ({ s with host := { s.host with visited := t } } : Work).consume t a

/-- Visits of a tenant until nothing it has announced can be consumed. -/
def Work.intake (s : Work) (t : Nat) : Work :=
  (List.range ((s.ring t).aperture.length + 1)).foldl (fun (s : Work) (_ : Nat) => s.intakeVisit t) s

/-- The tenants in the order of the round: that after the tenant visited last is the first. Assumption log 128, DESIGN CHOICE. -/
def Work.intakeRound (s : Work) : List Nat :=
  sortOn (fun (t : Nat) => (t + 1023 - s.host.visited) % 1024) (s.host.rings.map (·.1))

/-- Every tenant with something announced, in round robin, one descriptor per visit. -/
def Work.intakeAll (s : Work) : Work :=
  let most := s.host.rings.foldl (fun (n : Nat) (p : Nat × Ring) => max n p.2.aperture.length) 0
  (List.range (most + 1)).foldl (fun (s : Work) (_ : Nat) =>
    s.intakeRound.foldl (fun (s : Work) (t : Nat) => s.intakeVisit t) s) s

/-- A descriptor is written into the intake aperture (R415, R421, R424). -/
def Work.announce (s : Work) (t : Nat) (b : List Byte) (poisoned : Bool) : Work :=
  let n := s.get (Obj.intakeEntries t)
  if n = 0 ∨ 3 ≤ s.get Obj.powerState then s.add Obj.unmappedAccesses 1
  else
    let slot := (descStamp b + 2 ^ 64 - 1) % n
    let r := s.ring t
    (s.setRing t { r with aperture := r.aperture.filter (fun (x : Announced) => decide (x.slot ≠ slot)) ++ [⟨slot, b, poisoned⟩] }).intake t

/-- SUBMIT: a descriptor with OP 1 (or one no OP defines) arrives. -/
def execSubmit (tenant : Nat) (desc : List Byte) (poisoned : Bool) (nowUs : Nat) (s : State) : Host.Outcome State Fault Refusal :=
  s.nextIf (s.work.tenantExists tenant) (fun w => (w.at nowUs).announce tenant desc poisoned)

/-- CANCEL: a descriptor with OP 2 arrives. -/
def execCancel (tenant : Nat) (desc : List Byte) (poisoned : Bool) (nowUs : Nat) (s : State) : Host.Outcome State Fault Refusal :=
  s.nextIf (s.work.tenantExists tenant) (fun w => (w.at nowUs).announce tenant desc poisoned)

/-- PROMPT_FETCH_DONE: the checks run, in their order (R286, R426, R585). -/
def Work.promptFetched (s : Work) (i : Nat) (f : FetchEnd) : Work :=
  match s.entry i with
  | none => s
  | some e =>
    if e.state ≠ 1 then s
    else
      let b := look [] s.serve.fetching i
      let s := s.modServe (fun x => { x with fetching := drop1 x.fetching i })
      let s := s.add (Obj.hostReadBytes (tenantPort e.tenant)) (4 * e.promptLen)
      match f with
      | .ok tokens =>
        let e := { e with log := (tokens.map (· % 2 ^ 32)).take e.promptLen }
        (s.putEntry e).judge e b false
      | .error => s.judge e b true
      | .poisoned => s.judge e b true

def execPromptFetchDone (entry : Nat) (fetched : FetchEnd) (nowUs : Nat) (s : State) : Host.Outcome State Fault Refusal :=
  s.nextIf (entry < 16384) (fun w => (w.at nowUs).promptFetched entry fetched)

/-! ## The request commands (R302 to R304, R312) -/

/-- A request command's target, or its failing result. -/
def Work.requestTarget (s : Work) (t arg : Nat) : Except Nat Entry :=
  if s.rel.deviceFault.isSome then .error 0xB0
  else if !s.isManager then .error 0x3A
  else match s.byHandle arg with
    | some e => if e.tenant = t then .ok e else .error 0x60
    | none => .error 0x60

def Work.requestCancelCmd (s : Work) (t arg : Nat) (o : Origin) : Work :=
  let key := Obj.requestCancel t
  match s.requestTarget t arg with
  | .error r => s.cmdFail key o r
  | .ok e => if e.terminal then s.cmdFail key o 0x61 else (s.cmdDone key o).cancelEntry e false

def Work.requestHoldCmd (s : Work) (t arg : Nat) (o : Origin) : Work :=
  let key := Obj.requestHold t
  match s.requestTarget t arg with
  | .error r => s.cmdFail key o r
  | .ok e =>
    if 2 ≤ e.state ∧ e.state ≤ 4 then ((s.cmdDone key o).putEntry { e with holdAsked := true }).idle
    else if e.state = 5 ∧ e.hold = 2 then ((s.cmdDone key o).putEntry { e with hold := 1 }).idle
    else s.cmdFail key o 0x61

def Work.requestResumeCmd (s : Work) (t arg : Nat) (o : Origin) : Work :=
  let key := Obj.requestResume t
  match s.requestTarget t arg with
  | .error r => s.cmdFail key o r
  | .ok e => if e.state = 5 ∧ e.hold = 1 then ((s.cmdDone key o).putEntry { e with resumeAsked := true }).idle else s.cmdFail key o 0x61

def Work.requestReleaseCmd (s : Work) (t arg : Nat) (o : Origin) : Work :=
  let key := Obj.requestRelease t
  match s.requestTarget t arg with
  | .error r => s.cmdFail key o r
  | .ok e => if e.state = 7 ∧ e.retain then ((s.cmdDone key o).putEntry { e with releaseAsked := true }).idle else s.cmdFail key o 0x61

end Sys2Proof.Machine
end

