-- ==== Sys2Proof/Machine/Commit.lean ====
section
/-! DEFINITION. Commit of a step at the manager (R167, R281, R289, R293, R300, R308, R319, R320, R322, R405). -/

namespace Sys2Proof.Machine

/-! ## An entry's 128 bytes (R281, R324, R334) -/

def Entry.bytes (e : Entry) : List Byte :=
  let g := e.grammar
  let grammar := e.grammarId + 2 ^ 16 * e.grammarKind + 2 ^ 24 * g.stack.length + 2 ^ 32 * g.state + 2 ^ 64 * g.stack.headD 0xFFFF +
    2 ^ 96 * (g.tokens % 2 ^ 32)
  let sampling := e.temperature + 2 ^ 32 * e.topK + 2 ^ 48 * e.topP + 2 ^ 64 * e.minP + 2 ^ 96 * e.stopToken
  let control := e.priority + 8 * bit e.hard + 16 * bit e.failPolicy + 32 * bit e.retain + 64 * bit e.wide + 128 * bit e.late
  toLE 2 e.tenant ++ toLE 1 e.slot ++ toLE 1 (e.state + 16 * e.resume) ++ toLE 1 control ++ toLE 1 e.basePriority ++ toLE 1 e.hold ++
    toLE 1 e.cause ++ toLE 2 e.variant ++ toLE 1 (bit e.pin) ++ toLE 1 (e.k + 8 * e.wantK) ++ toLE 4 e.version ++
    toLE 4 (unsigned 32 e.budget) ++ toLE 4 e.committed ++ toLE 4 e.tentative ++ toLE 4 e.promptLen ++ toLE 4 e.prefilled ++
    toLE 4 e.maxNew ++ toLE 4 (if e.pages.isEmpty then 0xFFFFFFFF else Config.pageHead e.index) ++ toLE 4 e.pages.length ++
    toLE 8 e.seed ++ toLE 8 e.hostTag ++ toLE 16 grammar ++ toLE 16 sampling ++ toLE 4 (countIn 32 e.numeric) ++ toLE 2 e.zeroRun ++
    toLE 2 e.waited ++ toLE 4 e.laneStep ++ toLE 2 e.wideRatio ++ toLE 2 e.lateTokens ++ toLE 4 e.intakeSeq ++
    toLE 4 (if e.windowInput then e.inputAddr else Config.tokenLog e.index) ++ toLE 4 e.generation ++ toLE 4 0

/-- The bytes of an entry index: a FREE one keeps its generation. -/
def Work.entryBytes (s : Work) (i : Nat) : List Byte :=
  match s.entry i with
  | some e => e.bytes
  | none => List.replicate 120 0 ++ toLE 4 (look 0 s.serve.gens i) ++ toLE 4 0

/-! ## Mirroring to the standby (R294, R404, R405) -/

/-- The standby, while the manager mirrors to it. -/
def Work.hasStandby (s : Work) : Bool :=
  s.isManager && s.formed && !s.group.standbyLost && match s.group.membership with
    | some x => x.members.contains 1
    | none => false

/-- An object the standby keeps a copy of: of class S or T in 0x6000 to 0x7FFF. -/
def mirrored (k : Key) : Bool :=
  decide (0x6000 ≤ k.index) && decide (k.index ≤ 0x7FFF) && match findRow k.index k.sub with
    | some r => decide (r.cls = .s) || decide (r.cls = .t)
    | none => false

/-- MIRROR with the entries that differ from those of `before`. -/
def Work.mirrorOut (s : Work) (before : List Entry) : Work :=
  if !s.hasStandby then s
  else
    let changed := (s.serve.entries.filter (fun (e : Entry) => !before.contains e)).map (·.index)
    let gone := (before.filter (fun (e : Entry) => !s.serve.entries.any (fun (x : Entry) => x.index = e.index))).map (·.index)
    s.toMember 1 (.mirror {
      entries := (changed ++ gone).map (fun (i : Nat) => (i, s.entryBytes i))
      variants := s.vars.variants.map (fun (v : Variant) => ⟨v.slot, v.id, v.owner, v.pinned, v.next, v.unloaded⟩)
      sets := s.vars.sets.map (fun (x : DeltaSet) => ⟨x.handle, x.slot, x.variant, x.version, x.state, x.ready, x.bytes, x.values, x.lastUsed, x.owner⟩)
      grammars := s.serve.grammars.map (fun (g : Grammar) => ⟨g.serial, g.owner, g.id, g.installed, g.bad, g.image⟩)
      admission := (List.range 4).map s.admission
      objects := (s.objs.filter (fun (p : Key × Nat) => mirrored p.1)).map (fun (p : Key × Nat) => ⟨p.1.index, p.1.sub, p.1.tenant, p.2⟩) })

/-- The mirror goes out before the completions of the commit (R294). -/
def Work.mirrorFirst (s : Work) (before : List Entry) (sent : List Output) : Work :=
  let t := { s with sent := sent }.mirrorOut before
  { t with sent := t.sent ++ s.sent.drop sent.length }

/-! ## Encoder output (R205, R422, R426; assumption log 44, DEDUCED) -/

/-- The TO_MANAGER gathers of a main program into a STEP_OUT buffer of the draft slot's program, by op index. -/
def Work.outputOps (s : Work) (slot : Nat) : List Nat :=
  match s.draftSlot with
  | none => []
  | some d =>
    ((s.mainProgram slot).ops.zipIdx.filter (fun (p : OpRec × Nat) =>
      p.1.opcode = 0x11 && p.1.arg 15 1 = 1 && match (s.program d).buffers[p.1.dst]? with
        | some b => b.kind = 5
        | none => false)).map (·.2)

/-- The die index a worker holds of a slot. -/
def Work.dieIndexOf (s : Work) (worker slot : Nat) : Nat :=
  match s.serve.held.find? (fun (h : SlotHeld) => h.worker = worker && h.slot = slot) with
  | some h => h.dieIndex
  | none => 0xFFFF

/-- The parts gathered of an instance, in die-index order. -/
def Work.gathered (s : Work) (slot seq m : Nat) : List CollPart :=
  (s.serve.candidates.filter (fun (p : CollPart) => p.slot = slot && p.seq = seq && p.m = m)).mergeSort
    (fun (a b : CollPart) => decide (s.dieIndexOf a.src slot ≤ s.dieIndexOf b.src slot))

/-- The vectors of a lane's encoder output, in position order. Assumption log 44, DEDUCED. -/
def Work.outputVecs (s : Work) (p : StepPlan) (l : Lane) : List Vec :=
  (s.outputOps l.slot).flatMap (fun (seq : Nat) => p.body.mbs.zipIdx.flatMap (fun (b : MicroBatch × Nat) =>
    let parts := s.gathered l.slot seq b.2
    (List.range b.1.count).flatMap (fun (i : Nat) =>
      let g := b.1.first + i
      if b.1.slot = l.slot ∧ l.first ≤ g ∧ g < l.first + l.count then parts.filterMap (fun (q : CollPart) => q.data[i]?) else [])))

/-! ## A lane (R300, R319, R320, R322) -/

/-- DEPTH and ZERO_RUN after a decode lane of k with a accepted. A lane whose draft output was poisoned has drafted nothing, as under R315
(assumption log 142, DEDUCED). -/
def Work.depthAfter (s : Work) (e : Entry) (p : LanePlan) : Entry × Option Bool :=
  let k := p.lane.k
  if 0 < k then
    if !p.drafted then (e, none)
    else if p.accepted = 0 then
      if 8 ≤ e.zeroRun + 1 then ({ e with k := e.k / 2, zeroRun := 0 }, some false) else ({ e with zeroRun := e.zeroRun + 1 }, none)
    else
      if p.accepted = k ∧ k = e.k ∧ e.k < e.wantK then ({ e with zeroRun := 0, k := e.k + 1 }, some true) else ({ e with zeroRun := 0 }, none)
  else if e.k = 0 ∧ 0 < e.wantK then
    if s.get Obj.draftRetrySteps ≤ e.zeroRun + 1 then ({ e with k := 1, zeroRun := 0 }, some true) else ({ e with zeroRun := e.zeroRun + 1 }, none)
  else (e, none)

/-- A draft probability in 1/65,536. -/
def probUnits (w : Nat) : Nat := wholeOf ((fmtFp16.value w).1 * 65536)

/-- The counts of a committed decode lane (R319, R340). -/
def Work.countDrafts (s : Work) (t : Nat) (p : LanePlan) : Work :=
  let k := p.lane.k
  let a := p.accepted
  if k = 0 then s
  else
    let s := (((s.add Obj.specLanes 1).add Obj.draftsProposed k).add (Obj.tenantDrafted t) k).add Obj.draftsAccepted a
    let s := s.add (Obj.tenantAccepted t) a
    let s := if a = 0 then s.add Obj.zeroAcceptLanes 1 else s
    (s.add Obj.draftProbAccepted (sumNat ((p.probs.take a).map probUnits))).add Obj.draftProbRejected (sumNat ((p.probs.drop a).map probUnits))

/-- Wide fallback counts of a request's steps, and its class (R167). -/
def Work.storm (s : Work) (e : Entry) (r : LaneResult) : Work × Entry :=
  let n := s.get Obj.wideWindow
  let ms := ((r.mvms, r.wideMvms) :: e.mvms).take n
  let total := sumNat (ms.map (·.1))
  let wide := sumNat (ms.map (·.2))
  let cap := s.get (Obj.wideCap e.tenant)
  let e := { e with mvms := ms, wideRatio := if total = 0 then 0 else min 65535 (wholeOf (((256 * wide : Nat) : Rat) / ((total : Nat) : Rat))) }
  if cap = 0 ∨ ms.length < n then (s, { e with wide := e.wide && decide (cap ≠ 0) })
  else if !e.wide && decide (cap * total < 256 * wide) then
    let s := (s.add Obj.wideStorms 1).add (Obj.tenantWideStorms e.tenant) 1
    (s.log 0 2 9 e.slot e.index e.tenant e.handle, { e with wide := true })
  else if e.wide && decide (512 * wide ≤ cap * total) then (s, { e with wide := false })
  else (s, e)

/-- Output tokens of a lane are delivered: their record, LATE or not. -/
def Work.deliver (s : Work) (e : Entry) (toks : List Nat) (late : Bool) : Work :=
  if toks.isEmpty then s
  else
    let n := toks.length
    let s := (s.add Obj.tokensCommitted n).add (Obj.tenantTokens e.tenant) n
    let s := if late then (s.add Obj.lateDeliveries n).add (Obj.tenantLate e.tenant) n else s
    s.putRecord e.tenant (e.record 2 0 late toks false)

/-- The end of a request whose stop has been met: DRAINING, and its DONE record; encoder output is written first. -/
def Work.drainRequest (s : Work) (e : Entry) (cause : Nat) (late : Bool) : Work :=
  let e := { e with state := 6, cause := cause }
  let s := s.putEntry e
  let s := if cause = 4 then
      (s.send (.hostWrite e.tenant e.outputAddr e.output [])).add (Obj.hostWriteBytes (tenantPort e.tenant)) e.output.length
    else s
  s.putRecord e.tenant (e.record 3 cause late [] false)

/-- Case 6 of R300: the lane's result is committed. -/
def Work.commitLane (s : Work) (plan : StepPlan) (e : Entry) (p : LanePlan) (r : LaneResult) : Work :=
  let l := p.lane
  let late : Bool := !e.hard && e.budget ≠ 0x7FFFFFFF && decide (e.budget ≤ 0)
  let first := late && !e.late
  let (s, e) := s.storm e r
  let e : Entry := { e with numeric := e.numeric + r.numeric, laneStep := (e.laneStep + 1) % 2 ^ 32, late := e.late || late,
                            priority := if first then e.priority - 1 else e.priority, log := e.log ++ p.out, grammar := p.grammar }
  let e : Entry := { e with lateTokens := if late then min 65535 (e.lateTokens + p.out.length) else e.lateTokens }
  let (s, e) : Work × Entry :=
    if l.code = 0 then
      let s := s.countDrafts e.tenant p
      let (e', up) := s.depthAfter e p
      let s := match up with
        | some true => s.add Obj.depthRaises 1
        | some false => s.add Obj.depthHalvings 1
        | none => s
      (s, { e' with committed := l.pos + p.out.length })
    else
      let n := l.pos + l.count
      (s.add Obj.prefillVectors l.count, { e with prefilled := n, committed := n, state := if l.code = 2 then 4 else e.state })
  let e : Entry := { e with tentative := e.committed, draftLen := min e.draftLen e.committed }
  let s := s.putEntry e
  let s := s.deliver e p.out late
  match s.entry e.index with
  | none => s
  | some e =>
    if l.code = 3 then
      let e := { e with output := ((s.outputVecs plan l).flatMap vecBytes).take e.outputLen }
      s.drainRequest e 4 late
    else if p.stop ≠ 0 then
      let dead : Bool := p.stop = 3 && e.grammarKind = 2 && !gramAccepting (s.imageOf e) e.grammar
      (if dead then s.add Obj.grammarDeadEnds 1 else s).drainRequest e p.stop late
    else s

/-- Cases 1 to 5: the lane's work is dropped. -/
def Work.discardLane (s : Work) (i : Nat) : Work :=
  match s.entry i with
  | some e => s.putEntry { e with tentative := e.committed, draftLen := min e.draftLen e.committed }
  | none => s

/-- One lane record at commit; its numeric events join the request's count however the lane ends (R164). -/
def Work.judgeLane (s : Work) (plan : StepPlan) (p : LanePlan) (r : LaneResult) : Work :=
  match s.entry p.entry with
  | none => s
  | some e =>
    let counted : Entry := { e with numeric := e.numeric + r.numeric }
    if e.generation ≠ p.generation ∨ e.terminal then s.discardLane p.entry
    else if r.poison ∨ p.poison ∨ (p.lane.code = 3 ∧ (s.outputVecs plan p.lane).any vecPoisoned) then (s.endRequest counted 10 0x20).discardLane p.entry
    else if r.facetFault then (s.endRequest counted 10 0x23).discardLane p.entry
    else if 0 < r.numeric ∧ e.failPolicy then (s.endRequest counted 10 0x21).discardLane p.entry
    else if e.hard ∧ e.budget ≤ 0 then (s.endRequest counted 8 0x11).discardLane p.entry
    else s.commitLane plan e p r

/-! ## Page operations after a step (R298, R300) -/

/-- COMMIT for a lane's entry, with TRUNCATE where its list is longer than its committed pages. -/
def Work.commitOps (s : Work) (p : LanePlan) : List PageOp × Work :=
  match s.entry p.entry with
  | none => ([], s)
  | some e =>
    if e.generation ≠ p.generation then ([], s)
    else
      let n := pagesFor (s.slotPositions e.slot) (s.mainProgram e.slot).shards e.committed
      let cut : Bool := decide (n < e.pages.length)
      (⟨6, e.index, e.committed, 0, 0⟩ :: (if cut then [⟨2, e.index, n, 0, 0⟩] else []),
        if cut then s.putEntry { e with pages := e.pages.take n } else s)

/-- The lanes' operations go before those already queued. -/
def Work.commitPages (s : Work) (ls : List LanePlan) : Work :=
  let (ops, s) := ls.foldl (fun (acc : List PageOp × Work) (p : LanePlan) =>
    let (o, s) := acc.2.commitOps p
    (acc.1 ++ o, s)) (([] : List PageOp), s)
  s.modServe (fun x => { x with pageOps := ops ++ x.pageOps })

/-! ## Measured time (R289, R293) -/

/-- RATE_FACTOR from the engine clock of the last result and the seam rates known. -/
def rateOf (mhz : Nat) (seams : List (Nat × Nat)) : Rat :=
  let part := fun (nominal n : Nat) => if n = 0 then (1 : Rat) else ((nominal : Nat) : Rat) / ((n : Nat) : Rat)
  seams.foldl (fun (a : Rat) (q : Nat × Nat) => max a (part 3072 q.2)) (max 1 (part 940 mhz))

/-- Assumption log 48, DEDUCED. -/
def Work.setRate (s : Work) : Work :=
  let r := rateOf s.serve.lastMhz s.serve.seamNow
  (s.modServe (fun x => { x with rate := r })).set Obj.rateFactor (wholeIn 16 (r * 256))

/-- CORRECTION, overruns and the longest step. The raise of R293 stays within the limit of R289 (assumption log 139, DEDUCED). -/
def Work.measure (s : Work) (p : StepPlan) : Work :=
  let t := s.now - p.startUs
  let ratio : Rat := if p.estimateNs = 0 then s.serve.correction else ((1000 * t : Nat) : Rat) / p.estimateNs
  let c := min 4 (max 1 (s.serve.correction + (ratio - s.serve.correction) / 16))
  let past : Bool := decide (2000 < t)
  let c := if past then min 4 (max c ratio) else c
  let s := (s.add Obj.steps 1).raise Obj.stepMaxUs t
  let s := if past then (s.add Obj.stepOverruns 1).log 0 3 0 0xFF 0 0xFFFF t else s
  (s.modServe (fun x => { x with correction := c })).set Obj.correction (wholeIn 16 (c * 256))

/-! ## The row -/

/-- COMMIT: on a complete STEP_RESULT. -/
def Work.commit (s : Work) : Work :=
  match s.serve.plan with
  | none => s
  | some p =>
    match p.result with
    | none => s
    | some r =>
      let before := s.serve.entries
      let before' := s.sent
      let s := s.chargeAll
      let lanes := p.lanes.zip (r.lanes ++ List.replicate (p.lanes.length - r.lanes.length) ⟨0, false, false, 0, 0, 0⟩)
      let s := if p.job.isSome then s
        else lanes.foldl (fun (s : Work) (q : LanePlan × LaneResult) => s.judgeLane p q.1 q.2) s
      let s := if p.job.isSome then s else s.commitPages p.lanes
      let s := s.measure p
      let s := (s.modServe (fun x => { x with
        plan := none, candidates := [], lastMhz := r.engineMhz, seamNow := [(255, r.seamGbs)] })).setRate
      let s := match p.job with
        | some j => s.tuneCommit j r.lanes
        | none => s
      (s.drainsAct.mirrorFirst before before').boundary

def execCommit (nowUs : Nat) (s : State) : Host.Outcome State Fault Refusal := s.next (fun w => (w.at nowUs).commit)

end Sys2Proof.Machine
end

