-- ==== Sys2Proof/Machine/StepMsgs.lean ====
section
/-! DEFINITION. The messages of a step (R294 to R299, R318, R392, R400 to R402) and records forwarded to the manager (R33, R289,
R500). -/

namespace Sys2Proof.Machine

/-! ## Starting a step on a worker (R294) -/

/-- The body present is the one a head announces. -/
def bodyMatches (h : StepHead) (b : Option (List Byte)) : Bool :=
  match b with
  | some b => b.length = h.bodyLength && crc32 b = h.bodyCrc
  | none => false

/-- The step whose head has arrived starts once its body is there. -/
def Work.tryStart (s : Work) : Work :=
  match s.step.head with
  | none => s
  | some h => if bodyMatches h s.step.body then s.leaveL1.beginStep h (bodyOf h (s.step.body.getD [])) else s

def execStepBody (bytes : List Byte) (s : State) : Host.Outcome State Fault Refusal :=
  s.next (fun w => if w.isWorker && w.formed then (w.modStep (fun x => { x with body := some bytes })).tryStart else w)

/-- STEP_HEAD: ignored when its epoch is not the worker's own. -/
def execStepHead (h : StepHead) (s : State) : Host.Outcome State Fault Refusal :=
  s.next (fun w =>
    if w.isWorker && w.formed && h.epoch = w.get Obj.groupEpoch && w.rel.deviceFault.isNone then
      ((w.modStep (fun x => { x with head := some h, bodyFails := 0 })).modGroup (fun g => { g with heard := true })).tryStart
    else w)

/-- BODY_TIMEOUT: the body is asked for again; the second failure is group-fatal. -/
def Work.bodyTimeout (s : Work) : Work :=
  if s.step.head.isNone || !s.formed then s
  else if 1 ≤ s.step.bodyFails then s.groupFatal 6 s.ownDevice 0xFF
  else (s.modStep (fun x => { x with bodyFails := 1, body := none })).toMember 0 .bodyResend

def execBodyTimeout (s : State) : Host.Outcome State Fault Refusal := s.next (fun w => w.bodyTimeout)

/-- BODY_RESEND: the manager sends the body again to the worker that asks. -/
def execBodyResend (worker : Nat) (s : State) : Host.Outcome State Fault Refusal :=
  s.next (fun w =>
    match w.serve.plan with
    | some p => if w.workers.contains worker then w.toMember worker (.stepBody p.body.bytes) else w
    | none => w)

/-! ## What the manager sends during a step -/

def execDrafts (lanes : List LaneDrafts) (s : State) : Host.Outcome State Fault Refusal :=
  s.next (fun w => if w.isWorker && w.step.running.isSome then w.modStep (fun x => { x with drafts := some lanes }) else w)

def execMasks (slot : Nat) (rows : List (Nat × Nat × List Byte)) (poison : Bool) (s : State) : Host.Outcome State Fault Refusal :=
  s.nextIf (slot < 4) (fun w =>
    if w.isWorker && w.step.running.isSome then
      w.modStep (fun x => { x with masks := x.masks.filter (fun (m : MaskSet) => decide (m.slot ≠ slot)) ++ [⟨slot, rows, poison⟩] })
    else w)

/-- The decode and PREFILL_LAST lanes of the running step, which ACCEPT names (R318). -/
def Work.acceptLanes (s : Work) : List Lane := s.body.lanes.filter (fun (l : Lane) => l.code = 0 || l.code = 2)

/-- Tentative lengths once every fragment of ACCEPT is in. -/
def Work.applyAccept (s : Work) (words : List Nat) : Work :=
  (s.acceptLanes.zip words).foldl (fun (s : Work) (p : Lane × Nat) =>
    let n := if p.1.code = 0 then p.1.pos + field p.2 20 18 + 1 else p.1.pos + p.1.count
    s.modStep (fun x => { x with pages := x.pages.map (fun (l : PageList) => if l.entry = p.1.entry then { l with tentative := n } else l) })) s

/-- A fragment of ACCEPT: eight words. -/
def Work.accept (s : Work) (words : List Nat) : Work :=
  match s.step.running, words with
  | some (h, _), w0 :: rest =>
    if field w0 15 0 ≠ h.step % 65536 then s
    else
      let got := s.step.accept.getD [] ++ rest.take (field w0 31 24)
      let s := s.modStep (fun x => { x with accept := some got })
      if s.acceptLanes.length ≤ got.length then s.applyAccept got else s
  | _, _ => s

def execAccept (words : List Nat) (s : State) : Host.Outcome State Fault Refusal :=
  s.next (fun w => if w.isWorker then w.accept words else w)

/-! ## STEP_RESULT (R299, R392) -/

def addLane (a b : LaneResult) : LaneResult :=
  ⟨countIn 16 (a.numeric + b.numeric), a.poison || b.poison, a.facetFault || b.facetFault, countIn 32 (a.mvms + b.mvms),
   countIn 32 (a.wideMvms + b.wideMvms),
   fmtFp32.rne (f32Value a.loss + f32Value b.loss)⟩

/-- Combine a part into another: maximum, minima, sums and OR. -/
def StepResult.combine (a b : StepResult) : StepResult :=
  { a with
    dieUs := max a.dieUs b.dieUs, engineMhz := min a.engineMhz b.engineMhz, seamGbs := min a.seamGbs b.seamGbs
    workers := a.workers + b.workers
    lanes := if a.lanes.isEmpty then b.lanes else if b.lanes.isEmpty then a.lanes else (a.lanes.zip b.lanes).map (fun (p : LaneResult × LaneResult) => addLane p.1 p.2) }

/-- Parts in order, combined. -/
def combineAll : List StepResult → Option StepResult
  | [] => none
  | x :: xs => some (xs.foldl StepResult.combine x)

/-- The children in the broadcast tree, ascending. -/
def Work.treeChildren (s : Work) : List Nat :=
  match s.group.membership with
  | some x => x.children.mergeSort (fun (a b : Nat) => decide (a ≤ b))
  | none => []

/-- Whether the standby has members below it in the broadcast tree: some record of TOPOLOGY names it as its parent (R411). -/
def Work.standbyForwards (s : Work) : Bool :=
  let b := (s.dom Obj.topology).bytes
  (List.range (leAt b 0 2)).any (fun (i : Nat) => leAt b (24 + 32 * i) 1 < 254 && leAt b (28 + 32 * i) 1 = 1)

/-- The children in the broadcast tree that have a worker at or below them: a standby that forwards to none answers nothing
(assumption log 54, DEDUCED). -/
def Work.workingKids (s : Work) : List Nat := s.treeChildren.filter (fun (d : Nat) => d ≠ 1 || s.standbyForwards)

def Work.treeParent (s : Work) : Nat :=
  match s.group.membership with
  | some x => x.parent
  | none => 0xFF

/-- On a worker or standby: send the combined result up once its own part and every child's are in. Assumption log 54, DEDUCED. -/
def Work.sendResult (s : Work) : Work :=
  let own := s.step.results.filter (fun (x : StepResult) => x.src = s.ownDevice)
  let kids := s.workingKids
  let parts := own ++ kids.filterMap (fun (d : Nat) => s.step.results.find? (fun (x : StepResult) => x.src = d))
  if (own.isEmpty && s.isWorker) || parts.length ≠ own.length + kids.length then s
  else match combineAll parts with
    | some r => (s.modStep (fun x => { x with results := [] })).toMember s.treeParent (.stepResult { r with src := s.ownDevice })
    | none => s

/-- At the manager: the result is complete once every child's part is in; its worker count must be the group's. -/
def Work.gatherResult (s : Work) (x : StepResult) : Work :=
  match s.serve.plan with
  | none => s
  | some p =>
    if x.step ≠ p.head.step ∨ p.parts.any (fun (y : StepResult) => y.src = x.src) then s
    else
      let parts := p.parts ++ [x]
      let kids := s.workingKids
      let have_ := kids.filterMap (fun (d : Nat) => parts.find? (fun (y : StepResult) => y.src = d))
      let whole : Option StepResult := if have_.length = kids.length then combineAll have_ else none
      let s := s.modServe (fun y => { y with plan := some { p with parts := parts, result := whole } })
      match whole with
      | some r => if r.workers = s.get Obj.workerCount then s else s.groupFatal 5 0xFF 0xFF
      | none => s

def Work.stepResult (s : Work) (x : StepResult) : Work :=
  if !s.formed then s
  else if s.isManager then s.gatherResult x
  else (s.modStep (fun y => { y with results := y.results.filter (fun (z : StepResult) => decide (z.src ≠ x.src)) ++ [x] })).sendResult

def execStepResult (x : StepResult) (s : State) : Host.Outcome State Fault Refusal := s.next (fun w => w.stepResult x)

/-! ## Records forwarded (R33, R289, R500) -/

/-- A record of a worker; a seam rate changes RATE_FACTOR for the next plan. -/
def Work.forwarded (s : Work) (x : RecordIn) : Work :=
  if !s.isManager then s
  else
    let s := s.record x
    if x.code = 6 then (s.modServe (fun y => { y with seamNow := put y.seamNow x.device x.detail })).setRate else s

def execForwardedRecord (x : RecordIn) (s : State) : Host.Outcome State Fault Refusal := s.next (fun w => w.forwarded x)

end Sys2Proof.Machine
end

