-- ==== Sys2Proof/Machine/Issue.lean ====
section
/-! DEFINITION. Issuing an op instance: whose turn it is, what it waits for, fetching its record, and the words it reads (R15, R20, R131,
R196, R197, R217, R220, R222). -/

namespace Sys2Proof.Machine

/-! ## Deltas in the cores' buffers (R131, R351, R359) -/

/-- The delta-set handle of a vector's variant in the step's snapshot; 0 for base weights. -/
def Work.handleAt (s : Work) (slot m vec : Nat) : Nat :=
  match s.laneAt slot m vec with
  | some l => if l.variant = 0xFF then 0 else match s.body.variants[l.variant]? with
    | some r => r.handle
    | none => 0
  | none => 0

/-- The deltas of an instance are in the buffer of every core that needs them. -/
def Work.deltasPresent (s : Work) (c : OpCtx) (cores : List Nat) : Bool :=
  let vs := List.range (s.mbVectors c.slot c.m).length
  vs.all (fun (v : Nat) => s.handleAt c.slot c.m v = 0) ||
    cores.all (fun (k : Nat) => s.step.deltas.any (fun (d : DeltaIn) => d.inst = ⟨c.slot, c.seq, c.m⟩ && d.core = k))

/-! ## Whose turn it is (R196, R197) -/

/-- An op record's instance for a micro-batch. -/
def OpRec.ctx (o : OpRec) (slot j m : Nat) : OpCtx := ⟨slot, j, m, o.layer, o.coreset, o.dst, o.src0, o.src1, o.src2, true, []⟩

/-- The op of an instance in the program its slot runs. -/
def Work.opOf (s : Work) (c : OpCtx) : Option OpRec := (s.stepProgram c.slot).ops[c.seq]?

/-- The cores that run an instance, and for one on engines its engines, can be reached (R20). -/
def Work.coresOpen (s : Work) (c : OpCtx) : Bool :=
  match s.opOf c with
  | some o => (s.recCores c.slot o).all (fun (k : Nat) => s.islandOpen (0x40 + k) && (!o.onSlices || s.islandOpen k))
  | none => true

/-- Everything an instance waits for but its turn and MB_DEPTH. -/
def Work.opReady (s : Work) (c : OpCtx) : Bool :=
  s.rel.deviceFault.isNone && !s.step.issued.contains ⟨c.slot, c.seq, c.m⟩ && s.orderReady c && s.dataReady c && s.coresOpen c

/-- An op applies deltas (R199). -/
def OpRec.streamsDeltas (o : OpRec) : Bool := o.onSlices && bitAt (o.arg 18 1) 1

/-- The instances of a slot's program in the step, with their ops; the manager's own ops run on no core (R196, R215). -/
def Work.instances (s : Work) (slot : Nat) : List (OpRec × OpCtx) :=
  ((s.stepProgram slot).ops.zipIdx.filter (fun (x : OpRec × Nat) => !managerOp x.1.opcode)).flatMap (fun (x : OpRec × Nat) =>
    (if x.1.mb then s.slotMbs slot else [0]).map (fun (m : Nat) => (x.1, x.1.ctx slot x.2 m)))

/-- An instance comes before another: by micro-batch plus program index, then the lower micro-batch, then the lower slot. -/
def issuesBefore (a b : OpCtx) : Bool :=
  decide (a.m + a.seq < b.m + b.seq) || (a.m + a.seq = b.m + b.seq && (decide (a.m < b.m) || (a.m = b.m && decide (a.slot < b.slot))))

/-- A core issues the first of its ready instances: no other that is ready and runs on one of the instance's cores comes before it. An
instance with deltas counts as ready once they are on all cores of its slices (assumption log 119, DEDUCED). -/
def Work.itsTurn (s : Work) (c : OpCtx) : Bool :=
  match s.opOf c with
  | none => true
  | some me =>
    let mine := s.recCores c.slot me
    let slots := ((s.body.mbs.map (·.slot)).filter (fun (n : Nat) => n ≠ c.slot)).eraseDups
    (c.slot :: slots).all (fun (n : Nat) => (s.instances n).all (fun (x : OpRec × OpCtx) =>
      !(issuesBefore x.2 c && s.opReady x.2 && s.depthReady x.2 &&
        (!x.1.streamsDeltas || s.deltasPresent x.2 (s.recCores n x.1)) && (s.recCores n x.1).any mine.contains)))

/-- An instance may start now. -/
def Work.mayIssue (s : Work) (c : OpCtx) : Bool := s.opReady c && s.depthReady c && s.itsTurn c

/-! ## Reading the op record and the operands (R15, R217) -/

/-- A record that fails SECDED or its CRC is fetched again from the memory copy: counted and logged at its first core. When that copy is
poisoned as well the fault is group-fatal, and the op is not issued. -/
def Work.fetchRecord (s : Work) (c : OpCtx) (f : Work → Work) : Work :=
  if c.recordOk then f s
  else
    let core : Nat := match s.opOf c with
      | some o => (s.recCores c.slot o).headD 0
      | none => 0
    let s := (s.add Obj.programWordErrors 1).log 1 0x61 4 c.slot core 0xFFFF c.seq
    let opsAt := alignUp (32 + 16 * (s.stepProgram c.slot).buffers.length) 32
    if s.sectionPoisoned c.slot (if s.tuning then 0x103 else 0x03) (opsAt + 32 * c.seq) 32 then s.groupFatal 7 s.ownDevice 0xFF else f s

/-- An element of a vector as poison. -/
def poisonElement (v : Vec) (i : Nat) : Vec :=
  match v with
  | .blocks bs => .blocks (modNth bs (i / 32) (fun (b : Blk) => { b with codes := b.codes.set (i % 32) none }))
  | .words f ws => .words f (ws.set i none)
  | .cand r => .cand { r with poison := true }
  | .route es => .route es
  | .mask b _ => .mask b true

/-- SECDED corrects a single error in a word read and detects a double one, whose element then reads as poison (assumption log 117,
DEDUCED). -/
def Work.readSram (s : Work) (c : OpCtx) : Work :=
  (c.sram.filter (·.double)).foldl (fun (s : Work) (x : SramError) =>
    let h := if x.src = 0 then c.src0 else if x.src = 1 then c.src1 else c.src2
    match s.buffer c.slot h with
    | none => s
    | some b =>
      if 2 ≤ b.kind then s
      else s.setBuf c.slot h c.m (modNth (s.buf c.slot h c.m) x.vec (fun (v : Vec) => poisonElement v x.element))) s

/-! ## Starting (R197, R222, R499) -/

/-- Start an instance when it may start; a device-fatal device issues no op (R499). An instance that may not start yet waits: the time it
waits for manager data is counted, and once the wait for MB_DEPTH alone. -/
def Work.startOp (s : Work) (c : OpCtx) (f : Work → Work) : Work :=
  let me : Inst := ⟨c.slot, c.seq, c.m⟩
  if s.mayIssue c then s.fetchRecord c (fun (s : Work) => f ((s.readSram c).modStep (fun x => { x with issued := x.issued ++ [me] })))
  else if s.orderReady c && !s.dataReady c then s.meter Obj.collectiveWaitNs
  else if s.opReady c && !s.depthReady c && !s.step.stalled.contains me then
    (s.modStep (fun x => { x with stalled := x.stalled ++ [me] })).add Obj.mbDepthStalls 1
  else s

end Sys2Proof.Machine
end

