-- ==== Sys2Proof/Machine/Sampler.lean ====
section
/-! DEFINITION. The manager's ops: drafting, masks, verification and sampling (R213, R215, R314 to R318, R323, R325 to R328,
R335, R336, R338). -/

namespace Sys2Proof.Machine

def Work.modPlan (s : Work) (f : StepPlan → StepPlan) : Work :=
  s.modServe (fun x => { x with plan := x.plan.map f })

/-- The lanes of the step in progress at the manager. -/
def Work.planLanes (s : Work) : List LanePlan :=
  match s.serve.plan with
  | some p => p.lanes
  | none => []

/-! ## DRAFT (R314, R315) -/

/-- Pages the draft lists hold of the manager's own pool. -/
def Work.draftPagesUsed (s : Work) : Nat := sumNat (s.serve.entries.map (·.draftPages))

def Work.draftPagesFree (s : Work) : Nat := s.ownPages - s.draftPagesUsed

/-- The draft model's probability of a token at temperature 1, FP16 (R314). -/
def draftProb (r : CandRec) (c : Candidate) : Nat :=
  fmtFp16.rne (r32 (exp32 (r32 (c.logit - f32Value r.zMax)) / f32Value r.s))

/-- Walk the drafted positions of a lane: the highest-logit token of each head's candidates under the mask of the state
reached, until a mask or the heads run out. -/
def walkDrafts (b : List Byte) (kind stop : Nat) : GramState → List CandRec → List (Nat × Nat)
  | _, [] => []
  | g, r :: rest =>
    match (mergedCands [r]).find? (fun (c : Candidate) => maskAllows b kind g stop c.token) with
    | some c => (c.token, draftProb r c) :: walkDrafts b kind stop (advance b kind g stop c.token) rest
    | none => []

/-- Catch-up of a lane: positions to process, the allowance left, and whether it is complete (R315). -/
def catchUp (need left : Nat) : Nat × Nat × Bool := (min need left, left - min need left, decide (need ≤ left))

/-- Draft one decode lane of k > 0. `left` is the catch-up allowance; `ready` that the draft slot is READY. -/
def Work.draftLane (s : Work) (slot : Nat) (ready : Bool) (left : Nat) (p : LanePlan) (k : Nat) (heads : List CandRec) : Work × Nat × LanePlan :=
  match s.entry p.entry with
  | none => (s, left, p)
  | some e =>
    let c := p.lane.pos
    let want := pagesFor (s.get (Obj.pagePositions slot)) 1 (c + k)
    let fits := decide (want - e.draftPages ≤ s.draftPagesFree)
    if !ready || !fits then (s.add Obj.draftEmptyLanes 1, left, p)
    else
      let (done, left, complete) := catchUp (c - e.draftLen) left
      let s := if done = 0 then s else s.add Obj.catchupPositions done
      let e := { e with draftPages := max e.draftPages want, draftLen := min c e.draftLen + done }
      if !complete then ((s.putEntry e).add Obj.draftEmptyLanes 1, left, p)
      else if (heads.take k).any (fun (r : CandRec) => r.poison) then ((s.putEntry e).add Obj.draftPoison 1, left, { p with draftPoison := true })
      else
        let ds := walkDrafts (s.imageOf e) e.grammarKind e.stopToken e.grammar (heads.take k)
        (s.putEntry { e with draftLen := c + max 1 ds.length }, left, { p with drafted := true, drafts := ds.map (·.1), probs := ds.map (·.2) })

/-- The lanes with their index. -/
def Work.indexedLanes (s : Work) : List (LanePlan × Nat) := s.planLanes.zipIdx

/-- What DRAFTS carries of a lane. -/
def LanePlan.draftMsg (p : LanePlan) : LaneDrafts :=
  ⟨(List.range p.lane.k).map (fun (i : Nat) => p.drafts[i]?), p.probs⟩

/-- A lane's drafts as a DRAFTS buffer holds them: its tokens, and then their probabilities (R193). -/
def LanePlan.draftVec (p : LanePlan) : Vec := .words 12 ((p.drafts ++ p.probs).map some)

/-- DRAFT: `heads` is, by lane, what the draft model's head returned for each position drafted, at temperature 1. -/
def Work.draft (s : Work) (c : OpCtx) (draftSlot kMax : Nat) (heads : List (List CandRec)) : Work :=
  let ready : Bool := s.get (Obj.slotState draftSlot) = 3
  let (s, _, ls) := s.indexedLanes.foldl (fun (acc : Work × Nat × List LanePlan) (q : LanePlan × Nat) =>
    let k := min q.1.lane.k kMax
    if k = 0 then (acc.1, acc.2.1, acc.2.2 ++ [q.1])
    else
      let (s, left, p) := acc.1.draftLane draftSlot ready acc.2.1 q.1 k (heads.getD q.2 [])
      (s, left, acc.2.2 ++ [p])) (s, s.get Obj.draftCatchup, ([] : List LanePlan))
  let s := s.modPlan (fun p => { p with lanes := ls })
  let msg := ls.map LanePlan.draftMsg
  let s := (s.modStep (fun x => { x with drafts := some msg })).broadcast (.drafts msg)
  (s.setBuf c.slot c.dst c.m (ls.map LanePlan.draftVec)).endOp c

/-- The manager's ops run in a step of its own; without one, or elsewhere, they have no effect (R196, R215). -/
def Work.startManagerOp (s : Work) (c : OpCtx) (f : Work → Work) : Work := if s.serve.plan.isNone then s else s.startOp c f

/-- Assumption log 51, DEDUCED. -/
def execDraft (c : OpCtx) (draftSlot kMax : Nat) (heads : List (List CandRec)) (s : State) : Host.Outcome State Fault Refusal :=
  s.nextIf (draftSlot < 4) (fun w => w.startManagerOp c (fun w => w.draft c draftSlot kMax heads))

/-! ## MASK (R323, R325, R328, R338) -/

/-- The grammar states of positions 0 to k of a lane along its drafts. -/
def walkStates (b : List Byte) (kind stop : Nat) : GramState → List Nat → List GramState
  | g, [] => [g]
  | g, t :: rest => g :: walkStates b kind stop (advance b kind g stop t) rest

/-- A HEAD's range of a die: VOCAB_BASE and VOCAB_COUNT. -/
def Program.headRange (p : Program) : Option (Nat × Nat) :=
  (p.ops.find? (fun (o : OpRec) => o.opcode = 0x52)).map (fun (o : OpRec) => (o.arg 14 4, o.arg 18 4))

/-- The bits of a mask over a range of tokens, packed from bit 0. -/
def maskBits (b : List Byte) (kind stop : Nat) (g : GramState) (base count : Nat) : List Byte :=
  (List.range ((count + 7) / 8)).map (fun (i : Nat) =>
    BitVec.ofNat 8 (sumNat ((List.range 8).map (fun (j : Nat) =>
      let t := 8 * i + j
      if t < count ∧ maskAllows b kind g stop (base + t) then 2 ^ j else 0))))

/-- The masked vectors of a slot: lane, position, image, kind, stop token and grammar state. -/
structure MaskRow where
  lane : Nat
  pos : Nat
  slot : Nat
  image : List Byte
  kind : Nat
  stop : Nat
  state : GramState
  deriving DecidableEq, Repr

def Work.maskRows (s : Work) : List MaskRow :=
  s.indexedLanes.flatMap (fun (q : LanePlan × Nat) =>
    let l := q.1.lane
    match s.entry q.1.entry with
    | some e =>
      if l.masked && (l.code = 0 || l.code = 2) then
        let b := s.imageOf e
        ((walkStates b e.grammarKind e.stopToken e.grammar (q.1.drafts.take l.k)).zipIdx).map (fun (g : GramState × Nat) =>
          ⟨q.2, g.2, l.slot, b, e.grammarKind, e.stopToken, g.1⟩)
      else []
    | none => [])

/-- A lane whose grammar table entry read poison: its grammar is bad, its request fails (R338). -/
def Work.maskPoison (s : Work) (i : Nat) : Work :=
  match s.planLanes[i]? with
  | none => s
  | some p =>
    let s := s.modPlan (fun x => { x with lanes := x.lanes.mapIdx (fun (j : Nat) (y : LanePlan) => if j = i then { y with poison := true } else y) })
    match s.entry p.entry with
    | some e => s.grammarBad e.image
    | none => s

/-- MASK: `ns` is the longest formation, `poisoned` the lanes whose grammar table entry read poison. -/
def Work.mask (s : Work) (c : OpCtx) (set ns : Nat) (poisoned : List Nat) : Work :=
  let rows := s.maskRows
  let s := if rows.isEmpty then s else (s.add Obj.masksGenerated rows.length).raise Obj.maskNsMax ns
  let deep := (rows.filter (fun (r : MaskRow) => r.kind = 2 && r.state.stack.length = 64)).length
  let s := if deep = 0 then s else s.add Obj.stackLimitMasks deep
  let s := poisoned.foldl (fun (s : Work) (i : Nat) => s.maskPoison i) s
  let members := if set = 0xFF then [] else dieSetMembers ((s.slot c.slot).section 0x05) set
  let s := (List.range 4).foldl (fun (s : Work) (n : Nat) =>
    let mine := rows.filter (fun (r : MaskRow) => r.slot = n)
    if mine.isEmpty then s
    else ((s.holders n).filter (fun (h : SlotHeld) => members.contains h.dieIndex)).foldl (fun (s : Work) (h : SlotHeld) =>
      match (programOf h.program).headRange with
      | some (base, count) =>
        s.toMember h.worker (.masks n (mine.map (fun (r : MaskRow) => (r.lane, r.pos, maskBits r.image r.kind r.stop r.state base count))))
      | none => s) s) s
  (s.setBuf c.slot c.dst c.m (rows.map (fun (r : MaskRow) => .mask (maskBits r.image r.kind r.stop r.state 0 262144) false))).endOp c

def execMask (c : OpCtx) (set ns : Nat) (poisoned : List Nat) (s : State) : Host.Outcome State Fault Refusal :=
  s.next (fun w => w.startManagerOp c (fun w => w.mask c set ns poisoned))

/-! ## SAMPLE (R317, R327) -/

/-- The TO_MANAGER gathers of a main slot's program into a buffer of the draft slot's program. -/
def Work.candOps (s : Work) (slot buffer : Nat) : List (OpRec × Nat) :=
  (s.mainProgram slot).ops.zipIdx.filter (fun (q : OpRec × Nat) => q.1.opcode = 0x11 && q.1.arg 15 1 = 1 && q.1.dst = buffer)

/-- The micro-batch that holds a vector of the planned step. -/
def Work.planMb (s : Work) (slot g : Nat) : Option (MicroBatch × Nat) :=
  s.serve.plan.bind (fun (p : StepPlan) =>
    p.body.mbs.zipIdx.find? (fun (b : MicroBatch × Nat) => b.1.slot = slot && b.1.first ≤ g && g < b.1.first + b.1.count))

/-- The candidate records of a vector of the step, gathered into a buffer of the draft slot's program, in die-index order. -/
def Work.candsOf (s : Work) (slot buffer g : Nat) : List CandRec :=
  match s.planMb slot g with
  | none => []
  | some b =>
    ((s.candOps slot buffer).map (·.2)).flatMap (fun (seq : Nat) => (s.gathered slot seq b.2).filterMap (fun (q : CollPart) =>
      match q.data[g - b.1.first]? with
      | some (.cand r) => some { r with poison := r.poison || q.poison }
      | _ => none))

/-- What SAMPLE settles of a lane. -/
structure Chosen where
  out : List Nat
  stop : Nat
  grammar : GramState
  poison : Bool
  short : Nat
  deriving DecidableEq, Repr

/-- Why a token ends its request, 0 when it does not (R327). -/
def endCause (b : List Byte) (e : Entry) (g : GramState) (limit position t : Nat) : Nat :=
  if t = e.stopToken then 1
  else if maskEmpty b e.grammarKind g e.stopToken then 3
  else if e.maxNew ≤ g.tokens then 2
  else if limit - 1 ≤ position then 5
  else 0

/-- Verify one lane: `recs` are the records of its vectors from vector i on, `position` the one chosen next. Where no candidate
is left (a START state whose mask is empty) the request ends with GRAMMAR_END and no token (assumption log 141, DESIGN CHOICE). -/
def verify (b : List Byte) (e : Entry) (candN limit : Nat) : List (List CandRec) → List Nat → Nat → Chosen → Chosen
  | [], _, _, acc => acc
  | rs :: rest, drafts, position, acc =>
    if rs.any (fun (r : CandRec) => r.poison) then { acc with poison := true }
    else
      let (t?, short) := chooseToken rs candN ⟨e.temperature, e.topK, e.topP, e.minP⟩ (sampleDraw e.seed position)
      match t? with
      | none => { acc with stop := 3 }
      | some t =>
        let g := advance b e.grammarKind acc.grammar e.stopToken t
        let acc := { acc with out := acc.out ++ [t], grammar := g, short := acc.short + bit short, stop := endCause b e g limit position t }
        if acc.stop ≠ 0 then acc
        else match drafts with
          | [] => acc
          | d :: ds => if d = t then verify b e candN limit rest ds (position + 1) acc else acc

/-- The vectors whose records choose a lane's tokens, in order. -/
def LanePlan.choosers (p : LanePlan) : List Nat :=
  let l := p.lane
  if l.code = 0 then (List.range (l.k + 1)).map (l.first + ·) else [l.first + l.count - 1]

/-- SAMPLE of one lane, with the counts of its draws. -/
def Work.sampleLane (s : Work) (buffer : Nat) (p : LanePlan) : Work × LanePlan :=
  let l := p.lane
  if l.code ≠ 0 ∧ l.code ≠ 2 then (s, p)
  else match s.entry p.entry with
    | none => (s, p)
    | some e =>
      if p.poison then (s, p)
      else
        let recs := p.choosers.map (fun (g : Nat) => s.candsOf l.slot buffer g)
        let x := verify (s.imageOf e) e (s.mainProgram l.slot).candN (s.get (Obj.contextLimit l.slot)) recs p.drafts
          (if l.code = 0 then l.pos + 1 else e.promptLen) ⟨[], 0, e.grammar, false, 0⟩
        let n := x.out.length
        let s := if n = 0 then s else if f32Value e.temperature = 0 then s.add Obj.greedySamples n else s.add Obj.samples n
        let s := if x.short = 0 then s else s.add Obj.nucleusShort x.short
        if x.poison then (s, { p with poison := true, out := [], accepted := 0, stop := 0, grammar := e.grammar })
        else (s, { p with out := x.out, accepted := n - 1, stop := x.stop, grammar := x.grammar })

/-- An entry of ACCEPT (R318). -/
def LanePlan.acceptWord (p : LanePlan) : Nat := p.out.getLastD 0 + 2 ^ 18 * p.accepted + 2 ^ 21 * bit (decide (p.stop ≠ 0))

/-- The fragments of ACCEPT: eight words, of which the first names step, fragment and entries. -/
def acceptFragments (step : Nat) : Nat → Nat → List Nat → List (List Nat)
  | 0, _, _ => []
  | fuel + 1, i, ws =>
    if ws.isEmpty then []
    else
      let now := ws.take 7
      ((step % 65536 + 65536 * (i % 256) + 2 ^ 24 * now.length) :: (now ++ List.replicate (7 - now.length) 0)) :: acceptFragments step fuel (i + 1) (ws.drop 7)

/-- The workers that send a part to a gather: those of its die set, or every one of the slot. -/
def Work.senders (s : Work) (slot : Nat) (o : OpRec) : List Nat :=
  ((s.holders slot).filter (fun (h : SlotHeld) => o.arg 14 1 = 0xFF || (dieSetMembers h.dieSets (o.arg 14 1)).contains h.dieIndex)).map (·.worker)

/-- The candidate set of a vector is whole: every die that sends a part has sent it. -/
def Work.candsWhole (s : Work) (slot buffer g : Nat) : Bool :=
  match s.planMb slot g with
  | none => true
  | some b => (s.candOps slot buffer).all (fun (q : OpRec × Nat) =>
      (s.senders slot q.1).all (fun (w : Nat) => s.serve.candidates.any (fun (p : CollPart) => p.src = w && p.slot = slot && p.seq = q.2 && p.m = b.2)))

/-- Every vector that chooses a token has its records. -/
def Work.candsIn (s : Work) (buffer : Nat) : Bool :=
  s.planLanes.all (fun (p : LanePlan) =>
    (p.lane.code ≠ 0 && p.lane.code ≠ 2) || p.choosers.all (fun (g : Nat) => s.candsWhole p.lane.slot buffer g))

/-- SAMPLE: lanes are verified, and the result broadcast as ACCEPT. -/
def Work.sample (s : Work) (c : OpCtx) (out : Nat) : Work :=
  match s.serve.plan with
  | none => s
  | some p =>
    let (s, ls) := p.lanes.foldl (fun (acc : Work × List LanePlan) (q : LanePlan) =>
      let (s, q) := acc.1.sampleLane c.src0 q
      (s, acc.2 ++ [q])) (s, ([] : List LanePlan))
    let s := s.modPlan (fun x => { x with lanes := ls })
    let words := (ls.filter (fun (q : LanePlan) => q.lane.code = 0 || q.lane.code = 2)).map LanePlan.acceptWord
    let s := s.setBuf c.slot out c.m (words.map (fun (w : Nat) => .words 7 [some w]))
    let s := (acceptFragments p.head.step (words.length + 1) 0 words).foldl (fun (s : Work) (f : List Nat) => s.broadcast (.accept f)) s
    s.endOp c

/-- SAMPLE waits until the candidate sets of its lanes are in. -/
def execSample (c : OpCtx) (out : Nat) (s : State) : Host.Outcome State Fault Refusal :=
  s.next (fun w => if w.candsIn c.src0 then w.startManagerOp c (fun w => w.sample c out) else w)

end Sys2Proof.Machine
end

