-- ==== Sys2Proof/Machine/Links.lean ====
section
/-! DEFINITION. Heddle links: training, flits, acknowledgement and replay, loss of a link (R377 to R384, R402 to R404, R407,
R410, R575, R579). -/

namespace Sys2Proof.Machine

/-- The device ID of a serial in TOPOLOGY, 254 for none (R411). -/
def Work.idOfSerial (s : Work) (serial : Nat) : Nat :=
  let b := (s.dom Obj.topology).bytes
  match (List.range (leAt b 0 2)).find? (fun (i : Nat) => leAt b (16 + 32 * i) 8 = serial) with
  | some i => leAt b (24 + 32 * i) 1
  | none => 254

/-- The credits a transmitter holds at UP, by virtual lane (R383). -/
def creditsAtUp : List Nat := [16, 192, 256, 32]

/-- A link may train: a cable is present, it is enabled, its island has power and the device has reached READY's stage for
links (R378, R409, R551, R558). -/
def Work.mayTrain (s : Work) (l : Nat) : Bool :=
  (s.link l).cable && s.get (Obj.linkEnable l) = 1 && s.islandCond (0x98 + l) = .running && decide (3 ≤ s.boot.stage) && decide (s.boot.stage ≤ 4)

/-- A link that carries nothing: nothing is waiting, buffered or locked. -/
def Link.quiet (k : Link) (state : Nat) : Link :=
  { k with state := state, lock := 0, reversed := false, replaying := false, partner := none, unacked := [], nakSent := false
           credits := [0, 0, 0, 0], waiting := [], nextSeq := 0, expect := 0 }

/-- A link that is down trains when it may (R378). -/
def Work.retrain (s : Work) (l : Nat) : Work :=
  let s := s.set (Obj.linkPartner l) 0
  s.setLink l ((s.link l).quiet (if s.get (Obj.linkEnable l) = 0 then 0 else if s.mayTrain l then 2 else 1))

/-- Loss of the standby at the manager (R404). -/
def Work.loseStandby (s : Work) (serial : Nat) : Work :=
  if !s.isManager || s.group.standbyLost then s
  else
    let s := s.modGroup (fun g => { g with standbyLost := true })
    (s.add Obj.standbyLostEvents 1).log 0 0x0004 0 0xFF 0 0xFFFF (serial % 2 ^ 32)

/-- A NEIGHBOUR load over a lost link ends (R274, R407). -/
def Work.loseSource (s : Work) (l : Nat) : Work :=
  match s.res.load with
  | some r => if r.source = 1 ∧ r.link = l then s.loadStop 0x33 else s
  | none => s

/-- An ACTIVE link of the group is lost: group-fatal, unless one of its ends is the standby (R402, R404). Assumption log 57, DEDUCED. -/
def Work.activeLost (s : Work) (l : Nat) (partner : Option Identity) : Work :=
  if !s.formed then s
  else
    let serial := match partner with
      | some p => p.serial
      | none => 0
    let d := s.idOfSerial serial
    if d = 1 then s.loseStandby serial
    else if s.isStandby then s
    else s.groupFatal 1 d l

/-- A link goes DOWN, and then retrains (R382). -/
def Work.linkDown (s : Work) (l : Nat) : Work :=
  let k := s.link l
  if k.state ≠ linkUp ∧ k.state ≠ linkActive then s
  else
    let s := (s.add (Obj.linkDownEvents l) 1).retrain l
    let s := s.loseSource l
    if k.state = linkActive then s.activeLost l k.partner else s

/-! ## Training (R378) -/

/-- A link has come UP with a partner. -/
def Work.linkUpWith (s : Work) (l : Nat) (p : Identity) (latencyNs : Nat) (reversed : Bool) : Work :=
  let k := s.link l
  let s := s.setLink l { k.quiet linkUp with lock := 255, reversed := reversed, partner := some p, credits := creditsAtUp, fails := 0
                                             lastSerial := p.serial }
  (s.set (Obj.linkPartner l) p.serial).set (Obj.linkLatencyNs l) (objValue (Obj.linkLatencyNs l) latencyNs)

/-- The end of a training attempt: UP when all 8 lanes locked in both directions, FAULTED after the third failure in
succession. A partner with another serial number takes the link down again (R382). -/
def Work.trained (s : Work) (l locked : Nat) (partner : Option Identity) (latencyNs : Nat) (reversed : Bool) : Work :=
  let k := s.link l
  if k.state ≠ 2 then s
  else match partner with
    | some p =>
      if locked % 256 ≠ 255 then s.setLink l { k with lock := locked % 256, fails := k.fails + 1, state := if 3 ≤ k.fails + 1 then 5 else 2 }
      else
        let changed : Bool := decide (k.lastSerial ≠ 0) && decide (k.lastSerial ≠ p.serial)
        let s := s.linkUpWith l p latencyNs reversed
        if changed then s.linkDown l else s
    | none => s.setLink l { k with lock := locked % 256, fails := k.fails + 1, state := if 3 ≤ k.fails + 1 then 5 else 2 }

def execLinkTrainingDone (link locked : Nat) (partner : Option Identity) (latencyNs : Nat) (reversed : Bool) (s : State) :
    Host.Outcome State Fault Refusal :=
  s.nextIf (link < 16) (fun w => w.inside (0x98 + link) (fun w => w.trained link locked partner latencyNs reversed))

/-- A FAULTED link trains again after 10 s. -/
def Work.retrainTimer (s : Work) (l : Nat) : Work :=
  let k := s.link l
  if k.state = 5 then (s.setLink l { k with fails := 0 }).retrain l else s

def execLinkRetrainTimer (link : Nat) (s : State) : Host.Outcome State Fault Refusal :=
  s.nextIf (link < 16) (fun w => w.retrainTimer link)

/-- A write of LINK_ENABLE (R378, R409): a change on an ACTIVE link is refused by the server. -/
def Work.setLinkEnable (s : Work) (l v : Nat) : Work :=
  if s.get (Obj.linkEnable l) = v then s
  else
    let s := (s.set (Obj.linkEnable l) v).setLink l { s.link l with fails := 0 }
    (s.retrain l).loseSource l

/-- A cable arrives at or leaves a connector: the four links of R579. -/
def Work.cableIn (s : Work) (connector : Nat) : Work :=
  (List.range 4).foldl (fun (s : Work) (m : Nat) =>
    let l := 4 * (connector - 2) + m
    let s := s.setLink l { s.link l with cable := true, fails := 0 }
    if (s.link l).state = 1 then s.retrain l else s) s

def Work.cableOut (s : Work) (connector : Nat) : Work :=
  (List.range 4).foldl (fun (s : Work) (m : Nat) =>
    let l := 4 * (connector - 2) + m
    let s := s.setLink l { s.link l with cable := false, lastSerial := 0 }
    if (s.link l).state = linkUp ∨ (s.link l).state = linkActive then s.linkDown l
    else if (s.link l).state = 2 ∨ (s.link l).state = 5 then s.retrain l else s) s

def execCableInsert (connector : Nat) (s : State) : Host.Outcome State Fault Refusal :=
  s.nextIf (2 ≤ connector && connector ≤ 5) (fun w => w.cableIn connector)

def execCableRemove (connector : Nat) (s : State) : Host.Outcome State Fault Refusal :=
  s.nextIf (2 ≤ connector && connector ≤ 5) (fun w => w.cableOut connector)

/-! ## Loss (R382) -/

def execLaneLockLoss (link lane : Nat) (s : State) : Host.Outcome State Fault Refusal :=
  s.nextIf (link < 16 && lane < 8) (fun w => w.linkDown link)

def execFlitTimeout (link : Nat) (s : State) : Host.Outcome State Fault Refusal := s.nextIf (link < 16) (fun w => w.linkDown link)

/-! ## Flits (R380, R381, R383): the work of the link's island, while it runs (R20) -/

/-- Flits acknowledged leave the replay buffer; progress ends a replay. -/
def Link.acked (k : Link) (ack : Nat) : Link :=
  match k.unacked.findIdx? (fun (p : Nat × Nat) => p.1 = ack) with
  | some i => { k with unacked := (k.unacked.drop (i + 1)).map (fun (p : Nat × Nat) => (p.1, 0)), replaying := false }
  | none => k

/-- ACK and credits of an intact flit, after which waiting flits may go. -/
def Work.flitReturns (s : Work) (l : Nat) (f : Flit) : Work :=
  let k := (s.link l).acked f.ack
  (s.setLink l { k with credits := k.credits.modify (f.crVl % 4) (· + f.crCnt % 8) }).pumpLink l

/-- One NAK for a run of discarded flits, naming the last good one. -/
def Work.nakOnce (s : Work) (l : Nat) : Work :=
  let k := s.link l
  if k.nakSent then s
  else (s.setLink l { k with nakSent := true }).send (.fabric none (some l) (.nak ((k.expect + 1023) % 1024)))

def Link.carries (k : Link) : Bool := k.state = linkUp || k.state = linkActive

/-- A DATA flit: discarded when its CRC fails or it is not the one expected, otherwise taken in order. -/
def Work.dataFlit (s : Work) (l : Nat) (f : Flit) : Work :=
  if !(s.link l).carries then s
  else if !f.crcOk then (s.add (Obj.linkCrcErrors l) 1).nakOnce l
  else
    let s := s.flitReturns l f
    let k := s.link l
    if f.seq % 1024 ≠ k.expect then s.nakOnce l
    else (s.setLink l { k with expect := (k.expect + 1) % 1024, nakSent := false }).add (Obj.linkRxBytes l) 64

def execDataFlit (link : Nat) (f : Flit) (s : State) : Host.Outcome State Fault Refusal :=
  s.nextIf (link < 16) (fun w => w.inside (0x98 + link) (fun w => w.dataFlit link f))

/-- A NULL flit: dropped when its CRC fails. -/
def Work.nullFlit (s : Work) (l : Nat) (f : Flit) : Work :=
  if !(s.link l).carries then s
  else if !f.crcOk then s.add (Obj.linkCrcErrors l) 1
  else s.flitReturns l f

def execNullFlit (link : Nat) (f : Flit) (s : State) : Host.Outcome State Fault Refusal :=
  s.nextIf (link < 16) (fun w => w.inside (0x98 + link) (fun w => w.nullFlit link f))

/-- NAK: resend from ACK + 1 in order; the eighth resend of one flit takes the link down. -/
def Work.nakIn (s : Work) (l ack : Nat) : Work :=
  if !(s.link l).carries then s
  else
    let k := (s.link l).acked ack
    let k := { k with unacked := k.unacked.map (fun (p : Nat × Nat) => (p.1, p.2 + 1)), replaysSec := k.replaysSec + 1 }
    let k := { k with replaying := !k.unacked.isEmpty }
    let s := (s.setLink l k).add (Obj.linkReplays l) 1
    if k.unacked.any (fun (p : Nat × Nat) => decide (8 ≤ p.2)) then s.linkDown l else s.pumpLink l

def execNak (link ack : Nat) (s : State) : Host.Outcome State Fault Refusal := s.nextIf (link < 16) (fun w => w.inside (0x98 + link) (fun w => w.nakIn link ack))

/-- Every second: the latency, and LINK_DEGRADED when the replays of the second exceeded the limit (R399, R409). -/
def Work.latency (s : Work) (l ns : Nat) : Work :=
  let k := s.link l
  let s := if k.carries then s.set (Obj.linkLatencyNs l) (objValue (Obj.linkLatencyNs l) ns) else s
  let n := s.get Obj.linkReplayLimit
  let s := s.setLink l { k with replaysSec := 0 }
  if n ≠ 0 ∧ n < k.replaysSec then s.log 0 0x0007 7 0xFF l 0xFFFF k.replaysSec else s

def execLinkLatencyMeasure (link latencyNs : Nat) (s : State) : Host.Outcome State Fault Refusal :=
  s.nextIf (link < 16) (fun w => w.latency link latencyNs)

/-- LINK_STATUS (R410). -/
def Work.linkStatus (s : Work) (l : Nat) : Nat :=
  let k := s.link l
  let (id, link) := match k.partner with
    | some p => (if 2 ≤ s.get Obj.groupState then s.idOfSerial p.serial else p.deviceId, p.link)
    | none => (254, 0)
  k.state + 16 * k.lock + 4096 * bit k.replaying + 8192 * bit k.reversed + 65536 * id + 2 ^ 24 * link

end Sys2Proof.Machine
end

