-- ==== Sys2Proof/Machine/Dtu.lean ====
section
/-! DEFINITION. The ops of the DTUs and the cores' CONVERT and COPY: ACT, ROPE, ATTN, ROUTE, EMBED, PATCH, HEAD and the arithmetic
of NORM (R166, R182, R206 to R214, R305, R321). -/

namespace Sys2Proof.Machine

/-! ## Weights (R182, R192) and sums -/

/-- A row of a WIDE tensor; `bad` says of a byte whether its codeword is uncorrectable (R150, R182). -/
def tensorRow (wide : List Byte) (bad : Nat → Bool) (tensor row : Nat) : Vec :=
  match (List.range (leAt wide 0 4)).find? (fun (i : Nat) => leAt wide (16 + 16 * i) 2 = tensor) with
  | none => .words 6 []
  | some i =>
    let fmt := leAt wide (18 + 16 * i) 1
    let cols := leAt wide (24 + 16 * i) 4
    let off := leAt wide (28 + 16 * i) 4
    if fmt = 1 then
      let n := (cols + 1023) / 1024
      .blocks ((List.range n).flatMap (fun (t : Nat) =>
        let at_ := off + (row * n + t) * 1056
        tileBlocks true (fun (c : Nat) => bad (at_ + 32 * c)) (slice wide at_ 1056)))
    else
      let w := wordBytes fmt
      .words fmt ((List.range cols).map (fun (c : Nat) =>
        let at_ := off + (row * cols + c) * w
        if bad at_ then none else some (leAt wide at_ w)))

/-- Rows of a tensor. -/
def tensorRows (wide : List Byte) (tensor : Nat) : Nat :=
  match (List.range (leAt wide 0 4)).find? (fun (i : Nat) => leAt wide (16 + 16 * i) 2 = tensor) with
  | none => 0
  | some i => leAt wide (20 + 16 * i) 4

/-- Row i of a source: of its tensor for a WEIGHTS buffer, otherwise of the buffer. -/
def Work.sourceRow (s : Work) (slot h m i : Nat) : Vec :=
  match s.buffer slot h with
  | some b => if b.kind = 3 then tensorRow ((s.slot slot).section 0x15) (fun (o : Nat) => s.sectionPoisoned slot 0x15 o 1) b.offset i else (s.buf slot h m).getD i (.words 6 [])
  | none => .words 6 []

/-- The number of rows of a source. -/
def Work.sourceRows (s : Work) (slot h m : Nat) : Nat :=
  match s.buffer slot h with
  | some b => if b.kind = 3 then tensorRows ((s.slot slot).section 0x15) b.offset else (s.buf slot h m).length
  | none => 0

/-- Values of a vector, poison apart. -/
def plainReals (v : Vec) : List Rat := (vecReals v).map (fun (x : Option Rat) => x.getD 0)

/-- The elements per vector of a buffer, and its format. -/
def Work.bufElements (s : Work) (slot h : Nat) : Nat :=
  match s.buffer slot h with
  | some b => b.elements
  | none => 0

def Work.bufFormat (s : Work) (slot h : Nat) : Nat :=
  match s.buffer slot h with
  | some b => b.format
  | none => 6

/-- All elements poisoned, as many as a list has. -/
def allPoison {α : Type} (l : List α) : List (Option Rat) := l.map (fun (_ : α) => none)

/-! ## NORM (R206) -/

/-- What a die contributes to the statistics of a vector: elements, sum and sum of squares. -/
structure NormStat where
  n : Nat
  sum : Nat
  sq : Nat
  deriving DecidableEq, Repr

/-- A vector's statistics, and what forming them counts. -/
def normStat (v : Vec) : NormStat × EncCounts :=
  let xs := plainReals v
  let a := sumFps (xs.map fpOf)
  let b := dotFp xs xs
  (⟨xs.length, a.word, b.word⟩, fpCounts [a, b])

/-- Statistics of several dies together. -/
def normTotal (l : List NormStat) : NormStat × EncCounts :=
  match l with
  | [x] => (x, EncCounts.none)
  | _ =>
    let a := sumFp (l.map (·.sum))
    let b := sumFp (l.map (·.sq))
    (⟨sumNat (l.map (·.n)), a.word, b.word⟩, fpCounts [a, b])

/-- The mean taken off and the reciprocal of the spread of a vector. -/
def normScale (kind eps : Nat) (t : NormStat) : Fp × Fp :=
  let n : Rat := ((max 1 t.n : Nat) : Rat)
  let mean : Rat := f32Value t.sum / n
  let square : Rat := f32Value t.sq / n
  let m := if kind = 0 then openFp 0x101 [t.sum, t.n] mean (absRat mean) else Fp.zero
  let spread := openFp 0x102 [t.sum, t.sq, t.n, eps] (square - (if kind = 0 then mean * mean else 0) + f32Value eps)
    (square + mean * mean + absRat (f32Value eps))
  (m, (rsqrtFp spread.word).after [spread])

/-- One normalised element; poison of its input, gain or bias is its own. -/
def normElement (m inv : Rat) (x gain bias : Option Rat) : Option Fp :=
  match x, gain, bias with
  | some x, some g, some b => some (openFp 0x103 [fmtFp32.rne x, fmtFp32.rne m, fmtFp32.rne inv, fmtFp32.rne g, fmtFp32.rne b]
      ((x - m) * inv * g + b) ((absRat x + absRat m) * absRat inv * absRat g + absRat b))
  | _, _, _ => none

/-- The values of results, poison apart, and what they count. -/
def fpList (xs : List (Option Fp)) : List (Option Rat) × EncCounts := (xs.map (Option.map Fp.value), fpCounts (xs.filterMap id))

/-- A vector normalised with given statistics; gain in the first row of SRC1, bias in the second (assumption log 55, DEDUCED). -/
def Work.normVector (s : Work) (c : OpCtx) (a : NormArgs) (t : NormStat) (v : Vec) : List (Option Rat) × EncCounts :=
  let g := s.sourceRow c.slot c.src1 c.m 0
  let b := if s.sourceRows c.slot c.src1 c.m ≤ 1 then .words 6 [] else s.sourceRow c.slot c.src1 c.m 1
  if vecPoisoned v then (allPoison (vecReals v), EncCounts.none)
  else
    let k := normScale a.kind a.eps t
    let r := fpList ((vecReals v).zipIdx.map (fun (p : Option Rat × Nat) =>
      normElement k.1.value k.2.value p.1 ((vecReals g).getD p.2 (some 1)) ((vecReals b).getD p.2 (some 0))))
    (r.1, [inputCounts v, inputCounts g, inputCounts b, fpCounts [k.1, k.2], r.2].foldl EncCounts.plus EncCounts.none)

/-- NORM with the statistics of every vector. -/
def Work.normAll (s : Work) (c : OpCtx) (a : NormArgs) (stats : Nat → NormStat × EncCounts) : Work :=
  let vs := s.buf c.slot c.src0 c.m
  s.eachVec c vs.length a.outFmt (fun (i : Nat) =>
    let r := s.normVector c a (stats i).1 (vs.getD i (.words 6 []))
    (r.1, (stats i).2.plus r.2))

/-! ## ACT (R206, R207) -/

/-- The value of a table of ACT_TABLES at x. -/
def tableFp (tables : List Byte) (i : Nat) (x : Nat) : Fp :=
  let t := slice tables (3088 * i) 3088
  let lo := f32Value (leAt t 0 4)
  let hi := f32Value (leAt t 4 4)
  let v := f32Value x
  let seg : Int := clampInt 0 255 (Rat.floor (256 * (v - lo) / (hi - lo)))
  let k := seg.toNat
  let c := fun (j : Nat) => leAt t (16 + 12 * k + 4 * j) 4
  let d : Rat := v - lo - (seg : Rat) * (hi - lo) / 256
  let w := fun (j : Nat) => f32Value (c j)
  openFp 0x104 [x, c 0, c 1, c 2] (w 0 + w 1 * d + w 2 * d * d)
    (absRat (w 0) + (absRat (w 1) + absRat (w 2) * (absRat v + absRat lo + absRat hi)) * (absRat v + absRat lo + absRat hi))

/-- FUNC of an FP32 word. -/
def actFp (tables : List Byte) (func x : Nat) : Fp :=
  if func = 0 then ⟨x, 0, 0⟩
  else if func = 1 then (if f32Value x < 0 then Fp.zero else ⟨x, 0, 0⟩)
  else if 0x80 ≤ func then tableFp tables (func - 0x80) x
  else builtin func x

/-- One element: FUNC of SCALE times it, combined with SRC1's. -/
def actElement (tables : List Byte) (a : ActArgs) (x z : Option Rat) : Option Fp :=
  match x with
  | none => none
  | some x =>
    let t := fpOf (f32Value a.scale * x)
    let y := (actFp tables a.func t.word).after [t]
    if a.combine = 0 then some y
    else match z with
      | none => none
      | some z => some ((fpOf (if a.combine = 1 then y.value * z else y.value + z)).after [y])

def Work.act (s : Work) (c : OpCtx) (a : ActArgs) : Work :=
  let vs := s.buf c.slot c.src0 c.m
  let tables := (s.slot c.slot).section 0x04
  s.eachVec c vs.length a.outFmt (fun (i : Nat) =>
    let v := vs.getD i (.words 6 [])
    let w := if a.combine = 0 then .words 6 [] else s.sourceRow c.slot c.src1 c.m i
    let r := fpList ((vecReals v).zipIdx.map (fun (p : Option Rat × Nat) => actElement tables a p.1 ((vecReals w).getD p.2 (some 0))))
    (r.1, ((inputCounts v).plus (inputCounts w)).plus r.2))

def execAct (c : OpCtx) (a : ActArgs) (s : State) : Host.Outcome State Fault Refusal := s.next (fun w => w.startOp c (fun w => w.act c a))

/-! ## ROPE (R206) -/

/-- The row and column of patch k with so many columns of patches: raster, or window by window (R212). -/
def patchPlace (order window cols k : Nat) : Nat × Nat :=
  let cols := max 1 cols
  let w := max 1 window
  if order = 0 then (k / cols, k % cols)
  else
    let wi := k / (w * w)
    let i := k % (w * w)
    let per := max 1 (cols / w)
    (wi / per * w + i / w, wi % per * w + i % w)

/-- The same of the program's PATCH op, whose order its patch positions have (R213). -/
def Program.patchAt (p : Program) (k : Nat) : Nat × Nat :=
  match p.ops.find? (fun (o : OpRec) => o.opcode = 0x51) with
  | none => (0, k)
  | some o => patchPlace (o.arg 20 1) (o.arg 21 1) (o.arg 16 2 / max 1 (o.arg 14 1)) k

/-- The partner of a rotated dimension, whether it is the pair's first, its pair, and which position turns it: dimension d of
`rot` in a layout. -/
def ropePair (layout rot d : Nat) : Nat × Bool × Nat :=
  if layout = 0 then (if d % 2 = 0 then (d + 1, true, d / 2) else (d - 1, false, d / 2))
  else if d < rot / 2 then (d + rot / 2, true, d) else (d - rot / 2, false, d - rot / 2)

/-- One head's dimension d after rotation; poison of either of the pair is its own. -/
def ropeDim (a : RopeArgs) (pos row col : Nat) (x : List (Option Rat)) (d : Nat) : Option Fp :=
  if a.rotDims ≤ d then (x.getD d (some 0)).map fpOf
  else
    let half := a.rotDims / 2
    let base := if a.pos = 0 ∨ d < half then 0 else half
    let rot := if a.pos = 0 then a.rotDims else half
    let p := if a.pos = 0 then pos else if d < half then row else col
    let q := ropePair a.layout rot (d - base)
    match x.getD d (some 0), x.getD (base + q.1) (some 0) with
    | some me, some other =>
      let cw := Config.ropeCos a.base rot q.2.2 p
      let sw := Config.ropeSin a.base rot q.2.2 p
      let u := me * f32Value cw
      let v := other * f32Value sw
      some (openFp 0x105 [fmtFp32.rne me, fmtFp32.rne other, cw, sw] (if q.2.1 then u - v else u + v) (absRat u + absRat v))
    | _, _ => none

def Work.rope (s : Work) (c : OpCtx) (a : RopeArgs) : Work :=
  let vs := s.buf c.slot c.src0 c.m
  let p := s.stepProgram c.slot
  let hd := max 1 a.headDim
  s.eachVec c vs.length (s.bufFormat c.slot c.dst) (fun (i : Nat) =>
    let v := vs.getD i (.words 6 [])
    let xs := vecReals v
    let pos := s.positionAt c.slot c.m i
    let rc := p.patchAt pos
    let r := fpList ((List.range xs.length).map (fun (e : Nat) => ropeDim a pos rc.1 rc.2 ((xs.drop (e / hd * hd)).take hd) (e % hd)))
    (r.1, (inputCounts v).plus r.2))

def execRope (c : OpCtx) (a : RopeArgs) (s : State) : Host.Outcome State Fault Refusal := s.next (fun w => w.startOp c (fun w => w.rope c a))

/-! ## ATTN (R208, R209, R305, R321) -/

/-- This die's rank among the dies that share positions. -/
def Work.shardRank (s : Work) (slot set : Nat) : Nat :=
  ((s.setMembers slot set).findIdx? (fun (d : Nat) => d = s.get (Obj.slotDieIndex slot))).getD 0

/-- Whether a die stores a position, and its place among the positions it stores (R209, R305). -/
def shardOwns (shards rank p : Nat) : Bool := shards ≤ 1 || p / 256 % shards = rank

def shardLocal (shards p : Nat) : Nat := if shards ≤ 1 then p else p / 256 / shards * 256 + p % 256

/-- Where an entry's stored position lies: its page and offset; positions held for the step only lie in a page of their own. Assumption log 49, DEDUCED. -/
def Work.kvPlace (s : Work) (slot : Nat) (keep : Bool) (entry loc : Nat) : Option (Nat × Nat) :=
  if !keep then some (2 ^ 32 + entry, loc)
  else
    let pp := max 1 (s.get (Obj.pagePositions slot))
    match s.step.pages.find? (fun (l : PageList) => l.entry = entry) with
    | some l => (l.pages[loc / pp]?).map (fun (g : Nat) => (g, loc % pp))
    | none => none

/-- A page is poisoned in either half's region (R468, R472). -/
def Work.pagePoisoned (s : Work) (page : Nat) : Bool :=
  decide (page < 2 ^ 32) && (List.range 2).any (fun (h : Nat) => s.memPoisoned (h * halfBase + (s.dram.region 6).1 + page * 32768) 32768)

/-- Assumption log 52, DEDUCED. -/
def Work.putKv (s : Work) (x : KvPos) : Work :=
  s.modStep (fun y => { y with kv := y.kv.filter (fun (k : KvPos) => !(k.page = x.page && k.off = x.off && k.slot = x.slot && k.seq = x.seq)) ++ [x] })

/-- New K and V of a vector, requantised with draws of stream 5 and stored where they belong (R161, R209). -/
def Work.storeKv (s : Work) (c : OpCtx) (a : AttnArgs) (i : Nat) : Work :=
  match s.laneAt c.slot c.m i with
  | none => s
  | some l =>
    let p := s.positionAt c.slot c.m i
    if !shardOwns a.shards (s.shardRank c.slot a.set) p then s
    else match s.kvPlace c.slot a.keep l.entry (shardLocal a.shards p) with
      | none => s
      | some (page, off) =>
        let die := s.get (Obj.slotDieIndex c.slot)
        let seed := a.seeds.getD i 0
        let draw := fun (which e : Nat) => some (srDraw seed 5 l.laneStep c.layer (Config.wholeIndex die c.slot (2 * c.seq + which) (p * 65536 + e)))
        let k := writeVec a.kvFmt (draw 0) (vecReals ((s.buf c.slot c.src1 c.m).getD i (.words 6 [])))
        let v := writeVec a.kvFmt (draw 1) (vecReals ((s.buf c.slot c.src2 c.m).getD i (.words 6 [])))
        let key : VecKey := ⟨c.slot, c.m, i⟩
        let s := s.countInputs key [(s.buf c.slot c.src1 c.m).getD i (.words 6 []), (s.buf c.slot c.src2 c.m).getD i (.words 6 [])]
        ((s.countEnc key k.2).countEnc key v.2).putKv ⟨page, off, c.slot, c.seq, k.1, v.1⟩

/-- Whether a vector at position p of a lane sees position q (R208, R321): committed positions and its own lane's up to itself, or
as its mask says. -/
def attnSees (prog : Program) (mask window : Nat) (l : Lane) (p q : Nat) : Bool :=
  let all := l.pos + l.count
  if mask = 0 then decide (q ≤ p)
  else if mask = 1 then decide (q < all)
  else if mask = 2 then decide (q ≤ p) && decide (p < q + window)
  else if mask = 3 then
    let w := max 1 window
    let a := prog.patchAt p
    let b := prog.patchAt q
    decide (q < all) && a.1 / w = b.1 / w && a.2 / w = b.2 / w
  else decide (q ≤ p) || (l.code ≠ 0 && decide (q < all))

/-- What one query head makes of the positions it sees: the maximum, the sum and the output elements, as words. -/
structure HeadOut where
  m : Nat
  s : Nat
  o : List Nat
  deriving DecidableEq, Repr

def headOut (scale : Nat) (q : List Rat) (ks vs : List (List Rat)) : HeadOut × EncCounts :=
  let zs := ks.map (fun (k : List Rat) => let d := dotFp q k; (fpOf (f32Value scale * d.value)).after [d])
  match zs.map (·.word) with
  | [] => (⟨Config.emptyMax, 0, q.map (fun (_ : Rat) => 0)⟩, EncCounts.none)
  | z :: rest =>
    let m := rest.foldl (fun (b : Nat) (x : Nat) => if f32Value b < f32Value x then x else b) z
    let es := zs.map (fun (x : Fp) => let d := fpOf (x.value - f32Value m); (expFp d.word).after [d])
    let sum := sumFps es
    let outs := (List.range q.length).map (fun (d : Nat) =>
      let terms := (es.zip vs).map (fun (p : Fp × List Rat) => p.1.value * p.2.getD d 0)
      openFp 0x106 (sum.word :: es.map (·.word) ++ vs.map (fun (v : List Rat) => fmtFp32.rne (v.getD d 0)))
        (terms.foldl (· + ·) 0 / sum.value) ((terms.map absRat).foldl (· + ·) 0 / sum.value))
    (⟨m, sum.word, outs.map (·.word)⟩, fpCounts (sum :: zs ++ outs))

/-- The op that stored the K and V an ATTN reads in the request's pages: itself with KEEP 1; with KEEP 0 one of the program's that keep
them (R209, R218), which one the spec does not say (assumption log 137, DESIGN CHOICE). -/
def Work.kvOp (s : Work) (c : OpCtx) (keep : Bool) : Nat :=
  if keep then c.seq
  else
    let keepers := ((s.stepProgram c.slot).ops.zipIdx.filter (fun (x : OpRec × Nat) => x.1.opcode = 0x30 && bitAt (x.1.arg 26 1) 7)).map (·.2)
    keepers.getD (Config.kvOp c.slot c.seq % max 1 keepers.length) c.seq

/-- The K and V of a position: new in the step where the op holds them for it alone, otherwise in the request's pages. -/
def Work.kvAt (s : Work) (c : OpCtx) (a : AttnArgs) (entry loc : Nat) : Option KvPos :=
  let at_ := fun (keep : Bool) (seq : Nat) => match s.kvPlace c.slot keep entry loc with
    | some (page, off) => s.step.kv.find? (fun (k : KvPos) => k.page = page && k.off = off && k.slot = c.slot && k.seq = seq)
    | none => none
  if a.keep then at_ true c.seq
  else match at_ false c.seq with
    | some k => some k
    | none => at_ true (s.kvOp c false)

/-- The stored positions a vector sees, ascending, and whether any lies in a poisoned page. -/
def Work.kvSeen (s : Work) (c : OpCtx) (a : AttnArgs) (l : Lane) (p : Nat) : List KvPos × Bool :=
  let rank := s.shardRank c.slot a.set
  let prog := s.stepProgram c.slot
  let got := (List.range (l.pos + l.count)).filterMap (fun (q : Nat) =>
    if shardOwns a.shards rank q && attnSees prog a.mask a.window l p q then s.kvAt c a l.entry (shardLocal a.shards q) else none)
  (got, got.any (fun (k : KvPos) => s.pagePoisoned k.page))

/-- The output of one vector: per query head the weighted values, or with shards an attention record (R204). -/
def Work.attnVector (s : Work) (c : OpCtx) (a : AttnArgs) (i : Nat) : List (Option Rat) × EncCounts :=
  let q := (s.buf c.slot c.src0 c.m).getD i (.words 6 [])
  match s.laneAt c.slot c.m i with
  | none => (allPoison (vecReals q), EncCounts.none)
  | some l =>
    let seen := s.kvSeen c a l (s.positionAt c.slot c.m i)
    let group := max 1 (a.qHeads / max 1 a.kvHeads)
    let out := if 1 < a.shards then a.qHeads * (2 + a.headDim) else a.qHeads * a.headDim
    if vecPoisoned q || seen.2 || seen.1.any (fun (k : KvPos) => vecPoisoned k.k || vecPoisoned k.v) then (List.replicate out none, EncCounts.none)
    else
      let w := writeVec a.kvFmt noDraw (vecReals q)
      let qs := plainReals w.1
      let part := fun (x : List Rat) (n : Nat) => (x.drop (n * a.headDim)).take a.headDim
      let hs := (List.range a.qHeads).map (fun (h : Nat) =>
        headOut a.scale (part qs h) (seen.1.map (fun (k : KvPos) => part (plainReals k.k) (h / group)))
          (seen.1.map (fun (k : KvPos) => part (plainReals k.v) (h / group))))
      (hs.flatMap (fun (r : HeadOut × EncCounts) =>
          (if 1 < a.shards then [some (f32Value r.1.m), some (f32Value r.1.s)] else []) ++ r.1.o.map (fun (w : Nat) => some (f32Value w))),
        (hs.map (·.2)).foldl EncCounts.plus ((inputCounts q).plus w.2))

def Work.attn (s : Work) (c : OpCtx) (a : AttnArgs) : Work :=
  let n := (s.buf c.slot c.src0 c.m).length
  let s := (List.range n).foldl (fun (s : Work) (i : Nat) => s.storeKv c a i) s
  s.eachVec c n (s.bufFormat c.slot c.dst) (fun (i : Nat) => s.attnVector c a i)

def execAttn (c : OpCtx) (a : AttnArgs) (s : State) : Host.Outcome State Fault Refusal := s.next (fun w => w.startOp c (fun w => w.attn c a))

/-! ## ROUTE (R210, R211) -/

/-- Insert an expert's logit into a list in descending order, lower expert first on a tie. -/
def insertLogit (x : Nat × Nat) : List (Nat × Nat) → List (Nat × Nat)
  | [] => [x]
  | y :: l => if f32Value y.2 < f32Value x.2 then x :: y :: l else y :: insertLogit x l

/-- Experts and their weights as FP16 words: the TOP_K largest logits; and what forming them counts. -/
def routeOf (topK weighting : Nat) (logits : List Nat) : List (Nat × Nat) × EncCounts :=
  let order := logits.zipIdx.foldl (fun (acc : List (Nat × Nat)) (p : Nat × Nat) => insertLogit (p.2, p.1) acc) []
  let top := order.take topK
  let m := (order.headD (0, 0)).2
  let f := fun (z : Nat) => if weighting = 2 then builtin 4 z else let d := fpOf (f32Value z - f32Value m); (expFp d.word).after [d]
  let sum := sumFps ((if weighting = 0 then order else top).map (fun (p : Nat × Nat) => f p.2))
  let ws := top.map (fun (p : Nat × Nat) => fpDiv (f p.2).value sum.value)
  ((top.zip ws).map (fun (p : (Nat × Nat) × Fp) => (p.1.1, fmtFp16.rne p.2.value)), fpCounts (sum :: ws))

def Work.route (s : Work) (c : OpCtx) (a : RouteArgs) : Work :=
  let vs := s.buf c.slot c.src0 c.m
  let rows := (List.range a.experts).map (fun (e : Nat) => s.sourceRow c.slot c.src1 c.m e)
  ((List.range vs.length).foldl (fun (s : Work) (i : Nat) =>
    let v := vs.getD i (.words 6 [])
    let k : VecKey := ⟨c.slot, c.m, i⟩
    let s := if vecPoisoned v || rows.any vecPoisoned then s.notePoison1 k else s
    let logits := rows.map (fun (w : Vec) => dotFp (plainReals v) (plainReals w))
    let r := routeOf a.topK a.weighting (logits.map (·.word))
    (((s.countInputs k (v :: rows)).countEnc k (fpCounts logits)).countEnc k r.2).setVec c.slot c.dst c.m i (.route r.1)) s).endOp c

def execRoute (c : OpCtx) (a : RouteArgs) (s : State) : Host.Outcome State Fault Refusal :=
  s.next (fun w => w.startOp c (fun w => w.route c a))

/-! ## EMBED and PATCH (R212, R213) -/

def Work.embed (s : Work) (c : OpCtx) (a : EmbedArgs) : Work :=
  let vs := s.buf c.slot c.src0 c.m
  let n := s.bufElements c.slot c.dst
  let rows := vs.map (fun (v : Vec) => match v with
    | .words _ [some t] => s.sourceRow c.slot c.src1 c.m t
    | _ => .words 6 (List.replicate n none))
  let s := rows.zipIdx.foldl (fun (s : Work) (p : Vec × Nat) => s.countWiden ⟨c.slot, c.m, p.2⟩ a.outFmt p.1) s
  s.eachVec c vs.length a.outFmt (fun (i : Nat) =>
    let v := rows.getD i (.words 6 [])
    ((vecReals v).take n, inputCounts v))

def execEmbed (c : OpCtx) (a : EmbedArgs) (s : State) : Host.Outcome State Fault Refusal :=
  s.next (fun w => w.startOp c (fun w => w.embed c a))

/-- The tile of a vector's lane, and the vector's place among the lane's patches. -/
def Work.tileOf (s : Work) (c : OpCtx) (i : Nat) : Vec × Nat :=
  match (s.mbVectors c.slot c.m)[i]?, s.laneAt c.slot c.m i with
  | some g, some l =>
    let k := ((s.mbLanes c.slot c.m).findIdx? (fun (p : Nat × Lane) => p.2.first = l.first)).getD 0
    ((s.buf c.slot c.src0 c.m).getD k (.words 4 []), g - l.first)
  | _, _ => (.words 4 [], 0)

/-- The inputs of a patch, in band, row and column order, normalised band by band. -/
def patchInputs (a : PatchArgs) (tile : List (Option Rat)) (norms : List (Option Nat)) (row col : Nat) : List (Option Rat) :=
  (List.range a.bands).flatMap (fun (b : Nat) => (List.range a.side).flatMap (fun (y : Nat) => (List.range a.side).map (fun (x : Nat) =>
    match tile.getD (b * a.width * a.height + (row * a.side + y) * a.width + col * a.side + x) (some 0),
        norms.getD (2 * b) (some 0), norms.getD (2 * b + 1) (some 0) with
    | some v, some o, some k => some (f32Value (Config.patchNorm v o k))
    | _, _, _ => none)))

/-- FP32 words of a source, row after row; `none` is poison. -/
def Work.sourceWords (s : Work) (slot h m : Nat) : List (Option Nat) :=
  (List.range (s.sourceRows slot h m)).flatMap (fun (i : Nat) => (vecReals (s.sourceRow slot h m i)).map (fun (x : Option Rat) => x.map fmtFp32.rne))

/-- A sum of products; poison of a factor is the sum's. -/
def dotVec (a b : List (Option Rat)) : Option Fp :=
  if a.any Option.isNone || b.any Option.isNone then none
  else some (dotFp (a.map (fun (x : Option Rat) => x.getD 0)) (b.map (fun (x : Option Rat) => x.getD 0)))

def Work.patch (s : Work) (c : OpCtx) (a : PatchArgs) : Work :=
  let norms := s.sourceWords c.slot c.src2 c.m
  let rows := (List.range (s.bufElements c.slot c.dst)).map (fun (j : Nat) => s.sourceRow c.slot c.src1 c.m j)
  s.eachVec c (s.mbVectors c.slot c.m).length a.outFmt (fun (i : Nat) =>
    let t := s.tileOf c i
    let rc := patchPlace a.order a.window (a.width / max 1 a.side) t.2
    let xs := patchInputs a (vecReals t.1) norms rc.1 rc.2
    let r := fpList (rows.map (fun (w : Vec) => dotVec xs (vecReals w)))
    (r.1, (rows.map inputCounts).foldl EncCounts.plus ((inputCounts t.1).plus r.2)))

def execPatch (c : OpCtx) (a : PatchArgs) (s : State) : Host.Outcome State Fault Refusal :=
  s.next (fun w => w.startOp c (fun w => w.patch c a))

/-! ## HEAD (R212, R213, R297) -/

/-- The mask of a vector: its lane's row at its place, over the die's vocabulary range (R294, R328). -/
def Work.maskOf (s : Work) (c : OpCtx) (i : Nat) : Option (List Byte × Bool) :=
  match (s.mbVectors c.slot c.m)[i]? with
  | none => none
  | some g =>
    match s.body.lanes.zipIdx.find? (fun (p : Lane × Nat) => p.1.slot = c.slot && p.1.first ≤ g && g < p.1.first + p.1.count) with
    | none => none
    | some (l, lane) =>
      if !l.masked then none
      else match s.step.masks.find? (fun (x : MaskSet) => x.slot = c.slot) with
        | none => none
        | some x =>
          let pos := if l.code = 0 then g - l.first else 0
          (x.rows.find? (fun (r : Nat × Nat × List Byte) => r.1 = lane && r.2.1 = pos)).map (fun (r : Nat × Nat × List Byte) => (r.2.2, x.poison))

/-- Token t of the range is allowed. -/
def maskHas (m : Option (List Byte × Bool)) (t : Nat) : Bool :=
  match m with
  | some (b, _) => bitAt (leAt b (t / 8) 1) (t % 8)
  | none => true

/-- Whether HEAD runs on a vector: of a decode lane, or the last of a PREFILL_LAST record (R297). -/
def Work.heads (s : Work) (c : OpCtx) (i : Nat) : Option Lane :=
  match (s.mbVectors c.slot c.m)[i]?, s.laneAt c.slot c.m i with
  | some g, some l => if l.code = 0 ∨ (l.code = 2 ∧ g + 1 = l.first + l.count) then some l else none
  | _, _ => none

/-- The candidate record of a vector, and what forming it counts. -/
def candRecord (a : HeadArgs) (temperature : Nat) (logits : List Nat) (m : Option (List Byte × Bool)) : CandRec × EncCounts :=
  let order := logits.zipIdx.foldl (fun (acc : List (Nat × Nat)) (p : Nat × Nat) =>
    if maskHas m p.2 then insertLogit (a.vocabBase + p.2, p.1) acc else acc) []
  let z := match order with
    | x :: _ => x.2
    | [] => Config.emptyMax
  let t := f32Value temperature
  let sum : Fp := if t = 0 then ⟨0x3F800000, 0, 0⟩
    else sumFps (order.map (fun (p : Nat × Nat) => let d := fpOf ((f32Value p.2 - f32Value z) / t); (expFp d.word).after [d]))
  (⟨z, sum.word, order.take a.candN, match m with | some (_, p) => p | none => false⟩, fpCounts [sum])

/-- The logits of a vector. A token the mask excludes has none; what stands in its place in LOGITS mode the spec does not say (assumption
log 136, DESIGN CHOICE). -/
def headLogits (logits : List (Option Fp)) (m : Option (List Byte × Bool)) : Vec :=
  .words 6 (logits.zipIdx.map (fun (p : Option Fp × Nat) => if maskHas m p.2 then p.1.map (·.word) else some Config.maskedLogit))

def Work.head (s : Work) (c : OpCtx) (a : HeadArgs) : Work :=
  let vs := s.buf c.slot c.src0 c.m
  let rows := (List.range a.vocabCount).map (fun (t : Nat) => s.sourceRow c.slot c.src1 c.m t)
  ((List.range vs.length).foldl (fun (s : Work) (i : Nat) =>
    let v := vs.getD i (.words 6 [])
    match s.heads c i with
    | none => s
    | some l =>
      let k : VecKey := ⟨c.slot, c.m, i⟩
      let logits := rows.map (fun (w : Vec) => dotVec (vecReals v) (vecReals w))
      let mask := if c.src2 = 0xFFFF then none else s.maskOf c i
      let bad := logits.any Option.isNone || (match mask with | some (_, p) => p | none => false)
      let s := if bad then s.notePoison1 k else s
      let s := (s.countInputs k (v :: rows)).countEnc k (fpCounts (logits.filterMap id))
      if a.mode = 0 then s.setVec c.slot c.dst c.m i (headLogits logits mask)
      else
        let r := candRecord a l.temperature (logits.map (fun (x : Option Fp) => (x.map (·.word)).getD 0)) mask
        (s.countEnc k r.2).setVec c.slot c.dst c.m i (.cand { r.1 with poison := r.1.poison || bad })) s).endOp c

def execHead (c : OpCtx) (a : HeadArgs) (s : State) : Host.Outcome State Fault Refusal :=
  s.next (fun w => w.startOp c (fun w => w.head c a))

/-! ## CONVERT and COPY (R214) -/

def Work.convert (s : Work) (c : OpCtx) (a : ConvertArgs) : Work :=
  let vs := s.buf c.slot c.src0 c.m
  let die := s.get (Obj.slotDieIndex c.slot)
  ((List.range vs.length).foldl (fun (s : Work) (i : Nat) =>
    let draws : Nat → Option Nat := if !a.stochastic || (4 ≤ a.outFmt && isBlocks (vs.getD i (.words 6 []))) then noDraw else match s.laneAt c.slot c.m i with
      | some l => fun (e : Nat) => some (srDraw (a.seeds.getD i 0) 6 l.laneStep c.layer
          (Config.wholeIndex die c.slot c.seq (s.positionAt c.slot c.m i * 65536 + e)))
      | none => noDraw
    ((s.countInputs ⟨c.slot, c.m, i⟩ [vs.getD i (.words 6 [])]).writeResult c i a.outFmt draws (vecReals (vs.getD i (.words 6 [])))).countWiden ⟨c.slot, c.m, i⟩ a.outFmt (vs.getD i (.words 6 []))) s).endOp c

def execConvert (c : OpCtx) (a : ConvertArgs) (s : State) : Host.Outcome State Fault Refusal :=
  s.next (fun w => w.startOp c (fun w => w.convert c a))

/-- A list with a run of elements replaced, extended with a filler as needed. -/
def splice {α : Type} (fill : α) (old : List α) (off : Nat) (new : List α) : List α :=
  (old.take off ++ List.replicate (off - old.length) fill) ++ new ++ old.drop (off + new.length)

/-- Elements of a block vector put into another at an offset within a block: each block they fall in is encoded again; one that is B8, or
takes elements of a B8 block, stays B8 (R158). -/
def mixBlocks (fmt : Nat) (base src : List Blk) (a : CopyArgs) : List Blk × EncCounts :=
  let xs := splice (some 0) (vecReals (.blocks base)) a.dstOffset (((vecReals (.blocks src)).drop a.srcOffset).take a.elements)
  let wide := fun (b : Nat) =>
    (base.getD b ⟨false, 0, []⟩).b8 || (List.range 32).any (fun (i : Nat) =>
      let e := 32 * b + i
      decide (a.dstOffset ≤ e) && decide (e < a.dstOffset + a.elements) && (src.getD ((e - a.dstOffset + a.srcOffset) / 32) ⟨false, 0, []⟩).b8)
  let rs := (blocksOf32 (xs.length / 32 + 1) xs).mapIdx (fun (b : Nat) (ys : List (Option Rat)) =>
    if decide (32 * (b + 1) ≤ a.dstOffset) || decide (a.dstOffset + a.elements ≤ 32 * b) then
      (base.getD b ⟨decide (fmt = 1), 0, List.replicate 32 (some 0)⟩, EncCounts.none)
    else encodeBlock (fmt = 0 && !wide b) noDraw ys)
  (rs.map (·.1), (rs.map (·.2)).foldl EncCounts.plus EncCounts.none)

/-- A vector with elements of another of its format copied in, and what that counts; block vectors move whole blocks, or are encoded again
where an offset falls within a block. -/
def copyInto (fmt : Nat) (old src : Vec) (a : CopyArgs) : Vec × EncCounts :=
  match src with
  | .words f ws =>
    let base := match old with
      | .words _ xs => xs
      | _ => []
    (.words f (splice (some 0) base a.dstOffset ((ws.drop a.srcOffset).take a.elements)), EncCounts.none)
  | .blocks bs =>
    let base := match old with
      | .blocks xs => xs
      | _ => []
    if a.srcOffset % 32 = 0 ∧ a.dstOffset % 32 = 0 ∧ a.elements % 32 = 0 then
      (.blocks (splice ⟨decide (fmt = 1), 0, List.replicate 32 (some 0)⟩ base (a.dstOffset / 32) ((bs.drop (a.srcOffset / 32)).take (a.elements / 32))),
        EncCounts.none)
    else
      let r := mixBlocks fmt base bs a
      (.blocks r.1, r.2)
  | .cand r => (.cand r, EncCounts.none)
  | .route es => (.route es, EncCounts.none)
  | .mask b p => (.mask b p, EncCounts.none)

def Work.copy (s : Work) (c : OpCtx) (a : CopyArgs) : Work :=
  let vs := s.buf c.slot c.src0 c.m
  let fmt := s.bufFormat c.slot c.dst
  ((List.range vs.length).foldl (fun (s : Work) (i : Nat) =>
    let src := vs.getD i (.words 6 [])
    let new := copyInto fmt ((s.buf c.slot c.dst c.m).getD i (if fmt ≤ 1 then .blocks [] else .words fmt [])) src a
    let k : VecKey := ⟨c.slot, c.m, i⟩
    let s := (s.setVec c.slot c.dst c.m i new.1).countEnc k new.2
    if vecPoisoned new.1 then s.notePoison1 k else s) s).endOp c

def execCopy (c : OpCtx) (a : CopyArgs) (s : State) : Host.Outcome State Fault Refusal := s.next (fun w => w.startOp c (fun w => w.copy c a))

end Sys2Proof.Machine
end

