-- ==== Sys2Proof/Machine/Collect.lean ====
section
/-! DEFINITION. The collective ops and their messages: REDUCE, GATHER and BARRIER (R202 to R205, R214, R394 to R397, R400). -/

namespace Sys2Proof.Machine

/-! ## Sets, ranks and trees (R202, R394) -/

/-- The member that holds the die at a rank of a set. Assumption log 53, DESIGN CHOICE. -/
def Work.holder (s : Work) (slot : Nat) (members : List Nat) (rank : Nat) : Nat :=
  Config.dieHolder (s.get Obj.groupEpoch) slot (members.getD rank 0)

/-- The number of trailing zero bits, at most 8. -/
def lowBit (r : Nat) : Nat := ((List.range 8).find? (fun (b : Nat) => bitAt r b)).getD 8

/-- The parent of rank r in the tree of n members rooted at rank j. -/
def treeUp (n j r : Nat) : Nat :=
  let r' := (r + n - j) % n
  ((r' - 2 ^ lowBit r') + j) % n

/-- The children of rank r, by ascending b. -/
def treeDown (n j r : Nat) : List Nat :=
  let r' := (r + n - j) % n
  ((List.range (lowBit r')).filter (fun (b : Nat) => decide (r' + 2 ^ b < n))).map (fun (b : Nat) => (r' + 2 ^ b + j) % n)

/-! ## Vectors cut and joined -/

/-- Elements [off, off + len) of a vector; blocks are cut at multiples of 32. -/
def vecCut (v : Vec) (off len : Nat) : Vec :=
  match v with
  | .blocks bs => .blocks ((bs.drop (off / 32)).take ((len + 31) / 32))
  | .words f ws => .words f ((ws.drop off).take len)
  | .cand c => .cand c
  | .route es => .route es
  | .mask b p => .mask b p

/-- One vector after another. -/
def vecJoin : Vec → Vec → Vec
  | .blocks a, .blocks b => .blocks (a ++ b)
  | .words f a, .words _ b => .words f (a ++ b)
  | .route a, .route b => .route (a ++ b)
  | .mask a p, .mask b q => .mask (a ++ b) (p || q)
  | .blocks a, .words _ _ => .blocks a
  | .blocks a, .cand _ => .blocks a
  | .blocks a, .route _ => .blocks a
  | .blocks a, .mask _ _ => .blocks a
  | .words f a, .blocks _ => .words f a
  | .words f a, .cand _ => .words f a
  | .words f a, .route _ => .words f a
  | .words f a, .mask _ _ => .words f a
  | .cand c, _ => .cand c
  | .route a, .blocks _ => .route a
  | .route a, .words _ _ => .route a
  | .route a, .cand _ => .route a
  | .route a, .mask _ _ => .route a
  | .mask a p, .blocks _ => .mask a p
  | .mask a p, .words _ _ => .mask a p
  | .mask a p, .cand _ => .mask a p
  | .mask a p, .route _ => .mask a p

/-- A vector's elements as FP32 words, exactly (R204). -/
def vecWords (v : Vec) : List (Option Nat) := (vecReals v).map (fun (x : Option Rat) => x.map fmtFp32.rne)

/-- The bytes of a vector in reduction traffic: whole beats of 64 bytes (R151). -/
def wireBytes : Vec → Nat
  | .blocks bs => 64 * (beats bs).length
  | .words f ws => alignUp (ws.length * wordBytes f) 64
  | .cand c => alignUp (16 + 8 * c.cands.length) 64
  | .route es => alignUp (3 * es.length) 64
  | .mask b _ => alignUp b.length 64

/-! ## Combining (R204, R395) -/

/-- One FP32 addition or maximum: the word, and whether it saturated. -/
def combineWord (oper : Nat) (a b : Nat) : Nat × Bool :=
  let x := (fmtFp32.value a).1
  let y := (fmtFp32.value b).1
  if oper = 1 then (if x < y then b else a, false)
  else
    let r := fmtFp32.write .nearest (x + y)
    (r.1, r.2.1)

/-- Combine element by element: the words, and how many additions saturated. -/
def combineWords (oper : Nat) (a b : List (Option Nat)) : List (Option Nat) × Nat :=
  let rs := a.zipIdx.map (fun (p : Option Nat × Nat) =>
    match p.1, b.getD p.2 none with
    | some x, some y => (some (combineWord oper x y).1, bit (combineWord oper x y).2)
    | _, _ => (none, 0))
  (rs.map (·.1), sumNat (rs.map (·.2)))

/-- Combine two attention records of 2 + d words: maximum, sum, output (R204), and what it counts. Assumption log 58, DEDUCED. -/
def lseRecord (a b : List Nat) : List Nat × EncCounts :=
  let m := (combineWord 1 (a.getD 0 0) (b.getD 0 0)).1
  let share := fun (r : List Nat) =>
    let d := fpOf (f32Value (r.getD 0 0) - f32Value m)
    let e := expFp d.word
    (fpOf (f32Value (r.getD 1 0) * e.value)).after [d, e]
  let ta := share a
  let tb := share b
  let s := fpOf (ta.value + tb.value)
  let os := (List.range (a.length - 2)).map (fun (i : Nat) =>
    let x := f32Value (a.getD (i + 2) 0) * ta.value
    let y := f32Value (b.getD (i + 2) 0) * tb.value
    if s.value = 0 then fpDiv (x + y) 0
    else openFp 0x107 [a.getD (i + 2) 0, b.getD (i + 2) 0, ta.word, tb.word, s.word] ((x + y) / s.value) ((absRat x + absRat y) / absRat s.value))
  ([m, s.word] ++ os.map (·.word), fpCounts ([ta, tb, s] ++ os))

/-- Combine vectors of attention records; a segment that cuts a record is open as a whole (assumption log 28, DESIGN CHOICE). -/
def lseWords (size : Nat) (a b : List (Option Nat)) : List (Option Nat) × EncCounts :=
  if a.any Option.isNone || b.any Option.isNone then (a.map (fun (_ : Option Nat) => none), EncCounts.none)
  else
    let x := a.map (fun (w : Option Nat) => w.getD 0)
    let y := b.map (fun (w : Option Nat) => w.getD 0)
    if size ≠ 0 ∧ x.length % size = 0 then
      let rs := (List.range (x.length / size)).map (fun (h : Nat) => lseRecord ((x.drop (h * size)).take size) ((y.drop (h * size)).take size))
      ((rs.flatMap (·.1)).map some, (rs.map (·.2)).foldl EncCounts.plus EncCounts.none)
    else ((List.range x.length).map (fun (i : Nat) => some (Config.lseCut x y i)), EncCounts.none)

/-- Words of a record of attention: two and HEAD_DIM of SHAPE (R204, R219). -/
def Work.lseSize (s : Work) (slot : Nat) : Nat := 2 + leAt ((s.slot slot).section 0x02) 20 2

/-- Combine a child's partial into an accumulation, vector by vector: the result, and what each vector counts. -/
def Work.combine (s : Work) (x : CollRun) (acc part : List Vec) : List Vec × List EncCounts :=
  let rs := acc.zipIdx.map (fun (p : Vec × Nat) =>
    let a := vecWords p.1
    let b := vecWords (part.getD p.2 (.words 6 (a.map (fun (_ : Option Nat) => none))))
    if x.args.kind = 2 then
      let r := lseWords (s.lseSize x.slot) a b
      (Vec.words 6 r.1, r.2)
    else
      let r := combineWords x.args.oper a b
      (Vec.words 6 r.1, { EncCounts.none with fpSat := r.2, events := r.2 }))
  (rs.map (·.1), rs.map (·.2))

/-! ## A collective instance on this die -/

def Work.putColl (s : Work) (x : CollRun) : Work :=
  s.modStep (fun y => { y with colls := y.colls.map (fun (z : CollRun) => if z.slot = x.slot ∧ z.seq = x.seq ∧ z.m = x.m then x else z) })

/-- Bytes sent on the reduction lane, at the edge router the op names (R203, R409). -/
def Work.countEdge (s : Work) (x : CollRun) (data : List Vec) : Work :=
  let n := sumNat (data.map wireBytes)
  let east : Bool := match x.args.edge with
    | 0 => match (s.stepProgram x.slot).ops[x.seq]? with
      | some o => decide ((s.stepProgram x.slot).srcHalf (s.placement x.slot) x.seq o ≠ 0)
      | none => false
    | 1 => false
    | _ => true
  s.add (if east then Obj.reduceBytesEast else Obj.reduceBytesWest) n

def stepNumber (s : Work) : Nat :=
  match s.step.running with
  | some (h, _) => h.step
  | none => 0

/-- The part or result a member has sent of a segment. -/
def findPart (l : List CollPart) (x : CollRun) (segment src : Nat) : Option CollPart :=
  l.find? (fun (p : CollPart) => p.slot = x.slot && p.seq = x.seq && p.m = x.m && p.segment = segment && p.src = src)

def Work.partOut (s : Work) (x : CollRun) (segment : Nat) (data : List Vec) : CollPart :=
  ⟨s.ownDevice, stepNumber s, x.slot, x.seq, x.m, segment, data.any vecPoisoned, data⟩

/-- Send to the ranks given. -/
def Work.toRanks (s : Work) (x : CollRun) (ranks : List Nat) (data : List Vec) (m : FabricMsg) : Work :=
  ranks.foldl (fun (s : Work) (r : Nat) => (s.toMember (s.holder x.slot x.members r) m).countEdge x data) s

/-- What a combination counts goes against the vectors' requests (R154, R164). -/
def Work.countVecs (s : Work) (x : CollRun) (cs : List EncCounts) : Work :=
  cs.zipIdx.foldl (fun (s : Work) (p : EncCounts × Nat) => s.countEnc ⟨x.slot, x.m, p.2⟩ p.1) s

/-- What a die contributes of a vector: poison anywhere in it poisons the whole result (R204). -/
def contribution (v : Vec) : Vec := if vecPoisoned v then .words 6 ((vecReals v).map (fun (_ : Option Rat) => none)) else v

/-- The result of a segment at its root, rounded once to FMT (R204). -/
def Work.roundSegment (s : Work) (x : CollRun) (acc : List Vec) : List Vec × Work :=
  acc.zipIdx.foldl (fun (r : List Vec × Work) (p : Vec × Nat) =>
    let w := writeVec x.args.fmt noDraw (vecReals p.1)
    (r.1 ++ [w.1], r.2.countEnc ⟨x.slot, x.m, p.2⟩ w.2)) ([], s)

/-- One segment of a REDUCE, as far as it can go (R395, R396). -/
def Work.reduceSegment (s : Work) (x : CollRun) (j : Nat) : CollRun × Work :=
  let n := x.members.length
  let kids := treeDown n j x.rank
  let whole : Bool := decide (x.args.kind ≠ 1)
  let parts := kids.filterMap (fun (c : Nat) => findPart s.step.partsIn x j (s.holder x.slot x.members c))
  let up : CollRun × Work :=
    if x.sent.contains j || parts.length ≠ kids.length then (x, s)
    else
      let len := x.args.elements / n
      let own := x.own.map (fun (v : Vec) => vecCut (contribution v) (j * len) len)
      let r := parts.foldl (fun (r : List Vec × Work) (p : CollPart) =>
        let c := s.combine x r.1 p.data
        (c.1, r.2.countVecs x c.2)) (own, s)
      let x := { x with sent := x.sent ++ [j] }
      if x.rank = j then
        let q := r.2.roundSegment x r.1
        let x := { x with results := x.results ++ [(j, q.1)] }
        (x, if whole then q.2.toRanks x kids q.1 (.reduceResult (q.2.partOut x j q.1)) else q.2)
      else (x, r.2.toRanks x [treeUp n j x.rank] r.1 (.reducePart (r.2.partOut x j r.1)))
  let x := up.1
  let s := up.2
  if !whole || x.results.any (fun (p : Nat × List Vec) => p.1 = j) then (x, s)
  else match findPart s.step.resultsIn x j (s.holder x.slot x.members (treeUp n j x.rank)) with
    | some p => ({ x with results := x.results ++ [(j, p.data)] }, s.toRanks x kids p.data (.reduceResult (s.partOut x j p.data)))
    | none => (x, s)

/-- One contribution of a GATHER ALL, as far as it can go: taken, and forwarded down the contributor's tree (R396). -/
def Work.gatherSegment (s : Work) (x : CollRun) (j : Nat) : CollRun × Work :=
  if x.results.any (fun (p : Nat × List Vec) => p.1 = j) then (x, s)
  else
    let n := x.members.length
    let kids := treeDown n j x.rank
    let data : Option (List Vec) :=
      if x.rank = j then some x.own
      else (findPart s.step.partsIn x j (s.holder x.slot x.members (treeUp n j x.rank))).map (·.data)
    match data with
    | some d => ({ x with results := x.results ++ [(j, d)], sent := x.sent ++ [j] }, s.toRanks x kids d (.gatherPart (s.partOut x j d)))
    | none => (x, s)

/-- Vector i of the results, joined in rank order; a poisoned part poisons the vector (R204). -/
def CollRun.vector (x : CollRun) (i : Nat) : Vec :=
  let order := sortOn (·.1) x.results
  match order.filterMap (fun (p : Nat × List Vec) => p.2[i]?) with
  | [] => .words x.args.fmt []
  | v :: vs =>
    let all := vs.foldl vecJoin v
    if !x.gather && vecPoisoned all then poisonVec x.args.fmt (vecReals all).length else all

/-- Whether an instance has all it waits for. -/
def CollRun.complete (x : CollRun) : Bool :=
  (List.range x.members.length).all (fun (j : Nat) => x.sent.contains j &&
    (if !x.gather && x.args.kind = 1 then j ≠ x.rank || x.results.any (fun (p : Nat × List Vec) => p.1 = j)
     else x.results.any (fun (p : Nat × List Vec) => p.1 = j)))

/-- The statistics a member sent for a vector (R206). -/
def statOf (l : List Vec) (i : Nat) : NormStat :=
  match l.getD i (.words 6 []) with
  | .words _ [some n, some a, some b] => ⟨n, a, b⟩
  | _ => ⟨0, 0, 0⟩

/-- Write a complete instance's destination; it ends. A NORM over a set takes the statistics of all. -/
def Work.collDone (s : Work) (x : CollRun) : Work :=
  let s := s.modStep (fun y => { y with colls := y.colls.filter (fun (z : CollRun) => !(z.slot = x.slot && z.seq = x.seq && z.m = x.m)) })
  match x.norm with
  | some n =>
    let order := (sortOn (·.1) x.results).map (·.2)
    s.normAll n.1 n.2 (fun (i : Nat) => normTotal (order.map (fun (l : List Vec) => statOf l i)))
  | none =>
  let vs := (List.range x.own.length).map x.vector
  let s := s.setBuf x.slot x.dst x.m vs
  let s := vs.zipIdx.foldl (fun (s : Work) (p : Vec × Nat) =>
    if vecPoisoned p.1 then (s.countEnc ⟨x.slot, x.m, p.2⟩ (navCounts p.1)).notePoison1 ⟨x.slot, x.m, p.2⟩ else s) s
  let s := if x.gather then s else s.add Obj.reductions 1
  (s.endOp ⟨x.slot, x.seq, x.m, 0, 0, x.dst, 0xFFFF, 0xFFFF, 0xFFFF, true, []⟩).meter Obj.collectiveWaitNs

/-- An instance goes as far as it can. -/
def Work.settleColl (s : Work) (x : CollRun) : Work :=
  let r := (List.range x.members.length).foldl (fun (r : CollRun × Work) (j : Nat) =>
    if x.gather then r.2.gatherSegment r.1 j else r.2.reduceSegment r.1 j) (x, s)
  let s := r.2.putColl r.1
  if r.1.complete then s.collDone r.1 else s

def Work.settleColls (s : Work) : Work := s.step.colls.foldl (fun (s : Work) (x : CollRun) => s.settleColl x) s

/-! ## The ops -/

/-- Start a collective with this die as a member of its set; a die outside the set takes no part. -/
def Work.startColl (s : Work) (c : OpCtx) (gather : Bool) (a : CollArgs) (own : List Vec) (norm : Option (OpCtx × NormArgs)) : Work :=
  let ms := s.setMembers c.slot a.set
  match ms.findIdx? (fun (d : Nat) => d = s.get (Obj.slotDieIndex c.slot)) with
  | none => s.endOp c
  | some r =>
    let x : CollRun := ⟨c.slot, c.seq, c.m, gather, c.dst, a, ms, r, own, [], [], norm⟩
    (s.modStep (fun y => { y with colls := y.colls ++ [x] })).settleColl x

/-- REDUCE of what SRC0 holds. -/
def Work.reduce (s : Work) (c : OpCtx) (a : CollArgs) : Work :=
  let own := s.buf c.slot c.src0 c.m
  (own.zipIdx.foldl (fun (s : Work) (v : Vec × Nat) => s.countInputs ⟨c.slot, c.m, v.2⟩ [v.1]) s).startColl c false a own none

def execReduce (c : OpCtx) (a : CollArgs) (s : State) : Host.Outcome State Fault Refusal :=
  s.next (fun w => w.startOp c (fun w => w.reduce c a))

/-- GATHER TO_MANAGER: the contribution goes to the manager by route, and the instance ends (R205, R396). -/
def Work.gatherToManager (s : Work) (c : OpCtx) : Work :=
  let data := s.buf c.slot c.src0 c.m
  (s.toMember 0 (.gatherPart ⟨s.ownDevice, stepNumber s, c.slot, c.seq, c.m, 0, data.any vecPoisoned, data⟩)).endOp c

def execGather (c : OpCtx) (a : CollArgs) (s : State) : Host.Outcome State Fault Refusal :=
  s.next (fun w => w.startOp c (fun w => if a.kind = 1 then w.gatherToManager c else w.startColl c true a (w.buf c.slot c.src0 c.m) none))

/-- NORM: with local statistics, or with those of every member of its set, which each sends to the others (R206). -/
def Work.norm (s : Work) (c : OpCtx) (a : NormArgs) : Work :=
  let vs := s.buf c.slot c.src0 c.m
  if a.set = 0xFF then s.normAll c a (fun (i : Nat) => normStat (vs.getD i (.words 6 [])))
  else
    let own := vs.map (fun (v : Vec) => let t := (normStat v).1; Vec.words 6 [some t.n, some t.sum, some t.sq])
    (vs.zipIdx.foldl (fun (s : Work) (v : Vec × Nat) => s.countEnc ⟨c.slot, c.m, v.2⟩ (normStat v.1).2) s).startColl c true ⟨a.set, 0, 0, 6, 0, 3⟩ own (some (c, a))

def execNorm (c : OpCtx) (a : NormArgs) (s : State) : Host.Outcome State Fault Refusal :=
  s.next (fun w => w.startOp c (fun w => w.norm c a))

/-! ## Their messages -/

/-- A vector whose flits carry the poison bit: every element of it (R152). -/
def Vec.poisoned : Vec → Vec
  | .blocks bs => .blocks (bs.map (fun (b : Blk) => { b with codes := b.codes.map (fun _ => none) }))
  | .words f ws => .words f (ws.map (fun _ => none))
  | .cand r => .cand { r with poison := true }
  | .route es => .route es
  | .mask b _ => .mask b true

/-- A part as its flits bring it: where they carry poison and no element of the data says which, all of it is. -/
def CollPart.taken (p : CollPart) : CollPart :=
  if p.poison && !p.data.any vecPoisoned then { p with data := p.data.map Vec.poisoned } else p

/-- The running step of this device is the part's, or the part came before it (R397). -/
def Work.keepPart (s : Work) (p : CollPart) (result : Bool) : Work :=
  let p := CollPart.taken p
  let s := if result then s.modStep (fun x => { x with resultsIn := x.resultsIn ++ [p] })
    else (s.modStep (fun x => { x with partsIn := x.partsIn ++ [p] })).meter Obj.combineStallNs
  s.settleColls

/-- The slot whose program on the manager holds its ops: the draft slot (R195). -/
def Work.managerSlot (s : Work) : Option Nat :=
  (List.range 4).find? (fun (n : Nat) => (s.program n).ops.any (fun (o : OpRec) => managerOp o.opcode))

/-- What a GATHER TO_MANAGER brings lands in its DST, a buffer of the manager's draft-slot program: the parts so far in die-index order, vector
by vector (R205). -/
def Work.gatheredInto (s : Work) (p : CollPart) : Work :=
  match s.managerSlot, (s.mainProgram p.slot).ops[p.seq]? with
  | some n, some o =>
    let parts := s.gathered p.slot p.seq p.m
    let count := maxNat (parts.map (fun (q : CollPart) => q.data.length))
    s.setBuf n o.dst p.m ((List.range count).filterMap (fun (i : Nat) =>
      match parts.filterMap (fun (q : CollPart) => q.data[i]?) with
      | [] => none
      | v :: vs => some (vs.foldl vecJoin v)))
  | _, _ => s

/-- GATHER_PART: candidates and encoder output at the manager, a contribution at a worker. -/
def Work.gatherPart (s : Work) (p : CollPart) : Work :=
  if !s.formed then s
  else if s.isManager then
    match s.serve.plan with
    | some q => if q.head.step = p.step then (s.modServe (fun x => { x with candidates := x.candidates ++ [p] })).gatheredInto p else s
    | none => s
  else if s.isWorker then s.keepPart p false
  else s

def execGatherPart (p : CollPart) (s : State) : Host.Outcome State Fault Refusal := s.next (fun w => w.gatherPart p)

/-- REDUCE_PART at a node of the tree. -/
def execReducePart (p : CollPart) (_fmt _oper _kind : Nat) (s : State) : Host.Outcome State Fault Refusal :=
  s.next (fun w => if w.isWorker && w.formed then w.keepPart p false else w)

/-- REDUCE_RESULT from the parent in a segment's tree. -/
def execReduceResult (p : CollPart) (s : State) : Host.Outcome State Fault Refusal :=
  s.next (fun w => if w.isWorker && w.formed then w.keepPart p true else w)

/-! ## BARRIER (R214, R400) -/

/-- Participants' ops before a barrier that must have completed: of its core set, or all of the die's (R214). -/
def Work.barrierReady (s : Work) (c : OpCtx) (scope : Nat) : Bool :=
  let p := s.stepProgram c.slot
  let once : Bool := match p.ops[c.seq]? with
    | some me => !me.mb
    | none => false
  (p.ops.zipIdx.take c.seq).all (fun (x : OpRec × Nat) =>
    (scope = 0 && !(s.opOf c).any (fun (me : OpRec) => s.opsShare c.slot me x.1)) || s.doneBefore c.slot once x.1 x.2 c.m)

def Work.barrierRun (s : Work) (scope id : Nat) : BarrierRun :=
  (s.step.barriers.find? (fun (b : BarrierRun) => b.barrierId = id && b.scope = scope)).getD ⟨id, scope, [], false, []⟩

def Work.setBarrier (s : Work) (x : BarrierRun) : Work :=
  s.modStep (fun y => { y with barriers := y.barriers.filter (fun (b : BarrierRun) => !(b.barrierId = x.barrierId && b.scope = x.scope)) ++ [x] })

/-- A barrier is released here: its oldest instance ends, and the arrivals that made it are used up. -/
def Work.barrierRelease (s : Work) (x : BarrierRun) (used : List Nat) : Work :=
  let s := s.setBarrier { x with arrived := used.foldl (fun (l : List Nat) (d : Nat) => l.erase d) x.arrived, sent := false, waiting := x.waiting.drop 1 }
  match x.waiting with
  | c :: _ => (s.endOp c).meter Obj.collectiveWaitNs
  | [] => s

/-- A barrier goes as far as it can: within a die set once every other die has arrived; in the group up the broadcast tree, and at
the manager back down. -/
def Work.settleBarrier (s : Work) (x : BarrierRun) : Work :=
  if x.scope = 3 then
    let kids := s.workingKids
    let here : Bool := kids.all x.arrived.contains && (!s.isWorker || !x.waiting.isEmpty)
    if !here || x.sent then s.setBarrier x
    else if s.isManager then
      (kids.foldl (fun (s : Work) (d : Nat) => s.toMember d (.barrier 3 x.barrierId true)) s).barrierRelease x kids
    else (s.setBarrier { x with sent := true }).toMember s.treeParent (.barrier 3 x.barrierId false)
  else match x.waiting with
    | [] => s.setBarrier x
    | c :: _ =>
      let ms := match (s.stepProgram c.slot).ops[c.seq]? with
        | some o => s.setMembers c.slot (o.arg 15 1)
        | none => []
      let others := ((List.range ms.length).filter (fun (r : Nat) => ms.getD r 0 ≠ s.get (Obj.slotDieIndex c.slot))).map (fun (r : Nat) => s.holder c.slot ms r)
      let s := if x.sent then s else others.foldl (fun (s : Work) (d : Nat) => s.toMember d (.barrier 2 x.barrierId false)) s
      if others.all x.arrived.contains then s.barrierRelease x others else s.setBarrier { x with sent := true }

/-- BARRIER: within the die, and on a die outside its set, it ends once the ops before it have; across dies it joins the barrier's
messages. -/
def Work.barrier (s : Work) (c : OpCtx) (a : BarrierArgs) : Work :=
  if !s.barrierReady c a.scope then s
  else s.startOp c (fun s =>
    let member := (s.setMembers c.slot a.set).contains (s.get (Obj.slotDieIndex c.slot))
    if a.scope ≤ 1 ∨ (a.scope = 2 ∧ (a.set = 0xFF ∨ member = false)) then s.endOp c
    else
      let x := s.barrierRun a.scope a.barrierId
      s.settleBarrier { x with waiting := x.waiting ++ [c] })

def execBarrier (c : OpCtx) (a : BarrierArgs) (s : State) : Host.Outcome State Fault Refusal := s.next (fun w => w.barrier c a)

/-- BARRIER_MESSAGE: an arrival, or the release that comes down the tree. -/
def Work.barrierMessage (s : Work) (scope id src : Nat) (release : Bool) : Work :=
  if !s.formed then s
  else
    let x := s.barrierRun scope id
    if release then
      let kids := s.workingKids
      (kids.foldl (fun (s : Work) (d : Nat) => s.toMember d (.barrier scope id true)) s).barrierRelease x kids
    else s.settleBarrier { x with arrived := x.arrived ++ [src] }

def execBarrierMessage (scope barrierId src : Nat) (release : Bool) (s : State) : Host.Outcome State Fault Refusal :=
  s.next (fun w => w.barrierMessage scope barrierId src release)

end Sys2Proof.Machine
end

