-- ==== Sys2Proof/Machine/Fabric.lean ====
section
/-! DEFINITION. Heartbeats and timeouts, the standby's mirror and its takeover, and dissolving a group (R399, R401, R404, R405,
R409). -/

namespace Sys2Proof.Machine

/-! ## Heartbeats (R399, R401) -/

/-- A budget as a message leaves for a member: less its residency, which is free here, and the link's latency (R399). -/
def Work.passHeartbeat (s : Work) (d budgetNs : Nat) : Work :=
  let (wait, s) := s.fresh
  let lat : Nat := match s.linkTo d 0x35 with
    | some l => s.get (Obj.linkLatencyNs l)
    | none => 0
  (s.toMember d (.heartbeat (budgetNs - wait - lat))).add Obj.budgetMessages 1

/-- HEARTBEAT_TIMER: no STEP_HEAD has been sent for HEARTBEAT_US, so the manager broadcasts HEARTBEAT, whose budget is the time to
the next. -/
def Work.heartbeatTimer (s : Work) : Work :=
  if !s.isManager || !s.formed then s
  else (s.modGroup (fun g => { g with heartbeatOut := true, acks := [] })).broadcast (.heartbeat (1000 * s.get Obj.heartbeatUs))

def execHeartbeatTimer (s : State) : Host.Outcome State Fault Refusal := s.next (fun w => w.heartbeatTimer)

/-- The worker count up the tree once every child below has answered: at the manager a count of every worker ends the wait. -/
def Work.settleAcks (s : Work) : Work :=
  let kids := s.workingKids
  if !s.group.heartbeatOut || !kids.all (fun (d : Nat) => s.group.acks.any (fun (p : Nat × Nat) => p.1 = d)) then s
  else
    let n := sumNat (s.group.acks.map (·.2)) + bit s.isWorker
    if s.isManager then
      if n = s.get Obj.workerCount then s.modGroup (fun g => { g with heartbeatOut := false, acks := [] }) else s
    else if n = 0 then s
    else (s.modGroup (fun g => { g with heartbeatOut := false, acks := [] })).toMember s.treeParent (.heartbeatAck n)

/-- HEARTBEAT at a member: passed down the tree, and answered up it. -/
def Work.heartbeat (s : Work) (budgetNs : Nat) : Work :=
  if !s.formed || s.isManager then s
  else
    let s := s.treeChildren.foldl (fun (s : Work) (d : Nat) => s.passHeartbeat d budgetNs) s
    (s.modGroup (fun g => { g with heard := true, heartbeatOut := true, acks := [] })).settleAcks

def execHeartbeat (_src budgetNs : Nat) (s : State) : Host.Outcome State Fault Refusal := s.next (fun w => w.heartbeat budgetNs)

/-- HEARTBEAT_ACK of a child's subtree. -/
def Work.heartbeatAck (s : Work) (src workers : Nat) : Work :=
  if !s.formed then s else (s.modGroup (fun g => { g with acks := put g.acks src workers })).settleAcks

def execHeartbeatAck (src workers : Nat) (s : State) : Host.Outcome State Fault Refusal := s.next (fun w => w.heartbeatAck src workers)

/-- STEP_RESULT_TIMEOUT: the manager declares a group fault while the result of the step, or of the heartbeat, is not complete. -/
def Work.resultTimeout (s : Work) : Work :=
  let open_ : Bool := match s.serve.plan with
    | some p => p.result.isNone
    | none => false
  if s.isManager && s.formed && (open_ || s.group.heartbeatOut) then s.groupFatal 4 0xFF 0xFF else s

def execStepResultTimeout (s : State) : Host.Outcome State Fault Refusal := s.next (fun w => w.resultTimeout)

/-! ## The standby (R405) -/

/-- MIRROR: the standby's copy takes the changes. Assumption log 92, DEDUCED. -/
def Work.mirrorIn (s : Work) (x : MirrorMsg) : Work :=
  if !s.isStandby || !s.formed then s
  else
    let s := s.modGroup (fun g => { g with
      heard := true
      mirror := x.entries.foldl (fun (m : List (Nat × List Byte)) (e : Nat × List Byte) => put m e.1 e.2) g.mirror })
    let s := s.modVars (fun v => { v with
      variants := x.variants.map (fun (y : MirrorVariant) => ⟨y.slot, y.id, y.owner, y.pinned, y.next, y.unloaded⟩)
      sets := x.sets.map (fun (y : MirrorSet) => ⟨y.handle, y.slot, y.variant, y.version, y.state, y.ready, y.bytes, y.values, y.lastUsed, y.owner⟩) })
    let s := s.modServe (fun y => { y with
      grammars := x.grammars.map (fun (g : MirrorGrammar) => ⟨g.serial, g.owner, g.id, g.installed, g.bad, g.image⟩) })
    x.objects.foldl (fun (s : Work) (o : MirrorObj) => s.set ⟨o.index, o.sub, o.tenant⟩ o.value) s

def execMirror (x : MirrorMsg) (s : State) : Host.Outcome State Fault Refusal := s.next (fun w => w.mirrorIn x)

/-- The bytes of a mirrored entry that was not terminal, as FAILED with GROUP_FAULT (R281, R283). -/
def failedEntry (b : List Byte) : List Byte := slice b 0 3 ++ toLE 1 10 ++ slice b 4 3 ++ toLE 1 0x24 ++ b.drop 8

/-- MIRROR_TABLE of the entries that were live at the takeover. -/
def mirrorTableOf (m : List (Nat × List Byte)) : List Byte :=
  let live := m.filter (fun (p : Nat × List Byte) => let st := leAt p.2 3 1 % 16; decide (st ≠ 0) && decide (st < 7))
  toLE 4 live.length ++ toLE 4 0 ++ live.flatMap (fun (p : Nat × List Byte) => failedEntry p.2)

/-- The standby takes over: MANAGER_LOST, its mirrored entries held, and a formation in which it is the manager. -/
def Work.takeover (s : Work) : Work :=
  let m := s.group.mirror
  let s := (s.groupFatal 3 0 0xFF).setDom Obj.mirrorTable (mirrorTableOf m)
  ((s.modGroup (fun g => { g with mirror := [] })).add Obj.takeovers 1).form true false

/-- MANAGER_TIMEOUT: nothing has come from the manager for MANAGER_TIMEOUT_MS. A worker notes it, for the standby to ask; the standby
takes over when it may and no worker it reaches hears the manager. -/
def Work.managerTimeout (s : Work) (workersHear : Bool) : Work :=
  let s := s.modGroup (fun g => { g with heard := false })
  if s.isStandby && decide (2 ≤ s.get Obj.groupState) && decide (s.get Obj.takeoverEnable = 1) && !workersHear then s.takeover else s

def execManagerTimeout (workersHearManager : Bool) (s : State) : Host.Outcome State Fault Refusal :=
  s.next (fun w => w.managerTimeout workersHearManager)

/-! ## Commands (R391, R409) -/

/-- MIRROR_RELEASE empties MIRROR_TABLE. -/
def Work.releaseMirror (s : Work) (o : Origin) : Work := (s.setDom Obj.mirrorTable []).cmdDone Obj.mirrorRelease o

/-- GROUP_DISSOLVE: the group fault DISSOLVED, after which every member returns to ROLE NONE. -/
def Work.dissolve (s : Work) (o : Origin) : Work :=
  if !s.isManager then s.cmdFail Obj.groupDissolve o 0x3A
  else
    let s := s.cmdStart Obj.groupDissolve 2 o
    let s := if s.formed then s.groupFatal 9 0xFF 0xFF else s.leaveGroup
    s.cmdEnd Obj.groupDissolve 3 0

end Sys2Proof.Machine
end

