-- ==== Sys2Proof/Machine/Cim.lean ====
section
/-! DEFINITION. The ops that run on engines: CIM_MVM, CIM_MVMT and EXPERT, with their deltas and the delta gradient of tuning
(R118 to R120, R159, R166, R199 to R201, R210, R211, R217, R358 to R360, R363, R368). -/

namespace Sys2Proof.Machine

/-! ## Inputs (R120, R156, R159, R201) -/

/-- A vector in block form: block vectors as they are, others encoded to B4 (or to B8 for a gradient) with what that counts. -/
def toBlocks (b4 : Bool) (v : Vec) : List Blk × EncCounts :=
  match v with
  | .blocks bs => (bs, EncCounts.none)
  | .words _ _ => let r := encodeVector b4 noDraw (vecReals v); (r.1, (inputCounts v).plus r.2)
  | .cand _ => ([], EncCounts.none)
  | .route _ => ([], EncCounts.none)
  | .mask _ _ => ([], EncCounts.none)

/-- The values of a vector times the column scales of a slice, in FP32 (R201), and what forming them counts. -/
def Work.scaled (s : Work) (slot slice : Nat) (v : Vec) : List (Option Rat) × EncCounts :=
  let rs := (vecReals v).zipIdx.map (fun (p : Option Rat × Nat) => p.1.map (fun (x : Rat) => fpOf (x * (fmtFp16.value (s.scale slot slice p.2)).1)))
  (rs.map (Option.map Fp.value), (inputCounts v).plus (fpCounts (rs.filterMap id)))

/-- The first n codes of blocks; past their end, zeros. -/
def takeCodes : Nat → List Blk → List Blk
  | n, [] => if n = 0 then [] else [⟨false, 0, List.replicate n (some 0)⟩]
  | n, b :: bs => if n = 0 then [] else { b with codes := b.codes.take n } :: takeCodes (n - b.codes.length) bs

/-- Elements [off, off + n) of blocks; where off falls within a block, the rest of that block comes first with its own exponent. -/
def cutBlocks (bs : List Blk) (off n : Nat) : List Blk :=
  match bs.drop (off / 32) with
  | [] => takeCodes n []
  | b :: rest => takeCodes n ({ b with codes := b.codes.drop (off % 32) } :: rest)

/-! ## Deltas (R131, R345, R351, R362) -/

/-- The entries of an engine's record in a set's stream. -/
def streamEntries (part : List Byte) (engine stream : Nat) : List DeltaEntry :=
  ((partRecs part).filter (fun (r : DeltaRec) => r.engine = engine && r.stream = stream)).flatMap DeltaRec.deltas

/-- A vector's deltas on an engine, and whether any carries poison. -/
def Work.deltasFor (s : Work) (c : OpCtx) (vec engine stream : Nat) : List DeltaEntry × Bool :=
  let h := s.handleAt c.slot c.m vec
  if h = 0 then ([], false)
  else match s.heldSet h with
    | none => ([], false)
    | some x => (streamEntries x.part engine stream, s.step.deltas.any (fun (d : DeltaIn) =>
        d.inst = ⟨c.slot, c.seq, c.m⟩ && d.core = engine / 32 && d.bad.contains h))

/-! ## Engine MVMs of a vector (R118, R119, R159, R200) -/

/-- One engine's job for a vector: aligned input, full-scale code, deltas. -/
def Work.jobOf (s : Work) (c : OpCtx) (a : CimArgs) (transposed : Bool) (slice : Nat) (stream rank vec : Nat) (x : Slice) (e : EngEntry)
    (bs : List Blk) : MvmJob × Aligned :=
  let inOff := if transposed then e.outOff else e.inOff
  let al := alignSlice (a.wideLayer || transposed) (cutBlocks bs inOff (inputCount transposed x.join))
  let d : List DeltaEntry × Bool := if a.deltas then s.deltasFor c vec e.engine stream else ([], false)
  ({ slot := c.slot, seq := c.seq, m := c.m, layer := c.layer, vec := vec, rank := rank, slice := slice, join := x.join, mask := e.mask
     transposed := transposed, wide := al.wide, fallback := al.wide && !a.wideLayer && !transposed
     fsc := if al.wide && !transposed then a.fscWide else a.fscB4, tol := a.checkTol, eIn := al.eIn, drive := al.drive
     outOff := if transposed then e.inOff else e.outOff, n := if transposed then x.k else x.n, outFmt := a.outFmt
     deltas := d.1, deltaPoison := d.2 }, al)

/-- Issue a vector's job to its engine, counting what its alignment met (R160, R167). -/
def Work.issueJob (s : Work) (wideLayer : Bool) (e : Nat) (p : MvmJob × Aligned) : Work :=
  let j := p.1
  let k : VecKey := ⟨j.slot, j.m, j.vec⟩
  let s := if p.2.zeroed = 0 then s else s.add Obj.alignZeroedBlocks p.2.zeroed
  let s := if j.fallback then s.add Obj.alignWideMvms 1 else s
  let s := if j.transposed || wideLayer then s
    else s.note k (fun (v : VecNote) => { v with mvms := v.mvms + 1, wide := v.wide + bit j.fallback })
  s.modEngine e (fun (x : Engine) => { x with queue := x.queue ++ [j] })

/-- A vector's part on one slice: its jobs, and the parts its result is made of. -/
def Work.vecJobs (s : Work) (c : OpCtx) (a : CimArgs) (transposed : Bool) (slice stream rank vec : Nat) (bs : List Blk) :
    List (Nat × (MvmJob × Aligned)) × List VecPart :=
  let p := s.placement c.slot
  match p.slices[slice]? with
  | none => ([], [])
  | some x =>
    let jobs := (p.entriesOf slice).map (fun (e : EngEntry) => (e.engine, s.jobOf c a transposed slice stream rank vec x e bs))
    (jobs, jobs.map (fun (q : Nat × (MvmJob × Aligned)) => ⟨rank, q.1, q.2.1.outOff, none⟩))

/-- Start an instance on the engines from its vectors, each with its ranks: slice, stream and blocks. -/
def Work.startRun (s : Work) (c : OpCtx) (a : CimArgs) (kind n : Nat) (vecs : List (Nat × List (Nat × Nat × List Blk) × List Nat)) : Work :=
  let built := vecs.map (fun (v : Nat × List (Nat × Nat × List Blk) × List Nat) =>
    let parts := v.2.1.mapIdx (fun (r : Nat) (q : Nat × Nat × List Blk) => s.vecJobs c a (decide (kind = 1)) q.1 q.2.1 r v.1 q.2.2)
    (parts.flatMap (·.1), (⟨v.1, parts.flatMap (·.2), [], v.2.2, false⟩ : VecAsm)))
  let s := s.modStep (fun x => { x with ops := x.ops ++ [⟨c, kind, a.outFmt, a.accumulate, n, built.map (·.2)⟩] })
  let s := (built.flatMap (·.1)).foldl (fun (s : Work) (q : Nat × (MvmJob × Aligned)) => s.issueJob a.wideLayer q.1 q.2) s
  s.settleOps

/-- Blocks of every vector of a source, counting conversions against the vectors. -/
def Work.sourceBlocks (s : Work) (c : OpCtx) (f : Vec → List Blk × EncCounts) : List (List Blk) × Work :=
  (s.buf c.slot c.src0 c.m).zipIdx.foldl (fun (acc : List (List Blk) × Work) (p : Vec × Nat) =>
    let b := f p.1
    (acc.1 ++ [b.1], acc.2.countEnc ⟨c.slot, c.m, p.2⟩ b.2)) ([], s)

/-! ## CIM_MVM and CIM_MVMT -/

/-- CIM_MVM: every vector through every engine of its slice. -/
def Work.cimMvm (s : Work) (c : OpCtx) (a : CimArgs) : Work :=
  let n : Nat := match (s.placement c.slot).slices[a.slice]? with
    | some x => x.n
    | none => 0
  let (bs, s) := s.sourceBlocks c (toBlocks true)
  s.startRun c a 0 n (bs.zipIdx.map (fun (p : List Blk × Nat) => (p.2, [(a.slice, a.deltaLayer, p.1)], [])))

/-- An instance with deltas waits for them; otherwise it starts under R197. -/
def Work.startCim (s : Work) (c : OpCtx) (a : CimArgs) (cores : List Nat) (f : Work → Work) : Work :=
  if a.deltas && !s.deltasPresent c cores then s else s.startOp c f

def execCimMvm (c : OpCtx) (a : CimArgs) (s : State) : Host.Outcome State Fault Refusal :=
  s.next (fun w => w.startCim c a (w.sliceCores c.slot a.slice) (fun w => w.cimMvm c a))

/-! ### The delta gradient (R363, R368) -/

/-- The seed and step of a lane's draws: the job's seed and the lane's own step (R163, R367). -/
def Work.workOf (s : Work) (slot m vec : Nat) : Option (HeldSet × WorkSet) :=
  match s.heldSet (s.handleAt slot m vec) with
  | some h => h.work.map (fun (w : WorkSet) => (h, w))
  | none => none

/-- What rounding a value to a floating format counts: whether it saturated, and whether it consumed a draw (R154, R162). -/
def roundCounts (sat drew : Bool) : EncCounts := { EncCounts.none with fpSat := bit sat, events := bit sat, draws := bit drew }

/-- A gradient element as FP8 E5M2 with a draw of stream 1. -/
def gradValue (w : WorkSet) (step layer index : Nat) (x : Rat) : Rat × EncCounts :=
  let q := fmtE5M2.write (.draw (srDraw w.seed 1 step layer index)) x
  ((fmtE5M2.value q.1).1, roundCounts q.2.1 q.2.2)

/-- A saved input as FP8 E4M3. -/
def savedValue (x : Rat) : Rat × EncCounts :=
  let q := fmtE4M3.write .nearest x
  ((fmtE4M3.value q.1).1, roundCounts q.2.1 false)

/-- The FP32 sum over a micro-batch of one entry's products, and its addition into the FP16 accumulator with a draw of stream 2. -/
def accumulate (w : WorkSet) (step layer index acc : Nat) (terms : List (Rat × Rat)) : Nat × EncCounts :=
  let sum := dotFp (terms.map (·.1)) (terms.map (·.2))
  let q := fmtFp16.write (.draw (srDraw w.seed 2 step layer index)) ((fmtFp16.value acc).1 + sum.value)
  (q.1, (fpCounts [sum]).plus (roundCounts q.2.1 q.2.2))

/-- The gradients of the entries of one stream added into a working set, and what the additions count. `g` and `x` give, per vector, the
rounded output gradient and the saved input of the layer. -/
def HeldSet.addGrad (h : HeldSet) (w : WorkSet) (p : Placement) (slice stream : Nat) (step layer : Nat) (place : Nat → Nat)
    (g x : List (List Rat)) : HeldSet × EncCounts :=
  let recs := partRecs h.part
  let r := (p.entriesOf slice).foldl (fun (acc : List Nat × EncCounts) (e : EngEntry) =>
    let at_ := partStart recs e.engine stream
    (streamEntries h.part e.engine stream).zipIdx.foldl (fun (acc : List Nat × EncCounts) (d : DeltaEntry × Nat) =>
      let i := at_ + d.2
      let terms := (g.zip x).map (fun (q : List Rat × List Rat) => (q.1.getD (e.outOff + d.1.lane) 0, q.2.getD (e.inOff + d.1.row) 0))
      let a := accumulate w step layer (place i) (acc.1.getD i 0) terms
      (acc.1.set i a.1, acc.2.plus a.2)) acc) (w.accs, EncCounts.none)
  ({ h with work := some { w with accs := r.1 } }, r.2)

/-- Every element of a vector through a conversion, with its index: poison brings nothing, and what it counts goes to the vector. -/
def Work.roundVec (s : Work) (k : VecKey) (v : Vec) (f : Nat → Rat → Rat × EncCounts) : List Rat × Work :=
  let rs := (vecReals v).zipIdx.map (fun (q : Option Rat × Nat) => match q.1 with
    | some x => f q.2 x
    | none => (0, EncCounts.none))
  (rs.map (·.1), (s.countInputs k [v]).countEnc k (rs.foldl (fun (c : EncCounts) (r : Rat × EncCounts) => c.plus r.2) EncCounts.none))

/-- The delta gradient of a CIM_MVMT with MODE[1]: output gradients from SRC0, saved inputs from SRC1. -/
def Work.deltaGradient (s : Work) (c : OpCtx) (a : CimArgs) : Work :=
  match s.workOf c.slot c.m 0 with
  | none => s
  | some (h, w) =>
    let die := s.get (Obj.slotDieIndex c.slot)
    let step := fun (v : Nat) => match s.laneAt c.slot c.m v with
      | some l => l.laneStep
      | none => 0
    let key := fun (v : Nat) => (⟨c.slot, c.m, v⟩ : VecKey)
    let (g, s) := (s.buf c.slot c.src0 c.m).zipIdx.foldl (fun (acc : List (List Rat) × Work) (v : Vec × Nat) =>
      let r := acc.2.roundVec (key v.2) v.1 (fun (i : Nat) (y : Rat) => gradValue w (step v.2) c.layer (Config.wholeIndex die c.slot c.seq (v.2 * 65536 + i)) y)
      (acc.1 ++ [r.1], r.2)) (([] : List (List Rat)), s)
    let (x, s) := (s.buf c.slot c.src1 c.m).zipIdx.foldl (fun (acc : List (List Rat) × Work) (v : Vec × Nat) =>
      let r := acc.2.roundVec (key v.2) v.1 (fun (_ : Nat) (y : Rat) => savedValue y)
      (acc.1 ++ [r.1], r.2)) (([] : List (List Rat)), s)
    let r := h.addGrad w (s.placement c.slot) a.slice a.deltaLayer (step 0) c.layer
      (fun (i : Nat) => Config.wholeIndex die c.slot a.deltaLayer i) g x
    (s.putHeldSet r.1).countEnc (key 0) r.2

/-- The row-side slices of a slice's facets are calibrated before its first transposed MVM when that is overdue (R234). -/
def Work.rowsFresh (s : Work) (slot sl : Nat) : Work :=
  ((s.placement slot).entriesOf sl).foldl (fun (s : Work) (e : EngEntry) =>
    (maskFacets e.mask).foldl (fun (s : Work) (f : Nat) =>
      let a := s.serving (4 * e.engine + f)
      if s.rowCalStale a then s.rowCalibrate a else s) s) s

/-- CIM_MVMT: gradients times the column scales, in B8, through the transposed facets; legal only in a TUNE step. -/
def Work.cimMvmt (s : Work) (c : OpCtx) (a : CimArgs) : Work :=
  let n : Nat := match (s.placement c.slot).slices[a.slice]? with
    | some x => x.k
    | none => 0
  let (bs, s) := s.sourceBlocks c (fun (v : Vec) =>
    let x := s.scaled c.slot a.slice v
    let r := encodeVector false noDraw x.1
    (r.1, x.2.plus r.2))
  let s := if a.deltas then s.deltaGradient c a else s
  (s.rowsFresh c.slot a.slice).startRun c a 1 n (bs.zipIdx.map (fun (p : List Blk × Nat) => (p.2, [(a.slice, a.deltaLayer, p.1)], [])))

def execCimMvmt (c : OpCtx) (a : CimArgs) (s : State) : Host.Outcome State Fault Refusal :=
  s.next (fun w => w.startCim c a (w.sliceCores c.slot a.slice) (fun w => w.cimMvmt c a))

/-! ## EXPERT (R210, R211) -/

/-- The routes of an instance's vectors. -/
def Work.routesOf (s : Work) (c : OpCtx) : List (List (Nat × Nat)) :=
  (s.buf c.slot c.src1 c.m).map (fun (v : Vec) => match v with
    | .route es => es
    | .blocks _ => []
    | .words _ _ => []
    | .cand _ => []
    | .mask _ _ => [])

/-- Vectors beyond CAPACITY, over the experts chosen (R211). -/
def overruns (capacity : Nat) (routes : List (List (Nat × Nat))) : Nat :=
  let all := routes.flatMap (fun (r : List (Nat × Nat)) => r.map (·.1))
  sumNat (all.eraseDups.map (fun (e : Nat) => (all.filter (· = e)).length - capacity))

/-- EXPERT: each vector through its chosen experts, in rank order. -/
def Work.expert (s : Work) (c : OpCtx) (a : ExpertArgs) : Work :=
  let routes := s.routesOf c
  let x : Slice := ((s.placement c.slot).slices[a.sliceBase]?).getD ⟨0, 0, 0, 0, 0, 0⟩
  let past := overruns a.capacity routes
  let s := if past = 0 then s else s.add Obj.expertOverruns past
  let (bs, s) := s.sourceBlocks c (toBlocks true)
  s.startRun c a.cim (if a.stage = 0 then 2 else 3) x.n (bs.zipIdx.map (fun (p : List Blk × Nat) =>
    let rs := routes.getD p.2 []
    (p.2, rs.mapIdx (fun (k : Nat) (r : Nat × Nat) =>
      (a.sliceBase + r.1, a.deltaBase + r.1, if a.stage = 0 then p.1 else cutBlocks p.1 (k * x.k) x.k)), rs.map (·.2))))

def execExpert (c : OpCtx) (a : ExpertArgs) (s : State) : Host.Outcome State Fault Refusal :=
  s.next (fun w =>
    let experts := ((w.routesOf c).flatMap (fun (r : List (Nat × Nat)) => r.map (·.1))).eraseDups
    w.startCim c { a.cim with slice := a.sliceBase } ((experts.flatMap (fun (e : Nat) => w.sliceCores c.slot (a.sliceBase + e))).eraseDups)
      (fun w => w.expert c a))

/-! ## Delta fetches (R351, R359, R360) -/

/-- The delta streams that an instance reads, each with the slice it adjusts: of an EXPERT those of the chosen experts alone. -/
def Work.streamsOf (s : Work) (c : OpCtx) (o : OpRec) : List (Nat × Nat) :=
  if o.opcode = 0x41 then
    ((s.routesOf c).flatMap (fun (r : List (Nat × Nat)) => r.map (·.1))).eraseDups.map (fun (e : Nat) => (o.arg 22 2 + e, o.arg 14 2 + e))
  else [(o.arg 22 2, o.arg 14 2)]

/-- The bytes of a set's engine records that a core fetches for an instance. -/
def Work.deltaBytesOn (s : Work) (c : OpCtx) (o : OpRec) (core handle : Nat) : Nat :=
  let streams := s.streamsOf c o
  match s.heldSet handle with
  | none => 0
  | some h => sumNat (((partRecs h.part).filter (fun (r : DeltaRec) =>
      r.engine / 32 = core && streams.any (fun (q : Nat × Nat) => q.1 = r.stream))).map (fun (r : DeltaRec) => alignUp (8 + 3 * r.entries.length) 4))

/-- The bytes a core fetches for an instance, by distinct variant of its micro-batch in table order. -/
def Work.deltaFetch (s : Work) (c : OpCtx) (core : Nat) : List Nat :=
  match s.opOf c with
  | none => []
  | some o =>
    if !o.streamsDeltas then []
    else
      let named := (List.range (s.mbVectors c.slot c.m).length).map (s.handleAt c.slot c.m)
      ((s.body.variants.map (·.handle)).filter named.contains).map (s.deltaBytesOn c o core)

/-- How many fills of a half of the buffer take variants in their order, beyond the first; `used` is what the present one holds. -/
def extraFills (half : Nat) : Nat → List Nat → Nat
  | _, [] => 0
  | used, n :: l => if used = 0 ∨ used + n ≤ half then extraFills half (used + n) l else 1 + extraFills half n l

/-- The fetch that completes the deltas of an instance otherwise ready ends its wait. -/
def Work.endsWait (s : Work) (c : OpCtx) (core : Nat) : Bool :=
  match s.opOf c with
  | none => false
  | some o =>
    let cores := s.recCores c.slot o
    o.streamsDeltas && s.opReady c && s.depthReady c && !s.deltasPresent c cores && s.deltasPresent c (cores.filter (· ≠ core))

/-- The instance whose deltas a core fetches, with the route it reads (R360). -/
def Work.fetchCtx (s : Work) (slot seq m : Nat) : OpCtx :=
  let c : OpCtx := ⟨slot, seq, m, 0, 0, 0, 0, 0, 0, true, []⟩
  { c with src1 := ((s.opOf c).map (·.src1)).getD 0xFFFF }

/-- DELTA_FETCH_DONE on a core: present from now on; the bytes fetched, an instance's wait, extra fills and poison are counted, and poisoned
sets reported. `waitNs` is how long the instance waited. -/
def Work.deltaFetched (s : Work) (core slot seq m waitNs : Nat) (poison : List Nat) : Work :=
  let c := s.fetchCtx slot seq m
  let parts := s.deltaFetch c core
  let waited := s.endsWait c core
  let splits := extraFills (512 * s.dram.bufferKib) 0 parts
  let s := s.modStep (fun x => { x with deltas := x.deltas ++ [⟨⟨slot, seq, m⟩, core, poison⟩] })
  let s := s.add Obj.deltaBytesStreamed (sumNat parts)
  let s := if waited then (s.add Obj.deltaStalls 1).add Obj.deltaStallNs waitNs else s
  let s := if splits = 0 then s else s.add Obj.deltaSplits splits
  poison.foldl (fun (s : Work) (h : Nat) =>
    let s := s.add Obj.deltaPoison 1
    if s.formed && s.isWorker then s.toMember 0 (.report (.setPoisoned h)) else s) s

/-- What was fetched and how often a half was filled follows from the sets held and the step; the row's own figures of both are not used. -/
def execDeltaFetchDone (core slot seq m _bytes waitNs _fills : Nat) (poison : List Nat) (s : State) : Host.Outcome State Fault Refusal :=
  s.nextIf (goodCore s.ident core && slot < 4) (fun w => w.deltaFetched core slot seq m waitNs poison)

end Sys2Proof.Machine
end

