-- ==== Sys2Proof/Machine/StepEnd.lean ====
section
/-! DEFINITION. The end of a die's step and the work of a step boundary (R128, R198, R235, R270, R299, R369, R493). -/

namespace Sys2Proof.Machine

/-! ## When the step has ended (R198) -/

/-- Every DRAFT, MASK and SAMPLE of the manager's slots has completed; it runs no other op of a step. -/
def Work.managerComplete (s : Work) : Bool :=
  (List.range 4).all (fun (n : Nat) => (s.program n).ops.zipIdx.all (fun (o : OpRec × Nat) =>
    !managerOp o.1.opcode || s.step.done.any (fun (x : Inst) => x.slot = n && x.seq = o.2)))

/-- Every instance of every op that this die runs in the step has completed: one per micro-batch of the slot for an op with
MB set, else one. -/
def Work.stepComplete (s : Work) : Bool :=
  if s.isManager then s.managerComplete else
  let slots := (List.range 4).filter (fun (n : Nat) => s.body.lanes.any (fun (l : Lane) => l.slot = n))
  slots.all (fun (n : Nat) =>
    let ms := (s.body.mbs.zipIdx.filter (fun (b : MicroBatch × Nat) => b.1.slot = n)).map (·.2)
    (s.stepProgram n).ops.zipIdx.all (fun (o : OpRec × Nat) =>
      if o.1.mb then ms.all (fun (m : Nat) => s.isDone n o.2 m) else s.isDone n o.2 0))

/-! ## This die's part of STEP_RESULT (R299) -/

/-- The micro-batch and place of a vector of the step. -/
def Work.vecPlace (s : Work) (slot g : Nat) : Option VecKey :=
  match s.body.mbs.zipIdx.find? (fun (b : MicroBatch × Nat) => b.1.slot = slot && decide (b.1.first ≤ g) && decide (g < b.1.first + b.1.count)) with
  | some (b, m) => some ⟨slot, m, g - b.first⟩
  | none => none

/-- The notes of a lane's vectors. -/
def Work.laneNotes (s : Work) (l : Lane) : List VecNote :=
  (List.range l.count).filterMap (fun (i : Nat) =>
    match s.vecPlace l.slot (l.first + i) with
    | some k => (s.step.notes.find? (fun (p : VecKey × VecNote) => p.1 = k)).map (·.2)
    | none => none)

/-- A lane's record: sums of its vectors' counts, and the loss of a record of a TUNE step. -/
def Work.laneResult (s : Work) (h : StepHead) (p : Lane × Nat) : LaneResult :=
  let ns := s.laneNotes p.1
  { numeric := countIn 16 (sumNat (ns.map (fun (v : VecNote) => v.numeric)))
    poison := ns.any (fun (v : VecNote) => v.poison), facetFault := ns.any (fun (v : VecNote) => v.fault)
    mvms := countIn 32 (sumNat (ns.map (fun (v : VecNote) => v.mvms))), wideMvms := countIn 32 (sumNat (ns.map (fun (v : VecNote) => v.wide)))
    loss := if h.kind = 2 then Config.tuneLoss p.1.entry h.step p.2 else 0 }

/-- The lowest effective engine clock of any half. -/
def Work.lowestEngineMhz (s : Work) : Nat := min (s.effMhz 0) (s.effMhz 32)

def Work.ownResult (s : Work) (h : StepHead) (dieUs : Nat) : StepResult :=
  { src := s.ownDevice, step := h.step, dieUs := dieUs, engineMhz := s.lowestEngineMhz, seamGbs := s.seamRateNow, workers := 1
    lanes := s.body.lanes.zipIdx.map (s.laneResult h) }

/-! ## The update that closes a window (R369) -/

/-- Trained positions of a record carried by a lane of a TUNE step: LENGTH - 1 - LOSS_FROM, which stands before its tokens in the
window (R365). -/
def Work.trainedOf (s : Work) (l : Lane) : Nat :=
  match s.windowSpan l.tenant (l.input - 4) 4 with
  | some a => l.count - 1 - leAt (s.memRead a 4) 0 4
  | none => 0

/-- The layer and element of value entry i of a die part: the layer of the CIM_MVMT whose delta stream it is in. -/
def Work.entryPlace (s : Work) (h : HeldSet) (i : Nat) : Nat × Nat :=
  let recs := partRecs h.part
  let stream : Nat := match recs.find? (fun (r : DeltaRec) =>
      let a := partStart recs r.engine r.stream
      decide (a ≤ i) && decide (i < a + r.deltas.length)) with
    | some r => r.stream
    | none => 0
  let layer : Nat := match (s.stepProgram h.slot).ops.find? (fun (o : OpRec) => o.opcode = 2 && o.arg 22 2 = stream) with
    | some o => o.layer
    | none => 0
  (layer, Config.wholeIndex (s.get (Obj.slotDieIndex h.slot)) h.slot stream i)

/-- The working set a TUNE step ran on: its positions so far, and at the end of a window its update. Assumption log 74, DEDUCED. -/
def Work.tuneUpdate (s : Work) (h : StepHead) : Work :=
  if h.kind ≠ 2 then s
  else match s.body.lanes, s.body.variants with
    | l :: _, v :: _ =>
      match s.heldSet v.handle with
      | none => s
      | some x => match x.work with
        | none => s
        | some w =>
          let w := { w with steps := w.steps + 1, positions := w.positions + sumNat (s.body.lanes.map s.trainedOf) }
          if w.steps % max 1 w.windowSteps = 0 then
            let r := x.update w l.laneStep (s.entryPlace x)
            (s.putHeldSet r.1).countEnc ⟨l.slot, 0, 0⟩ r.2
          else s.putHeldSet { x with work := some w }
    | _, _ => s

/-- DIE_STEP_END: once every instance has completed. -/
def Work.dieStepEnd (s : Work) (dieUs : Nat) : Work :=
  match s.step.running with
  | none => s
  | some (h, _) =>
    if s.step.ended || !s.stepComplete then s
    else
      let s := s.tuneUpdate h
      let own := s.ownResult h dieUs
      let s := s.modStep (fun x => { x with
        ended := true, bufs := [], notes := [], ops := [], colls := [], barriers := [], deltas := []
        results := if s.isWorker then x.results ++ [own] else x.results })
      let s := if s.isWorker && s.formed then s.sendResult else s
      s.stepBoundary

def execDieStepEnd (dieUs : Nat) (s : State) : Host.Outcome State Fault Refusal := s.next (fun w => w.dieStepEnd dieUs)

end Sys2Proof.Machine
end

