-- ==== Sys2Proof/Machine/Host.lean ====
section
/-! DEFINITION. Host ports: resets of functions and ports, virtual functions, memory windows, rings and RDYBSY (R46, R64, R413,
R415 to R418, R420, R421, R431, R436 to R438, R441). -/

namespace Sys2Proof.Machine

/-! ## What returns to its default (R46, R556) -/

/-- The class of an object. -/
def pclassOf (k : Key) : Option PClass := (findRow k.index k.sub).map (fun (r : Row) => r.cls)

/-- DMA's objects of class T follow the channel's owner (R456). -/
def ofChannel (k : Key) : Bool := decide (0x9810 ≤ k.index) && decide (k.index ≤ 0x9817)

/-- Objects of some classes return to their defaults; the sessions of a DOMAIN that does are aborted (R73). -/
def Work.defaultClasses (s : Work) (gone : PClass → Key → Bool) : Work :=
  let keep := fun (k : Key) => match pclassOf k with
    | some c => !gone c k
    | none => true
  { s with
    objs := s.objs.filter (fun (p : Key × Nat) => keep p.1), doms := s.doms.filter (fun (p : Key × DomVal) => keep p.1)
    dict := { s.dict with sessions := s.dict.sessions.filter (fun (x : Session) => keep x.key) } }

/-- A tenant's class T objects return to their defaults. -/
def Work.defaultTenant (s : Work) (t : Nat) : Work :=
  s.defaultClasses (fun (c : PClass) (k : Key) => decide (c = .t) && decide (k.tenant = t) && !ofChannel k)

/-! ## Windows of the dictionary (R64) -/

/-- A function's dictionary window returns to its reset state: what waits in it is dropped, but a parked WRITE still takes effect,
and a write being stored is finished; both without a response. -/
def Work.resetWindow (s : Work) (port fn : Nat) : Work :=
  let path : Path := if port = 0 then .portA else .portB
  let mine := fun (r : Req) => r.origin.path = path && r.origin.fn = fn
  { s with dict := { s.dict with
      windows := drop1 s.dict.windows ⟨port, fn⟩
      parked := (s.dict.parked.filter (fun (p : ParkedReq) => !(mine p.req && p.opcode = 1))).map
        (fun (p : ParkedReq) => if mine p.req then { p with dead := true } else p)
      held := s.dict.held.filter (fun (p : Nat × Req) => !mine p.2)
      forwarded := s.dict.forwarded.filter (fun (f : Forwarded) => !mine f.req)
      persist := s.dict.persist.map (fun (p : PersistWrite) => if mine p.req then { p with dead := true } else p) } }

/-- A function's MSI-X table returns to its reset state. Assumption log 18, DESIGN CHOICE. -/
def Work.resetMsix (s : Work) (port fn : Nat) : Work :=
  { s with host := { s.host with
      msix := drop1 s.host.msix ⟨port, fn⟩
      msixPending := s.host.msixPending.filter (fun (p : FnWin × Nat) => decide (p.1 ≠ ⟨port, fn⟩)) } }

/-! ## A tenant's reset (R307, R338, R372, R436) -/

/-- Stop the DMA channels of an owner. -/
def Work.stopChannels (s : Work) (owner : Nat) : Work :=
  ((List.range 32).filter (fun (c : Nat) => s.dmaOwner c = owner)).foldl (fun (s : Work) (c : Nat) => s.dmaOwnerReset c) s

/-- A tenant's variants, grammars and jobs go. -/
def Work.dropTenantSets (s : Work) (t : Nat) : Work :=
  let s := (s.vars.jobs.filter (fun (j : TuneJob) => j.active && j.tenant = t)).foldl (fun (s : Work) (j : TuneJob) => s.jobEnd j 5 0) s
  let s := s.variantLoadAbort t
  let s := (s.vars.variants.filter (fun (v : Variant) => v.owner = t && !v.unloaded)).foldl
    (fun (s : Work) (v : Variant) => s.unloadVariant v.slot v.id) s
  let s := s.modServe (fun x => { x with grammars := x.grammars.map (fun (g : Grammar) => if g.owner = t then { g with installed := false } else g) })
  s.collectGrammars

/-- The effects of a function-level reset of a tenant's function; a retained DONE entry is held no longer (R283). -/
def Work.tenantReset (s : Work) (t : Nat) : Work :=
  let s := s.failAll (fun (e : Entry) => decide (e.tenant = t)) 0x26
  let s := s.modServe (fun x => { x with
    entries := x.entries.map (fun (e : Entry) => if e.tenant = t ∧ e.state = 7 then { e with releaseAsked := true } else e) })
  let s := s.modServe (fun x => { x with fetching := x.fetching.filter (fun (p : Nat × List Byte) =>
    !x.entries.any (fun (e : Entry) => e.index = p.1 && e.tenant = t)) })
  let s : Work := { s with host := { s.host with rings := drop1 s.host.rings t } }
  let s := ((s.stopChannels t).resetWindow (tenantPort t) (tenantFn t)).resetMsix (tenantPort t) (tenantFn t)
  ((s.dropTenantSets t).defaultTenant t).idle

/-! ## Ports (R413, R437, R441) -/

/-- Every tenant of a port from function `from_` on is reset. -/
def Work.resetTenants (s : Work) (p from_ : Nat) : Work :=
  ((List.range (s.port p).vfs).filter (fun (n : Nat) => decide (from_ ≤ n))).foldl (fun (s : Work) (n : Nat) => s.tenantReset (512 * p + n)) s

/-- NumVFs of a port, with VFS_ENABLED. -/
def Work.setVfs (s : Work) (p n : Nat) : Work := (s.setPort p { s.port p with vfs := n }).set (Obj.vfsEnabled p) n

/-- The link of a port is down. -/
def Port.down (x : Port) : Port := { x with speed := 0, width := 0, flit := false, linkUp := false }

/-- The port's claims on index ranges are released. -/
def Work.releaseClaims (s : Work) (code : Nat) : Work :=
  (List.range 16).foldl (fun (s : Work) (i : Nat) => if s.get (Obj.rangeOwner i) = code then s.set (Obj.rangeOwner i) 0 else s) s

/-- One port's pending assertion of DEVICE_RESET is withdrawn; the CMD keeps waiting for its window (R568). -/
def Work.dropAssert (s : Work) (p : Nat) : Work := s.set Obj.resetAssert (clearBit (s.get Obj.resetAssert) p)

/-- A port reset: kind 0 PERST, 1 hot reset, 2 link down, 3 function-level reset of the physical function, which leaves the link
as it is. -/
def Work.portReset (s : Work) (p kind : Nat) : Work :=
  let s := (s.resetTenants p 0).setVfs p 0
  let s := ((s.resetWindow p 0).resetMsix p 0).stopChannels (0x400 + p)
  let s := (s.releaseClaims (p + 1)).dropAssert p
  let s := match s.res.load with
    | some l => if l.source = 0 ∧ l.port = p then s.loadStop 0x33 else s
    | none => s
  let s : Work := { s with boot := { s.boot with spdm := drop1 s.boot.spdm (if p = 0 then .portA else .portB) } }
  let x := s.port p
  let s := if kind = 0 then s.setPort p { x.down with perst := true } else if kind = 3 then s else s.setPort p x.down
  s.add (Obj.portResets p) 1

def execPortReset (port kind : Nat) (s : State) : Host.Outcome State Fault Refusal :=
  s.nextIf (port < 2 && kind < 4) (fun w => w.portReset port kind)

/-- FUNCTION_LEVEL_RESET: of a virtual function that exists, or of the physical one. -/
def execFunctionLevelReset (port fn : Nat) (s : State) : Host.Outcome State Fault Refusal :=
  s.nextIf (port < 2 && fn ≤ 512) (fun w =>
    if fn = 0 then w.portReset port 3
    else if w.tenantExists (512 * port + fn - 1) then w.tenantReset (512 * port + fn - 1) else w)

/-- VF_ENABLE_CHANGE: functions that cease to exist are reset at that moment. -/
def execVfEnableChange (port count : Nat) (s : State) : Host.Outcome State Fault Refusal :=
  s.nextIf (port < 2 && count ≤ 512) (fun w => (w.resetTenants port count).setVfs port count)

/-- LINK_UP: a port's link has trained at SPEED code 1 to 6 and a width; not while its PERST is asserted. -/
def execLinkUp (port speed width : Nat) (flit : Bool) (s : State) : Host.Outcome State Fault Refusal :=
  s.nextIf (port < 2 && 1 ≤ speed && speed ≤ 6 && [1, 2, 4, 8].contains width) (fun w =>
    let x := w.port port
    if x.perst then w else w.setPort port { x with speed := speed, width := width, flit := flit, linkUp := true })

/-- UNMAPPED_ACCESS: a read is answered with all ones, a write is dropped; both count. -/
def execUnmappedAccess (_isRead : Bool) (s : State) : Host.Outcome State Fault Refusal :=
  s.next (fun w => w.add Obj.unmappedAccesses 1)

/-! ## Memory windows (R416 to R418) -/

/-- The record of a WINDOW_EDIT. -/
def windowRecOf (b : List Byte) : WindowRec :=
  ⟨leAt b 0 2, leAt b 2 1, bitAt (leAt b 4 1) 0, leAt b 8 8, leAt b 16 8, leAt b 24 8⟩

def overlap (a n b m : Nat) : Bool := decide (a < b + m) && decide (b < a + n)

/-- A window is in use: a DMA slot, a running VARIANT_LOAD or tuning job, or a live request names an offset in it. -/
def Work.windowInUse (s : Work) (w : WindowRec) : Bool :=
  s.dmaUses.any (fun (u : Nat × Nat × Nat) => u.1 = w.owner && overlap u.2.1 u.2.2 w.offset w.size) ||
    s.vars.loads.any (fun (l : VarLoad) => l.tenant = w.owner && overlap l.offset l.length w.offset w.size) ||
    s.vars.jobs.any (fun (j : TuneJob) => j.active && j.tenant = w.owner && overlap j.dataOffset j.dataLength w.offset w.size) ||
    s.serve.entries.any (fun (e : Entry) => e.live && e.windowInput && e.tenant = w.owner &&
      overlap e.inputAddr (windowBytes (s.mainProgram e.slot) e.promptLen) w.offset w.size)

/-- The fields of a record keep the rules of their table. -/
def windowFieldsOk (b : List Byte) : Bool :=
  let w := windowRecOf b
  b.length = 32 && (decide (w.owner < 1024) || w.owner = 0x400 || w.owner = 0x401) && decide (w.window < 64) && decide (leAt b 3 1 < 2) &&
    decide (leAt b 4 1 < 2) && leAt b 5 3 = 0 && w.offset % 65536 = 0 && decide (w.offset < 2 ^ 34) && w.size % 65536 = 0 &&
    decide (65536 ≤ w.size) && decide (w.offset + w.size ≤ 2 ^ 34) && w.backing % 65536 = 0

/-- Commit validation of WINDOW_EDIT: the first failing detail. The region and overlap rules speak of a window to be set
(assumption log 59, DEDUCED). -/
def Work.windowCheck (s : Work) (b : List Byte) : Option Nat :=
  let w := windowRecOf b
  let same := fun (x : WindowRec) => x.owner = w.owner && x.window = w.window
  let others := s.host.windows.filter (fun (x : WindowRec) => !same x)
  let set := leAt b 3 1 = 1
  if !windowFieldsOk b then some 2
  else if set ∧ !s.dram.inRegion 4 w.backing w.size then some 3
  else if set ∧ others.any (fun (x : WindowRec) => x.owner = w.owner && overlap x.offset x.size w.offset w.size) then some 4
  else if set ∧ (others.any (fun (x : WindowRec) => overlap x.backing x.size w.backing w.size) ||
      s.host.zeroing.any (fun (z : Nat × Nat) => overlap z.1 z.2 w.backing w.size)) then some 5
  else if (s.host.windows.filter same).any s.windowInUse then some 6
  else none

def windowLe (a b : WindowRec) : Bool := decide (a.owner < b.owner) || (a.owner = b.owner && decide (a.window ≤ b.window))

def Work.modHost (s : Work) (f : HostState → HostState) : Work := { s with host := f s.host }

/-- The parts of the range [a, a + n) outside [b, b + m), as base and size. -/
def rangeOutside (a n b m : Nat) : List (Nat × Nat) :=
  [(a, min (a + n) b - a), (max a (b + m), a + n - max a (b + m))].filter (fun (p : Nat × Nat) => decide (0 < p.2))

/-- A committed WINDOW_EDIT: the record is set or removed, and what is released of its backing is to be zeroed. -/
def Work.windowApply (s : Work) (b : List Byte) : Work :=
  let w := windowRecOf b
  let same := fun (x : WindowRec) => x.owner = w.owner && x.window = w.window
  let set : Bool := leAt b 3 1 = 1
  let freed := (s.host.windows.filter same).flatMap (fun (x : WindowRec) =>
    if set then rangeOutside x.backing x.size w.backing w.size else [(x.backing, x.size)])
  let kept := s.host.windows.filter (fun (x : WindowRec) => !same x)
  s.modHost (fun h => { h with
    windows := (if set then kept ++ [w] else kept).mergeSort windowLe, zeroing := h.zeroing ++ freed })

/-- WINDOW_ZEROING_DONE: the backing at an address reads zeros and counts no more. -/
def Work.windowZeroed (s : Work) (base : Nat) : Work :=
  match s.host.zeroing.find? (fun (z : Nat × Nat) => z.1 = base) with
  | some z => (s.memOp (.zero z.1 z.2)).modHost (fun h => { h with zeroing := h.zeroing.erase z })
  | none => s

def execWindowZeroingDone (base : Nat) (s : State) : Host.Outcome State Fault Refusal := s.next (fun w => w.windowZeroed base)

/-- The 32-byte record of a window, as WINDOW_TABLE lists it. -/
def WindowRec.bytes (w : WindowRec) : List Byte :=
  toLE 2 w.owner ++ toLE 1 w.window ++ toLE 1 1 ++ toLE 1 (bit w.readOnly) ++ toLE 3 0 ++ toLE 8 w.offset ++ toLE 8 w.size ++ toLE 8 w.backing

/-- WINDOW_TABLE, for a tenant function only its own windows (R439). -/
def Work.windowTable (s : Work) (pick : WindowRec → Bool) : List Byte :=
  let ws := s.host.windows.filter pick
  toLE 4 ws.length ++ toLE 4 0 ++ ws.flatMap WindowRec.bytes

/-- WINDOW_BACKING_FREE. -/
def Work.backingFree (s : Work) : Nat :=
  s.dram.windowGib * 2 ^ 30 - sumNat (s.host.windows.map (fun (w : WindowRec) => w.size))

/-! ## Rings (R420, R421, R425, R429, R431) -/

/-- Whether an entry count is a power of two in its range. -/
def ringSizeOk (lo hi v : Nat) : Bool := (List.range 17).any (fun (i : Nat) => v = 2 ^ i) && decide (lo ≤ v) && decide (v ≤ hi)

/-- A write of RING_ENABLE is refused with RANGE. -/
def Work.ringEnableRefused (s : Work) (t v : Nat) : Bool :=
  v = 1 && s.get (Obj.ringEnable t) = 0 &&
    (s.get (Obj.intakeEntries t) = 0 || s.get (Obj.cqEntries t) = 0 || s.get (Obj.cqBase t) % 64 ≠ 0)

/-- Records that wait are written, and announced descriptors consumed. -/
def Work.serveRing (s : Work) (t : Nat) : Work := (Work.flushRing (s.ring t).waiting.length t s).intake t

/-- An accepted write of RING_ENABLE: from 0 to 1 the sequence state and the aperture start anew; records that wait keep their order. -/
def Work.setRingEnable (s : Work) (t v : Nat) : Work :=
  if s.get (Obj.ringEnable t) = v then s
  else
    let s := s.set (Obj.ringEnable t) v
    if v = 0 then s
    else
      let r := s.ring t
      (s.setRing t { Ring.reset with waiting := r.waiting, reserved := r.reserved }).serveRing t

/-- CQ_HEAD: what the host has consumed makes room; ignored while the rings are not enabled. -/
def Work.cqHeadWrite (s : Work) (t v : Nat) : Work :=
  if s.get (Obj.ringEnable t) = 0 then s
  else ((s.setRing t { s.ring t with cqHead := v }).serveRing t).idle

def execCqHead (tenant value : Nat) (s : State) : Host.Outcome State Fault Refusal :=
  s.nextIf (s.work.tenantExists tenant && decide (value < 2 ^ 32)) (fun w => w.cqHeadWrite tenant value)

/-- CQ_IRQ_TIMER: CQ_IRQ_US after the first record since the last interrupt. -/
def execCqIrqTimer (tenant : Nat) (s : State) : Host.Outcome State Fault Refusal :=
  s.nextIf (s.work.tenantExists tenant) (fun w =>
    if (w.ring tenant).timer && w.get (Obj.cqIrqUs tenant) ≠ 0 then w.completionIrq tenant else w)

/-- RING_STATUS (R420). -/
def Work.ringStatus (s : Work) (t : Nat) : Nat :=
  bit (s.get (Obj.ringEnable t) = 1) + 2 * bit (s.get (Obj.cqEntries t) ≠ 0 && (s.ring t).used = s.get (Obj.cqEntries t)) +
    4 * bit (s.ring t).stalled + 8 * bit !s.isManager

/-- PORT_STATUS (R441). -/
def Port.status (x : Port) : Nat := x.speed + 16 * x.width + 256 * bit x.flit + 512 * bit x.linkUp + 1024 * bit x.perst

end Sys2Proof.Machine
end

