-- ==== Sys2Proof/Machine/Modes.lean ====
section
/-! DEFINITION. Islands stopping and restarting, power states, resets, boot, supply and shutdown (R34, R435, R466, R498, R499, R510,
R521, R522, R527, R528, R548 to R561, R578, R580, R581). -/

namespace Sys2Proof.Machine

/-! ## Arriving in a power state -/

/-- Every island the module has is in the condition a power state gives it. -/
def Work.islandsIn (s : Work) (t : Nat) : Bool := s.islandIds.all (fun (i : Nat) => decide (s.islandCond i = islandWanted t i))

/-- A worker back in L0 from L2 or deeper has its cores restored and says so (R553). -/
def Work.coresBack (s : Work) (old : Nat) : Work :=
  if 2 ≤ old ∧ s.isWorker ∧ s.formed then s.toMember 0 (.report .coresRestored) else s

/-- The transition is over: POWER_STATE changes, and what asked for it ends. -/
def Work.powerArrive (s : Work) (t : Nat) : Work :=
  let old := s.get Obj.powerState
  let s : Work := { s with dram := { s.dram with selfRefresh := decide (t = 3), off := decide (t = 4) } }
  let s := if 2 ≤ t then s.loseSram else s.powerSram
  let s := if t = 4 ∧ old < 4 then
      let s := s.loseMemory
      (s.setPort 0 (s.port 0).down).setPort 1 (s.port 1).down
    else s
  let s := (s.setPower t).modBoot (fun b => { b with target := none, begun := false, gating := [] })
  let s := if s.cmdBusy Obj.powerStateRequest then s.cmdEnd Obj.powerStateRequest 3 0 else s
  let s := if t = 0 then s.coresBack old else s
  let s := s.groupPowerSettle
  if t ≤ 2 then s.intakeAll.idle else s

/-- A transition ends once every island is in place and, for L2 or deeper, what precedes the stopping has been done. -/
def Work.powerSettle (s : Work) : Work :=
  match s.boot.target with
  | some t => if s.boot.begun && s.islandsIn t then s.powerArrive t else s
  | none => s

/-! ## POWER_STATE_REQUEST (R552, R553) -/

/-- The action of POWER_STATE_REQUEST for a state 0 to 4; a transition in progress has been answered with BUSY. -/
def Work.powerRequest (s : Work) (t : Nat) (o : Origin) : Work :=
  let key := Obj.powerStateRequest
  let now := s.get Obj.powerState
  if t = now then s.cmdDone key o
  else if s.formed && t = 2 then s.cmdFail key o 0xD0
  else if s.formed && decide (3 ≤ t) && decide (o.path ≠ .mgmt) then s.cmdFail key o 0xD0
  else if now = 1 ∧ t = 0 then (s.leaveL1.cmdDone key o).intakeAll
  else ((s.cmdStart key 2 o).powerBegin t).powerSettle

/-! ## Stopping an island (R527) -/

/-- The core of an engine or core island. -/
def islandCore (i : Nat) : Option Nat := if i < 0x40 then some i else if i < 0x80 then some (i - 0x40) else none

/-- Whether an array of a core is being programmed. -/
def Work.coreProgramming (s : Work) (c : Nat) : Bool := s.programming.any (fun (a : Nat) => arrayCore a = c)

/-- ISLAND_STOP: the island drains and accepts no new work; a stopped island that is to be gated is gated. What R554 does first is
done at the first island; the management island is never stopped, and a router only on the way to L3 or L4 (R21). -/
def Work.islandStop (s : Work) (i : Nat) (gate : Bool) : Work :=
  let s := match s.boot.target with
    | some t => if 2 ≤ t then s.entryBegin t else s
    | none => s
  let waits := match s.boot.target with
    | some t => decide (2 ≤ t) && !s.boot.begun
    | none => false
  let programming := match islandCore i with
    | some c => s.coreProgramming c
    | none => false
  let routes := islandKind i = 2 && !s.boot.target.any (3 ≤ ·)
  if i = 0xAD || routes || waits || programming then s
  else match s.islandCond i with
    | .running => (s.setIsland i .draining).modBoot (fun b => { b with gating := if gate then b.gating ++ [i] else b.gating })
    | .stopped => if gate then (s.setIsland i .gated).powerSettle else s
    | _ => s

def execIslandStop (island : Nat) (gate : Bool) (s : State) : Host.Outcome State Fault Refusal :=
  s.nextIf (islandPresent s.ident island) (fun w => w.islandStop island gate)

/-- An engine with no MVM, recompute or epilogue. -/
def Engine.idle (e : Engine) : Bool := e.queue.isEmpty && e.runs.isEmpty && e.waiting.isEmpty && e.reading.isEmpty && e.arrived.isEmpty

/-- The work of an island is complete: for an engine or core island its engines' MVMs, the step and the core's test. A router is the last
to stop: no memory controller and no seam bridge can route traffic through its stops any more (R21, R34). A transfer is one event: none is
under way in a router or the seam between two commands, and one that waits waits at its source. -/
def Work.islandQuiet (s : Work) (i : Nat) : Bool :=
  match islandCore i with
  | some c => s.engines.all (fun (p : Nat × Engine) => p.1 / 32 ≠ c || p.2.idle) && (s.step.running.isNone || s.step.ended) &&
      !(s.coreTest c).running
  | none => if islandKind i = 2 then s.islandIds.all (fun (x : Nat) => (islandKind x ≠ 3 && islandKind x ≠ 7) || !s.islandOpen x) else true

/-- What the stop of an island's clock or power takes with it. -/
def Work.islandGone (s : Work) (i : Nat) (gated : Bool) : Work :=
  if islandKind i = 4 ∧ gated then
    let l := i - 0x98
    if (s.link l).state = linkUp ∨ (s.link l).state = linkActive then s.linkDown l else s.retrain l
  else if islandKind i = 5 ∧ gated then s.setPort (i - 0xA8) (s.port (i - 0xA8)).down
  else s

/-- ISLAND_DRAIN_COMPLETE: with its work complete the clock stops, and the power goes if the state entered gates the island. -/
def Work.islandDrained (s : Work) (i us : Nat) : Work :=
  if s.islandCond i ≠ .draining || !s.islandQuiet i then s
  else
    let gated := s.boot.gating.contains i
    let s := ((s.setIsland i (if gated then .gated else .stopped)).add Obj.islandStops 1).raise Obj.drainMaxUs us
    let s := s.modBoot (fun b => { b with gating := b.gating.filter (· ≠ i) })
    (s.islandGone i gated).powerSettle

def execIslandDrainComplete (island drainUs : Nat) (s : State) : Host.Outcome State Fault Refusal :=
  s.nextIf (islandPresent s.ident island) (fun w => w.islandDrained island drainUs)

/-! ## Restarting an island (R528) -/

/-- Power may return: no shutdown or supply fault is latched and boot has powered the islands. -/
def Work.mayPower (s : Work) : Bool :=
  !s.power.shutdownLatched && !s.power.supplyLatched && s.power.pwrgd && decide (s.boot.stage = 4)

/-- What an island restarts with: a core's copies rewritten (R185), a router's transfers going on (R34), a link training (R378). -/
def Work.islandBack (s : Work) (i : Nat) : Work :=
  match islandCore i with
  | some c => s.rewriteWords (fun (k : Nat) => k = c)
  | none =>
    if islandKind i = 2 ∨ islandKind i = 7 then s.releaseMesh
    else if islandKind i = 4 then s.retrain (i - 0x98)
    else s

/-- ISLAND_RESTART: a stopped or gated island takes the condition of the power state in force or in view. -/
def Work.islandRestart (s : Work) (i : Nat) : Work :=
  let c := s.islandCond i
  let new := islandWanted (s.boot.target.getD (s.get Obj.powerState)) i
  if (c ≠ .gated ∧ c ≠ .stopped) ∨ !s.mayPower ∨ new = c ∨ new = .gated then s
  else
    let s := s.setIsland i new
    if new = .running then s.islandBack i else s

/-! ## L1 by itself (R552) -/

/-- No op instance, test or calibration work is in progress. -/
def Work.atRest (s : Work) : Bool :=
  (s.step.running.isNone || s.step.ended) && s.engines.all (fun (p : Nat × Engine) => p.2.idle) && s.programming.isEmpty &&
    !s.rel.tests.any (fun (p : Nat × CoreTest) => p.2.running)

/-- L1_IDLE_EXPIRY. -/
def Work.l1Enter (s : Work) : Work :=
  if s.get Obj.l1IdleUs = 0 || s.get Obj.powerState ≠ 0 || s.boot.target.isSome || s.boot.stage ≠ 4 || !s.atRest then s
  else
    let ids := s.islandIds.filter (fun (i : Nat) => islandKind i ≤ 1 && decide (s.islandCond i = .running))
    let s := ids.foldl (fun (s : Work) (i : Nat) => (s.setIsland i .stopped).add Obj.islandStops 1) s
    s.setPower 1

def execL1IdleExpiry (s : State) : Host.Outcome State Fault Refusal := s.next (fun w => w.l1Enter)

/-- L1_EXIT. -/
def execL1Exit (s : State) : Host.Outcome State Fault Refusal :=
  s.next (fun w => if w.get Obj.powerState = 1 then w.leaveL1.intakeAll else w)

/-- PERST_RELEASE: configuration space comes up; in L4 it requests L0. -/
def Work.perstRelease (s : Work) (p : Nat) : Work :=
  if !s.power.pwrgd || !(s.port p).perst then s
  else
    let s := s.setPort p { s.port p with perst := false }
    if s.get Obj.powerState = 4 ∧ s.boot.target.isNone then (s.powerBegin 0).powerSettle else s

def execPerstRelease (port : Nat) (s : State) : Host.Outcome State Fault Refusal :=
  s.nextIf (port < 2) (fun w => w.perstRelease port)

/-! ## What a reset takes -/

/-- A class P write takes its value; CALENDAR_STAMP is a stamp (R245). -/
def Work.persistApply (s : Work) (p : PersistWrite) : Work :=
  if (findRow p.key.index p.key.sub).any (fun (r : Row) => decide (r.ty = .domain)) then s.setDom p.key p.bytes
  else if p.key = Obj.calendarStamp then s.stamp p.value (pathCode p.req.origin.path)
  else s.set p.key p.value

/-- The class P writes in progress settle at the old or the new value (R47, R568). -/
def Work.settlePersist (s : Work) : Work :=
  let s' := s.dict.persist.foldl (fun (s : Work) (p : PersistWrite) =>
    let r := s.fresh
    if r.1 % 2 = 0 then r.2 else r.2.persistApply p) s
  let s' := s'.rel.pendingLog.foldl (fun (s : Work) (x : LogRec) =>
    let r := s.fresh
    if r.1 % 2 = 0 then r.2 else r.2.storeFault x) s'
  { s' with dict := { s'.dict with persist := [] }, rel := { s'.rel with pendingLog := [] } }

/-- What an array keeps over a reset: its weights, its place in the facet map and its records; not what calibration and scheduling
held of it. -/
def Arr.afterReset (x : Arr) : Arr :=
  { x with state := if x.state = 10 then 7 else x.state, cal := .reset, trimTemp := none, queued := 0, blockedAt := none, drift := .reset, sentDue := false }

/-- The objects that remain, and the rest of the device as boot finds it: `keep` the classes kept, `power` whether power was kept. -/
def Work.reboot (s : Work) (keep : PClass → Bool) (kept : Bool) : Work :=
  let s := s.abandonShadows
  let s := s.loadEnd 0x30
  let s := s.settlePersist
  let s := s.defaultClasses (fun (c : PClass) (_ : Key) => !keep c)
  let b := Dev.reset
  let rel : RelState := { RelState.reset with
    faultLog := s.rel.faultLog, faultSeq := s.rel.faultSeq
    eventLog := if kept then s.rel.eventLog else [], eventSeq := if kept then s.rel.eventSeq else 0
    deviceFault := s.rel.deviceFault
    tests := if kept then (s.rel.tests.filter (fun (p : Nat × CoreTest) => p.2.result = 3)).map (fun (p : Nat × CoreTest) =>
      (p.1, { CoreTest.reset with requested := true })) else [] }
  let power : PowerState := { b.power with
    domains := s.power.domains.map (fun (d : ThermDomain) => { ThermDomain.reset with temp := d.temp, stackTemp := d.stackTemp })
    vinMv := s.power.vinMv, vinMa := s.power.vinMa
    pwrgd := true, regulatorFault := false
    shutdownLatched := s.power.shutdownLatched, supplyLatched := s.power.supplyLatched }
  let boot : BootState := { b.boot with
    banks := s.boot.banks, active := s.boot.active, nextActive := s.boot.nextActive
    dynAddress := if kept then s.boot.dynAddress else none, staticAddress := s.boot.staticAddress, resetting := kept }
  let hk : List HkHalf := if kept then s.hk.map (fun (h : HkHalf) =>
      { HkHalf.reset with entries := (h.committed.getD (h.entries.map (·.cfg))).map HkEntry.reset }) else b.hk
  { s with toDev := { b with
      now := s.now, free := s.free, objs := s.objs, doms := s.doms, arrs := s.arrs.map (fun (p : Nat × Arr) => (p.1, p.2.afterReset))
      life := s.life, rel := rel, power := power, boot := boot, hk := hk
      slots := if kept then s.slots else b.slots, unverifiable := if kept then s.unverifiable else []
      dram := if kept then { s.dram with scrubDone := [] } else b.dram
      links := s.links.map (fun (k : Link) => { Link.reset with cable := k.cable, lastSerial := k.lastSerial })
      host := { b.host with ports := s.host.ports.map (fun (x : Port) => if kept then { Port.reset with perst := x.perst } else Port.reset) }
      res := { b.res with shadows := s.res.shadows, awaiting := if kept then s.res.awaiting else [] } } }

/-- The sizes that a device reset puts in force (R374, R466): a change of MODEL's bounds loses what slots held there. -/
def Work.takeRegions (s : Work) : Work :=
  let x := s.dram
  let y : StackState := { x with
    modelGib := s.get Obj.modelRegionGib, scratchGib := s.get Obj.scratchRegionGib, windowGib := s.get Obj.windowRegionGib
    deltaGib := s.get Obj.deltaReserveGib, bufferKib := s.get Obj.deltaBufferKib }
  let s : Work := { s with dram := y }
  if x.region 2 = y.region 2 then s.zeroOutsideModel
  else
    let s : Work := { s with slots := List.replicate 4 ⟨[]⟩, unverifiable := [] }
    s.residentSlots.zeroAll

/-! ## Device reset (R549, R550) -/

/-- The device-fatal causes that only the removal of VIN clears (R498). -/
def latchedCause (c : Option Nat) : Bool := c = some 0x20 || c = some 0x24

/-- A device reset begins: records saved, the group told, both ports reset, and boot from the ROM. -/
def Work.startReset (s : Work) (cause : Nat) : Work :=
  let was := s.get Obj.powerState
  let s := (s.lifetimeSave.discardStep).modServe (fun x => { x with entries := [], plan := none, pageOps := [] })
  let s := if s.isWorker then s.groupFatal 2 s.ownDevice 0xFF else s
  let s := (s.portReset 0 2).portReset 1 2
  let s := s.reboot (fun (c : PClass) => c = .p || c = .s) true
  let s := (s.add Obj.deviceResets 1).set Obj.lastResetCause cause
  let s := if was = 0 then s else s.add (Obj.stateEntries 0) 1
  { s with rel := { s.rel with deviceFault := if latchedCause s.rel.deviceFault then s.rel.deviceFault else none } }

/-- RESET_WINDOW_EXPIRY: one port's assertion has not been matched. -/
def Work.resetExpired (s : Work) : Work :=
  if s.cmdState Obj.deviceReset = 1 then (s.set Obj.resetAssert 0).cmdEnd Obj.deviceReset 4 0xD1 else s

def execResetWindowExpiry (s : State) : Host.Outcome State Fault Refusal := s.next (fun w => w.resetExpired)

/-! ## Cold start (R548, R580, R581) -/

/-- COLD_START: VIN has risen past the start threshold and PWRGD rises, unless a latch holds it low. The start threshold is its typical
value (assumption log 61, DESIGN CHOICE). -/
def Work.coldStart (s : Work) (mv : Nat) : Work :=
  let s : Work := { s with power := { s.power with vinMv := mv } }
  if s.power.shutdownLatched || s.power.supplyLatched || decide (mv < 39000) then s
  else
    let s := s.residentSlots
    let s := s.reboot (fun (c : PClass) => c = .p) false
    let s := (s.add Obj.coldStarts 1).add (Obj.stateEntries 0) 1
    let s := s.modBoot (fun b => { b with staticAddress := 0x30 + s.ident.straps % 8 })
    { s with rel := { s.rel with deviceFault := none } }

def execColdStart (mv : Nat) (s : State) : Host.Outcome State Fault Refusal := s.next (fun w => w.coldStart mv)

/-! ## Boot (R557 to R560) -/

/-- A bank the ROM accepts (R559); what signs and names an image was verified when it was written. -/
def Work.bankOk (s : Work) (n : Nat) : Bool :=
  let b := s.boot.banks.getD n ⟨none, 0, 0⟩
  b.image.isSome && decide (s.get Obj.fwSvn ≤ b.svn)

/-- The measurement records of the ROM and the image (R559, R565). -/
def Work.measureBoot (s : Work) : Work :=
  let image := ((s.boot.banks.getD s.boot.active ⟨none, 0, 0⟩).image).getD []
  s.modBoot (fun b => { b with measured := b.measured ++ [(1, 0, Config.romDigest), (2, 0, Config.sha512 image)] })

/-- The end of stage 0: the bank booted, or RECOVERY. `ok` is false when the active bank fails its checks. -/
def Work.bootRom (s : Work) (ok : Bool) : Work :=
  let first := s.boot.nextActive
  let other := 1 - first
  let take := fun (s : Work) (n : Nat) =>
    let s := (s.modBoot (fun b => { b with active := n, stage := 1 })).measureBoot
    s.set Obj.firmwareVersion (s.boot.banks.getD n ⟨none, 0, 0⟩).version
  if ok && s.bankOk first then take s first
  else if s.bankOk other then take s other
  else s.modBoot (fun b => { b with stage := 15 })

/-- A slot's memory copies stand: none reads poisoned, and each agrees with MANIFEST (R175, R557). -/
def Work.copiesVerify (s : Work) (n : Nat) : Bool :=
  let x := s.slot n
  let table := sectionTable (x.section 0) (x.section 0xFF)
  manifestOk (x.section 0) (x.section 0xFF) (x.section 1) &&
    x.sections.all (fun (p : Nat × List Byte) => p.1 = 0 || p.1 = 0xFF || p.1 = 0x14 ||
      (!s.sectionPoisoned n p.1 0 p.2.length && (p.1 = 1 || sectionDigestOk table (x.section 1) p.1 (s.get (Obj.slotDieIndex n)) p.2)))

/-- A device reset verifies the copies of a slot that was READY or DRAINING again; without them it is RESIDENT (R557). -/
def Work.reverify (s : Work) (n : Nat) : Work :=
  let st := s.get (Obj.slotState n)
  if (st ≠ 3 ∧ st ≠ 4) || s.copiesVerify n then s else (s.setSlot n ⟨[]⟩).setSlotState n 5

/-- HEADER_DIGEST of the Bolt in a slot, zeros when it is EMPTY. -/
def Work.boltDigest (s : Work) (n : Nat) : List Byte :=
  if s.get (Obj.slotState n) = 0 then List.replicate 64 0
  else
    let b := slice (s.dom (Obj.slotHeader n)).bytes 192 64
    b ++ List.replicate (64 - b.length) 0

/-- A measurement block's form (0 digest, 1 raw) and value. -/
def Work.measurement (s : Work) (index : Nat) : Nat × List Byte :=
  if index = 1 then (0, Config.romDigest)
  else if index = 2 then (0, Config.sha512 (((s.boot.banks.getD s.boot.active ⟨none, 0, 0⟩).image).getD []))
  else if index = 3 then
    (0, Config.sha512 ((s.dom Obj.ownerKeys).bytes ++ toLE 1 (s.get Obj.requireSignedBolt) ++ toLE 1 (s.get Obj.requireSignedDelta) ++
      toLE 1 (s.get Obj.keyLock)))
  else if index = 4 then (1, toLE 4 (s.get Obj.fwSvn) ++ toLE 1 s.boot.active ++ toLE 3 0)
  else (1, s.boltDigest (index - 5))

/-- The records that firmware adds to those of the ROM once the slots stand: security configuration, versions and Bolts (R559, R565).
Assumption log 151, DEDUCED. -/
def Work.measureSlots (s : Work) : Work :=
  s.modBoot (fun b => { b with measured := b.measured ++ ((List.range 6).map (fun (i : Nat) => (i + 3, s.measurement (i + 3)))) })

/-- What firmware writes again of a slot that stays READY or DRAINING over a device reset (R185, R310). -/
def Work.rederive (s : Work) (n : Nat) : Work :=
  let st := s.get (Obj.slotState n)
  if st ≠ 3 ∧ st ≠ 4 then s
  else
    let sh := (s.slot n).section 0x02
    let s := (s.setDom (Obj.slotShape n) sh).set (Obj.pagePositions n) (65536 / max 1 (leAt sh 28 4))
    s.setDom (Obj.stepCost n) (Config.derivedCost ((s.slot n).section 0x03))

/-- READY (R558): the islands run, Warp first, then Weft; trims are to be applied, converters are calibrated, links train. -/
def Work.bootReady (s : Work) : Work :=
  let s : Work := { s with islands := [], net := { s.net with sramOff := [] } }
  let now := s.get Obj.poweredSeconds
  let s : Work := { s with arrs := s.arrs.map (fun (p : Nat × Arr) => (p.1, { p.2 with sentCalAt := now, rowCalAt := now })) }
  let s := s.forgetTrims.modBoot (fun b => { b with stage := 4 })
  let s := (List.range 16).foldl (fun (s : Work) (l : Nat) => s.retrain l) s
  let s := (List.range 4).foldl Work.rederive s
  let svn := (s.boot.banks.getD s.boot.active ⟨none, 0, 0⟩).svn
  let s := (s.set Obj.bootTimeMs s.boot.timeMs).raise Obj.fwSvn svn
  (s.measureSlots.modBoot (fun b => { b with resetting := false })).intakeAll

/-- BOOT_STAGE_END: the stage in progress ends after `took` ms. A stage 1 that finds a store unreadable ends boot (R558). -/
def Work.bootStage (s : Work) (ok : Bool) (took : Nat) : Work :=
  if !s.power.pwrgd || s.power.shutdownLatched || s.power.supplyLatched then s
  else
    let s := if s.boot.stage < 4 then s.modBoot (fun b => { b with timeMs := b.timeMs + took }) else s
    match s.boot.stage with
    | 0 => s.bootRom ok
    | 1 => if s.rel.deviceFault = some 0x25 then s
      else if ok then s.lifetimeRestore.modBoot (fun b => { b with stage := 2 })
      else s.deviceFatal 0x25 0 0 0
    | 2 =>
      let s := if s.boot.resetting then (List.range 4).foldl Work.reverify s.takeRegions else s.zeroAll
      ({ s with dram := { s.dram with off := false, selfRefresh := false } }).modBoot (fun b => { b with stage := 3 })
    | 3 => s.bootReady
    | _ => s

/-! ## Loss of power (R510, R521, R522, R581) -/

/-- Power goes from every island but management and from the stacks: what was in progress is abandoned, memory is lost as for L4, and
a power-state transition is abandoned (R522, R568). -/
def Work.removePower (s : Work) : Work :=
  let s := if s.cmdBusy Obj.powerStateRequest then s.cmdEnd Obj.powerStateRequest 5 0x30 else s
  let s := s.modBoot (fun b => { b with target := none, begun := false, gating := [] })
  let s : Work := { s with programming := [] }
  let s := (s.loadEnd 0x30).loseMemory.residentSlots
  let gone := s.islandIds.filter (· ≠ 0xAD)
  let s := gone.foldl (fun (s : Work) (i : Nat) => s.setIsland i .gated) s
  let s := (List.range 16).foldl (fun (s : Work) (l : Nat) => s.retrain l) s
  let s := (s.setPort 0 (s.port 0).down).setPort 1 (s.port 1).down
  { s with
    net := ⟨[], [], List.range 8⟩, hk := s.hk.map (fun (h : HkHalf) => { h with running := false }), dma := []
    dram := { s.dram with off := true, selfRefresh := false } }

/-- THERMAL_SHUTDOWN: one of the ten diodes, 0 to 4 of Warp and 5 to 9 of Weft, is at 118 °C. -/
def Work.thermalShutdown (s : Work) (channel : Nat) : Work :=
  let d := if channel < 4 then 0 else if channel = 4 then 2 else if channel < 9 then 1 else 3
  let s : Work := { s with power := { s.power with shutdownLatched := true } }
  let s := s.deviceFatal 0x20 0 0 channel
  (s.putDomain d { s.domain d with state := .shutdown }).removePower

def execThermalShutdown (channel : Nat) (s : State) : Host.Outcome State Fault Refusal :=
  s.nextIf (channel < 10) (fun w => w.thermalShutdown channel)

/-- The channel of a domain's hottest diode, as THERMAL_SHUTDOWN numbers the ten. -/
def Work.hotChannel (s : Work) (d : Nat) : Nat :=
  if 2 ≤ d then 5 * (d - 2) + 4
  else
    let value := fun (c : Nat) => match (s.hkHalf d).resultOf c with
      | some e => e.value
      | none => -32768
    5 * d + (List.range 4).foldl (fun (best c : Nat) => if value best < value c then c else best) 0

/-- THERMAL_CROSSING: a confirmed result moves the domain on its ladder; one of a diode at 118 °C shuts the device down (R518, R521). -/
def Work.thermalConfirmed (s : Work) (d : Nat) (temp : Int) (byStack : Bool) : Work :=
  if !byStack && decide (118 * 16 ≤ temp) then
    ((s.hottest d temp).setDomain d { s.domain d with temp := temp, stale := false }).thermalShutdown (s.hotChannel d)
  else s.thermalCrossing d temp byStack

def execThermalCrossing (domain : Nat) (temp16 : Int) (byStack : Bool) (s : State) : Host.Outcome State Fault Refusal :=
  s.nextIf (domain < 4 && (!byStack || domain < 2)) (fun w => w.thermalConfirmed domain temp16 byStack)

/-- SUPPLY_FAULT: cause 0 VIN low, 1 VIN high, 2 a regulator outside its limits (R510). -/
def Work.supplyFault (s : Work) (cause : Nat) : Work :=
  let s : Work := { s with power := { s.power with supplyLatched := true, regulatorFault := s.power.regulatorFault || decide (cause = 2) } }
  let s := s.deviceFatal 0x24 0 0 cause
  let s : Work := { s with power := { s.power with pwrgd := false } }
  let s := s.removePower
  (s.setPort 0 { s.port 0 with perst := true }).setPort 1 { s.port 1 with perst := true }

def execSupplyFault (cause : Nat) (s : State) : Host.Outcome State Fault Refusal :=
  s.nextIf (cause < 3) (fun w => w.supplyFault cause)

/-- FIRMWARE_FAULT. -/
def execFirmwareFault (s : State) : Host.Outcome State Fault Refusal := s.next (fun w => w.deviceFatal 0x21 0 0 0)

/-- VIN_DROP: below the module off threshold PWRGD goes low, the ports are held in reset and power is lost; above it a dip that does not
last has no effect (R581). The threshold is its typical value (assumption log 61, DESIGN CHOICE). -/
def Work.vinDrop (s : Work) (mv : Nat) : Work :=
  let s : Work := { s with power := { s.power with vinMv := mv } }
  if 36000 ≤ mv then s
  else
    let s := (s.portReset 0 0).portReset 1 0
    let s := s.discardStep.removePower
    ({ s with power := { s.power with pwrgd := false } }).modBoot (fun b => { b with stage := 0, timeMs := 0 })

def execVinDrop (mv : Nat) (s : State) : Host.Outcome State Fault Refusal := s.next (fun w => w.vinDrop mv)

/-- VIN_REMOVED: below 5 V for 1 s, the latches clear (R498, R522, R581). -/
def Work.vinRemoved (s : Work) : Work :=
  { s with
    power := { s.power with vinMv := 0, pwrgd := false, shutdownLatched := false, supplyLatched := false, regulatorFault := false }
    rel := { s.rel with deviceFault := if latchedCause s.rel.deviceFault then none else s.rel.deviceFault } }

def execVinRemoved (s : State) : Host.Outcome State Fault Refusal := s.next (fun w => w.vinRemoved)

/-- DYNAMIC_ADDRESS_ASSIGNMENT (R578). -/
def execDynamicAddressAssignment (address : Nat) (s : State) : Host.Outcome State Fault Refusal :=
  s.nextIf (address < 128) (fun w => w.modBoot (fun b => { b with dynAddress := some address }))

end Sys2Proof.Machine
end

