-- ==== Sys2Proof/Machine/Security.lean ====
section
/-! DEFINITION. Firmware banks, owner keys and KEY_LOCK, and the SPDM responder (R559, R562 to R567). The form of SPDM's messages and its
error codes are those of DSP0274 version 1.2, which R564 names (assumption log 62, PRESUMED). -/

namespace Sys2Proof.Machine

/-! ## Firmware images (R559, R562) -/

/-- Commit validation of FIRMWARE_IMAGE. Assumption log 93, DESIGN CHOICE. -/
def Work.imageCheck (s : Work) (b : List Byte) : Option Nat :=
  if !Config.imageWellFormed b then some 2
  else if !Config.imageSigned b then some 3
  else if Config.imageSvn b < s.get Obj.fwSvn then some 4
  else if !Config.imageForCrasiast b then some 5
  else none

/-- A committed image goes to the inactive bank. -/
def Work.imageStore (s : Work) (b : List Byte) : Work :=
  s.modBoot (fun x => { x with banks := x.banks.set (1 - x.active) ⟨some b, Config.imageVersion b, Config.imageSvn b⟩ })

/-- FIRMWARE_ACTIVATE: the inactive bank boots next; in RECOVERY it boots at once (R560). -/
def Work.imageActivate (s : Work) (o : Origin) : Work :=
  let n := 1 - s.boot.active
  if (s.boot.banks.getD n ⟨none, 0, 0⟩).image.isNone then s.cmdFail Obj.firmwareActivate o 0xD4
  else
    let s := (s.modBoot (fun x => { x with nextActive := n })).cmdDone Obj.firmwareActivate o
    if s.boot.stage = 15 then s.bootRom true else s

/-- INACTIVE_VERSION. -/
def Work.inactiveVersion (s : Work) : Nat :=
  let b := s.boot.banks.getD (1 - s.boot.active) ⟨none, 0, 0⟩
  if b.image.isSome then b.version else 0

/-! ## Owner keys (R566, R567) -/

/-- The keys of an OWNER_KEYS value, or none when its layout is malformed: n keys from the bytes left. -/
def ownerKeysIn : Nat → List Byte → Option (List (List Byte))
  | 0, rest => if rest.isEmpty then some [] else none
  | n + 1, b =>
    let len := leAt b 0 2
    let whole := alignUp (4 + len) 4
    if b.length < whole ∨ leAt b 2 2 ≠ 0 ∨ (slice b (4 + len) (whole - 4 - len)).any (· ≠ 0) then none
    else (ownerKeysIn n (b.drop whole)).map (fun (ks : List (List Byte)) => slice b 4 len :: ks)

/-- What precedes and follows the 512 modulus bytes of an RSA-4096 key with exponent 65,537 in DER SubjectPublicKeyInfo form. -/
def spkiHead : List Byte :=
  [0x30, 0x82, 0x02, 0x22, 0x30, 0x0D, 0x06, 0x09, 0x2A, 0x86, 0x48, 0x86, 0xF7, 0x0D, 0x01, 0x01, 0x01, 0x05, 0x00, 0x03, 0x82, 0x02,
   0x0F, 0x00, 0x30, 0x82, 0x02, 0x0A, 0x02, 0x82, 0x02, 0x01, 0x00]

def spkiTail : List Byte := [0x02, 0x03, 0x01, 0x00, 0x01]

def rsa4096Key (k : List Byte) : Bool :=
  k.length = 550 && slice k 0 33 = spkiHead && slice k 545 5 = spkiTail && decide (128 ≤ leAt k 33 1)

def hasDuplicate : List (List Byte) → Bool
  | [] => false
  | k :: ks => ks.contains k || hasDuplicate ks

/-- Commit validation of OWNER_KEYS; while KEY_LOCK is 1 every commit fails for that (R567). -/
def Work.ownerKeysCheck (s : Work) (b : List Byte) : Option Nat :=
  let keys := if b.length < 8 ∨ 8 < leAt b 0 1 ∨ leAt b 1 7 ≠ 0 then none else ownerKeysIn (leAt b 0 1) (b.drop 8)
  if s.get Obj.keyLock = 1 then some 5
  else match keys with
  | none => some 2
  | some ks =>
    if !ks.all rsa4096Key then some 3
    else if hasDuplicate ks then some 4
    else none

/-- Commit validation of OWNER_UNLOCK (R567). -/
def Work.unlockCheck (s : Work) (b : List Byte) : Option Nat :=
  if b.length ≠ 576 then some 2
  else
    let keys := s.ownerKeys.filter (fun (k : List Byte) => Config.sha512 k = slice b 0 64)
    let msg := toLE 8 s.ident.serial ++ toLE 8 (s.get Obj.unlockNonce)
    if keys.isEmpty then some 3
    else if !keys.any (fun (k : List Byte) => Config.rsaPssVerify k msg (slice b 64 512)) then some 4
    else none

/-- A verified unlock: the lock clears and the nonce is fresh. -/
def Work.unlock (s : Work) : Work :=
  let r := (s.set Obj.keyLock 0).fresh
  r.2.set Obj.unlockNonce (r.1 % 2 ^ 64)

/-! ## Measurements (R565) -/

/-- A block as GET_MEASUREMENTS carries it. -/
def Work.measurementBytes (s : Work) (index : Nat) : List Byte :=
  let m := s.measurement index
  toLE 1 index ++ toLE 1 m.1 ++ toLE 2 m.2.length ++ m.2

/-- MEASUREMENT_LOG (R571). -/
def Work.measurementLog (s : Work) : List Byte :=
  let recs := s.boot.measured.map (fun (m : Nat × Nat × List Byte) =>
    toLE 1 m.1 ++ toLE 1 m.2.1 ++ toLE 6 0 ++ (m.2.2 ++ List.replicate (64 - m.2.2.length) 0).take 64)
  countedRecords recs

/-! ## SPDM (R564) -/

def Work.spdmConn (s : Work) (p : Path) : SpdmConn := look .reset s.boot.spdm p

def Work.setSpdm (s : Work) (p : Path) (c : SpdmConn) : Work := s.modBoot (fun b => { b with spdm := put b.spdm p c })

/-- SPDM is answered on the DOE mailbox of each physical function and on the management port, unless its port has no power (R551),
and not in RECOVERY (R560, R564). -/
def Work.spdmAnswers (s : Work) (p : Path) : Bool :=
  let up : Bool := match p with
    | .portA => decide (s.islandCond 0xA8 ≠ .gated)
    | .portB => decide (s.islandCond 0xA9 ≠ .gated)
    | .mgmt => true
    | .fabric => false
  s.power.pwrgd && decide (s.boot.stage ≠ 15) && up

/-- A response: its bytes join the connection's transcript with those of the request. -/
def Work.spdmReply (s : Work) (p : Path) (request : List Byte) (code : Nat) (bytes : List Byte) : Work :=
  let c := s.spdmConn p
  (s.setSpdm p { c with transcript := c.transcript ++ request ++ toLE 1 code ++ bytes }).send (.spdm p code bytes)

/-- ERROR: 1 InvalidRequest, 4 UnexpectedRequest. -/
def Work.spdmError (s : Work) (p : Path) (code : Nat) : Work := s.send (.spdm p 0x7F (toLE 1 code ++ toLE 1 0))

/-- A signature by the identity key over the connection's transcript and what is signed with it (R563). -/
def Work.spdmSign (s : Work) (p : Path) (bytes : List Byte) : List Byte := Config.identitySign ((s.spdmConn p).transcript ++ bytes)

/-- A fresh 32-byte nonce. -/
def Work.spdmNonce (s : Work) : List Byte × Work :=
  let r := s.fresh
  (toLE 32 r.1, r.2)

/-- Whether the connection has negotiated what a request needs. -/
def SpdmConn.ready (c : SpdmConn) : Bool := c.version && c.capabilities && c.algorithms

/-- GET_VERSION begins a connection anew: version 1.2 only. Assumption log 62, PRESUMED. -/
def execGetVersion (path : Path) (s : State) : Host.Outcome State Fault Refusal :=
  s.next (fun w =>
    if !w.spdmAnswers path then w
    else (w.setSpdm path { SpdmConn.reset with version := true }).spdmReply path (toLE 1 0x84) 0x04 (toLE 1 1 ++ toLE 1 0x12))

/-- GET_CAPABILITIES: CERT_CAP, CHAL_CAP, MEAS_CAP with signature and MEAS_FRESH_CAP, and the data transfer size. -/
def execGetCapabilities (path : Path) (s : State) : Host.Outcome State Fault Refusal :=
  s.next (fun w =>
    let c := w.spdmConn path
    if !w.spdmAnswers path then w
    else if !c.version then w.spdmError path 4
    else (w.setSpdm path { c with capabilities := true }).spdmReply path (toLE 1 0xE1) 0x61 (toLE 4 0x36 ++ toLE 4 8192))

/-- NEGOTIATE_ALGORITHMS: RSAPSS-4096 and SHA-512 when the requester offers them, by their bit numbers. -/
def execNegotiateAlgorithms (path : Path) (asym hash : List Nat) (s : State) : Host.Outcome State Fault Refusal :=
  s.next (fun w =>
    let c := w.spdmConn path
    let a := asym.contains 6
    let h := hash.contains 2
    if !w.spdmAnswers path then w
    else if !c.capabilities then w.spdmError path 4
    else (w.setSpdm path { c with algorithms := a && h }).spdmReply path
      (toLE 1 0xE3 ++ asym.flatMap (toLE 1) ++ hash.flatMap (toLE 1)) 0x63
      (toLE 4 (if a then 2 ^ 6 else 0) ++ toLE 4 (if h then 2 ^ 2 else 0) ++ toLE 4 (2 ^ 3)))

/-- GET_DIGESTS: slot 0 only. -/
def execGetDigests (path : Path) (s : State) : Host.Outcome State Fault Refusal :=
  s.next (fun w =>
    if !w.spdmAnswers path then w
    else if !(w.spdmConn path).ready then w.spdmError path 4
    else w.spdmReply path (toLE 1 0x81) 0x01 (toLE 1 1 ++ Config.sha512 Config.certChain))

/-- GET_CERTIFICATE: part of the chain of slot 0, with the bytes that remain. -/
def execGetCertificate (path : Path) (slot offset length : Nat) (s : State) : Host.Outcome State Fault Refusal :=
  s.next (fun w =>
    let n := min length (min 8184 (Config.certChain.length - offset))
    if !w.spdmAnswers path then w
    else if !(w.spdmConn path).ready then w.spdmError path 4
    else if slot ≠ 0 ∨ Config.certChain.length ≤ offset then w.spdmError path 1
    else w.spdmReply path (toLE 1 0x82 ++ toLE 1 slot ++ toLE 2 offset ++ toLE 2 length) 0x02
      (toLE 2 n ++ toLE 2 (Config.certChain.length - offset - n) ++ slice Config.certChain offset n))

/-- CHALLENGE: digest of the chain, a fresh nonce and the signature. -/
def execChallenge (path : Path) (slot : Nat) (nonce : List Byte) (s : State) : Host.Outcome State Fault Refusal :=
  s.next (fun w =>
    if !w.spdmAnswers path then w
    else if !(w.spdmConn path).ready then w.spdmError path 4
    else if slot ≠ 0 then w.spdmError path 1
    else
      let request := toLE 1 0x83 ++ toLE 1 slot ++ nonce
      let r := w.spdmNonce
      let body := Config.sha512 Config.certChain ++ r.1
      (r.2.add Obj.spdmChallenges 1).spdmReply path request 0x03 (body ++ r.2.spdmSign path (request ++ body)))

/-- GET_MEASUREMENTS: index 0 asks how many there are, 0xFF for all; a signed request adds a fresh nonce and the signature. -/
def execGetMeasurements (path : Path) (index : Nat) (signed : Bool) (nonce : List Byte) (s : State) : Host.Outcome State Fault Refusal :=
  s.next (fun w =>
    let all := (List.range 8).map (· + 1)
    let picked := if index = 0xFF then all else all.filter (· = index)
    if !w.spdmAnswers path then w
    else if !(w.spdmConn path).ready then w.spdmError path 4
    else if index ≠ 0 ∧ picked.isEmpty then w.spdmError path 1
    else
      let request := toLE 1 0xE0 ++ toLE 1 index ++ nonce
      let body := toLE 1 (if index = 0 then 8 else picked.length) ++ picked.flatMap w.measurementBytes
      if !signed then w.spdmReply path request 0x60 body
      else
        let r := w.spdmNonce
        let body := body ++ r.1
        (r.2.add Obj.spdmChallenges 1).spdmReply path request 0x60 (body ++ r.2.spdmSign path (request ++ body)))

end Sys2Proof.Machine
end

