-- ==== Sys2Proof/Machine/Orders.lean ====
section
/-! DEFINITION. The manager's orders at a member, the members' reports at the manager, and the release of a slot (R263 to R268, R272,
R351, R357, R366, R371, R387, R409, R553). -/

namespace Sys2Proof.Machine

/-! ## Releasing a slot (R265, R268) -/

/-- A slot becomes EMPTY: its facets are free, and its copies, records, delta sets and KV are gone. -/
def Work.releaseSlot (s : Work) (n : Nat) : Work :=
  let s := ((s.freeFacets n).setSlot n ⟨[]⟩).clearSlotRecords n
  let s := s.modVars (fun v => { v with
    held := v.held.filter (fun (h : HeldSet) => decide (h.slot ≠ n)), checked := v.checked.filter (fun (c : CheckedPart) => decide (c.slot ≠ n)) })
  let s : Work := { s with
    layerCounts := s.layerCounts.filter (fun (c : LayerCount) => decide (c.slot ≠ n))
    step := { s.step with kv := s.step.kv.filter (fun (k : KvPos) => decide (k.slot ≠ n)) }
    res := { s.res with awaiting := s.res.awaiting.filter (· ≠ n) } }
  s.setSlotState n 0

/-- SLOT_RELEASE: a RESIDENT or FAILED slot only. -/
def Work.slotReleaseCmd (s : Work) (n : Nat) (o : Origin) : Work :=
  let st := s.get (Obj.slotState n)
  if st = 5 ∨ st = 6 then (s.releaseSlot n).cmdDone Obj.slotRelease o else s.cmdFail Obj.slotRelease o 0x37

/-! ## Orders (R387) -/

/-- A drain is complete: RELEASE empties the slot, REPROGRAM leaves it READY and awaiting. -/
def Work.drainDone (s : Work) (n kind : Nat) : Work :=
  if s.get (Obj.slotState n) ≠ 4 then s
  else if kind = 0 then s.releaseSlot n
  else { s.setSlotState n 3 with res := { s.res with awaiting := s.res.awaiting ++ [n] } }

/-- An order to a power state (R553). -/
def Work.powerOrder (s : Work) (t : Nat) : Work :=
  if s.boot.target.isSome then s
  else if s.get Obj.powerState = t then (if t = 0 then s.toMember 0 (.report .coresRestored) else s)
  else if s.get Obj.powerState = 1 ∧ t = 0 then s.leaveL1.toMember 0 (.report .coresRestored)
  else (s.powerBegin t).powerSettle

/-- An order at a worker or, for power and dissolution, at the standby. -/
def Work.order (s : Work) (k : OrderKind) : Work :=
  if s.isWorker then
    match k with
    | .pause slot _ => { s with res := { s.res with
        paused := if s.res.paused.contains slot then s.res.paused else s.res.paused ++ [slot], pauseAsked := s.res.pauseAsked.filter (· ≠ slot) } }
    | .drain slot => if s.get (Obj.slotState slot) = 3 then s.setSlotState slot 4 else s
    | .drainComplete slot kind => s.drainDone slot kind
    | .deltaLoad slot variant tenant off len file poison => s.deltaLoadOrder slot variant tenant off len file poison
    | .deltaInstall slot variant version handle => s.deltaInstallOrder slot variant version handle
    | .deltaDrop slot variant handle => s.deltaDropOrder slot variant handle
    | .tuneSetup job slot variant base work seed lr decay windowSteps => s.tuneSetupOrder job slot variant base work seed lr decay windowSteps
    | .tunePublish work slot variant version handle => s.tunePublishOrder work slot variant version handle
    | .tuneEnd job => s.tuneEndOrder job
    | .power t => s.powerOrder t
    | .dissolve => s.leaveGroup
  else if s.isStandby then
    match k with
    | .power t => s.powerOrder t
    | .dissolve => s.leaveGroup
    | _ => s
  else s

def execOrder (o : OrderKind) (s : State) : Host.Outcome State Fault Refusal := s.next (fun w => w.order o)

/-! ## Reports at the manager -/

/-- What a worker holds in a slot has changed (R267): the manager's record of it, a drain's workers still to give the slot up, and
STEP_COST of a new program (R310). Assumption log 42, DEDUCED. -/
def Work.slotReported (s : Work) (h : SlotHeld) : Work :=
  let old := s.serve.held.find? (fun (x : SlotHeld) => x.worker = h.worker && x.slot = h.slot)
  let fresh := match old with
    | some x => decide (x.program ≠ h.program)
    | none => true
  let s := s.modServe (fun x => { x with
    held := (x.held.filter (fun (y : SlotHeld) => !(y.worker = h.worker && y.slot = h.slot))) ++ [h]
    drains := x.drains.map (fun (d : Drain) =>
      if d.slot = h.slot ∧ d.complete ∧ h.state ≠ 3 ∧ h.state ≠ 4 then { d with left := d.left.filter (· ≠ h.worker) } else d) })
  if fresh && !h.program.isEmpty then s.setDom (Obj.stepCost h.slot) (Config.derivedCost h.program) else s

/-- A report of a worker. -/
def Work.orderReport (s : Work) (worker : Nat) (x : ReportKind) : Work :=
  if !s.isManager || !s.workers.contains worker then s
  else match x with
    | .deltaChecked slot variant result largest values => s.deltaReport worker slot variant result largest values
    | .coresRestored => ((s.modServe (fun v => { v with restoring := v.restoring.filter (· ≠ worker) })).groupPowerSettle).idle
    | .pauseAsked slot facets => (s.modServe (fun v => { v with pauses := v.pauses ++ [⟨slot, worker, facets, false, 0⟩] })).idle
    | .slotState slot state dieIndex boltId version dies positions vocab kind program shape sets =>
      (s.slotReported ⟨worker, slot, state, dieIndex, boltId, version, dies, positions, vocab, kind, program, shape, sets⟩).idle
    | .setPoisoned handle => s.modServe (fun v => { v with badSets := v.badSets ++ [handle] })

def execOrderReport (worker : Nat) (x : ReportKind) (s : State) : Host.Outcome State Fault Refusal :=
  s.next (fun w => w.orderReport worker x)

end Sys2Proof.Machine
end

