-- ==== Sys2Proof/Machine/Views.lean ====
section
/-! DEFINITION. What objects read that are no stored value: what the object tables call "as found", "per ID", "fused" and "firmware", and
the counts of things the device holds (R48, R113, R115, R144, R248, R277, R375, R479, R501). -/

namespace Sys2Proof.Machine

/-! ## The caller (R58, R74) -/

/-- The tenant ID of a tenant function's window (R413). -/
def originTenant (o : Origin) : Option Nat :=
  if o.fn = 0 then none
  else match o.path with
    | .portA => some (o.fn - 1)
    | .portB => some (512 + o.fn - 1)
    | _ => none

/-- The largest segment of a path (R55). -/
def maxSegment (p : Path) : Nat := if p = .mgmt then 1024 else 4096

/-- An owner code of a caller as DMA_ASSIGN names it (R444). -/
def originOwner (o : Origin) (tenant : Nat) : Nat :=
  match originTenant o with
  | some t => t
  | none => match o.path with
    | .portA => 0x400
    | .portB => 0x401
    | _ => tenant

/-! ## Scalars -/

/-- The dictionary service (R74) and identity (R16, R38, R570). -/
def Work.viewIdentity (s : Work) (o : Origin) (k : Key) : Option Nat :=
  if k = Obj.dictVersion then some Config.dictVersion
  else if k = Obj.maxSegment then some (maxSegment o.path)
  else if k = Obj.openSessions then some s.dict.sessions.length
  else if k = Obj.parkedNow then some (s.dict.parked.filter (fun (p : ParkedReq) => !p.dead)).length
  else if k = Obj.myPath then some (pathCode o.path)
  else if k = Obj.myTenant then some ((originTenant o).getD 0xFFFF)
  else if k = Obj.serial then some s.ident.serial
  else if k = Obj.enterpriseNumber then some s.ident.enterprise
  else if k = Obj.manufactured then some s.ident.manufactured
  else if k = Obj.romVersion then some s.ident.romVersion
  else if k = Obj.inactiveVersion then some s.inactiveVersion
  else if k = Obj.bootStage then some s.boot.stage
  else if k = Obj.activeBank then some s.boot.active
  else if k = Obj.grade then some s.ident.grade
  else if k = Obj.goodCores then some ((List.range 64).filter (goodCore s.ident)).length
  else if k = Obj.coreMaskLo then some (s.ident.coreMask % 2 ^ 32)
  else if k = Obj.coreMaskHi then some (s.ident.coreMask / 2 ^ 32)
  else if k = Obj.assignableFacets then some (124 * ((List.range 64).filter (goodCore s.ident)).length)
  else if k = Obj.spareFacets then some (4 * ((List.range 64).filter (goodCore s.ident)).length)
  else if k = Obj.islandCount then some s.islandIds.length
  else if k.index = 0x2100 then some (s.islandStatus k.sub)
  else none

/-- Joules from 0.1 µJ (R531); a fraction has no stated rounding. -/
def energyJ (e : Nat) : Nat := wholeIn 64 (((e : Nat) : Rat) / 10000000)

/-- Power, heat and the monitor (R531, R546). -/
def Work.viewPower (s : Work) (k : Key) : Option Nat :=
  let half := (k.sub - 1) / 16
  let entry := (k.sub - 1) % 16
  if k = Obj.inputPowerMw then some (wholeIn 32 s.meanPower)
  else if k = Obj.inputVoltageMv then some s.power.vinMv
  else if k = Obj.inputCurrentMa then some s.power.vinMa
  else if k = Obj.inputEnergyJ then some (energyJ s.power.energy)
  else if k = Obj.headroomMw then some (unsigned 32 (openWhole (((1000 * s.get Obj.powerCapW : Nat) : Rat) - s.meanPower)))
  else if k.index = 0x3100 then some (unsigned 32 (s.domain (k.sub - 1)).temp)
  else if k.index = 0x3101 then some (thermalStateWord (s.domain (k.sub - 1)))
  else if k.index = 0x3200 then some (s.effMhz (32 * (k.sub - 1)))
  else if k = Obj.supplyStatus then some s.supplyStatus
  else if k.index = 0x3816 then some (hkStatusWord (s.hkHalf (k.sub - 1)))
  else if k.index = 0x3830 then some (((s.hkHalf half).entries[entry]?.map hkResultWord).getD 0)
  else if k.index = 0x3831 then some (unsigned 32 (((s.hkHalf half).entries[entry]?.bind (·.minV)).getD 0))
  else if k.index = 0x3832 then some (unsigned 32 (((s.hkHalf half).entries[entry]?.bind (·.maxV)).getD 0))
  else none

/-- Whether an engine is gated, its core absent, or a reference engine (R144). -/
def Work.engineState (s : Work) (e : Nat) : Nat :=
  if !goodCore s.ident (e / 32) then 0
  else if e % 32 = 31 then 2
  else if s.islandCond (e / 32) = .gated then 3
  else 1

/-- Facets, engines and slots, and the queue of refreshes and the calendar (R112, R143, R222, R245, R251, R276). -/
def Work.viewFacets (s : Work) (k : Key) : Option Nat :=
  if k = Obj.facetsAssigned then some (s.countState 2)
  else if k = Obj.facetsSuspect then some (s.countState 5)
  else if k = Obj.sparesFree then some ((List.range 256).filter (fun (n : Nat) => (s.arr (0x8000 + n)).state = 7)).length
  else if k = Obj.slicesRetired then some ((List.range 8192).filter (fun (f : Nat) => (s.arr f).retiredPos.isSome)).length
  else if k = Obj.enginesInService then some ((List.range 2048).filter (fun (e : Nat) => s.engineState e = 1)).length
  else if k = Obj.facetsUnallocated then
    some ((List.range 8192).filter (fun (f : Nat) => let x := s.arr f; x.state ≠ 0 && x.state ≠ 3 && x.slot = 0xFF)).length
  else if k = Obj.shadowsActive then some s.res.shadows.length
  else if k = Obj.refreshQueue then some s.refreshCount
  else if k = Obj.calendarNow then some s.calendarNow
  else if k.index = 0x5601 then some (s.admission (k.sub - 1))
  else none

/-- Requests, pages, grammars and variants (R310, R340, R374). -/
def Work.viewServing (s : Work) (k : Key) : Option Nat :=
  let t := k.tenant
  if k = Obj.wideClassNow then some (s.serve.entries.filter (fun (e : Entry) => e.live && e.wide)).length
  else if k = Obj.liveRequests then some s.serve.entries.length
  else if k = Obj.kvPagesTotal then some s.pagesTotal
  else if k = Obj.kvPagesFree then some s.pagesFree
  else if k = Obj.kvPagesShared then some s.pagesSharedCount
  else if k = Obj.tenantLive t then some (s.serve.entries.filter (fun (e : Entry) => e.tenant = t)).length
  else if k = Obj.tenantPages t then some (s.tenantPageCount t)
  else if k = Obj.draftPagesFree then some (if s.isManager then s.draftPagesFree else 0)
  else if k = Obj.grammarStoreBytes then some (if s.isManager then s.grammarStore else 0)
  else if k = Obj.grammarStoreFree then some (if s.isManager then s.grammarStore - s.grammarUsed else 0)
  else if k = Obj.grammarsLoaded then some s.serve.grammars.length
  else if k = Obj.deltaReserveBytes then some s.reserveBytes
  else if k = Obj.deltaReserveFree then some (s.reserveBytes - s.charged)
  else if k = Obj.deltaSetsLoaded then some (if s.isManager then s.vars.sets.length + s.vars.loads.length else (s.vars.held.filter (fun (h : HeldSet) => h.work.isNone)).length)
  else if k = Obj.deltaSetsBad then
    some (if s.isManager then (s.vars.sets.filter (fun (x : DeltaSet) => x.state = 4)).length
      else (s.vars.held.filter (fun (x : HeldSet) => x.bad)).length)
  else if k = Obj.tenantDeltaBytes t then some (s.tenantCharged t)
  else if k = Obj.tuneJobsRunning then some (s.vars.jobs.filter TuneJob.active).length
  else none

/-- Links, ports, DMA and memory (R409, R440, R461, R479). -/
def Work.viewPorts (s : Work) (o : Origin) (k : Key) : Option Nat :=
  let t := k.tenant
  if k.index = 0x8200 then some (s.linkStatus (k.sub - 1))
  else if k.index = 0x9010 then some (s.port (k.sub - 1)).status
  else if k.index = 0x9012 then some (s.attentionWord (k.sub - 1))
  else if k.index = 0x9013 then some (s.attentionMask (k.sub - 1))
  else if k = Obj.tenantAttention t then some (s.tenantAttentionWord t)
  else if k = Obj.completionsWaiting t then some (s.ring t).waiting.length
  else if k = Obj.windowBackingFree then some s.backingFree
  else if k = Obj.windowsZeroing then some s.host.zeroing.length
  else if k.index = 0x9800 ∧ k.sub = 9 then some (s.dmaMyChannels (originOwner o t))
  else if k.index = 0x9810 then some (s.dmaOwner (k.sub - 1))
  else if k.index = 0x9815 then some (dmaStatusWord (s.dmaChan (k.sub - 1)))
  else if k = Obj.kvRegionGib then some (s.dram.sizes.getD 5 0)
  else if k.index = 0xA300 then some (s.stackTempC (k.sub - 1))
  else none

/-- The value of an object that is no DOMAIN or STR, as a caller reads it. -/
def Work.readNat (s : Work) (o : Origin) (k : Key) : Nat :=
  ((s.viewIdentity o k).or ((s.viewPower k).or ((s.viewFacets k).or ((s.viewServing k).or (s.viewPorts o k))))).getD
    (s.get k)

/-! ## Strings -/

/-- The part number of a grade, and the ordering code: the part number and the one memory option there is (R1, R2). -/
def partNumber (grade : Nat) : List Byte :=
  if grade = 0 then ascii "SVX-CR64" else if grade = 1 then ascii "SVX-CR60" else ascii "SVX-CR56"

def orderingCode (grade : Nat) : List Byte := partNumber grade ++ ascii "-M384"

/-- The value of a STR object (R570). -/
def Work.readStr (s : Work) (k : Key) : List Byte :=
  if k = Obj.vendor then ascii "Aglum"
  else if k = Obj.partNumber then orderingCode s.ident.grade
  else if k = Obj.dieStepping then s.ident.stepping
  else []

/-! ## Snapshots -/

/-- The ID of an array as tables write it (R113). -/
def arrayId (a : Nat) : Nat := a

/-- A record of FACET_TABLE (R113). -/
def Work.facetRec (s : Work) (a : Nat) : List Byte :=
  let x := s.arr a
  let partner := if x.state = 6 then (match x.mapTo with | some n => n | none => 0xFFFF)
    else if x.state = 8 ∨ x.state = 9 then x.partner else 0xFFFF
  toLE 2 (arrayId a) ++ toLE 1 x.state ++ toLE 1 x.slot ++
    toLE 1 (bit (decide (x.slot < 4) && s.goldenPresent (arrayCore a) x.slot) + 2 * bit x.retiredPos.isSome + 4 * bit (decide (x.queued ≠ 0))) ++
    toLE 1 (x.outPos.getD 0xFF) ++ toLE 2 partner

/-- A record of FACET_WEAR (R248). -/
def Work.wearRec (s : Work) (a : Nat) : List Byte :=
  let x := s.arr a
  if x.state = 0 then toLE 2 (arrayId a) ++ toLE 14 0
  else
    toLE 2 (arrayId a) ++ toLE 2 x.programs ++ toLE 2 x.refreshes ++ toLE 2 (s.shiftWord a) ++ toLE 4 (wholeIn 32 x.age) ++
      toLE 1 x.lastReason ++ toLE 1 x.queued ++ toLE 2 0

/-- A record of ENGINE_TABLE (R144). -/
def Work.engineRec (s : Work) (e : Nat) : List Byte :=
  let st := s.engineState e
  let x := look Engine.reset s.engines e
  let held := !(x.waiting.isEmpty && x.reading.isEmpty && x.arrived.isEmpty)
  let served := fun (i : Nat) => s.arr (s.serving (4 * e + i))
  toLE 2 e ++ toLE 1 st ++ toLE 1 (bit (!x.badWords.isEmpty) + 2 * bit held) ++
    (List.range 4).flatMap (fun (i : Nat) => toLE 2 (unsigned 16 (served i).gamma)) ++
    (List.range 4).flatMap (fun (i : Nat) => toLE 2 (unsigned 16 (served i).beta)) ++ toLE 2 (s.engineStore e).length ++ toLE 2 0

/-- The layers of a slot with a CIM_MVM or CIM_MVMT, ascending (R115): CIM_MVMT stands only in TUNE_PROGRAM (R201). -/
def Work.cimLayers (s : Work) (n : Nat) : List Nat :=
  sortAsc ((((s.program n).ops ++ (s.tuneProgram n).ops).filter (fun (o : OpRec) => o.opcode = 1 || o.opcode = 2)).map (fun (o : OpRec) => o.layer)).eraseDups

/-- LAYER_COUNTS (R115). A count past its field is written modulo 2^32 or 2^64, as the spec gives no overflow (assumption log 114, DESIGN
CHOICE). -/
def Work.layerTable (s : Work) : List Byte :=
  countedRecords ((List.range 4).flatMap (fun (n : Nat) => (s.cimLayers n).map (fun (l : Nat) =>
    let c := (s.layerCounts.find? (fun (x : LayerCount) => x.slot = n && x.layer = l)).getD ⟨n, l, 0, 0, 0, 0, 0, 0⟩
    toLE 1 n ++ toLE 1 0 ++ toLE 2 l ++ toLE 8 (countIn 64 c.phases) ++
      [c.replays, c.clamps, c.unrecovered, c.treplays, c.tclamps].flatMap (fun (v : Nat) => toLE 4 (countIn 32 v)))))

/-- A record of SHADOW_TABLE (R277). -/
def Shadow.bytes (h : Shadow) : List Byte :=
  toLE 1 h.spare ++ toLE 1 h.kind ++ toLE 2 h.facet ++ toLE 1 h.phase ++ toLE 1 h.reason ++ toLE 2 0

/-- A record of the fault or event log (R501). -/
def LogRec.bytes (r : LogRec) : List Byte :=
  toLE 4 r.seq ++ toLE 4 r.powered ++ toLE 8 r.calendar ++ toLE 1 r.severity ++ toLE 1 r.device ++ toLE 2 r.code ++ toLE 1 r.unitKind ++
    toLE 1 r.slot ++ toLE 2 r.unit ++ toLE 2 r.repeats ++ toLE 2 r.tenant ++ toLE 4 r.detail

/-- The variant that VARIANT_SELECT of a tenant names, when the caller may see it (R374). -/
def Work.selectedVariant (s : Work) (o : Origin) (t : Nat) : Option Variant :=
  let v := s.get (Obj.variantSelect t)
  match s.loaded (field v 13 12) (field v 11 0) with
  | some x => if (originTenant o).isNone || x.visible t then some x else none
  | none => none

/-- The entry that REQUEST_SELECT of a tenant names, when it is the tenant's (R310). -/
def Work.selectedEntry (s : Work) (t : Nat) : Option Entry := (s.byHandle (s.get (Obj.requestSelect t))).filter (fun (e : Entry) => e.tenant = t)

/-- TUNE_STATUS of a tenant: its last started job (R374). -/
def Work.tuneStatus (s : Work) (t : Nat) : List Byte :=
  match (s.vars.jobs.filter (fun (j : TuneJob) => j.tenant = t)).getLast? with
  | some j => j.status
  | none => []

/-- A session or a read could not open: its status and detail. -/
abbrev Refused := Nat × Nat

/-- The value of a DOMAIN as a read session of a caller finds it. -/
def Work.readDomain (s : Work) (o : Origin) (k : Key) : Except Refused (List Byte) :=
  let arrays := List.range 8192 ++ (List.range 256).map (0x8000 + ·)
  if k = Obj.certChain then .ok Config.certChain
  else if k = Obj.measurementLog then .ok s.measurementLog
  else if k = Obj.ownerUnlock then .ok []
  else if k = Obj.facetWear then .ok (arrays.flatMap s.wearRec)
  else if k = Obj.facetTable then .ok (arrays.flatMap s.facetRec)
  else if k = Obj.engineTable then .ok ((List.range 2048).flatMap s.engineRec)
  else if k = Obj.layerCounts then .ok s.layerTable
  else if k = Obj.tempHistogram then
    let b := (s.dom k).bytes
    .ok (b ++ List.replicate (320 - b.length) 0)
  else if k = Obj.shadowTable then .ok (countedRecords (s.res.shadows.map Shadow.bytes))
  else if k.index = 0x3811 then
    let h := s.hkHalf (k.sub - 1)
    .ok ((h.committed.getD (h.entries.map (·.cfg))).flatMap hkCfgBytes)
  else if k.index = 0x6400 ∧ k.sub = 2 then
    match s.selectedEntry k.tenant with
    | some e => .ok e.bytes
    | none => .error (4, 0)
  else if k = Obj.requestTable then .ok ((List.range 16384).flatMap s.entryBytes)
  else if k.index = 0x7200 ∧ k.sub = 2 then
    match s.selectedVariant o k.tenant with
    | some v => .ok (s.variantInfo v)
    | none => .error (4, 0)
  else if k.index = 0x7300 ∧ k.sub = 3 then .ok (s.tuneStatus k.tenant)
  else if k = Obj.windowTable then
    .ok (s.windowTable (fun (w : WindowRec) => match originTenant o with
      | some t => decide (w.owner = t)
      | none => true))
  else if k = Obj.regionMap then .ok s.dram.regionMap
  else if k = Obj.errorLog then .ok (countedRecords (s.dram.errors.map errRecBytes))
  else if k = Obj.testTable then .ok s.testTable
  else if k = Obj.faultLog then .ok (countedRecords (s.rel.faultLog.map LogRec.bytes))
  else if k = Obj.eventLog then .ok (countedRecords (s.rel.eventLog.map LogRec.bytes))
  else .ok (s.dom k).bytes

end Sys2Proof.Machine
end

