-- ==== Sys2Proof/Machine/Access.lean ====
section
/-! DEFINITION. Who may reach which object: paths, visibility, roles, claims, and the order of the checks (R20, R41, R53 to R58, R63 to
R67, R74, R309, R339, R373, R408, R445, R560, R569). The order among the checks is assumption log 63, DEDUCED. -/

namespace Sys2Proof.Machine

/-! ## Paths that are up -/

/-- A request can arrive: the device has power, the path is up, and its window exists (R58, R551, R569). -/
def Work.reaches (s : Work) (o : Origin) : Bool :=
  let fnOk := o.fn = 0 || (match originTenant o with
    | some t => decide (o.fn ≤ 512) && s.tenantExists t
    | none => false)
  s.power.pwrgd && fnOk &&
    match o.path with
    | .portA => decide (s.islandCond 0xA8 ≠ .gated)
    | .portB => decide (s.islandCond 0xA9 ≠ .gated)
    | .mgmt => true
    | .fabric => s.isWorker && s.formed

/-! ## Ranges (R65 to R67) -/

/-- The first index of each range of R65, and the first index past them. -/
def rangeStarts : List Nat :=
  [0x1000, 0x2000, 0x3000, 0x3800, 0x4000, 0x5000, 0x6000, 0x6800, 0x7000, 0x8000, 0x9000, 0x9800, 0xA000, 0xB000, 0xC000, 0xD000]

/-- The sub-index of RANGE_OWNER that covers an index, 0 for a reserved one. -/
def rangeSub (i : Nat) : Nat := if 0xE000 ≤ i then 0 else (rangeStarts.filter (fun (a : Nat) => decide (a ≤ i))).length

/-- The path code of another path that claims an index's range; claims do not extend to 0x1F00 to 0x1FFF. -/
def Work.claimedBy (s : Work) (o : Origin) (i : Nat) : Option Nat :=
  let c := s.get (Obj.rangeOwner (rangeSub i - 1))
  if (0x1F00 ≤ i ∧ i ≤ 0x1FFF) ∨ rangeSub i = 0 ∨ c = 0 ∨ c = pathCode o.path then none else some c

/-- Whether the path and role permit a write (R66). WINDOW_EDIT (0x9200.01) is a physical function's or the management port's to
commit (R416), so the manager over the fabric opens no write of it: assumption log 146, DEDUCED. -/
def Work.roleAllows (s : Work) (o : Origin) (cls : PClass) (i : Nat) : Bool :=
  let edits : Bool := decide (i = 0x9200)
  let serving : Bool := decide (0x6000 ≤ i) && decide (i ≤ 0x8FFF)
  match originTenant o with
  | some _ =>
    if serving then !s.isWorker && decide (i ≤ 0x7FFF) && decide (cls = .t)
    else decide (0x9000 ≤ i) && decide (i ≤ 0x9FFF) && decide (cls = .t)
  | none => if o.path = .fabric then !edits else !(serving && s.isWorker) || o.path = .mgmt

/-! ## Finding the object -/

/-- Whether a caller may see an object (R54, R445). -/
def Work.visible (s : Work) (o : Origin) (row : Row) (sub : Nat) : Bool :=
  match originTenant o with
  | none => true
  | some t => row.tenantVisible && (!(decide (0x9811 ≤ row.index) && decide (row.index ≤ 0x9817)) || s.dmaOwner (sub - 1) = t)

/-- What the ROM serves in RECOVERY (R560). -/
def recoveryServes (i sub : Nat) : Bool :=
  (decide (0x1000 ≤ i) && decide (i ≤ 0x10FF)) ||
    [Obj.bootStage, Obj.firmwareImage, Obj.firmwareActivate].any (fun (k : Key) => k.index = i && k.sub = sub)

/-- The value a request names: for class T the instance of its tenant, a channel's for its owner. -/
def keyFor (row : Row) (sub tenant : Nat) : Key :=
  if row.cls = .t && !ofChannel ⟨row.index, sub, 0⟩ then ⟨row.index, sub, tenant⟩ else ⟨row.index, sub, 0⟩

/-- The object a request names, with its row; none is NO_OBJECT (R54, R58, R65). The objects of a DMA channel have one set for its
owner, so the TENANT of a request that may see them is not looked at (assumption log 121, DEDUCED). -/
def Work.lookup (s : Work) (r : Req) : Option (Row × Key) :=
  match findRow r.index r.sub with
  | none => none
  | some row =>
    let k := keyFor row r.sub r.tenant
    if !s.visible r.origin row r.sub then none
    else if row.cls = .t && !ofChannel k && !s.tenantExists r.tenant then none
    else if s.boot.stage = 15 && !recoveryServes r.index r.sub then none
    else some (row, k)

/-! ## Objects that act only at the manager (R169, R309, R339, R373) -/

/-- Objects that a worker holds at their defaults. Assumption log 68, DEDUCED. -/
def managerOnly (i : Nat) : Bool :=
  i = 0x4E00 || (decide (0x6000 ≤ i) && decide (i ≤ 0x61FF)) || (decide (0x6300 ≤ i) && decide (i ≤ 0x6FFF)) ||
    (decide (0x7200 ≤ i) && decide (i ≤ 0x7FFF) && decide (i ≠ 0x7302))

/-- An object is at rest on this device: a worker's copy of what acts only at the manager. -/
def Work.resting (s : Work) (i : Nat) : Bool := s.isWorker && managerOnly i

/-! ## Checks -/

/-- Bytes of a type's value (R43); a STR holds at most 64. -/
def typeSize : ObjType → Nat
  | .u8 => 1
  | .u16 => 2
  | .u32 => 4
  | .u64 => 8
  | .i32 => 4
  | .bool => 1
  | .bits32 => 4
  | .str => 64
  | .domain => 0

/-- A read of a serving object in L3 or L4 is refused with STATE. -/
def Work.readState (s : Work) (i : Nat) : Option Refused :=
  let p := s.get Obj.powerState
  if 0x6000 ≤ i ∧ i ≤ 0x7FFF ∧ 3 ≤ p then some (8, p) else none

/-- What permits a write: ROLE, then OWNED. -/
def Work.writeRefused (s : Work) (o : Origin) (row : Row) : Option Refused :=
  if !s.roleAllows o row.cls row.index then some (7, 0)
  else (s.claimedBy o row.index).map (fun (c : Nat) => (6, c))

/-- The seam island serves its own objects; all others are served by the management island, which is never stopped. Assumption log 7, DEDUCED. -/
def servedBySeam (i : Nat) : Bool := i = 0x2200

end Sys2Proof.Machine
end

