-- ==== Sys2Proof/Machine/Actions.lean ====
section
/-! DEFINITION. What writing an object does: values, the actions of CMD objects, and the validation and effect of DOMAIN commits, each
chapter's own (R45, R46, R67, R70, R71, R75). -/

namespace Sys2Proof.Machine

/-! ## Values -/

/-- A claim on a range: the checks of RANGE_OWNER (R67). -/
def Work.claimRefused (s : Work) (o : Origin) (k : Key) (v : Nat) : Option Refused :=
  let own := pathCode o.path
  let c := s.get k
  if o.path = .mgmt then none
  else if v ≠ 0 ∧ v ≠ own then some (4, 0)
  else if c ≠ 0 ∧ c ≠ own then some (6, c)
  else none

/-- Why a value of its row's legal range is refused all the same. -/
def Work.valueRefused (s : Work) (o : Origin) (k : Key) (v : Nat) : Option Refused :=
  let t := k.tenant
  let n := k.sub - 1
  let ringOn := s.get (Obj.ringEnable t) = 1
  if k.index = 0x1F01 then s.claimRefused o k v
  else if k = Obj.keyLock then (if v = 0 then some (4, 0) else none)
  else if k = Obj.requireSignedBolt ∨ k = Obj.requireSignedDelta then (if s.get Obj.keyLock = 1 then some (4, 0) else none)
  else if k.index = 0x3810 then (if s.roundRefused n v then some (4, 0) else none)
  else if k.index = 0x6012 then
    let sh := s.mainShape n
    if !sh.isEmpty && decide (leAt sh 32 4 < v) then some (4, 0) else none
  else if k = Obj.deltaBufferKib then (if v % 2 = 1 then some (4, 0) else none)
  else if k.index = 0x8201 then
    (if (s.link n).state = linkActive ∧ v ≠ s.get k then some (8, s.get Obj.powerState) else none)
  else if k = Obj.intakeEntries t then
    (if !ringSizeOk 64 4096 v then some (4, 0) else if ringOn then some (5, Config.busyDetail k) else none)
  else if k = Obj.cqEntries t then
    (if !ringSizeOk 64 65536 v then some (4, 0) else if ringOn then some (5, Config.busyDetail k) else none)
  else if k = Obj.cqBase t then (if ringOn then some (5, Config.busyDetail k) else none)
  else if k = Obj.ringEnable t then (if s.ringEnableRefused t v then some (4, 0) else none)
  else if k.index = 0x9810 then
    match s.dmaAssignRefused o n v with
    | some 4 => some (4, 0)
    | some st =>
      let slot := match (s.dmaChan n).running with | some (i, _) => i | none => 0
      some (st, s.cmdSource (dmaGoKey n slot))
    | none => none
  else none

/-- An accepted write of an RW or WO object. -/
def Work.putValue (s : Work) (k : Key) (v : Nat) : Work :=
  let t := k.tenant
  if s.resting k.index then s
  else if k.index = 0x8201 then s.setLinkEnable (k.sub - 1) v
  else if k.index = 0x9810 then s.dmaAssignTo (k.sub - 1) v
  else if k = Obj.ringEnable t then s.setRingEnable t v
  else if k = Obj.plannerRun then (s.set k v).idle
  else if k = Obj.testIntervalS then s.setTestInterval v
  else s.set k v

/-- A write of a W1C object: BITS32 clears the bits written as 1, any other type is zeroed by a value other than 0 (R45). -/
def Work.clearValue (s : Work) (row : Row) (k : Key) (v : Nat) : Work :=
  if row.ty = .bits32 then s.set k (clearMask (s.get k) v) else if v = 0 then s else s.set k 0

/-! ## RESTORE_DEFAULTS (R75) -/

/-- The bit of a class in the class mask. -/
def classCode : PClass → Nat
  | .p => 0
  | .s => 1
  | .d => 2
  | .t => 3
  | .i => 4

/-- Whether RESTORE_DEFAULTS of a caller returns a value to its default. -/
def Work.restores (s : Work) (o : Origin) (arg : Nat) (k : Key) : Bool :=
  match findRow k.index k.sub with
  | none => false
  | some row =>
    let lit := match row.dflt with
      | .lit _ => true
      | .word _ => false
    lit && !(row.access = .ro || row.access = .cmd) && bitAt arg (8 + classCode row.cls) &&
      (arg % 256 = 0xFF || rangeSub k.index = arg % 256) && !(decide (0x1F00 ≤ k.index) && decide (k.index ≤ 0x1FFF)) &&
      !(decide (0xC000 ≤ k.index) && decide (k.index ≤ 0xCFFF)) && s.roleAllows o row.cls k.index && (s.claimedBy o k.index).isNone

/-- RESTORE_DEFAULTS's action: class T objects for every tenant; a link enabled again trains, a planner started again plans, tests fall
due by the restored interval. Assumption log 73, DEDUCED. -/
def Work.restoreDefaults (s : Work) (arg : Nat) (o : Origin) : Work :=
  let off := (List.range 16).filter (fun (l : Nat) => s.get (Obj.linkEnable l) = 0 && s.restores o arg (Obj.linkEnable l))
  let s := off.foldl (fun (s : Work) (l : Nat) => s.setLinkEnable l 1) s
  let s := if s.restores o arg Obj.testIntervalS then s.setTestInterval (defaultOf Obj.testIntervalS) else s
  let s : Work := { s with
    objs := s.objs.filter (fun (p : Key × Nat) => !s.restores o arg p.1)
    doms := s.doms.map (fun (p : Key × DomVal) => if s.restores o arg p.1 && !p.2.bytes.isEmpty then (p.1, ⟨p.2.gen + 1, []⟩) else p) }
  (s.cmdDone Obj.restoreDefaults o).idle

/-! ## CMD objects -/

/-- The arguments that start an action: the row's range, and what the object's definition adds. A bit to which no rule gives a meaning is
out of range at one (assumption log 106, DEDUCED). -/
def Work.argOk (s : Work) (row : Row) (k : Key) (arg : Nat) : Bool :=
  decide (row.min ≤ arg) && decide (arg ≤ row.max) &&
    (if k = Obj.restoreDefaults then
      decide (arg < 2 ^ 13) && ((decide (1 ≤ arg % 256) && decide (arg % 256 ≤ 16)) || arg % 256 = 0xFF)
    else if k = Obj.trimRead then (if bitAt arg 15 then field arg 14 8 = 0 else field arg 14 13 = 0)
    else if k = Obj.refreshFacet then (s.arr arg).state = 2
    else if k = Obj.replaceSlot then field arg 7 4 = 0 && decide (field arg 3 2 ≤ 1) && decide (field arg 31 8 ≤ 600000)
    else if k = Obj.groupPower then arg ≠ 1
    else if k = Obj.variantPin then field arg 15 14 = 0
    else if k.index = 0x9813 ∨ k.index = 0x9814 then !(s.dom (dmaDescKey (k.sub - 1) (k.index - 0x9813))).bytes.isEmpty
    else true)

/-- Start the action of a CMD, but for DEVICE_RESET. -/
def Work.startAction (s : Work) (k : Key) (arg : Nat) (o : Origin) : Work :=
  let t := k.tenant
  let n := k.sub - 1
  if k = Obj.restoreDefaults then s.restoreDefaults arg o
  else if k = Obj.firmwareActivate then s.imageActivate o
  else if k = Obj.powerStateRequest then s.powerRequest arg o
  else if k = Obj.groupPower then s.groupPower arg o
  else if k = Obj.trimRead then (s.trimSnapshot arg).cmdDone k o
  else if k = Obj.refreshFacet then (s.queueRefresh arg 4).cmdDone k o
  else if k.index = 0x3833 then (s.minmaxRestart n arg).cmdDone k o
  else if k = Obj.layerCountsClear then (s.layerClear arg).cmdDone k o
  else if k = Obj.loadStart then s.loadStart o
  else if k = Obj.slotRelease then s.slotReleaseCmd arg o
  else if k = Obj.replaceSlot then s.replaceSlot arg o
  else if k = Obj.requestCancel t then s.requestCancelCmd t arg o
  else if k = Obj.requestHold t then s.requestHoldCmd t arg o
  else if k = Obj.requestResume t then s.requestResumeCmd t arg o
  else if k = Obj.requestRelease t then s.requestReleaseCmd t arg o
  else if k = Obj.grammarDelete t then s.grammarDelete k t arg o
  else if k = Obj.globalGrammarDelete then s.grammarDelete k 0xFFFF arg o
  else if k = Obj.variantLoad t then s.variantLoad t o
  else if k = Obj.variantUnload t then s.variantUnloadCmd t arg o
  else if k = Obj.variantPin then s.variantPinCmd arg o
  else if k = Obj.tuneStart t then s.tuneStart t o
  else if k = Obj.groupForm then s.groupForm o
  else if k = Obj.groupDissolve then s.dissolve o
  else if k = Obj.mirrorRelease then s.releaseMirror o
  else if k.index = 0x9813 then s.dmaStart n 0 o
  else if k.index = 0x9814 then s.dmaStart n 1 o
  else if k = Obj.scrubNow then s.scrubStart o
  else if k = Obj.sweepNow then s.sweepStart o
  else if k = Obj.testNow then s.testNow arg o
  else s

/-- An aborted pass or sweep ends at once; the spec names no RESULT for it. -/
def Work.endAborted (s : Work) (k : Key) : Work :=
  let r := s.fresh
  r.2.cmdEnd k 5 (r.1 % 65536)

/-- Abort the action of an abortable CMD (R70). Assumption log 66, DEDUCED. -/
def Work.abort (s : Work) (k : Key) : Work :=
  let t := k.tenant
  if k = Obj.loadStart then s.loadStop 0x30
  else if k = Obj.variantLoad t then s.variantLoadAbort t
  else if k = Obj.tuneStart t then s.tuneAbort t
  else if k.index = 0x9813 then s.dmaAbort (k.sub - 1) 0
  else if k.index = 0x9814 then s.dmaAbort (k.sub - 1) 1
  else if k = Obj.scrubNow then s.endAborted k
  else if k = Obj.sweepNow then ({ s with rel := { s.rel with sweeping := false } }).endAborted k
  else s

/-! ## DOMAIN commits (R71) -/

/-- Whether a slot's TUNE_PROGRAM stands, by the reasons of R216; where no Bolt is held to bind it, it stands (R363). -/
def Work.tuneProgramCheck (s : Work) (n : Nat) (b : List Byte) : Option Nat :=
  if (s.slot n).has 0x10 then
    lowest (s.programReasons b (s.placement n) (setSizes ((s.slot n).section 0x05)) (((s.slot n).section 0x04).length / 3088) false true ++
      (if tensorsNamed (programOf b) ((s.slot n).section 0x15) then [] else [0x1F]))
  else none

/-- The owning chapter's validation: the detail of COMMIT_FAILED. -/
def Work.commitRefused (s : Work) (o : Origin) (k : Key) (b : List Byte) : Option Nat :=
  let t := k.tenant
  let n := k.sub - 1
  if k = Obj.firmwareImage then s.imageCheck b
  else if k = Obj.ownerKeys then s.ownerKeysCheck b
  else if k = Obj.ownerUnlock then s.unlockCheck b
  else if k.index = 0x3811 then
    match hkValidate (s.get (Obj.roundUs n)) s.dram.off b with
    | .error d => some d
    | .ok _ => none
  else if k = Obj.loadRequest then loadRequestCheck b
  else if k.index = 0x6011 ∨ k.index = 0x7301 then (if costOk b then none else some 2)
  else if k = Obj.grammarImage t then s.grammarCheck t (s.get (Obj.grammarId t)) b
  else if k = Obj.globalGrammarImage then s.grammarCheck 0xFFFF (s.get Obj.globalGrammarId) b
  else if k = Obj.variantLoadRequest t then variantRequestCheck b (originTenant o).isSome
  else if k = Obj.tuneJob t then tuneJobCheck b
  else if k.index = 0x7302 then s.tuneProgramCheck n b
  else if k = Obj.groupPlan then (if planOk s.ident.serial b then none else some 2)
  else if k = Obj.windowEdit then s.windowCheck b
  else if k.index = 0x9811 ∨ k.index = 0x9812 then dmaValidate b (s.cmdBusy (dmaGoKey n (k.index - 0x9811)))
  else none

/-- A request of the manager's own firmware to a member (R363). -/
def ownReq (d : Nat) (k : Key) (handle arg : Nat) (payload : List Byte) : Req :=
  ⟨⟨.fabric, 0⟩, 0, d, 0, k.index, k.sub, 0, handle % 1024, handle / 1024, arg, payload⟩

/-- The manager begins to commit its TUNE_PROGRAM to every worker: a write session at each (R363). Assumption log 67, DEDUCED. -/
def Work.commitAtWorkers (s : Work) (k : Key) (b : List Byte) : Work :=
  if !(s.isManager && s.formed) then s
  else s.workers.foldl (fun (s : Work) (d : Nat) =>
    let r := ownReq d k 0 b.length []
    let s : Work := { s with dict := { s.dict with forwarded := s.dict.forwarded ++ [⟨r, 0x11, [d], 0, none⟩] } }
    s.toMember d (.dictRequest 0x11 r)) s

/-- The session at a worker is open: the segments follow, and the commit. -/
def Work.commitSegments (s : Work) (d handle : Nat) (k : Key) : Work :=
  let b := (s.dom k).bytes
  let s := (List.range ((b.length + 4095) / 4096)).foldl (fun (s : Work) (i : Nat) =>
    s.toMember d (.dictRequest 0x13 (ownReq d k handle (4096 * i) (slice b (4096 * i) 4096)))) s
  s.toMember d (.dictRequest 0x14 (ownReq d k handle 0 []))

/-- A validated value replaces the old one, and takes its effect. -/
def Work.commitApply (s : Work) (k : Key) (b : List Byte) : Work :=
  let t := k.tenant
  let n := k.sub - 1
  if k = Obj.ownerUnlock then s.unlock
  else if s.resting k.index then s
  else
    let s := s.setDom k b
    if k = Obj.firmwareImage then s.imageStore b
    else if k.index = 0x3811 then
      match hkValidate (s.get (Obj.roundUs n)) s.dram.off b with
      | .ok cfgs => s.setHk n { s.hkHalf n with committed := some cfgs }
      | .error _ => s
    else if k = Obj.grammarImage t then (if s.isManager then s.grammarInstall t (s.get (Obj.grammarId t)) b else s)
    else if k = Obj.globalGrammarImage then (if s.isManager then s.grammarInstall 0xFFFF (s.get Obj.globalGrammarId) b else s)
    else if k.index = 0x7302 then s.commitAtWorkers k b
    else if k = Obj.windowEdit then s.windowApply b
    else s

end Sys2Proof.Machine
end

