-- ==== Sys2Proof/Machine/Server.lean ====
section
/-! DEFINITION. The dictionary server: each opcode, parking, forwarding, function windows and requests that wait (R44 to R64, R69 to R74,
R435, R549). -/

namespace Sys2Proof.Machine

/-- A refusal as a response. -/
def Work.refuseReq (s : Work) (op : Nat) (r : Req) (x : Refused) : Work := s.respond op r x.1 x.2 []

def Work.modDict (s : Work) (f : DictState → DictState) : Work := { s with dict := f s.dict }

/-! ## Stopped islands (R20, R41, R63) -/

/-- The request waits for its island; a window shows it as parked. -/
def Work.park (s : Work) (op island : Nat) (r : Req) : Work :=
  let s := s.modDict (fun d => { d with parked := d.parked ++ [⟨r, op, island, false⟩] })
  match originWindow r.origin with
  | some w => s.setWindow w { s.window w with parked := true }
  | none => s

/-- An access to an object of the seam island: it waits, is refused, or goes on. -/
def Work.atIsland (s : Work) (op : Nat) (r : Req) (go : Work → Work) : Work :=
  if !servedBySeam r.index then go s
  else match s.islandCond 0xAC with
    | .gated | .stopped => s.park op 0xAC r
    | .faulted => s.refuseReq op r (9, 0xAC)
    | _ => go s

/-! ## READ, DESCRIBE and NEXT (R51, R52, R54) -/

/-- A progress word as it reads: PROGRESS of an action that has begun and is not DONE is open (R69; assumption log 100,
DESIGN CHOICE). -/
def Work.progressShown (s : Work) (k : Key) : Nat :=
  let w := s.get k
  if field w 3 0 = 2 ∨ 4 ≤ field w 3 0 then
    let p := Config.progress k s.free (s.get Obj.requestsServed) % 102
    progressWord (field w 3 0) (field w 7 4) (if p = 101 then 255 else p) (field w 31 16)
  else w

/-- The bytes that a READ returns: of a CMD its progress word (R45, R69). -/
def Work.readValue (s : Work) (o : Origin) (row : Row) (k : Key) : List Byte :=
  let lit := match row.dflt with
    | .lit _ => true
    | .word _ => false
  if row.access = .cmd then toLE 4 (s.progressShown k)
  else if row.ty = .str then s.readStr k
  else toLE (typeSize row.ty) (if lit && s.resting k.index then defaultOf k else s.readNat o k)

def Work.serveRead (s : Work) (r : Req) : Work :=
  match s.lookup r with
  | none => s.refuseReq 1 r (1, 0)
  | some (row, k) =>
    if row.access = .wo ∨ row.ty = .domain then s.refuseReq 1 r (2, 0)
    else match s.readState r.index with
      | some x => s.refuseReq 1 r x
      | none =>
        if !r.payload.isEmpty then s.refuseReq 1 r (3, 0)
        else s.atIsland 1 r (fun s => s.respond 1 r 0 0 (s.readValue r.origin row k))

def typeCode : ObjType → Nat
  | .u8 => 1
  | .u16 => 2
  | .u32 => 3
  | .u64 => 4
  | .i32 => 5
  | .bool => 6
  | .bits32 => 7
  | .str => 8
  | .domain => 9

def accessCode : Access → Nat
  | .ro => 0
  | .rw => 1
  | .wo => 2
  | .w1c => 3
  | .cmd => 4

/-- The length that the spec fixes for a DOMAIN, or the greatest it can have; the others are bounded by their type alone (R43, R113,
R144, R176, R227, R246 to R248, R257, R281, R311, R356, R364, R390, R411, R416, R447, R474, R501, R506, R535, R566, R567). -/
def maxLength (index sub : Nat) : Nat :=
  match index with
  | 0x1100 => 320
  | 0x1180 => 64 * 32
  | 0x3811 => 128
  | 0x4300 => 8448 * 8
  | 0x4600 => 2048 * 24
  | 0x4800 => 16 + 5 * 640
  | 0x4A00 => 8448 * 16
  | 0x5019 => 256
  | 0x5400 => 64
  | 0x6011 => 32
  | 0x6400 => if sub = 2 then 128 else 16384 * 128
  | 0x7200 => if sub = 3 then 64 else 2 ^ 32 - 1
  | 0x7300 => if sub = 1 then 64 else 2 ^ 32 - 1
  | 0x7301 => 32
  | 0x8000 => if sub = 9 then 254 * 16 else if sub = 0x10 then 16 + 254 * 32 else 1024
  | 0x8100 => 8 + 16384 * 128
  | 0x9200 => if sub = 1 then 32 else 8 + 1026 * 64 * 32
  | 0x9811 | 0x9812 => 64
  | 0xA010 => 96
  | 0xA100 => 8 + 256 * 16
  | 0xB300 => 64 * 8
  | 0xB400 => if sub = 1 then 8 + 4096 * 32 else 8 + 1024 * 32
  | 0xC100 => if sub = 1 then 8 + 8 * 556 else 576
  | _ => 2 ^ 32 - 1

/-- The maximum legal value that DESCRIBE reports (R52): a DOMAIN's is its length; of an I32 the greatest is positive; the two
arguments made of fields have their reserved bits 0 (R75). -/
def maxLegal (row : Row) : Nat :=
  if row.ty = .domain then maxLength row.index row.subLo
  else if row.ty = .i32 then
    (match row.index, row.subLo with
    | 0x4C00, 2 => 2 ^ 32 - 19
    | 0x4C00, 3 => 11
    | 0x4C00, 4 => 2 ^ 32 - 132
    | 0x4C00, 5 => 121
    | _, _ => 2 ^ 31 - 1)
  else if row.index = 0x1F00 ∧ row.subLo = 8 then 0x1FFF
  else row.max

/-- The 24-byte descriptor (R52). No object of the tables is of class I, so no restore flag is set. Assumption log 69, DESIGN CHOICE. -/
def describeRow (row : Row) (k : Key) : List Byte :=
  let word := match row.dflt with
    | .lit _ => false
    | .word _ => true
  let dflt := match row.dflt with
    | .lit v => v
    | .word _ => Config.wordDefault k
  toLE 1 (typeCode row.ty) ++ toLE 1 (accessCode row.access) ++ toLE 1 (classCode row.cls) ++
    toLE 1 (bit row.tenantVisible + 4 * bit row.abortable + 8 * bit word) ++ toLE 4 0 ++ toLE 8 dflt ++ toLE 8 (maxLegal row)

/-- DESCRIBE reads no value: the state of the island that serves the object makes no difference (assumption log 122, DEDUCED). -/
def Work.serveDescribe (s : Work) (r : Req) : Work :=
  match s.lookup r with
  | none => s.refuseReq 3 r (1, 0)
  | some (row, k) => if !r.payload.isEmpty then s.refuseReq 3 r (3, 0) else s.respond 3 r 0 0 (describeRow row k)

/-- The first visible sub-index of a row after a given object, as index and sub-index in one number. -/
def Work.nextIn (s : Work) (o : Origin) (after : Nat) (row : Row) : Option Nat :=
  (((List.range (row.subHi + 1 - row.subLo)).map (row.subLo + ·)).find? (fun (sub : Nat) =>
    decide (after < 256 * row.index + sub) && s.visible o row sub && (s.boot.stage ≠ 15 || recoveryServes row.index sub))).map
    (fun (sub : Nat) => 256 * row.index + sub)

def Work.serveNext (s : Work) (r : Req) : Work :=
  if !r.payload.isEmpty then s.refuseReq 4 r (3, 0)
  else
    let n := (Catalogue.rows.filterMap (s.nextIn r.origin (256 * r.index + r.sub))).foldl min 0xFFFFFF
    s.respond 4 r 0 0 (toLE 2 (n / 256) ++ toLE 1 (n % 256))

/-! ## WRITE (R45, R47, R70) -/

/-- DEVICE_RESET of a path: a write that completes a pair resets, and while the CMD waits only the other port's is taken (R549, R70).
Assumption log 110, DEDUCED. -/
def Work.serveReset (s : Work) (r : Req) : Work :=
  let key := Obj.deviceReset
  let port := fun (p : Nat) =>
    let bits := s.get Obj.resetAssert
    let s' := s.set Obj.resetAssert (setBit bits p)
    if bitAt bits p then s.refuseReq 2 r (5, s.cmdSource key)
    else if bitAt bits (1 - p) then (s.respond 2 r 0 0 []).startReset 1
    else if !s.cmdBusy key then (s'.cmdStart key 1 r.origin).respond 2 r 0 0 []
    else if s.cmdSource key = p + 1 then s.refuseReq 2 r (5, s.cmdSource key)
    else s'.respond 2 r 0 0 []
  match r.origin.path with
  | .portA => port 0
  | .portB => port 1
  | .fabric => if s.cmdBusy key then s.refuseReq 2 r (5, s.cmdSource key) else (s.respond 2 r 0 0 []).startReset 2
  | .mgmt => s.refuseReq 2 r (7, 0)

/-- A write of a CMD: all ones aborts, any other argument starts the action (R70). The response tells that the action has started. -/
def Work.serveCmd (s : Work) (r : Req) (row : Row) (k : Key) (v : Nat) : Work :=
  if v = 2 ^ typeBits row.ty - 1 then
    if row.abortable && s.cmdBusy k then (s.respond 2 r 0 0 []).abort k else s.refuseReq 2 r (4, 0)
  else if !s.argOk row k v then s.refuseReq 2 r (4, 0)
  else if k = Obj.deviceReset then s.serveReset r
  else if s.cmdBusy k then s.refuseReq 2 r (5, s.cmdSource k)
  else if k = Obj.powerStateRequest ∧ s.boot.target.isSome then s.refuseReq 2 r (5, s.cmdSource k)
  else (s.respond 2 r 0 0 []).startAction k v r.origin

/-- A class P write waits for the non-volatile store; a second one of the same object meanwhile is refused (R47). -/
def Work.persistWrite (s : Work) (op : Nat) (r : Req) (k : Key) (v : Nat) (b : List Byte) : Work :=
  match s.dict.persist.find? (fun (p : PersistWrite) => p.key = k) with
  | some p => s.refuseReq op r (5, pathCode p.req.origin.path)
  | none => s.modDict (fun d => { d with persist := d.persist ++ [⟨r, op, k, v, b, false⟩] })

/-- The write of a value that has passed the checks of access, path and length. -/
def Work.serveValue (s : Work) (r : Req) (row : Row) (k : Key) (v : Nat) : Work :=
  if v < row.min ∨ row.max < v then s.refuseReq 2 r (4, 0)
  else match s.valueRefused r.origin k v with
    | some x => s.refuseReq 2 r x
    | none =>
      if row.access = .w1c then (s.clearValue row k v).respond 2 r 0 0 (s.readValue r.origin row k)
      else if row.cls = .p then s.persistWrite 2 r k v []
      else (s.putValue k v).respond 2 r 0 0 []

def Work.serveWrite (s : Work) (r : Req) : Work :=
  match s.lookup r with
  | none => s.refuseReq 2 r (1, 0)
  | some (row, k) =>
    if row.access = .ro ∨ row.ty = .domain then s.refuseReq 2 r (2, 0)
    else match s.writeRefused r.origin row with
      | some x => s.refuseReq 2 r x
      | none =>
        if r.payload.length ≠ typeSize row.ty then s.refuseReq 2 r (3, typeSize row.ty)
        else s.atIsland 2 r (fun s =>
          let v := ofLE r.payload
          if row.access = .cmd then s.serveCmd r row k v else s.serveValue r row k v)

/-! ## DOMAIN sessions (R71 to R73) -/

/-- Neither the path nor the device has as many sessions as it may have. -/
def Work.sessionFree (s : Work) (p : Path) : Bool :=
  decide ((s.dict.sessions.filter (fun (x : Session) => x.origin.path = p)).length < 8) && decide (s.dict.sessions.length < 32)

/-- A handle that no open session has (assumption log 65, DESIGN CHOICE). -/
def Work.newHandle (s : Work) : Nat :=
  (((List.range 33).map (fun (i : Nat) => (s.dict.nextHandle + i - 1) % 65535 + 1)).find?
    (fun (h : Nat) => !s.dict.sessions.any (fun (x : Session) => x.handle = h))).getD 1

/-- A session opens. -/
def Work.openSession (s : Work) (x : Session) : Work :=
  s.modDict (fun d => { d with sessions := d.sessions ++ [x], nextHandle := x.handle % 65535 + 1 })

def Work.closeSession (s : Work) (h : Nat) : Work :=
  s.modDict (fun d => { d with sessions := d.sessions.filter (fun (x : Session) => decide (x.handle ≠ h)) })

def Work.serveOpenRead (s : Work) (r : Req) : Work :=
  match s.lookup r with
  | none => s.refuseReq 0x10 r (1, 0)
  | some (row, k) =>
    if row.ty ≠ .domain ∨ row.access = .wo then s.refuseReq 0x10 r (2, 0)
    else match s.readState r.index with
      | some x => s.refuseReq 0x10 r x
      | none =>
        if !r.payload.isEmpty then s.refuseReq 0x10 r (3, 0)
        else match s.readDomain r.origin k with
          | .error x => s.refuseReq 0x10 r x
          | .ok b =>
            let b := if s.resting k.index then [] else b
            if !s.sessionFree r.origin.path then s.refuseReq 0x10 r (0x10, pathCode r.origin.path)
            else
              let h := s.newHandle
              (s.openSession ⟨h, r.origin, false, k, b.length, b, (s.dom k).gen⟩).respond 0x10 r 0 h (toLE 4 b.length)

def Work.serveOpenWrite (s : Work) (r : Req) : Work :=
  match s.lookup r with
  | none => s.refuseReq 0x11 r (1, 0)
  | some (row, k) =>
    if row.ty ≠ .domain ∨ row.access = .ro then s.refuseReq 0x11 r (2, 0)
    else match s.writeRefused r.origin row with
      | some x => s.refuseReq 0x11 r x
      | none =>
        if !r.payload.isEmpty then s.refuseReq 0x11 r (3, 0)
        else match s.dict.sessions.find? (fun (x : Session) => x.write && x.key = k) with
          | some x => s.refuseReq 0x11 r (5, pathCode x.origin.path)
          | none =>
            if !s.sessionFree r.origin.path then s.refuseReq 0x11 r (0x10, pathCode r.origin.path)
            else
              let h := s.newHandle
              (s.openSession ⟨h, r.origin, true, k, r.arg, [], 0⟩).respond 0x11 r 0 h []

/-- The session a session operation names, of the function and path that opened it. -/
def Work.sessionOf (s : Work) (r : Req) : Option Session :=
  s.dict.sessions.find? (fun (x : Session) => x.handle = reqWord9 r && x.origin = r.origin)

/-- SEG_READ. On the handle of a write session it is refused with SESSION, detail 0 (assumption log 123, DESIGN CHOICE); a request that was
forwarded reads the segments of the path it reaches this device by (assumption log 124, DEDUCED). -/
def Work.segRead (s : Work) (r : Req) (x : Session) : Work :=
  if x.write then s.refuseReq 0x12 r (0x0B, 0)
  else if (s.dom x.key).gen ≠ x.gen then s.refuseReq 0x12 r (0x0C, 0)
  else match s.readState x.key.index with
    | some y => s.refuseReq 0x12 r y
    | none =>
      if !r.payload.isEmpty then s.refuseReq 0x12 r (3, 0)
      else if x.data.length < r.arg then s.refuseReq 0x12 r (0x0B, x.data.length)
      else s.respond 0x12 r 0 0 (slice x.data r.arg (maxSegment r.origin.path))

/-- SEG_WRITE; the same of a read session's handle and of a forwarded request (assumption logs 123 and 124). -/
def Work.segWrite (s : Work) (r : Req) (x : Session) : Work :=
  if !x.write then s.refuseReq 0x13 r (0x0B, 0)
  else if r.arg ≠ x.data.length then s.refuseReq 0x13 r (0x0B, x.data.length)
  else if maxSegment r.origin.path < r.payload.length then s.refuseReq 0x13 r (3, maxSegment r.origin.path)
  else if x.declared < x.data.length + r.payload.length then s.refuseReq 0x13 r (3, x.declared - x.data.length)
  else
    let s := s.modDict (fun d => { d with sessions := d.sessions.map (fun (y : Session) =>
      if y.handle = x.handle then { y with data := y.data ++ r.payload } else y) })
    s.respond 0x13 r 0 0 []

/-- Each refusal of OWNER_UNLOCK counts (R567). -/
def Work.countUnlock (s : Work) (k : Key) : Work := if k = Obj.ownerUnlock then s.add Obj.signatureFailures 1 else s

/-- A commit of a whole value that may be written. -/
def Work.commitWhole (s : Work) (r : Req) (x : Session) (row : Row) : Work :=
  match s.commitRefused r.origin x.key x.data with
  | some d => ((s.closeSession x.handle).countUnlock x.key).refuseReq 0x14 r (0x0D, d)
  | none =>
    if row.cls = .p then (s.closeSession x.handle).persistWrite 0x14 r x.key 0 x.data
    else ((s.closeSession x.handle).commitApply x.key x.data).respond 0x14 r 0 0 []

/-- SEG_COMMIT closes its session, whatever its outcome (R71; assumption log 63, DEDUCED). On a read session's
handle it is refused with SESSION, detail 0 (assumption log 123). -/
def Work.segCommit (s : Work) (r : Req) (x : Session) : Work :=
  if !x.write then s.refuseReq 0x14 r (0x0B, 0)
  else if !r.payload.isEmpty then s.refuseReq 0x14 r (3, 0)
  else match findRow x.key.index x.key.sub with
    | none => s.refuseReq 0x14 r (1, 0)
    | some row => match s.writeRefused r.origin row with
      | some y => (s.closeSession x.handle).refuseReq 0x14 r y
      | none =>
        if x.data.length < x.declared then ((s.closeSession x.handle).countUnlock x.key).refuseReq 0x14 r (0x0D, 1)
        else s.commitWhole r x row

def Work.segAbort (s : Work) (r : Req) (x : Session) : Work :=
  if !r.payload.isEmpty then s.refuseReq 0x15 r (3, 0) else (s.closeSession x.handle).respond 0x15 r 0 0 []

/-- A session operation that names an object which is no DOMAIN (R71), or one its caller may not see (R54), is refused. What else INDEX
and SUB hold is not looked at: the handle alone names the session (assumption log 125, DEDUCED). -/
def Work.sessionRefused (s : Work) (r : Req) : Option Refused :=
  match findRow r.index r.sub with
  | some row => if !s.visible r.origin row r.sub then some (1, 0) else if row.ty = .domain then none else some (2, 0)
  | none => none

/-- A session operation. -/
def Work.serveSession (s : Work) (op : Nat) (r : Req) : Work :=
  match s.sessionRefused r with
  | some x => s.refuseReq op r x
  | none => match s.sessionOf r with
  | none => s.refuseReq op r (0x0B, 0)
  | some x =>
    if op = 0x12 then s.segRead r x
    else if op = 0x13 then s.segWrite r x
    else if op = 0x14 then s.segCommit r x
    else s.segAbort r x

/-! ## Routing (R50, R56 to R58) -/

/-- The dictOpcodes of R51. -/
def dictOpcodes : List Nat := [0x01, 0x02, 0x03, 0x04, 0x10, 0x11, 0x12, 0x13, 0x14, 0x15]

/-- The dictOpcodes whose ARG is 0; for SEG_OPEN_READ the table's ARG column speaks of the response alone (assumption log 126, DEDUCED). -/
def argZero : List Nat := [0x01, 0x02, 0x03, 0x04, 0x10, 0x14, 0x15]

/-- Whether an opcode is a session operation: bytes 9:8 carry the handle. -/
def sessionOp (op : Nat) : Bool := decide (0x12 ≤ op) && decide (op ≤ 0x15)

/-- A request for this device: unknown dictOpcodes and reserved fields, then the operation. -/
def Work.serveHere (s : Work) (op : Nat) (r : Req) : Work :=
  if !dictOpcodes.contains op ∨ r.flags ≠ 0 ∨ r.rsv7 ≠ 0 ∨ (!sessionOp op ∧ r.tenantHi ≠ 0) ∨ (argZero.contains op ∧ r.arg ≠ 0) then
    s.refuseReq op r (0x0F, 0)
  else if op = 1 then s.serveRead r
  else if op = 2 then s.serveWrite r
  else if op = 3 then s.serveDescribe r
  else if op = 4 then s.serveNext r
  else if op = 0x10 then s.serveOpenRead r
  else if op = 0x11 then s.serveOpenWrite r
  else s.serveSession op r

/-- Send a request to workers; their responses answer it. -/
def Work.forward (s : Work) (op : Nat) (r : Req) (ds : List Nat) : Work :=
  let s := s.modDict (fun d => { d with forwarded := d.forwarded ++ [⟨r, op, ds, 0, none⟩] })
  ds.foldl (fun (s : Work) (d : Nat) => s.toMember d (.dictRequest op { r with origin := ⟨.fabric, 0⟩, target := d })) s

/-- A broadcast WRITE at the manager (R57). -/
def Work.broadcastWrite (s : Work) (r : Req) : Work :=
  if s.formed && !s.workers.isEmpty then s.forward 2 r s.workers else s.respond 2 r 0 0 []

/-- Serve a request: here, or by the worker or workers that its TARGET names. A tenant function's TENANT is its own. Assumption log 63, DEDUCED. -/
def Work.serveReq (s : Work) (op : Nat) (r : Req) : Work :=
  let r := match originTenant r.origin with
    | some t => if sessionOp op then r else { r with tenant := t }
    | none => r
  if r.target = 254 ∨ r.target = s.ownDevice then s.serveHere op r
  else if (originTenant r.origin).isSome then s.refuseReq op r (0x0A, r.target)
  else if r.target = 255 then
    if op = 2 && s.isManager then s.broadcastWrite r else s.refuseReq op r (0x0A, 255)
  else if s.isManager && s.formed && s.workers.contains r.target then s.forward op r [r.target]
  else s.refuseReq op r (0x0A, r.target)

/-! ## Requests that wait (R435, R560) -/

/-- The places in turn from what was served last to x, of n. -/
def turnsTo (last n x : Nat) : Nat := (x + n - 1 - last) % n

/-- How far a caller is from its turn: the four paths go round, and within a port its functions (R68). Where the round begins after a
reset is assumption log 128, DESIGN CHOICE. -/
def DictState.turnOf (d : DictState) (o : Origin) : Nat :=
  let fns := match o.path with
    | .portA => turnsTo d.servedFns.1 513 o.fn
    | .portB => turnsTo d.servedFns.2 513 o.fn
    | _ => 0
  513 * turnsTo d.servedPath 4 (pathCode o.path - 1) + fns

/-- Which of the waiting is served next: the oldest of the caller whose turn comes first. -/
def DictState.nextTurn {α : Type} (d : DictState) (origin : α → Origin) (l : List α) : Option α :=
  let first := l.foldl (fun (n : Nat) (x : α) => min n (d.turnOf (origin x))) (4 * 513)
  l.find? (fun (x : α) => d.turnOf (origin x) = first)

/-- A caller has been served. -/
def Work.tookTurn (s : Work) (o : Origin) : Work :=
  s.modDict (fun d => { d with
    servedPath := pathCode o.path - 1
    servedFns := match o.path with
      | .portA => (o.fn, d.servedFns.2)
      | .portB => (d.servedFns.1, o.fn)
      | _ => d.servedFns })

/-- Whether an opcode writes a value. -/
def writesValue (op : Nat) : Bool := op = 2 || op = 0x14

/-- A request stays behind its caller's own parked ones: a write behind a write, so that they take effect in their order (R68), and on
the management port and the fabric lane, which park one request each (R74), whatever would park as well. Assumption log 129, DEDUCED. -/
def Work.staysBehind (s : Work) (op : Nat) (r : Req) : Bool :=
  let parked := s.dict.parked.filter (fun (p : ParkedReq) => p.req.origin = r.origin)
  (writesValue op && (parked.any (fun (p : ParkedReq) => writesValue p.opcode) ||
    s.dict.held.any (fun (p : Nat × Req) => p.2.origin = r.origin && writesValue p.1))) ||
    (servedBySeam r.index && decide (op ≤ 2) && (originWindow r.origin).isNone && !parked.isEmpty)

/-- Serve a request, or hold it while the device boots or while it stays behind another; in RECOVERY the management port alone is
served. -/
def Work.serveOrHold (s : Work) (op : Nat) (r : Req) : Work :=
  if (s.boot.stage = 4 ∨ (s.boot.stage = 15 ∧ r.origin.path = .mgmt)) ∧ !s.staysBehind op r then (s.tookTurn r.origin).serveReq op r
  else s.modDict (fun d => { d with held := d.held ++ [(op, r)] })

/-- Requests that waited are served in turn; a reset among them discards the rest (R64). The count bounds how many. -/
def Work.serveInTurn : Nat → List (Nat × Req) → Work → Work
  | 0, _, s => s
  | n + 1, l, s =>
    if s.boot.stage ≠ 4 then s
    else match s.dict.nextTurn (fun (q : Nat × Req) => q.2.origin) l with
      | none => s
      | some q => Work.serveInTurn n (l.erase q) (s.serveOrHold q.1 q.2)

/-- The requests that are held are served, or held again. -/
def Work.serveHeld (s : Work) : Work :=
  let l := s.dict.held
  Work.serveInTurn l.length l (s.modDict (fun d => { d with held := [] }))

/-! ## Function windows (R59 to R64) -/

/-- A request starts: on the ports its window is busy with it, on the other paths it is a message. A window that is busy takes
none. Assumption log 19, DEDUCED. Assumption log 71, DEDUCED. -/
def Work.acceptReq (s : Work) (op : Nat) (r : Req) : Work :=
  if !s.reaches r.origin then s
  else match originWindow r.origin with
    | none => s.serveOrHold op r
    | some w =>
      let x := s.window w
      if x.busy then s
      else
        let x := { x with hdr := reqHeader op r, payload := r.payload ++ x.payload.drop r.payload.length, busy := true, done := false }
        (s.setWindow w x).serveOrHold op r

/-- The caller that a window serves. -/
def FnWinOrigin (w : FnWin) : Origin := ⟨if w.port = 0 then .portA else .portB, w.fn⟩

/-- ABANDON frees a parked window: its READ is dropped, its WRITE takes effect without a response (R64). -/
def Work.abandonWindow (s : Work) (w : FnWin) : Work :=
  let x := s.window w
  if !x.parked then s
  else
    let mine := fun (p : ParkedReq) => p.req.origin = FnWinOrigin w
    let s := s.setWindow w { x with busy := false, parked := false }
    let kept := s.dict.parked.filter (fun (p : ParkedReq) => !(mine p && p.opcode = 1))
    s.modDict (fun d => { d with parked := kept.map (fun (p : ParkedReq) => if mine p then { p with dead := true } else p) })

/-- A write of WIN_CTRL with what REQ_HDR and PAYLOAD have been given before it; both are left alone while BUSY (R60, R62). -/
def Work.winCtrl (s : Work) (w : FnWin) (ctrl : Nat) (hdr payload : List Byte) : Work :=
  let x := s.window w
  let o := FnWinOrigin w
  if !s.reaches o then s
  else
    let y := if x.busy then x else { x with hdr := (hdr ++ List.replicate 16 0).take 16, payload := payload.take 4096 }
    let s := s.setWindow w { y with doneIrq := bitAt ctrl 2 }
    if bitAt ctrl 1 && x.parked then s.abandonWindow w
    else if bitAt ctrl 0 && !x.busy then
      let q := reqOf o y.hdr y.payload
      (s.setWindow w { y with doneIrq := bitAt ctrl 2, busy := true, done := false }).serveOrHold q.1 q.2
    else s

/-! ## Parked requests go on (R63) -/

/-- A request that was abandoned takes effect without its response. -/
def Work.serveDead (s : Work) (op : Nat) (r : Req) : Work :=
  let t := s.serveReq op r
  let new := (t.sent.drop s.sent.length).filter (fun (o : Output) => match o with
    | .response q _ _ _ _ _ _ _ _ _ => decide (q ≠ r.origin)
    | _ => true)
  { t with sent := s.sent ++ new, dict := { t.dict with windows := s.dict.windows } }

/-- Requests that were parked are served in turn (R68). -/
def Work.serveParked : Nat → List ParkedReq → Work → Work
  | 0, _, s => s
  | n + 1, l, s =>
    match s.dict.nextTurn (fun (p : ParkedReq) => p.req.origin) l with
    | none => s
    | some p =>
      let s := s.tookTurn p.req.origin
      Work.serveParked n (l.erase p) (if p.dead then s.serveDead p.opcode p.req else s.serveReq p.opcode p.req)

/-- The requests parked on an island go on once it runs, and after them those that stayed behind. -/
def Work.unpark (s : Work) (i : Nat) : Work :=
  let ready := s.dict.parked.filter (fun (p : ParkedReq) => p.island = i)
  let s := s.modDict (fun d => { d with parked := d.parked.filter (fun (p : ParkedReq) => decide (p.island ≠ i)) })
  let s := Work.serveParked ready.length ready s
  if s.boot.stage = 4 then s.serveHeld else s

/-! ## Responses of members (R56, R57) -/

/-- The worse of two refusals of a broadcast: the lower-numbered worker's. -/
def worseOf (old : Option (Nat × Nat × Nat)) (d status detail : Nat) : Option (Nat × Nat × Nat) :=
  match old with
  | some x => if x.1 < d then some x else some (d, status, detail)
  | none => some (d, status, detail)

/-- A member has answered a request forwarded to it. The response to a broadcast WRITE that all accept has no payload, of a W1C object
either: the members' prior values differ (R57; assumption log 127, DESIGN CHOICE). -/
def Work.answered (s : Work) (f : Forwarded) (src status detail : Nat) (payload : List Byte) : Work :=
  if f.req.origin.path = .fabric then
    (if status = 0 then s.commitSegments src detail ⟨f.req.index, f.req.sub, 0⟩ else s)
  else if f.req.target ≠ 255 then s.respondFrom src f.opcode f.req status detail payload
  else
    let f := { f with
      waiting := f.waiting.erase src, accepted := f.accepted + bit (decide (status = 0))
      failed := if status = 0 then f.failed else worseOf f.failed src status detail }
    if !f.waiting.isEmpty then s.modDict (fun d => { d with forwarded := f :: d.forwarded })
    else match f.failed with
      | none => s.respond 2 f.req 0 f.accepted []
      | some x => s.respondFrom x.1 2 f.req x.2.1 x.2.2 []

/-- A response on the management lane meets the oldest request that awaits it. -/
def Work.dictResponse (s : Work) (op tag src status detail : Nat) (payload : List Byte) : Work :=
  let is := fun (f : Forwarded) => f.waiting.contains src && f.req.tag = tag && (f.opcode ||| 0x80) = op
  match s.dict.forwarded.find? is with
  | none => s
  | some f => (s.modDict (fun d => { d with forwarded := d.forwarded.erase f })).answered f src status detail payload

/-! ## Durable (R47, R501) -/

/-- CLASS_P_WRITE_DURABLE: the store of an object ends. A fault record is one of FAULT_LOG's. Assumption log 72, DEDUCED. -/
def Work.durable (s : Work) (index sub : Nat) (stored : Bool) : Work :=
  if index = Obj.faultLog.index ∧ sub = Obj.faultLog.sub then
    match s.rel.pendingLog with
    | [] => s
    | x :: l =>
      let s : Work := { s with rel := { s.rel with pendingLog := l } }
      if stored then s.storeFault x else s
  else match s.dict.persist.find? (fun (p : PersistWrite) => p.key.index = index && p.key.sub = sub) with
    | none => s
    | some p =>
      let s := s.modDict (fun d => { d with persist := d.persist.erase p })
      let s := if stored then s.persistApply p else s
      if p.dead then s else s.respond p.opcode p.req (if stored then 0 else 0x0E) 0 []

end Sys2Proof.Machine
end

