-- ==== Sys2Proof/Machine/Rows.lean ====
section
/-! DEFINITION. The rows of the dictionary: its opcodes, windows, sessions, and each write or commit that has a row of its own (R47, R51,
R56, R60, R61, R67, R70, R73, R75 and the rules the definitions name). A row of one object is the request on that object. -/

namespace Sys2Proof.Machine

/-- A request on an object of a row's own. -/
def reqAt (r : Req) (index sub : Nat) : Req := { r with index := index, sub := sub }

/-! ## The opcodes (R51) -/

def execRead (r : Req) (s : State) : Host.Outcome State Fault Refusal :=
  s.next (fun w => w.acceptReq 0x01 r)

def execWrite (r : Req) (s : State) : Host.Outcome State Fault Refusal :=
  s.next (fun w => w.acceptReq 0x02 r)

def execDescribe (r : Req) (s : State) : Host.Outcome State Fault Refusal :=
  s.next (fun w => w.acceptReq 0x03 r)

def execNext (r : Req) (s : State) : Host.Outcome State Fault Refusal :=
  s.next (fun w => w.acceptReq 0x04 r)

def execSegOpenRead (r : Req) (s : State) : Host.Outcome State Fault Refusal :=
  s.next (fun w => w.acceptReq 0x10 r)

def execSegOpenWrite (r : Req) (s : State) : Host.Outcome State Fault Refusal :=
  s.next (fun w => w.acceptReq 0x11 r)

def execSegRead (r : Req) (s : State) : Host.Outcome State Fault Refusal :=
  s.next (fun w => w.acceptReq 0x12 r)

def execSegWrite (r : Req) (s : State) : Host.Outcome State Fault Refusal :=
  s.next (fun w => w.acceptReq 0x13 r)

def execSegCommit (r : Req) (s : State) : Host.Outcome State Fault Refusal :=
  s.next (fun w => w.acceptReq 0x14 r)

def execSegAbort (r : Req) (s : State) : Host.Outcome State Fault Refusal :=
  s.next (fun w => w.acceptReq 0x15 r)

/-- SESSION_IDLE_EXPIRY: a session with no request for SESSION_IDLE_LIMIT is aborted (R73). -/
def execSessionIdleExpiry (handle : Nat) (s : State) : Host.Outcome State Fault Refusal := s.next (fun w => w.closeSession handle)

/-! ## Function windows (R60, R61, R64) -/

/-- A function's window: a port, and a function that its BARs can name. -/
def winOk (w : FnWin) : Bool := decide (w.port < 2) && decide (w.fn ≤ 512)

def execGo (w : FnWin) (ctrl : Nat) (hdr payload : List Byte) (s : State) : Host.Outcome State Fault Refusal :=
  s.nextIf (winOk w) (fun x => x.winCtrl w ctrl hdr payload)

def execAbandon (w : FnWin) (s : State) : Host.Outcome State Fault Refusal := s.nextIf (winOk w) (fun x => x.abandonWindow w)

/-- DONE is W1C (R61). -/
def execDoneClear (w : FnWin) (s : State) : Host.Outcome State Fault Refusal :=
  s.nextIf (winOk w) (fun x => x.setWindow w { x.window w with done := false })

/-! ## Writes of CMD objects and of values -/

/-- CMD_ABORT: a write of all ones (R70). -/
def execCmdAbort (r : Req) (s : State) : Host.Outcome State Fault Refusal :=
  let n : Nat := ((findRow r.index r.sub).map (fun (x : Row) => typeSize x.ty)).getD 0
  s.next (fun w => w.acceptReq 2 { r with payload := List.replicate n 0xFF })

/-- R75. -/
def execRestoreDefaults (r : Req) (s : State) : Host.Outcome State Fault Refusal :=
  s.next (fun w => w.acceptReq 2 (reqAt r 0x1F00 0x08))

/-- R245. -/
def execCalendarStamp (r : Req) (s : State) : Host.Outcome State Fault Refusal :=
  s.next (fun w => w.acceptReq 2 (reqAt r 0x1180 0x01))

/-- R251. -/
def execTrimRead (r : Req) (s : State) : Host.Outcome State Fault Refusal :=
  s.next (fun w => w.acceptReq 2 (reqAt r 0x4800 0x06))

/-- R251. -/
def execRefreshFacet (r : Req) (s : State) : Host.Outcome State Fault Refusal :=
  s.next (fun w => w.acceptReq 2 (reqAt r 0x4A00 0x0C))

/-- R112. -/
def execLayerCountsClear (r : Req) (s : State) : Host.Outcome State Fault Refusal :=
  s.next (fun w => w.acceptReq 2 (reqAt r 0x4100 0x11))

/-- R258. -/
def execLoadStart (r : Req) (s : State) : Host.Outcome State Fault Refusal :=
  s.next (fun w => w.acceptReq 2 (reqAt r 0x5400 0x02))

/-- R265. -/
def execSlotRelease (r : Req) (s : State) : Host.Outcome State Fault Refusal :=
  s.next (fun w => w.acceptReq 2 (reqAt r 0x5400 0x06))

/-- R266. -/
def execReplaceSlot (r : Req) (s : State) : Host.Outcome State Fault Refusal :=
  s.next (fun w => w.acceptReq 2 (reqAt r 0x5600 0x01))

/-- R302. -/
def execRequestCancel (r : Req) (s : State) : Host.Outcome State Fault Refusal :=
  s.next (fun w => w.acceptReq 2 (reqAt r 0x6400 0x03))

/-- R303. -/
def execRequestHold (r : Req) (s : State) : Host.Outcome State Fault Refusal :=
  s.next (fun w => w.acceptReq 2 (reqAt r 0x6400 0x04))

/-- R303. -/
def execRequestResume (r : Req) (s : State) : Host.Outcome State Fault Refusal :=
  s.next (fun w => w.acceptReq 2 (reqAt r 0x6400 0x05))

/-- R304. -/
def execRequestRelease (r : Req) (s : State) : Host.Outcome State Fault Refusal :=
  s.next (fun w => w.acceptReq 2 (reqAt r 0x6400 0x06))

/-- R357. -/
def execVariantLoad (r : Req) (s : State) : Host.Outcome State Fault Refusal :=
  s.next (fun w => w.acceptReq 2 (reqAt r 0x7200 0x04))

/-- R355. -/
def execVariantUnload (r : Req) (s : State) : Host.Outcome State Fault Refusal :=
  s.next (fun w => w.acceptReq 2 (reqAt r 0x7200 0x05))

/-- R374. -/
def execVariantPin (r : Req) (s : State) : Host.Outcome State Fault Refusal :=
  s.next (fun w => w.acceptReq 2 (reqAt r 0x7200 0x06))

/-- R365. -/
def execTuneStart (r : Req) (s : State) : Host.Outcome State Fault Refusal :=
  s.next (fun w => w.acceptReq 2 (reqAt r 0x7300 0x02))

/-- R333. -/
def execGrammarDelete (r : Req) (s : State) : Host.Outcome State Fault Refusal :=
  s.next (fun w => w.acceptReq 2 (reqAt r 0x6A10 0x03))

/-- R333. -/
def execGlobalGrammarDelete (r : Req) (s : State) : Host.Outcome State Fault Refusal :=
  s.next (fun w => w.acceptReq 2 (reqAt r 0x6A20 0x03))

/-- R389. -/
def execGroupForm (r : Req) (s : State) : Host.Outcome State Fault Refusal :=
  s.next (fun w => w.acceptReq 2 (reqAt r 0x8000 0x07))

/-- R409. -/
def execGroupDissolve (r : Req) (s : State) : Host.Outcome State Fault Refusal :=
  s.next (fun w => w.acceptReq 2 (reqAt r 0x8000 0x08))

/-- R409. -/
def execMirrorRelease (r : Req) (s : State) : Host.Outcome State Fault Refusal :=
  s.next (fun w => w.acceptReq 2 (reqAt r 0x8100 0x05))

/-- R473. -/
def execScrubNow (r : Req) (s : State) : Host.Outcome State Fault Refusal :=
  s.next (fun w => w.acceptReq 2 (reqAt r 0xA200 0x05))

/-- R489. -/
def execSweepNow (r : Req) (s : State) : Host.Outcome State Fault Refusal :=
  s.next (fun w => w.acceptReq 2 (reqAt r 0xB200 0x02))

/-- R493. -/
def execTestNow (r : Req) (s : State) : Host.Outcome State Fault Refusal :=
  s.next (fun w => w.acceptReq 2 (reqAt r 0xB300 0x03))

/-- R514. -/
def execPowerCapW (r : Req) (s : State) : Host.Outcome State Fault Refusal :=
  s.next (fun w => w.acceptReq 2 (reqAt r 0x3010 0x01))

/-- R549. -/
def execDeviceReset (r : Req) (s : State) : Host.Outcome State Fault Refusal :=
  s.next (fun w => w.acceptReq 2 (reqAt r 0xD010 0x01))

/-- R552. -/
def execPowerStateRequest (r : Req) (s : State) : Host.Outcome State Fault Refusal :=
  s.next (fun w => w.acceptReq 2 (reqAt r 0xD000 0x02))

/-- R553. -/
def execGroupPower (r : Req) (s : State) : Host.Outcome State Fault Refusal :=
  s.next (fun w => w.acceptReq 2 (reqAt r 0xD000 0x03))

/-- R562. -/
def execFirmwareActivate (r : Req) (s : State) : Host.Outcome State Fault Refusal :=
  s.next (fun w => w.acceptReq 2 (reqAt r 0xC000 0x06))

/-- R567. -/
def execKeyLock (r : Req) (s : State) : Host.Outcome State Fault Refusal :=
  s.next (fun w => w.acceptReq 2 (reqAt r 0xC100 0x04))

/-- R421. -/
def execRingEnable (r : Req) (s : State) : Host.Outcome State Fault Refusal :=
  s.next (fun w => w.acceptReq 2 (reqAt r 0x9100 0x04))

/-- R432. -/
def execTenantAttention (r : Req) (s : State) : Host.Outcome State Fault Refusal :=
  s.next (fun w => w.acceptReq 2 (reqAt r 0x9100 0x07))

/-- R67, of the range, link, channel, half or port that the sub-index names. -/
def execRangeOwner (r : Req) (s : State) : Host.Outcome State Fault Refusal :=
  s.next (fun w => w.acceptReq 2 (reqAt r 0x1F01 r.sub))

/-- R378, of the range, link, channel, half or port that the sub-index names. -/
def execLinkEnable (r : Req) (s : State) : Host.Outcome State Fault Refusal :=
  s.next (fun w => w.acceptReq 2 (reqAt r 0x8201 r.sub))

/-- R444, of the range, link, channel, half or port that the sub-index names. -/
def execDmaAssign (r : Req) (s : State) : Host.Outcome State Fault Refusal :=
  s.next (fun w => w.acceptReq 2 (reqAt r 0x9810 r.sub))

/-- R537, of the range, link, channel, half or port that the sub-index names. -/
def execRoundUs (r : Req) (s : State) : Host.Outcome State Fault Refusal :=
  s.next (fun w => w.acceptReq 2 (reqAt r 0x3810 r.sub))

/-- R546, of the range, link, channel, half or port that the sub-index names. -/
def execMinmaxReset (r : Req) (s : State) : Host.Outcome State Fault Refusal :=
  s.next (fun w => w.acceptReq 2 (reqAt r 0x3833 r.sub))

/-- R434, of the range, link, channel, half or port that the sub-index names. -/
def execAttention (r : Req) (s : State) : Host.Outcome State Fault Refusal :=
  s.next (fun w => w.acceptReq 2 (reqAt r 0x9012 r.sub))

/-- R433, of the range, link, channel, half or port that the sub-index names. -/
def execAttentionMask (r : Req) (s : State) : Host.Outcome State Fault Refusal :=
  s.next (fun w => w.acceptReq 2 (reqAt r 0x9013 r.sub))

/-- R446: DMA_GO_0 or DMA_GO_1 of the channel that the sub-index names. -/
def execDmaGo (r : Req) (s : State) : Host.Outcome State Fault Refusal :=
  s.next (fun w => w.acceptReq 2 (reqAt r (if r.index = 0x9814 then 0x9814 else 0x9813) r.sub))

/-! ## Commits (R71) -/

/-- R332: SEG_COMMIT of a session on the object. -/
def execGrammarImage (r : Req) (s : State) : Host.Outcome State Fault Refusal :=
  s.next (fun w => w.acceptReq 0x14 r)

/-- R332: SEG_COMMIT of a session on the object. -/
def execGlobalGrammarImage (r : Req) (s : State) : Host.Outcome State Fault Refusal :=
  s.next (fun w => w.acceptReq 0x14 r)

/-- R537: SEG_COMMIT of a session on the object. -/
def execSequence (r : Req) (s : State) : Host.Outcome State Fault Refusal :=
  s.next (fun w => w.acceptReq 0x14 r)

/-- R562: SEG_COMMIT of a session on the object. -/
def execFirmwareImage (r : Req) (s : State) : Host.Outcome State Fault Refusal :=
  s.next (fun w => w.acceptReq 0x14 r)

/-- R566: SEG_COMMIT of a session on the object. -/
def execOwnerKeys (r : Req) (s : State) : Host.Outcome State Fault Refusal :=
  s.next (fun w => w.acceptReq 0x14 r)

/-- R567: SEG_COMMIT of a session on the object. -/
def execOwnerUnlock (r : Req) (s : State) : Host.Outcome State Fault Refusal :=
  s.next (fun w => w.acceptReq 0x14 r)

/-- R416: SEG_COMMIT of a session on the object. -/
def execWindowEdit (r : Req) (s : State) : Host.Outcome State Fault Refusal :=
  s.next (fun w => w.acceptReq 0x14 r)

/-! ## The management lane (R56, R57) -/

/-- DICT_REQUEST: a request that the manager forwards arrives at a worker. -/
def execDictRequest (op : Nat) (r : Req) (s : State) : Host.Outcome State Fault Refusal :=
  s.next (fun w => w.acceptReq op { r with origin := ⟨.fabric, 0⟩ })

def execDictResponse (op tag src status detail : Nat) (payload : List Byte) (s : State) : Host.Outcome State Fault Refusal :=
  s.next (fun w => w.dictResponse op tag src status detail payload)

/-! ## Events the server follows -/

def execClassPWriteDurable (index sub : Nat) (stored : Bool) (s : State) : Host.Outcome State Fault Refusal :=
  s.next (fun w => w.durable index sub stored)

/-- ISLAND_RESTART: the island runs, a transition may end, and what was parked on it goes on (R63, R528). -/
def Work.restarted (s : Work) (i : Nat) : Work :=
  let s := (s.islandRestart i).powerSettle
  if s.islandCond i = .running then s.unpark i else s

def execIslandRestart (island : Nat) (s : State) : Host.Outcome State Fault Refusal :=
  s.nextIf (islandPresent s.ident island) (fun w => w.restarted island)

/-- BOOT_STAGE_END: at READY the requests that waited are served (R435, R558). -/
def Work.bootEnd (s : Work) (ok : Bool) (took : Nat) : Work :=
  let t := s.bootStage ok took
  if t.boot.stage = 4 ∧ s.boot.stage ≠ 4 then t.serveHeld else t

def execBootStageEnd (ok : Bool) (tookMs : Nat) (s : State) : Host.Outcome State Fault Refusal := s.next (fun w => w.bootEnd ok tookMs)

end Sys2Proof.Machine
end

