-- ==== Sys2Proof/Machine/Dispatch.lean ====
section
/-! DEFINITION. Each command of the opcode table and its meaning. -/

namespace Sys2Proof.Machine

/-- The effect of one command on everything but the queue. -/
def exec (i : Instr) (s : State) : Host.Outcome State Fault Refusal :=
  match i with
  -- 02: the dictionary
  | .read r => Sys2Proof.Machine.execRead r s
  | .write r => Sys2Proof.Machine.execWrite r s
  | .describe r => Sys2Proof.Machine.execDescribe r s
  | .next r => Sys2Proof.Machine.execNext r s
  | .go w ctrl hdr payload => Sys2Proof.Machine.execGo w ctrl hdr payload s
  | .abandon w => Sys2Proof.Machine.execAbandon w s
  | .doneClear w => Sys2Proof.Machine.execDoneClear w s
  | .segOpenRead r => Sys2Proof.Machine.execSegOpenRead r s
  | .segOpenWrite r => Sys2Proof.Machine.execSegOpenWrite r s
  | .segRead r => Sys2Proof.Machine.execSegRead r s
  | .segWrite r => Sys2Proof.Machine.execSegWrite r s
  | .segCommit r => Sys2Proof.Machine.execSegCommit r s
  | .segAbort r => Sys2Proof.Machine.execSegAbort r s
  | .classPWriteDurable index sub stored => Sys2Proof.Machine.execClassPWriteDurable index sub stored s
  | .sessionIdleExpiry handle => Sys2Proof.Machine.execSessionIdleExpiry handle s
  | .cmdAbort r => Sys2Proof.Machine.execCmdAbort r s
  | .restoreDefaults r => Sys2Proof.Machine.execRestoreDefaults r s
  | .rangeOwner r => Sys2Proof.Machine.execRangeOwner r s
  -- 01: networks
  | .bulkMeshTransfer t => Sys2Proof.Machine.execBulkMeshTransfer t s
  | .selvedgeMessage m => Sys2Proof.Machine.execSelvedgeMessage m s
  -- 03, 04, 06: engines and ops
  | .cimMvm c a => Sys2Proof.Machine.execCimMvm c a s
  | .cimMvmt c a => Sys2Proof.Machine.execCimMvmt c a s
  | .engineMvmStart engine ecc => Sys2Proof.Machine.execEngineMvmStart engine ecc s
  | .phaseWindowEnd w => Sys2Proof.Machine.execPhaseWindowEnd w s
  | .goldenReadReturn g => Sys2Proof.Machine.execGoldenReadReturn g s
  | .recomputeComplete engine => Sys2Proof.Machine.execRecomputeComplete engine s
  | .epilogue engine => Sys2Proof.Machine.execEpilogue engine s
  | .reduce c a => Sys2Proof.Machine.execReduce c a s
  | .gather c a => Sys2Proof.Machine.execGather c a s
  | .norm c a => Sys2Proof.Machine.execNorm c a s
  | .act c a => Sys2Proof.Machine.execAct c a s
  | .rope c a => Sys2Proof.Machine.execRope c a s
  | .attn c a => Sys2Proof.Machine.execAttn c a s
  | .route c a => Sys2Proof.Machine.execRoute c a s
  | .expert c a => Sys2Proof.Machine.execExpert c a s
  | .embed c a => Sys2Proof.Machine.execEmbed c a s
  | .patch c a => Sys2Proof.Machine.execPatch c a s
  | .head c a => Sys2Proof.Machine.execHead c a s
  | .convert c a => Sys2Proof.Machine.execConvert c a s
  | .copy c a => Sys2Proof.Machine.execCopy c a s
  | .barrier c a => Sys2Proof.Machine.execBarrier c a s
  | .draft c draftSlot kMax heads => Sys2Proof.Machine.execDraft c draftSlot kMax heads s
  | .mask c set ns poisoned => Sys2Proof.Machine.execMask c set ns poisoned s
  | .sample c out => Sys2Proof.Machine.execSample c out s
  | .dieStepEnd dieUs => Sys2Proof.Machine.execDieStepEnd dieUs s
  -- 07: calibration, drift, lifetime
  | .sliceCalibrationComplete x => Sys2Proof.Machine.execSliceCalibrationComplete x s
  | .sliceAdjustStep array pos => Sys2Proof.Machine.execSliceAdjustStep array pos s
  | .sentinelConverterCal array => Sys2Proof.Machine.execSentinelConverterCal array s
  | .rowSideCal array => Sys2Proof.Machine.execRowSideCal array s
  | .trimApply array badPoints => Sys2Proof.Machine.execTrimApply array badPoints s
  | .calibrationMvm array sum1 sumAlt ref => Sys2Proof.Machine.execCalibrationMvm array sum1 sumAlt ref s
  | .baselineRecord array => Sys2Proof.Machine.execBaselineRecord array s
  | .ageTick => Sys2Proof.Machine.execAgeTick s
  | .lifetimeSave => Sys2Proof.Machine.execLifetimeSave s
  | .calendarStamp r => Sys2Proof.Machine.execCalendarStamp r s
  | .histogramMinute => Sys2Proof.Machine.execHistogramMinute s
  | .trimRead r => Sys2Proof.Machine.execTrimRead r s
  | .refreshFacet r => Sys2Proof.Machine.execRefreshFacet r s
  | .layerCountsClear r => Sys2Proof.Machine.execLayerCountsClear r s
  -- 08: residency
  | .loadStart r => Sys2Proof.Machine.execLoadStart r s
  | .loadSectionArrival ty die bytes poison => Sys2Proof.Machine.execLoadSectionArrival ty die bytes poison s
  | .reattachReadbackDone digests => Sys2Proof.Machine.execReattachReadbackDone digests s
  | .facetProgramStart array => Sys2Proof.Machine.execFacetProgramStart array s
  | .facetProgramDone x => Sys2Proof.Machine.execFacetProgramDone x s
  | .slotRelease r => Sys2Proof.Machine.execSlotRelease r s
  | .replaceSlot r => Sys2Proof.Machine.execReplaceSlot r s
  | .drainDeadline slot nowUs => Sys2Proof.Machine.execDrainDeadline slot nowUs s
  | .inPlaceRefresh facets => Sys2Proof.Machine.execInPlaceRefresh facets s
  -- 09: serving
  | .submit tenant desc poisoned nowUs => Sys2Proof.Machine.execSubmit tenant desc poisoned nowUs s
  | .cancel tenant desc poisoned nowUs => Sys2Proof.Machine.execCancel tenant desc poisoned nowUs s
  | .promptFetchDone entry fetched nowUs => Sys2Proof.Machine.execPromptFetchDone entry fetched nowUs s
  | .idleBoundary nowUs => Sys2Proof.Machine.execIdleBoundary nowUs s
  | .commit nowUs => Sys2Proof.Machine.execCommit nowUs s
  | .requestCancel r => Sys2Proof.Machine.execRequestCancel r s
  | .requestHold r => Sys2Proof.Machine.execRequestHold r s
  | .requestResume r => Sys2Proof.Machine.execRequestResume r s
  | .requestRelease r => Sys2Proof.Machine.execRequestRelease r s
  | .stepBody bytes => Sys2Proof.Machine.execStepBody bytes s
  | .stepHead h => Sys2Proof.Machine.execStepHead h s
  | .bodyTimeout => Sys2Proof.Machine.execBodyTimeout s
  | .bodyResend worker => Sys2Proof.Machine.execBodyResend worker s
  | .drafts lanes => Sys2Proof.Machine.execDrafts lanes s
  | .masks slot rows poison => Sys2Proof.Machine.execMasks slot rows poison s
  | .gatherPart p => Sys2Proof.Machine.execGatherPart p s
  | .accept words => Sys2Proof.Machine.execAccept words s
  | .stepResult x => Sys2Proof.Machine.execStepResult x s
  | .reducePart p fmt oper kind => Sys2Proof.Machine.execReducePart p fmt oper kind s
  | .reduceResult p => Sys2Proof.Machine.execReduceResult p s
  | .barrierMessage scope barrierId src release => Sys2Proof.Machine.execBarrierMessage scope barrierId src release s
  | .heartbeatTimer => Sys2Proof.Machine.execHeartbeatTimer s
  | .heartbeat src budgetNs => Sys2Proof.Machine.execHeartbeat src budgetNs s
  | .heartbeatAck src workers => Sys2Proof.Machine.execHeartbeatAck src workers s
  | .stepResultTimeout => Sys2Proof.Machine.execStepResultTimeout s
  -- 10, 11: variants, tuning, grammars
  | .deltaFetchDone core slot seq m bytes waitNs fills poison => Sys2Proof.Machine.execDeltaFetchDone core slot seq m bytes waitNs fills poison s
  | .variantLoad r => Sys2Proof.Machine.execVariantLoad r s
  | .variantUnload r => Sys2Proof.Machine.execVariantUnload r s
  | .variantPin r => Sys2Proof.Machine.execVariantPin r s
  | .tuneStart r => Sys2Proof.Machine.execTuneStart r s
  | .grammarImage r => Sys2Proof.Machine.execGrammarImage r s
  | .globalGrammarImage r => Sys2Proof.Machine.execGlobalGrammarImage r s
  | .grammarDelete r => Sys2Proof.Machine.execGrammarDelete r s
  | .globalGrammarDelete r => Sys2Proof.Machine.execGlobalGrammarDelete r s
  -- 12: links and groups
  | .linkTrainingDone link locked partner latencyNs reversed => Sys2Proof.Machine.execLinkTrainingDone link locked partner latencyNs reversed s
  | .linkRetrainTimer link => Sys2Proof.Machine.execLinkRetrainTimer link s
  | .linkEnable r => Sys2Proof.Machine.execLinkEnable r s
  | .laneLockLoss link lane => Sys2Proof.Machine.execLaneLockLoss link lane s
  | .flitTimeout link => Sys2Proof.Machine.execFlitTimeout link s
  | .dataFlit link f => Sys2Proof.Machine.execDataFlit link f s
  | .nullFlit link f => Sys2Proof.Machine.execNullFlit link f s
  | .nak link ack => Sys2Proof.Machine.execNak link ack s
  | .linkLatencyMeasure link latencyNs => Sys2Proof.Machine.execLinkLatencyMeasure link latencyNs s
  | .faultNotice n => Sys2Proof.Machine.execFaultNotice n s
  | .loadData link ty die bytes poison => Sys2Proof.Machine.execLoadData link ty die bytes poison s
  | .dictRequest op r => Sys2Proof.Machine.execDictRequest op r s
  | .dictResponse op tag src status detail payload => Sys2Proof.Machine.execDictResponse op tag src status detail payload s
  | .probe src link epoch => Sys2Proof.Machine.execProbe src link epoch s
  | .probeReply x link => Sys2Proof.Machine.execProbeReply x link s
  | .membership x => Sys2Proof.Machine.execMembership x s
  | .order o => Sys2Proof.Machine.execOrder o s
  | .mirror x => Sys2Proof.Machine.execMirror x s
  | .managerTimeout workersHearManager => Sys2Proof.Machine.execManagerTimeout workersHearManager s
  | .groupForm r => Sys2Proof.Machine.execGroupForm r s
  | .groupDissolve r => Sys2Proof.Machine.execGroupDissolve r s
  | .mirrorRelease r => Sys2Proof.Machine.execMirrorRelease r s
  | .throttleStateChange worker requesting => Sys2Proof.Machine.execThrottleStateChange worker requesting s
  | .forwardedRecord x => Sys2Proof.Machine.execForwardedRecord x s
  -- 13: host ports
  | .portReset port kind => Sys2Proof.Machine.execPortReset port kind s
  | .perstRelease port => Sys2Proof.Machine.execPerstRelease port s
  | .functionLevelReset port fn => Sys2Proof.Machine.execFunctionLevelReset port fn s
  | .vfEnableChange port count => Sys2Proof.Machine.execVfEnableChange port count s
  | .unmappedAccess isRead => Sys2Proof.Machine.execUnmappedAccess isRead s
  | .windowEdit r => Sys2Proof.Machine.execWindowEdit r s
  | .windowZeroingDone base => Sys2Proof.Machine.execWindowZeroingDone base s
  | .ringEnable r => Sys2Proof.Machine.execRingEnable r s
  | .cqHead tenant value => Sys2Proof.Machine.execCqHead tenant value s
  | .cqIrqTimer tenant => Sys2Proof.Machine.execCqIrqTimer tenant s
  | .attention r => Sys2Proof.Machine.execAttention r s
  | .attentionMask r => Sys2Proof.Machine.execAttentionMask r s
  | .tenantAttention r => Sys2Proof.Machine.execTenantAttention r s
  -- 14: DMA
  | .dmaAssign r => Sys2Proof.Machine.execDmaAssign r s
  | .dmaGo r => Sys2Proof.Machine.execDmaGo r s
  | .dmaSlotStart channel hostBytes poisonBytes => Sys2Proof.Machine.execDmaSlotStart channel hostBytes poisonBytes s
  | .dmaHalf channel => Sys2Proof.Machine.execDmaHalf channel s
  | .dmaSlotEnd channel => Sys2Proof.Machine.execDmaSlotEnd channel s
  | .hostReadError channel written => Sys2Proof.Machine.execHostReadError channel written s
  -- 15: memory
  | .scrubRead stack address syn passEnd perMille => Sys2Proof.Machine.execScrubRead stack address syn passEnd perMille s
  | .scrubNow r => Sys2Proof.Machine.execScrubNow r s
  | .refreshBandChange stack => Sys2Proof.Machine.execRefreshBandChange stack s
  -- 16: reliability
  | .shadowSampleJudged x => Sys2Proof.Machine.execShadowSampleJudged x s
  | .arbitration x => Sys2Proof.Machine.execArbitration x s
  | .arbTimeout engine facet group => Sys2Proof.Machine.execArbTimeout engine facet group s
  | .sweep reads => Sys2Proof.Machine.execSweep reads s
  | .sweepNow r => Sys2Proof.Machine.execSweepNow r s
  | .testDue core => Sys2Proof.Machine.execTestDue core s
  | .testComplete core failed spare rowsDiffering => Sys2Proof.Machine.execTestComplete core failed spare rowsDiffering s
  | .testNow r => Sys2Proof.Machine.execTestNow r s
  | .testOverdue core => Sys2Proof.Machine.execTestOverdue core s
  | .coreRecoveryReset core trigger => Sys2Proof.Machine.execCoreRecoveryReset core trigger s
  -- 17: power and heat
  | .powerSample mw mv ma => Sys2Proof.Machine.execPowerSample mw mv ma s
  | .governorDecision => Sys2Proof.Machine.execGovernorDecision s
  | .powerCapW r => Sys2Proof.Machine.execPowerCapW r s
  | .thermalCrossing domain temp16 byStack => Sys2Proof.Machine.execThermalCrossing domain temp16 byStack s
  | .graceExpiry domain => Sys2Proof.Machine.execGraceExpiry domain s
  | .skipStepTick domain => Sys2Proof.Machine.execSkipStepTick domain s
  | .divideAfterExpiry domain => Sys2Proof.Machine.execDivideAfterExpiry domain s
  | .thermalShutdown channel => Sys2Proof.Machine.execThermalShutdown channel s
  | .supplyFault cause => Sys2Proof.Machine.execSupplyFault cause s
  | .islandStop island gate => Sys2Proof.Machine.execIslandStop island gate s
  | .islandDrainComplete island drainUs => Sys2Proof.Machine.execIslandDrainComplete island drainUs s
  | .islandRestart island => Sys2Proof.Machine.execIslandRestart island s
  -- 18: housekeeping
  | .hkRound half late => Sys2Proof.Machine.execHkRound half late s
  | .hkConversion half entry value => Sys2Proof.Machine.execHkConversion half entry value s
  | .urgentConversion half channel sample gain requestNs => Sys2Proof.Machine.execUrgentConversion half channel sample gain requestNs s
  | .urgentResult half value resultNs => Sys2Proof.Machine.execUrgentResult half value resultNs s
  | .calSwap half offsetLsb gainPpm => Sys2Proof.Machine.execCalSwap half offsetLsb gainPpm s
  | .sequence r => Sys2Proof.Machine.execSequence r s
  | .roundUs r => Sys2Proof.Machine.execRoundUs r s
  | .minmaxReset r => Sys2Proof.Machine.execMinmaxReset r s
  -- 19, 20: reset, boot, power states, security, supply
  | .coldStart mv => Sys2Proof.Machine.execColdStart mv s
  | .bootStageEnd ok tookMs => Sys2Proof.Machine.execBootStageEnd ok tookMs s
  | .deviceReset r => Sys2Proof.Machine.execDeviceReset r s
  | .resetWindowExpiry => Sys2Proof.Machine.execResetWindowExpiry s
  | .powerStateRequest r => Sys2Proof.Machine.execPowerStateRequest r s
  | .groupPower r => Sys2Proof.Machine.execGroupPower r s
  | .l1IdleExpiry => Sys2Proof.Machine.execL1IdleExpiry s
  | .l1Exit => Sys2Proof.Machine.execL1Exit s
  | .firmwareImage r => Sys2Proof.Machine.execFirmwareImage r s
  | .firmwareActivate r => Sys2Proof.Machine.execFirmwareActivate r s
  | .ownerKeys r => Sys2Proof.Machine.execOwnerKeys r s
  | .ownerUnlock r => Sys2Proof.Machine.execOwnerUnlock r s
  | .keyLock r => Sys2Proof.Machine.execKeyLock r s
  | .getVersion path => Sys2Proof.Machine.execGetVersion path s
  | .getCapabilities path => Sys2Proof.Machine.execGetCapabilities path s
  | .negotiateAlgorithms path asym hash => Sys2Proof.Machine.execNegotiateAlgorithms path asym hash s
  | .getDigests path => Sys2Proof.Machine.execGetDigests path s
  | .getCertificate path slot offset length => Sys2Proof.Machine.execGetCertificate path slot offset length s
  | .challenge path slot nonce => Sys2Proof.Machine.execChallenge path slot nonce s
  | .getMeasurements path index signed nonce => Sys2Proof.Machine.execGetMeasurements path index signed nonce s
  | .vinDrop mv => Sys2Proof.Machine.execVinDrop mv s
  | .vinRemoved => Sys2Proof.Machine.execVinRemoved s
  | .cableInsert connector => Sys2Proof.Machine.execCableInsert connector s
  | .cableRemove connector => Sys2Proof.Machine.execCableRemove connector s
  | .dynamicAddressAssignment address => Sys2Proof.Machine.execDynamicAddressAssignment address s
  | .firmwareFault => Sys2Proof.Machine.execFirmwareFault s
  | .linkUp port speed width flit => Sys2Proof.Machine.execLinkUp port speed width flit s
  | .orderReport worker x => Sys2Proof.Machine.execOrderReport worker x s
  | .sweepRecords worker records => Sys2Proof.Machine.execSweepRecords worker records s

end Sys2Proof.Machine
end

