-- ==== Sys2Proof/Machine/Pins.lean ====
section
/-! DEFINITION. The connectors: the signal at each position of J1, the levels of the sideband outputs, and the pair of a cable connector that
a link's lane uses (R576, R578, R579). -/

namespace Sys2Proof.Machine

/-! ## Connector J1 (R576) -/

/-- A signal of J1; a port's lane has a positive and a negative conductor. -/
inductive J1Signal where
  | lane (port : Nat) (transmit : Bool) (lane : Nat) (positive : Bool)
  | refclk (port : Nat) (positive : Bool)
  | perst (port : Nat)
  | rdybsy (port : Nat)
  | thermtrip
  | alert
  | pwrgd
  | prsnt
  | scl
  | sda
  | mgmtAddr (bit : Nat)
  | vin
  | vinReturn
  | ground
  | reserved
  deriving DecidableEq, Repr

/-- Row E of the signal segment, by column. -/
def j1RowE (col : Nat) : J1Signal :=
  if col = 1 ∨ col = 4 then .refclk (col / 4) true
  else if col = 2 ∨ col = 5 then .refclk (col / 4) false
  else if col = 7 ∨ col = 8 then .perst (col - 7)
  else if col = 10 ∨ col = 11 then .rdybsy (col - 10)
  else if 23 ≤ col ∧ col ≤ 25 then .mgmtAddr (25 - col)
  else match col with
    | 13 => .thermtrip
    | 14 => .alert
    | 16 => .pwrgd
    | 18 => .prsnt
    | 20 => .scl
    | 21 => .sda
    | _ => .reserved

/-- The signal at a position of the signal segment: row 0 to 7 for A to H, column 1 to 40. -/
def j1Signal (row col : Nat) : J1Signal :=
  if row < 4 then
    if col ≤ 24 ∧ col % 3 ≠ 0 then .lane (row / 2) (decide (row % 2 = 0)) (col / 3) (decide (col % 3 = 1)) else .ground
  else if row = 4 then j1RowE col
  else if row = 5 then .ground
  else .reserved

/-- The power blades P1 to P24. -/
def j1Blade (n : Nat) : J1Signal := if n ≤ 12 then .vin else .vinReturn

/-- Whether the module drives an output of J1 low (R433, R521, R578); PRSNT_L is tied to ground. -/
def Work.drivesLow (s : Work) : J1Signal → Bool
  | .rdybsy p => s.rdybsyLow p
  | .thermtrip => s.thermtripLow
  | .alert => s.alertLow
  | .pwrgd => !s.power.pwrgd
  | .prsnt => true
  | _ => false

/-! ## Connectors J2 to J5 (R11, R579) -/

/-- A differential pair of a cable connector. -/
inductive CablePair where
  | transmit (link lane : Nat)
  | receive (link lane : Nat)
  | ground
  deriving DecidableEq, Repr

/-- Pair position 0 to 127 of connector J2 to J5. -/
def cablePair (connector pos : Nat) : CablePair :=
  let link := 4 * (connector - 2) + pos / 32
  let place := pos % 32
  if place < 8 then .transmit link place
  else if 16 ≤ place ∧ place < 24 then .receive link (place - 16)
  else .ground

end Sys2Proof.Machine
end

