-- ==== Sys2Proof/WellFormed.lean ====
section
/-! DEFINITION. When a command is well formed: each operand lies in the field that carries it (R4, R6, R8, R22, R27, R49, R59, R80, R117,
R145, R194, R281, R296, R378, R380, R389, R412, R443, R463, R501, R533). What a command names that a smaller module lacks is for the
state to say. -/

namespace Sys2Proof

/-! ## Operand records -/

/-- A number fits `w` bits. -/
def fits (w v : Nat) : Bool := decide (v < 2 ^ w)

/-- The management port and the fabric have no functions; a port has one physical and at most 512 virtual functions. -/
def Origin.wf (o : Origin) : Bool :=
  match o.path with
  | .portA => decide (o.fn ≤ 512)
  | .portB => decide (o.fn ≤ 512)
  | .mgmt => decide (o.fn = 0)
  | .fabric => decide (o.fn = 0)

/-- Each field of a request header fits it, and LENGTH is at most MAX_SEGMENT's largest, 4,096 bytes. -/
def Req.wf (r : Req) : Bool :=
  r.origin.wf && [r.tag, r.target, r.flags, r.sub, r.rsv7].all (fits 8) && fits 16 r.index && fits 10 r.tenant && fits 6 r.tenantHi &&
    fits 32 r.arg && decide (r.payload.length ≤ 4096)

def FnWin.wf (w : FnWin) : Bool := decide (w.port < 2) && decide (w.fn ≤ 512)

/-- A block has 32 codes in the range of its width: −127 to 127 in B8, −7 to 7 in B4 (R145, R146). -/
def Blk.wf (b : Blk) : Bool :=
  fits 8 b.field && decide (b.codes.length = 32) && b.codes.all (fun c => match c with
    | some v => decide (v.natAbs ≤ if b.b8 then 127 else 7)
    | none => true)

def CandRec.wf (c : CandRec) : Bool :=
  fits 32 c.zMax && fits 32 c.s && c.cands.all (fun p => fits 32 p.1 && fits 32 p.2)

def Vec.wf : Vec → Bool
  | .blocks bs => bs.all Blk.wf
  | .words _ ws => ws.all (fun w => match w with
    | some v => fits 32 v
    | none => true)
  | .cand c => c.wf
  | .route es => es.all (fun p => fits 16 p.1 && fits 16 p.2)
  | .mask _ _ => true

def OpCtx.wf (c : OpCtx) : Bool :=
  decide (c.slot < 4) && fits 8 c.m && [c.seq, c.layer, c.coreset].all (fits 16) && [c.dst, c.src0, c.src1, c.src2].all (fits 16) &&
    c.sram.all (fun x => decide (x.src < 3))

def CimArgs.wf (a : CimArgs) : Bool :=
  fits 16 a.slice && decide (a.fscB4 < 8) && decide (a.fscWide < 8) && fits 8 a.outFmt && fits 16 a.checkTol && fits 16 a.deltaLayer

def MeshEnd.wf : MeshEnd → Bool
  | .core c => decide (c < 64)
  | .sram row col => decide (row < 4) && decide (col < 16)
  | .stack n _ => decide (n < 12)
  | .link l row => decide (l < 16) && decide (row < 4)
  | .port p row => decide (p < 2) && decide (row < 4)

def MeshTransfer.wf (t : MeshTransfer) : Bool := t.src.wf && t.dst.wf && fits 8 t.flowTag && decide (t.cls < 3)

def SelvedgeMsg.wf (m : SelvedgeMsg) : Bool :=
  decide (m.src < 64) && decide (m.dst.getD 0 < 64) && decide (m.cls < 5) && decide (m.words.length ≤ 7) && m.words.all (fits 32)

/-- An engine has 4 facets of at most 1,024 outputs, 8 checksum groups and 8 reference columns. -/
def WindowEnd.wf (w : WindowEnd) : Bool :=
  decide (w.engine < 2048) && decide (w.facet < 4) && decide (w.chk.length = 8) && decide (w.ref.length = 8) &&
    w.codes.all (fun p => decide (p.pair < 1024) && decide (p.code.natAbs ≤ 127) && (!p.sat || decide (p.code.natAbs = 127))) &&
    w.shadow.all (fun p => decide (p.pair < 16) && decide (p.code.natAbs ≤ 127) && (!p.sat || decide (p.code.natAbs = 127)))

def GoldenReturn.wf (g : GoldenReturn) : Bool := decide (g.engine < 2048) && decide (g.facet < 4) && decide (g.pair < 1024)

def StepHead.wf (h : StepHead) : Bool :=
  [h.step, h.bodyLength, h.bodyCrc, h.estimateUs].all (fits 32) && [h.epoch, h.lanes, h.variants, h.vectors, h.pageOps].all (fits 16) &&
    [h.kind, h.slots, h.m].all (fits 8)

def LaneResult.wf (x : LaneResult) : Bool := fits 16 x.numeric && fits 32 x.loss

def StepResult.wf (x : StepResult) : Bool := fits 8 x.src && fits 32 x.step && x.lanes.all LaneResult.wf

def CollPart.wf (p : CollPart) : Bool := fits 8 p.src && decide (p.slot < 4) && p.data.all Vec.wf

def Flit.wf (f : Flit) : Bool :=
  decide (f.vl < 4) && fits 10 f.seq && fits 10 f.ack && fits 2 f.crVl && fits 8 f.crCnt

def Notice.wf (n : Notice) : Bool := fits 16 n.epoch && fits 8 n.cause && fits 8 n.device && fits 8 n.link && fits 8 n.src

def Identity.wf (x : Identity) : Bool :=
  fits 64 x.serial && decide (x.role < 4) && fits 8 x.deviceId && fits 16 x.epoch && decide (x.link < 16) && decide (x.grade < 3) &&
    x.partners.all (fun p => decide (p.1 < 16))

def Membership.wf (x : Membership) : Bool :=
  fits 16 x.epoch && fits 8 x.deviceId && decide (x.role < 4) && x.members.all (fits 8) && x.memberLinks.all (fun l => decide (l < 16))

def OrderKind.wf : OrderKind → Bool
  | .pause slot _ => decide (slot < 4)
  | .drain slot => decide (slot < 4)
  | .drainComplete slot kind => decide (slot < 4) && decide (kind < 2)
  | .deltaLoad slot variant tenant _ _ _ _ => decide (slot < 4) && fits 16 variant && fits 16 tenant
  | .deltaInstall slot variant _ _ => decide (slot < 4) && fits 16 variant
  | .deltaDrop slot variant _ => decide (slot < 4) && fits 16 variant
  | .tuneSetup _ slot variant _ _ _ _ _ _ => decide (slot < 4) && fits 16 variant
  | .tunePublish _ slot variant _ _ => decide (slot < 4) && fits 16 variant
  | .tuneEnd _ => true
  | .power state => decide (state ≤ 4)
  | .dissolve => true

def ReportKind.wf : ReportKind → Bool
  | .deltaChecked slot variant _ _ _ => decide (slot < 4) && fits 16 variant
  | .coresRestored => true
  | .pauseAsked slot _ => decide (slot < 4)
  | .slotState slot state _ _ _ _ _ _ _ _ _ _ => decide (slot < 4) && fits 8 state
  | .setPoisoned _ => true

def RecordIn.wf (r : RecordIn) : Bool :=
  [r.device, r.severity, r.unitKind, r.slot].all (fits 8) && [r.code, r.unit, r.tenant].all (fits 16) && fits 32 r.detail

/-- A digest has 64 bytes. -/
def SweepRec.wf (r : SweepRec) : Bool := decide (r.core < 64) && decide (r.slot < 4) && decide (r.digest.length = 64)

/-- An array: facet IDs 0 to 8,191, or spare n of 256 as 0x8000 + n (R113). -/
def arrayWf (a : Nat) : Bool := decide (a < 8192) || (decide (0x8000 ≤ a) && decide (a < 0x8100))

/-- A cell of an array and a level of its scale (R76, R77, R79). -/
def CellOff.wf (x : CellOff) : Bool := decide (x.row < 1024) && decide (x.col < 1056) && decide (x.level < if x.col < 1024 then 8 else 64)

def SweepRead.wf (r : SweepRead) : Bool := decide (r.core < 64) && decide (r.slot < 4) && r.off.all (fun x => arrayWf x.1 && x.2.wf)

def ShadowJudged.wf (x : ShadowJudged) : Bool := decide (x.engine < 2048) && decide (x.facet < 4)

def ArbitrationIn.wf (x : ArbitrationIn) : Bool := decide (x.engine < 2048) && decide (x.facet < 4) && decide (x.group < 8)

def ProgramResult.wf (x : ProgramResult) : Bool :=
  arrayWf x.array && x.off.all CellOff.wf && x.samples.all (fun p => decide (p.ref.length = 8))

/-- The op's context and its other arguments. -/
def opWf (c : OpCtx) (rest : Bool) : Bool := c.wf && rest

/-! ## Commands -/

/-- A command is well formed. -/
def Instr.wf : Instr → Bool
  | .read r | .write r | .describe r | .next r => r.wf
  | .segOpenRead r | .segOpenWrite r | .segRead r | .segWrite r | .segCommit r | .segAbort r => r.wf
  | .sessionIdleExpiry h => fits 16 h && decide (1 ≤ h)
  | .go w ctrl hdr payload => w.wf && fits 32 ctrl && decide (hdr.length = 16) && decide (payload.length ≤ 4096)
  | .abandon w => w.wf
  | .doneClear w => w.wf
  | .cmdAbort r | .restoreDefaults r | .rangeOwner r => r.wf
  | .classPWriteDurable i sub _ => fits 16 i && fits 8 sub
  | .bulkMeshTransfer t => t.wf
  | .selvedgeMessage m => m.wf
  | .cimMvm c a => opWf c a.wf
  | .cimMvmt c a => opWf c a.wf
  | .engineMvmStart e _ => decide (e < 2048)
  | .phaseWindowEnd w => w.wf
  | .goldenReadReturn g => g.wf
  | .recomputeComplete e => decide (e < 2048)
  | .epilogue e => decide (e < 2048)
  | .reduce c a => opWf c (decide (a.kind < 3) && decide (a.oper < 3))
  | .gather c a => opWf c (decide (a.kind < 3))
  | .norm c a => opWf c (decide (a.kind < 2))
  | .act c a => opWf c (fits 8 a.func && fits 8 a.combine)
  | .rope c a => opWf c (decide (a.rotDims ≤ a.headDim) && decide (a.layout < 2))
  | .attn c a => opWf c (decide (1 ≤ a.kvHeads) && decide (a.kvHeads ≤ a.qHeads) && fits 8 a.mask)
  | .route c a => opWf c (decide (1 ≤ a.topK) && decide (a.topK ≤ a.experts))
  | .expert c a => opWf c (a.cim.wf && decide (a.stage < 2))
  | .embed c a => opWf c (decide (1 ≤ a.vocab))
  | .patch c a => opWf c (decide (1 ≤ a.side) && decide (1 ≤ a.bands))
  | .head c a => opWf c (fits 32 a.vocabBase && fits 32 a.vocabCount)
  | .convert c a => opWf c (fits 8 a.outFmt)
  | .copy c a => opWf c (fits 32 a.elements)
  | .barrier c a => opWf c (fits 8 a.scope && fits 8 a.barrierId)
  | .draft c d k _ => opWf c (decide (d < 4) && decide (k ≤ 8))
  | .mask c set _ _ => opWf c (fits 8 set)
  | .sample c out => opWf c (fits 16 out)
  | .dieStepEnd us => fits 32 us
  | .sliceCalibrationComplete x => arrayWf x.array
  | .sliceAdjustStep a pos => arrayWf a && decide (pos < 33)
  | .sentinelConverterCal a => arrayWf a
  | .rowSideCal a => arrayWf a
  | .trimApply a bad => arrayWf a && bad.all (fun p => decide (p < 5))
  | .calibrationMvm a _ _ ref => arrayWf a && decide (ref.length = 8)
  | .baselineRecord a => arrayWf a
  | .ageTick => true
  | .lifetimeSave => true
  | .calendarStamp r | .trimRead r | .refreshFacet r | .layerCountsClear r => r.wf
  | .histogramMinute => true
  | .loadStart r | .slotRelease r | .replaceSlot r => r.wf
  | .loadSectionArrival ty die _ _ => fits 8 ty && fits 16 die
  | .reattachReadbackDone ds => ds.all (fun d => decide (d.1 < 64) && decide (d.2.length = 64))
  | .facetProgramStart a => arrayWf a
  | .facetProgramDone x => x.wf
  | .drainDeadline slot _ => decide (slot < 4)
  | .inPlaceRefresh fs => fs.all (fun f => decide (f < 8192))
  | .submit t d _ _ => decide (t < 1024) && decide (d.length = 128)
  | .cancel t d _ _ => decide (t < 1024) && decide (d.length = 128)
  | .promptFetchDone e _ _ => decide (e < 16384)
  | .idleBoundary _ => true
  | .commit _ => true
  | .requestCancel r | .requestHold r | .requestResume r | .requestRelease r => r.wf
  | .stepBody _ => true
  | .stepHead h => h.wf
  | .bodyTimeout => true
  | .bodyResend w => fits 8 w
  | .drafts ls => ls.all (fun l => decide (l.tokens.length ≤ 8))
  | .masks slot _ _ => decide (slot < 4)
  | .gatherPart p => p.wf
  | .accept ws => ws.all (fits 32)
  | .stepResult x => x.wf
  | .reducePart p _ oper kind => p.wf && decide (oper < 3) && decide (kind < 3)
  | .reduceResult p => p.wf
  | .barrierMessage scope b src _ => fits 8 scope && fits 8 b && fits 8 src
  | .heartbeatTimer => true
  | .heartbeat src _ => fits 8 src
  | .heartbeatAck src _ => fits 8 src
  | .stepResultTimeout => true
  | .deltaFetchDone core slot seq m _ _ _ _ => decide (core < 64) && decide (slot < 4) && fits 16 seq && fits 8 m
  | .variantLoad r | .variantUnload r | .variantPin r | .tuneStart r => r.wf
  | .grammarImage r | .globalGrammarImage r | .grammarDelete r | .globalGrammarDelete r => r.wf
  | .linkTrainingDone l locked p _ _ => decide (l < 16) && fits 8 locked && (match p with
    | some x => x.wf
    | none => true)
  | .linkRetrainTimer l => decide (l < 16)
  | .linkEnable r | .groupForm r | .groupDissolve r | .mirrorRelease r => r.wf
  | .laneLockLoss l lane => decide (l < 16) && decide (lane < 8)
  | .flitTimeout l => decide (l < 16)
  | .dataFlit l f => decide (l < 16) && f.wf
  | .nullFlit l f => decide (l < 16) && f.wf
  | .nak l a => decide (l < 16) && fits 10 a
  | .linkLatencyMeasure l _ => decide (l < 16)
  | .faultNotice n => n.wf
  | .loadData l ty die _ _ => decide (l < 16) && fits 8 ty && fits 16 die
  | .dictRequest op r => fits 8 op && r.wf
  | .dictResponse op tag src status detail p =>
    fits 8 op && fits 8 tag && fits 8 src && fits 8 status && fits 32 detail && decide (p.length ≤ 4096)
  | .probe src l e => fits 8 src && decide (l < 16) && fits 16 e
  | .probeReply x l => x.wf && decide (l < 16)
  | .membership x => x.wf
  | .order o => o.wf
  | .mirror x => x.entries.all (fun e => decide (e.1 < 16384) && decide (e.2.length = 128))
  | .managerTimeout _ => true
  | .throttleStateChange w _ => fits 8 w
  | .forwardedRecord x => x.wf
  | .portReset p k => decide (p < 2) && decide (k < 4)
  | .perstRelease p => decide (p < 2)
  | .functionLevelReset p fn => decide (p < 2) && decide (fn ≤ 512)
  | .vfEnableChange p n => decide (p < 2) && decide (n ≤ 512)
  | .unmappedAccess _ => true
  | .windowEdit r | .ringEnable r | .attention r | .attentionMask r | .tenantAttention r => r.wf
  | .windowZeroingDone _ => true
  | .cqHead t v => decide (t < 1024) && fits 32 v
  | .cqIrqTimer t => decide (t < 1024)
  | .dmaAssign r | .dmaGo r => r.wf
  | .dmaSlotStart c _ _ => decide (c < 32)
  | .dmaHalf c => decide (c < 32)
  | .dmaSlotEnd c => decide (c < 32)
  | .hostReadError c _ => decide (c < 32)
  | .scrubRead st _ syn _ pm => decide (st < 12) && decide (syn.length = 36) && decide (pm ≤ 1000)
  | .scrubNow r | .sweepNow r | .testNow r => r.wf
  | .refreshBandChange st => decide (st < 12)
  | .shadowSampleJudged x => x.wf
  | .arbitration x => x.wf
  | .arbTimeout e f g => decide (e < 2048) && decide (f < 4) && decide (g < 8)
  | .sweep rs => rs.all SweepRead.wf
  | .testDue c => decide (c < 64)
  | .testComplete c failed _ _ => decide (c < 64) && failed.all (fun k => decide (k < 16))
  | .testOverdue c => decide (c < 64)
  | .coreRecoveryReset c t => decide (c < 64) && fits 8 t
  | .powerSample mw mv ma => fits 32 mw && fits 32 mv && fits 32 ma
  | .governorDecision => true
  | .powerCapW r | .sequence r | .roundUs r | .minmaxReset r => r.wf
  | .thermalCrossing d _ byStack => decide (d < 4) && (!byStack || decide (d < 2))
  | .graceExpiry d => decide (d < 4)
  | .skipStepTick d => decide (d < 4)
  | .divideAfterExpiry d => decide (d < 4)
  | .thermalShutdown c => decide (c < 10)
  | .supplyFault c => decide (c < 3)
  | .islandStop i _ => decide (i < 0xB0)
  | .islandDrainComplete i _ => decide (i < 0xB0)
  | .islandRestart i => decide (i < 0xB0)
  | .hkRound h _ => decide (h < 2)
  | .hkConversion h e _ => decide (h < 2) && decide (e < 16)
  | .urgentConversion h ch s g _ => decide (h < 2) && fits 6 ch && fits 3 s && fits 2 g
  | .urgentResult h _ _ => decide (h < 2)
  | .calSwap h _ _ => decide (h < 2)
  | .coldStart mv => fits 32 mv
  | .bootStageEnd _ ms => fits 32 ms
  | .deviceReset r | .powerStateRequest r | .groupPower r => r.wf
  | .resetWindowExpiry => true
  | .l1IdleExpiry => true
  | .l1Exit => true
  | .firmwareImage r | .firmwareActivate r | .ownerKeys r | .ownerUnlock r | .keyLock r => r.wf
  | .getVersion _ => true
  | .getCapabilities _ => true
  | .negotiateAlgorithms _ a h => a.all (fits 16) && h.all (fits 16)
  | .getDigests _ => true
  | .getCertificate _ slot off len => fits 8 slot && fits 16 off && fits 16 len
  | .challenge _ slot nonce => fits 8 slot && decide (nonce.length = 32)
  | .getMeasurements _ i _ nonce => fits 8 i && decide (nonce.length = 32 ∨ nonce.length = 0)
  | .vinDrop mv => fits 32 mv
  | .vinRemoved => true
  | .cableInsert c => decide (2 ≤ c) && decide (c ≤ 5)
  | .cableRemove c => decide (2 ≤ c) && decide (c ≤ 5)
  | .dynamicAddressAssignment a => fits 7 a
  | .firmwareFault => true
  | .linkUp p speed width _ => decide (p < 2) && decide (1 ≤ speed) && decide (speed ≤ 6) && [1, 2, 4, 8].contains width
  | .orderReport w x => fits 8 w && x.wf
  | .sweepRecords w rs => fits 8 w && rs.all SweepRec.wf

end Sys2Proof
end

