-- ==== Sys2Proof/Safety.lean ====
section
/-! DEFINITION. The terms claims are made in: what an observer reads of a state, what a command leaves as it was, and when the dictionary
takes a request. -/

namespace Sys2Proof.Machine

/-! ## Reading a state -/

/-- The value an object holds. -/
def State.val (s : State) (k : Key) : Nat := s.work.get k

/-- The committed bytes of a DOMAIN. -/
def State.domBytes (s : State) (k : Key) : List Byte := (s.work.dom k).bytes

/-- A byte of device memory. -/
def State.byteAt (s : State) (a : Nat) : Byte := getCell s.mem.cells a

/-- A codeword of device memory is stored poisoned. -/
def State.poisonedAt (s : State) (c : Nat) : Bool := s.mem.poison.contains c

/-! ## What is left as it was -/

/-- The parts of a state other than the values of objects, what has been sent, and the model's own count of free values. -/
inductive StatePart where
  | mem | now | doms | dict | islands | net | power | programming | hk | dram | host | dma | rel | boot | links | group | arrs | engines
  | nextTag | unverifiable | slots | layerCounts | step | life | res | serve | vars
  deriving DecidableEq, Repr

/-- A part is the same in two states. -/
def State.same (s t : State) : StatePart → Prop
  | .mem => t.mem = s.mem
  | .now => t.dev.now = s.dev.now
  | .doms => t.dev.doms = s.dev.doms
  | .dict => t.dev.dict = s.dev.dict
  | .islands => t.dev.islands = s.dev.islands
  | .net => t.dev.net = s.dev.net
  | .power => t.dev.power = s.dev.power
  | .programming => t.dev.programming = s.dev.programming
  | .hk => t.dev.hk = s.dev.hk
  | .dram => t.dev.dram = s.dev.dram
  | .host => t.dev.host = s.dev.host
  | .dma => t.dev.dma = s.dev.dma
  | .rel => t.dev.rel = s.dev.rel
  | .boot => t.dev.boot = s.dev.boot
  | .links => t.dev.links = s.dev.links
  | .group => t.dev.group = s.dev.group
  | .arrs => t.dev.arrs = s.dev.arrs
  | .engines => t.dev.engines = s.dev.engines
  | .nextTag => t.dev.nextTag = s.dev.nextTag
  | .unverifiable => t.dev.unverifiable = s.dev.unverifiable
  | .slots => t.dev.slots = s.dev.slots
  | .layerCounts => t.dev.layerCounts = s.dev.layerCounts
  | .step => t.dev.step = s.dev.step
  | .life => t.dev.life = s.dev.life
  | .res => t.dev.res = s.dev.res
  | .serve => t.dev.serve = s.dev.serve
  | .vars => t.dev.vars = s.dev.vars

/-- A command changed at most the parts listed and the values of the objects listed; the module, the rest of the queue and what had been
sent before are never changed. -/
def State.frame (s t : State) (parts : List StatePart) (keys : Key → Prop) : Prop :=
  t.pending = s.pending ∧ t.ident = s.ident ∧ s.out <+: t.out ∧ (∀ p, p ∉ parts → s.same t p) ∧ ∀ k, ¬ keys k → t.val k = s.val k

/-- A count rises by a number, unless that would take it past the range of its type (assumption log 4, DESIGN CHOICE). -/
def State.counted (s t : State) (k : Key) (n : Nat) : Prop := s.val k + n < 2 ^ bitsOf k → t.val k = s.val k + n

/-- The counters of a link that sending a fabric message moves (R385, R409). -/
def linkCounter (k : Key) : Prop :=
  k.index = (Obj.linkTxBytes 0).index ∨ k.index = (Obj.selvedgeReplayWaits 0).index ∨ k.index = (Obj.selvedgeWaitMaxPs 0).index

/-! ## Requests that the dictionary takes -/

/-- A request reaches its operation here: its path is up, its window is free, the device is READY, it is aimed at this device, and its
reserved fields and ARG are 0, and no parked request of its caller holds it back (R49, R51, R58, R60, R68, R435). -/
structure State.takes (s : State) (op : Nat) (r : Req) : Prop where
  reaches : s.work.reaches r.origin = true
  free : ∀ w, originWindow r.origin = some w → (s.work.window w).busy = false
  ready : s.dev.boot.stage = 4
  turn : s.work.staysBehind op r = false
  here : r.target = 254 ∨ r.target = s.work.ownDevice
  flags : r.flags = 0
  rsv : r.rsv7 = 0
  high : sessionOp op = false → r.tenantHi = 0
  arg : argZero.contains op = true → r.arg = 0

/-- A request as it is served: TENANT of a tenant's function is its own (R58, R66). -/
def seen (op : Nat) (r : Req) : Req :=
  match originTenant r.origin with
  | some t => if sessionOp op then r else { r with tenant := t }
  | none => r

/-- The answer to a request, as it leaves on the request's path (R50, R56). -/
def State.answer (s : State) (op : Nat) (r : Req) (status detail : Nat) (payload : List Byte) : Output :=
  match r.origin.path with
  | .fabric => .fabric (some 0) none (.dictResponse (op ||| 0x80) r.tag status detail payload)
  | _ => .response r.origin (op ||| 0x80) r.tag s.work.ownDevice status r.index r.sub (reqWord9 r) detail payload

/-- A WRITE of a value to an object passes every check that WRITEs share (R45, R53, R58, R63, R66). -/
structure State.grants (s : State) (r : Req) (row : Row) (k : Key) (v : Nat) : Prop where
  takes : s.takes 2 r
  object : s.work.lookup (seen 2 r) = some (row, k)
  writable : row.access ≠ .ro ∧ row.ty ≠ .domain
  allowed : s.work.writeRefused r.origin row = none
  length : r.payload.length = typeSize row.ty
  value : ofLE r.payload = v
  island : servedBySeam r.index = true → s.work.islandCond 0xAC ≠ .gated ∧ s.work.islandCond 0xAC ≠ .stopped ∧ s.work.islandCond 0xAC ≠ .faulted

/-- A WRITE starts the action of a CMD object (R70). -/
structure State.starts (s : State) (r : Req) (k : Key) (arg : Nat) : Prop where
  row : ∃ row, s.grants r row k arg ∧ row.access = .cmd ∧ arg ≠ 2 ^ typeBits row.ty - 1 ∧ s.work.argOk row k arg = true
  idle : s.work.cmdBusy k = false
  settled : k = Obj.powerStateRequest → s.dev.boot.target = none

/-- STATE of a CMD object's progress word: 2 RUNNING, 3 DONE, 4 FAILED, 5 ABORTED (R69). -/
def State.cmdStateOf (s : State) (k : Key) : Nat := field (s.val k) 3 0

/-- RESULT of a CMD object's progress word (R69). -/
def State.cmdResultOf (s : State) (k : Key) : Nat := field (s.val k) 31 16

/-- A request has been answered with success since an earlier state (R50). -/
def State.accepted (s t : State) (op : Nat) (r : Req) : Prop := s.answer op r 0 0 [] ∈ t.out.drop s.out.length

/-- The objects that answering a request moves: the count of requests, and on the fabric the link's counters. -/
def answerKey (k : Key) : Prop := k = Obj.requestsServed ∨ linkCounter k

/-- A row of one object is the request on that object: a WRITE of it passes every shared check. -/
def State.grantsAt (s : State) (r : Req) (row : Row) (k : Key) (v : Nat) : Prop := s.grants (reqAt r k.index k.sub) row k v

/-- A row of a CMD object starts its action. -/
def State.startsAt (s : State) (r : Req) (k : Key) (arg : Nat) : Prop := s.starts (reqAt r k.index k.sub) k arg

/-- The WRITE that a row of one object is has been answered with success. -/
def State.acceptedAt (s t : State) (r : Req) (k : Key) : Prop := s.accepted t 2 (seen 2 (reqAt r k.index k.sub))

/-- A request has been answered with a status other than success. -/
def State.refusedWith (s t : State) (op : Nat) (r : Req) (status detail : Nat) : Prop :=
  s.answer op (seen op r) status detail [] ∈ t.out.drop s.out.length

/-- A value that nothing follows from but the object itself: the write of any other object of its access has an effect of its own. -/
def State.plainValue (s : State) (k : Key) : Prop :=
  s.work.resting k.index = false ∧ k.index ≠ 0x8201 ∧ k.index ≠ 0x9810 ∧ k ≠ Obj.testIntervalS ∧ k ≠ Obj.ringEnable k.tenant ∧ k ≠ Obj.plannerRun

/-- A CMD has run and ended with success, and it is all the WRITE has changed beside the answer and the parts and objects named. -/
def State.commanded (s t : State) (r : Req) (k : Key) (parts : List StatePart) (keys : Key → Prop) : Prop :=
  s.acceptedAt t r k ∧ t.cmdStateOf k = 3 ∧
    s.frame t ([.dict, .links] ++ parts) (fun x => x = k ∨ answerKey x ∨ keys x)

/-- A CMD has failed with a result, and has changed nothing else. -/
def State.commandFails (s t : State) (r : Req) (k : Key) (result : Nat) : Prop :=
  s.acceptedAt t r k ∧ t.cmdStateOf k = 4 ∧ t.cmdResultOf k = result ∧
    s.frame t [.dict, .links] (fun x => x = k ∨ answerKey x)

/-- The module has the engine, core, tenant, island or mesh end a command names, and the address the stack (R4, R9, R36, R39, R413, R463). -/
def unitsPresent (c : Instr) (s : State) : Prop :=
  match c with
  | .bulkMeshTransfer t => endExists s.ident t.src ∧ endExists s.ident t.dst
  | .engineMvmStart e _ => engineExists s.ident e
  | .phaseWindowEnd w => engineExists s.ident w.engine
  | .goldenReadReturn g => engineExists s.ident g.engine
  | .recomputeComplete e => engineExists s.ident e
  | .epilogue e => engineExists s.ident e
  | .shadowSampleJudged x => engineExists s.ident x.engine
  | .arbitration x => engineExists s.ident x.engine
  | .arbTimeout e _ _ => engineExists s.ident e
  | .deltaFetchDone core _ _ _ _ _ _ _ => goodCore s.ident core
  | .testDue core => goodCore s.ident core
  | .testComplete core _ _ _ => goodCore s.ident core
  | .testOverdue core => goodCore s.ident core
  | .coreRecoveryReset core _ => goodCore s.ident core
  | .submit tenant _ _ _ => s.work.tenantExists tenant
  | .cancel tenant _ _ _ => s.work.tenantExists tenant
  | .cqHead tenant _ => s.work.tenantExists tenant
  | .cqIrqTimer tenant => s.work.tenantExists tenant
  | .islandStop i _ => islandPresent s.ident i
  | .islandDrainComplete i _ => islandPresent s.ident i
  | .islandRestart i => islandPresent s.ident i
  | .scrubRead stack a _ _ _ => addrValid a ∧ addrStack a = stack
  | _ => True

end Sys2Proof.Machine
end

