-- ==== Sys2Proof/Certificates/Slice0/Obligations.lean ====
section
/-! DEFINITION. The statements for the provers, each a proposition about the model. -/

open Sys2Proof Sys2Proof.Machine

/-! ## The machine as a whole -/

/-- A step takes the command at the front of the queue and runs it with the rest; on an empty queue the block idles (the model's choice, assumption log 1). -/
def Obligations.StepRunsTheFrontCommand : Prop :=
  (∀ (s : State) (c : Instr) (rest : List Instr), s.pending = c :: rest → step s = exec c { s with pending := rest }) ∧
  ∀ s : State, s.pending = [] → step s = .next s

/-- Memory stays in its canonical form at every step, from any state. -/
def Obligations.EveryStepKeepsMemoryCanonical : Prop :=
  ∀ s t : State, s.mem.wf = true → step s = .next t → t.mem.wf = true

/-- After reset memory is canonical and reads zero, no codeword is poisoned, every object has the default of its table, no command waits
and nothing has been sent (values a table gives as a word: assumption log 3). -/
def Obligations.ResetLeavesDefaultsAndZeroMemory : Prop :=
  State.reset.mem.wf = true ∧ (∀ a, State.reset.byteAt a = 0) ∧ (∀ c, State.reset.poisonedAt c = false) ∧
  (∀ k row v, findRow k.index k.sub = some row → row.dflt = .lit v → State.reset.val k = v) ∧
  State.reset.pending = [] ∧ State.reset.out = []

/-- No command changes the module or the queue's rest, and what has been sent stays sent. -/
def Obligations.CommandsKeepModuleQueueAndOutput : Prop :=
  ∀ (c : Instr) (s t : State), exec c s = .next t → t.pending = s.pending ∧ t.ident = s.ident ∧ s.out <+: t.out

/-- Every well-formed command that names units the module has completes; no command is ever refused. -/
def Obligations.WellFormedCommandsComplete : Prop :=
  (∀ (c : Instr) (s : State), c.wf = true → unitsPresent c s → ∃ t, exec c s = .next t) ∧
  ∀ (c : Instr) (s : State) (x : Refusal), exec c s ≠ .refused x

/-! ## 02: the object dictionary -/

/-- The seam island's own objects are reached only while it is neither gated, stopped nor faulted (R20, R63). -/
def islandServes (s : State) (r : Req) : Prop :=
  servedBySeam r.index = true → s.work.islandCond 0xAC ≠ .gated ∧ s.work.islandCond 0xAC ≠ .stopped ∧ s.work.islandCond 0xAC ≠ .faulted

/-- READ of a scalar the caller may see answers its value, DESCRIBE its descriptor, NEXT the next object of the table; each changes only the
caller's window and the counts of answering. An object the caller cannot see is NO_OBJECT to each. -/
def Obligations.ReadsDescribesAndNextsAreAnswered : Prop :=
  (∀ (s : State) (r : Req) (row : Row) (k : Key), s.takes 1 r → s.work.lookup (seen 1 r) = some (row, k) → row.access ≠ .wo → row.ty ≠ .domain →
    s.work.readState r.index = none → r.payload = [] → islandServes s r →
    ∃ t, exec (.read r) s = .next t ∧ s.answer 1 (seen 1 r) 0 0 (s.work.readValue r.origin row k) ∈ t.out.drop s.out.length ∧
      s.frame t [.dict, .links] answerKey) ∧
  (∀ (s : State) (r : Req) (row : Row) (k : Key), s.takes 3 r → s.work.lookup (seen 3 r) = some (row, k) → r.payload = [] →
    ∃ t, exec (.describe r) s = .next t ∧ s.answer 3 (seen 3 r) 0 0 (describeRow row k) ∈ t.out.drop s.out.length ∧
      s.frame t [.dict, .links] answerKey) ∧
  (∀ (s : State) (r : Req), s.takes 4 r → r.payload = [] →
    ∃ t n, exec (.next r) s = .next t ∧ s.answer 4 (seen 4 r) 0 0 (toLE 2 (n / 256) ++ toLE 1 (n % 256)) ∈ t.out.drop s.out.length ∧
      (∀ m, 256 * r.index + r.sub < m → m < n → ∀ row, findRow (m / 256) (m % 256) = some row → s.work.visible r.origin row (m % 256) = false) ∧
      (n = 0xFFFFFF ∨ (256 * r.index + r.sub < n ∧ ∃ row, findRow (n / 256) (n % 256) = some row ∧ s.work.visible r.origin row (n % 256) = true)) ∧
      s.frame t [.dict, .links] answerKey) ∧
  ∀ (s : State) (r : Req), (s.takes 1 r → s.work.lookup (seen 1 r) = none → ∃ t, exec (.read r) s = .next t ∧ s.refusedWith t 1 r 1 0) ∧
    (s.takes 3 r → s.work.lookup (seen 3 r) = none → ∃ t, exec (.describe r) s = .next t ∧ s.refusedWith t 3 r 1 0)

/-- R54. An object that is not tenant-visible is NO_OBJECT to a tenant function's READ, WRITE, DESCRIBE and sessions, never ACCESS, and nothing
but the answer and its counts changes; NEXT names only visible objects. -/
def Obligations.TenantsSeeOnlyTheirObjects : Prop :=
  ∀ (s : State) (r : Req) (tenant : Nat), originTenant r.origin = some tenant →
    ((∀ row, findRow r.index r.sub = some row → row.tenantVisible = false) →
      ∀ op c, (op = 1 ∧ c = .read r) ∨ (op = 2 ∧ c = .write r) ∨ (op = 3 ∧ c = .describe r) ∨ (op = 0x10 ∧ c = .segOpenRead r) ∨
          (op = 0x11 ∧ c = .segOpenWrite r) →
        s.takes op r →
        ∃ t, exec c s = .next t ∧ s.refusedWith t op r 1 0 ∧ s.frame t [.dict, .links] (fun x => answerKey x ∨ x = Obj.requestsRefused)) ∧
    (s.takes 4 r → r.payload = [] →
      ∃ t n, exec (.next r) s = .next t ∧ s.answer 4 (seen 4 r) 0 0 (toLE 2 (n / 256) ++ toLE 1 (n % 256)) ∈ t.out.drop s.out.length ∧
        (n = 0xFFFFFF ∨ ∃ row, findRow (n / 256) (n % 256) = some row ∧ row.tenantVisible = true))

/-- A row that writes one value: WRITE itself, or the row of one object. -/
def valueRow (c : Instr) (r : Req) : Prop :=
  c = .write r ∨ (∃ q, c = .rangeOwner q ∧ r = reqAt q 0x1F01 q.sub) ∨ (∃ q, c = .roundUs q ∧ r = reqAt q 0x3810 q.sub) ∨
    (∃ q, c = .attentionMask q ∧ r = reqAt q 0x9013 q.sub)

/-- A WRITE of a legal value that every check lets pass sets the object and answers with success; POWER_CAP_W, KEY_LOCK, CALENDAR_STAMP and every
other object of class P wait for the non-volatile store first, and CLASS_P_WRITE_DURABLE answers. A W1C write clears the bits written as 1. -/
def Obligations.WritesSetClearOrWaitForTheStore : Prop :=
  (∀ (s : State) (c : Instr) (r : Req) (row : Row) (k : Key) (v : Nat), valueRow c r → s.grants r row k v → row.access = .rw ∨ row.access = .wo →
    row.cls ≠ .p → row.min ≤ v → v ≤ row.max → s.work.valueRefused r.origin k v = none → s.plainValue k →
    ∃ t, exec c s = .next t ∧ s.accepted t 2 (seen 2 r) ∧ t.val k = v ∧ s.frame t [.dict, .links] (fun x => x = k ∨ answerKey x)) ∧
  (∀ (s : State) (c : Instr) (r : Req) (row : Row) (k : Key) (v : Nat),
    c = .write r ∨ (∃ q, c = .attention q ∧ r = reqAt q 0x9012 q.sub) ∨ (∃ q, c = .tenantAttention q ∧ r = reqAt q 0x9100 7) →
    s.grants r row k v → row.access = .w1c → row.min ≤ v → v ≤ row.max → s.work.valueRefused r.origin k v = none → ¬ answerKey k →
    ∃ t, exec c s = .next t ∧ s.answer 2 (seen 2 r) 0 0 (s.work.readValue r.origin row k) ∈ t.out.drop s.out.length ∧
      t.val k = (if row.ty = .bits32 then clearMask (s.val k) v else if v = 0 then s.val k else 0) ∧
      s.frame t [.dict, .links] (fun x => x = k ∨ answerKey x)) ∧
  (∀ (s : State) (c : Instr) (r : Req) (row : Row) (k : Key) (v : Nat),
    c = .write r ∨ (∃ q, c = .powerCapW q ∧ r = reqAt q 0x3010 1) ∨ (∃ q, c = .keyLock q ∧ r = reqAt q 0xC100 4) ∨
      (∃ q, c = .calendarStamp q ∧ r = reqAt q 0x1180 1) →
    s.grants r row k v → row.access = .rw ∨ row.access = .wo → row.cls = .p → row.min ≤ v → v ≤ row.max →
    s.work.valueRefused r.origin k v = none → (∀ p ∈ s.dev.dict.persist, p.key ≠ k) →
    ∃ t, exec c s = .next t ∧ t.dev.dict.persist = s.dev.dict.persist ++ [⟨seen 2 r, 2, k, v, [], false⟩] ∧ s.frame t [.dict] (fun _ => False)) ∧
  ∀ (s : State) (p : PersistWrite) (rest : List PersistWrite) (stored : Bool) (row : Row), s.dev.dict.persist = p :: rest →
    p.key ≠ Obj.faultLog → p.key ≠ Obj.calendarStamp → findRow p.key.index p.key.sub = some row → row.ty ≠ .domain → p.dead = false → ¬ answerKey p.key →
    p.key ≠ Obj.requestsRefused → p.key ≠ Obj.deviceId → p.key.tenant = 0 →
    ∃ t, exec (.classPWriteDurable p.key.index p.key.sub stored) s = .next t ∧ t.dev.dict.persist = rest ∧
      t.val p.key = (if stored then p.value else s.val p.key) ∧
      s.answer p.opcode p.req (if stored then 0 else 0x0E) 0 [] ∈ t.out.drop s.out.length ∧
      s.frame t [.dict, .links] (fun x => x = p.key ∨ answerKey x ∨ x = Obj.requestsRefused)

/-- A range claimed by one path refuses the writes of the others with OWNED and the claimant's path code; RESTORE_DEFAULTS at a worker whose
links are all enabled returns what its argument picks to its defaults and leaves every other object. CMD_ABORT of SCRUB_NOW or SWEEP_NOW while it runs ends it as ABORTED; of a CMD that does not run it is refused with RANGE and changes
nothing. (When the abort ends a pass, and RESTORE_DEFAULTS of class P, are the model's choices, assumption logs 66 and 73.) -/
def Obligations.ClaimsDefaultsAndAborts : Prop :=
  ((∀ (s : State) (r : Req) (row : Row) (k : Key) (c : Nat), s.takes 2 r → s.work.lookup (seen 2 r) = some (row, k) → row.access ≠ .ro → row.ty ≠ .domain →
     s.work.roleAllows r.origin row.cls row.index = true → s.work.claimedBy r.origin row.index = some c →
     ∃ t, exec (.write r) s = .next t ∧ s.refusedWith t 2 r 6 c ∧
       s.frame t [.dict, .links] (fun x => answerKey x ∨ x = Obj.requestsRefused)) ∧
   ∀ (s : State) (r : Req) (arg : Nat), s.startsAt r Obj.restoreDefaults arg → s.val Obj.role = 3 → (∀ l, l < 16 → s.val (Obj.linkEnable l) = 1) →
     ∃ t, exec (.restoreDefaults r) s = .next t ∧ s.commanded t r Obj.restoreDefaults [.doms, .rel] (fun x => s.work.restores r.origin arg x = true) ∧
       ∀ x, s.work.restores r.origin arg x = true → ¬ answerKey x → t.val x = defaultOf x) ∧
  (∀ (s : State) (r q : Req) (row : Row) (k : Key), q = { r with payload := List.replicate (typeSize row.ty) 0xFF } → findRow r.index r.sub = some row →
     s.grants q row k (2 ^ typeBits row.ty - 1) → row.access = .cmd →
     (s.work.cmdBusy k = true → k = Obj.scrubNow ∨ k = Obj.sweepNow →
       ∃ t, exec (.cmdAbort r) s = .next t ∧ s.accepted t 2 (seen 2 q) ∧ t.cmdStateOf k = 5 ∧
         s.frame t [.dict, .links, .rel] (fun x => x = k ∨ answerKey x)) ∧
     (s.work.cmdBusy k = false →
       ∃ t, exec (.cmdAbort r) s = .next t ∧ s.refusedWith t 2 q 4 0 ∧
         s.frame t [.dict, .links] (fun x => answerKey x ∨ x = Obj.requestsRefused)))

/-- Sessions: one that opens has a handle of its own and, for reading, the value as it is then; SEG_READ answers from that value, SEG_WRITE adds
to what has been received in order, SEG_ABORT and SESSION_IDLE_EXPIRY end it; one that names an object other than a DOMAIN the caller sees
is refused. (The order of the checks is assumption log 63, and what INDEX and SUB name log 125.) -/
def Obligations.SessionsCarryDomains : Prop :=
  (∀ (s : State) (r : Req) (row : Row) (k : Key) (b : List Byte), s.takes 0x10 r → s.work.lookup (seen 0x10 r) = some (row, k) → row.ty = .domain →
    row.access ≠ .wo → s.work.readState r.index = none → r.payload = [] → s.work.readDomain r.origin k = .ok b → s.work.resting k.index = false →
    s.work.sessionFree r.origin.path = true →
    ∃ t h, exec (.segOpenRead r) s = .next t ∧ 1 ≤ h ∧ h ≤ 65535 ∧ (∀ x ∈ s.dev.dict.sessions, x.handle ≠ h) ∧
      t.dev.dict.sessions = s.dev.dict.sessions ++ [⟨h, r.origin, false, k, b.length, b, (s.work.dom k).gen⟩] ∧
      s.answer 0x10 (seen 0x10 r) 0 h (toLE 4 b.length) ∈ t.out.drop s.out.length ∧ s.frame t [.dict, .links] answerKey) ∧
  (∀ (s : State) (r : Req) (row : Row) (k : Key), s.takes 0x11 r → s.work.lookup (seen 0x11 r) = some (row, k) → row.ty = .domain → row.access ≠ .ro →
    s.work.writeRefused r.origin row = none → r.payload = [] → (∀ x ∈ s.dev.dict.sessions, x.write = true → x.key ≠ k) →
    s.work.sessionFree r.origin.path = true →
    ∃ t h, exec (.segOpenWrite r) s = .next t ∧ (∀ x ∈ s.dev.dict.sessions, x.handle ≠ h) ∧
      t.dev.dict.sessions = s.dev.dict.sessions ++ [⟨h, r.origin, true, k, r.arg, [], 0⟩] ∧
      s.answer 0x11 (seen 0x11 r) 0 h [] ∈ t.out.drop s.out.length ∧ s.frame t [.dict, .links] answerKey) ∧
  (∀ (s : State) (r : Req) (x : Session), s.takes 0x12 r → s.work.sessionRefused r = none → s.work.sessionOf r = some x → x.write = false → (s.work.dom x.key).gen = x.gen →
    s.work.readState x.key.index = none → r.payload = [] → r.arg ≤ x.data.length →
    ∃ t, exec (.segRead r) s = .next t ∧ s.answer 0x12 r 0 0 (slice x.data r.arg (maxSegment r.origin.path)) ∈ t.out.drop s.out.length ∧
      s.frame t [.dict, .links] answerKey) ∧
  (∀ (s : State) (r : Req) (x : Session), s.takes 0x13 r → s.work.sessionRefused r = none → s.work.sessionOf r = some x → x.write = true → r.arg = x.data.length →
    r.payload.length ≤ maxSegment r.origin.path → x.data.length + r.payload.length ≤ x.declared →
    ∃ t, exec (.segWrite r) s = .next t ∧ s.accepted t 0x13 r ∧
      t.dev.dict.sessions = s.dev.dict.sessions.map (fun y => if y.handle = x.handle then { y with data := y.data ++ r.payload } else y) ∧
      s.frame t [.dict, .links] answerKey) ∧
  (∀ (s : State) (r : Req) (op : Nat) (c : Instr) (x : Nat × Nat), (op = 0x12 ∧ c = .segRead r) ∨ (op = 0x13 ∧ c = .segWrite r) ∨
      (op = 0x14 ∧ c = .segCommit r) ∨ (op = 0x15 ∧ c = .segAbort r) → s.takes op r → s.work.sessionRefused r = some x →
    ∃ t, exec c s = .next t ∧ s.answer op r x.1 x.2 [] ∈ t.out.drop s.out.length ∧
      s.frame t [.dict, .links] (fun k => answerKey k ∨ k = Obj.requestsRefused)) ∧
  (∀ (s : State) (r : Req) (x : Session), s.takes 0x15 r → s.work.sessionRefused r = none → s.work.sessionOf r = some x → r.payload = [] →
    ∃ t, exec (.segAbort r) s = .next t ∧ s.accepted t 0x15 r ∧ (∀ y ∈ t.dev.dict.sessions, y.handle ≠ x.handle) ∧
      s.frame t [.dict, .links] answerKey) ∧
  ∀ (s : State) (h : Nat), ∃ t, exec (.sessionIdleExpiry h) s = .next t ∧
    t.dev.dict.sessions = s.dev.dict.sessions.filter (fun y => decide (y.handle ≠ h)) ∧ s.frame t [.dict] (fun _ => False)

/-- A row that commits a session: SEG_COMMIT itself, or the commit of one object. -/
def commitRow (c : Instr) (r : Req) : Prop :=
  c = .segCommit r ∨ c = .grammarImage r ∨ c = .globalGrammarImage r ∨ c = .sequence r ∨ c = .firmwareImage r ∨ c = .ownerKeys r ∨ c = .ownerUnlock r ∨
    c = .windowEdit r

/-- A commit of a whole value that its owner refuses ends the session with COMMIT_FAILED and the old value stands; a valid value replaces the old
one and has its effect: a SEQUENCE waits for the round, a FIRMWARE_IMAGE fills the inactive bank, OWNER_UNLOCK clears the lock, OWNER_KEYS waits
for the store. -/
def Obligations.CommitsReplaceWholeValues : Prop :=
  ∀ (s : State) (c : Instr) (r : Req) (x : Session) (row : Row), commitRow c r → s.takes 0x14 r → s.work.sessionRefused r = none →
    s.work.sessionOf r = some x → x.write = true →
    r.payload = [] → findRow x.key.index x.key.sub = some row → s.work.writeRefused r.origin row = none →
    (∀ d, x.declared ≤ x.data.length → s.work.commitRefused r.origin x.key x.data = some d →
      ∃ t, exec c s = .next t ∧ s.answer 0x14 r 0x0D d [] ∈ t.out.drop s.out.length ∧ (∀ y ∈ t.dev.dict.sessions, y.handle ≠ x.handle) ∧
        s.frame t [.dict, .links] (fun k => answerKey k ∨ k = Obj.requestsRefused ∨ k = Obj.signatureFailures)) ∧
    (x.data.length < x.declared →
      ∃ t, exec c s = .next t ∧ s.answer 0x14 r 0x0D 1 [] ∈ t.out.drop s.out.length ∧
        s.frame t [.dict, .links] (fun k => answerKey k ∨ k = Obj.requestsRefused ∨ k = Obj.signatureFailures)) ∧
    (x.declared ≤ x.data.length → s.work.commitRefused r.origin x.key x.data = none → row.cls ≠ .p → x.key ≠ Obj.ownerUnlock →
      s.work.resting x.key.index = false →
      ∃ t, exec c s = .next t ∧ s.accepted t 0x14 r ∧ t.domBytes x.key = x.data ∧ (∀ y ∈ t.dev.dict.sessions, y.handle ≠ x.handle) ∧
        (∀ h cfgs, h < 2 → x.key.index = 0x3811 → x.key.sub = h + 1 → hkValidate (s.val (Obj.roundUs h)) s.dev.dram.off x.data = .ok cfgs →
          (t.work.hkHalf h).committed = some cfgs ∧ (t.work.hkHalf h).entries = (s.work.hkHalf h).entries)) ∧
    (x.declared ≤ x.data.length → x.key = Obj.firmwareImage →
      ∃ t, exec c s = .next t ∧ t.dev.boot.banks = (if s.work.commitRefused r.origin x.key x.data = none then
        s.dev.boot.banks.set (1 - s.dev.boot.active) ⟨some x.data, Config.imageVersion x.data, Config.imageSvn x.data⟩ else s.dev.boot.banks)) ∧
    (x.declared ≤ x.data.length → x.key = Obj.ownerUnlock →
      ∃ t, exec c s = .next t ∧
        if s.work.commitRefused r.origin x.key x.data = none then s.accepted t 0x14 r ∧ t.val Obj.keyLock = 0
        else t.val Obj.keyLock = s.val Obj.keyLock) ∧
    (x.declared ≤ x.data.length → s.work.commitRefused r.origin x.key x.data = none → row.cls = .p → (∀ p ∈ s.dev.dict.persist, p.key ≠ x.key) →
      ∃ t, exec c s = .next t ∧ t.dev.dict.persist = s.dev.dict.persist ++ [⟨r, 0x14, x.key, 0, x.data, false⟩] ∧ s.frame t [.dict] (fun _ => False))

/-- GO on a function's idle window starts the request its header spells: while the device boots it waits and the window is busy, and a READ that
the dictionary takes is answered in the window, which is then done. DONE_CLEAR clears DONE; ABANDON frees a parked window and leaves any
other. -/
def Obligations.WindowsCarryOneRequest : Prop :=
  ∀ (s : State) (w : FnWin), winOk w = true →
    (∀ ctrl hdr payload op q, s.work.reaches (FnWinOrigin w) = true → (s.work.window w).busy = false → (s.work.window w).parked = false → bitAt ctrl 0 = true →
      reqOf (FnWinOrigin w) ((hdr ++ List.replicate 16 0).take 16) (payload.take 4096) = (op, q) →
      (s.dev.boot.stage < 4 → ∃ t, exec (.go w ctrl hdr payload) s = .next t ∧ t.dev.dict.held = s.dev.dict.held ++ [(op, q)] ∧
        (t.work.window w).busy = true ∧ (t.work.window w).done = false ∧ s.frame t [.dict] (fun _ => False)) ∧
      (∀ row k, op = 1 → s.takes 1 q → s.work.lookup (seen 1 q) = some (row, k) → row.access ≠ .wo → row.ty ≠ .domain → s.work.readState q.index = none →
        q.payload = [] → islandServes s q →
        ∃ t, exec (.go w ctrl hdr payload) s = .next t ∧ (t.work.window w).busy = false ∧ (t.work.window w).done = true ∧
          (t.work.window w).payload.take (s.work.readValue q.origin row k).length = s.work.readValue q.origin row k ∧
          s.answer 1 (seen 1 q) 0 0 (s.work.readValue q.origin row k) ∈ t.out.drop s.out.length ∧ s.frame t [.dict] (fun x => x = Obj.requestsServed))) ∧
    (∃ t, exec (.doneClear w) s = .next t ∧ (t.work.window w).done = false ∧ s.frame t [.dict] (fun _ => False)) ∧
    ((s.work.window w).parked = true → ∃ t, exec (.abandon w) s = .next t ∧ (t.work.window w).busy = false ∧ (t.work.window w).parked = false ∧
      (∀ p ∈ t.dev.dict.parked, p.req.origin = FnWinOrigin w → p.opcode ≠ 1 ∧ p.dead = true) ∧ s.frame t [.dict] (fun _ => False)) ∧
    ((s.work.window w).parked = false → ∃ t, exec (.abandon w) s = .next t ∧ s.frame t [] (fun _ => False))

/-! ## 01: the networks on the die -/

/-- A bulk-mesh transfer whose islands all run is counted on one plane, in each direction of the seam it crosses and with its poisoned
flits; one that meets a stopped island waits. Nothing else changes. A Selvedge message is delivered whatever its latency, and its source
holds its credit until then, so that a third of its class waits; SELVEDGE_MAX keeps the largest, and a message past the bound in force (40 ns,
60 ns while a half's routers are divided) is counted and logged as a contained fault. -/
def Obligations.NetworksCarryTransfersAndMessages : Prop :=
  (∀ (s : State) (m : MeshTransfer), endExists s.ident m.src = true → endExists s.ident m.dst = true →
     ∃ t, exec (.bulkMeshTransfer m) s = .next t ∧
       if s.work.canCarry m then
         (∃ p, p < 8 ∧ s.counted t (Obj.meshPlaneBytes p) m.bytes ∧
           s.frame t [] (fun k => k = Obj.meshPlaneBytes p ∨ k = Obj.meshPoisonFlits ∨ k = Obj.seamBytesWe ∨ k = Obj.seamBytesEw)) ∧
         s.counted t Obj.meshPoisonFlits m.poisonFlits ∧
         s.counted t Obj.seamBytesWe (if (meshStop m.src).2 < 8 ∧ 8 ≤ (meshStop m.dst).2 then m.bytes else 0) ∧
         s.counted t Obj.seamBytesEw (if 8 ≤ (meshStop m.src).2 ∧ (meshStop m.dst).2 < 8 then m.bytes else 0)
       else t.dev.net.waiting = s.dev.net.waiting ++ [m] ∧ s.frame t [.net] (fun _ => False)) ∧
  (∀ (s : State) (m : SelvedgeMsg), m.src < 64 → m.dst.getD 0 < 64 →
     ∃ t, exec (.selvedgeMessage m) s = .next t ∧ Output.selvedge m ∈ t.out.drop s.out.length ∧
       t.val Obj.selvedgeMax = max (s.val Obj.selvedgeMax) (objValue Obj.selvedgeMax m.latencyNs) ∧
       (∃ f ∈ t.dev.net.flights, f.src = m.src ∧ f.cls = m.cls ∧ m.atNs + m.latencyNs ≤ f.untilNs ∧
         ((s.dev.net.flights.filter (fun g => decide (g.src = m.src) && decide (g.cls = m.cls) && decide (m.atNs < g.untilNs))).length < 2 →
           f.untilNs = m.atNs + m.latencyNs)) ∧
       (let bound := if (s.work.domain 0).divided || (s.work.domain 1).divided then 60 else 40
        if m.latencyNs ≤ bound then s.frame t [.net] (fun k => k = Obj.selvedgeMax)
        else s.counted t Obj.selvedgeOverruns 1 ∧
          (∃ x, t.dev.rel.pendingLog = s.dev.rel.pendingLog ++ [x] ∧ x.code = 0x004C ∧ x.severity = 2) ∧
          s.frame t [.net, .rel, .links] (fun k => k = Obj.selvedgeMax ∨ k = Obj.selvedgeOverruns ∨ linkCounter k)))

/-! ## 17: power and heat -/

/-- POWER_SAMPLE: the last 100 samples are kept, V and I are taken, PEAK_INPUT_MW keeps the largest; a sample past POWER_BOUND_W by more
than the programming draw raises the governor to 4 at once, and any sample past the bound is a peak event. -/
def Obligations.PowerSampleFeedsTheGovernor : Prop :=
  ∀ (s : State) (mw mv ma : Nat),
    ∃ t, exec (.powerSample mw mv ma) s = .next t ∧
      t.dev.power.samples = (mw :: s.dev.power.samples).take 100 ∧ t.dev.power.vinMv = mv ∧ t.dev.power.vinMa = ma ∧
      t.dev.power.energy = s.dev.power.energy + mw ∧ t.val Obj.peakInputMw = max (s.val Obj.peakInputMw) (objValue Obj.peakInputMw mw) ∧
      (let bound := 1000 * s.val Obj.powerBoundW
       (bound < mw → s.counted t Obj.peakEvents 1) ∧ (mw ≤ bound → t.val Obj.peakEvents = s.val Obj.peakEvents) ∧
       (t.val Obj.governorSkip = if bound + s.work.programDraw < mw then max 4 (s.val Obj.governorSkip) else s.val Obj.governorSkip) ∧
       (bound < mw → mw ≤ bound + s.work.programDraw → t.dev.power.withhold = true)) ∧
      s.frame t [.power] (fun k => k = Obj.peakInputMw ∨ k = Obj.peakEvents ∨ k = Obj.governorSkip)

/-- GOVERNOR_DECISION: over the cap, and over it by more than the programming draw, g rises by one, up to 7; 25 W under the cap with ten
decisions since the last change it falls by one; at 7 and still over, CAP_UNREACHED counts; otherwise g stands. -/
def Obligations.GovernorDecidesEveryMillisecond : Prop :=
  ∀ s : State,
    ∃ t, exec .governorDecision s = .next t ∧
      (let cap : Rat := ((1000 * s.val Obj.powerCapW : Nat) : Rat)
       let mean := s.work.meanPower
       let draw : Rat := (s.work.programDraw : Rat)
       let g := s.val Obj.governorSkip
       let since := s.dev.power.sinceChange + 1
       let high := cap < mean ∧ cap + draw < mean
       (high → g < 7 → t.val Obj.governorSkip = g + 1 ∧ t.dev.power.sinceChange = 0) ∧
       (high → 7 ≤ g → t.val Obj.governorSkip = g ∧ s.counted t Obj.capUnreached 1) ∧
       (¬ high → mean + 25000 < cap + draw ∧ 10 ≤ since ∧ 0 < g → t.val Obj.governorSkip = g - 1 ∧ t.dev.power.sinceChange = 0) ∧
       (¬ high → ¬ (mean + 25000 < cap + draw ∧ 10 ≤ since ∧ 0 < g) → t.val Obj.governorSkip = g ∧ t.dev.power.sinceChange = since) ∧
       (0 < g → s.counted t Obj.capLimitedMs 1)) ∧
      (∀ d, d < 4 → (t.work.domain d).ms = min ((s.work.domain d).ms + 1) 65535 ∧ (t.work.domain d).state = (s.work.domain d).state ∧
        (t.work.domain d).skip = (s.work.domain d).skip ∧ (t.work.domain d).divided = (s.work.domain d).divided) ∧
      s.frame t [.power] (fun k => k = Obj.governorSkip ∨ k = Obj.capLimitedMs ∨ k = Obj.capUnreached ∨ ∃ d, d < 4 ∧ k = Obj.enforcedMs d)

/-- R513. The skip level that ISLAND_STATUS tells of a running island: on an engine or core island the larger of the governor's and its half's,
on any other island none. -/
def Obligations.SkippingIsTheLargerLevel : Prop :=
  ∀ (s : State) (i : Nat), islandPresent s.ident i = true → s.work.islandCond i = .running → s.val Obj.governorSkip < 8 →
    (s.work.domain (islandHalf i)).skip < 8 →
    field (s.work.islandStatus i) 10 8 = (if islandKind i ≤ 1 then max (s.val Obj.governorSkip) (s.work.domain (islandHalf i)).skip else 0)

/-- What installing a thermal domain may change: the domain, the seam rate that follows division, its event, and a worker's report. -/
def thermalKeys (d : Nat) (k : Key) : Prop :=
  k = Obj.selvedgeBound ∨ k = Obj.seamRate ∨ k = Obj.seamRateChanges ∨ k = Obj.divisions d ∨ k = Obj.throttleEntries d ∨
    k = Obj.domainTempMax d ∨ k = Obj.tjMaxEver ∨ k = Obj.attention 0 ∨ k = Obj.attention 1 ∨ linkCounter k

/-- THERMAL_CROSSING at or above 105 °C takes a domain in NORMAL or WARNING to REQUEST and counts the entry; at or below 100 °C a domain
in REQUEST leaves the ladder; from NORMAL a warning temperature takes it to WARNING. The skip level is not raised here. A diode at 118 °C or
above shuts the device down. -/
def Obligations.ThermalCrossingMovesTheLadder : Prop :=
  ∀ (s : State) (d : Nat) (temp : Int) (byStack : Bool), d < 4 → (byStack = true → d < 2) →
    (byStack = false → 118 * 16 ≤ temp →
      ∃ t, exec (.thermalCrossing d temp byStack) s = .next t ∧ t.dev.power.shutdownLatched = true ∧ t.work.thermtripLow = true ∧
        (t.work.domain d).state = .shutdown ∧ (t.work.domain d).temp = temp) ∧
    (byStack = true ∨ temp < 118 * 16 → ∃ t, exec (.thermalCrossing d temp byStack) s = .next t ∧
      (let x := s.work.domain d
       let seen := if byStack then { x with stackTemp := temp } else { x with temp := temp, stale := false }
       let y := t.work.domain d
       y.temp = seen.temp ∧ y.stackTemp = seen.stackTemp ∧
       (x.state = .normal ∨ x.state = .warning → seen.hot = true → y.state = .request ∧ s.counted t (Obj.throttleEntries d) 1) ∧
       (x.state = .normal → seen.hot = false → seen.warm = true → y.state = .warning) ∧
       (x.state = .request → seen.cool = true → y.state = .normal ∨ y.state = .warning) ∧
       (x.state ≠ .skipping → x.state ≠ .divided → y.skip = x.skip)) ∧
      s.frame t [.power, .rel, .links] (thermalKeys d))

/-- GRACE_EXPIRY: a domain still above 100 °C in REQUEST is enforced: a half begins to skip one eighth of its cycles, an edge router's
clock is divided. A domain that is not leaves everything as it was. SKIP_STEP_TICK raises a half's skip level by one, up to 7, while it is at or above 105 °C, and lowers it
by one once it has fallen to 100 °C; DIVIDE_AFTER_EXPIRY divides the clocks of a half that is at or above 105 °C on the ladder.
THROTTLE_STATE_CHANGE at the manager: a worker's report joins or leaves the workers at REQUEST or beyond; elsewhere it has no effect. -/
def Obligations.ThermalLadderIsEnforced : Prop :=
  (∀ (s : State) (d : Nat), d < 4 →
     ∃ t, exec (.graceExpiry d) s = .next t ∧
       (let x := s.work.domain d
        let y := t.work.domain d
        if x.state = .request ∧ x.cool = false then
          (if d < 2 then y.state = .skipping ∧ y.skip = 1 ∧ y.divided = x.divided
           else y.state = .divided ∧ y.divided = true ∧ s.counted t (Obj.divisions d) 1) ∧
          s.frame t [.power, .rel, .links] (thermalKeys d)
        else s.frame t [] (fun _ => False))) ∧
  (∀ (s : State) (d : Nat), d < 2 →
     (∃ t, exec (.skipStepTick d) s = .next t ∧
       (let x := s.work.domain d
        let y := t.work.domain d
        (x.lowering = false → x.state = .skipping ∨ x.state = .divided → x.hot = true → y.skip = min (x.skip + 1) 7) ∧
        (x.lowering = true → x.cool = true → y.skip = x.skip - 1) ∧
        (x.hot = false → x.lowering = false → y = x)) ∧
       s.frame t [.power, .rel, .links] (thermalKeys d)) ∧
     (∃ t, exec (.divideAfterExpiry d) s = .next t ∧
       (let x := s.work.domain d
        let y := t.work.domain d
        (x.requesting = true → x.state ≠ .shutdown → x.hot = true → y.divided = true) ∧
        (x.requesting = true → x.state ≠ .shutdown → y.divideDue = true) ∧
        (x.requesting = false → y = x)) ∧
       s.frame t [.power, .rel, .links] (thermalKeys d))) ∧
  ∀ (s : State) (w : Nat) (on : Bool),
    ∃ t, exec (.throttleStateChange w on) s = .next t ∧
      (s.val Obj.role = 1 → (w ∈ t.dev.group.throttled ↔ on = true) ∧
        ∀ x, x ≠ w → (x ∈ t.dev.group.throttled ↔ x ∈ s.dev.group.throttled)) ∧
      (s.val Obj.role ≠ 1 → s.frame t [] (fun _ => False)) ∧ s.frame t [.group] (fun _ => False)

/-! ## 18: the housekeeping monitor -/

/-- HK_ROUND on a running half with no conversion of its round left counts the round it completes (and an overrun when the next starts late),
takes a committed SEQUENCE and an exchange of slices that waited, and starts every entry's conversions again; otherwise it has no effect.
HK_CONVERSION of the entry that is due adds its code to the accumulator; the conversion that fills it publishes the mean, raises the
publication count and clears the accumulator. (A mean that is not whole is published as one of its two neighbours, assumption log 11.) A
conversion that is not due has no effect. -/
def Obligations.HousekeepingRoundsConvertAndPublish : Prop :=
  (∀ (s : State) (h : Nat) (late : Bool), h < 2 →
     ∃ t, exec (.hkRound h late) s = .next t ∧
       (let x := s.work.hkHalf h
        let y := t.work.hkHalf h
        if x.running = true ∧ x.midRound s.dev.dram.off = false then
          (if x.inRound = true then s.counted t (Obj.rounds h) 1 else t.val (Obj.rounds h) = s.val (Obj.rounds h)) ∧
          s.counted t (Obj.roundOverruns h) (if late then 1 else 0) ∧ y.committed = none ∧ y.swap = none ∧ y.inRound = true ∧
          (∀ e ∈ y.entries, e.done = 0) ∧
          (if x.swap.isSome = true then y.serving = 1 - x.serving ∧ s.counted t (Obj.calSwaps h) 1
           else y.serving = x.serving ∧ s.frame t [.hk] (fun k => k = Obj.rounds h ∨ k = Obj.roundOverruns h))
        else s.frame t [] (fun _ => False)) ∧
       s.frame t [.hk, .power] (fun k => k = Obj.rounds h ∨ k = Obj.roundOverruns h ∨ k = Obj.calSwaps h ∨ k = Obj.domainTempMax h ∨
         k = Obj.domainTempMax (h + 2) ∨ k = Obj.tjMaxEver)) ∧
  (∀ (s : State) (h i : Nat) (v : Int), h < 2 → i < 16 →
     ∃ t, exec (.hkConversion h i v) s = .next t ∧
       (if (s.work.hkHalf h).running = true ∧ (s.work.hkHalf h).inRound = true ∧ (s.work.hkHalf h).due s.dev.dram.off = some i then
          ∃ a b, (s.work.hkHalf h).entries[i]? = some a ∧ (t.work.hkHalf h).entries[i]? = some b ∧ b.cfg = a.cfg ∧ b.done = a.done + 1 ∧
            (if a.count + 1 = 2 ^ a.cfg.accLog2 then
               b.sum = 0 ∧ b.count = 0 ∧ b.valid = true ∧ b.stale = false ∧ b.publishes = (a.publishes + 1) % 65536 ∧
               ((a.sum + v) % (2 ^ a.cfg.accLog2 : Nat) = 0 → b.value = (a.sum + v) / (2 ^ a.cfg.accLog2 : Nat)) ∧
               (b.value = (a.sum + v) / (2 ^ a.cfg.accLog2 : Nat) ∨ b.value = (a.sum + v) / (2 ^ a.cfg.accLog2 : Nat) + 1)
             else b.sum = a.sum + v ∧ b.count = a.count + 1 ∧ b.value = a.value ∧ b.publishes = a.publishes)
        else s.frame t [] (fun _ => False)) ∧
       s.frame t [.hk, .power, .life] (fun k => k = Obj.domainTempMax h ∨ k = Obj.domainTempMax (h + 2) ∨ k = Obj.tjMaxEver))

/-- URGENT_CONVERSION joins the half's queue; URGENT_RESULT serves the oldest request and counts it. CAL_SWAP with a fit within 32 LSB and 20,000 ppm hands the serving to the other slice and counts the swap, at once between rounds and else
at the round's end; outside it, the fitted
slice has failed, the swap does not happen, and the failure is counted. -/
def Obligations.UrgentConversionsAndCalibrationSwaps : Prop :=
  (∀ (s : State) (h : Nat), h < 2 → (s.work.hkHalf h).running = true →
     (∀ ch sm g ns, ch < 38 → ∃ t, exec (.urgentConversion h ch sm g ns) s = .next t ∧
       (t.work.hkHalf h).urgent = (s.work.hkHalf h).urgent ++ [⟨ch, sm, g, ns⟩] ∧
       (t.work.hkHalf h).entries = (s.work.hkHalf h).entries ∧ s.frame t [.hk] (fun _ => False)) ∧
     (∀ v ns u rest, (s.work.hkHalf h).urgent = u :: rest → ∃ t, exec (.urgentResult h v ns) s = .next t ∧
       (t.work.hkHalf h).urgent = rest ∧ (t.work.hkHalf h).entries = (s.work.hkHalf h).entries ∧
       s.counted t (Obj.urgentConversions h) 1 ∧ s.frame t [.hk] (fun k => k = Obj.urgentConversions h ∨ k = Obj.urgentMaxNs h))) ∧
  (∀ (s : State) (h : Nat) (off gain : Int), h < 2 → (s.work.hkHalf h).running = true → (s.work.hkHalf h).failed = none →
     ∃ t, exec (.calSwap h off gain) s = .next t ∧
       (if off.natAbs ≤ 32 ∧ gain.natAbs ≤ 20000 then
         if (s.work.hkHalf h).midRound s.dev.dram.off = true then
          (t.work.hkHalf h).swap = some (off, gain) ∧ (t.work.hkHalf h).serving = (s.work.hkHalf h).serving ∧ s.frame t [.hk] (fun _ => False)
         else
          (t.work.hkHalf h).serving = 1 - (s.work.hkHalf h).serving ∧ (t.work.hkHalf h).failed = none ∧ s.counted t (Obj.calSwaps h) 1 ∧
          ∀ e ∈ (t.work.hkHalf h).entries, e.sum = 0 ∧ e.count = 0 ∧ e.stale = e.valid
        else
          (t.work.hkHalf h).failed = some (1 - (s.work.hkHalf h).serving) ∧ (t.work.hkHalf h).serving = (s.work.hkHalf h).serving ∧
          s.counted t (Obj.calFailures h) 1) ∧
       s.frame t [.hk, .power] (fun k => k = Obj.calSwaps h ∨ k = Obj.calFailures h ∨ k = Obj.domainTempMax h ∨
         k = Obj.domainTempMax (h + 2) ∨ k = Obj.tjMaxEver))

/-! ## 15: the memory stacks -/

/-- SCRUB_READ while scrub runs. What is read of the codeword is decoded (R470): nothing wrong changes no memory; symbols in error are
corrected and counted, one alone with every byte as it was; a poison marker changes no memory; anything worse stores the codeword poisoned,
counts and logs it. No byte that reads as it stands changes, and no other codeword. In an island that is stopped nothing happens. (The order of
a codeword's symbols is assumption log 147, and a read of poison that is logged already log 13.) -/
def Obligations.ScrubCorrectsOrPoisons : Prop :=
  ∀ (s : State) (stack a : Nat) (syn : List Byte) (last : Bool) (pm : Nat), stack < 12 → addrValid a = true → addrStack a = stack →
    syn.length = 36 → s.mem.wf = true → s.dev.dram.off = false → s.dev.dram.selfRefresh = false →
    s.val Obj.scrubEnable ≠ 0 ∨ s.work.cmdBusy Obj.scrubNow = true →
    s.dev.dram.regionOf a ≠ 1 → ¬ (s.dev.dram.regionOf a = 3 ∧ s.work.isManager = true) →
    (s.work.islandOpen (0x88 + stack) = false → ∃ t, exec (.scrubRead stack a syn last pm) s = .next t ∧ s.frame t [] (fun _ => False)) ∧
    (s.work.islandOpen (0x88 + stack) = true → ∃ t, exec (.scrubRead stack a syn last pm) s = .next t ∧
      (let c := a / 32
       let flips := syn.map BitVec.toNat
       (match decodeFlips flips (s.poisonedAt c) with
        | .clean => t.mem = s.mem ∧ t.val Obj.correctedSymbols = s.val Obj.correctedSymbols
        | .corrected fixes => s.counted t Obj.correctedSymbols fixes.length ∧ s.counted t Obj.correctedCodewords 1 ∧ t.poisonedAt c = false ∧
          ∀ i, i < 32 → (leftOver flips fixes).getD i 0 = 0 → t.byteAt (32 * c + i) = s.byteAt (32 * c + i)
        | .poisoned => t.mem = s.mem ∧ t.val Obj.correctedSymbols = s.val Obj.correctedSymbols ∧
          (s.dev.dram.loggedPoison.contains c = false → s.counted t Obj.poisonReads 1)
        | .uncorrectable => t.poisonedAt c = true ∧ s.counted t Obj.uncorrectable 1 ∧
          (∃ x, t.dev.rel.pendingLog = s.dev.rel.pendingLog ++ [x] ∧ x.code = 0x0044) ∧
          ∀ i, i < 32 → flips.getD i 0 = 0 → t.byteAt (32 * c + i) = s.byteAt (32 * c + i)) ∧
       (∀ i, i < 36 → s.poisonedAt c = false → (∀ j, j ≠ i → flips.getD j 0 = 0) → flips.getD i 0 ≠ 0 →
         (∀ b, t.byteAt b = s.byteAt b) ∧ s.counted t Obj.correctedSymbols 1 ∧ s.counted t Obj.correctedCodewords 1) ∧
       (∀ b, b / 32 ≠ c → t.byteAt b = s.byteAt b) ∧ (∀ d, d ≠ c → t.poisonedAt d = s.poisonedAt d)) ∧
      (last = false → t.val Obj.scrubProgress = min pm 1000) ∧
      s.frame t [.mem, .dram, .rel, .links] (fun k => k = Obj.scrubNow ∨ k = Obj.scrubProgress ∨ k = Obj.scrubPasses ∨
        k = Obj.correctedSymbols ∨ k = Obj.correctedCodewords ∨ k = Obj.uncorrectable ∨ k = Obj.poisonWrites ∨ k = Obj.poisonReads ∨ linkCounter k))

/-- R475. REFRESH_BAND_CHANGE sets a stack's refresh rate from its temperature: 4 from 95 °C, 2 from 85 °C, 1 below; a band once entered is
left 3 °C below its lower bound. In self-refresh the stack follows its own sensor, and the rate here stands. -/
def Obligations.RefreshRateFollowsTheBand : Prop :=
  ∀ (s : State) (stack : Nat), stack < 12 →
    ∃ t, exec (.refreshBandChange stack) s = .next t ∧
      (let temp := s.work.stackTemp16 stack
       let rate := s.val (Obj.refreshRate stack)
       let after := t.val (Obj.refreshRate stack)
       if s.dev.dram.off = true ∨ s.dev.dram.selfRefresh = true then s.frame t [] (fun _ => False)
       else
        (95 * 16 ≤ temp → after = 4) ∧ (rate ≠ 4 → 85 * 16 ≤ temp → temp < 95 * 16 → after = 2) ∧ (rate < 2 → temp < 85 * 16 → after = 1) ∧
        (rate = 4 → 92 * 16 < temp → after = 4) ∧ (rate = 4 → 82 * 16 < temp → temp < 92 * 16 → after = 2) ∧
        (2 ≤ rate → 82 * 16 < temp → temp < 85 * 16 → after = 2) ∧ (temp < 82 * 16 → after = 1)) ∧
      s.frame t [] (fun k => k = Obj.refreshRate stack)

/-! ## 14: DMA -/

/-- A channel runs: its owner's host port island is neither gated nor stopped, or it is firmware's (R20, R443). -/
def channelRuns (s : State) (c : Nat) : Prop :=
  s.work.dmaOwner c < 0x402 → s.work.islandOpen (0xA8 + ownerPort (s.work.dmaOwner c)) = true

/-- DMA_SLOT_START of a slot that has not begun: a window side that no window of the owner holds whole ends it FAILED with DMA_WINDOW
(0x90), overlapping sides with DMA_OVERLAP (0x93), L3 or L4 with POWER_STATE (0x94); otherwise the transfer begins. No byte of memory changes. -/
def Obligations.DmaStartChecksWindowsOverlapAndPower : Prop :=
  ∀ (s : State) (c slot : Nat) (d : DmaDesc) (host : List Byte) (bad : List Nat), c < 32 → channelRuns s c →
    (s.work.dmaChan c).running = some (slot, d) → (s.work.dmaChan c).started = false → (s.work.dmaChan c).queued = none →
    ∃ t, exec (.dmaSlotStart c host bad) s = .next t ∧
      (let owner := s.work.dmaOwner c
       let key := dmaGoKey c slot
       let unmapped := (d.dir ≠ 0 ∧ s.work.windowSpan owner d.src (d.span true) = none) ∨
         (d.dir ≠ 1 ∧ s.work.windowSpan owner d.dst (d.span false) = none)
       let overlap := d.dir = 2 ∧ d.src < d.dst + d.span false ∧ d.dst < d.src + d.span true
       let failed := fun (res : Nat) => t.cmdStateOf key = 4 ∧ t.cmdResultOf key = res ∧ (t.work.dmaChan c).running = none
       (unmapped → failed 0x90) ∧
       (¬ unmapped → overlap → failed 0x93) ∧
       (¬ unmapped → ¬ overlap → 3 ≤ s.val Obj.powerState → failed 0x94) ∧
       (¬ unmapped → ¬ overlap → s.val Obj.powerState < 3 →
         (t.work.dmaChan c).started = true ∧ (t.work.dmaChan c).running = some (slot, d) ∧ s.counted t Obj.dmaBytesRead (d.dataBytes true))) ∧
      s.frame t [.dma] (fun k => k = dmaGoKey c slot ∨ k = Obj.dmaLastTag c ∨ k = Obj.dmaFailures ∨ k = Obj.dmaBytesRead ∨
        k = Obj.dmaSaturated ∨ k = Obj.fpSaturations ∨ k = Obj.poisonReads ∨ (∃ n, k = Obj.stackReadBytes n) ∨ ∃ p, k = Obj.hostReadBytes p)

/-- DMA_SLOT_END writes what is left of a started slot and ends it, DONE, or FAILED with DMA_POISON (0x91) when an element was poisoned;
the waiting slot runs next. A transfer to the host changes no byte of memory; one to a window changes only bytes of its destination. DMA_HALF of a started slot of two pixels or more writes the first half's bytes once; HOST_READ_ERROR ends a transfer from the host
FAILED with DMA_HOST (0x92), and a transfer that reads no host goes on. While the island of the owner's port is stopped nothing happens. -/
def Obligations.DmaTransfersHalveEndAndFail : Prop :=
  (∀ (s : State) (c slot : Nat) (d : DmaDesc), s.mem.wf = true → c < 32 → channelRuns s c →
     (s.work.dmaChan c).running = some (slot, d) → (s.work.dmaChan c).started = true →
     ∃ t, exec (.dmaSlotEnd c) s = .next t ∧
       (let x := s.work.dmaChan c
        let key := dmaGoKey c slot
        (t.work.dmaChan c).running = x.queued ∧ (t.work.dmaChan c).queued = none ∧
        (x.queued = none → t.cmdStateOf key = (if x.poisoned then 4 else 3) ∧ t.cmdResultOf key = if x.poisoned then 0x91 else 0) ∧
        (t.val (Obj.dmaLastTag c) = d.tag) ∧
        (x.poisoned = false → s.counted t Obj.dmaTransfers 1) ∧ (x.poisoned = true → s.counted t Obj.dmaFailures 1) ∧
        (d.dir = 1 → t.mem = s.mem) ∧
        (∀ b, (∀ a e, s.work.windowSpan (s.work.dmaOwner c) d.dst (d.span false) = some a → e ∈ x.bytes → b ≠ a + e.offset) →
          t.byteAt b = s.byteAt b))) ∧
  (∀ (s : State) (c : Nat), c < 32 → ¬ channelRuns s c →
     (∀ host bad, ∃ t, exec (.dmaSlotStart c host bad) s = .next t ∧ s.frame t [] (fun _ => False)) ∧
     (∃ t, exec (.dmaHalf c) s = .next t ∧ s.frame t [] (fun _ => False)) ∧
     (∃ t, exec (.dmaSlotEnd c) s = .next t ∧ s.frame t [] (fun _ => False)) ∧
     ∀ n, ∃ t, exec (.hostReadError c n) s = .next t ∧ s.frame t [] (fun _ => False)) ∧
  (∀ (s : State) (c slot : Nat) (d : DmaDesc), c < 32 → channelRuns s c →
     (s.work.dmaChan c).running = some (slot, d) → (s.work.dmaChan c).started = true →
     ((s.work.dmaChan c).halfReached = false → 2 ≤ d.pixels → ∃ t, exec (.dmaHalf c) s = .next t ∧
       (t.work.dmaChan c).halfReached = true ∧ (t.work.dmaChan c).bytes = (s.work.dmaChan c).bytes.filter (fun b => !b.firstHalf) ∧
       (t.work.dmaChan c).running = some (slot, d) ∧ (d.dir = 1 → t.mem = s.mem)) ∧
     (∀ n, d.dir ≠ 0 → ∃ t, exec (.hostReadError c n) s = .next t ∧ s.frame t [] (fun _ => False)) ∧
     (∀ n, d.dir = 0 → (s.work.dmaChan c).queued = none → ∃ t, exec (.hostReadError c n) s = .next t ∧
       t.cmdStateOf (dmaGoKey c slot) = 4 ∧ t.cmdResultOf (dmaGoKey c slot) = 0x92 ∧ (t.work.dmaChan c).running = none))

/-! ## 07: calibration, drift and lifetime -/

/-- SLICE_CALIBRATION_COMPLETE with enough samples gathered sets the position's targets from their mean difference and spread and rotates the
slice out of service by one; a target past the retirement limits retires the slice instead. (The 33rd calibration also subtracts the common
term. The rounding to steps is assumption log 26, the standard deviation log 130.) SLICE_ADJUST_STEP of a slice with 1,024 conversions moves each
applied adjustment by at most one step toward its target and changes nothing else; a retired slice stands still. -/
def Obligations.SlicesAreCalibratedStepByStep : Prop :=
  (∀ (s : State) (x : SliceCal) (q : Nat), arrayExists x.array = true → (s.work.arr x.array).outPos = some q → q < 33 →
     s.val Obj.calEnable ≠ 0 → (s.work.arr x.array).state ≠ 0 → ((s.work.arr x.array).calCount + 1) % 33 ≠ 0 →
     s.val Obj.calSamples ≤ (s.work.arr x.array).cal.data.n →
     ∃ t, ∃ gain : Rat, exec (.sliceCalibrationComplete x) s = .next t ∧
       (let a := s.work.arr x.array
        let b := t.work.arr x.array
        let p := a.position q
        let data := a.cal.data
        let off := openI16 ((p.appliedOff : Rat) - 64 * data.meanDiff)
        let target := openI16 ((p.appliedGain : Rat) + gain)
        (data.spread = false → gain = 0 ∧ s.counted t Obj.calGainSkipped 1) ∧ (∀ g, data.spread = true → data.gain = some g → gain = g) ∧
        (if s.val Obj.sliceRetireOffset < off.natAbs ∨ s.val Obj.sliceRetireGain < target.natAbs then
           b.outPos = none ∧ b.retiredPos = some q ∧ (b.position q).targetOff = p.appliedOff ∧ (b.position q).targetGain = p.appliedGain ∧
           b.groupPos = a.groupPos ∧ s.counted t Obj.sliceRetireEvents 1
         else b.outPos = some ((q + 1) % 33) ∧ (b.position q).targetOff = off ∧ (b.position q).targetGain = target ∧
           b.groupPos = a.groupPos.map (fun p => if p = (q + 1) % 33 then q else p)) ∧
        (b.position q).appliedOff = p.appliedOff ∧ (b.position q).appliedGain = p.appliedGain ∧ b.calCount = a.calCount + 1) ∧
       s.counted t Obj.calCompleted 1 ∧ t.mem = s.mem) ∧
  (∀ (s : State) (a q : Nat), arrayExists a = true → q < 33 →
     ∃ t, exec (.sliceAdjustStep a q) s = .next t ∧
       (let p := (s.work.arr a).position q
        let u := (t.work.arr a).position q
        (s.val Obj.calEnable ≠ 0 → (s.work.arr a).retiredPos ≠ some q → 1024 ≤ p.conversions →
          u = { p with
            conversions := p.conversions - 1024
            appliedOff := if p.appliedOff < p.targetOff then p.appliedOff + 1 else if p.targetOff < p.appliedOff then p.appliedOff - 1 else p.appliedOff
            appliedGain := if p.appliedGain < p.targetGain then p.appliedGain + 1
              else if p.targetGain < p.appliedGain then p.appliedGain - 1 else p.appliedGain }) ∧
        ((s.work.arr a).retiredPos = some q ∨ p.conversions < 1024 → u = p)) ∧
       (∀ b, b ≠ a → t.work.arr b = s.work.arr b) ∧ (∀ r, r ≠ q → (t.work.arr a).position r = (s.work.arr a).position r) ∧
       s.frame t [.arrs] (fun _ => False))

/-- Sentinel and row-side calibrations that are due run at a step boundary and are noted at the powered time; a baseline that is due takes the corrections in force; a trim set that
is due is applied at the array's temperature and counted; a calibration MVM of an array with no forward phase for 24 h is a phase. AGE_TICK counts a powered second; LIFETIME_SAVE copies the running lifetime records and changes nothing else; HISTOGRAM_MINUTE writes the
80 bins of TEMP_HISTOGRAM and starts the next minute. -/
def Obligations.ArrayUpkeepAndLifetimeAreKept : Prop :=
  (∀ (s : State) (a : Nat), arrayExists a = true →
     (∃ t, exec (.sentinelConverterCal a) s = .next t ∧ s.frame t [.arrs] (fun _ => False) ∧
       (let due := (s.work.arr a).sentDue = true ∨ (s.work.arr a).sentCalAt + 10 ≤ s.val Obj.poweredSeconds
        if s.work.atBoundary = true ∧ s.work.arrayBusy a = false ∧ due then
          ∃ r, t.work.arr a = { s.work.arr a with sentCalAt := s.val Obj.poweredSeconds, sentDue := false, sentCal := r }
        else t.work.arr a = s.work.arr a)) ∧
     (∃ t, exec (.rowSideCal a) s = .next t ∧ s.frame t [.arrs] (fun _ => False) ∧
       if s.work.atBoundary = true ∧ s.work.arrayBusy a = false ∧ s.work.rowCalStale a = true then
         ∃ rs, rs.length = 16 ∧ t.work.arr a = { s.work.arr a with rowCalAt := s.val Obj.poweredSeconds, rowCal := rs }
       else t.work.arr a = s.work.arr a) ∧
     (∃ t, exec (.baselineRecord a) s = .next t ∧ s.frame t [.arrs] (fun _ => False) ∧
       ∀ n, (s.work.arr a).baseAt = some n → n ≤ s.val Obj.poweredSeconds →
         (t.work.arr a).gammaBase = (s.work.arr a).gamma ∧ (t.work.arr a).betaBase = (s.work.arr a).beta ∧ (t.work.arr a).baseAt = none) ∧
     ((s.work.arr a).state ≠ 0 → (s.work.arr a).trimTemp = none → s.work.arrayBusy a = false →
       ∃ t, exec (.trimApply a []) s = .next t ∧ (t.work.arr a).trimTemp = some (s.work.arrayTemp a) ∧
         s.counted t Obj.trimApplications 1 ∧ s.frame t [.arrs] (fun k => k = Obj.trimApplications)) ∧
     (∀ s1 sa ref, (s.work.arr a).state ≠ 0 → s.work.atBoundary = true → (s.work.arr a).lastForward + 86400 ≤ s.val Obj.poweredSeconds →
       ∃ t, exec (.calibrationMvm a s1 sa ref) s = .next t ∧ (t.work.arr a).lastForward = s.val Obj.poweredSeconds ∧
         s.counted t Obj.phases 1 ∧ s.frame t [.arrs] (fun k => k = Obj.phases ∨ k = Obj.refSaturated))) ∧
  (∀ s : State,
     (∃ t, exec .ageTick s = .next t ∧ s.counted t Obj.poweredSeconds 1 ∧ s.counted t Obj.sinceStampMs 1000 ∧
       t.dev.rel.sweepDueS = s.dev.rel.sweepDueS - 1 ∧ t.mem = s.mem) ∧
     (∃ t, exec .lifetimeSave s = .next t ∧ s.frame t [.life] (fun _ => False) ∧
       t.dev.life.saved.powered = s.val Obj.poweredSeconds ∧ t.dev.life.saved.sinceStamp = s.val Obj.sinceStampMs ∧
       t.dev.life.saved.dieAge = s.dev.life.dieAge ∧ t.dev.life.saved.histogram = s.domBytes Obj.tempHistogram) ∧
     (∃ t, exec .histogramMinute s = .next t ∧ s.frame t [.life, .doms] (fun _ => False) ∧
       (t.domBytes Obj.tempHistogram).length = 320 ∧ t.dev.life.minute = [(0, 0), (0, 0), (0, 0), (0, 0)]))

/-! ## 03, 04: facets and engines -/

/-- No program of the step holds a buffer in SCRATCH memory, which the ops write their results to (R191). -/
def noScratch (s : State) : Prop := ∀ slot h b, s.work.buffer slot h = some b → b.kind ≠ 2

/-- ENGINE_MVM_START moves the oldest MVM issued to an engine into a bank when one is free for it, and leaves everything as it was when
none is; EPILOGUE lets the oldest MVM in a bank leave once all its facets, recomputes and samples are done, and counts it. In a stopped engine
island neither happens. -/
def Obligations.MvmsStartInOrderAndLeaveWhenDone : Prop :=
  ∀ (s : State) (e : Nat), engineExists s.ident e = true →
    (s.work.islandOpen (e / 32) = false → (∀ ecc, ∃ t, exec (.engineMvmStart e ecc) s = .next t ∧ s.frame t [] (fun _ => False)) ∧
      ∃ t, exec (.epilogue e) s = .next t ∧ s.frame t [] (fun _ => False)) ∧
    (∀ ecc j rest, s.work.islandOpen (e / 32) = true → (s.work.engine e).queue = j :: rest →
      (∀ r ∈ (s.work.engine e).runs, r.tag ≠ s.dev.nextTag) →
      ∃ t, exec (.engineMvmStart e ecc) s = .next t ∧
        if (s.work.engine e).mayStart j = true then
          (t.work.engine e).queue = rest ∧ (t.work.engine e).runs.length = (s.work.engine e).runs.length + 1 ∧
          (∃ r ∈ (t.work.engine e).runs, r.job = j ∧ r.tag = s.dev.nextTag) ∧ t.dev.nextTag = (s.dev.nextTag + 1) % 2 ^ 24 ∧
          s.counted t Obj.deltaMacs j.deltas.length ∧ t.mem = s.mem
        else s.frame t [] (fun k => k = Obj.recomputeStallCycles)) ∧
    (∀ r rest, s.work.islandOpen (e / 32) = true → (s.work.engine e).runs = r :: rest →
      ∃ t, exec (.epilogue e) s = .next t ∧
        if s.work.epilogueReady e r = true then
          (t.work.engine e).runs = rest ∧ s.counted t Obj.engineMvms 1 ∧ (r.job.twoPass = true → s.counted t Obj.wideMvms 1) ∧
          (noScratch s → t.mem = s.mem)
        else s.frame t [] (fun _ => False))

/-- PHASE_WINDOW_END of a whole phase in which a driven pair saturated counts a Level 1 replay and schedules the phase's two halves; any other
window takes the phase off the facet's schedule. Each window counts a phase. -/
def Obligations.ConversionWindowsReplayOrAdvance : Prop :=
  ∀ (s : State) (w : WindowEnd) (p : Phase) (rest : List Phase) (r : Run) (x : FacetRun), engineExists s.ident w.engine = true → w.facet < 4 →
    look [] (s.work.engine w.engine).phases w.facet = p :: rest → s.work.runOf w.engine p.tag = some r → r.facetRun w.facet = some x → s.work.islandOpen (w.engine / 32) = true →
    ∃ t, exec (.phaseWindowEnd w) s = .next t ∧
      (let j := r.job
       let flagged := r.nav = false ∧ ∃ c ∈ (convertedWindow w).codes, c.sat = true ∧ c.pair < facetOut j.transposed
       s.counted t (if j.transposed then Obj.tphases else Obj.phases) 1 ∧
       (p.half = 0 → flagged →
         look [] (t.work.engine w.engine).phases w.facet = insertHalves (fun q => match s.work.runOf w.engine q.tag with
           | some u => decide (u.job.transposed = j.transposed)
           | none => true) rest (halves p) ∧
         s.counted t (if j.transposed then Obj.tsplitReplays else Obj.splitReplays) 1) ∧
       (¬ (p.half = 0 ∧ flagged) → look [] (t.work.engine w.engine).phases w.facet = rest)) ∧
      t.mem = s.mem

/-- GOLDEN_READ_RETURN of an outstanding read, clean, makes its recompute ready; poisoned, it makes the facet group unverifiable.
RECOMPUTE_COMPLETE takes the oldest ready recompute and counts it. -/
def Obligations.GoldenReadsFeedRecomputes : Prop :=
  ∀ (s : State),
    (∀ (g : GoldenReturn) (q : Recompute), engineExists s.ident g.engine = true → g.facet < 4 → s.work.islandOpen (g.engine / 32) = true →
      (s.work.engine g.engine).reading.find? (fun q => q.facet = g.facet && q.pair = g.pair) = some q →
      ∃ t, exec (.goldenReadReturn g) s = .next t ∧ t.mem = s.mem ∧
        (g.poison = false → (t.work.engine g.engine).arrived = (s.work.engine g.engine).arrived ++ [q] ∧
          (t.work.engine g.engine).reading = (s.work.engine g.engine).reading.erase q ∧ s.frame t [.engines] (fun _ => False)) ∧
        (g.poison = true → (facetCore (4 * g.engine + g.facet), (s.work.arr (4 * g.engine + g.facet)).slot) ∈ t.dev.unverifiable)) ∧
    (∀ (e : Nat) (q : Recompute) (rest : List Recompute), engineExists s.ident e = true → s.work.islandOpen (e / 32) = true →
      (s.work.engine e).arrived = q :: rest →
      ∃ t, exec (.recomputeComplete e) s = .next t ∧ t.mem = s.mem ∧
        (t.work.engine e).arrived = rest ∧ s.counted t Obj.recomputes 1)

/-! ## 06: the ops of a layer program -/

/-- The instance an op's context names. -/
def instOf (c : OpCtx) : Inst := ⟨c.slot, c.seq, c.m⟩

/-- An instance may start, as R197 and R499 say, and its record reads right (R217). -/
structure MayStart (s : State) (c : OpCtx) : Prop where
  may : s.work.mayIssue c = true
  record : c.recordOk = true

/-- No word that the instance reads is past correction (R15). -/
def sramGood (c : OpCtx) : Prop := ∀ x ∈ c.sram, x.double = false

/-- An op that makes each element of its destination from its sources: of values, of positions, of another format, or of nothing but a place. -/
def elementOp (c : OpCtx) (i : Instr) : Prop :=
  (∃ a, i = .act c a) ∨ (∃ a, i = .rope c a) ∨ (∃ a, i = .convert c a) ∨ ∃ a, i = .copy c a

/-- An op that reads the words or pixels of a lane, or chooses among tokens. -/
def tokenOp (c : OpCtx) (i : Instr) : Prop := (∃ a, i = .embed c a) ∨ (∃ a, i = .patch c a) ∨ ∃ a, i = .head c a

/-- The ops that run to their end on the die that issues them. -/
def localOp (c : OpCtx) (i : Instr) : Prop :=
  elementOp c i ∨ tokenOp c i ∨ (∃ a, i = .attn c a) ∨ (∃ a, i = .route c a) ∨ ∃ a, a.set = 0xFF ∧ i = .norm c a

/-- ACT, ROPE, ATTN, ROUTE, EMBED, PATCH, HEAD, CONVERT, COPY and a NORM without a set, issued when they may start, complete: the instance
is done and counted, no buffer but the destination changes, and memory only where the destination lies in SCRATCH. -/
def Obligations.LocalOpsWriteTheirDestinationAndEnd : Prop :=
  ∀ (s : State) (c : OpCtx) (i : Instr), MayStart s c → localOp c i →
    ∃ t, exec i s = .next t ∧ instOf c ∈ t.dev.step.issued ∧ instOf c ∈ t.dev.step.done ∧ s.counted t Obj.opsExecuted 1 ∧
      (sramGood c → ∀ k, k ≠ s.work.bufKey c.slot c.dst c.m → look [] t.dev.step.bufs k = look [] s.dev.step.bufs k) ∧
      ((∀ b, s.work.buffer c.slot c.dst = some b → b.kind ≠ 2) → s.frame t [.step] (fun _ => True)) ∧ s.frame t [.step, .mem, .dram] (fun _ => True)

/-- An op issued before it may start (its operands, its fences or barriers are not done, it was issued already, another comes first, or the device
has failed) changes nothing but the time it waits for manager data and, once, that MB_DEPTH alone held it back. -/
def Obligations.OpsWaitUntilTheyMayStart : Prop :=
  ∀ (s : State) (c : OpCtx) (i : Instr),
    (localOp c i ∨ (∃ a, i = .reduce c a) ∨ (∃ a, i = .gather c a) ∨ (∃ a, i = .norm c a) ∨ ∃ a n l, s.dev.serve.plan ≠ none ∧ i = .mask c a n l) →
    s.work.mayIssue c = false →
    ∃ t, exec i s = .next t ∧ t.dev.step.issued = s.dev.step.issued ∧ t.dev.step.done = s.dev.step.done ∧ t.dev.step.bufs = s.dev.step.bufs ∧
      s.frame t [.step] (fun k => k = Obj.collectiveWaitNs ∨ k = Obj.mbDepthStalls) ∧
      (s.work.orderReady c = false ∨ s.work.dataReady c = true → t.val Obj.collectiveWaitNs = s.val Obj.collectiveWaitNs) ∧
      (s.work.opReady c = true → s.work.depthReady c = false → instOf c ∉ s.dev.step.stalled → s.counted t Obj.mbDepthStalls 1) ∧
      (s.work.opReady c = false ∨ s.work.depthReady c = true ∨ instOf c ∈ s.dev.step.stalled → s.frame t [] (fun k => k = Obj.collectiveWaitNs))

/-- CIM_MVM, CIM_MVMT and EXPERT, issued when they may start and with the deltas they read in every core's buffer, run on the engines: the
instance is issued, and stands among the running ones or is done. One whose deltas are not in every core's buffer waits. DELTA_FETCH_DONE:
the deltas of the instance are in the core's buffer from then on, with the sets that came poisoned, and the bytes fetched are counted. -/
def Obligations.EngineOpsRunOnTheEngines : Prop :=
  (∀ (s : State) (c : OpCtx) (a : CimArgs),
    (MayStart s c → ∀ i,
      ((i = .cimMvm c a ∨ i = .cimMvmt c a) ∧ (a.deltas = false ∨ s.work.deltasPresent c (s.work.sliceCores c.slot a.slice) = true)) ∨
        (∃ x : ExpertArgs, x.cim = a ∧ a.deltas = false ∧ i = .expert c x) →
      ∃ t, exec i s = .next t ∧ instOf c ∈ t.dev.step.issued ∧ (noScratch s → t.mem = s.mem) ∧
        ((∃ o ∈ t.dev.step.ops, o.ctx = c) ∨ instOf c ∈ t.dev.step.done)) ∧
    (a.deltas = true → s.work.deltasPresent c (s.work.sliceCores c.slot a.slice) = false →
      ∀ i, i = .cimMvm c a ∨ i = .cimMvmt c a → ∃ t, exec i s = .next t ∧ s.frame t [] (fun _ => False))) ∧
  ∀ (s : State) (core slot seq m bytes waitNs fills : Nat) (poison : List Nat), goodCore s.ident core = true → slot < 4 →
    ∃ t, exec (.deltaFetchDone core slot seq m bytes waitNs fills poison) s = .next t ∧
      t.dev.step.deltas = s.dev.step.deltas ++ [⟨⟨slot, seq, m⟩, core, poison⟩] ∧
      s.counted t Obj.deltaBytesStreamed (sumNat (s.work.deltaFetch (s.work.fetchCtx slot seq m) core)) ∧
      s.counted t Obj.deltaPoison poison.length ∧
      s.frame t [.step, .links] (fun k => k = Obj.deltaBytesStreamed ∨ k = Obj.deltaStalls ∨ k = Obj.deltaStallNs ∨ k = Obj.deltaSplits ∨
        k = Obj.deltaPoison ∨ linkCounter k)

/-- REDUCE, GATHER ALL and a NORM over a set, issued when they may start, join their collective on this die, or end where its data is already
there; GATHER TO_MANAGER sends its contribution to the manager and ends. A part of a REDUCE or GATHER, or a result, that reaches a worker of a
formed group is kept until the instance takes it, with its flits' poison (R152); candidate sets for the step in progress are kept at the
manager. -/
def Obligations.CollectivesTakePartAndKeepParts : Prop :=
  (∀ (s : State) (c : OpCtx), MayStart s c →
     (∀ i, (∃ a, i = .reduce c a) ∨ (∃ a, a.kind ≠ 1 ∧ i = .gather c a) ∨ (∃ a, a.set ≠ 0xFF ∧ i = .norm c a) →
       ∃ t, exec i s = .next t ∧ instOf c ∈ t.dev.step.issued ∧ (noScratch s → t.mem = s.mem) ∧
         (instOf c ∈ t.dev.step.done ∨ ∃ x ∈ t.dev.step.colls, (⟨x.slot, x.seq, x.m⟩ : Inst) = instOf c)) ∧
     (∀ a : CollArgs, a.kind = 1 → sramGood c → ∃ t, exec (.gather c a) s = .next t ∧ instOf c ∈ t.dev.step.done ∧
       ∃ p, p.data = s.work.buf c.slot c.src0 c.m ∧ p.slot = c.slot ∧ p.seq = c.seq ∧ p.m = c.m ∧
         Output.fabric (some 0) none (.gatherPart p) ∈ t.out.drop s.out.length)) ∧
  (∀ (s : State) (p : CollPart), s.val Obj.groupState = 2 →
     (s.val Obj.role = 3 →
       (∀ fmt oper kind, ∃ t, exec (.reducePart p fmt oper kind) s = .next t ∧ CollPart.taken p ∈ t.dev.step.partsIn ∧ (noScratch s → t.mem = s.mem)) ∧
       (∃ t, exec (.gatherPart p) s = .next t ∧ CollPart.taken p ∈ t.dev.step.partsIn ∧ (noScratch s → t.mem = s.mem)) ∧
       (∃ t, exec (.reduceResult p) s = .next t ∧ CollPart.taken p ∈ t.dev.step.resultsIn ∧ (noScratch s → t.mem = s.mem))) ∧
     (∀ q, s.val Obj.role = 1 → s.dev.serve.plan = some q → q.head.step = p.step →
       ∃ t, exec (.gatherPart p) s = .next t ∧ t.dev.serve.candidates = s.dev.serve.candidates ++ [p] ∧
         (noScratch s → s.frame t [.serve, .step] (fun _ => False))))

/-- BARRIER within a die ends once the ops before it have; before that it changes nothing. A BARRIER_MESSAGE that releases ends the oldest
instance that waits; an arrival at a worker where none waits yet is kept. -/
def Obligations.BarriersReleaseWhatWaits : Prop :=
  (∀ (s : State) (c : OpCtx) (a : BarrierArgs), a.scope ≤ 1 →
    (s.work.barrierReady c a.scope = true → MayStart s c →
      ∃ t, exec (.barrier c a) s = .next t ∧ instOf c ∈ t.dev.step.done ∧ s.counted t Obj.opsExecuted 1 ∧
        s.frame t [.step] (fun k => k = Obj.opsExecuted)) ∧
    (s.work.barrierReady c a.scope = false → ∃ t, exec (.barrier c a) s = .next t ∧ s.frame t [] (fun _ => False))) ∧
  ∀ (s : State) (scope id src : Nat), s.val Obj.groupState = 2 →
    (∀ c rest, (s.work.barrierRun scope id).waiting = c :: rest →
      ∃ t, exec (.barrierMessage scope id src true) s = .next t ∧ instOf c ∈ t.dev.step.done ∧ (t.work.barrierRun scope id).waiting = rest) ∧
    ((s.work.barrierRun scope id).waiting = [] → s.val Obj.role = 3 →
      ∃ t, exec (.barrierMessage scope id src false) s = .next t ∧
        (t.work.barrierRun scope id).arrived = (s.work.barrierRun scope id).arrived ++ [src] ∧ s.frame t [.step] (fun _ => False))

/-- The manager's ops, with a step in progress: DRAFT broadcasts what it drafted of every lane, and writes it; MASK writes a mask for every masked
vector and sends each slot's to the dies of its set; SAMPLE, its candidate sets being in, settles every lane and broadcasts ACCEPT. Each
instance that may start is done. Without a step, and SAMPLE before its candidates, they have no effect. -/
def Obligations.ManagerOpsOfAStepComplete : Prop :=
  ∀ (s : State) (c : OpCtx),
    (s.dev.serve.plan = none →
      (∀ d k heads, d < 4 → ∃ t, exec (.draft c d k heads) s = .next t ∧ s.frame t [] (fun _ => False)) ∧
      (∀ set ns poisoned, ∃ t, exec (.mask c set ns poisoned) s = .next t ∧ s.frame t [] (fun _ => False)) ∧
      ∀ out, ∃ t, exec (.sample c out) s = .next t ∧ s.frame t [] (fun _ => False)) ∧
    (s.work.candsIn c.src0 = false → ∀ out, ∃ t, exec (.sample c out) s = .next t ∧ s.frame t [] (fun _ => False)) ∧
    (∀ p, s.dev.serve.plan = some p → MayStart s c →
      (∀ d k heads, d < 4 → ∃ t q, exec (.draft c d k heads) s = .next t ∧ t.dev.serve.plan = some q ∧ q.lanes.length = p.lanes.length ∧
        instOf c ∈ t.dev.step.done ∧ s.counted t Obj.opsExecuted 1 ∧ t.dev.step.drafts = some (q.lanes.map LanePlan.draftMsg) ∧
        Output.fabric none none (.drafts (q.lanes.map LanePlan.draftMsg)) ∈ t.out.drop s.out.length ∧
        look [] t.dev.step.bufs (s.work.bufKey c.slot c.dst c.m) = q.lanes.map LanePlan.draftVec ∧
        (s.val (Obj.slotState d) ≠ 3 → q.lanes = p.lanes)) ∧
      (∀ set ns poisoned, ∃ t, exec (.mask c set ns poisoned) s = .next t ∧ instOf c ∈ t.dev.step.done ∧ s.counted t Obj.opsExecuted 1 ∧
        s.counted t Obj.masksGenerated s.work.maskRows.length ∧
        (look [] t.dev.step.bufs (s.work.bufKey c.slot c.dst c.m)).length = s.work.maskRows.length ∧
        (poisoned = [] → set ≠ 0xFF → ∀ n h base count rows, n < 4 → h ∈ s.work.holders n →
          (dieSetMembers ((s.work.slot c.slot).section 0x05) set).contains h.dieIndex = true → (programOf h.program).headRange = some (base, count) →
          rows = s.work.maskRows.filter (fun r => r.slot = n) → rows ≠ [] →
          Output.fabric (some h.worker) none (.masks n (rows.map (fun r =>
            (r.lane, r.pos, maskBits r.image r.kind r.stop r.state base count)))) ∈ t.out.drop s.out.length)) ∧
      (∀ out, s.work.candsIn c.src0 = true → ∃ t q, exec (.sample c out) s = .next t ∧ t.dev.serve.plan = some q ∧ q.lanes.length = p.lanes.length ∧
        instOf c ∈ t.dev.step.done ∧ s.counted t Obj.opsExecuted 1 ∧
        (let words := (q.lanes.filter (fun l => l.lane.code = 0 || l.lane.code = 2)).map LanePlan.acceptWord
         look [] t.dev.step.bufs (s.work.bufKey c.slot out c.m) = words.map (fun w => Vec.words 7 [some w]) ∧
         ∀ f ∈ acceptFragments p.head.step (words.length + 1) 0 words, Output.fabric none none (.accept f) ∈ t.out.drop s.out.length)))

/-- DIE_STEP_END of a step all of whose instances have completed ends it on the die: buffers and what was in progress are gone. Before that it
changes nothing. -/
def Obligations.DieStepEndsWhenEveryInstanceIsDone : Prop :=
  ∀ (s : State) (us : Nat) (h : StepHead) (b : StepBody), s.dev.step.running = some (h, b) → s.dev.step.ended = false →
    ∃ t, exec (.dieStepEnd us) s = .next t ∧
      if s.work.stepComplete = true then t.dev.step.ended = true ∧ t.dev.step.bufs = [] ∧ t.dev.step.ops = [] ∧ t.dev.step.colls = [] ∧ t.mem = s.mem
      else s.frame t [] (fun _ => False)

/-! ## 08: loading and replacing weights -/

/-- LOAD_START with a request that the slot's state permits runs it: the slot is LOADING and its header is awaited; into a slot that is not empty
it fails with 0x22; without a request it fails with 0x37 (the model's choice, assumption log 25), with a device-fatal fault with 0xB0. A part
in its turn is counted and kept, from whichever source the request names; one that arrives poisoned ends a load that is programming nothing
with 0x39. A REATTACH whose read-back agrees with DIGESTS is READY; one that differs ends without GOLDEN with 0x36, and with it programs the
facets of the groups that differ. -/
def Obligations.LoadsTakeTheirPartsInTurn : Prop :=
  (∀ (s : State) (r : Req) (arg : Nat), s.startsAt r Obj.loadStart arg →
    (s.dev.rel.deviceFault ≠ none → ∃ t, exec (.loadStart r) s = .next t ∧ s.commandFails t r Obj.loadStart 0xB0) ∧
    (s.dev.rel.deviceFault = none → s.domBytes Obj.loadRequest = [] →
      ∃ t, exec (.loadStart r) s = .next t ∧ s.commandFails t r Obj.loadStart 0x37) ∧
    (∀ l, l = loadRunOf (s.domBytes Obj.loadRequest) (s.val (Obj.slotState (leAt (s.domBytes Obj.loadRequest) 0 1))) s.dev.now →
      s.dev.rel.deviceFault = none → s.domBytes Obj.loadRequest ≠ [] → s.work.modeAllowed l = false →
      ∃ t, exec (.loadStart r) s = .next t ∧ s.commandFails t r Obj.loadStart (if l.mode = 0 then 0x22 else 0x37)) ∧
    (∀ l, l = loadRunOf (s.domBytes Obj.loadRequest) (s.val (Obj.slotState (leAt (s.domBytes Obj.loadRequest) 0 1))) s.dev.now →
      s.dev.rel.deviceFault = none → s.domBytes Obj.loadRequest ≠ [] → s.work.modeAllowed l = true → l.mode = 0 → l.source = 0 →
      ∃ t, exec (.loadStart r) s = .next t ∧ s.acceptedAt t r Obj.loadStart ∧ t.cmdStateOf Obj.loadStart = 2 ∧
        t.dev.res.load = some { l with before := s.dev.arrs, remaps := s.val Obj.remaps } ∧
        t.val (Obj.slotState l.slot) = 1 ∧ t.val Obj.loadBytes = 0 ∧
        s.frame t [.dict, .links, .res] (fun x => x = Obj.loadStart ∨ x = Obj.loadBytes ∨ x = Obj.loadFacetsDone ∨ x = Obj.slotState l.slot ∨ answerKey x))) ∧
  (∀ (s : State) (l : LoadRun) (c : Instr) (ty die link : Nat) (bytes : List Byte) (poison : Bool), link < 16 → s.dev.res.load = some l →
    l.stopping = none → l.todo.head? = some ty → die = 0xFFFF ∨ die = l.die →
    (l.source = 0 ∧ c = .loadSectionArrival ty die bytes poison) ∨ (l.source = 1 ∧ l.link = link ∧ c = .loadData link ty die bytes poison) →
    (poison = false → l.mode = 0 → ty ∉ [0, 1, 0x11, 0x14, 0x7F, 0xFF] → l.todo.drop 1 ≠ [] →
      (ty = 0x15 → wideOk bytes = true ∧ tensorsNamed (programOf (l.part 0x03)) bytes = true) →
      sectionDigestOk (sectionTable (s.work.loadOr l 0) (s.work.loadOr l 0xFF)) (s.work.loadOr l 1) ty l.die bytes = true →
      ∃ t, exec c s = .next t ∧ s.counted t Obj.loadBytes bytes.length ∧
        t.dev.res.load = some { l with got := put l.got ty bytes, todo := l.todo.drop 1 } ∧ s.frame t [.res] (fun x => x = Obj.loadBytes)) ∧
    (poison = true → l.mode = 2 → (∀ q ∈ l.arrays, q.2 ∉ s.dev.programming) →
      ∃ t, exec c s = .next t ∧ t.dev.res.load = none ∧ t.cmdStateOf Obj.loadStart = 4 ∧ t.cmdResultOf Obj.loadStart = 0x39 ∧
        s.frame t [.res] (fun x => x = Obj.loadBytes ∨ x = Obj.loadStart))) ∧
  ∀ (s : State) (l : LoadRun) (digests : List (Nat × List Byte)), s.dev.res.load = some l →
    (l.readback = false → ∃ t, exec (.reattachReadbackDone digests) s = .next t ∧ s.frame t [] (fun _ => False)) ∧
    (l.readback = true → l.stopping = none → l.mode = 1 → l.slot < 4 →
      (let differs := fun (p : Nat × Nat) => digestOf (l.part 0x16) (facetCore p.1) ≠ some (s.work.groupRead l.slot digests (facetCore p.1))
       ((∀ p ∈ s.work.slotArrays l.slot, ¬ differs p) → l.todo = [] → l.arrays = [] →
         ∃ t, exec (.reattachReadbackDone digests) s = .next t ∧ t.dev.res.load = none ∧ t.val (Obj.slotState l.slot) = 3 ∧
           t.cmdStateOf Obj.loadStart = 3 ∧ t.val (Obj.slotDieIndex l.slot) = objValue (Obj.slotDieIndex l.slot) l.die ∧ t.mem = s.mem) ∧
       ((∃ p ∈ s.work.slotArrays l.slot, differs p) → l.withGolden = false → (∀ q ∈ l.arrays, q.2 ∉ s.dev.programming) →
         ∃ t, exec (.reattachReadbackDone digests) s = .next t ∧ t.dev.res.load = none ∧ t.val (Obj.slotState l.slot) = 5 ∧
           t.cmdStateOf Obj.loadStart = 4 ∧ t.cmdResultOf Obj.loadStart = 0x36) ∧
       ((∃ p ∈ s.work.slotArrays l.slot, differs p) → l.withGolden = true → l.verified = [] →
         (∀ p ∈ s.work.slotArrays l.slot, s.work.wornOut p.2 = false) →
         ∃ t m, exec (.reattachReadbackDone digests) s = .next t ∧ t.dev.res.load = some m ∧ m.readback = false ∧
           (∀ p, p ∈ m.arrays ↔ p ∈ s.work.slotArrays l.slot ∧ differs p))))

/-- FACET_PROGRAM_START: a facet of a load that has its image starts to be programmed, its count of programs rising, when concurrency, its half
and the power allow, and otherwise the wait is counted once. FACET_PROGRAM_DONE: a first attempt that fails is retried; one that verified
is of the load's verified facets; an array that is not being programmed is left alone. IN_PLACE_REFRESH asks the manager for the pause first
(the model's choice, assumption log 83), and without a group programs the facet where it stands. -/
def Obligations.FacetsAreProgrammedWhenAllowed : Prop :=
  (∀ (s : State) (l : LoadRun) (a f : Nat), a < 8192 → s.dev.res.load = some l → l.stopping = none → l.source = 2 → l.facetFor a = some f →
    s.dev.res.shadows = [] → s.work.deepening = false → a ∉ s.dev.programming →
    (s.work.startBar a = 0 → s.work.wornOut a = false → chkAgree (s.work.loadRecord l f) (s.work.arr f).image = true →
      ∃ t, exec (.facetProgramStart a) s = .next t ∧ t.dev.programming = s.dev.programming ++ [a] ∧
        (t.work.arr a).programs = (s.work.arr a).programs + 1 ∧ s.counted t Obj.programsTotal 1) ∧
    (s.work.startBar a = 0 → s.work.wornOut a = false → chkAgree (s.work.loadRecord l f) (s.work.arr f).image = false →
      (∀ q ∈ l.arrays, q.2 ∉ s.dev.programming) → ∃ t, exec (.facetProgramStart a) s = .next t ∧ t.dev.res.load = none ∧
        t.dev.programming = s.dev.programming ∧ t.cmdStateOf Obj.loadStart = 4 ∧ t.cmdResultOf Obj.loadStart = 0x1A) ∧
    (s.work.startBar a = 2 → (a, 2) ∉ s.dev.res.delayed → ∃ t, exec (.facetProgramStart a) s = .next t ∧
      t.dev.programming = s.dev.programming ∧ s.counted t Obj.programThermalWaits 1) ∧
    (s.work.startBar a = 3 → (a, 3) ∉ s.dev.res.delayed → ∃ t, exec (.facetProgramStart a) s = .next t ∧
      t.dev.programming = s.dev.programming ∧ s.counted t Obj.programPowerWaits 1)) ∧
  (∀ (s : State) (x : ProgramResult), arrayExists x.array = true →
    (let good := x.rowsOk && { (s.work.arr x.array).cells with written := true, off := x.off }.matchesGolden
     (x.array ∉ s.dev.programming → ∃ t, exec (.facetProgramDone x) s = .next t ∧ s.frame t [] (fun _ => False)) ∧
     (x.array ∈ s.dev.programming → look 1 s.dev.res.attempts x.array = 1 → good = false → s.work.wornOut x.array = false →
       ∃ t, exec (.facetProgramDone x) s = .next t ∧ t.dev.programming = s.dev.programming ∧ s.counted t Obj.programRetries 1 ∧
         look 1 t.dev.res.attempts x.array = 2) ∧
     (∀ l f, x.array ∈ s.dev.programming → look 1 s.dev.res.attempts x.array ≠ 0 → good = true → s.dev.res.shadows = [] →
       s.dev.res.load = some l → l.stopping = none → l.facetFor x.array = some f →
       (∃ p ∈ l.groupOf (facetCore f), p.1 ≠ f ∧ p.1 ∉ l.verified) →
       ∃ t, exec (.facetProgramDone x) s = .next t ∧ t.dev.programming = s.dev.programming.erase x.array ∧
         t.dev.res.load = some { l with verified := l.verified ++ [f] } ∧ (t.work.arr x.array).cells.written = true))) ∧
  ∀ (s : State) (f : Nat), f < 8192 → s.work.inPlaceDue f = true → s.work.serving f ∉ s.dev.programming → s.work.wornOut (s.work.serving f) = false →
    s.work.chkStands f = true → s.work.deepening = false → s.val Obj.inPlaceEnable ≠ 0 → pauseUs 1 ≤ 1000 * s.val Obj.pauseLimitMs →
    (s.work.formed = true → (s.work.arr f).slot ∉ s.dev.res.paused → (s.work.arr f).slot ∉ s.dev.res.pauseAsked →
      ∃ t, exec (.inPlaceRefresh [f]) s = .next t ∧ t.dev.res.pauseAsked = s.dev.res.pauseAsked ++ [(s.work.arr f).slot] ∧
        Output.fabric (some 0) none (.report (.pauseAsked (s.work.arr f).slot 1)) ∈ t.out.drop s.out.length ∧ s.frame t [.res, .links] linkCounter) ∧
    (s.work.formed = false → ∃ t, exec (.inPlaceRefresh [f]) s = .next t ∧ t.dev.programming = s.dev.programming ++ [s.work.serving f])

/-- SLOT_RELEASE empties a RESIDENT or FAILED slot and frees its arrays, and fails with 0x37 in any other state; REPLACE_SLOT starts a drain at
the manager and fails with 0x3A elsewhere; REFRESH_FACET queues the facet for reason HOST; TRIM_READ takes the snapshot; LAYER_COUNTS_CLEAR
zeroes what it names. -/
def Obligations.ResidencyCommandsAct : Prop :=
  (∀ (s : State) (r : Req) (n : Nat), s.startsAt r Obj.slotRelease n →
    (s.val (Obj.slotState n) = 5 ∨ s.val (Obj.slotState n) = 6 →
      ∃ t, exec (.slotRelease r) s = .next t ∧ s.acceptedAt t r Obj.slotRelease ∧ t.cmdStateOf Obj.slotRelease = 3 ∧ t.val (Obj.slotState n) = 0 ∧
        (∀ a, (t.work.arr a).slot ≠ n)) ∧
    (s.val (Obj.slotState n) ≠ 5 → s.val (Obj.slotState n) ≠ 6 →
      ∃ t, exec (.slotRelease r) s = .next t ∧ s.commandFails t r Obj.slotRelease 0x37)) ∧
  (∀ (s : State) (r : Req) (arg : Nat), s.startsAt r Obj.replaceSlot arg → s.dev.rel.deviceFault = none →
    (s.val Obj.role ≠ 1 → ∃ t, exec (.replaceSlot r) s = .next t ∧ s.commandFails t r Obj.replaceSlot 0x3A) ∧
    (s.val Obj.role = 1 → s.dev.serve.plan ≠ none → s.work.drainOf (field arg 1 0) = none →
      (∃ h ∈ s.dev.serve.held, h.slot = field arg 1 0 ∧ h.state = 3) →
      (∀ h ∈ s.dev.serve.held, h.slot = field arg 1 0 → h.state = 0 ∨ h.state = 3 ∨ h.state = 6) →
      ∃ t, exec (.replaceSlot r) s = .next t ∧ s.acceptedAt t r Obj.replaceSlot ∧ t.cmdStateOf Obj.replaceSlot = 2 ∧
        t.dev.serve.drains = s.dev.serve.drains ++ [⟨field arg 1 0, field arg 3 2, s.dev.now + 1000 * field arg 31 8, false, false, []⟩] ∧
        s.frame t [.dict, .links, .serve] (fun x => x = Obj.replaceSlot ∨ answerKey x))) ∧
  (∀ (s : State) (r : Req) (f : Nat), s.startsAt r Obj.refreshFacet f → (s.work.arr f).queued = 0 →
    ∃ t, exec (.refreshFacet r) s = .next t ∧ s.acceptedAt t r Obj.refreshFacet ∧ t.cmdStateOf Obj.refreshFacet = 3 ∧ (t.work.arr f).queued = 4 ∧
      s.counted t Obj.refreshesScheduled 1) ∧
  (∀ (s : State) (r : Req) (f : Nat), s.startsAt r Obj.trimRead f →
    ∃ t, exec (.trimRead r) s = .next t ∧ s.commanded t r Obj.trimRead [.doms] (fun _ => False) ∧ (t.domBytes Obj.trimRecord).take 2 = toLE 2 f) ∧
  ∀ (s : State) (r : Req) (n : Nat), s.startsAt r Obj.layerCountsClear n →
    ∃ t, exec (.layerCountsClear r) s = .next t ∧ s.commanded t r Obj.layerCountsClear [.layerCounts] (fun _ => False) ∧
      (n = 4 → t.dev.layerCounts = []) ∧ (∀ c, c ∈ t.dev.layerCounts ↔ c ∈ s.dev.layerCounts ∧ n ≠ 4 ∧ c.slot ≠ n)

/-! ## 09 to 11: serving -/

/-- A descriptor's slot in an intake ring of n entries, by its sequence number (R424). -/
def descSlot (n : Nat) (b : List Byte) : Nat := (descStamp b + 2 ^ 64 - 1) % n

/-- A tenant's intake consumes the descriptor when it arrives: rings enabled, the device booted in L0, nothing else announced or waiting, the
sequence number expected, and a completion slot to reserve (R424, R425). -/
structure Consumes (s : State) (t : Nat) (b : List Byte) : Prop where
  exists_ : s.work.tenantExists t = true
  enabled : s.work.intakeOpen t = true
  l0 : s.val Obj.powerState = 0
  entries : s.val (Obj.intakeEntries t) ≠ 0
  empty : (s.work.ring t).aperture = []
  none_waits : (s.work.ring t).waiting = []
  inTurn : descStamp b = (s.work.ring t).expected
  inSlot : descSlot (s.val (Obj.intakeEntries t)) b = ((s.work.ring t).expected - 1) % s.val (Obj.intakeEntries t)
  room : s.work.slotFree t = true

/-- SUBMIT: a descriptor is announced, and waits while the rings are not enabled; consumed at the manager it takes the lowest FREE entry, in
INTAKE; elsewhere it is refused with 0x40. CANCEL of a live request of its tenant ends it as CANCELLED. PROMPT_FETCH_DONE ends INTAKE: the
request is QUEUED or refused, and refused when the fetch failed. -/
def Obligations.DescriptorsAreTakenIn : Prop :=
  (∀ (s : State) (tenant : Nat) (b : List Byte) (poisoned : Bool) (us : Nat) (c : Instr),
    c = .submit tenant b poisoned us ∨ c = .cancel tenant b poisoned us → s.work.tenantExists tenant = true → s.val (Obj.ringEnable tenant) = 0 →
    s.val (Obj.intakeEntries tenant) ≠ 0 → s.val Obj.powerState < 3 →
    ∃ t, exec c s = .next t ∧ ⟨descSlot (s.val (Obj.intakeEntries tenant)) b, b, poisoned⟩ ∈ (t.work.ring tenant).aperture ∧
      t.dev.now = us ∧ s.frame t [.host, .now] (fun _ => False)) ∧
  (∀ (s : State) (tenant : Nat) (b : List Byte) (us i : Nat), Consumes s tenant b →
    (s.val Obj.role = 1 → leAt b 0 1 = 1 → descWindow b = false → s.work.freeIndexOf = some i →
      (s.dev.serve.entries.filter (fun e => e.tenant = tenant)).length < s.val (Obj.tenantRequestCap tenant) →
      ∃ t, exec (.submit tenant b false us) s = .next t ∧ s.counted t Obj.intakeDescriptors 1 ∧
        (∃ e ∈ t.dev.serve.entries, e.index = i ∧ e.tenant = tenant ∧ e.state = 1 ∧ e.hostTag = descTag b ∧ e.slot = leAt b 1 1 % 4) ∧
        s.frame t [.host, .now, .serve] (fun x => x = Obj.intakeDescriptors ∨ x = Obj.tenantDescriptors tenant)) ∧
    (s.val Obj.role ≠ 1 → ∃ t, exec (.submit tenant b false us) s = .next t ∧ s.counted t Obj.intakeRefused 1 ∧
      t.dev.serve.entries = s.dev.serve.entries) ∧
    (∀ e, s.val Obj.role = 1 → s.dev.serve.plan ≠ none → leAt b 0 1 = 2 → (slice b 1 3).all (· = 0) = true → (slice b 16 104).all (· = 0) = true →
      s.work.byHandle (leAt b 4 4) = some e → e.tenant = tenant → e.terminal = false →
      ∃ t, exec (.cancel tenant b false us) s = .next t ∧ s.counted t Obj.requestsCancelled 1 ∧
        ∃ x ∈ t.dev.serve.entries, x.index = e.index ∧ x.state = 9 ∧ x.cause = 0x10)) ∧
  ∀ (s : State) (i us : Nat) (f : FetchEnd) (e : Entry), i < 16384 → s.work.entry i = some e →
    (e.state ≠ 1 → ∃ t, exec (.promptFetchDone i f us) s = .next t ∧ s.frame t [.now] (fun _ => False)) ∧
    (e.state = 1 → s.val Obj.role = 1 → s.dev.serve.plan ≠ none → (s.work.ring e.tenant).waiting = [] →
      ∃ t, exec (.promptFetchDone i f us) s = .next t ∧ s.counted t (Obj.hostReadBytes (tenantPort e.tenant)) (4 * e.promptLen) ∧
        ((s.counted t Obj.requestsAdmitted 1 ∧ ∃ x ∈ t.dev.serve.entries, x.index = i ∧ x.state = 2) ∨
         (s.counted t Obj.intakeRefused 1 ∧ ∀ x ∈ t.dev.serve.entries, x.index ≠ i)) ∧
        (f = .error ∨ f = .poisoned → ∀ x ∈ t.dev.serve.entries, x.index ≠ i))

/-- A manager outside a formed group, at which no step follows. -/
structure QuietManager (s : State) : Prop where
  manager : s.val Obj.role = 1
  unformed : s.val Obj.groupState ≠ 2
  noSets : s.dev.vars.sets = []
  noJobs : s.dev.vars.jobs = []
  noBad : s.dev.serve.badSets = []
  noOrder : s.dev.boot.groupPending = false

/-- The entry of its index. -/
def onlyEntry (s : State) (e : Entry) : Prop := e ∈ s.dev.serve.entries ∧ ∀ x ∈ s.dev.serve.entries, x.index = e.index → x = e

/-- A request that neither its budget nor a drain ends at a boundary (R266, R301). -/
def outlasts (s : State) (us : Nat) (e : Entry) : Prop :=
  (e.hard = true → 0 < (e.charge us).budget) ∧ ∀ d ∈ s.dev.serve.drains, d.slot ≠ e.slot

/-- A lane of a plan and its result, the only one of its request (R299). -/
def judged (p : StepPlan) (r : StepResult) (e : Entry) (q : LanePlan) (x : LaneResult) : Prop :=
  (q, x) ∈ p.lanes.zip r.lanes ∧ r.lanes.length = p.lanes.length ∧ (p.lanes.map (·.entry)).Nodup ∧ q.entry = e.index ∧
    q.generation = e.generation ∧ e.terminal = false

/-- COMMIT of a complete result counts the step; a decode lane whose result is good advances its request by the tokens it put out, a prefill
record by its vectors, and a lane with poison, a facet fault or, where the request asks for it, a numeric event ends its request (R300).
Where no step follows, the plan is over and the longest step stands. IDLE_BOUNDARY at the manager holds a request that was asked to be held.
A drain whose deadline has passed ends every request of its slot and completes REPLACE_SLOT. Without a result, during a step, and for a drain
away from the manager, nothing but the time changes. -/
def Obligations.BoundariesCommitHoldAndDrain : Prop :=
  (∀ (s : State) (us : Nat) (p : StepPlan) (r : StepResult), s.dev.serve.plan = some p → p.result = some r →
    ∃ t, exec (.commit us) s = .next t ∧ t.dev.now = us ∧ s.counted t Obj.steps 1 ∧
      (QuietManager s → p.job = none → t.dev.serve.plan = none ∧ t.val Obj.stepMaxUs = max (s.val Obj.stepMaxUs) (objValue Obj.stepMaxUs (us - p.startUs))) ∧
      (∀ e q x, p.job = none → onlyEntry s e → judged p r e q x →
        (x.poison = true ∨ q.poison = true ∨ x.facetFault = true ∨ (0 < x.numeric ∧ e.failPolicy = true) → ∀ y ∈ t.dev.serve.entries, y.index ≠ e.index) ∧
        (outlasts s us e → x.poison = false → q.poison = false → x.facetFault = false → x.numeric = 0 ∨ e.failPolicy = false → q.stop = 0 →
          (q.lane.code = 0 → q.out.length = q.accepted + 1 →
            ∃ y ∈ t.dev.serve.entries, y.index = e.index ∧ y.committed = q.lane.pos + q.accepted + 1 ∧ y.log = e.log ++ q.out) ∧
          (q.lane.code = 1 → ∃ y ∈ t.dev.serve.entries, y.index = e.index ∧ y.prefilled = q.lane.pos + q.lane.count ∧
            y.committed = q.lane.pos + q.lane.count)))) ∧
  (∀ (s : State) (us : Nat) (e : Entry), s.val Obj.role = 1 → s.dev.serve.plan = none → s.work.atBoundary = true → onlyEntry s e → outlasts s us e →
    e.holdAsked = true → 2 ≤ e.state → e.state ≤ 4 →
    ∃ t, exec (.idleBoundary us) s = .next t ∧ ∃ x ∈ t.dev.serve.entries, x.index = e.index ∧ x.state = 5 ∧ x.resume = e.state ∧ x.hold = 1) ∧
  (∀ (s : State) (us : Nat) (d : Drain), s.val Obj.role = 1 → s.dev.serve.plan = none → d ∈ s.dev.serve.drains → d.complete = false → d.slot < 4 →
    d.deadlineUs ≤ us →
    ∃ t, exec (.drainDeadline d.slot us) s = .next t ∧ t.cmdStateOf Obj.replaceSlot = 3 ∧ (∀ x ∈ t.dev.serve.entries, x.slot = d.slot → x.live = false) ∧
      (s.dev.serve.drains = [d] → (∀ e ∈ s.dev.serve.entries, e.live = true → e.hard = false) →
        s.counted t Obj.drainsDiscarded (s.dev.serve.entries.filter (fun (e : Entry) => e.live && e.slot = d.slot)).length)) ∧
  ∀ (s : State) (us : Nat),
    (s.dev.serve.plan = none → ∃ t, exec (.commit us) s = .next t ∧ t.dev.now = us ∧ s.frame t [.now] (fun _ => False)) ∧
    (∃ t, exec (.idleBoundary us) s = .next t ∧ t.dev.now = us ∧
      (s.work.atBoundary = false ∨ (s.val Obj.role = 1 ∧ s.dev.serve.plan ≠ none) → s.frame t [.now] (fun _ => False))) ∧
    ∀ n, n < 4 → s.val Obj.role ≠ 1 ∨ s.dev.serve.plan ≠ none → ∃ t, exec (.drainDeadline n us) s = .next t ∧ t.dev.now = us ∧ s.frame t [.now] (fun _ => False)

/-- The commands of R302 to R304 with the objects they write. -/
def requestRow (c : Instr) (r : Req) (k : Key) (tenant : Nat) : Prop :=
  (c = .requestCancel r ∧ k = Obj.requestCancel tenant) ∨ (c = .requestHold r ∧ k = Obj.requestHold tenant) ∨
    (c = .requestResume r ∧ k = Obj.requestResume tenant) ∨ (c = .requestRelease r ∧ k = Obj.requestRelease tenant)

/-- REQUEST_CANCEL, REQUEST_HOLD, REQUEST_RESUME and REQUEST_RELEASE act on the request their handle names, while a step runs; away from the
manager each fails with 0x3A, and for a handle of no request of the tenant with 0x60. -/
def Obligations.RequestCommandsActOnTheirRequest : Prop :=
  ∀ (s : State) (c : Instr) (r : Req) (k : Key) (tenant h : Nat), requestRow c r k tenant → s.startsAt r k h → s.dev.rel.deviceFault = none →
    (s.val Obj.role ≠ 1 → ∃ t, exec c s = .next t ∧ s.commandFails t r k 0x3A) ∧
    (s.val Obj.role = 1 → s.work.byHandle h = none → ∃ t, exec c s = .next t ∧ s.commandFails t r k 0x60) ∧
    (∀ e, s.val Obj.role = 1 → s.dev.serve.plan ≠ none → s.work.byHandle h = some e → e.tenant = tenant →
      (k = Obj.requestHold tenant → 2 ≤ e.state → e.state ≤ 4 → ∃ t, exec c s = .next t ∧ s.commanded t r k [.serve] (fun _ => False) ∧
        ∃ x ∈ t.dev.serve.entries, x.index = e.index ∧ x.holdAsked = true ∧ x.state = e.state) ∧
      (k = Obj.requestResume tenant → e.state = 5 → e.hold = 1 → ∃ t, exec c s = .next t ∧ s.commanded t r k [.serve] (fun _ => False) ∧
        ∃ x ∈ t.dev.serve.entries, x.index = e.index ∧ x.resumeAsked = true) ∧
      (k = Obj.requestRelease tenant → e.state = 7 → e.retain = true → ∃ t, exec c s = .next t ∧ s.commanded t r k [.serve] (fun _ => False) ∧
        ∃ x ∈ t.dev.serve.entries, x.index = e.index ∧ x.releaseAsked = true) ∧
      (k = Obj.requestCancel tenant → e.terminal = false → (s.work.ring tenant).waiting = [] → ∃ t, exec c s = .next t ∧ s.acceptedAt t r k ∧
        t.cmdStateOf k = 3 ∧ s.counted t Obj.requestsCancelled 1 ∧ ∃ x ∈ t.dev.serve.entries, x.index = e.index ∧ x.state = 9))

/-- VARIANT_UNLOAD and VARIANT_PIN change the variant they name, GRAMMAR_DELETE and GLOBAL_GRAMMAR_DELETE free the ID; VARIANT_LOAD with room in
the reserve runs and orders every worker to load; TUNE_START, like each of them, fails away from the manager with 0x3A, and with a job the
group can train it starts the job. -/
def Obligations.VariantAndGrammarCommandsAct : Prop :=
  ∀ (s : State) (r : Req) (tenant arg : Nat), s.dev.rel.deviceFault = none →
    (∀ c k, (c = .variantUnload r ∧ k = Obj.variantUnload tenant) ∨ (c = .variantPin r ∧ k = Obj.variantPin) ∨
        (c = .grammarDelete r ∧ k = Obj.grammarDelete tenant) ∨ (c = .globalGrammarDelete r ∧ k = Obj.globalGrammarDelete) ∨
        (c = .tuneStart r ∧ k = Obj.tuneStart tenant) → s.startsAt r k arg → s.val Obj.role ≠ 1 →
      ∃ t, exec c s = .next t ∧ s.commandFails t r k 0x3A) ∧
    (∀ v, s.startsAt r (Obj.variantUnload tenant) arg → s.val Obj.role = 1 → s.work.loaded (field arg 13 12) (field arg 11 0) = some v → v.owner = tenant →
      ∃ t, exec (.variantUnload r) s = .next t ∧ s.commanded t r (Obj.variantUnload tenant) [.vars, .serve] (fun _ => False) ∧
        t.work.loaded (field arg 13 12) (field arg 11 0) = none ∧
        ∀ x, s.work.currentSet (field arg 13 12) (field arg 11 0) = some x → ∀ e ∈ s.dev.serve.entries, e.terminal = false → e.pin = false →
          e.frozen = false → e.slot = field arg 13 12 → e.variant = field arg 11 0 → { e with version := x.version, frozen := true } ∈ t.dev.serve.entries) ∧
    (∀ v, s.startsAt r Obj.variantPin arg → s.val Obj.role = 1 → s.work.loaded (field arg 13 12) (field arg 11 0) = some v →
      ∃ t, exec (.variantPin r) s = .next t ∧ s.commanded t r Obj.variantPin [.vars] (fun _ => False) ∧
        t.work.loaded (field arg 13 12) (field arg 11 0) = some { v with pinned := bitAt arg 16 }) ∧
    (∀ c k owner, (c = .grammarDelete r ∧ k = Obj.grammarDelete tenant ∧ owner = tenant) ∨
        (c = .globalGrammarDelete r ∧ k = Obj.globalGrammarDelete ∧ owner = 0xFFFF) → s.startsAt r k arg → s.val Obj.role = 1 →
      (∃ g ∈ s.dev.serve.grammars, g.installed = true ∧ g.owner = owner ∧ g.id = arg) →
      ∃ t, exec c s = .next t ∧ s.commanded t r k [.serve] (fun _ => False) ∧
        ∀ g ∈ t.dev.serve.grammars, g.owner = owner → g.id = arg → g.installed = false) ∧
    (∀ b slot id n, s.startsAt r (Obj.variantLoad tenant) arg → s.val Obj.role = 1 → b = s.domBytes (Obj.variantLoadRequest tenant) → b ≠ [] →
      slot = leAt b 0 1 % 4 → id = leAt b 2 2 → n = leAt b 16 8 → s.work.admission slot = 0 → s.work.loaded slot id = none → s.work.jobNames slot id = false →
      leAt b 4 4 = 0 → bitAt (leAt b 1 1) 1 = false → s.work.tenantCharged tenant + n ≤ s.val (Obj.tenantDeltaCap tenant) * 2 ^ 20 →
      s.work.charged + n ≤ s.work.reserveBytes → s.work.slotSets slot < 4096 → s.work.workers ≠ [] → s.val Obj.groupState = 2 →
      ∃ t, exec (.variantLoad r) s = .next t ∧ s.acceptedAt t r (Obj.variantLoad tenant) ∧ t.cmdStateOf (Obj.variantLoad tenant) = 2 ∧
        (∀ d ∈ s.work.workers, Output.fabric (some d) none (.order (.deltaLoad slot id tenant (leAt b 8 8) n [] false) none) ∈ t.out.drop s.out.length) ∧
        ∃ l ∈ t.dev.vars.loads, l.key = Obj.variantLoad tenant ∧ l.waiting = s.work.workers) ∧
    (∀ b slot id v base a rs, s.startsAt r (Obj.tuneStart tenant) arg → s.val Obj.role = 1 → b = s.domBytes (Obj.tuneJob tenant) → b ≠ [] →
      slot = leAt b 0 1 % 4 → id = leAt b 2 2 → s.work.admission slot = 0 → s.work.loaded slot id = some v → v.owner = tenant →
      s.work.jobNames slot id = false → (s.dev.vars.jobs.filter TuneJob.active).length < 16 → s.domBytes (Obj.tuneProgram slot) ≠ [] →
      s.work.windowSpan tenant (leAt b 16 8) (leAt b 24 8) = some a → leAt b 4 4 = 0 → s.work.currentSet slot id = some base →
      s.work.memPoisoned a (leAt b 24 8) = false → s.work.jobRecords tenant (leAt b 16 8) (leAt b 24 8) = some rs → rs ≠ [] →
      (∀ x ∈ rs, ∀ y ∈ x.tokens, y < s.work.slotVocab slot) →
      s.work.estimate s.work.tuneCost [tuneItem (programOf (s.domBytes (Obj.tuneProgram slot))) slot base.handle (maxNat (rs.map (·.length)))] ≤ s.work.targetNs →
      s.work.tenantCharged tenant + (base.bytes + 4 * base.values) ≤ s.val (Obj.tenantDeltaCap tenant) * 2 ^ 20 →
      s.work.charged + (base.bytes + 4 * base.values) ≤ s.work.reserveBytes →
      ∃ t, exec (.tuneStart r) s = .next t ∧ s.acceptedAt t r (Obj.tuneStart tenant) ∧ t.cmdStateOf (Obj.tuneStart tenant) = 2 ∧
        ∃ j ∈ t.dev.vars.jobs, j.tenant = tenant ∧ j.slot = slot ∧ j.variant = id ∧ j.state = 1 ∧ j.base = base.version ∧ j.values = base.values)

/-! ## 09: the messages of a step -/

/-- A STEP_BODY and a STEP_HEAD of its own epoch reach a worker of a formed group: the body waits for its head, the head for its body, and the
step starts once the body has the announced length and CRC. A head of another epoch is ignored. BODY_TIMEOUT asks the manager for the body once more; BODY_RESEND makes the manager send it again to the worker. -/
def Obligations.StepsStartFromHeadAndBody : Prop :=
  (∀ (s : State), s.val Obj.role = 3 → s.val Obj.groupState = 2 →
     (∀ bytes, s.dev.step.head = none → ∃ t, exec (.stepBody bytes) s = .next t ∧ t.dev.step.body = some bytes ∧ s.frame t [.step] (fun _ => False)) ∧
     (∀ bytes h, s.dev.step.head = some h → bytes.length = h.bodyLength → crc32 bytes = h.bodyCrc →
       ∃ t, exec (.stepBody bytes) s = .next t ∧ t.dev.step.running = some (h, bodyOf h bytes) ∧ t.dev.step.done = []) ∧
     (∀ h, h.epoch = s.val Obj.groupEpoch → s.dev.rel.deviceFault = none → bodyMatches h s.dev.step.body = false →
       ∃ t, exec (.stepHead h) s = .next t ∧ t.dev.step.head = some h ∧ t.dev.step.bodyFails = 0 ∧ s.frame t [.step, .group] (fun _ => False)) ∧
     (∀ h, h.epoch ≠ s.val Obj.groupEpoch → ∃ t, exec (.stepHead h) s = .next t ∧ s.frame t [] (fun _ => False))) ∧
  ((∀ (s : State) (h : StepHead), s.dev.step.head = some h → s.val Obj.groupState = 2 → s.dev.step.bodyFails = 0 →
     ∃ t, exec .bodyTimeout s = .next t ∧ t.dev.step.bodyFails = 1 ∧ t.dev.step.body = none ∧
       Output.fabric (some 0) none .bodyResend ∈ t.out.drop s.out.length ∧ s.frame t [.step, .links] linkCounter) ∧
   ∀ (s : State) (p : StepPlan) (w : Nat), s.dev.serve.plan = some p → w ∈ s.work.workers →
     ∃ t, exec (.bodyResend w) s = .next t ∧ Output.fabric (some w) none (.stepBody p.body.bytes) ∈ t.out.drop s.out.length ∧
       s.frame t [.links] linkCounter)

/-- DRAFTS, MASKS and ACCEPT reach a worker in its running step and are taken; ACCEPT of another step is ignored. -/
def Obligations.ManagerDataReachesWorkers : Prop :=
  ∀ (s : State) (h : StepHead) (b : StepBody), s.val Obj.role = 3 → s.dev.step.running = some (h, b) →
    (∀ lanes, ∃ t, exec (.drafts lanes) s = .next t ∧ t.dev.step.drafts = some lanes ∧ s.frame t [.step] (fun _ => False)) ∧
    (∀ slot rows poison, slot < 4 → ∃ t, exec (.masks slot rows poison) s = .next t ∧
      (∃ x ∈ t.dev.step.masks, x = ⟨slot, rows, poison⟩) ∧ (∀ x ∈ t.dev.step.masks, x.slot = slot → x = ⟨slot, rows, poison⟩) ∧
      s.frame t [.step] (fun _ => False)) ∧
    (∀ w ws, ∃ t, exec (.accept (w :: ws)) s = .next t ∧
      (if field w 15 0 = h.step % 65536 then t.dev.step.accept = some (s.dev.step.accept.getD [] ++ ws.take (field w 31 24))
       else s.frame t [] (fun _ => False)) ∧ s.frame t [.step] (fun _ => False))

/-- STEP_RESULT of the step in progress joins the parts at the manager: with every child's part there and the group's workers all counted the
result is complete, of the longest time, the lowest rates and every lane's poison and facet fault. A worker with its own part and its child's
sends the two up as one. FORWARDED_RECORD of a fault waits at the manager for the non-volatile store as the member sent it. -/
def Obligations.ResultsAndRecordsReachTheManager : Prop :=
  (∀ (s : State) (x own : StepResult), s.val Obj.role = 3 → s.val Obj.groupState = 2 → s.dev.step.results = [own] → own.src = s.work.ownDevice →
    x.src ≠ own.src → s.work.workingKids = [x.src] →
    ∃ t z, exec (.stepResult x) s = .next t ∧ t.dev.step.results = [] ∧ Output.fabric (some s.work.treeParent) none (.stepResult z) ∈ t.out.drop s.out.length ∧
      z.src = s.work.ownDevice ∧ z.workers = own.workers + x.workers ∧ z.dieUs = max own.dieUs x.dieUs) ∧
  ∀ (s : State), s.val Obj.role = 1 →
    (∀ x p got, s.val Obj.groupState = 2 → s.dev.serve.plan = some p → x.step = p.head.step → (∀ y ∈ p.parts, y.src ≠ x.src) →
      got = s.work.workingKids.filterMap (fun (d : Nat) => (p.parts ++ [x]).find? (fun (y : StepResult) => y.src = d)) →
      (got.length < s.work.workingKids.length → ∃ t, exec (.stepResult x) s = .next t ∧
        t.dev.serve.plan = some { p with parts := p.parts ++ [x], result := none } ∧ s.frame t [.serve] (fun _ => False)) ∧
      (got ≠ [] → got.length = s.work.workingKids.length → sumNat (got.map (·.workers)) = s.val Obj.workerCount →
        ∃ t z, exec (.stepResult x) s = .next t ∧ t.dev.serve.plan = some { p with parts := p.parts ++ [x], result := some z } ∧
          s.frame t [.serve] (fun _ => False) ∧ z.dieUs = maxNat (got.map (·.dieUs)) ∧ (∀ g ∈ got, z.engineMhz ≤ g.engineMhz ∧ z.seamGbs ≤ g.seamGbs) ∧
          ∀ (i : Nat) (y : LaneResult), z.lanes[i]? = some y → ∀ g ∈ got, ∀ w : LaneResult, g.lanes[i]? = some w → (w.poison = true → y.poison = true) ∧ (w.facetFault = true → y.facetFault = true))) ∧
    (∀ x, x.severity ≠ 0 → ∃ t, exec (.forwardedRecord x) s = .next t ∧
      ∃ y, t.dev.rel.pendingLog = s.dev.rel.pendingLog ++ [y] ∧ y.code = x.code ∧ y.device = x.device ∧ y.severity = x.severity ∧
        y.unit = x.unit ∧ y.detail = x.detail)

/-! ## 12: links, groups and the fabric -/

/-- A link that carries nothing has nobody at its other end (R378, R382). -/
def LinkDown (s t : State) (l : Nat) : Prop :=
  (t.work.link l).partner = none ∧ (t.work.link l).unacked = [] ∧ (t.work.link l).waiting = [] ∧
    (t.work.link l).state = (if s.val (Obj.linkEnable l) = 0 then 0 else if s.work.mayTrain l = true then 2 else 1)

/-- Training ends UP when all 8 lanes have locked in both directions, and FAULTED after the third failure in succession; a FAULTED link trains
again at its timer; another partner than before takes it down again, and a stopped link island sees nothing of it. LINK_ENABLE 0 disables a
link that is not ACTIVE, and is refused with BUSY of an ACTIVE one; a lost lane lock or an unanswered flit takes a link down and counts it, and
of an ACTIVE link is a group fault; the measured latency is kept; a cable's links follow it. -/
def Obligations.LinksTrainAndAreLost : Prop :=
  (∀ (s : State) (l locked ns : Nat) (rev : Bool) (q : Option Identity), l < 16 →
    ((s.work.link l).state ≠ 2 → ∃ t, exec (.linkTrainingDone l locked q ns rev) s = .next t ∧ s.frame t [] (fun _ => False)) ∧
    (s.work.islandOpen (0x98 + l) = false → ∃ t, exec (.linkTrainingDone l locked q ns rev) s = .next t ∧ s.frame t [] (fun _ => False)) ∧
    (∀ p, s.work.islandOpen (0x98 + l) = true → (s.work.link l).state = 2 → q = some p → locked % 256 = 255 → s.dev.res.load = none →
      (s.work.link l).lastSerial ≠ 0 → (s.work.link l).lastSerial ≠ p.serial →
      ∃ t, exec (.linkTrainingDone l locked q ns rev) s = .next t ∧ s.counted t (Obj.linkDownEvents l) 1 ∧ LinkDown s t l ∧
        s.frame t [.links] (fun k => k = Obj.linkDownEvents l ∨ k = Obj.linkPartner l ∨ k = Obj.linkLatencyNs l)) ∧
    (∀ p, s.work.islandOpen (0x98 + l) = true → (s.work.link l).state = 2 → q = some p → locked % 256 = 255 →
      (s.work.link l).lastSerial = 0 ∨ (s.work.link l).lastSerial = p.serial →
      ∃ t, exec (.linkTrainingDone l locked q ns rev) s = .next t ∧ (t.work.link l).state = 3 ∧ (t.work.link l).partner = some p ∧
        (t.work.link l).credits = creditsAtUp ∧ (t.work.link l).fails = 0 ∧ t.val (Obj.linkPartner l) = p.serial ∧
        t.val (Obj.linkLatencyNs l) = objValue (Obj.linkLatencyNs l) ns ∧ s.frame t [.links] (fun k => k = Obj.linkPartner l ∨ k = Obj.linkLatencyNs l)) ∧
    (s.work.islandOpen (0x98 + l) = true → (s.work.link l).state = 2 → q = none ∨ locked % 256 ≠ 255 →
      ∃ t, exec (.linkTrainingDone l locked q ns rev) s = .next t ∧ (t.work.link l).fails = (s.work.link l).fails + 1 ∧
        (t.work.link l).state = (if 3 ≤ (s.work.link l).fails + 1 then 5 else 2) ∧ s.frame t [.links] (fun _ => False)) ∧
    (∃ t, exec (.linkRetrainTimer l) s = .next t ∧
      (if (s.work.link l).state = 5 then (t.work.link l).fails = 0 ∧ LinkDown s t l ∧ s.frame t [.links] (fun k => k = Obj.linkPartner l)
       else s.frame t [] (fun _ => False))) ∧
    (∃ t, exec (.linkLatencyMeasure l ns) s = .next t ∧ (t.work.link l).replaysSec = 0 ∧
      ((s.work.link l).carries = true → t.val (Obj.linkLatencyNs l) = objValue (Obj.linkLatencyNs l) ns) ∧
      (s.val Obj.linkReplayLimit = 0 → s.frame t [.links] (fun k => k = Obj.linkLatencyNs l)))) ∧
  (∀ (s : State) (r : Req) (row : Row) (l v : Nat), l < 16 → s.grantsAt { r with sub := l + 1 } row (Obj.linkEnable l) v → v < 2 →
    ((s.work.link l).state = 4 → v ≠ s.val (Obj.linkEnable l) → ∃ t, exec (.linkEnable { r with sub := l + 1 }) s = .next t ∧
      s.refusedWith t 2 (reqAt { r with sub := l + 1 } (Obj.linkEnable l).index (l + 1)) 8 (s.val Obj.powerState) ∧
      s.frame t [.dict, .links] (fun k => answerKey k ∨ k = Obj.requestsRefused)) ∧
    ((s.work.link l).state ≠ 4 → v ≠ s.val (Obj.linkEnable l) → s.dev.res.load = none →
    ∃ t, exec (.linkEnable { r with sub := l + 1 }) s = .next t ∧ s.acceptedAt t { r with sub := l + 1 } (Obj.linkEnable l) ∧
      t.val (Obj.linkEnable l) = v ∧ (v = 0 → (t.work.link l).state = 0) ∧ (t.work.link l).partner = none ∧
      s.frame t [.dict, .links] (fun k => k = Obj.linkEnable l ∨ k = Obj.linkPartner l ∨ answerKey k))) ∧
  (∀ (s : State) (c : Instr) (l : Nat), l < 16 → (∃ lane, lane < 8 ∧ c = .laneLockLoss l lane) ∨ c = .flitTimeout l → s.dev.res.load = none →
    (s.work.link l).state = 3 ∨ ((s.work.link l).state = 4 ∧ s.val Obj.groupState ≠ 2) →
    ∃ t, exec c s = .next t ∧ s.counted t (Obj.linkDownEvents l) 1 ∧ LinkDown s t l ∧
      s.frame t [.links] (fun k => k = Obj.linkDownEvents l ∨ k = Obj.linkPartner l)) ∧
  (∀ (s : State) (c : Instr) (l : Nat) (p : Identity), l < 16 → (∃ lane, lane < 8 ∧ c = .laneLockLoss l lane) ∨ c = .flitTimeout l →
    s.dev.res.load = none → (s.work.link l).state = 4 → (s.work.link l).partner = some p → s.val Obj.groupState = 2 → s.val Obj.role = 3 →
    s.work.idOfSerial p.serial ≠ 1 →
    ∃ t, exec c s = .next t ∧ s.counted t (Obj.linkDownEvents l) 1 ∧ LinkDown s t l ∧ s.counted t Obj.groupFaults 1 ∧ t.val Obj.groupState = 3) ∧
  ∀ (s : State) (c : Nat), 2 ≤ c → c ≤ 5 →
    (∃ t, exec (.cableInsert c) s = .next t ∧ (∀ m, m < 4 → (t.work.link (4 * (c - 2) + m)).cable = true) ∧
      s.frame t [.links] (fun k => k.index = (Obj.linkPartner 0).index)) ∧
    (s.dev.res.load = none → s.val Obj.groupState ≠ 2 ∨ (∀ m, m < 4 → (s.work.link (4 * (c - 2) + m)).state ≠ 4) →
      ∃ t, exec (.cableRemove c) s = .next t ∧ s.frame t [.links] (fun k => k.index = (Obj.linkPartner 0).index ∨ k.index = (Obj.linkDownEvents 0).index) ∧
        ∀ m l, m < 4 → l = 4 * (c - 2) + m → (t.work.link l).cable = false ∧
          ((s.work.link l).state = 3 ∨ (s.work.link l).state = 4 → s.counted t (Obj.linkDownEvents l) 1 ∧ (t.work.link l).partner = none) ∧
          ((s.work.link l).state ≤ 5 → (t.work.link l).state ≤ 1))

/-- A DATA flit that is intact and expected is taken and counted; one that is not is discarded, and the first of a run is answered with NAK. A NULL
flit returns credits and acknowledges. NAK makes the transmitter send again what is not acknowledged, and counts. A link that carries nothing
takes no flit, nor does one whose island is stopped. -/
def Obligations.FlitsAreTakenOrAskedForAgain : Prop :=
  ∀ (s : State) (l : Nat) (f : Flit), l < 16 →
    ((s.work.link l).carries = false ∨ s.work.islandOpen (0x98 + l) = false →
      (∃ t, exec (.dataFlit l f) s = .next t ∧ s.frame t [] (fun _ => False)) ∧ (∃ t, exec (.nullFlit l f) s = .next t ∧ s.frame t [] (fun _ => False)) ∧
        ∃ t, exec (.nak l f.ack) s = .next t ∧ s.frame t [] (fun _ => False)) ∧
    ((s.work.link l).carries = true → s.work.islandOpen (0x98 + l) = true →
      (f.crcOk = true → f.seq % 1024 = (s.work.link l).expect → ∃ t, exec (.dataFlit l f) s = .next t ∧
        (t.work.link l).expect = ((s.work.link l).expect + 1) % 1024 ∧ (t.work.link l).nakSent = false ∧ s.counted t (Obj.linkRxBytes l) 64 ∧
        s.frame t [.links] (fun k => k = Obj.linkRxBytes l ∨ k = Obj.linkTxBytes l)) ∧
      (f.crcOk = false → ∃ t, exec (.dataFlit l f) s = .next t ∧ s.counted t (Obj.linkCrcErrors l) 1 ∧
        (t.work.link l).expect = (s.work.link l).expect ∧ (t.work.link l).nakSent = true ∧
        ((s.work.link l).nakSent = false → Output.fabric none (some l) (.nak (((s.work.link l).expect + 1023) % 1024)) ∈ t.out.drop s.out.length) ∧
        s.frame t [.links] (fun k => k = Obj.linkCrcErrors l)) ∧
      (f.crcOk = true → f.seq % 1024 ≠ (s.work.link l).expect → ∃ t, exec (.dataFlit l f) s = .next t ∧
        (t.work.link l).expect = (s.work.link l).expect ∧ (t.work.link l).nakSent = true ∧ s.frame t [.links] (fun k => k = Obj.linkTxBytes l)) ∧
      (f.crcOk = false → ∃ t, exec (.nullFlit l f) s = .next t ∧ s.counted t (Obj.linkCrcErrors l) 1 ∧ s.frame t [] (fun k => k = Obj.linkCrcErrors l)) ∧
      (f.crcOk = true → ∃ t, exec (.nullFlit l f) s = .next t ∧ (t.work.link l).expect = (s.work.link l).expect ∧
        ((s.work.link l).waiting = [] → (t.work.link l).credits = (s.work.link l).credits.modify (f.crVl % 4) (· + f.crCnt % 8)) ∧
        s.frame t [.links] (fun k => k = Obj.linkTxBytes l)) ∧
      ((∀ p ∈ (s.work.link l).unacked, p.2 < 7) → ∃ t, exec (.nak l f.ack) s = .next t ∧
        s.counted t (Obj.linkReplays l) 1 ∧ (t.work.link l).state = (s.work.link l).state ∧
        ((s.work.link l).acked f.ack).unacked.map (fun p => (p.1, p.2 + 1)) <+: (t.work.link l).unacked ∧
        s.frame t [.links] (fun k => k = Obj.linkReplays l ∨ k = Obj.linkTxBytes l)))

/-- The manager sends HEARTBEAT when its timer runs out; a member passes it to its children, and a worker without any answers it up the tree; the
answer of every worker ends the wait. A result that does not come is a group fault; a notice of the epoch in force faults the group once, or
dissolves it, and one of another epoch is ignored. MEMBERSHIP of a later epoch makes a device outside a group a member. -/
def Obligations.GroupsBeatAndFail : Prop :=
  (∀ s : State,
    (s.val Obj.role = 1 → s.val Obj.groupState = 2 → ∃ t, exec .heartbeatTimer s = .next t ∧ t.dev.group.heartbeatOut = true ∧ t.dev.group.acks = [] ∧
      Output.fabric none none (.heartbeat (1000 * s.val Obj.heartbeatUs)) ∈ t.out.drop s.out.length ∧ s.frame t [.group, .links] linkCounter) ∧
    (s.val Obj.role ≠ 1 ∨ s.val Obj.groupState ≠ 2 → (∃ t, exec .heartbeatTimer s = .next t ∧ s.frame t [] (fun _ => False)) ∧
      ∃ t, exec .stepResultTimeout s = .next t ∧ s.frame t [] (fun _ => False)) ∧
    (∀ src ns, s.val Obj.role ≠ 1 → s.val Obj.groupState = 2 → ∃ t, exec (.heartbeat src ns) s = .next t ∧ t.dev.group.heard = true ∧
      (∀ d ∈ s.work.treeChildren, ∃ b, b ≤ ns ∧ Output.fabric (some d) none (.heartbeat b) ∈ t.out.drop s.out.length) ∧
      (s.work.workingKids ≠ [] → t.dev.group.heartbeatOut = true ∧ t.dev.group.acks = []) ∧
      (s.val Obj.role = 3 → s.work.workingKids = [] → t.dev.group.heartbeatOut = false ∧
        Output.fabric (some s.work.treeParent) none (.heartbeatAck 1) ∈ t.out.drop s.out.length) ∧
      s.frame t [.group, .links] (fun k => k = Obj.budgetMessages ∨ linkCounter k)) ∧
    (∀ src n acks, s.val Obj.role = 1 → s.val Obj.groupState = 2 → s.dev.group.heartbeatOut = true → acks = put s.dev.group.acks src n →
      ∃ t, exec (.heartbeatAck src n) s = .next t ∧ s.frame t [.group] (fun _ => False) ∧
        (if (∀ d ∈ s.work.workingKids, ∃ p ∈ acks, p.1 = d) ∧ sumNat (acks.map (·.2)) = s.val Obj.workerCount then
          t.dev.group.heartbeatOut = false ∧ t.dev.group.acks = []
         else t.dev.group.heartbeatOut = true ∧ t.dev.group.acks = acks))) ∧
  (∀ s : State, s.val Obj.role = 1 → s.val Obj.groupState = 2 → s.dev.group.heartbeatOut = true ∨ (∃ p, s.dev.serve.plan = some p ∧ p.result = none) →
    ∃ t, exec .stepResultTimeout s = .next t ∧ s.counted t Obj.groupFaults 1 ∧ t.dev.serve.plan = none ∧ (s.val Obj.autoReform = 0 → t.val Obj.groupState = 3) ∧
      t.val Obj.lastGroupFault = 4 + 256 * 0xFF + 65536 * 0xFF + 2 ^ 24 * s.work.ownDevice + 2 ^ 32 * s.val Obj.groupEpoch) ∧
  (∀ (s : State) (n : Notice),
    (s.val Obj.groupState ≠ 2 ∨ n.epoch ≠ s.val Obj.groupEpoch → ∃ t, exec (.faultNotice n) s = .next t ∧ s.frame t [] (fun _ => False)) ∧
    (s.val Obj.groupState = 2 → n.epoch = s.val Obj.groupEpoch → s.val Obj.role ≠ 1 ∨ s.val Obj.autoReform = 0 ∨ n.cause = 9 →
      ∃ t, exec (.faultNotice n) s = .next t ∧ s.counted t Obj.groupFaults 1 ∧ t.dev.step.running = none ∧ t.mem = s.mem ∧
        (n.cause ≠ 9 → t.val Obj.groupState = 3) ∧ (n.cause = 9 → t.val Obj.groupState = 0 ∧ t.val Obj.role = 0 ∧ t.val Obj.deviceId = 254) ∧
        t.val Obj.lastGroupFault = n.cause + 256 * n.device + 65536 * n.link + 2 ^ 24 * n.src + 2 ^ 32 * n.epoch)) ∧
  ∀ (s : State) (x : Membership),
    (s.val Obj.groupState = 2 ∨ x.epoch ≤ s.val Obj.groupEpoch → ∃ t, exec (.membership x) s = .next t ∧ s.frame t [] (fun _ => False)) ∧
    (s.val Obj.groupState ≠ 2 → s.val Obj.groupEpoch < x.epoch → ∃ t, exec (.membership x) s = .next t ∧ t.val Obj.role = x.role ∧
      t.val Obj.deviceId = x.deviceId ∧ t.val Obj.groupEpoch = x.epoch ∧ t.val Obj.groupState = 2 ∧ t.val Obj.workerCount = x.workers ∧
      t.dev.group.membership = some x ∧ t.mem = s.mem)

/-- The identity of a device names somebody it has not heard from: a formation waits (R389; assumption log 17). -/
def awaitsReply (s : State) : Prop := ∃ p ∈ (s.work.identity 0).partners, p.2.1 ≠ s.ident.serial

/-- PROBE is answered on its link and goes on once; PROBE_REPLY joins those a formation has, and elsewhere goes back the way of the probe. GROUP_FORM
begins a formation, which waits for its partners and without any forms a group of one, or fails with the reason; GROUP_DISSOLVE at a manager
returns it to ROLE NONE, of a formed group by a group fault, and fails elsewhere; MIRROR_RELEASE empties the table. MANAGER_TIMEOUT is noted,
and a standby that no worker contradicts takes over.
(How often a PROBE goes on and when a formation has every reply are the model's choices, assumption logs 34 and 17.) -/
def Obligations.GroupsFormAndDissolve : Prop :=
  (∀ (s : State) (src l epoch : Nat), l < 16 →
    ∃ t, exec (.probe src l epoch) s = .next t ∧ Output.fabric none (some l) (.probeReply (s.work.identity l)) ∈ t.out.drop s.out.length ∧
      (s.dev.group.probed = none → t.dev.group.probed = some (epoch, l)) ∧
      (∀ l', s.dev.group.probed = some (epoch, l') → l' ≠ l → s.frame t [.links] linkCounter) ∧ s.frame t [.group, .links] linkCounter) ∧
  (∀ (s : State) (x : Identity) (l : Nat),
    (s.dev.group.forming = none → s.dev.group.probed = none → ∃ t, exec (.probeReply x l) s = .next t ∧ s.frame t [] (fun _ => False)) ∧
    (∀ e m, s.dev.group.forming = none → s.dev.group.probed = some (e, m) → ∃ t, exec (.probeReply x l) s = .next t ∧
      Output.fabric none (some m) (.probeReply x) ∈ t.out.drop s.out.length ∧ s.frame t [.links] linkCounter) ∧
    (∀ f, s.dev.group.forming = some f → x.serial ≠ s.ident.serial → (∀ y ∈ f.found, y.serial ≠ x.serial) →
      (∃ q ∈ x.partners, q.2.1 ≠ s.ident.serial ∧ q.2.1 ≠ x.serial ∧ ∀ y ∈ f.found, y.serial ≠ q.2.1) →
      ∃ t, exec (.probeReply x l) s = .next t ∧ t.dev.group.forming = some { f with found := f.found ++ [x] } ∧ s.frame t [.group] (fun _ => False))) ∧
  (∀ (s : State) (r : Req) (arg : Nat), s.startsAt r Obj.groupForm arg →
    (∀ res, s.work.formRefusal = some res → ∃ t, exec (.groupForm r) s = .next t ∧ s.commandFails t r Obj.groupForm res) ∧
    (s.work.formRefusal = none → awaitsReply s → ∃ t, exec (.groupForm r) s = .next t ∧ s.acceptedAt t r Obj.groupForm ∧ t.cmdStateOf Obj.groupForm = 2 ∧
      t.val Obj.groupState = 1 ∧ t.dev.group.forming = some ⟨s.val Obj.groupEpoch, [], false, true, s.val Obj.groupState⟩ ∧
      s.frame t [.dict, .links, .group] (fun k => k = Obj.groupForm ∨ k = Obj.groupState ∨ answerKey k)) ∧
    (s.work.formRefusal = none → (s.work.identity 0).partners = [] → s.domBytes Obj.groupPlan = [] → ∃ t, exec (.groupForm r) s = .next t ∧
      s.acceptedAt t r Obj.groupForm ∧ t.cmdStateOf Obj.groupForm = 3 ∧ t.val Obj.groupState = 2 ∧ t.val Obj.role = 1 ∧ t.val Obj.deviceId = 0 ∧
      t.val Obj.groupEpoch = s.val Obj.groupEpoch + 1 ∧ t.val Obj.workerCount = 0)) ∧
  (∀ (s : State) (r : Req) (arg : Nat), s.startsAt r Obj.groupDissolve arg →
    (s.val Obj.role = 1 → s.val Obj.groupState = 2 → ∃ t, exec (.groupDissolve r) s = .next t ∧ s.acceptedAt t r Obj.groupDissolve ∧
      t.cmdStateOf Obj.groupDissolve = 3 ∧ s.counted t Obj.groupFaults 1 ∧ t.val Obj.role = 0 ∧ t.val Obj.deviceId = 254 ∧ t.val Obj.groupState = 0) ∧
    (s.val Obj.role ≠ 1 → ∃ t, exec (.groupDissolve r) s = .next t ∧ s.commandFails t r Obj.groupDissolve 0x3A) ∧
    (s.val Obj.role = 1 → s.val Obj.groupState ≠ 2 → ∃ t, exec (.groupDissolve r) s = .next t ∧ t.val Obj.role = 0 ∧ t.val Obj.deviceId = 254 ∧
      t.val Obj.groupState = 0 ∧ s.commanded t r Obj.groupDissolve [.group] (fun k => k = Obj.role ∨ k = Obj.deviceId ∨ k = Obj.groupState ∨
        k = Obj.groupMembers ∨ k = Obj.workerCount))) ∧
  (∀ (s : State) (r : Req) (arg : Nat), s.startsAt r Obj.mirrorRelease arg → ∃ t, exec (.mirrorRelease r) s = .next t ∧
    s.commanded t r Obj.mirrorRelease [.doms] (fun _ => False) ∧ t.domBytes Obj.mirrorTable = []) ∧
  ∀ (s : State),
    (∀ hear, s.val Obj.role ≠ 2 ∨ hear = true → ∃ t, exec (.managerTimeout hear) s = .next t ∧ t.dev.group.heard = false ∧ s.frame t [.group] (fun _ => False)) ∧
    (s.val Obj.role = 2 → 2 ≤ s.val Obj.groupState → s.val Obj.takeoverEnable = 1 → ∃ t, exec (.managerTimeout false) s = .next t ∧
      s.counted t Obj.takeovers 1 ∧ t.domBytes Obj.mirrorTable = mirrorTableOf s.dev.group.mirror ∧ (awaitsReply s → t.val Obj.groupState = 1))

/-- DICT_REQUEST of a READ is served at a worker and answered to the manager; DICT_RESPONSE answers the request that awaits it, and one that none
awaits has no effect. Orders reach workers, those of power and dissolution the standby as well, reports the manager, MIRROR the standby;
elsewhere each has no effect. -/
def Obligations.FabricMessagesReachTheirMember : Prop :=
  (∀ (s : State) (r q : Req) (row : Row) (k : Key), q = { r with origin := ⟨.fabric, 0⟩ } → s.takes 1 q → s.work.lookup q = some (row, k) →
    row.access ≠ .wo → row.ty ≠ .domain → s.work.readState r.index = none → r.payload = [] → islandServes s r →
    ∃ t, exec (.dictRequest 1 r) s = .next t ∧
      Output.fabric (some 0) none (.dictResponse 0x81 r.tag 0 0 (s.work.readValue q.origin row k)) ∈ t.out.drop s.out.length ∧
      s.frame t [.dict, .links] answerKey) ∧
  (∀ (s : State) (op tag src status detail : Nat) (payload : List Byte),
    ((∀ f ∈ s.dev.dict.forwarded, src ∉ f.waiting ∨ f.req.tag ≠ tag ∨ (f.opcode ||| 0x80) ≠ op) →
      ∃ t, exec (.dictResponse op tag src status detail payload) s = .next t ∧ s.frame t [] (fun _ => False)) ∧
    (∀ f rest, s.dev.dict.forwarded = f :: rest → src ∈ f.waiting → f.req.tag = tag → (f.opcode ||| 0x80) = op → f.req.target ≠ 255 →
      f.req.origin.path ≠ .fabric →
      ∃ t, exec (.dictResponse op tag src status detail payload) s = .next t ∧ t.dev.dict.forwarded = rest ∧
        Output.response f.req.origin op tag src status f.req.index f.req.sub (reqWord9 f.req) detail payload ∈ t.out.drop s.out.length ∧
        s.frame t [.dict] (fun x => x = Obj.requestsServed ∨ x = Obj.requestsRefused))) ∧
  (∀ (s : State) (o : OrderKind),
    (s.val Obj.role = 0 ∨ s.val Obj.role = 1 → ∃ t, exec (.order o) s = .next t ∧ s.frame t [] (fun _ => False)) ∧
    (∀ n us, s.val Obj.role = 3 → ∃ t, exec (.order (.pause n us)) s = .next t ∧ n ∈ t.dev.res.paused ∧ n ∉ t.dev.res.pauseAsked ∧
      s.frame t [.res] (fun _ => False)) ∧
    (∀ n, s.val Obj.role = 3 → s.val (Obj.slotState n) = 3 → ∃ t, exec (.order (.drain n)) s = .next t ∧ t.val (Obj.slotState n) = 4 ∧
      s.frame t [.links] (fun k => k = Obj.slotState n ∨ linkCounter k)) ∧
    (∀ n kind, s.val Obj.role = 3 → s.val (Obj.slotState n) = 4 → kind ≠ 0 → ∃ t, exec (.order (.drainComplete n kind)) s = .next t ∧
      t.val (Obj.slotState n) = 3 ∧ n ∈ t.dev.res.awaiting ∧ s.frame t [.links, .res] (fun k => k = Obj.slotState n ∨ linkCounter k)) ∧
    (∀ n, s.val Obj.role = 3 → s.val (Obj.slotState n) = 4 → ∃ t, exec (.order (.drainComplete n 0)) s = .next t ∧ t.val (Obj.slotState n) = 0) ∧
    (s.val Obj.role = 3 ∨ s.val Obj.role = 2 → ∃ t, exec (.order .dissolve) s = .next t ∧ t.val Obj.role = 0 ∧ t.val Obj.deviceId = 254 ∧
      t.val Obj.groupState = 0) ∧
    (s.val Obj.role = 2 → (∀ n, o ≠ .power n) → o ≠ .dissolve → ∃ t, exec (.order o) s = .next t ∧ s.frame t [] (fun _ => False)) ∧
    (∀ n v ver h c, s.val Obj.role = 3 → s.dev.vars.checked = [c] → c.slot = n → c.variant = v →
      ∃ t, exec (.order (.deltaInstall n v ver h)) s = .next t ∧ t.dev.vars.checked = [] ∧ (∃ x ∈ t.dev.vars.held, x.handle = h ∧ x.slot = n ∧
        x.variant = v ∧ x.version = ver ∧ x.part = c.part) ∧ s.frame t [.vars] (fun k => k = Obj.deltaCrossBytes)) ∧
    (∀ n v h, s.val Obj.role = 3 → ∃ t, exec (.order (.deltaDrop n v h)) s = .next t ∧ (∀ x ∈ t.dev.vars.held, x.handle ≠ h) ∧
      s.frame t [.vars] (fun _ => False))) ∧
  (∀ (s : State) (w : Nat),
    (∀ x, s.val Obj.role ≠ 1 ∨ w ∉ s.work.workers → ∃ t, exec (.orderReport w x) s = .next t ∧ s.frame t [] (fun _ => False)) ∧
    (∀ h, s.val Obj.role = 1 → w ∈ s.work.workers → ∃ t, exec (.orderReport w (.setPoisoned h)) s = .next t ∧
      t.dev.serve.badSets = s.dev.serve.badSets ++ [h] ∧ s.frame t [.serve] (fun _ => False)) ∧
    (∀ n m, s.val Obj.role = 1 → w ∈ s.work.workers → s.dev.serve.plan ≠ none → ∃ t, exec (.orderReport w (.pauseAsked n m)) s = .next t ∧
      t.dev.serve.pauses = s.dev.serve.pauses ++ [⟨n, w, m, false, 0⟩] ∧ s.frame t [.serve] (fun _ => False)) ∧
    (∀ n st d b v ds ps vo k p sh sets, s.val Obj.role = 1 → w ∈ s.work.workers → s.dev.serve.plan ≠ none →
      ∃ t, exec (.orderReport w (.slotState n st d b v ds ps vo k p sh sets)) s = .next t ∧
        (∀ x ∈ t.dev.serve.held, x.worker = w → x.slot = n → x = ⟨w, n, st, d, b, v, ds, ps, vo, k, p, sh, sets⟩) ∧
        ⟨w, n, st, d, b, v, ds, ps, vo, k, p, sh, sets⟩ ∈ t.dev.serve.held ∧ s.frame t [.serve, .doms] (fun _ => False)) ∧
    (∀ rs, s.val Obj.role ≠ 1 ∨ w ∉ s.work.workers → ∃ t, exec (.sweepRecords w rs) s = .next t ∧ s.frame t [] (fun _ => False)) ∧
    (∀ rs, s.val Obj.role = 1 → w ∈ s.work.workers → ∃ t, exec (.sweepRecords w rs) s = .next t ∧
      t.dev.rel.slotDigests = s.dev.rel.slotDigests.filter (fun x => decide (x.1 ≠ w)) ++ rs.map (fun r => (w, r.slot, r)) ∧
      s.frame t [.rel, .doms] (fun _ => False))) ∧
  ∀ (s : State) (x : MirrorMsg),
    (s.val Obj.role ≠ 2 ∨ s.val Obj.groupState ≠ 2 → ∃ t, exec (.mirror x) s = .next t ∧ s.frame t [] (fun _ => False)) ∧
    (s.val Obj.role = 2 → s.val Obj.groupState = 2 → ∃ t, exec (.mirror x) s = .next t ∧ t.dev.group.heard = true ∧
      t.dev.group.mirror = x.entries.foldl (fun m e => put m e.1 e.2) s.dev.group.mirror ∧
      t.dev.serve.grammars = x.grammars.map (fun g => ⟨g.serial, g.owner, g.id, g.installed, g.bad, g.image⟩) ∧ t.mem = s.mem)

/-! ## 13: host ports and rings -/

/-- No DMA channel belongs to an owner. -/
def noChannels (s : State) (owner : Nat) : Prop := ∀ c, c < 32 → s.work.dmaOwner c ≠ owner

/-- A reset of a port counts, takes its virtual functions, returns its function's window to reset and takes the link down, but for a reset of the
function alone; LINK_UP and PERST_RELEASE bring the port back; VF_ENABLE_CHANGE that adds functions disturbs none; a function-level reset of a
tenant empties its rings and its window and ends its requests. An access outside every window counts and has no other effect. -/
def Obligations.PortsResetAndTrain : Prop :=
  (∀ (s : State) (p kind : Nat) (c : Instr), p < 2 → kind < 4 → c = .portReset p kind ∨ (kind = 3 ∧ c = .functionLevelReset p 0) →
    ∃ t, exec c s = .next t ∧ s.counted t (Obj.portResets p) 1 ∧ t.work.window ⟨p, 0⟩ = Window.reset ∧ (t.work.port p).vfs = 0 ∧
      t.val (Obj.vfsEnabled p) = 0 ∧ (kind ≠ 3 → (t.work.port p).linkUp = false) ∧ (kind = 0 → (t.work.port p).perst = true) ∧
      (kind = 3 → (t.work.port p).linkUp = (s.work.port p).linkUp) ∧
      ((s.work.port p).vfs = 0 → noChannels s (0x400 + p) → t.mem = s.mem)) ∧
  (∀ (s : State) (p n : Nat), p < 2 →
    (n ≤ 512 → ∃ t, exec (.vfEnableChange p n) s = .next t ∧ (t.work.port p).vfs = n ∧ t.val (Obj.vfsEnabled p) = n ∧
      ((s.work.port p).vfs ≤ n → s.frame t [.host] (fun k => k = Obj.vfsEnabled p))) ∧
    (∀ speed width flit, 1 ≤ speed → speed ≤ 6 → width ∈ [1, 2, 4, 8] → ∃ t, exec (.linkUp p speed width flit) s = .next t ∧
      (if (s.work.port p).perst = true then s.frame t [] (fun _ => False)
       else t.work.port p = { s.work.port p with speed := speed, width := width, flit := flit, linkUp := true } ∧ s.frame t [.host] (fun _ => False))) ∧
    (s.dev.power.pwrgd = true → (s.work.port p).perst = true → s.val Obj.powerState ≠ 4 → ∃ t, exec (.perstRelease p) s = .next t ∧
      t.work.port p = { s.work.port p with perst := false } ∧ s.frame t [.host] (fun _ => False)) ∧
    (n < (s.work.port p).vfs → n < 512 → ∃ t, exec (.functionLevelReset p (n + 1)) s = .next t ∧ t.work.ring (512 * p + n) = Ring.reset ∧
        t.work.window ⟨p, n + 1⟩ = Window.reset ∧ (∀ e ∈ t.dev.serve.entries, e.tenant = 512 * p + n → e.live = false) ∧
        (noChannels s (512 * p + n) → t.mem = s.mem))) ∧
  ∀ (s : State) (isRead : Bool), ∃ t, exec (.unmappedAccess isRead) s = .next t ∧ s.counted t Obj.unmappedAccesses 1 ∧
    s.frame t [] (fun k => k = Obj.unmappedAccesses)

/-- RING_ENABLE from 0 to 1 starts a tenant's sequence state anew; CQ_HEAD makes room while the rings are enabled; CQ_IRQ_TIMER raises the completion
vector of records that have not been told of. A released window's backing reads zeros once its zeroing is done, and no other byte changes. -/
def Obligations.RingsAndWindowsFollowTheHost : Prop :=
  (∀ (s : State) (r : Req) (row : Row) (n v : Nat), s.grantsAt r row (Obj.ringEnable n) v → v < 2 → s.work.ringEnableRefused n v = false →
    s.work.resting 0x9100 = false →
    ∃ t, exec (.ringEnable r) s = .next t ∧ s.acceptedAt t r (Obj.ringEnable n) ∧ t.val (Obj.ringEnable n) = v ∧
      ((s.work.ring n).waiting = [] →
        (v = 1 → s.val (Obj.ringEnable n) = 0 → t.work.ring n = { Ring.reset with reserved := (s.work.ring n).reserved }) ∧
        s.frame t [.dict, .links, .host] (fun k => k = Obj.ringEnable n ∨ answerKey k))) ∧
  (∀ (s : State) (n v : Nat), s.work.tenantExists n = true →
    (v < 2 ^ 32 → s.val (Obj.ringEnable n) = 0 → ∃ t, exec (.cqHead n v) s = .next t ∧ s.frame t [] (fun _ => False)) ∧
    (v < 2 ^ 32 → s.val (Obj.ringEnable n) ≠ 0 → ∃ t, exec (.cqHead n v) s = .next t ∧ (t.work.ring n).cqHead = v ∧
      ((s.work.ring n).waiting = [] → (s.work.ring n).aperture = [] → s.val Obj.role ≠ 1 → s.frame t [.host] (fun _ => False))) ∧
    (∃ t, exec (.cqIrqTimer n) s = .next t ∧
      (if (s.work.ring n).timer = true ∧ s.val (Obj.cqIrqUs n) ≠ 0 then
         Output.msix (tenantPort n) (tenantFn n) 0 ∈ t.out.drop s.out.length ∧ (t.work.ring n).timer = false ∧ (t.work.ring n).sinceIrq = 0
       else s.frame t [] (fun _ => False)) ∧ s.frame t [.host] (fun _ => False))) ∧
  ∀ (s : State) (base len : Nat) (rest : List (Nat × Nat)), s.mem.wf = true → s.dev.host.zeroing = (base, len) :: rest →
    ∃ t, exec (.windowZeroingDone base) s = .next t ∧ t.dev.host.zeroing = rest ∧ (∀ a, base ≤ a → a < base + len → t.byteAt a = 0) ∧
      (∀ a, a < base ∨ base + len ≤ a → t.byteAt a = s.byteAt a) ∧ s.frame t [.mem, .host] (fun _ => False)

/-! ## 14 to 16: DMA, scrub, sweeps, checks and tests -/

/-- DMA_ASSIGN gives a channel to its new owner; DMA_GO starts the slot, or queues it behind the one that runs; SCRUB_NOW and SWEEP_NOW start a
pass; SWEEP ends one, with a record of every group that a READY or DRAINING slot has. TEST_NOW asks for a core's test and fails for an absent
core; TEST_DUE, TEST_COMPLETE and TEST_OVERDUE keep the test's record: a first failure of a kernel resets the core and runs the test again, a
second is device-fatal. -/
def Obligations.PassesAndTestsRun : Prop :=
  (∀ (s : State) (r : Req) (row : Row) (c v : Nat), s.grants (reqAt r 0x9810 r.sub) row (Obj.dmaAssign c) v → row.min ≤ v → v ≤ row.max →
    s.work.valueRefused r.origin (Obj.dmaAssign c) v = none →
    ∃ t, exec (.dmaAssign r) s = .next t ∧ s.accepted t 2 (seen 2 (reqAt r 0x9810 r.sub)) ∧ t.val (Obj.dmaAssign c) = v) ∧
  (∀ (s : State) (r : Req) (c slot arg : Nat), slot < 2 → s.starts (reqAt r (if r.index = 0x9814 then 0x9814 else 0x9813) r.sub) (dmaGoKey c slot) arg →
    ∃ t, exec (.dmaGo r) s = .next t ∧
      (if (s.work.dmaChan c).running = none then
         t.cmdStateOf (dmaGoKey c slot) = 2 ∧ (t.work.dmaChan c).running = some (slot, dmaDescOf (s.domBytes (dmaDescKey c slot)))
       else t.cmdStateOf (dmaGoKey c slot) = 1 ∧ (t.work.dmaChan c).queued = some (slot, dmaDescOf (s.domBytes (dmaDescKey c slot)))) ∧
      s.frame t [.dict, .links, .dma] (fun k => k = dmaGoKey c slot ∨ answerKey k)) ∧
  (∀ (s : State) (r : Req) (arg : Nat),
    (s.startsAt r Obj.scrubNow arg → ∃ t, exec (.scrubNow r) s = .next t ∧ s.acceptedAt t r Obj.scrubNow ∧ t.cmdStateOf Obj.scrubNow = 2 ∧
      t.val Obj.scrubProgress = 0 ∧ t.dev.dram.scrubDone = [] ∧
      s.frame t [.dict, .links, .dram] (fun k => k = Obj.scrubNow ∨ k = Obj.scrubProgress ∨ answerKey k)) ∧
    (s.startsAt r Obj.sweepNow arg → ∃ t, exec (.sweepNow r) s = .next t ∧ s.acceptedAt t r Obj.sweepNow ∧ t.cmdStateOf Obj.sweepNow = 2 ∧
      t.dev.rel.sweeping = true ∧ s.frame t [.dict, .links, .rel] (fun k => k = Obj.sweepNow ∨ answerKey k)) ∧
    (s.startsAt r Obj.testNow arg → goodCore s.ident arg = false → ∃ t, exec (.testNow r) s = .next t ∧ s.commandFails t r Obj.testNow 0xB1) ∧
    (s.startsAt r Obj.testNow arg → goodCore s.ident arg = true → ∃ t, exec (.testNow r) s = .next t ∧ s.acceptedAt t r Obj.testNow ∧
      t.cmdStateOf Obj.testNow = 1 ∧ (t.work.coreTest arg).requested = true ∧
      s.frame t [.dict, .links, .rel] (fun k => k = Obj.testNow ∨ answerKey k))) ∧
  (∀ (s : State) (reads : List SweepRead), ∃ t, exec (.sweep reads) s = .next t ∧ s.counted t Obj.sweepPasses 1 ∧ t.val Obj.sweepProgress = 0 ∧
    t.dev.rel.sweeping = false ∧ (s.work.cmdBusy Obj.sweepNow = true → t.cmdStateOf Obj.sweepNow = 3) ∧
    (∀ g ∈ s.work.sweptGroups, ∃ r ∈ t.dev.rel.sweepRecs, r.core = g.1 ∧ r.slot = g.2) ∧
    (s.work.sweptGroups = [] →
      s.frame t [.rel, .doms, .links] (fun k => k = Obj.sweepPasses ∨ k = Obj.sweepProgress ∨ k = Obj.sweepNow ∨ linkCounter k))) ∧
  ∀ (s : State) (c : Nat), goodCore s.ident c = true →
    (∃ t, exec (.testDue c) s = .next t ∧
      (if s.val Obj.testEnable ≠ 0 ∧ s.val Obj.powerState < 2 then (t.work.coreTest c).dueIn ≤ 0 ∧ s.frame t [.rel] (fun _ => False)
       else s.frame t [] (fun _ => False))) ∧
    (∀ failed spare rows bad, (s.work.coreTest c).running = true → bad = failed.filter (fun (k : Nat) => 1 ≤ k && k ≤ 5) →
      ∃ t, exec (.testComplete c failed spare rows) s = .next t ∧ s.counted t Obj.testsRun 1 ∧ (failed ≠ [] → s.counted t Obj.testFailures 1) ∧
        (bad = [] → (t.work.coreTest c).running = false ∧
          (t.work.coreTest c).result = (if (s.work.coreTest c).second = true then 2 else if failed = [] then 1 else 3) ∧
          ((s.work.coreTest c).requested = true → s.work.cmdBusy Obj.testNow = true → t.cmdStateOf Obj.testNow = 3)) ∧
        (failed = [] → (s.work.coreTest c).second = false → s.frame t [.rel, .arrs] (fun k => k = Obj.testsRun ∨ k = Obj.testNow)) ∧
        (bad ≠ [] → (s.work.coreTest c).second = false → s.counted t Obj.coreRecoveries 1 ∧ (t.work.coreTest c).running = true ∧
          (t.work.coreTest c).second = true ∧ (t.work.coreTest c).result = 2 ∧ (t.work.coreTest c).kernel = maxNat bad) ∧
        (bad ≠ [] → (s.work.coreTest c).second = true → (t.work.coreTest c).running = false ∧ (t.work.coreTest c).result = 3 ∧ t.dev.rel.deviceFault ≠ none)) ∧
    (∀ failed spare rows, (s.work.coreTest c).running = false → ∃ t, exec (.testComplete c failed spare rows) s = .next t ∧ s.frame t [] (fun _ => False)) ∧
    (∀ n, n = (-(s.work.coreTest c).dueIn).toNat / max 1 (s.val Obj.testIntervalS) → ∃ t, exec (.testOverdue c) s = .next t ∧
      (if (s.work.coreTest c).running = false ∧ 3 ≤ n ∧ (s.work.coreTest c).overdue < n then
         (t.work.coreTest c).overdue = n ∧ s.counted t Obj.testOverdueEvents 1
       else s.frame t [] (fun _ => False)))

/-- A held check is settled by its judgement and leaves the held ones: arbitration without a golden image counts NO_GOLDEN, with one the verdict of
R484; its timeout counts FACET; a sample that cannot be compared counts NO_GOLDEN, any other is a sample judged, and either arbitrates the checks
it settles. A core's recovery drops what its engines run and what is held of them and counts; the second within 60 s is device-fatal. -/
def Obligations.HeldChecksAreJudged : Prop :=
  (∀ (s : State) (e f g : Nat) (h : HeldCheck), engineExists s.ident e = true → f < 4 → g < 8 → s.work.heldGroup e f g = some h →
    ((∀ y ∈ s.dev.step.held, y.engine = e → y.facet = 4 * e + f → y.group ≠ none) → ∃ t, exec (.arbTimeout e f g) s = .next t ∧
      s.counted t Obj.arbitrations 1 ∧ s.counted t Obj.arbTimeouts 1 ∧ s.counted t Obj.arbFacet 1 ∧ t.dev.step.held = s.dev.step.held.erase h ∧
      (noScratch s → t.mem = s.mem)) ∧
    (∀ x : ArbitrationIn, x.engine = e → x.facet = f → x.group = g →
      (s.work.goldenPresent (facetCore h.facet) h.slot = false → ∃ t, exec (.arbitration x) s = .next t ∧ s.counted t Obj.arbitrations 1 ∧
        s.counted t Obj.arbNoGolden 1 ∧ t.dev.step.held = s.dev.step.held.erase h) ∧
      (∀ u v w, s.work.goldenPresent (facetCore h.facet) h.slot = true → x.poison = false → s.work.arbValues h g = (u, v, w) →
        ∃ t, exec (.arbitration x) s = .next t ∧ s.counted t Obj.arbitrations 1 ∧ t.dev.step.held = s.dev.step.held.erase h ∧
          (let tol := s.val Obj.arbTol * lsbPu h.fsc
           ((v - u).natAbs ≤ tol → s.counted t Obj.arbSentinel 1) ∧
           (tol < (v - u).natAbs → s.counted t Obj.arbFacet 1) ∧
           (tol < (v - u).natAbs → tol < (w - u).natAbs → s.counted t Obj.arbNeither 1))))) ∧
  (∀ (s : State) (x : ShadowJudged) (h : HeldCheck), engineExists s.ident x.engine = true → x.facet < 4 →
    s.dev.step.held.find? (fun h => h.engine = x.engine && h.facet = 4 * x.engine + x.facet && h.group.isNone) = some h →
    ∃ t, exec (.shadowSampleJudged x) s = .next t ∧ t.dev.step.held = s.dev.step.held.erase h ∧
      (if x.poison = true ∨ s.work.goldenPresent (facetCore h.facet) h.slot = false then s.counted t Obj.arbNoGolden (max 1 h.failed.length)
       else s.counted t Obj.shadowSamples 1) ∧ s.counted t Obj.arbitrations h.failed.length) ∧
  ∀ (s : State) (c trigger : Nat), goodCore s.ident c = true →
    ∃ t, exec (.coreRecoveryReset c trigger) s = .next t ∧ s.counted t Obj.coreRecoveries 1 ∧ look 0 t.dev.rel.lastRecovery c = s.val Obj.poweredSeconds ∧
      (∀ e, e / 32 = c → (t.work.engine e).queue = [] ∧ (t.work.engine e).runs = []) ∧ (∀ h ∈ t.dev.step.held, h.engine / 32 ≠ c) ∧
      ((∀ p ∈ s.dev.rel.lastRecovery, p.1 = c → p.2 + 60 ≤ s.val Obj.poweredSeconds) → t.dev.rel.deviceFault = s.dev.rel.deviceFault) ∧
      (∀ p, s.dev.rel.lastRecovery = [p] → p.1 = c → s.val Obj.poweredSeconds < p.2 + 60 → t.dev.rel.deviceFault ≠ none) ∧ (noScratch s → t.mem = s.mem)

/-! ## 17 to 20: faults of supply and heat, islands, boot, power states, security -/

/-- A device outside a formed group, with no load, transition, shadow or store in progress, and no virtual function. -/
structure QuietDevice (s : State) : Prop where
  unformed : s.val Obj.groupState ≠ 2
  noLoad : s.dev.res.load = none
  noShadows : s.dev.res.shadows = []
  noPersist : s.dev.dict.persist = []
  noRecords : s.dev.rel.pendingLog = []
  noTarget : s.dev.boot.target = none
  noRequest : s.work.cmdBusy Obj.powerStateRequest = false
  noVfs : ∀ p, p < 2 → (s.work.port p).vfs = 0
  noChannels : ∀ p, p < 2 → noChannels s (0x400 + p)

/-- Every island but the management island has lost power. -/
def powerless (t : State) : Prop := ∀ i, islandPresent t.ident i = true → i ≠ 0xAD → t.work.islandCond i = .gated

/-- THERMAL_SHUTDOWN and SUPPLY_FAULT latch, are device-fatal, and take power from every island but management; THERMTRIP_L and RDYBSY are low after
the first, PWRGD after the second. VIN_DROP under the threshold takes power and PWRGD, above it nothing but the voltage; VIN_REMOVED clears the latches and the faults
they stand for. FIRMWARE_FAULT is device-fatal; the first such fault stands. (The threshold is the model's choice, assumption log 61.) -/
def Obligations.PowerIsLostAndLatched : Prop :=
  (∀ s : State,
    (∀ ch, ch < 10 → s.dev.rel.deviceFault = none → ∃ t, exec (.thermalShutdown ch) s = .next t ∧ t.dev.power.shutdownLatched = true ∧
      t.work.drivesLow .thermtrip = true ∧ (∀ p, t.work.drivesLow (.rdybsy p) = true) ∧ t.dev.rel.deviceFault = some 0x20 ∧ t.val Obj.lastDeviceFault = 0x20 ∧ powerless t ∧ t.mem = s.mem) ∧
    (∀ cause, cause < 3 → s.dev.rel.deviceFault = none → ∃ t, exec (.supplyFault cause) s = .next t ∧ t.dev.power.supplyLatched = true ∧
      t.work.drivesLow .pwrgd = true ∧ t.dev.rel.deviceFault = some 0x24 ∧ t.val Obj.lastDeviceFault = 0x24 ∧ powerless t ∧
      (t.work.port 0).perst = true ∧ (t.work.port 1).perst = true) ∧
    (∀ mv, mv < 36000 → ∃ t, exec (.vinDrop mv) s = .next t ∧ t.work.drivesLow .pwrgd = true ∧ t.dev.power.vinMv = mv ∧ t.dev.boot.stage = 0 ∧ powerless t)) ∧
  (∀ (s : State) (mv : Nat), 36000 ≤ mv → ∃ t, exec (.vinDrop mv) s = .next t ∧ t.dev.power = { s.dev.power with vinMv := mv } ∧
    s.frame t [.power] (fun _ => False)) ∧
  (∀ s : State, ∃ t, exec .vinRemoved s = .next t ∧ t.dev.power.shutdownLatched = false ∧ t.dev.power.supplyLatched = false ∧ t.dev.power.pwrgd = false ∧
    t.dev.rel.deviceFault = (if s.dev.rel.deviceFault = some 0x20 ∨ s.dev.rel.deviceFault = some 0x24 then none else s.dev.rel.deviceFault) ∧
    s.frame t [.power, .rel] (fun _ => False)) ∧
  ∀ s : State, ∃ t, exec .firmwareFault s = .next t ∧
    (s.dev.rel.deviceFault = none → t.dev.rel.deviceFault = some 0x21 ∧ t.val Obj.lastDeviceFault = 0x21) ∧
    (∀ x, s.dev.rel.deviceFault = some x → t.dev.rel.deviceFault = some x ∧ t.val Obj.lastDeviceFault = s.val Obj.lastDeviceFault) ∧ t.mem = s.mem

/-- ISLAND_STOP drains a running island, but for the management island and, outside a transition, a router; ISLAND_DRAIN_COMPLETE stops it once its work is complete and counts the stop, ISLAND_RESTART runs it again in
L0. A READ of an object of the stopped seam island waits, its window parked, and is answered once the island runs. MINMAX_RESET restarts the
trackers its argument names. -/
def Obligations.IslandsStopAndRestart : Prop :=
  (∀ (s : State) (i : Nat), islandPresent s.ident i = true → s.dev.boot.target = none →
    (∀ gate, i = 0xAD ∨ islandKind i = 2 → ∃ t, exec (.islandStop i gate) s = .next t ∧ s.frame t [] (fun _ => False)) ∧
    (∀ gate, i ≠ 0xAD → islandKind i ≠ 2 → (∀ c, islandCore i = some c → s.work.coreProgramming c = false) → s.work.islandCond i = .running →
      ∃ t, exec (.islandStop i gate) s = .next t ∧ t.work.islandCond i = .draining ∧ (∀ j, j ≠ i → t.work.islandCond j = s.work.islandCond j) ∧ s.frame t [.islands, .boot] (fun _ => False)) ∧
    (∀ us, s.work.islandCond i = .draining → s.work.islandQuiet i = true → i ∉ s.dev.boot.gating → ∃ t, exec (.islandDrainComplete i us) s = .next t ∧
      t.work.islandCond i = .stopped ∧ s.counted t Obj.islandStops 1 ∧ t.val Obj.drainMaxUs = max (s.val Obj.drainMaxUs) (objValue Obj.drainMaxUs us) ∧
      s.frame t [.islands, .boot] (fun k => k = Obj.islandStops ∨ k = Obj.drainMaxUs)) ∧
    (∀ us, s.work.islandCond i ≠ .draining ∨ s.work.islandQuiet i = false → ∃ t, exec (.islandDrainComplete i us) s = .next t ∧
      s.frame t [] (fun _ => False)) ∧
    (s.work.islandCond i = .stopped → s.work.mayPower = true → s.val Obj.powerState = 0 → (∀ p ∈ s.dev.dict.parked, p.island ≠ i) → s.dev.dict.held = [] →
      ∃ t, exec (.islandRestart i) s = .next t ∧ t.work.islandCond i = .running ∧ ∀ j, j ≠ i → t.work.islandCond j = s.work.islandCond j)) ∧
  (∀ (s : State) (r : Req) (row : Row) (k : Key), s.takes 1 r → s.work.lookup (seen 1 r) = some (row, k) → row.access ≠ .wo → row.ty ≠ .domain →
    s.work.readState r.index = none → r.payload = [] → servedBySeam r.index = true → s.work.islandCond 0xAC = .stopped →
    (∃ t, exec (.read r) s = .next t ∧ t.dev.dict.parked = s.dev.dict.parked ++ [⟨seen 1 r, 1, 0xAC, false⟩] ∧
      (∀ w, originWindow r.origin = some w → (t.work.window w).parked = true) ∧ s.frame t [.dict] (fun _ => False))) ∧
  (∀ (s : State) (r : Req) (row : Row) (k : Key), s.dev.dict.parked = [⟨r, 1, 0xAC, false⟩] → s.work.lookup (seen 1 r) = some (row, k) → row.access ≠ .wo →
    row.ty ≠ .domain → s.work.readState r.index = none → r.target = 254 → r.flags = 0 → r.rsv7 = 0 → r.tenantHi = 0 → r.arg = 0 → r.payload = [] →
    s.dev.boot.target = none → s.work.islandCond 0xAC = .stopped → s.work.mayPower = true → s.val Obj.powerState = 0 → s.dev.net.waiting = [] → s.dev.dict.held = [] →
    ∃ t b, exec (.islandRestart 0xAC) s = .next t ∧ t.work.islandCond 0xAC = .running ∧ t.dev.dict.parked = [] ∧
      s.answer 1 (seen 1 r) 0 0 b ∈ t.out.drop s.out.length) ∧
  ∀ (s : State) (r : Req) (h arg : Nat), h < 2 → s.startsAt r (Obj.minmaxReset h) arg → ∃ t, exec (.minmaxReset { r with sub := h + 1 }) s = .next t ∧
    s.commanded t r (Obj.minmaxReset h) [.hk] (fun _ => False) ∧
    ∀ i e, (t.work.hkHalf h).entries[i]? = some e → bitAt arg i = true → e.minV = none ∧ e.maxV = none

/-- COLD_START past the threshold begins boot and counts, keeping what is of class P; the stages of boot follow one another, from the other bank where
one fails and into RECOVERY where both do; memory reads zero after a cold start's third, and outside MODEL after a reset's; a store that cannot be
read is device-fatal; at READY every island runs. DEVICE_RESET asks both ports: the first assertion waits, the second resets, and the window's
end withdraws a lone one. (The threshold is the model's choice, assumption log 61; which islands run before READY, log 6.) -/
def Obligations.BootFollowsItsStages : Prop :=
  (∀ (s : State) (mv : Nat),
    (s.dev.power.shutdownLatched = true ∨ s.dev.power.supplyLatched = true ∨ mv < 39000 → ∃ t, exec (.coldStart mv) s = .next t ∧
      t.dev.power = { s.dev.power with vinMv := mv } ∧ s.frame t [.power] (fun _ => False)) ∧
    (s.dev.power.shutdownLatched = false → s.dev.power.supplyLatched = false → 39000 ≤ mv → (∀ p ∈ s.dev.dict.persist, p.key ≠ Obj.coldStarts) →
      ∃ t, exec (.coldStart mv) s = .next t ∧ t.dev.boot.stage = 0 ∧ t.dev.power.pwrgd = true ∧ t.dev.rel.deviceFault = none ∧
      s.counted t Obj.coldStarts 1 ∧ t.mem = s.mem ∧ (QuietDevice s → ∀ k, pclassOf k = some .p → k ≠ Obj.coldStarts → k ≠ Obj.stateEntries 0 → (∀ n, k ≠ Obj.slotState n) → t.val k = s.val k))) ∧
  (∀ (s : State) (ms : Nat), s.dev.power.pwrgd = true → s.dev.power.shutdownLatched = false → s.dev.power.supplyLatched = false →
    (s.dev.boot.stage = 0 → s.work.bankOk (1 - s.dev.boot.nextActive) = false → ∀ ok, ok = false ∨ s.work.bankOk s.dev.boot.nextActive = false →
      ∃ t, exec (.bootStageEnd ok ms) s = .next t ∧ t.dev.boot.stage = 15 ∧ s.frame t [.boot] (fun _ => False)) ∧
    (s.dev.boot.stage = 0 → s.work.bankOk (1 - s.dev.boot.nextActive) = true → ∀ ok, ok = false ∨ s.work.bankOk s.dev.boot.nextActive = false →
      ∃ t, exec (.bootStageEnd ok ms) s = .next t ∧ t.dev.boot.stage = 1 ∧ t.dev.boot.active = 1 - s.dev.boot.nextActive ∧
        s.frame t [.boot] (fun k => k = Obj.firmwareVersion)) ∧
    (s.dev.boot.stage = 0 → s.work.bankOk s.dev.boot.nextActive = true → ∃ t, exec (.bootStageEnd true ms) s = .next t ∧ t.dev.boot.stage = 1 ∧
      t.dev.boot.active = s.dev.boot.nextActive ∧ s.frame t [.boot] (fun k => k = Obj.firmwareVersion)) ∧
    (s.dev.boot.stage = 1 → s.dev.rel.deviceFault ≠ some 0x25 → ∃ t, exec (.bootStageEnd true ms) s = .next t ∧ t.dev.boot.stage = 2 ∧ t.mem = s.mem) ∧
    (s.dev.boot.stage = 1 → s.dev.rel.deviceFault = none → ∃ t, exec (.bootStageEnd false ms) s = .next t ∧ t.dev.boot.stage = 1 ∧
      t.dev.rel.deviceFault = some 0x25) ∧
    (∀ r, s.dev.boot.stage = 2 → s.dev.boot.resetting = true → r = s.dev.dram.region 2 → r.1 + r.2 ≤ halfBase →
      s.dev.dram.modelGib = s.val Obj.modelRegionGib → s.dev.dram.scratchGib = s.val Obj.scratchRegionGib →
      ∃ t, exec (.bootStageEnd true ms) s = .next t ∧ t.dev.boot.stage = 3 ∧ ∀ a, a < 2 * halfBase →
        t.byteAt a = if r.1 ≤ a % halfBase ∧ a % halfBase < r.1 + r.2 then s.byteAt a else 0) ∧
    (s.dev.boot.stage = 2 → s.dev.boot.resetting = false → ∃ t, exec (.bootStageEnd true ms) s = .next t ∧ t.dev.boot.stage = 3 ∧
      t.dev.dram.off = false ∧ ∀ a, a < 2 * halfBase → t.byteAt a = 0) ∧
    (s.dev.boot.stage = 3 → s.dev.dict.held = [] → ∃ t, exec (.bootStageEnd true ms) s = .next t ∧ t.dev.boot.stage = 4 ∧ (∀ i, t.work.islandCond i = .running) ∧
      t.val Obj.bootTimeMs = s.dev.boot.timeMs + ms ∧ t.mem = s.mem)) ∧
  (∀ (s : State) (r : Req) (row : Row) (arg p : Nat), s.grantsAt r row Obj.deviceReset arg → s.work.argOk row Obj.deviceReset arg = true →
    arg ≠ 2 ^ typeBits row.ty - 1 → (r.origin.path = .portA ∧ p = 0) ∨ (r.origin.path = .portB ∧ p = 1) →
    (s.val Obj.resetAssert = 0 → s.work.cmdBusy Obj.deviceReset = false → ∃ t, exec (.deviceReset r) s = .next t ∧ s.acceptedAt t r Obj.deviceReset ∧ t.cmdStateOf Obj.deviceReset = 1 ∧
      t.val Obj.resetAssert = 2 ^ p ∧ s.frame t [.dict, .links] (fun k => k = Obj.deviceReset ∨ k = Obj.resetAssert ∨ answerKey k)) ∧
    (s.val Obj.resetAssert = 2 ^ (1 - p) → (∀ p ∈ s.dev.dict.persist, p.key ≠ Obj.deviceResets) → ∃ t, exec (.deviceReset r) s = .next t ∧
      s.acceptedAt t r Obj.deviceReset ∧ t.dev.boot.stage = 0 ∧ s.counted t Obj.deviceResets 1 ∧ t.val Obj.lastResetCause = 1 ∧
      t.dev.serve.entries = [] ∧ (QuietDevice s → t.mem = s.mem))) ∧
  ∀ s : State, ∃ t, exec .resetWindowExpiry s = .next t ∧
    (if s.cmdStateOf Obj.deviceReset = 1 then t.cmdStateOf Obj.deviceReset = 4 ∧ t.cmdResultOf Obj.deviceReset = 0xD1 ∧ t.val Obj.resetAssert = 0
     else s.frame t [] (fun _ => False)) ∧
    s.frame t [] (fun k => k = Obj.deviceReset ∨ k = Obj.resetAssert)

/-- POWER_STATE_REQUEST of the state in force is done at once, L2 of a formed group's member fails, and L1 from L0 begins a transition that its islands
end; GROUP_POWER outside a formed group fails, and at a manager with a step in progress waits for it; L1_IDLE_EXPIRY at rest stops the engine and core
islands, L1_EXIT runs them again. FIRMWARE_ACTIVATE makes the filled inactive bank boot next. (How a transition runs and which islands L1_EXIT
restarts are the model's choices, assumption logs 60 and 91.) -/
def Obligations.PowerStatesChange : Prop :=
  (∀ (s : State) (r : Req) (n : Nat), s.startsAt r Obj.powerStateRequest n →
    (n = s.val Obj.powerState → ∃ t, exec (.powerStateRequest r) s = .next t ∧ s.commanded t r Obj.powerStateRequest [] (fun _ => False)) ∧
    (n = 0 → s.val Obj.powerState = 1 → ∃ t, exec (.powerStateRequest r) s = .next t ∧ s.acceptedAt t r Obj.powerStateRequest ∧
      t.cmdStateOf Obj.powerStateRequest = 3 ∧ t.val Obj.powerState = 0) ∧
    (n = 2 → s.val Obj.powerState ≠ 2 → s.val Obj.groupState = 2 → ∃ t, exec (.powerStateRequest r) s = .next t ∧
      s.commandFails t r Obj.powerStateRequest 0xD0) ∧
    (n = 1 → s.val Obj.powerState = 0 → (∃ i, i < 0xB0 ∧ islandPresent s.ident i = true ∧ s.work.islandCond i ≠ islandWanted 1 i) →
      ∃ t, exec (.powerStateRequest r) s = .next t ∧ s.acceptedAt t r Obj.powerStateRequest ∧ t.cmdStateOf Obj.powerStateRequest = 2 ∧
        t.dev.boot.target = some 1 ∧ s.frame t [.dict, .links, .boot] (fun k => k = Obj.powerStateRequest ∨ answerKey k))) ∧
  (∀ (s : State) (r : Req) (n : Nat), s.startsAt r Obj.groupPower n →
    (s.val Obj.groupState ≠ 2 → ∃ t, exec (.groupPower r) s = .next t ∧ s.commandFails t r Obj.groupPower 0xD2) ∧
    (s.val Obj.groupState = 2 → s.val Obj.role ≠ 1 → ∃ t, exec (.groupPower r) s = .next t ∧ s.commandFails t r Obj.groupPower 0x3A) ∧
    (∀ x, s.val Obj.groupState = 2 → s.val Obj.role = 1 → n = 2 → s.dev.boot.target = none → s.dev.serve.plan = none → s.val Obj.powerState ≠ 2 →
      s.dev.group.membership = some x → ∃ t, exec (.groupPower r) s = .next t ∧ s.acceptedAt t r Obj.groupPower ∧ t.cmdStateOf Obj.groupPower = 2 ∧
        t.dev.boot.groupDown = true ∧ t.dev.boot.groupPending = false ∧ t.dev.boot.target = some 2 ∧
        ∀ d ∈ x.members, d ≠ 0 → Output.fabric (some d) none (.order (.power 2) none) ∈ t.out.drop s.out.length) ∧
    (s.val Obj.groupState = 2 → s.val Obj.role = 1 → n = 2 → s.dev.boot.target = none → s.dev.serve.plan ≠ none → s.val Obj.powerState ≠ 2 →
      ∃ t, exec (.groupPower r) s = .next t ∧ s.acceptedAt t r Obj.groupPower ∧ t.cmdStateOf Obj.groupPower = 2 ∧ t.dev.boot.groupDown = true ∧
        t.dev.boot.groupPending = true ∧ s.frame t [.dict, .links, .boot] (fun k => k = Obj.groupPower ∨ answerKey k))) ∧
  (∀ s : State,
    (s.val Obj.l1IdleUs ≠ 0 → s.val Obj.powerState = 0 → s.dev.boot.target = none → s.dev.boot.stage = 4 → s.work.atRest = true →
      ∃ t, exec .l1IdleExpiry s = .next t ∧ t.val Obj.powerState = 1 ∧ s.counted t (Obj.stateEntries 1) 1 ∧
        (∀ i, islandPresent s.ident i = true → islandKind i ≤ 1 → s.work.islandCond i = .running → t.work.islandCond i = .stopped) ∧
        s.frame t [.islands] (fun k => k = Obj.powerState ∨ k = Obj.stateEntries 1 ∨ k = Obj.lastTransitionUs ∨ k = Obj.islandStops)) ∧
    (s.val Obj.l1IdleUs = 0 → ∃ t, exec .l1IdleExpiry s = .next t ∧ s.frame t [] (fun _ => False)) ∧
    (s.val Obj.powerState = 1 → s.dev.boot.target = none → ∃ t, exec .l1Exit s = .next t ∧ t.val Obj.powerState = 0 ∧
      (∀ i, islandKind i ≤ 1 → s.work.islandCond i = .stopped → t.work.islandCond i = .running) ∧
      (s.dev.host.rings = [] → s.frame t [.islands] (fun k => k = Obj.powerState ∨ k = Obj.stateEntries 0 ∨ k = Obj.lastTransitionUs))) ∧
    (s.val Obj.powerState ≠ 1 → ∃ t, exec .l1Exit s = .next t ∧ s.frame t [] (fun _ => False))) ∧
  ∀ (s : State) (r : Req) (arg : Nat), s.startsAt r Obj.firmwareActivate arg →
    ((s.dev.boot.banks.getD (1 - s.dev.boot.active) ⟨none, 0, 0⟩).image = none → ∃ t, exec (.firmwareActivate r) s = .next t ∧
      s.commandFails t r Obj.firmwareActivate 0xD4) ∧
    ((s.dev.boot.banks.getD (1 - s.dev.boot.active) ⟨none, 0, 0⟩).image ≠ none → ∃ t, exec (.firmwareActivate r) s = .next t ∧
      s.commanded t r Obj.firmwareActivate [.boot] (fun _ => False) ∧ t.dev.boot.nextActive = 1 - s.dev.boot.active)

/-- SPDM: GET_VERSION begins a connection, GET_CAPABILITIES and NEGOTIATE_ALGORITHMS carry it on, and a connection that has all three is told digests,
certificate and measurements, and is signed for; one that has not is told UnexpectedRequest. A path that is not answered changes nothing. A
dynamic address is taken. (The bytes and codes of the messages are the model's choice, assumption log 62, PRESUMED.) -/
def Obligations.SpdmAnswersInItsOrder : Prop :=
  (∀ (s : State) (p : Path), s.work.spdmAnswers p = true →
    (∃ t, exec (.getVersion p) s = .next t ∧ Output.spdm p 0x04 (toLE 1 1 ++ toLE 1 0x12) ∈ t.out.drop s.out.length ∧
      (t.work.spdmConn p).version = true ∧ (t.work.spdmConn p).capabilities = false ∧ (t.work.spdmConn p).algorithms = false ∧ s.frame t [.boot] (fun _ => False)) ∧
    (∃ t, exec (.getCapabilities p) s = .next t ∧ s.frame t [.boot] (fun _ => False) ∧
      (if (s.work.spdmConn p).version = true then
         Output.spdm p 0x61 (toLE 4 0x36 ++ toLE 4 8192) ∈ t.out.drop s.out.length ∧ (t.work.spdmConn p).capabilities = true
       else Output.spdm p 0x7F (toLE 1 4 ++ toLE 1 0) ∈ t.out.drop s.out.length)) ∧
    (∀ asym hash, ∃ t, exec (.negotiateAlgorithms p asym hash) s = .next t ∧ s.frame t [.boot] (fun _ => False) ∧
      (if (s.work.spdmConn p).capabilities = true then (t.work.spdmConn p).algorithms = (asym.contains 6 && hash.contains 2)
       else Output.spdm p 0x7F (toLE 1 4 ++ toLE 1 0) ∈ t.out.drop s.out.length)) ∧
    ((s.work.spdmConn p).ready = true →
      (∃ t, exec (.getDigests p) s = .next t ∧ Output.spdm p 0x01 (toLE 1 1 ++ Config.sha512 Config.certChain) ∈ t.out.drop s.out.length ∧
        s.frame t [.boot] (fun _ => False)) ∧
      (∀ off len, ∃ t b, exec (.getCertificate p 0 off len) s = .next t ∧
        (off < Config.certChain.length →
          Output.spdm p 0x02 (b ++ slice Config.certChain off (min len (min 8184 (Config.certChain.length - off)))) ∈ t.out.drop s.out.length) ∧
        s.frame t [.boot] (fun _ => False)) ∧
      (∀ nonce, ∃ t b, exec (.challenge p 0 nonce) s = .next t ∧ Output.spdm p 0x03 (Config.sha512 Config.certChain ++ b) ∈ t.out.drop s.out.length ∧
        s.counted t Obj.spdmChallenges 1 ∧ s.frame t [.boot] (fun k => k = Obj.spdmChallenges)) ∧
      (∀ i nonce, 1 ≤ i → i ≤ 8 → ∃ t, exec (.getMeasurements p i false nonce) s = .next t ∧
        Output.spdm p 0x60 (toLE 1 1 ++ s.work.measurementBytes i) ∈ t.out.drop s.out.length ∧ s.frame t [.boot] (fun _ => False))) ∧
    ((s.work.spdmConn p).ready = false → ∀ c, c = .getDigests p ∨ (∃ a b n, c = .getCertificate p a b n) ∨ (∃ a n, c = .challenge p a n) ∨
        (∃ i g n, c = .getMeasurements p i g n) →
      ∃ t, exec c s = .next t ∧ Output.spdm p 0x7F (toLE 1 4 ++ toLE 1 0) ∈ t.out.drop s.out.length ∧ s.frame t [] (fun _ => False))) ∧
  (∀ (s : State) (p : Path) (c : Instr), s.work.spdmAnswers p = false → c = .getVersion p ∨ c = .getCapabilities p ∨ c = .getDigests p ∨
      (∃ a b, c = .negotiateAlgorithms p a b) ∨ (∃ a b n, c = .getCertificate p a b n) ∨ (∃ a n, c = .challenge p a n) ∨ (∃ i g n, c = .getMeasurements p i g n) →
    ∃ t, exec c s = .next t ∧ s.frame t [] (fun _ => False)) ∧
  ∀ (s : State) (a : Nat), a < 128 → ∃ t, exec (.dynamicAddressAssignment a) s = .next t ∧ t.dev.boot.dynAddress = some a ∧ s.frame t [.boot] (fun _ => False)
end

