-- ==== Sys2Proof/Laws/Checks.lean ====
section
/-! SUPPORT. The conditions of Safety.lean as computed checks: a check that answers true gives the condition. -/

namespace Sys2Proof.Machine

/-- `State.takes`, computed. -/
def State.takesB (s : State) (op : Nat) (r : Req) : Bool :=
  s.work.reaches r.origin &&
    (match originWindow r.origin with
      | some w => !(s.work.window w).busy
      | none => true) &&
    decide (s.dev.boot.stage = 4) && !s.work.staysBehind op r && (decide (r.target = 254) || decide (r.target = s.work.ownDevice)) && decide (r.flags = 0) &&
    decide (r.rsv7 = 0) && (sessionOp op || decide (r.tenantHi = 0)) && (!argZero.contains op || decide (r.arg = 0))

theorem State.takes_of {s : State} {op : Nat} {r : Req} (h : s.takesB op r = true) : s.takes op r := by
  simp only [State.takesB, Bool.and_eq_true, Bool.or_eq_true, decide_eq_true_eq, Bool.not_eq_true'] at h
  obtain ⟨⟨⟨⟨⟨⟨⟨⟨h1, h2⟩, h3⟩, h9⟩, h4⟩, h5⟩, h6⟩, h7⟩, h8⟩ := h
  refine ⟨h1, ?_, h3, h9, h4, h5, h6, ?_, ?_⟩
  · intro w hw
    simpa [hw] using h2
  · intro hs
    simpa [hs] using h7
  · intro ha
    exact h8.resolve_left (fun hn => absurd (hn.symm.trans ha) (by decide))

/-- `State.grants`, computed. -/
def State.grantsB (s : State) (r : Req) (row : Row) (k : Key) (v : Nat) : Bool :=
  s.takesB 2 r && decide (s.work.lookup (seen 2 r) = some (row, k)) && decide (row.access ≠ .ro) && decide (row.ty ≠ .domain) &&
    decide (s.work.writeRefused r.origin row = none) && decide (r.payload.length = typeSize row.ty) && decide (ofLE r.payload = v) &&
    (!servedBySeam r.index ||
      (decide (s.work.islandCond 0xAC ≠ .gated) && decide (s.work.islandCond 0xAC ≠ .stopped) && decide (s.work.islandCond 0xAC ≠ .faulted)))

theorem State.grants_of {s : State} {r : Req} {row : Row} {k : Key} {v : Nat} (h : s.grantsB r row k v = true) : s.grants r row k v := by
  simp only [State.grantsB, Bool.and_eq_true, Bool.or_eq_true, decide_eq_true_eq, Bool.not_eq_true'] at h
  obtain ⟨⟨⟨⟨⟨⟨⟨h1, h2⟩, h3⟩, h4⟩, h5⟩, h6⟩, h7⟩, h8⟩ := h
  refine ⟨State.takes_of h1, h2, ⟨h3, h4⟩, h5, h6, h7, ?_⟩
  intro hs
  rcases h8 with h8 | ⟨⟨a, b⟩, c⟩
  · exact absurd (hs.symm.trans h8) (by decide)
  · exact ⟨a, b, c⟩

/-- The row of an object. -/
def rowOf (k : Key) : Row := (findRow k.index k.sub).getD ⟨0, 0, 0, "", .u8, .ro, .d, .lit 0, 0, 0, false, false⟩

/-- `State.starts`, computed. -/
def State.startsB (s : State) (r : Req) (k : Key) (arg : Nat) : Bool :=
  s.grantsB r (rowOf k) k arg && decide ((rowOf k).access = .cmd) && decide (arg ≠ 2 ^ typeBits (rowOf k).ty - 1) &&
    s.work.argOk (rowOf k) k arg && !s.work.cmdBusy k && (decide (k ≠ Obj.powerStateRequest) || decide (s.dev.boot.target = none))

theorem State.starts_of {s : State} {r : Req} {k : Key} {arg : Nat} (h : s.startsB r k arg = true) : s.starts r k arg := by
  simp only [State.startsB, Bool.and_eq_true, Bool.or_eq_true, decide_eq_true_eq, Bool.not_eq_true'] at h
  obtain ⟨⟨⟨⟨⟨h1, h2⟩, h3⟩, h4⟩, h5⟩, h6⟩ := h
  refine ⟨⟨rowOf k, State.grants_of h1, h2, h3, h4⟩, h5, ?_⟩
  intro hk
  exact h6.resolve_left (fun hn => hn hk)

theorem State.startsAt_of {s : State} {r : Req} {k : Key} {arg : Nat} (h : s.startsB (reqAt r k.index k.sub) k arg = true) :
    s.startsAt r k arg := State.starts_of h

theorem State.grantsAt_of {s : State} {r : Req} {row : Row} {k : Key} {v : Nat}
    (h : s.grantsB (reqAt r k.index k.sub) row k v = true) : s.grantsAt r row k v := State.grants_of h

end Sys2Proof.Machine
end

