-- ==== Sys2Proof/Laws/Lists.lean ====
section
/-! SUPPORT. What the keyed lists and positions of the state answer after a change. -/

namespace Sys2Proof.Machine

variable {κ α : Type} [DecidableEq κ]

@[simp] theorem look_nil (d : α) (k : κ) : look d ([] : List (κ × α)) k = d := rfl

/-- The value at a key after a key has been given a value. -/
@[simp] theorem look_put (d : α) (l : List (κ × α)) (k : κ) (v : α) (k' : κ) : look d (put l k v) k' = if k = k' then v else look d l k' := by
  induction l with
  | nil => simp [put, look]
  | cons p l ih =>
    obtain ⟨a, b⟩ := p
    unfold put
    by_cases h : a = k
    · subst h
      by_cases h2 : a = k' <;> simp [look, h2]
    · by_cases h2 : a = k'
      · subst h2
        have h3 : ¬ k = a := fun e => h e.symm
        simp [look, h, h3]
      · simp [look, h, h2, ih]

theorem look_put_same (d : α) (l : List (κ × α)) (k : κ) (v : α) : look d (put l k v) k = v := by simp

theorem look_put_ne (d : α) (l : List (κ × α)) {k k' : κ} (v : α) (h : k ≠ k') : look d (put l k v) k' = look d l k' := by simp [h]

/-- The value at a key after another has been removed, and after it has itself. -/
@[simp] theorem look_drop1 (d : α) (l : List (κ × α)) (k k' : κ) : look d (drop1 l k) k' = if k = k' then d else look d l k' := by
  induction l with
  | nil => simp [drop1]
  | cons p l ih =>
    obtain ⟨a, b⟩ := p
    simp only [drop1] at ih ⊢
    rw [List.filter_cons]
    by_cases h : a = k
    · subst h
      simp only [ne_eq, not_true_eq_false, decide_false, Bool.false_eq_true, if_false, look] at ih ⊢
      rw [ih]
      by_cases h2 : a = k' <;> simp [h2]
    · simp only [ne_eq, h, not_false_eq_true, decide_true, if_true, look] at ih ⊢
      by_cases h2 : a = k'
      · subst h2
        have h3 : ¬ k = a := fun e => h e.symm
        simp [h3]
      · rw [if_neg h2, if_neg h2, ih]

/-- The element at a position after a position has been given an element. -/
@[simp] theorem getD_setAt (d : α) (l : List α) (n : Nat) (x : α) (m : Nat) : (setAt d l n x).getD m d = if m = n then x else l.getD m d := by
  induction n generalizing l m with
  | zero => cases l <;> cases m <;> simp [setAt]
  | succ n ih =>
    cases l with
    | nil => cases m with
      | zero => simp [setAt]
      | succ m => simpa [setAt] using ih [] m
    | cons a l => cases m with
      | zero => simp [setAt]
      | succ m => simpa [setAt] using ih l m

end Sys2Proof.Machine
end

