-- ==== Sys2Proof/Laws/Memory.lean ====
section
/-! SUPPORT. Memory: every operation keeps the canonical form, a read after a write, and what a write leaves alone. -/

namespace Sys2Proof.Machine

/-! ## One byte -/

/-- Every listed address lies above a bound. -/
def above (a : Nat) (l : List (Nat × BitVec 8)) : Prop := ∀ p ∈ l, a < p.1

theorem rising_cons {a : Nat} {v : BitVec 8} {l : List (Nat × BitVec 8)} :
    risingCells ((a, v) :: l) = true ↔ v ≠ 0 ∧ above a l ∧ risingCells l = true := by
  induction l generalizing a v with
  | nil => simp [risingCells, above]
  | cons p l ih =>
    obtain ⟨b, w⟩ := p
    simp only [risingCells, Bool.and_eq_true, decide_eq_true_eq]
    constructor
    · rintro ⟨⟨hv, hab⟩, h⟩
      refine ⟨hv, ?_, h⟩
      intro q hq
      rcases List.mem_cons.mp hq with rfl | hq
      · exact hab
      · exact Nat.lt_trans hab ((ih.mp h).2.1 q hq)
    · rintro ⟨hv, hab, h⟩
      exact ⟨⟨hv, hab (b, w) (by simp)⟩, h⟩

theorem getCell_above {a : Nat} {l : List (Nat × BitVec 8)} (h : above a l) : getCell l a = 0 := by
  cases l with
  | nil => rfl
  | cons p l =>
    obtain ⟨b, u⟩ := p
    have hb : a < b := h (b, u) (by simp)
    simp [getCell, hb, Nat.ne_of_lt hb]

theorem above_mono {a b : Nat} {l : List (Nat × BitVec 8)} (hab : a ≤ b) (h : above b l) : above a l := fun p hp => Nat.lt_of_le_of_lt hab (h p hp)

theorem above_setCell {c a : Nat} {l : List (Nat × BitVec 8)} (v : BitVec 8) (h : above c l) (hc : c < a) : above c (setCell l a v) := by
  induction l with
  | nil => unfold setCell; split <;> simp [above, hc]
  | cons p l ih =>
    obtain ⟨b, u⟩ := p
    have hl : above c l := fun q hq => h q (by simp [hq])
    unfold setCell
    split
    · split
      · exact h
      · intro q hq
        rcases List.mem_cons.mp hq with rfl | hq
        · exact hc
        · exact h q hq
    · split
      · split
        · exact hl
        · intro q hq
          rcases List.mem_cons.mp hq with rfl | hq
          · exact hc
          · exact hl q hq
      · intro q hq
        rcases List.mem_cons.mp hq with rfl | hq
        · exact h (b, u) (by simp)
        · exact ih hl q hq

/-- Storing a byte keeps the canonical form. -/
theorem rising_setCell {l : List (Nat × BitVec 8)} (a : Nat) (v : BitVec 8) (h : risingCells l = true) : risingCells (setCell l a v) = true := by
  induction l with
  | nil => unfold setCell; split <;> simp_all [risingCells]
  | cons p l ih =>
    obtain ⟨b, u⟩ := p
    obtain ⟨hu, hab, hl⟩ := rising_cons.mp h
    unfold setCell
    split
    · rename_i hlt
      split
      · exact h
      · rename_i hv
        refine rising_cons.mpr ⟨hv, ?_, h⟩
        intro q hq
        rcases List.mem_cons.mp hq with rfl | hq
        · exact hlt
        · exact Nat.lt_trans hlt (hab q hq)
    · rename_i hge
      split
      · rename_i he
        split
        · exact hl
        · rename_i hv
          exact rising_cons.mpr ⟨hv, he ▸ hab, hl⟩
      · rename_i hne
        exact rising_cons.mpr ⟨hu, above_setCell v hab (by omega), ih hl⟩

/-- Reading a byte after a byte has been stored. -/
@[simp] theorem getCell_setCell {l : List (Nat × BitVec 8)} (a : Nat) (v : BitVec 8) (c : Nat) (h : risingCells l = true) :
    getCell (setCell l a v) c = if c = a then v else getCell l c := by
  induction l with
  | nil =>
    unfold setCell
    split
    · rename_i hv
      by_cases hc : c = a <;> simp [getCell, hv, hc]
    · by_cases hc : c = a <;> simp [getCell, hc]
  | cons p l ih =>
    obtain ⟨b, u⟩ := p
    obtain ⟨hu, hab, hl⟩ := rising_cons.mp h
    unfold setCell
    split
    · rename_i hlt
      split
      · rename_i hv
        by_cases hc : c = a
        · subst hc
          simp [getCell, hlt, Nat.ne_of_lt hlt, hv]
        · simp [hc]
      · by_cases hc : c = a
        · simp [getCell, hc]
        · by_cases hlt2 : c < a
          · simp [getCell, hc, hlt2, Nat.ne_of_lt (Nat.lt_trans hlt2 hlt), Nat.lt_trans hlt2 hlt]
          · simp [getCell, hc, hlt2]
    · rename_i hge
      split
      · rename_i he
        subst he
        split
        · rename_i hv
          by_cases hc : c = a
          · subst hc
            simp [getCell_above hab, hv]
          · by_cases hlt : c < a
            · simp [getCell, hc, hlt, getCell_above (above_mono (Nat.le_of_lt hlt) hab)]
            · simp [getCell, hc, hlt]
        · by_cases hc : c = a <;> simp [getCell, hc]
      · rename_i hne
        by_cases hcb : c = b
        · subst hcb
          have hca : ¬ c = a := fun e => hne e.symm
          simp [getCell, hca]
        · by_cases hlt : c < b
          · have hca : c ≠ a := by omega
            simp [getCell, hcb, hlt, hca]
          · simp only [getCell, hcb, hlt, if_false, ih hl]

/-! ## Ranges of bytes -/

/-- Storing bytes keeps the canonical form. -/
theorem rising_setCells {l : List (Nat × BitVec 8)} (a : Nat) (bs : List Byte) (h : risingCells l = true) : risingCells (setCells l a bs) = true := by
  induction bs generalizing l a with
  | nil => exact h
  | cons v vs ih => exact ih (a + 1) (rising_setCell a v h)

/-- Reading a byte after bytes have been stored: the byte stored there, or what was there. -/
theorem getCell_setCells {l : List (Nat × BitVec 8)} (a : Nat) (bs : List Byte) (c : Nat) (h : risingCells l = true) :
    getCell (setCells l a bs) c = if a ≤ c ∧ c < a + bs.length then bs.getD (c - a) 0 else getCell l c := by
  induction bs generalizing l a with
  | nil =>
    have hn : ¬ (a ≤ c ∧ c < a + ([] : List Byte).length) := by simp
    rw [if_neg hn]
    rfl
  | cons v vs ih =>
    simp only [setCells, List.length_cons]
    rw [ih (a + 1) (rising_setCell a v h), getCell_setCell a v c h]
    by_cases hca : c = a
    · subst hca
      simp
    · by_cases hin : a + 1 ≤ c ∧ c < a + 1 + vs.length
      · have h2 : a ≤ c ∧ c < a + (vs.length + 1) := by omega
        have h3 : c - a = (c - (a + 1)) + 1 := by omega
        rw [if_pos hin, if_pos h2, h3, List.getD_cons_succ]
      · have h2 : ¬ (a ≤ c ∧ c < a + (vs.length + 1)) := by omega
        rw [if_neg hin, if_neg h2, if_neg hca]

/-- A selection of the listed bytes is canonical. -/
theorem rising_filter {l : List (Nat × BitVec 8)} (f : Nat × BitVec 8 → Bool) (h : risingCells l = true) : risingCells (l.filter f) = true := by
  induction l with
  | nil => rfl
  | cons p l ih =>
    obtain ⟨a, v⟩ := p
    obtain ⟨hv, hab, hl⟩ := rising_cons.mp h
    rw [List.filter_cons]
    split
    · exact rising_cons.mpr ⟨hv, fun q hq => hab q (List.mem_of_mem_filter hq), ih hl⟩
    · exact ih hl

/-- Reading a byte after the bytes that fail a test of the address have been cleared. -/
theorem getCell_filter {l : List (Nat × BitVec 8)} (f : Nat → Bool) (c : Nat) (h : risingCells l = true) :
    getCell (l.filter (fun p => f p.1)) c = if f c = true then getCell l c else 0 := by
  induction l with
  | nil => simp [getCell]
  | cons p l ih =>
    obtain ⟨a, v⟩ := p
    obtain ⟨hv, hab, hl⟩ := rising_cons.mp h
    rw [List.filter_cons]
    by_cases hfa : f a = true
    · simp only [hfa, if_true]
      by_cases hca : c = a
      · subst hca
        simp [getCell, hfa]
      · by_cases hlt : c < a
        · simp [getCell, hca, hlt]
        · simp [getCell, hca, hlt, ih hl]
    · simp only [hfa, Bool.false_eq_true, if_false, ih hl]
      by_cases hca : c = a
      · subst hca
        simp [hfa]
      · by_cases hlt : c < a
        · simp [getCell, hca, hlt, getCell_above (above_mono (Nat.le_of_lt hlt) hab)]
        · simp [getCell, hca, hlt]

/-! ## Poisoned codewords -/

theorem risingNats_cons {a : Nat} {l : List Nat} : risingNats (a :: l) = true ↔ (∀ b ∈ l, a < b) ∧ risingNats l = true := by
  induction l generalizing a with
  | nil => simp [risingNats]
  | cons b l ih =>
    simp only [risingNats, Bool.and_eq_true, decide_eq_true_eq]
    constructor
    · rintro ⟨hab, h⟩
      refine ⟨?_, h⟩
      intro c hc
      rcases List.mem_cons.mp hc with rfl | hc
      · exact hab
      · exact Nat.lt_trans hab ((ih.mp h).1 c hc)
    · rintro ⟨hab, h⟩
      exact ⟨hab b (by simp), h⟩

@[simp] theorem mem_addPoison (l : List Nat) (c x : Nat) : x ∈ addPoison l c ↔ x = c ∨ x ∈ l := by
  induction l with
  | nil => simp [addPoison]
  | cons d l ih =>
    unfold addPoison
    split
    · simp
    · split
      · rename_i he
        subst he
        simp
      · simp only [List.mem_cons, ih]
        tauto

theorem rising_addPoison {l : List Nat} (c : Nat) (h : risingNats l = true) : risingNats (addPoison l c) = true := by
  induction l with
  | nil => rfl
  | cons d l ih =>
    obtain ⟨hd, hl⟩ := risingNats_cons.mp h
    unfold addPoison
    split
    · rename_i hlt
      refine risingNats_cons.mpr ⟨?_, h⟩
      intro b hb
      rcases List.mem_cons.mp hb with rfl | hb
      · exact hlt
      · exact Nat.lt_trans hlt (hd b hb)
    · split
      · exact h
      · refine risingNats_cons.mpr ⟨?_, ih hl⟩
        intro b hb
        rcases (mem_addPoison l c b).mp hb with rfl | hb
        · omega
        · exact hd b hb

theorem rising_filter_nat {l : List Nat} (f : Nat → Bool) (h : risingNats l = true) : risingNats (l.filter f) = true := by
  induction l with
  | nil => rfl
  | cons a l ih =>
    obtain ⟨ha, hl⟩ := risingNats_cons.mp h
    rw [List.filter_cons]
    split
    · exact risingNats_cons.mpr ⟨fun b hb => ha b (List.mem_of_mem_filter hb), ih hl⟩
    · exact ih hl

/-! ## Whole operations -/

theorem Mem.wf_iff {m : Mem} : m.wf = true ↔ risingCells m.cells = true ∧ risingNats m.poison = true := by simp [Mem.wf]

/-- Every change of memory keeps its canonical form. -/
theorem Mem.apply_wf {m : Mem} (o : MemOp) (h : m.wf = true) : (m.apply o).wf = true := by
  obtain ⟨hc, hp⟩ := Mem.wf_iff.mp h
  cases o with
  | write addr bytes => exact Mem.wf_iff.mpr ⟨rising_setCells addr bytes hc, rising_filter_nat _ hp⟩
  | zero addr len => exact Mem.wf_iff.mpr ⟨rising_filter _ hc, rising_filter_nat _ hp⟩
  | poison c => exact Mem.wf_iff.mpr ⟨hc, rising_addPoison c hp⟩

/-- So do changes in order. -/
theorem Mem.applyAll_wf {m : Mem} (ops : List MemOp) (h : m.wf = true) : (m.applyAll ops).wf = true := by
  induction ops generalizing m with
  | nil => exact h
  | cons o os ih => exact ih (Mem.apply_wf o h)

@[simp] theorem Mem.applyAll_nil (m : Mem) : m.applyAll [] = m := rfl

theorem Mem.applyAll_append (m : Mem) (a b : List MemOp) : m.applyAll (a ++ b) = (m.applyAll a).applyAll b := by simp [Mem.applyAll]

/-- What a change of memory makes of one byte: the byte written or zeroed there, or what was there. -/
theorem Mem.getCell_apply {m : Mem} (o : MemOp) (c : Nat) (h : m.wf = true) :
    getCell (m.apply o).cells c = match o with
      | .write addr bytes => if addr ≤ c ∧ c < addr + bytes.length then bytes.getD (c - addr) 0 else getCell m.cells c
      | .zero addr len => if addr ≤ c ∧ c < addr + len then 0 else getCell m.cells c
      | .poison _ => getCell m.cells c := by
  obtain ⟨hc, hp⟩ := Mem.wf_iff.mp h
  cases o with
  | write addr bytes => exact getCell_setCells addr bytes c hc
  | zero addr len =>
    have := getCell_filter (fun a => decide (a < addr) || decide (addr + len ≤ a)) c hc
    simp only [Mem.apply]
    rw [this]
    by_cases hin : addr ≤ c ∧ c < addr + len
    · have : ¬ (c < addr ∨ addr + len ≤ c) := by omega
      simp [hin]
    · have : c < addr ∨ addr + len ≤ c := by omega
      simp [this, hin]
  | poison _ => rfl

/-- The memory after reset is canonical. -/
theorem reset_mem_wf : State.reset.mem.wf = true := rfl

end Sys2Proof.Machine
end

