-- ==== Sys2Proof/Laws/State.lean ====
section
/-! SUPPORT. What each named update of a command's work changes, and that it changes nothing else. -/

namespace Sys2Proof.Machine

/-! ## Memory and sending -/

@[simp] theorem Work.memOp_toDev (s : Work) (o : MemOp) : (s.memOp o).toDev = s.toDev := rfl
@[simp] theorem Work.memOp_ident (s : Work) (o : MemOp) : (s.memOp o).ident = s.ident := rfl
@[simp] theorem Work.memOp_mem (s : Work) (o : MemOp) : (s.memOp o).mem = s.mem.apply o := rfl
@[simp] theorem Work.memOp_writes (s : Work) (o : MemOp) : (s.memOp o).writes = s.writes ++ [o] := rfl
@[simp] theorem Work.memOp_sent (s : Work) (o : MemOp) : (s.memOp o).sent = s.sent := rfl
@[simp] theorem Work.memOp_get (s : Work) (o : MemOp) (k : Key) : (s.memOp o).get k = s.get k := rfl

@[simp] theorem Work.send_toDev (s : Work) (o : Output) : (s.send o).toDev = s.toDev := rfl
@[simp] theorem Work.send_ident (s : Work) (o : Output) : (s.send o).ident = s.ident := rfl
@[simp] theorem Work.send_mem (s : Work) (o : Output) : (s.send o).mem = s.mem := rfl
@[simp] theorem Work.send_writes (s : Work) (o : Output) : (s.send o).writes = s.writes := rfl
@[simp] theorem Work.send_sent (s : Work) (o : Output) : (s.send o).sent = s.sent ++ [o] := rfl
@[simp] theorem Work.send_get (s : Work) (o : Output) (k : Key) : (s.send o).get k = s.get k := rfl

/-! ## The fields -/

@[simp] theorem Work.set_toDev (s : Work) (k : Key) (v : Nat) : (s.set k v).toDev = { s.toDev with objs := put s.objs k v } := rfl
@[simp] theorem Work.set_ident (s : Work) (k : Key) (v : Nat) : (s.set k v).ident = s.ident := rfl
@[simp] theorem Work.set_mem (s : Work) (k : Key) (v : Nat) : (s.set k v).mem = s.mem := rfl
@[simp] theorem Work.set_writes (s : Work) (k : Key) (v : Nat) : (s.set k v).writes = s.writes := rfl
@[simp] theorem Work.set_sent (s : Work) (k : Key) (v : Nat) : (s.set k v).sent = s.sent := rfl
@[simp] theorem Work.set_dom (s : Work) (k : Key) (v : Nat) (q : Key) : (s.set k v).dom q = s.dom q := rfl

@[simp] theorem Work.setDom_toDev (s : Work) (k : Key) (b : List Byte) : (s.setDom k b).toDev = { s.toDev with doms := put s.doms k ⟨(s.dom k).gen + 1, b⟩ } := rfl
@[simp] theorem Work.setDom_ident (s : Work) (k : Key) (b : List Byte) : (s.setDom k b).ident = s.ident := rfl
@[simp] theorem Work.setDom_mem (s : Work) (k : Key) (b : List Byte) : (s.setDom k b).mem = s.mem := rfl
@[simp] theorem Work.setDom_writes (s : Work) (k : Key) (b : List Byte) : (s.setDom k b).writes = s.writes := rfl
@[simp] theorem Work.setDom_sent (s : Work) (k : Key) (b : List Byte) : (s.setDom k b).sent = s.sent := rfl
@[simp] theorem Work.setDom_get (s : Work) (k : Key) (b : List Byte) (q : Key) : (s.setDom k b).get q = s.get q := rfl

@[simp] theorem Work.modDict_toDev (s : Work) (f : DictState → DictState) : (s.modDict f).toDev = { s.toDev with dict := f s.dict } := rfl
@[simp] theorem Work.modDict_ident (s : Work) (f : DictState → DictState) : (s.modDict f).ident = s.ident := rfl
@[simp] theorem Work.modDict_mem (s : Work) (f : DictState → DictState) : (s.modDict f).mem = s.mem := rfl
@[simp] theorem Work.modDict_writes (s : Work) (f : DictState → DictState) : (s.modDict f).writes = s.writes := rfl
@[simp] theorem Work.modDict_sent (s : Work) (f : DictState → DictState) : (s.modDict f).sent = s.sent := rfl
@[simp] theorem Work.modDict_get (s : Work) (f : DictState → DictState) (q : Key) : (s.modDict f).get q = s.get q := rfl
@[simp] theorem Work.modDict_dom (s : Work) (f : DictState → DictState) (q : Key) : (s.modDict f).dom q = s.dom q := rfl

@[simp] theorem Work.setWindow_toDev (s : Work) (w : FnWin) (x : Window) : (s.setWindow w x).toDev = { s.toDev with dict := { s.dict with windows := put s.dict.windows w x } } := rfl
@[simp] theorem Work.setWindow_ident (s : Work) (w : FnWin) (x : Window) : (s.setWindow w x).ident = s.ident := rfl
@[simp] theorem Work.setWindow_mem (s : Work) (w : FnWin) (x : Window) : (s.setWindow w x).mem = s.mem := rfl
@[simp] theorem Work.setWindow_writes (s : Work) (w : FnWin) (x : Window) : (s.setWindow w x).writes = s.writes := rfl
@[simp] theorem Work.setWindow_sent (s : Work) (w : FnWin) (x : Window) : (s.setWindow w x).sent = s.sent := rfl
@[simp] theorem Work.setWindow_get (s : Work) (w : FnWin) (x : Window) (q : Key) : (s.setWindow w x).get q = s.get q := rfl
@[simp] theorem Work.setWindow_dom (s : Work) (w : FnWin) (x : Window) (q : Key) : (s.setWindow w x).dom q = s.dom q := rfl

@[simp] theorem Work.setIsland_toDev (s : Work) (i : Nat) (c : IslandCond) : (s.setIsland i c).toDev = { s.toDev with islands := put s.islands i c } := rfl
@[simp] theorem Work.setIsland_ident (s : Work) (i : Nat) (c : IslandCond) : (s.setIsland i c).ident = s.ident := rfl
@[simp] theorem Work.setIsland_mem (s : Work) (i : Nat) (c : IslandCond) : (s.setIsland i c).mem = s.mem := rfl
@[simp] theorem Work.setIsland_writes (s : Work) (i : Nat) (c : IslandCond) : (s.setIsland i c).writes = s.writes := rfl
@[simp] theorem Work.setIsland_sent (s : Work) (i : Nat) (c : IslandCond) : (s.setIsland i c).sent = s.sent := rfl
@[simp] theorem Work.setIsland_get (s : Work) (i : Nat) (c : IslandCond) (q : Key) : (s.setIsland i c).get q = s.get q := rfl
@[simp] theorem Work.setIsland_dom (s : Work) (i : Nat) (c : IslandCond) (q : Key) : (s.setIsland i c).dom q = s.dom q := rfl

@[simp] theorem Work.setDomain_toDev (s : Work) (d : Nat) (x : ThermDomain) : (s.setDomain d x).toDev = { s.toDev with power := { s.power with domains := setAt .reset s.power.domains d x } } := rfl
@[simp] theorem Work.setDomain_ident (s : Work) (d : Nat) (x : ThermDomain) : (s.setDomain d x).ident = s.ident := rfl
@[simp] theorem Work.setDomain_mem (s : Work) (d : Nat) (x : ThermDomain) : (s.setDomain d x).mem = s.mem := rfl
@[simp] theorem Work.setDomain_writes (s : Work) (d : Nat) (x : ThermDomain) : (s.setDomain d x).writes = s.writes := rfl
@[simp] theorem Work.setDomain_sent (s : Work) (d : Nat) (x : ThermDomain) : (s.setDomain d x).sent = s.sent := rfl
@[simp] theorem Work.setDomain_get (s : Work) (d : Nat) (x : ThermDomain) (q : Key) : (s.setDomain d x).get q = s.get q := rfl
@[simp] theorem Work.setDomain_dom (s : Work) (d : Nat) (x : ThermDomain) (q : Key) : (s.setDomain d x).dom q = s.dom q := rfl

@[simp] theorem Work.setHk_toDev (s : Work) (h : Nat) (x : HkHalf) : (s.setHk h x).toDev = { s.toDev with hk := setAt .reset s.hk h x } := rfl
@[simp] theorem Work.setHk_ident (s : Work) (h : Nat) (x : HkHalf) : (s.setHk h x).ident = s.ident := rfl
@[simp] theorem Work.setHk_mem (s : Work) (h : Nat) (x : HkHalf) : (s.setHk h x).mem = s.mem := rfl
@[simp] theorem Work.setHk_writes (s : Work) (h : Nat) (x : HkHalf) : (s.setHk h x).writes = s.writes := rfl
@[simp] theorem Work.setHk_sent (s : Work) (h : Nat) (x : HkHalf) : (s.setHk h x).sent = s.sent := rfl
@[simp] theorem Work.setHk_get (s : Work) (h : Nat) (x : HkHalf) (q : Key) : (s.setHk h x).get q = s.get q := rfl
@[simp] theorem Work.setHk_dom (s : Work) (h : Nat) (x : HkHalf) (q : Key) : (s.setHk h x).dom q = s.dom q := rfl

@[simp] theorem Work.setPort_toDev (s : Work) (p : Nat) (x : Port) : (s.setPort p x).toDev = { s.toDev with host := { s.host with ports := setAt .reset s.host.ports p x } } := rfl
@[simp] theorem Work.setPort_ident (s : Work) (p : Nat) (x : Port) : (s.setPort p x).ident = s.ident := rfl
@[simp] theorem Work.setPort_mem (s : Work) (p : Nat) (x : Port) : (s.setPort p x).mem = s.mem := rfl
@[simp] theorem Work.setPort_writes (s : Work) (p : Nat) (x : Port) : (s.setPort p x).writes = s.writes := rfl
@[simp] theorem Work.setPort_sent (s : Work) (p : Nat) (x : Port) : (s.setPort p x).sent = s.sent := rfl
@[simp] theorem Work.setPort_get (s : Work) (p : Nat) (x : Port) (q : Key) : (s.setPort p x).get q = s.get q := rfl
@[simp] theorem Work.setPort_dom (s : Work) (p : Nat) (x : Port) (q : Key) : (s.setPort p x).dom q = s.dom q := rfl

@[simp] theorem Work.setRing_toDev (s : Work) (t : Nat) (x : Ring) : (s.setRing t x).toDev = { s.toDev with host := { s.host with rings := put s.host.rings t x } } := rfl
@[simp] theorem Work.setRing_ident (s : Work) (t : Nat) (x : Ring) : (s.setRing t x).ident = s.ident := rfl
@[simp] theorem Work.setRing_mem (s : Work) (t : Nat) (x : Ring) : (s.setRing t x).mem = s.mem := rfl
@[simp] theorem Work.setRing_writes (s : Work) (t : Nat) (x : Ring) : (s.setRing t x).writes = s.writes := rfl
@[simp] theorem Work.setRing_sent (s : Work) (t : Nat) (x : Ring) : (s.setRing t x).sent = s.sent := rfl
@[simp] theorem Work.setRing_get (s : Work) (t : Nat) (x : Ring) (q : Key) : (s.setRing t x).get q = s.get q := rfl
@[simp] theorem Work.setRing_dom (s : Work) (t : Nat) (x : Ring) (q : Key) : (s.setRing t x).dom q = s.dom q := rfl

@[simp] theorem Work.modHost_toDev (s : Work) (f : HostState → HostState) : (s.modHost f).toDev = { s.toDev with host := f s.host } := rfl
@[simp] theorem Work.modHost_ident (s : Work) (f : HostState → HostState) : (s.modHost f).ident = s.ident := rfl
@[simp] theorem Work.modHost_mem (s : Work) (f : HostState → HostState) : (s.modHost f).mem = s.mem := rfl
@[simp] theorem Work.modHost_writes (s : Work) (f : HostState → HostState) : (s.modHost f).writes = s.writes := rfl
@[simp] theorem Work.modHost_sent (s : Work) (f : HostState → HostState) : (s.modHost f).sent = s.sent := rfl
@[simp] theorem Work.modHost_get (s : Work) (f : HostState → HostState) (q : Key) : (s.modHost f).get q = s.get q := rfl
@[simp] theorem Work.modHost_dom (s : Work) (f : HostState → HostState) (q : Key) : (s.modHost f).dom q = s.dom q := rfl

@[simp] theorem Work.setDma_toDev (s : Work) (c : Nat) (x : DmaChan) : (s.setDma c x).toDev = { s.toDev with dma := put s.dma c x } := rfl
@[simp] theorem Work.setDma_ident (s : Work) (c : Nat) (x : DmaChan) : (s.setDma c x).ident = s.ident := rfl
@[simp] theorem Work.setDma_mem (s : Work) (c : Nat) (x : DmaChan) : (s.setDma c x).mem = s.mem := rfl
@[simp] theorem Work.setDma_writes (s : Work) (c : Nat) (x : DmaChan) : (s.setDma c x).writes = s.writes := rfl
@[simp] theorem Work.setDma_sent (s : Work) (c : Nat) (x : DmaChan) : (s.setDma c x).sent = s.sent := rfl
@[simp] theorem Work.setDma_get (s : Work) (c : Nat) (x : DmaChan) (q : Key) : (s.setDma c x).get q = s.get q := rfl
@[simp] theorem Work.setDma_dom (s : Work) (c : Nat) (x : DmaChan) (q : Key) : (s.setDma c x).dom q = s.dom q := rfl

@[simp] theorem Work.setTest_toDev (s : Work) (c : Nat) (x : CoreTest) : (s.setTest c x).toDev = { s.toDev with rel := { s.rel with tests := put s.rel.tests c x } } := rfl
@[simp] theorem Work.setTest_ident (s : Work) (c : Nat) (x : CoreTest) : (s.setTest c x).ident = s.ident := rfl
@[simp] theorem Work.setTest_mem (s : Work) (c : Nat) (x : CoreTest) : (s.setTest c x).mem = s.mem := rfl
@[simp] theorem Work.setTest_writes (s : Work) (c : Nat) (x : CoreTest) : (s.setTest c x).writes = s.writes := rfl
@[simp] theorem Work.setTest_sent (s : Work) (c : Nat) (x : CoreTest) : (s.setTest c x).sent = s.sent := rfl
@[simp] theorem Work.setTest_get (s : Work) (c : Nat) (x : CoreTest) (q : Key) : (s.setTest c x).get q = s.get q := rfl
@[simp] theorem Work.setTest_dom (s : Work) (c : Nat) (x : CoreTest) (q : Key) : (s.setTest c x).dom q = s.dom q := rfl

@[simp] theorem Work.modBoot_toDev (s : Work) (f : BootState → BootState) : (s.modBoot f).toDev = { s.toDev with boot := f s.boot } := rfl
@[simp] theorem Work.modBoot_ident (s : Work) (f : BootState → BootState) : (s.modBoot f).ident = s.ident := rfl
@[simp] theorem Work.modBoot_mem (s : Work) (f : BootState → BootState) : (s.modBoot f).mem = s.mem := rfl
@[simp] theorem Work.modBoot_writes (s : Work) (f : BootState → BootState) : (s.modBoot f).writes = s.writes := rfl
@[simp] theorem Work.modBoot_sent (s : Work) (f : BootState → BootState) : (s.modBoot f).sent = s.sent := rfl
@[simp] theorem Work.modBoot_get (s : Work) (f : BootState → BootState) (q : Key) : (s.modBoot f).get q = s.get q := rfl
@[simp] theorem Work.modBoot_dom (s : Work) (f : BootState → BootState) (q : Key) : (s.modBoot f).dom q = s.dom q := rfl

@[simp] theorem Work.setLink_toDev (s : Work) (l : Nat) (x : Link) : (s.setLink l x).toDev = { s.toDev with links := setAt .reset s.links l x } := rfl
@[simp] theorem Work.setLink_ident (s : Work) (l : Nat) (x : Link) : (s.setLink l x).ident = s.ident := rfl
@[simp] theorem Work.setLink_mem (s : Work) (l : Nat) (x : Link) : (s.setLink l x).mem = s.mem := rfl
@[simp] theorem Work.setLink_writes (s : Work) (l : Nat) (x : Link) : (s.setLink l x).writes = s.writes := rfl
@[simp] theorem Work.setLink_sent (s : Work) (l : Nat) (x : Link) : (s.setLink l x).sent = s.sent := rfl
@[simp] theorem Work.setLink_get (s : Work) (l : Nat) (x : Link) (q : Key) : (s.setLink l x).get q = s.get q := rfl
@[simp] theorem Work.setLink_dom (s : Work) (l : Nat) (x : Link) (q : Key) : (s.setLink l x).dom q = s.dom q := rfl

@[simp] theorem Work.modGroup_toDev (s : Work) (f : GroupRec → GroupRec) : (s.modGroup f).toDev = { s.toDev with group := f s.group } := rfl
@[simp] theorem Work.modGroup_ident (s : Work) (f : GroupRec → GroupRec) : (s.modGroup f).ident = s.ident := rfl
@[simp] theorem Work.modGroup_mem (s : Work) (f : GroupRec → GroupRec) : (s.modGroup f).mem = s.mem := rfl
@[simp] theorem Work.modGroup_writes (s : Work) (f : GroupRec → GroupRec) : (s.modGroup f).writes = s.writes := rfl
@[simp] theorem Work.modGroup_sent (s : Work) (f : GroupRec → GroupRec) : (s.modGroup f).sent = s.sent := rfl
@[simp] theorem Work.modGroup_get (s : Work) (f : GroupRec → GroupRec) (q : Key) : (s.modGroup f).get q = s.get q := rfl
@[simp] theorem Work.modGroup_dom (s : Work) (f : GroupRec → GroupRec) (q : Key) : (s.modGroup f).dom q = s.dom q := rfl

@[simp] theorem Work.setArr_toDev (s : Work) (a : Nat) (x : Arr) : (s.setArr a x).toDev = { s.toDev with arrs := put s.arrs a x } := rfl
@[simp] theorem Work.setArr_ident (s : Work) (a : Nat) (x : Arr) : (s.setArr a x).ident = s.ident := rfl
@[simp] theorem Work.setArr_mem (s : Work) (a : Nat) (x : Arr) : (s.setArr a x).mem = s.mem := rfl
@[simp] theorem Work.setArr_writes (s : Work) (a : Nat) (x : Arr) : (s.setArr a x).writes = s.writes := rfl
@[simp] theorem Work.setArr_sent (s : Work) (a : Nat) (x : Arr) : (s.setArr a x).sent = s.sent := rfl
@[simp] theorem Work.setArr_get (s : Work) (a : Nat) (x : Arr) (q : Key) : (s.setArr a x).get q = s.get q := rfl
@[simp] theorem Work.setArr_dom (s : Work) (a : Nat) (x : Arr) (q : Key) : (s.setArr a x).dom q = s.dom q := rfl

@[simp] theorem Work.setEngine_toDev (s : Work) (e : Nat) (x : Engine) : (s.setEngine e x).toDev = { s.toDev with engines := put s.engines e x } := rfl
@[simp] theorem Work.setEngine_ident (s : Work) (e : Nat) (x : Engine) : (s.setEngine e x).ident = s.ident := rfl
@[simp] theorem Work.setEngine_mem (s : Work) (e : Nat) (x : Engine) : (s.setEngine e x).mem = s.mem := rfl
@[simp] theorem Work.setEngine_writes (s : Work) (e : Nat) (x : Engine) : (s.setEngine e x).writes = s.writes := rfl
@[simp] theorem Work.setEngine_sent (s : Work) (e : Nat) (x : Engine) : (s.setEngine e x).sent = s.sent := rfl
@[simp] theorem Work.setEngine_get (s : Work) (e : Nat) (x : Engine) (q : Key) : (s.setEngine e x).get q = s.get q := rfl
@[simp] theorem Work.setEngine_dom (s : Work) (e : Nat) (x : Engine) (q : Key) : (s.setEngine e x).dom q = s.dom q := rfl

@[simp] theorem Work.setSlot_toDev (s : Work) (n : Nat) (x : SlotData) : (s.setSlot n x).toDev = { s.toDev with slots := setAt ⟨[]⟩ s.slots n x } := rfl
@[simp] theorem Work.setSlot_ident (s : Work) (n : Nat) (x : SlotData) : (s.setSlot n x).ident = s.ident := rfl
@[simp] theorem Work.setSlot_mem (s : Work) (n : Nat) (x : SlotData) : (s.setSlot n x).mem = s.mem := rfl
@[simp] theorem Work.setSlot_writes (s : Work) (n : Nat) (x : SlotData) : (s.setSlot n x).writes = s.writes := rfl
@[simp] theorem Work.setSlot_sent (s : Work) (n : Nat) (x : SlotData) : (s.setSlot n x).sent = s.sent := rfl
@[simp] theorem Work.setSlot_get (s : Work) (n : Nat) (x : SlotData) (q : Key) : (s.setSlot n x).get q = s.get q := rfl
@[simp] theorem Work.setSlot_dom (s : Work) (n : Nat) (x : SlotData) (q : Key) : (s.setSlot n x).dom q = s.dom q := rfl

@[simp] theorem Work.modStep_toDev (s : Work) (f : StepState → StepState) : (s.modStep f).toDev = { s.toDev with step := f s.step } := rfl
@[simp] theorem Work.modStep_ident (s : Work) (f : StepState → StepState) : (s.modStep f).ident = s.ident := rfl
@[simp] theorem Work.modStep_mem (s : Work) (f : StepState → StepState) : (s.modStep f).mem = s.mem := rfl
@[simp] theorem Work.modStep_writes (s : Work) (f : StepState → StepState) : (s.modStep f).writes = s.writes := rfl
@[simp] theorem Work.modStep_sent (s : Work) (f : StepState → StepState) : (s.modStep f).sent = s.sent := rfl
@[simp] theorem Work.modStep_get (s : Work) (f : StepState → StepState) (q : Key) : (s.modStep f).get q = s.get q := rfl
@[simp] theorem Work.modStep_dom (s : Work) (f : StepState → StepState) (q : Key) : (s.modStep f).dom q = s.dom q := rfl

@[simp] theorem Work.setShadows_toDev (s : Work) (l : List Shadow) : (s.setShadows l).toDev = { s.toDev with res := { s.res with shadows := l } } := rfl
@[simp] theorem Work.setShadows_ident (s : Work) (l : List Shadow) : (s.setShadows l).ident = s.ident := rfl
@[simp] theorem Work.setShadows_mem (s : Work) (l : List Shadow) : (s.setShadows l).mem = s.mem := rfl
@[simp] theorem Work.setShadows_writes (s : Work) (l : List Shadow) : (s.setShadows l).writes = s.writes := rfl
@[simp] theorem Work.setShadows_sent (s : Work) (l : List Shadow) : (s.setShadows l).sent = s.sent := rfl
@[simp] theorem Work.setShadows_get (s : Work) (l : List Shadow) (q : Key) : (s.setShadows l).get q = s.get q := rfl
@[simp] theorem Work.setShadows_dom (s : Work) (l : List Shadow) (q : Key) : (s.setShadows l).dom q = s.dom q := rfl

@[simp] theorem Work.modServe_toDev (s : Work) (f : ServeState → ServeState) : (s.modServe f).toDev = { s.toDev with serve := f s.serve } := rfl
@[simp] theorem Work.modServe_ident (s : Work) (f : ServeState → ServeState) : (s.modServe f).ident = s.ident := rfl
@[simp] theorem Work.modServe_mem (s : Work) (f : ServeState → ServeState) : (s.modServe f).mem = s.mem := rfl
@[simp] theorem Work.modServe_writes (s : Work) (f : ServeState → ServeState) : (s.modServe f).writes = s.writes := rfl
@[simp] theorem Work.modServe_sent (s : Work) (f : ServeState → ServeState) : (s.modServe f).sent = s.sent := rfl
@[simp] theorem Work.modServe_get (s : Work) (f : ServeState → ServeState) (q : Key) : (s.modServe f).get q = s.get q := rfl
@[simp] theorem Work.modServe_dom (s : Work) (f : ServeState → ServeState) (q : Key) : (s.modServe f).dom q = s.dom q := rfl

@[simp] theorem Work.modVars_toDev (s : Work) (f : VarState → VarState) : (s.modVars f).toDev = { s.toDev with vars := f s.vars } := rfl
@[simp] theorem Work.modVars_ident (s : Work) (f : VarState → VarState) : (s.modVars f).ident = s.ident := rfl
@[simp] theorem Work.modVars_mem (s : Work) (f : VarState → VarState) : (s.modVars f).mem = s.mem := rfl
@[simp] theorem Work.modVars_writes (s : Work) (f : VarState → VarState) : (s.modVars f).writes = s.writes := rfl
@[simp] theorem Work.modVars_sent (s : Work) (f : VarState → VarState) : (s.modVars f).sent = s.sent := rfl
@[simp] theorem Work.modVars_get (s : Work) (f : VarState → VarState) (q : Key) : (s.modVars f).get q = s.get q := rfl
@[simp] theorem Work.modVars_dom (s : Work) (f : VarState → VarState) (q : Key) : (s.modVars f).dom q = s.dom q := rfl

/-! ## The values of objects -/

/-- The value of an object after an object has been set. -/
@[simp] theorem Work.set_get (s : Work) (k : Key) (v : Nat) (q : Key) : (s.set k v).get q = if k = q then v else s.get q := by
  simp [Work.get, Work.set]

/-- The value of a DOMAIN after a DOMAIN has been committed. -/
@[simp] theorem Work.setDom_dom (s : Work) (k : Key) (b : List Byte) (q : Key) :
    (s.setDom k b).dom q = if k = q then ⟨(s.dom k).gen + 1, b⟩ else s.dom q := by
  simp [Work.dom, Work.setDom]

/-- What a count becomes: its sum, or past the range of its type an open value within it (assumption log 4). -/
def countPast (k : Key) (v : Nat) : Nat := if v < 2 ^ bitsOf k then v else Config.counterPast k v % 2 ^ bitsOf k

theorem Work.add_eq (s : Work) (k : Key) (n : Nat) : s.add k n = s.set k (countPast k (s.get k + n)) := rfl

@[simp] theorem Work.add_toDev (s : Work) (k : Key) (n : Nat) : (s.add k n).toDev = { s.toDev with objs := put s.objs k (countPast k (s.get k + n)) } := rfl
@[simp] theorem Work.add_ident (s : Work) (k : Key) (n : Nat) : (s.add k n).ident = s.ident := rfl
@[simp] theorem Work.add_mem (s : Work) (k : Key) (n : Nat) : (s.add k n).mem = s.mem := rfl
@[simp] theorem Work.add_writes (s : Work) (k : Key) (n : Nat) : (s.add k n).writes = s.writes := rfl
@[simp] theorem Work.add_sent (s : Work) (k : Key) (n : Nat) : (s.add k n).sent = s.sent := rfl
@[simp] theorem Work.add_dom (s : Work) (k : Key) (n : Nat) (q : Key) : (s.add k n).dom q = s.dom q := rfl

@[simp] theorem Work.add_get (s : Work) (k : Key) (n : Nat) (q : Key) : (s.add k n).get q = if k = q then countPast k (s.get k + n) else s.get q := by
  rw [Work.add_eq, Work.set_get]

theorem countPast_of_lt {k : Key} {v : Nat} (h : v < 2 ^ bitsOf k) : countPast k v = v := if_pos h

@[simp] theorem Work.raise_get (s : Work) (k : Key) (v : Nat) (q : Key) : (s.raise k v).get q = if k = q then max (s.get k) (objValue k v) else s.get q := by
  simp [Work.raise]

/-! ## Reading back what has been set -/

@[simp] theorem Work.setIsland_cond (s : Work) (i : Nat) (c : IslandCond) (j : Nat) :
    (s.setIsland i c).islandCond j = if i = j then c else s.islandCond j := by simp [Work.islandCond, Work.setIsland]

@[simp] theorem Work.setWindow_window (s : Work) (w : FnWin) (x : Window) (v : FnWin) :
    (s.setWindow w x).window v = if w = v then x else s.window v := by simp [Work.window, Work.setWindow]

@[simp] theorem Work.setDomain_domain (s : Work) (d : Nat) (x : ThermDomain) (e : Nat) :
    (s.setDomain d x).domain e = if e = d then x else s.domain e := by simp only [Work.domain, Work.setDomain, getD_setAt]

@[simp] theorem Work.setPort_port (s : Work) (p : Nat) (x : Port) (q : Nat) :
    (s.setPort p x).port q = if q = p then x else s.port q := by simp only [Work.port, Work.setPort, getD_setAt]

@[simp] theorem Work.setLink_link (s : Work) (l : Nat) (x : Link) (m : Nat) :
    (s.setLink l x).link m = if m = l then x else s.link m := by simp only [Work.link, Work.setLink, getD_setAt]

@[simp] theorem Work.setHk_half (s : Work) (h : Nat) (x : HkHalf) (g : Nat) :
    (s.setHk h x).hkHalf g = if g = h then x else s.hkHalf g := by simp only [Work.hkHalf, Work.setHk, getD_setAt]

@[simp] theorem Work.setDma_chan (s : Work) (c : Nat) (x : DmaChan) (d : Nat) :
    (s.setDma c x).dmaChan d = if c = d then x else s.dmaChan d := by simp [Work.dmaChan, Work.setDma]

@[simp] theorem Work.setRing_ring (s : Work) (t : Nat) (x : Ring) (u : Nat) :
    (s.setRing t x).ring u = if t = u then x else s.ring u := by simp [Work.ring, Work.setRing]

@[simp] theorem Work.setTest_test (s : Work) (c : Nat) (x : CoreTest) (d : Nat) :
    (s.setTest c x).coreTest d = if c = d then x else s.coreTest d := by simp [Work.coreTest, Work.setTest]

@[simp] theorem Work.setEngine_engine (s : Work) (e : Nat) (x : Engine) (f : Nat) :
    (s.setEngine e x).engine f = if e = f then x else s.engine f := by simp [Work.engine, Work.setEngine]

@[simp] theorem Work.setSlot_slot (s : Work) (n : Nat) (x : SlotData) (m : Nat) :
    (s.setSlot n x).slot m = if m = n then x else s.slot m := by simp only [Work.slot, Work.setSlot, getD_setAt]

end Sys2Proof.Machine
end

