-- ==== Sys2Proof/Laws/Run.lean ====
section
/-! SUPPORT. From a command's work to the next state: what `State.run` makes of each part, and what the transmitters of the links can
change. -/

namespace Sys2Proof.Machine

/-! ## The shape of an outcome -/

@[simp] theorem State.work_toDev (s : State) : s.work.toDev = s.dev := rfl
@[simp] theorem State.work_ident (s : State) : s.work.ident = s.ident := rfl
@[simp] theorem State.work_mem (s : State) : s.work.mem = s.mem := rfl
@[simp] theorem State.work_writes (s : State) : s.work.writes = [] := rfl
@[simp] theorem State.work_sent (s : State) : s.work.sent = [] := rfl

theorem State.next_eq {s t : State} {f : Work → Work} : s.next f = .next t ↔ t = s.run f := by
  simp only [State.next, Host.Outcome.next.injEq]
  exact eq_comm

theorem State.nextIf_eq {s t : State} {c : Bool} {f : Work → Work} : s.nextIf c f = .next t ↔ c = true ∧ t = s.run f := by
  cases c <;> simp [State.nextIf, eq_comm]

theorem State.nextIf_true {s : State} {c : Bool} {f : Work → Work} (h : c = true) : s.nextIf c f = .next (s.run f) := by simp [State.nextIf, h]

theorem State.next_ne_refused (s : State) (f : Work → Work) (x : Refusal) : s.next f ≠ .refused x := nofun

theorem State.nextIf_ne_refused (s : State) (c : Bool) (f : Work → Work) (x : Refusal) : s.nextIf c f ≠ .refused x := by
  cases c <;> simp [State.nextIf]

@[simp] theorem State.run_pending (s : State) (f : Work → Work) : (s.run f).pending = s.pending := rfl
@[simp] theorem State.run_ident (s : State) (f : Work → Work) : (s.run f).ident = s.ident := rfl
@[simp] theorem State.run_dev (s : State) (f : Work → Work) : (s.run f).dev = ((f s.work).transmit (f s.work).sent).toDev := rfl

/-! ## The transmitters -/

/-- The second work differs from the first in the links, the count of free values and the links' counters only. -/
def linksOnly (s t : Work) : Prop :=
  (∃ ls n os, t = { s with links := ls, free := n, objs := os }) ∧ ∀ k, ¬ linkCounter k → t.get k = s.get k

theorem linksOnly_refl (s : Work) : linksOnly s s := ⟨⟨s.links, s.free, s.objs, rfl⟩, fun _ _ => rfl⟩

theorem linksOnly_trans {s t u : Work} (h : linksOnly s t) (g : linksOnly t u) : linksOnly s u := by
  obtain ⟨⟨ls, n, os, rfl⟩, h2⟩ := h
  obtain ⟨⟨ls', n', os', rfl⟩, g2⟩ := g
  exact ⟨⟨ls', n', os', rfl⟩, fun k hk => (g2 k hk).trans (h2 k hk)⟩

theorem linksOnly_links (s : Work) (ls : List Link) : linksOnly s { s with links := ls } := ⟨⟨ls, s.free, s.objs, rfl⟩, fun _ _ => rfl⟩

theorem linksOnly_free (s : Work) (n : Nat) : linksOnly s { s with free := n } := ⟨⟨s.links, n, s.objs, rfl⟩, fun _ _ => rfl⟩

theorem linksOnly_add (s : Work) {k : Key} (n : Nat) (hk : linkCounter k) : linksOnly s (s.add k n) := by
  refine ⟨⟨s.links, s.free, (s.add k n).objs, rfl⟩, fun q hq => ?_⟩
  rw [Work.add_get, if_neg]
  rintro rfl
  exact hq hk

theorem linksOnly_raise (s : Work) {k : Key} (n : Nat) (hk : linkCounter k) : linksOnly s (s.raise k n) := by
  refine ⟨⟨s.links, s.free, (s.raise k n).objs, rfl⟩, fun q hq => ?_⟩
  rw [Work.raise_get, if_neg]
  rintro rfl
  exact hq hk

theorem linksOnly_set (s : Work) {k : Key} (n : Nat) (hk : linkCounter k) : linksOnly s (s.set k n) := by
  refine ⟨⟨s.links, s.free, (s.set k n).objs, rfl⟩, fun q hq => ?_⟩
  rw [Work.set_get, if_neg]
  rintro rfl
  exact hq hk

theorem linksOnly_foldl {α : Type} (l : List α) (f : Work → α → Work) (h : ∀ s a, linksOnly s (f s a)) (s : Work) : linksOnly s (l.foldl f s) := by
  induction l generalizing s with
  | nil => exact linksOnly_refl s
  | cons a l ih => exact linksOnly_trans (h s a) (ih (f s a))

/-- A link's transmitter changes the link and the bytes it has sent. -/
theorem Work.pumpLink_only (s : Work) (l : Nat) : linksOnly s (s.pumpLink l) := by
  unfold Work.pumpLink
  split
  · exact linksOnly_refl s
  · rename_i k _
    dsimp only
    split
    · exact linksOnly_links s _
    · exact linksOnly_trans (linksOnly_links s (s.links.set l (k.pump k.waiting.length).1)) (linksOnly_add _ _ (.inl rfl))

/-- So does queueing flits at it. -/
theorem Work.queueFlits_only (s : Work) (l vl n : Nat) : linksOnly s (s.queueFlits l vl n) := by
  unfold Work.queueFlits
  split
  · exact linksOnly_refl s
  · rename_i k _
    dsimp only
    split
    · exact linksOnly_refl s
    · refine linksOnly_trans (linksOnly_trans (linksOnly_links s (s.links.set l { k with waiting := k.waiting ++ List.replicate n vl })) ?_)
        (Work.pumpLink_only _ l)
      split
      · exact linksOnly_refl _
      · split
        · exact linksOnly_add _ _ (.inr (.inl rfl))
        · exact linksOnly_raise _ _ (.inr (.inr rfl))

/-- Sending what a command gives out changes the links and their counters, and nothing else. -/
theorem Work.transmit_only (s : Work) (os : List Output) : linksOnly s (s.transmit os) := by
  induction os generalizing s with
  | nil => exact linksOnly_refl s
  | cons o os ih =>
    cases o with
    | fabric dst link m =>
      simp only [Work.transmit]
      split
      · exact ih s
      · exact linksOnly_trans (linksOnly_trans (linksOnly_free s _) (linksOnly_foldl _ _ (fun w l => Work.queueFlits_only w l _ _) _)) (ih _)
    | _ => exact ih s

/-- What a command gives out that is not for the fabric leaves the links as they are. -/
theorem Work.transmit_local (s : Work) (os : List Output) (h : ∀ dst link m, Output.fabric dst link m ∉ os) : s.transmit os = s := by
  induction os generalizing s with
  | nil => rfl
  | cons o os ih =>
    cases o with
    | fabric dst link m => exact absurd (by simp) (h dst link m)
    | _ => exact ih s (fun dst link m hm => h dst link m (by simp [hm]))

@[simp] theorem Work.transmit_nil (s : Work) : s.transmit [] = s := rfl

@[simp] theorem Work.transmit_ident (s : Work) (os : List Output) : (s.transmit os).ident = s.ident := by
  obtain ⟨⟨ls, n, obs, h⟩, -⟩ := Work.transmit_only s os
  rw [h]

@[simp] theorem Work.transmit_mem (s : Work) (os : List Output) : (s.transmit os).mem = s.mem := by
  obtain ⟨⟨ls, n, obs, h⟩, -⟩ := Work.transmit_only s os
  rw [h]

@[simp] theorem Work.transmit_writes (s : Work) (os : List Output) : (s.transmit os).writes = s.writes := by
  obtain ⟨⟨ls, n, obs, h⟩, -⟩ := Work.transmit_only s os
  rw [h]

@[simp] theorem Work.transmit_sent (s : Work) (os : List Output) : (s.transmit os).sent = s.sent := by
  obtain ⟨⟨ls, n, obs, h⟩, -⟩ := Work.transmit_only s os
  rw [h]

/-! ## Parts of the next state -/

/-- Memory takes the changes the command made. -/
theorem State.run_mem (s : State) (f : Work → Work) : (s.run f).mem = s.mem.applyAll (f s.work).writes := by simp [State.run]

/-- What the command gave out is appended, and then the vectors it raised. -/
theorem State.run_out (s : State) (f : Work → Work) :
    (s.run f).out = s.out ++ (f s.work).sent ++ edgeVectors s.work ((f s.work).transmit (f s.work).sent) := by simp [State.run]

/-- The value of an object that is no counter of a link. -/
theorem State.run_val (s : State) (f : Work → Work) (k : Key) (h : ¬ linkCounter k) : (s.run f).val k = (f s.work).get k :=
  (Work.transmit_only (f s.work) (f s.work).sent).2 k h

/-- A command that gives out nothing for the fabric leaves the device as its work does. -/
theorem State.run_dev_local (s : State) (f : Work → Work) (h : ∀ dst link m, Output.fabric dst link m ∉ (f s.work).sent) :
    (s.run f).dev = (f s.work).toDev := by rw [State.run_dev, Work.transmit_local _ _ h]

/-- The parts of the device that its work does not change stay, but for the links. -/
theorem State.run_dev_eq (s : State) (f : Work → Work) :
    ∃ ls n os, (s.run f).dev = { (f s.work).toDev with links := ls, free := n, objs := os } := by
  obtain ⟨⟨ls, n, os, h⟩, -⟩ := Work.transmit_only (f s.work) (f s.work).sent
  exact ⟨ls, n, os, by rw [State.run_dev, h]⟩

/-- What a byte of memory reads after a command: what its changes, in their order, make of it. -/
theorem State.run_byteAt (s : State) (f : Work → Work) (a : Nat) : (s.run f).byteAt a = getCell (s.mem.applyAll (f s.work).writes).cells a := by
  rw [State.byteAt, State.run_mem]

/-- A command that writes no memory leaves all of it. -/
theorem State.run_mem_same (s : State) (f : Work → Work) (h : (f s.work).writes = []) : (s.run f).mem = s.mem := by rw [State.run_mem, h]; rfl

/-- Equal devices and memories have equal parts. -/
theorem State.same_of_eq {s t : State} (hd : t.dev = s.dev) (hm : t.mem = s.mem) (p : StatePart) : s.same t p := by
  cases p <;> simp [State.same, hd, hm]

/-- A command whose work changes nothing and gives out nothing changes no part of the state. -/
theorem State.run_id (s : State) (f : Work → Work) (h : f s.work = s.work) : s.frame (s.run f) [] (fun _ => False) := by
  have hd : (s.run f).dev = s.dev := by rw [State.run_dev, h]; rfl
  have hm : (s.run f).mem = s.mem := by rw [State.run_mem, h]; rfl
  refine ⟨rfl, rfl, ?_, ?_, ?_⟩
  · rw [State.run_out]
    exact ⟨(f s.work).sent ++ edgeVectors s.work ((f s.work).transmit (f s.work).sent), by simp⟩
  · exact fun p _ => State.same_of_eq hd hm p
  · intro k _
    simp only [State.val, State.work, Work.get, hd]

end Sys2Proof.Machine
end

