-- ==== Sys2Proof/Laws/Ops.lean ====
section
/-! SUPPORT. What each operation shared by many commands can do, once: interrupts, progress words, logs, messages. -/

namespace Sys2Proof.Machine

/-! ## Bit fields of a progress word (R69) -/

theorem progressWord_state {st src pct res : Nat} (h : st < 16) : field (progressWord st src pct res) 3 0 = st := by
  simp only [field, progressWord]
  omega

theorem progressWord_source {st src pct res : Nat} (h : st < 16) (h2 : src < 16) : field (progressWord st src pct res) 7 4 = src := by
  simp only [field, progressWord]
  omega

theorem progressWord_result {st src pct res : Nat} (h : st < 16) (h2 : src < 16) (h3 : pct < 256) (h4 : res < 65536) :
    field (progressWord st src pct res) 31 16 = res := by
  simp only [field, progressWord]
  omega

theorem pathCode_lt (p : Path) : pathCode p < 16 := by cases p <;> decide

/-! ## Vectors and messages -/

/-- Outputs that are MSI-X vectors. -/
def vectorsOnly (os : List Output) : Prop := ∀ o ∈ os, ∃ p f v, o = .msix p f v

theorem vectorsOnly_local {os : List Output} (h : vectorsOnly os) (dst link : Option Nat) (m : FabricMsg) : Output.fabric dst link m ∉ os := by
  intro hm
  obtain ⟨p, f, v, e⟩ := h _ hm
  cases e

/-- The dictionary vector of a function raises at most a vector. -/
theorem Work.doneIrq_spec (s : Work) (o : Origin) : ∃ os, vectorsOnly os ∧ s.doneIrq o = { s with sent := s.sent ++ os } := by
  unfold Work.doneIrq
  split
  · split
    · exact ⟨[_], fun x hx => ⟨_, _, _, List.mem_singleton.mp hx⟩, rfl⟩
    · exact ⟨[], nofun, by simp⟩
  · exact ⟨[], nofun, by simp⟩

/-- An owner's interrupt raises at most a vector. -/
theorem Work.msixOwner_spec (s : Work) (owner a b : Nat) : ∃ os, vectorsOnly os ∧ s.msixOwner owner a b = { s with sent := s.sent ++ os } := by
  unfold Work.msixOwner
  split
  · exact ⟨[_], fun x hx => ⟨_, _, _, List.mem_singleton.mp hx⟩, rfl⟩
  · split
    · exact ⟨[_], fun x hx => ⟨_, _, _, List.mem_singleton.mp hx⟩, rfl⟩
    · exact ⟨[], nofun, by simp⟩

/-! ## Actions of CMD objects (R69, R70) -/

/-- The end of an action: its progress word, and the vector of its starter. -/
theorem Work.cmdEnd_spec (s : Work) (k : Key) (st res : Nat) : ∃ os, vectorsOnly os ∧
    s.cmdEnd k st res =
      { s.set k (progressWord st (s.cmdSource k) (if st = 3 then 100 else field (s.get k) 15 8) res) with sent := s.sent ++ os } := by
  unfold Work.cmdEnd
  dsimp only
  split
  · exact Work.doneIrq_spec _ _
  · exact ⟨[], nofun, by rw [List.append_nil]; rfl⟩

/-- An action that ends as it starts: its progress word, its starter and the starter's vector. -/
theorem Work.cmdDone_spec (s : Work) (k : Key) (o : Origin) : ∃ os objs starters, vectorsOnly os ∧
    s.cmdDone k o = { s with objs := objs, dict := { s.dict with starters := starters }, sent := s.sent ++ os } ∧
    ∀ q, look (defaultOf q) objs q = if k = q then progressWord 3 (pathCode o.path) 100 0 else s.get q := by
  obtain ⟨os, h, e⟩ := Work.cmdEnd_spec (s.cmdStart k 2 o) k 3 0
  refine ⟨os, _, _, h, e, fun q => ?_⟩
  have hg : (s.cmdStart k 2 o).get k = progressWord 2 (pathCode o.path) 0 0 := by
    simp [Work.cmdStart, Work.get, Work.set]
  have hs : (s.cmdStart k 2 o).cmdSource k = pathCode o.path := by
    rw [Work.cmdSource, hg]
    exact progressWord_source (by decide) (pathCode_lt _)
  simp only [look_put, hs, if_true]
  by_cases hk : k = q
  · simp [hk]
  · simp [hk, Work.cmdStart, Work.set, Work.get]

theorem Work.cmdFail_spec (s : Work) (k : Key) (o : Origin) (res : Nat) : ∃ os objs starters, vectorsOnly os ∧
    s.cmdFail k o res = { s with objs := objs, dict := { s.dict with starters := starters }, sent := s.sent ++ os } ∧
    ∀ q, look (defaultOf q) objs q = if k = q then progressWord 4 (pathCode o.path) 0 res else s.get q := by
  obtain ⟨os, h, e⟩ := Work.cmdEnd_spec (s.cmdStart k 2 o) k 4 res
  refine ⟨os, _, _, h, e, fun q => ?_⟩
  have hg : (s.cmdStart k 2 o).get k = progressWord 2 (pathCode o.path) 0 0 := by
    simp [Work.cmdStart, Work.get, Work.set]
  have hs : (s.cmdStart k 2 o).cmdSource k = pathCode o.path := by
    rw [Work.cmdSource, hg]
    exact progressWord_source (by decide) (pathCode_lt _)
  have hp : field ((s.cmdStart k 2 o).get k) 15 8 = 0 := by
    rw [hg]
    have := pathCode_lt o.path
    simp only [field, progressWord]
    omega
  simp only [look_put, hs, hp]
  by_cases hk : k = q
  · simp [hk]
  · simp [hk, Work.cmdStart, Work.set, Work.get]

/-! ## Answers (R50, R60, R74) -/

/-- A response counts itself, completes the caller's window, and leaves on the request's path; a window with DONE_IRQ set raises its
vector. -/
theorem Work.respondFrom_spec (s : Work) (device op : Nat) (r : Req) (status detail : Nat) (payload : List Byte) : ∃ objs windows os,
    s.respondFrom device op r status detail payload =
      { s with objs := objs, dict := { s.dict with windows := windows }
               sent := s.sent ++ (if r.origin.path = .fabric then [.fabric (some 0) none (.dictResponse (op ||| 0x80) r.tag status detail payload)]
                 else .response r.origin (op ||| 0x80) r.tag device status r.index r.sub (reqWord9 r) detail payload :: os) } ∧
    vectorsOnly os ∧ ∀ k, k ≠ Obj.requestsServed → k ≠ Obj.requestsRefused → look (defaultOf k) objs k = s.get k := by
  have hget : ∀ k, k ≠ Obj.requestsServed → k ≠ Obj.requestsRefused →
      (if status = 0 then s.add Obj.requestsServed 1 else (s.add Obj.requestsServed 1).add Obj.requestsRefused 1).get k = s.get k := by
    intro k h1 h2
    split
    · simp [Ne.symm h1]
    · simp [Ne.symm h1, Ne.symm h2]
  have hobj : ∃ objs, (if status = 0 then s.add Obj.requestsServed 1 else (s.add Obj.requestsServed 1).add Obj.requestsRefused 1) =
      { s with objs := objs } := by
    split <;> exact ⟨_, rfl⟩
  unfold Work.respondFrom
  dsimp only
  obtain ⟨objs, ho⟩ := hobj
  rw [ho] at hget ⊢
  have tail : ∀ (ws : List (FnWin × Window)) (o : Output), ∃ os, vectorsOnly os ∧
      (({ s with objs := objs, dict := { s.dict with windows := ws } } : Work).send o).doneIrq r.origin =
        { s with objs := objs, dict := { s.dict with windows := ws }, sent := s.sent ++ o :: os } := by
    intro ws o
    obtain ⟨os, hv, e⟩ := Work.doneIrq_spec (({ s with objs := objs, dict := { s.dict with windows := ws } } : Work).send o) r.origin
    refine ⟨os, hv, ?_⟩
    rw [e]
    simp [Work.send]
  cases hp : r.origin.path with
  | fabric => exact ⟨objs, s.dict.windows, [], rfl, nofun, hget⟩
  | mgmt =>
    simp only [originWindow, hp]
    obtain ⟨os, hv, e⟩ := tail s.dict.windows _
    exact ⟨objs, _, os, e, hv, hget⟩
  | portA =>
    simp only [originWindow, hp]
    obtain ⟨os, hv, e⟩ := tail (put s.dict.windows ⟨0, r.origin.fn⟩ _) _
    exact ⟨objs, _, os, e, hv, hget⟩
  | portB =>
    simp only [originWindow, hp]
    obtain ⟨os, hv, e⟩ := tail (put s.dict.windows ⟨1, r.origin.fn⟩ _) _
    exact ⟨objs, _, os, e, hv, hget⟩

/-! ## ATTENTION and the logs (R434, R500 to R502) -/

/-- ATTENTION of either port, or TENANT_ATTENTION of some tenant. -/
def attentionKey (k : Key) : Prop := k = Obj.attention 0 ∨ k = Obj.attention 1 ∨ ∃ t, k = Obj.tenantAttention t

/-- The second work differs from the first in the values of ATTENTION and TENANT_ATTENTION only. -/
def attentionOnly (s t : Work) : Prop := (∃ os, t = { s with objs := os }) ∧ ∀ k, ¬ attentionKey k → t.get k = s.get k

theorem attentionOnly_refl (s : Work) : attentionOnly s s := ⟨⟨s.objs, rfl⟩, fun _ _ => rfl⟩

theorem attentionOnly_set (s : Work) {k : Key} (v : Nat) (h : attentionKey k) : attentionOnly s (s.set k v) := by
  refine ⟨⟨_, rfl⟩, fun q hq => ?_⟩
  rw [Work.set_get, if_neg]
  rintro rfl
  exact hq h

theorem attentionOnly_trans {s t u : Work} (h : attentionOnly s t) (g : attentionOnly t u) : attentionOnly s u := by
  obtain ⟨⟨a, rfl⟩, h2⟩ := h
  obtain ⟨⟨b, rfl⟩, g2⟩ := g
  exact ⟨⟨b, rfl⟩, fun k hk => (g2 k hk).trans (h2 k hk)⟩

theorem Work.attend_only (s : Work) (i : Nat) : attentionOnly s (s.attend i) :=
  attentionOnly_trans (attentionOnly_set s _ (.inl rfl)) (attentionOnly_set _ _ (.inr (.inl rfl)))

theorem Work.attendTenant_only (s : Work) (t i : Nat) : attentionOnly s (s.attendTenant t i) := attentionOnly_set s _ (.inr (.inr ⟨t, rfl⟩))

/-- A record changes the logs and ATTENTION, and goes to the manager from a worker. -/
theorem Work.record_spec (s : Work) (r : RecordIn) : ∃ rel objs os,
    s.record r = { s with rel := rel, objs := objs, sent := s.sent ++ os } ∧ (os = [] ∨ os = [.fabric (some 0) none (.record r)]) ∧
    ∀ k, ¬ attentionKey k → look (defaultOf k) objs k = s.get k := by
  have key : ∀ a : Work, (∃ rel, a = { s with rel := rel }) → ∃ rel objs os,
      (let b : Work := match attentionOf r.code with
          | some b => a.attend b
          | none => a
        let b : Work := if r.code = 2 ∧ r.tenant < 1024 then b.attendTenant r.tenant 0 else b
        if b.isWorker && b.formed then b.toMember 0 (.record r) else b) = { s with rel := rel, objs := objs, sent := s.sent ++ os } ∧
      (os = [] ∨ os = [.fabric (some 0) none (.record r)]) ∧ ∀ k, ¬ attentionKey k → look (defaultOf k) objs k = s.get k := by
    rintro a ⟨rel, rfl⟩
    dsimp only
    generalize hb : (match attentionOf r.code with
      | some b => Work.attend { s with rel := rel } b
      | none => ({ s with rel := rel } : Work)) = b
    have h1 : attentionOnly { s with rel := rel } b := by
      rw [← hb]
      split
      · exact Work.attend_only _ _
      · exact attentionOnly_refl _
    generalize hc : (if r.code = 2 ∧ r.tenant < 1024 then b.attendTenant r.tenant 0 else b) = c
    have h2 : attentionOnly { s with rel := rel } c := by
      rw [← hc]
      split
      · exact attentionOnly_trans h1 (Work.attendTenant_only _ _ _)
      · exact h1
    obtain ⟨⟨objs, rfl⟩, h3⟩ := h2
    split
    · exact ⟨rel, objs, [_], rfl, .inr rfl, h3⟩
    · exact ⟨rel, objs, [], by simp, .inl rfl, h3⟩
  unfold Work.record
  refine key _ ?_
  split
  · exact ⟨_, rfl⟩
  · exact ⟨_, rfl⟩

/-- What arises here is recorded as this device's. -/
theorem Work.log_spec (s : Work) (severity code unitKind slot unit tenant detail : Nat) : ∃ rel objs os r,
    s.log severity code unitKind slot unit tenant detail = { s with rel := rel, objs := objs, sent := s.sent ++ os } ∧
    (os = [] ∨ os = [.fabric (some 0) none (.record r)]) ∧ ∀ k, ¬ attentionKey k → look (defaultOf k) objs k = s.get k := by
  obtain ⟨rel, objs, os, h⟩ := Work.record_spec s ⟨s.ownDevice, severity, code, unitKind, slot, unit, tenant, detail % 2 ^ 32⟩
  exact ⟨rel, objs, os, _, h⟩

end Sys2Proof.Machine
end

