-- ==== Sys2Proof/Tests/Slice0.lean ====
section
/-! SUPPORT. Tests: the syntax check on an ill-formed term of each kind, worked examples of the spec, single steps, and for each
statement with hypotheses a state and operands that meet them. -/

set_option Elab.async false

namespace Sys2Proof.Tests

open Sys2Proof Sys2Proof.Machine

/-! ## States -/

/-- Values that many commands read, listed so that a test finds them at once; each is the default or a plain setting. -/
def usual : List (Key × Nat) :=
  [(Obj.deviceId, 254)] ++ ([Obj.role, Obj.groupState, Obj.groupEpoch, Obj.powerState, Obj.governorSkip, Obj.requestsServed, Obj.requestsRefused,
    Obj.poweredSeconds, Obj.attention 0, Obj.attention 1, Obj.attentionMask 0, Obj.attentionMask 1] ++ (List.range 4).map Obj.slotState).map (·, 0)

/-- A device that has booted: READY, in L0, every island running, both ports up, four tenants on port 0. -/
def ready : State :=
  { State.reset with dev := { Dev.reset with
      objs := usual
      islands := []
      boot := { BootState.reset with stage := 4 }
      dram := { StackState.reset with off := false }
      host := { HostState.reset with ports := [⟨6, 8, true, true, false, 4⟩, ⟨6, 8, true, true, false, 0⟩] } } }

/-- A state with an object at a value. -/
def withObj (s : State) (k : Key) (v : Nat) : State := { s with dev := { s.dev with objs := put s.dev.objs k v } }

def withObjs (s : State) (l : List (Key × Nat)) : State := l.foldl (fun s p => withObj s p.1 p.2) s

/-- The membership of a device in a group of the manager, the standby and workers 2 and 3. -/
def memberOf (id role : Nat) : Membership :=
  ⟨5, id, role, [0, 1, 2, 3], 2, if id = 0 then 0xFF else 0, if id = 0 then [1, 2, 3] else [], if id = 0 then 0 else 1,
    if id = 0 then [(1, 0, 0xFF, 1), (2, 1, 0xFF, 1), (3, 2, 0xFF, 1)] else [(0, 0, 0xFF, 1)], [0], []⟩

/-- A member of a formed group, epoch 5. -/
def member (id role : Nat) : State :=
  let s := withObjs ready [(Obj.role, role), (Obj.deviceId, id), (Obj.groupState, 2), (Obj.groupEpoch, 5), (Obj.workerCount, 2)]
  { s with dev := { s.dev with group := { GroupRec.reset with membership := some (memberOf id role) } } }

def manager : State := member 0 1

def worker : State := member 2 3

def hostA : Origin := ⟨.portA, 0⟩
def hostB : Origin := ⟨.portB, 0⟩
def bmc : Origin := ⟨.mgmt, 0⟩
def tenant3 : Origin := ⟨.portA, 4⟩

/-- A request of a caller on an object, with a payload. -/
def req (o : Origin) (index sub : Nat) (payload : List Byte) : Req := ⟨o, 0x2A, 254, 0, index, sub, 0, 0, 0, 0, payload⟩

/-- The state after a command that completes. -/
def after (c : Instr) (s : State) : State :=
  match exec c s with
  | .next t => t
  | _ => s

/-! ## 02 -/

/-- A request to read EDGE_SHARE_LIMIT. -/
def readReq : Req := req hostA 0x5000 4 []

/-- The same object read by a tenant's function, of an object tenants may not see. -/
def blindReq : Req := req tenant3 0x5000 4 []

/-- The manager's path has claimed the range of 0x5000. -/
def claimed : State := withObj ready (Obj.rangeOwner 5) 3

/-- A class P write waits. -/
def storing (k : Key) (v : Nat) : State :=
  { ready with dev := { ready.dev with dict := { ready.dev.dict with persist := [⟨req hostA k.index k.sub [], 2, k, v, [], false⟩] } } }

/-- A session is open. -/
def withSession (s : State) (x : Session) : State :=
  { s with dev := { s.dev with dict := { s.dev.dict with sessions := [x] } } }

/-- A request of session 7 of the host's path. -/
def sessionReq (arg : Nat) (payload : List Byte) : Req := { req hostA 0 0 payload with tenant := 7, arg := arg }

def loadRequestWrite (declared : Nat) (data : List Byte) : Session := ⟨7, hostA, true, Obj.loadRequest, declared, data, 0⟩

/-- The word of CTRL that starts a request, and a header that reads EDGE_SHARE_LIMIT. -/
def readHeader : List Byte := reqHeader 1 readReq

/-- The host's window with a request parked in it. -/
def parkedWindow : State :=
  { ready with dev := { ready.dev with dict := { ready.dev.dict with
      windows := [(⟨0, 0⟩, { Window.reset with busy := true, parked := true })]
      parked := [⟨req hostA 0x2200 1 [], 1, 0xAC, false⟩] } } }

def booting : State := { ready with dev := { ready.dev with boot := { ready.dev.boot with stage := 3 } } }

/-! ## 01, 17, 18 -/

/-- A transfer across the seam, and one to a row of a stopped half. -/
def crossing : MeshTransfer := ⟨.core 0, .core 52, 3, 1, 256, 2⟩

def withIslands (s : State) (l : List (Nat × IslandCond)) : State := { s with dev := { s.dev with islands := l } }

/-- Thermal domain 0 on the ladder. -/
def withDomain (s : State) (d : ThermDomain) : State :=
  { s with dev := { s.dev with power := { s.dev.power with domains := d :: s.dev.power.domains.drop 1 } } }

/-- Input power has been over the cap for the whole window of the governor. -/
def overCap (g since : Nat) : State :=
  let s := withObjs ready [(Obj.governorSkip, g), (Obj.powerCapW, 600)]
  { s with dev := { s.dev with power := { s.dev.power with samples := List.replicate 100 700000, sinceChange := since } } }

/-- Far below the cap. -/
def underCap (g since : Nat) : State :=
  let s := withObjs ready [(Obj.governorSkip, g), (Obj.powerCapW, 600)]
  { s with dev := { s.dev with power := { s.dev.power with samples := List.replicate 100 300000, sinceChange := since } } }

def withHk (s : State) (x : HkHalf) : State := { s with dev := { s.dev with hk := [x, .reset] } }

/-! ## 15, 14, 07 -/

/-- A transfer of two bytes from the host into a window of the owner 0x400, and one to the host. -/
def descIn : DmaDesc := ⟨0, 0, 0, 0, false, false, false, 0, 1, 0x1000, 0, 2, 0, 77⟩
def descOut : DmaDesc := { descIn with dir := 1, src := 0, dst := 0x2000 }
def descLoop : DmaDesc := { descIn with dir := 2, src := 0, dst := 1 }

/-- Channel 3 of port 0 with a window of 4 KiB. -/
def withChan (x : DmaChan) (windows : Bool) : State :=
  let s := withObjs ready [(Obj.dmaAssign 3, 0x400), (Obj.dmaGo0 3, 0x12), (Obj.dmaBytesRead, 0), (Obj.dmaTransfers, 0), (Obj.dmaDoneCount 3, 0)]
  { s with dev := { s.dev with
      dma := [(3, x)]
      host := { s.dev.host with windows := if windows then [⟨0x400, 0, false, 0, 4096, 0x300000000⟩] else [] } } }

def chanWaits (d : DmaDesc) : DmaChan := { DmaChan.reset with running := some (0, d) }

def chanRuns (d : DmaDesc) (bytes : List DmaByte) : DmaChan := { chanWaits d with started := true, bytes := bytes }

/-- An array in service with a slice out for calibration. -/
def inService : Arr := { Arr.manufactured Ident.reset 5 with state := 2, slot := 0, outPos := some 32, programs := 1 }

def withArr (s : State) (a : Nat) (x : Arr) : State := { s with dev := { s.dev with arrs := [(a, x)] } }

/-! ## 03, 04, 06 -/

def job : MvmJob := ⟨0, 0, 0, 1, 0, 0, 0, 0, 1, false, false, false, 3, 0, 0, [some 1], 0, 2, 4, [], false⟩

/-- Facet 0's part of a run, with its first pass to come. -/
def facetPart : FacetRun := ⟨0, 0, [some 1], List.replicate 8 0, [], false, true, none, [], [], 0, [], [], [], [], [], false⟩

def run (parts : List FacetRun) : Run := ⟨7, job, false, parts, List.replicate 8 0, [], [], false, false, false, false, false, false, false, 0⟩

def withEngine (s : State) (x : Engine) : State := { s with dev := { s.dev with engines := [(0, x)] } }

/-- A job waits; a run's first phase is on facet 0; a run is complete. -/
def jobWaits : State := withEngine ready { Engine.reset with queue := [job] }
def phaseRuns : State := withEngine ready { Engine.reset with runs := [run [facetPart]], phases := [(0, [⟨7, 0, 0, [(0, 1)]⟩])] }
def runDone : State := withEngine ready { Engine.reset with runs := [run [{ facetPart with hiDone := true }]] }

/-- A window in which pair 3 saturated, and one in which none did. -/
def flagged : WindowEnd := ⟨0, 0, [⟨3, 127, true⟩], List.replicate 8 0, List.replicate 8 0, []⟩
def clear : WindowEnd := ⟨0, 0, [⟨3, 5, false⟩], List.replicate 8 0, List.replicate 8 0, []⟩

def recompute : Recompute := ⟨7, 0, 3, false⟩
def readingGolden : State := withEngine ready { Engine.reset with runs := [run [facetPart]], reading := [recompute] }
def goldenHere : State := withEngine ready { Engine.reset with runs := [run [facetPart]], arrived := [recompute] }

/-- An op of slot 0 whose program holds no records. -/
def ctx : OpCtx := ⟨0, 0, 0, 1, 0, 1, 0, 0xFFFF, 0xFFFF, true, []⟩

def withStep (s : State) (x : StepState) : State := { s with dev := { s.dev with step := x } }

def cimArgs : CimArgs := ⟨0, 3, 3, 4, false, false, false, 0, 0⟩

def stepHead1 : StepHead := ⟨9, 5, 0, 1, 1, 1, 1, 1, 0, 0, 0, 100⟩
def lane1 : Lane := ⟨4, 1, 0, 0, 0, 0, 12, 1, 0, 55, 0, 0⟩
def body1 : StepBody := ⟨[lane1], [⟨0, 1, 0⟩], [⟨6, 1, 33⟩], [], [55]⟩

/-- A worker in a step with one decode lane of slot 0, of a variant. -/
def stepping : State := withStep worker { StepState.reset with running := some (stepHead1, body1) }

/-- Slot 0 places its one slice on engine 0. -/
def placementBytes : List Byte :=
  toLE 2 1 ++ toLE 2 0 ++ toLE 4 1 ++ List.replicate 24 0 ++
    (toLE 2 1 ++ toLE 1 0 ++ toLE 1 0 ++ toLE 4 32 ++ toLE 4 2 ++ toLE 4 0) ++ (toLE 2 0 ++ toLE 1 1 ++ toLE 1 0 ++ toLE 4 0 ++ toLE 4 0 ++ toLE 4 0)

/-- A program of one op of an opcode, with no buffers. -/
def oneOp (opcode : Nat) : List Byte := toLE 4 1 ++ toLE 2 0 ++ List.replicate 26 0 ++ (toLE 1 opcode ++ List.replicate 31 0)

/-- Two ops, the second of which reads what the first writes. -/
def twoOps : List Byte :=
  toLE 4 2 ++ toLE 2 0 ++ List.replicate 26 0 ++ ([0x20, 0, 0, 0, 0, 0, 1, 0] ++ List.replicate 24 0) ++ ([0x20, 0, 0, 0, 0, 0, 2, 0, 1, 0] ++ List.replicate 22 0)

def withSections (s : State) (l : List (Nat × List Byte)) : State := { s with dev := { s.dev with slots := ⟨l⟩ :: s.dev.slots.drop 1 } }

def collPart : CollPart := ⟨3, 9, 0, 0, 0, 0, false, []⟩

/-! ## 08 -/

def withDoms (s : State) (l : List (Key × List Byte)) : State :=
  { s with dev := { s.dev with doms := l.map (fun p => (p.1, ⟨1, p.2⟩)) } }

def withLoad (s : State) (l : LoadRun) : State := { s with dev := { s.dev with res := { s.dev.res with load := some l } } }

/-- A request to load slot 1 from the host, no golden image. -/
def loadBytes : List Byte := toLE 1 1 ++ List.replicate 63 0

def loadRequested : State := withDoms ready [(Obj.loadRequest, loadBytes)]

/-- A load of slot 0 of a Bolt with one section, SHAPE of four bytes for every die. -/
def sectionBytes : List Byte := [1, 2, 3, 4]

def loadHeader : List Byte := List.replicate 26 0 ++ toLE 2 1 ++ List.replicate 36 0

def loadTable : List Byte := toLE 1 2 ++ toLE 1 0 ++ toLE 2 0xFFFF ++ toLE 4 0 ++ toLE 8 0 ++ toLE 8 4 ++ List.replicate 8 0

def loadManifest : List Byte := List.replicate 64 0 ++ Config.sha512 sectionBytes

def loading (source : Nat) (todo : List Nat) (mode : Nat) : LoadRun :=
  { loadRunOf [] 0 0 with source := source, link := if source = 1 then 5 else 0, mode := mode, todo := todo
                          got := [(0, loadHeader), (1, loadManifest), (0xFF, loadTable)] }

/-- A load of slot 0 from its own golden image is to program facet 3 on itself. -/
def facetLoad : LoadRun := { loadRunOf [] 0 0 with source := 2, mode := 3, slot := 0, arrays := [(3, 3)] }
def programming : State := withLoad (withArr ready 3 { inService with state := 1 }) facetLoad

def programResult : ProgramResult := ⟨3, false, [], []⟩

/-- Facet 3 of slot 0 is SUSPECT, no spare of its core is free, and its golden image is here. -/
def suspectFacet : State :=
  let s := withSections (withArr ready 3 { inService with state := 5, slot := 0 }) [(0x14, [1])]
  { s with dev := { s.dev with arrs := s.dev.arrs ++ (List.range 4).map (fun n => (0x8000 + n, { inService with state := 9, slot := 0xFF })) } }

/-! ## 09 to 11 -/

/-- An entry that decodes, of tenant 3 on slot 0, with index 4 and generation 1. -/
def entry : Entry :=
  { index := 4, generation := 1, tenant := 3, slot := 0, state := 4, resume := 0, priority := 2, hard := false, failPolicy := false
    retain := false, wide := false, late := false, basePriority := 2, hold := 0, cause := 0, variant := 0, pin := false, k := 0
    wantK := 0, version := 0, budget := 0x7FFFFFFF, committed := 12, tentative := 12, promptLen := 4, prefilled := 4, maxNew := 100
    pages := [7], seed := 0, hostTag := 5, grammarId := 0, grammarKind := 0, grammar := ⟨0, [], 0⟩, image := 0, temperature := 0
    topK := 0, topP := 0, minP := 0, stopToken := 0, numeric := 0, zeroRun := 0, waited := 0, laneStep := 0, wideRatio := 0
    charged := 0, lateTokens := 0, intakeSeq := 1, log := [], encode := false, windowInput := false, inputAddr := 0, outputAddr := 0
    outputLen := 0, forkHandle := 0, forkLength := 0, forkPages := [], forkFrom := 0, reserved := false, holdAsked := false
    resumeAsked := false, releaseAsked := false, mvms := [], draftLen := 0, draftPages := 0, output := [], frozen := false }

/-- The workers 2 and 3 hold the two dies of one Bolt in slot 0. -/
def holder (d : Nat) : SlotHeld := ⟨d + 2, 0, 3, d, 11, 1, 2, 16, 100, 0, [], [], []⟩

def withServe (s : State) (f : ServeState → ServeState) : State := { s with dev := { s.dev with serve := f s.dev.serve } }

def withVars (s : State) (f : VarState → VarState) : State := { s with dev := { s.dev with vars := f s.dev.vars } }

def identityOf (d : Nat) : Identity := ⟨100 + d, 3, d, 5, 2, 0, 0, 1, 1000, 2 ^ 30, []⟩

/-- A manager whose group holds slot 0 whole. -/
def serving : State :=
  let s := withServe manager (fun x => { x with held := [holder 0, holder 1] })
  { s with dev := { s.dev with group := { s.dev.group with identities := [(2, identityOf 2), (3, identityOf 3)] } } }

def lanePlan : LanePlan := ⟨4, 1, lane1, true, [], [], [60], 0, 0, ⟨0, [], 0⟩, false, false⟩

def stepPlan : StepPlan := ⟨stepHead1, body1, [lanePlan], 1000, [], none, 0, none⟩

/-- A step runs at the manager, with one request. -/
def managing : State := withServe serving (fun x => { x with entries := [entry], plan := some stepPlan })

/-- A manager outside a formed group. -/
def alone (f : ServeState → ServeState) : State := withServe (withObjs ready [(Obj.role, 1)]) f

def stepResult1 : StepResult := ⟨2, 9, 50, 940, 3072, 2, [⟨0, false, false, 1, 0, 0⟩]⟩

def drain1 : Drain := ⟨0, 0, 1000, true, false, []⟩

/-- A descriptor of an opcode with the first stamp. -/
def descBytes (opcode : Nat) (handle : Nat) : List Byte :=
  toLE 1 opcode ++ List.replicate 3 0 ++ toLE 4 handle ++ toLE 8 5 ++ List.replicate 104 0 ++ toLE 8 1

/-- Tenant 3's rings are enabled. -/
def ringsOn (s : State) : State :=
  withObjs s [(Obj.ringEnable 3, 1), (Obj.intakeEntries 3, 64), (Obj.cqEntries 3, 64), (Obj.tenantRequestCap 3, 16)]

/-- A window of tenant 3. -/
def withWindow (s : State) : State := { s with dev := { s.dev with host := { s.dev.host with windows := [⟨3, 0, false, 0, 4096, 0x300000000⟩] } } }

def variant1 : Variant := ⟨0, 6, 3, false, 2, false⟩
def set1 : DeltaSet := ⟨33, 0, 6, 1, 2, false, 4096, 10, 0, 3⟩

/-- The slot's variant 6 is loaded and belongs to tenant 3. -/
def withVariant (s : State) : State := withVars s (fun x => { x with variants := [variant1], sets := [set1], nextHandle := 34 })

/-- A VARIANT_LOAD_REQUEST of 4096 bytes for slot 0, variant 7, and a TUNE_JOB on variant 6 with a record of two tokens. -/
def variantRequest : List Byte := [0, 0, 7, 0, 0, 0, 0, 0] ++ toLE 8 0 ++ toLE 8 4096 ++ List.replicate 40 0

def tuneRequest : List Byte := [0, 0, 6, 0, 0, 0, 0, 0] ++ toLE 8 1 ++ toLE 8 0 ++ toLE 8 16 ++ toLE 4 0x3F800000 ++ toLE 4 0 ++ toLE 2 1 ++ toLE 2 1 ++
  toLE 2 1 ++ List.replicate 18 0

def tuning : State :=
  let s := withDoms (withObj (withWindow (withVariant serving)) (Obj.tenantDeltaCap 3) 1000)
    [(Obj.tuneJob 3, tuneRequest), (Obj.tuneProgram 0, oneOp 0x20), (Obj.variantLoadRequest 3, variantRequest)]
  { s with mem := ⟨[(0x300000000, 2), (0x300000008, 1), (0x30000000C, 2)], []⟩ }


/-! ## 12 -/

/-- Link 5 in a state, enabled, with a cable. -/
def withLink (s : State) (k : Link) : State :=
  let s := withObjs s [(Obj.linkEnable 5, 1), (Obj.linkRxBytes 5, 0), (Obj.linkTxBytes 5, 0), (Obj.linkCrcErrors 5, 0), (Obj.linkReplays 5, 0)]
  { s with dev := { s.dev with links := s.dev.links.set 5 k } }

def cabled (state : Nat) : Link := { Link.reset with state := state, cable := true }

/-- Link 5 is UP, with credits, and has two flits unacknowledged. -/
def upLink : Link := { cabled 3 with credits := creditsAtUp, partner := some (identityOf 3), unacked := [(0, 0), (1, 0)], nextSeq := 2 }

def carrying : State := withLink ready upLink

def goodFlit : Flit := ⟨1, true, true, false, 0, 0, 1, 3, true⟩
def badFlit : Flit := { goodFlit with crcOk := false }

def withGroup (s : State) (f : GroupRec → GroupRec) : State := { s with dev := { s.dev with group := f s.dev.group } }

/-- A manager that awaits its heartbeat's answers. -/
def beating : State := withObj (withGroup manager (fun g => { g with heartbeatOut := true })) Obj.autoReform 0

def stepNotice : Notice := ⟨5, 4, 0xFF, 0xFF, 0⟩

/-- A standby. -/
def standbyDev : State := member 1 2

/-- A worker without children. -/
def leaf : State := withGroup worker (fun g => { g with membership := some { memberOf 2 3 with parent := 0 } })

/-- A device that waits for link 5's partner to answer its probe. -/
def probing (s : State) : State := withLink s { upLink with unacked := [] }

def forwardedRead : Forwarded := ⟨{ req hostA 0x5000 4 [] with target := 3 }, 1, [3], 0, none⟩
def awaiting3 : State := { manager with dev := { manager.dev with dict := { manager.dev.dict with forwarded := [forwardedRead] } } }

/-! ## 16 -/

def heldCheck : HeldCheck :=
  ⟨0, 0, some 2, [], 7, 0, 1, 2, 0, 0, false, false, [], [some 1], [], [], [], []⟩
def judging : State := withStep ready { StepState.reset with held := [heldCheck] }
def judgingGolden : State := withSections judging [(0x14, [1])]
def sampling : State := withStep ready { StepState.reset with held := [{ heldCheck with group := none }] }

/-- Core 5's test runs. -/
def testing : State := { ready with dev := { ready.dev with rel := { ready.dev.rel with tests := [(5, { CoreTest.reset with running := true })] } } }

/-- Owner 0x400 has channel 3; its transfer runs. -/
def channelOwned : State := withChan DmaChan.reset true

/-! ## 17 to 20 -/

/-- A device that has booted and whose power is good. -/
def powered : State := { ready with dev := { ready.dev with power := { ready.dev.power with pwrgd := true, vinMv := 48000 } } }

/-- At rest at a stage of boot. -/
def atStage (n : Nat) : State := { powered with dev := { powered.dev with boot := { powered.dev.boot with stage := n, banks := [⟨some [1, 2], 0, 0⟩, ⟨none, 0, 0⟩] } } }

def parkedSeam : State :=
  let s := withIslands powered [(0xAC, .stopped)]
  { s with dev := { s.dev with dict := { s.dev.dict with
      windows := [(⟨0, 0⟩, { Window.reset with busy := true, parked := true })]
      parked := [⟨{ req hostA 0x2200 1 [] with tenant := 0 }, 1, 0xAC, false⟩] } } }

/-- A connection that has its version, capabilities and algorithms. -/
def connected : State := { powered with dev := { powered.dev with boot := { powered.dev.boot with spdm := [(.portA, ⟨true, true, true, []⟩)] } } }

/-! ## 13 -/

/-- The intake ring of tenant 3 has its size, and the rings are not enabled. -/
def ringSized : State := withObjs ready [(Obj.intakeEntries 3, 64), (Obj.cqEntries 3, 64), (Obj.cqBase 3, 64), (Obj.ringEnable 3, 0)]

/-- A request of the host's physical function for tenant 3, with an argument of four bytes. -/
def for3 (n arg : Nat) : Req := { req hostA 0 0 (toLE n arg) with tenant := 3 }


/-- Channel 3 of port 0 has its first descriptor; its slot of the second is running or not. -/
def withDesc (x : DmaChan) : State :=
  withDoms (withObj (withChan x true) (Obj.dmaGo0 3) 0) [(Obj.dmaDesc0 3, List.replicate 40 0), (Obj.dmaDesc1 3, List.replicate 40 0)]

/-- Core 9 of the die is not good. -/
def lacksCore : State := { ready with ident := { ready.ident with coreMask := 2 ^ 64 - 1 - 2 ^ 9 } }

/-- At rest with good power and no virtual function. -/
def quiet : State := { powered with dev := { powered.dev with host := { powered.dev.host with ports := [⟨6, 8, true, true, false, 0⟩, ⟨6, 8, true, true, false, 0⟩] } } }

/-! ## The syntax check -/

/-- The rows that are one request, by chapter. -/
def dictionaryRows : List (Req → Instr) :=
  [.read, .write, .describe, .next, .segOpenRead, .segOpenWrite, .segRead, .segWrite, .segCommit, .segAbort, .cmdAbort, .restoreDefaults, .rangeOwner]

def residencyRows : List (Req → Instr) :=
  [.calendarStamp, .trimRead, .refreshFacet, .layerCountsClear, .loadStart, .slotRelease, .replaceSlot]

def servingRows : List (Req → Instr) :=
  [.requestCancel, .requestHold, .requestResume, .requestRelease, .variantLoad, .variantUnload, .variantPin, .tuneStart] ++
    [.grammarImage, .globalGrammarImage, .grammarDelete, .globalGrammarDelete]

def moduleRows : List (Req → Instr) :=
  [.linkEnable, .groupForm, .groupDissolve, .mirrorRelease] ++ [.windowEdit, .ringEnable, .attention, .attentionMask, .tenantAttention] ++
    [.dmaAssign, .dmaGo, .scrubNow, .sweepNow, .testNow, .powerCapW, .sequence, .roundUs, .minmaxReset]

def bootRows : List (Req → Instr) :=
  [.deviceReset, .powerStateRequest, .groupPower, .firmwareImage, .firmwareActivate, .ownerKeys, .ownerUnlock, .keyLock]

def requestRows : List (Req → Instr) := dictionaryRows ++ residencyRows ++ servingRows ++ moduleRows ++ bootRows

/-- A request is well formed, and is not with any one field over its width, a function its path lacks, or a payload over 4,096 bytes. -/
def goodReq : Req := req hostA 0x5000 4 []

def badFields : List Req :=
  [{ goodReq with tag := 256 }, { goodReq with target := 256 }, { goodReq with flags := 256 }, { goodReq with index := 65536 },
   { goodReq with sub := 256 }, { goodReq with rsv7 := 256 }]

def badReqs : List Req :=
  badFields ++ [{ goodReq with payload := List.replicate 4097 0 }, { goodReq with tenant := 1024 }, { goodReq with tenantHi := 64 },
    { goodReq with arg := 2 ^ 32 }] ++ ([⟨.portA, 513⟩, ⟨.portB, 513⟩, ⟨.mgmt, 1⟩, ⟨.fabric, 1⟩] : List Origin).map (fun o => { goodReq with origin := o })

theorem smoke_requests : requestRows.all (fun f => (f goodReq).wf && !(f { goodReq with tag := 256 }).wf) = true := by decide +kernel

theorem smoke_fields : badReqs.all (fun r => !(Instr.read r).wf && !(Instr.dictRequest 1 r).wf) = true := by decide +kernel

/-- A well-formed op, its arguments, and records that other rows carry. -/
def goodBlk : Blk := ⟨true, 1, List.replicate 32 (some 127)⟩
def goodWin : WindowEnd := ⟨0, 0, [⟨1023, 1, false⟩], List.replicate 8 0, List.replicate 8 0, []⟩
def digest64 : List Byte := List.replicate 64 0

/-- A codeword read as it is stored. -/
def noFlips : List Byte := List.replicate 36 0

def goodTerms : List Instr :=
  [.sessionIdleExpiry 1, .go ⟨0, 0⟩ 1 (List.replicate 16 0) [], .abandon ⟨1, 512⟩, .bulkMeshTransfer crossing, .selvedgeMessage ⟨0, some 63, 4, [1], 0, 40⟩,
   .cimMvm ctx cimArgs, .cimMvmt ctx cimArgs, .phaseWindowEnd goodWin, .goldenReadReturn ⟨2047, 3, 1023, false⟩, .reduce ctx ⟨0, 2, 2, 6, 0, 32⟩,
   .gather ctx ⟨0, 0, 0, 6, 0, 32⟩, .norm ctx ⟨1, 0, 6, 0⟩, .act ctx ⟨1, 2, 6, 0⟩, .rope ctx ⟨64, 64, 10000, 1, 0⟩, .attn ctx ⟨8, 8, 64, 1, 0, 0, 0, 1, false, 0, []⟩,
   .route ctx ⟨8, 2, 0, 4⟩, .expert ctx ⟨0, cimArgs, 1, 0, 4⟩, .embed ctx ⟨100, 6⟩, .patch ctx ⟨16, 1, 64, 64, 0, 0, 6⟩, .head ctx ⟨0, 100, 0, 4⟩,
   .convert ctx ⟨6, false, []⟩, .copy ctx ⟨32, 0, 0⟩, .barrier ctx ⟨0, 0, 1⟩, .draft ctx 1 8 [], .mask ctx 0 0 [], .sample ctx 0]

theorem smoke_good : goodTerms.all Instr.wf = true := by decide +kernel

/-- Every op refuses a context over its fields. -/
theorem smoke_ops : ([.cimMvm { ctx with slot := 4 } cimArgs, .cimMvmt { ctx with seq := 65536 } cimArgs, .reduce { ctx with m := 256 } ⟨0, 2, 2, 6, 0, 32⟩,
    .gather { ctx with layer := 65536 } ⟨0, 0, 0, 6, 0, 32⟩, .norm { ctx with coreset := 65536 } ⟨1, 0, 6, 0⟩, .act { ctx with dst := 65536 } ⟨1, 2, 6, 0⟩,
    .rope { ctx with src0 := 65536 } ⟨64, 64, 10000, 1, 0⟩, .attn { ctx with src1 := 65536 } ⟨8, 8, 64, 1, 0, 0, 0, 1, false, 0, []⟩,
    .route { ctx with src2 := 65536 } ⟨8, 2, 0, 4⟩, .expert { ctx with slot := 4 } ⟨0, cimArgs, 1, 0, 4⟩, .embed { ctx with slot := 4 } ⟨100, 6⟩,
    .patch { ctx with slot := 4 } ⟨16, 1, 64, 64, 0, 0, 6⟩, .head { ctx with slot := 4 } ⟨0, 100, 0, 4⟩, .convert { ctx with slot := 4 } ⟨6, false, []⟩,
    .copy { ctx with slot := 4 } ⟨32, 0, 0⟩, .barrier { ctx with slot := 4 } ⟨0, 0, 1⟩, .draft { ctx with slot := 4 } 1 8 [],
    .mask { ctx with slot := 4 } 0 0 [], .sample { ctx with slot := 4 } 0] : List Instr).all (fun c => !c.wf) = true := by decide +kernel

/-- Every op refuses arguments over their range. -/
theorem smoke_args : ([.cimMvm ctx { cimArgs with slice := 65536 }, .cimMvm ctx { cimArgs with fscB4 := 8 }, .cimMvm ctx { cimArgs with fscWide := 8 },
    .cimMvm ctx { cimArgs with outFmt := 256 }, .cimMvmt ctx { cimArgs with checkTol := 65536 }, .cimMvmt ctx { cimArgs with deltaLayer := 65536 },
    .reduce ctx ⟨0, 3, 0, 6, 0, 32⟩, .reduce ctx ⟨0, 0, 3, 6, 0, 32⟩, .gather ctx ⟨0, 3, 0, 6, 0, 32⟩, .norm ctx ⟨2, 0, 6, 0⟩, .act ctx ⟨256, 0, 6, 0⟩,
    .act ctx ⟨0, 256, 6, 0⟩, .rope ctx ⟨64, 65, 1, 0, 0⟩, .rope ctx ⟨64, 64, 1, 2, 0⟩, .attn ctx ⟨8, 0, 64, 1, 0, 0, 0, 1, false, 0, []⟩,
    .attn ctx ⟨8, 9, 64, 1, 0, 0, 0, 1, false, 0, []⟩, .attn ctx ⟨8, 8, 64, 1, 256, 0, 0, 1, false, 0, []⟩, .route ctx ⟨8, 0, 0, 4⟩, .route ctx ⟨8, 9, 0, 4⟩,
    .expert ctx ⟨0, cimArgs, 2, 0, 4⟩, .expert ctx ⟨0, { cimArgs with fscB4 := 8 }, 1, 0, 4⟩, .embed ctx ⟨0, 6⟩, .patch ctx ⟨0, 1, 64, 64, 0, 0, 6⟩,
    .patch ctx ⟨16, 0, 64, 64, 0, 0, 6⟩, .head ctx ⟨2 ^ 32, 1, 0, 4⟩, .head ctx ⟨0, 2 ^ 32, 0, 4⟩, .convert ctx ⟨256, false, []⟩, .copy ctx ⟨2 ^ 32, 0, 0⟩,
    .barrier ctx ⟨256, 0, 1⟩, .barrier ctx ⟨0, 0, 256⟩, .draft ctx 4 8 [], .draft ctx 1 9 [], .mask ctx 256 0 [], .sample ctx 65536] : List Instr).all
    (fun c => !c.wf) = true := by decide +kernel

/-- The rows of the module's own units refuse a number the largest module lacks, and a record of the wrong size. -/
theorem smoke_units : ([.sessionIdleExpiry 0, .sessionIdleExpiry 65536, .go ⟨2, 0⟩ 1 (List.replicate 16 0) [], .go ⟨0, 513⟩ 1 (List.replicate 16 0) [],
    .go ⟨0, 0⟩ (2 ^ 32) (List.replicate 16 0) [], .go ⟨0, 0⟩ 1 [] [], .go ⟨0, 0⟩ 1 (List.replicate 16 0) (List.replicate 4097 0), .abandon ⟨2, 0⟩,
    .doneClear ⟨0, 513⟩, .classPWriteDurable 65536 0 true, .classPWriteDurable 0 256 true, .bulkMeshTransfer { crossing with src := .core 64 },
    .bulkMeshTransfer { crossing with src := .sram 4 0 }, .bulkMeshTransfer { crossing with src := .sram 0 16 },
    .bulkMeshTransfer { crossing with dst := .stack 12 false }, .bulkMeshTransfer { crossing with dst := .link 16 0 },
    .bulkMeshTransfer { crossing with dst := .link 0 4 }, .bulkMeshTransfer { crossing with dst := .port 2 0 },
    .bulkMeshTransfer { crossing with dst := .port 0 4 }, .bulkMeshTransfer { crossing with flowTag := 256 },
    .bulkMeshTransfer { crossing with cls := 3 }, .selvedgeMessage ⟨64, none, 0, [], 0, 0⟩, .selvedgeMessage ⟨0, some 64, 0, [], 0, 0⟩,
    .selvedgeMessage ⟨0, none, 5, [], 0, 0⟩, .selvedgeMessage ⟨0, none, 0, [2 ^ 32], 0, 0⟩, .selvedgeMessage ⟨0, none, 0, List.replicate 8 0, 0, 0⟩, .engineMvmStart 2048 [], .phaseWindowEnd { goodWin with engine := 2048 },
    .phaseWindowEnd { goodWin with facet := 4 }, .phaseWindowEnd { goodWin with chk := [] }, .phaseWindowEnd { goodWin with ref := [] },
    .phaseWindowEnd { goodWin with codes := [⟨1024, 0, false⟩] }, .phaseWindowEnd { goodWin with codes := [⟨0, 128, false⟩] },
    .phaseWindowEnd { goodWin with codes := [⟨0, 126, true⟩] }, .phaseWindowEnd { goodWin with shadow := [⟨16, 0, false⟩] }, .goldenReadReturn ⟨2048, 0, 0, false⟩, .goldenReadReturn ⟨0, 4, 0, false⟩,
    .goldenReadReturn ⟨0, 0, 1024, false⟩, .recomputeComplete 2048, .epilogue 2048, .dieStepEnd (2 ^ 32), .sliceAdjustStep 5 33,
    .sliceCalibrationComplete ⟨8192⟩, .sliceAdjustStep 0x8100 0, .sentinelConverterCal 8192, .rowSideCal 8192, .trimApply 8192 [],
    .trimApply 5 [5], .calibrationMvm 5 0 0 [], .baselineRecord 8192, .facetProgramStart 8192, .facetProgramDone { programResult with array := 8192 },
    .drainDeadline 4 0, .inPlaceRefresh [8192]] : List Instr).all (fun c => !c.wf) = true := by decide +kernel

theorem smoke_serving : ([.loadSectionArrival 256 0 [] false, .loadSectionArrival 0 65536 [] false, .reattachReadbackDone [(64, digest64)],
    .reattachReadbackDone [(0, [])], .submit 1024 (List.replicate 128 0) false 0, .submit 3 [] false 0, .cancel 1024 (List.replicate 128 0) false 0,
    .cancel 3 [] false 0, .promptFetchDone 16384 .error 0, .stepHead { stepHead1 with step := 2 ^ 32 }, .stepHead { stepHead1 with epoch := 65536 },
    .stepHead { stepHead1 with kind := 256 }, .stepHead { stepHead1 with bodyCrc := 2 ^ 32 }, .bodyResend 256, .drafts [⟨List.replicate 9 none, []⟩],
    .masks 4 [] false, .accept [2 ^ 32], .gatherPart { collPart with src := 256 }, .gatherPart { collPart with slot := 4 },
    .reduceResult { collPart with data := [.blocks [{ goodBlk with codes := [] }]] },
    .reduceResult { collPart with data := [.blocks [{ goodBlk with codes := List.replicate 32 (some 128) }]] },
    .reduceResult { collPart with data := [.blocks [{ goodBlk with b8 := false, codes := List.replicate 32 (some 8) }]] },
    .reduceResult { collPart with data := [.blocks [{ goodBlk with field := 256 }]] }, .reduceResult { collPart with data := [.words 6 [some (2 ^ 32)]] },
    .reduceResult { collPart with data := [.cand ⟨2 ^ 32, 0, [], false⟩] }, .reduceResult { collPart with data := [.route [(65536, 0)]] },
    .reducePart collPart 6 3 0, .reducePart collPart 6 0 3, .stepResult { stepResult1 with src := 256 },
    .stepResult { stepResult1 with lanes := [⟨65536, false, false, 0, 0, 0⟩] }, .barrierMessage 256 0 0 false, .barrierMessage 0 256 0 false,
    .barrierMessage 0 0 256 false, .heartbeat 256 0, .heartbeatAck 256 0, .deltaFetchDone 64 0 0 0 0 0 0 [], .deltaFetchDone 0 4 0 0 0 0 0 [],
    .deltaFetchDone 0 0 65536 0 0 0 0 [], .deltaFetchDone 0 0 0 256 0 0 0 []] : List Instr).all (fun c => !c.wf) = true := by decide +kernel

theorem smoke_fabric : ([.linkTrainingDone 16 0 none 0 false, .linkTrainingDone 0 256 none 0 false,
    .linkTrainingDone 0 0 (some { identityOf 2 with serial := 2 ^ 64 }) 0 false, .linkTrainingDone 0 0 (some { identityOf 2 with role := 4 }) 0 false,
    .linkTrainingDone 0 0 (some { identityOf 2 with link := 16 }) 0 false, .linkTrainingDone 0 0 (some { identityOf 2 with partners := [(16, 0, 0)] }) 0 false,
    .linkRetrainTimer 16, .laneLockLoss 16 0, .laneLockLoss 0 8, .flitTimeout 16, .dataFlit 16 goodFlit, .dataFlit 0 { goodFlit with vl := 4 },
    .dataFlit 0 { goodFlit with seq := 1024 }, .nullFlit 0 { goodFlit with ack := 1024 }, .nullFlit 0 { goodFlit with crVl := 4 },
    .nullFlit 0 { goodFlit with crCnt := 256 }, .nak 16 0, .nak 0 1024, .linkLatencyMeasure 16 0, .faultNotice { stepNotice with epoch := 65536 },
    .faultNotice { stepNotice with cause := 256 }, .loadData 16 0 0 [] false, .loadData 0 256 0 [] false, .loadData 0 0 65536 [] false,
    .dictRequest 256 goodReq, .dictResponse 256 0 0 0 0 [], .dictResponse 0 256 0 0 0 [], .dictResponse 0 0 256 0 0 [], .dictResponse 0 0 0 256 0 [],
    .dictResponse 0 0 0 0 (2 ^ 32) [], .dictResponse 0 0 0 0 0 (List.replicate 4097 0), .probe 256 0 0, .probe 0 16 0, .probe 0 0 65536,
    .probeReply (identityOf 2) 16, .membership { memberOf 2 3 with deviceId := 256 }, .membership { memberOf 2 3 with members := [256] },
    .membership { memberOf 2 3 with memberLinks := [16] }, .order (.pause 4 0), .order (.drain 4), .order (.drainComplete 0 2), .order (.power 5),
    .order (.deltaInstall 0 65536 0 0), .mirror ⟨[(16384, [])], [], [], [], [], []⟩, .throttleStateChange 256 false,
    .forwardedRecord ⟨0, 256, 0, 0, 0, 0, 0, 0⟩, .orderReport 256 .coresRestored, .orderReport 0 (.pauseAsked 4 0),
    .sweepRecords 256 [], .sweepRecords 0 [⟨0, 0, 0, 0, 0, []⟩]] : List Instr).all (fun c => !c.wf) = true := by decide +kernel

theorem smoke_module : ([.portReset 2 0, .portReset 0 4, .perstRelease 2, .functionLevelReset 2 0, .functionLevelReset 0 513, .vfEnableChange 2 0,
    .vfEnableChange 0 513, .cqHead 1024 0, .cqHead 0 (2 ^ 32), .cqIrqTimer 1024, .dmaSlotStart 32 [] [], .dmaHalf 32, .dmaSlotEnd 32, .hostReadError 32 0,
    .scrubRead 12 0 noFlips false 0, .scrubRead 0 0 [] false 0, .scrubRead 0 0 noFlips false 1001,
    .refreshBandChange 12, .shadowSampleJudged ⟨2048, 0, false⟩, .arbitration ⟨0, 4, 0, false⟩, .arbTimeout 0 0 8, .sweep [⟨64, 0, [], 0⟩], .sweep [⟨0, 4, [], 0⟩],
    .sweep [⟨0, 0, [(8192, ⟨0, 0, 0⟩)], 0⟩], .sweep [⟨0, 0, [(0, ⟨0, 1056, 0⟩)], 0⟩], .sweep [⟨0, 0, [(0, ⟨0, 1023, 8⟩)], 0⟩], .testDue 64, .testComplete 64 [] 0 0, .testComplete 0 [16] 0 0, .testOverdue 64, .coreRecoveryReset 64 0, .coreRecoveryReset 0 256,
    .powerSample (2 ^ 32) 0 0, .thermalCrossing 4 0 false, .thermalCrossing 2 0 true, .graceExpiry 4, .skipStepTick 4, .divideAfterExpiry 4,
    .thermalShutdown 10, .supplyFault 3, .islandStop 0xB0 false, .islandDrainComplete 0xB0 0, .islandRestart 0xB0, .hkRound 2 false, .hkConversion 0 16 0,
    .urgentConversion 0 64 0 0 0, .urgentConversion 0 0 8 0 0, .urgentConversion 0 0 0 4 0, .urgentResult 2 0 0, .calSwap 2 0 0, .coldStart (2 ^ 32),
    .bootStageEnd true (2 ^ 32), .negotiateAlgorithms .portA [65536] [], .getCertificate .portA 256 0 0, .challenge .portA 0 [],
    .getMeasurements .portA 256 false [], .getMeasurements .portA 1 false [0], .vinDrop (2 ^ 32), .cableInsert 1, .cableInsert 6, .cableRemove 1,
    .cableRemove 6, .dynamicAddressAssignment 128, .linkUp 2 6 8 true, .linkUp 0 0 8 true, .linkUp 0 7 8 true, .linkUp 0 6 3 true] : List Instr).all
    (fun c => !c.wf) = true := by decide +kernel

/-! ## Worked examples of the spec -/

/-- 01, example of facet 0x1A57: its core 52 and that core's router island. -/
theorem test_facet_id : facetCore 0x1A57 = 52 ∧ coreRow 52 = 1 ∧ coreCol 52 = 11 := by decide

/-- 02, example after R75: the header of the READ of island 0x34's status at device 17, and the status word. -/
theorem test_header : reqHeader 1 { req hostA 0x2100 0x34 [] with target := 17 } = [0x01, 0x2A, 0x11, 0, 0, 0x21, 0x34, 0, 0, 0, 0, 0, 0, 0, 0, 0] := by decide +kernel

theorem test_island_status : ready.work.islandStatus 0x34 = 0x03AC0803 := by decide +kernel

/-- 04, example after R138: the corrected values of two phases at full-scale code 3, and y of the lane. -/
theorem test_correct : correct 3 0x400 (-0x100) 12 310 = 194 ∧ correct 3 0x400 (-0x100) (-3) 295 = -47 := by decide +kernel

theorem test_epilogue : (fmtFp16.write .nearest (fmtFp32.value (epilogueLane 72 (some 0x2200) (-3) 0).1).1).1 = 0x2EC0 := by decide +kernel

/-- 05, examples after R158: a B4 block, a block under B4's floor and one over its ceiling. -/
def blockOf (xs : List Rat) : List (Option Rat) := (xs ++ List.replicate (32 - xs.length) 0).map some

theorem test_b4 : (encodeBlock true (fun _ => none) (blockOf [83 / 100, -41 / 100, 52 / 1000, 27 / 100, 3125 / 10000])).1.field = 17 ∧
    (encodeBlock true (fun _ => none) (blockOf [83 / 100, -41 / 100, 52 / 1000, 27 / 100, 3125 / 10000])).1.codes.take 5 = [some 7, some (-3), some 0, some 2, some 2] := by
  decide +kernel

theorem test_floor : (encodeBlock true (fun _ => none) (blockOf [3 / 1000000])).1 = ⟨true, 108, some 101 :: List.replicate 31 (some 0)⟩ := by decide +kernel

theorem test_ceiling : (encodeBlock true (fun _ => none) (blockOf [20000])).1 = ⟨true, 141, some 78 :: List.replicate 31 (some 0)⟩ := by decide +kernel

/-- 05, example after R159: three B4 blocks of a J1 slice run wide, at E_in = -7. -/
def b4Block (u : Int) (codes : List Int) : Blk := ⟨false, (u + 20).toNat, (codes ++ List.replicate (32 - codes.length) 0).map some⟩

theorem test_align : (let a := alignSlice false [b4Block (-3) [7, -2], b4Block (-5) [5, -3], b4Block (-8) [3, 2, -1]]
    (a.wide, a.eIn, a.drive.filter (fun x => decide (x ≠ some 0)))) = (true, -7, [some 112, some (-32), some 20, some (-12), some 2, some 1]) := by
  decide +kernel

/-- 09, example after R306: 6,000 positions at 2 a page over 8 dies are 384 pages. -/
theorem test_pages : pagesFor 2 8 6000 = 384 := by decide +kernel

/-! ## Statements of 02: what meets their hypotheses, clause by clause -/

/-- The row and value name of EDGE_SHARE_LIMIT. -/
def edgeKey : Key := ⟨0x5000, 4, 0⟩

theorem wit_reads_read : ready.takes 1 readReq ∧ ready.work.lookup (seen 1 readReq) = some (rowOf edgeKey, edgeKey) ∧
    (rowOf edgeKey).access ≠ .wo ∧ (rowOf edgeKey).ty ≠ .domain ∧ ready.work.readState readReq.index = none ∧
    readReq.payload = [] ∧ islandServes ready readReq := by
  refine ⟨State.takes_of ?_, ?_, ?_, ?_, ?_, rfl, fun h => absurd h (by decide)⟩ <;> decide +kernel

theorem wit_reads_describe_next : ready.takes 3 readReq ∧ ready.work.lookup (seen 3 readReq) = some (rowOf edgeKey, edgeKey) ∧
    ready.takes 4 readReq ∧ readReq.payload = [] := by
  refine ⟨State.takes_of ?_, ?_, State.takes_of ?_, rfl⟩ <;> decide +kernel

/-- Every operation a tenant's function can aim at the object, it takes. -/
theorem wit_tenants : originTenant blindReq.origin = some 3 ∧ (∀ op ∈ [1, 2, 3, 4, 0x10, 0x11], ready.takesB op blindReq = true) ∧
    ∀ row, findRow blindReq.index blindReq.sub = some row → row.tenantVisible = false := by
  refine ⟨by decide, by decide +kernel, fun row h => ?_⟩
  have hr : findRow blindReq.index blindReq.sub = some (rowOf Obj.edgeShareLimit) := by decide +kernel
  cases hr.symm.trans h
  decide +kernel

theorem wit_tenants_takes : ready.takes 1 blindReq ∧ ready.takes 0x11 blindReq ∧ ready.work.lookup (seen 1 blindReq) = none ∧
    ready.takes 3 blindReq ∧ ready.work.lookup (seen 3 blindReq) = none := by
  refine ⟨State.takes_of ?_, State.takes_of ?_, ?_, State.takes_of ?_, ?_⟩ <;> decide +kernel

theorem wit_writes_value : ready.grants (req hostA 0x5000 4 [200]) (rowOf edgeKey) edgeKey 200 ∧ (rowOf edgeKey).access = .rw ∧
    (rowOf edgeKey).cls ≠ .p ∧ (rowOf edgeKey).min ≤ 200 ∧ 200 ≤ (rowOf edgeKey).max ∧ ready.work.valueRefused hostA edgeKey 200 = none ∧
    ready.plainValue edgeKey := by
  refine ⟨State.grants_of ?_, ?_, ?_, ?_, ?_, ?_, ?_, ?_, ?_, ?_, ?_, ?_⟩ <;> decide +kernel

/-- The three rows that write one object, with the conditions of its value. -/
def wordRow (r : Req) (k : Key) (v : Nat) : Bool :=
  ready.grantsB r (rowOf k) k v && decide ((rowOf k).access = .rw) && decide ((rowOf k).cls ≠ .p) && decide ((rowOf k).min ≤ v) && decide (v ≤ (rowOf k).max) &&
    decide (ready.work.valueRefused r.origin k v = none) && !ready.work.resting k.index

theorem wit_writes_rows : wordRow (req hostA 0x1F01 6 [1]) (Obj.rangeOwner 5) 1 = true ∧ wordRow (req hostA 0x3810 1 [0xE8, 3]) (Obj.roundUs 0) 1000 = true ∧
    wordRow (req hostA 0x9013 1 [0xFF, 0, 0, 0]) (Obj.attentionMask 0) 255 = true := by decide +kernel

theorem wit_writes_clear : ready.grants (req hostA 0x9012 1 [0x80, 0, 0, 0]) (rowOf (Obj.attention 0)) (Obj.attention 0) 0x80 ∧
    (rowOf (Obj.attention 0)).access = .w1c ∧ (rowOf (Obj.attention 0)).min ≤ 0x80 ∧ 0x80 ≤ (rowOf (Obj.attention 0)).max ∧
    ready.work.valueRefused hostA (Obj.attention 0) 0x80 = none ∧ ¬ answerKey (Obj.attention 0) := by
  refine ⟨State.grants_of ?_, ?_, ?_, ?_, ?_, by simp [answerKey, linkCounter]⟩ <;> decide +kernel

theorem wit_writes_clear_tenant : ready.grants (req tenant3 0x9100 7 [1, 0, 0, 0]) (rowOf (Obj.tenantAttention 3)) (Obj.tenantAttention 3) 1 ∧
    (rowOf (Obj.tenantAttention 3)).access = .w1c ∧ (rowOf (Obj.tenantAttention 3)).min ≤ 1 ∧ 1 ≤ (rowOf (Obj.tenantAttention 3)).max ∧
    ready.work.valueRefused tenant3 (Obj.tenantAttention 3) 1 = none ∧ ¬ answerKey (Obj.tenantAttention 3) := by
  refine ⟨State.grants_of ?_, ?_, ?_, ?_, ?_, by simp [answerKey, linkCounter]⟩ <;> decide +kernel

/-- A write of an object of class P that waits for the store. -/
def stores (r : Req) (k : Key) (v : Nat) : Bool :=
  ready.grantsB r (rowOf k) k v && decide ((rowOf k).access = .rw ∨ (rowOf k).access = .wo) && decide ((rowOf k).cls = .p) &&
    decide ((rowOf k).min ≤ v) && decide (v ≤ (rowOf k).max) && decide (ready.work.valueRefused r.origin k v = none) &&
    ready.dev.dict.persist.all (fun p => decide (p.key ≠ k))

theorem wit_writes_store : stores (req hostA 0x3010 1 [0x58, 2]) Obj.powerCapW 600 = true ∧ stores (req bmc 0xC100 4 [1]) Obj.keyLock 1 = true ∧
    stores (req bmc 0x1180 1 [1, 2, 3, 4, 5, 6, 7, 0]) Obj.calendarStamp 0x07060504030201 = true := by decide +kernel

theorem wit_writes_durable : (storing Obj.powerCapW 600).dev.dict.persist = ⟨req hostA 0x3010 1 [], 2, Obj.powerCapW, 600, [], false⟩ :: [] ∧
    Obj.powerCapW ≠ Obj.faultLog ∧ Obj.powerCapW ≠ Obj.calendarStamp ∧ findRow 0x3010 1 = some (rowOf Obj.powerCapW) ∧
    (rowOf Obj.powerCapW).ty ≠ .domain ∧ ¬ answerKey Obj.powerCapW ∧ Obj.powerCapW ≠ Obj.requestsRefused ∧ Obj.powerCapW ≠ Obj.deviceId ∧
    Obj.powerCapW.tenant = 0 := by
  refine ⟨rfl, ?_, ?_, ?_, ?_, by simp [answerKey, linkCounter], ?_, ?_, ?_⟩ <;> decide +kernel

theorem wit_claims : claimed.takes 2 (req hostA 0x5000 4 [200]) ∧
    claimed.work.lookup (seen 2 (req hostA 0x5000 4 [200])) = some (rowOf edgeKey, edgeKey) ∧ (rowOf edgeKey).access ≠ .ro ∧
    (rowOf edgeKey).ty ≠ .domain ∧ claimed.work.roleAllows hostA (rowOf edgeKey).cls 0x5000 = true ∧
    claimed.work.claimedBy hostA 0x5000 = some 3 := by
  refine ⟨State.takes_of ?_, ?_, ?_, ?_, ?_, ?_⟩ <;> decide +kernel

theorem wit_restore : worker.startsAt (req bmc 0 0 [6, 0x1F, 0, 0]) Obj.restoreDefaults 0x1F06 ∧ worker.val Obj.role = 3 ∧
    (∀ l, l < 16 → worker.val (Obj.linkEnable l) = 1) ∧ worker.work.restores bmc 0x1F06 edgeKey = true := by
  refine ⟨State.startsAt_of ?_, ?_, ?_, ?_⟩ <;> decide +kernel

/-- SCRUB_NOW runs. -/
def scrubbing : State := withObj ready Obj.scrubNow 0x12

theorem wit_abort : findRow 0xA200 5 = some (rowOf Obj.scrubNow) ∧
    scrubbing.grants (req hostA 0xA200 5 [0xFF]) (rowOf Obj.scrubNow) Obj.scrubNow (2 ^ typeBits (rowOf Obj.scrubNow).ty - 1) ∧
    (rowOf Obj.scrubNow).access = .cmd ∧ scrubbing.work.cmdBusy Obj.scrubNow = true ∧
    ready.grants (req hostA 0xA200 5 [0xFF]) (rowOf Obj.scrubNow) Obj.scrubNow (2 ^ typeBits (rowOf Obj.scrubNow).ty - 1) ∧
    ready.work.cmdBusy Obj.scrubNow = false ∧ List.replicate (typeSize (rowOf Obj.scrubNow).ty) (0xFF : Byte) = [0xFF] := by
  refine ⟨?_, State.grants_of ?_, ?_, ?_, State.grants_of ?_, ?_, ?_⟩ <;> decide +kernel

theorem wit_sessions_open_read : ready.takes 0x10 (req hostA 0x5400 1 []) ∧
    ready.work.lookup (seen 0x10 (req hostA 0x5400 1 [])) = some (rowOf Obj.loadRequest, Obj.loadRequest) ∧ (rowOf Obj.loadRequest).ty = .domain ∧
    (rowOf Obj.loadRequest).access = .rw ∧ ready.work.readState 0x5400 = none ∧ ready.work.readDomain hostA Obj.loadRequest = .ok [] ∧
    ready.work.resting 0x5400 = false ∧ ready.work.sessionFree .portA = true := by
  refine ⟨State.takes_of ?_, ?_, ?_, ?_, ?_, ?_, ?_, ?_⟩ <;> decide +kernel

theorem wit_sessions_open_write : ready.takes 0x11 { req hostA 0x5400 1 [] with arg := 64 } ∧
    ready.work.lookup (seen 0x11 { req hostA 0x5400 1 [] with arg := 64 }) = some (rowOf Obj.loadRequest, Obj.loadRequest) ∧
    (rowOf Obj.loadRequest).ty = .domain ∧ (rowOf Obj.loadRequest).access ≠ .ro ∧ ready.work.writeRefused hostA (rowOf Obj.loadRequest) = none ∧
    ready.dev.dict.sessions = [] ∧ ready.work.sessionFree .portA = true := by
  refine ⟨State.takes_of ?_, ?_, ?_, ?_, ?_, ?_, ?_⟩ <;> decide +kernel

/-- A session that reads three bytes, and one that has received a byte of 64. -/
def reading : State := withSession ready ⟨7, hostA, false, Obj.loadRequest, 3, [1, 2, 3], 0⟩
def writing : State := withSession ready (loadRequestWrite 64 [1])

theorem wit_sessions_read : reading.takes 0x12 (sessionReq 3 []) ∧ reading.work.sessionRefused (sessionReq 3 []) = none ∧
    reading.work.sessionOf (sessionReq 3 []) = some ⟨7, hostA, false, Obj.loadRequest, 3, [1, 2, 3], 0⟩ ∧
    (reading.work.dom Obj.loadRequest).gen = 0 ∧ reading.work.readState 0x5400 = none := by
  refine ⟨State.takes_of ?_, ?_, ?_, ?_, ?_⟩ <;> decide +kernel

theorem wit_sessions_write : writing.takes 0x13 (sessionReq 1 [5, 6]) ∧ writing.work.sessionRefused (sessionReq 1 [5, 6]) = none ∧
    writing.work.sessionOf (sessionReq 1 [5, 6]) = some (loadRequestWrite 64 [1]) ∧ (loadRequestWrite 64 [1]).data.length = 1 ∧
    writing.takes 0x15 (sessionReq 0 []) ∧ writing.work.sessionRefused (sessionReq 0 []) = none ∧
    writing.work.sessionOf (sessionReq 0 []) = some (loadRequestWrite 64 [1]) := by
  refine ⟨State.takes_of ?_, ?_, ?_, ?_, State.takes_of ?_, ?_, ?_⟩ <;> decide +kernel

/-- A session operation on an object that is no DOMAIN, and one on an object its caller does not see. -/
theorem wit_sessions_refused : writing.takes 0x13 { sessionReq 1 [5] with index := 0x5000, sub := 4 } ∧
    writing.work.sessionRefused { sessionReq 1 [5] with index := 0x5000, sub := 4 } = some (2, 0) ∧
    ready.takes 0x14 { sessionReq 0 [] with origin := tenant3, index := 0x5000, sub := 4 } ∧
    ready.work.sessionRefused { sessionReq 0 [] with origin := tenant3, index := 0x5000, sub := 4 } = some (1, 0) := by
  refine ⟨State.takes_of ?_, ?_, State.takes_of ?_, ?_⟩ <;> decide +kernel

/-- A session that writes an object whole, and its commit. -/
def committing (k : Key) (o : Origin) (data : List Byte) : State := withSession ready ⟨7, o, true, k, data.length, data, 0⟩

def commitReq (o : Origin) : Req := { req o 0 0 [] with tenant := 7 }

/-- What every commit of a whole value meets. -/
def commits (k : Key) (o : Origin) (data : List Byte) : Bool :=
  let s := committing k o data
  s.takesB 0x14 (commitReq o) && decide (s.work.sessionRefused (commitReq o) = none) &&
    decide (s.work.sessionOf (commitReq o) = some ⟨7, o, true, k, data.length, data, 0⟩) && decide (findRow k.index k.sub = some (rowOf k)) &&
    decide (s.work.writeRefused o (rowOf k) = none)

theorem wit_commit_takes : commits Obj.loadRequest hostA (List.replicate 64 0) = true ∧
    (committing Obj.loadRequest hostA (List.replicate 64 0)).work.commitRefused hostA Obj.loadRequest (List.replicate 64 0) = none ∧
    (rowOf Obj.loadRequest).cls ≠ .p ∧ (committing Obj.loadRequest hostA (List.replicate 64 0)).work.resting 0x5400 = false := by decide +kernel

theorem wit_commit_refused : commits Obj.loadRequest hostA [9, 9, 9] = true ∧
    (committing Obj.loadRequest hostA [9, 9, 9]).work.commitRefused hostA Obj.loadRequest [9, 9, 9] ≠ none := by decide +kernel

/-- A session that has received less than it declared. -/
theorem wit_commit_short : writing.takes 0x14 (commitReq hostA) ∧ writing.work.sessionRefused (commitReq hostA) = none ∧
    writing.work.sessionOf (commitReq hostA) = some (loadRequestWrite 64 [1]) ∧ findRow 0x5400 1 = some (rowOf Obj.loadRequest) ∧
    writing.work.writeRefused hostA (rowOf Obj.loadRequest) = none := by
  refine ⟨State.takes_of ?_, ?_, ?_, ?_, ?_⟩ <;> decide +kernel

/-- A SEQUENCE of the channels that must be read. -/
def sequenceBytes : List Byte := hkNeeded.flatMap (fun c => hkCfgBytes ⟨c, true, 0, 0, 1, 0⟩) ++ hkCfgBytes ⟨0, false, 0, 0, 1, 0⟩

theorem wit_commit_sequence : commits ⟨0x3811, 1, 0⟩ bmc sequenceBytes = true ∧
    (committing ⟨0x3811, 1, 0⟩ bmc sequenceBytes).work.commitRefused bmc ⟨0x3811, 1, 0⟩ sequenceBytes = none ∧ (rowOf ⟨0x3811, 1, 0⟩).cls ≠ .p ∧
    (committing ⟨0x3811, 1, 0⟩ bmc sequenceBytes).work.resting 0x3811 = false ∧
    (hkValidate (ready.val (Obj.roundUs 0)) ready.dev.dram.off sequenceBytes).toOption = hkSequenceOf sequenceBytes ∧
    (hkSequenceOf sequenceBytes).isSome = true := by
  decide +kernel

theorem wit_commit_others : commits Obj.ownerKeys bmc (List.replicate 8 0) = true ∧
    (committing Obj.ownerKeys bmc (List.replicate 8 0)).work.commitRefused bmc Obj.ownerKeys (List.replicate 8 0) = none ∧
    (rowOf Obj.ownerKeys).cls = .p ∧ commits Obj.ownerUnlock bmc [1] = true ∧ commits Obj.firmwareImage bmc [1] = true := by decide +kernel

theorem wit_window_go : winOk ⟨0, 0⟩ = true ∧ ready.work.reaches (FnWinOrigin ⟨0, 0⟩) = true ∧ (ready.work.window ⟨0, 0⟩).busy = false ∧
    (ready.work.window ⟨0, 0⟩).parked = false ∧ bitAt 1 0 = true ∧
    reqOf (FnWinOrigin ⟨0, 0⟩) ((readHeader ++ List.replicate 16 0).take 16) ([].take 4096) = (1, readReq) ∧
    booting.dev.boot.stage < 4 ∧ booting.work.reaches (FnWinOrigin ⟨0, 0⟩) = true ∧ (booting.work.window ⟨0, 0⟩).busy = false ∧
    (booting.work.window ⟨0, 0⟩).parked = false :=
  by decide +kernel

theorem wit_window_abandon : winOk ⟨0, 0⟩ = true ∧ (parkedWindow.work.window ⟨0, 0⟩).parked = true ∧ (ready.work.window ⟨0, 0⟩).parked = false := by
  decide +kernel

/-! ## Statements of 01, 17, 18 -/

theorem wit_mesh : endExists ready.ident crossing.src = true ∧ endExists ready.ident crossing.dst = true ∧ ready.work.canCarry crossing = true ∧
    (meshStop crossing.src).2 < 8 ∧ 8 ≤ (meshStop crossing.dst).2 ∧ (withIslands ready [(0x86, .stopped)]).work.canCarry crossing = false := by decide +kernel

/-- A Selvedge message within the bound of 40 ns, past it, and a third of its class. -/
def lateMessage : SelvedgeMsg := ⟨0, some 63, 4, [1], 100, 41⟩
def busySource : State := { ready with dev := { ready.dev with net := { ready.dev.net with flights := [⟨0, 4, 120⟩, ⟨0, 4, 130⟩] } } }

theorem wit_selvedge : lateMessage.src < 64 ∧ lateMessage.dst.getD 0 < 64 ∧ lateMessage.atNs < 120 ∧ ready.dev.net.flights = [] ∧
    ((ready.work.domain 0).divided || (ready.work.domain 1).divided) = false ∧
    ((withDomain ready { ThermDomain.reset with divided := true }).work.domain 0).divided = true := by decide +kernel

/-- The third of its class leaves when the first of the two is delivered. -/
theorem test_selvedge : (after (.selvedgeMessage lateMessage) busySource).dev.net.flights.map (·.untilNs) = [120, 130, 161] := by decide +kernel

theorem wit_sample : 1000 * ready.val Obj.powerBoundW < 1000 * ready.val Obj.powerBoundW + 1 ∧ ready.work.programDraw = 0 := by decide +kernel

theorem wit_governor_up : (let s := overCap 3 2; ((1000 * s.val Obj.powerCapW : Nat) : Rat) < s.work.meanPower ∧
    ((1000 * s.val Obj.powerCapW : Nat) : Rat) + (s.work.programDraw : Rat) < s.work.meanPower ∧ s.val Obj.governorSkip < 7) ∧
    (let s := overCap 7 2; ((1000 * s.val Obj.powerCapW : Nat) : Rat) < s.work.meanPower ∧
    ((1000 * s.val Obj.powerCapW : Nat) : Rat) + (s.work.programDraw : Rat) < s.work.meanPower ∧ 7 ≤ s.val Obj.governorSkip) := by decide +kernel

theorem wit_governor_down : (let s := underCap 3 9; ¬ (((1000 * s.val Obj.powerCapW : Nat) : Rat) < s.work.meanPower) ∧
    s.work.meanPower + 25000 < ((1000 * s.val Obj.powerCapW : Nat) : Rat) + (s.work.programDraw : Rat) ∧ 10 ≤ s.dev.power.sinceChange + 1 ∧
    0 < s.val Obj.governorSkip) ∧
    (let s := underCap 3 8; ¬ (((1000 * s.val Obj.powerCapW : Nat) : Rat) < s.work.meanPower) ∧ ¬ (10 ≤ s.dev.power.sinceChange + 1)) := by decide +kernel

/-- A domain in REQUEST at 106 °C, at 100 °C, and on the upper steps. -/
def hotRequest : ThermDomain := { ThermDomain.reset with state := .request, temp := 106 * 16 }
def coolRequest : ThermDomain := { hotRequest with temp := 100 * 16 }
def hotSkipping : ThermDomain := { hotRequest with state := .skipping, skip := 3 }

theorem wit_thermal : hotRequest.hot = true ∧ hotRequest.cool = false ∧ coolRequest.cool = true ∧ coolRequest.hot = false ∧
    { ThermDomain.reset with temp := 105 * 16 }.hot = true ∧ { ThermDomain.reset with temp := 105 * 16 - 1 }.hot = false ∧
    { ThermDomain.reset with temp := 104 * 16 }.warm = true ∧ hotSkipping.requesting = true ∧
    { coolRequest with lowering := true }.cool = true ∧ ThermDomain.reset.requesting = false ∧ ThermDomain.reset.state = .normal := by decide +kernel

/-- What a crossing and the timers meet on the ladder, at the bounds. -/
theorem wit_ladder : (let s := withDomain ready hotRequest; ((s.work.domain 0).state = .request ∧ (s.work.domain 0).cool = false ∧ { s.work.domain 0 with temp := 100 * 16, stale := false }.cool = true)) ∧
    (let s := withDomain ready ThermDomain.reset; ((s.work.domain 0).state = .normal ∧ { s.work.domain 0 with temp := 105 * 16, stale := false }.hot = true ∧ (105 * 16 : Int) < 118 * 16)) ∧
    (let s := withDomain ready hotSkipping; ((s.work.domain 0).lowering = false ∧ (s.work.domain 0).state = .skipping ∧ (s.work.domain 0).hot = true ∧ (s.work.domain 0).requesting = true ∧
        (s.work.domain 0).state ≠ .shutdown)) ∧
    (let s := withDomain ready { coolRequest with state := .skipping, skip := 3, lowering := true }; (s.work.domain 0).lowering = true ∧ (s.work.domain 0).cool = true) := by decide +kernel

/-- The governor skips 3 eighths and the Weft half 5. -/
def skipping : State :=
  let s := withObj ready Obj.governorSkip 3
  { s with dev := { s.dev with power := { s.dev.power with domains := [.reset, { ThermDomain.reset with state := .skipping, skip := 5 }, .reset, .reset] } } }

theorem wit_skip : islandPresent skipping.ident 0x34 = true ∧ skipping.work.islandCond 0x34 = .running ∧ skipping.val Obj.governorSkip < 8 ∧
    (skipping.work.domain (islandHalf 0x34)).skip < 8 ∧ islandKind 0x34 ≤ 1 ∧ ¬ islandKind 0x86 ≤ 1 ∧ islandPresent skipping.ident 0x86 = true ∧
    skipping.work.islandCond 0x86 = .running ∧ (skipping.work.domain (islandHalf 0x86)).skip < 8 := by decide +kernel

theorem test_skip : field (skipping.work.islandStatus 0x34) 10 8 = 5 ∧ field (skipping.work.islandStatus 0x04) 10 8 = 3 := by decide +kernel

theorem wit_throttle : manager.val Obj.role = 1 ∧ worker.val Obj.role ≠ 1 := by decide +kernel

/-- The monitor of half 0 on its serving slice, in a round, between rounds with an exchange that waits, and with an urgent request. -/
def inRoundHk : HkHalf := { HkHalf.reset with inRound := true }
def swapWaits : HkHalf := { HkHalf.reset with swap := some (1, 2) }
def urgentHk : HkHalf := { HkHalf.reset with urgent := [⟨5, 3, 0, 100⟩] }

theorem wit_rounds : (ready.work.hkHalf 0).running = true ∧ (ready.work.hkHalf 0).midRound ready.dev.dram.off = false ∧
    ((withHk ready swapWaits).work.hkHalf 0).swap.isSome = true ∧ ((withHk ready swapWaits).work.hkHalf 0).midRound ready.dev.dram.off = false ∧
    ((withHk ready inRoundHk).work.hkHalf 0).midRound ready.dev.dram.off = true ∧ ((withHk ready { HkHalf.reset with running := false }).work.hkHalf 0).running = false := by
  decide +kernel

theorem wit_conversions : ((withHk ready inRoundHk).work.hkHalf 0).running = true ∧ ((withHk ready inRoundHk).work.hkHalf 0).inRound = true ∧
    ((withHk ready inRoundHk).work.hkHalf 0).due ready.dev.dram.off = some 0 ∧ ((withHk ready urgentHk).work.hkHalf 0).urgent = ⟨5, 3, 0, 100⟩ :: [] ∧
    ((withHk ready urgentHk).work.hkHalf 0).running = true := by decide +kernel

theorem wit_swaps : (ready.work.hkHalf 0).running = true ∧ (ready.work.hkHalf 0).failed = none ∧ (ready.work.hkHalf 0).midRound ready.dev.dram.off = false ∧
    ((withHk ready inRoundHk).work.hkHalf 0).failed = none ∧ ((withHk ready inRoundHk).work.hkHalf 0).midRound ready.dev.dram.off = true ∧
    (32 : Int).natAbs ≤ 32 ∧ (20000 : Int).natAbs ≤ 20000 ∧ ¬ (20001 : Int).natAbs ≤ 20000 := by decide +kernel

/-! ## Statements of 15, 14, 07 -/

/-- A codeword read with symbols `i`, `i + 1`, … wrong by `vs`. -/
def flipsAt (i : Nat) (vs : List Nat) : List Nat := List.replicate i 0 ++ vs ++ List.replicate (36 - i - vs.length) 0

/-- A codeword as it is stored, of one block of data at address 0x300000000, has no syndrome, and its marker is seen alone (R469, R471). -/
theorem test_codeword : syndromes (addressSymbols 0x18000000 ++ (List.range 32 ++ checkBytes 0x18000000 (List.range 32) false)) = [0, 0, 0, 0] := by decide +kernel

theorem test_marker : decodeFlips (flipsAt 0 []) true = .poisoned ∧ decodeFlips (flipsAt 0 []) false = .clean := by decide +kernel

/-- One and two symbols are corrected, at the ends of the codeword as well (R470). -/
theorem test_corrects : decodeFlips (flipsAt 0 [0x80]) false = .corrected [(0, 0x80)] ∧ decodeFlips (flipsAt 35 [1]) false = .corrected [(35, 1)] ∧
    decodeFlips (flipsAt 0 [3, 0xFF]) false = .corrected [(1, 0xFF), (0, 3)] := by decide +kernel

/-- A scrub of 0x300000000 while scrub runs. -/
def scrubsAt (s : State) : Bool :=
  addrValid 0x300000000 && decide (addrStack 0x300000000 = 0) && decide (s.mem.wf = true) && !s.dev.dram.off && !s.dev.dram.selfRefresh &&
    decide (s.val Obj.scrubEnable ≠ 0) && decide (s.dev.dram.regionOf 0x300000000 ≠ 1) && !(decide (s.dev.dram.regionOf 0x300000000 = 3) && s.work.isManager)

theorem wit_scrub : scrubsAt ready = true ∧ ready.work.islandOpen 0x88 = true ∧ noFlips.length = 36 ∧ ready.poisonedAt (0x300000000 / 32) = false ∧
    scrubsAt (withIslands ready [(0x88, .stopped)]) = true ∧ (withIslands ready [(0x88, .stopped)]).work.islandOpen 0x88 = false ∧
    scrubsAt { ready with mem := ⟨[], [0x18000000]⟩ } = true ∧ { ready with mem := ⟨[], [0x18000000]⟩ }.dev.dram.loggedPoison.contains 0x18000000 = false := by
  decide +kernel

/-- Stack 0 at a temperature, refreshed at a rate. -/
def stackAt (degrees : Int) (rate : Nat) : State :=
  withObj (withHk ready { HkHalf.reset with entries := [{ HkEntry.reset ⟨6, true, 0, 0, 1, 0⟩ with value := degrees * 16, valid := true }] }) (Obj.refreshRate 0) rate

theorem wit_refresh : State.reset.dev.dram.off = true ∧ ready.dev.dram.off = false ∧ ready.dev.dram.selfRefresh = false ∧
    (stackAt 95 1).work.stackTemp16 0 = 95 * 16 ∧ (stackAt 85 1).work.stackTemp16 0 = 85 * 16 ∧ (stackAt 84 1).work.stackTemp16 0 < 85 * 16 ∧
    92 * 16 < (stackAt 93 4).work.stackTemp16 0 ∧ (stackAt 91 4).work.stackTemp16 0 < 92 * 16 ∧ 82 * 16 < (stackAt 83 2).work.stackTemp16 0 ∧
    (stackAt 83 2).work.stackTemp16 0 < 85 * 16 ∧ (stackAt 81 4).work.stackTemp16 0 < 82 * 16 ∧ (stackAt 83 2).val (Obj.refreshRate 0) = 2 ∧
    (stackAt 93 4).val (Obj.refreshRate 0) = 4 := by decide +kernel

/-- A band is left 3 °C below the bound it is entered at. -/
theorem test_refresh : (after (.refreshBandChange 0) (stackAt 93 4)).val (Obj.refreshRate 0) = 4 ∧
    (after (.refreshBandChange 0) (stackAt 93 2)).val (Obj.refreshRate 0) = 2 := by decide +kernel

theorem open_channel : channelRuns (withChan (chanWaits descIn) true) 3 := by unfold channelRuns; decide +kernel

theorem wit_dma_start : (withChan (chanWaits descIn) true).work.dmaChan 3 = chanWaits descIn ∧ (chanWaits descIn).running = some (0, descIn) ∧
    (chanWaits descIn).started = false ∧ (chanWaits descIn).queued = none ∧
    (withChan (chanWaits descIn) false).work.windowSpan 0x400 descIn.dst (descIn.span false) = none ∧
    (withChan (chanWaits descIn) true).work.windowSpan 0x400 descIn.dst (descIn.span false) ≠ none ∧
    (withChan (chanWaits descIn) true).work.dmaOwner 3 = 0x400 ∧ (withChan (chanWaits descIn) true).val Obj.powerState < 3 ∧
    (withChan (chanWaits descLoop) true).work.windowSpan 0x400 descLoop.src (descLoop.span true) ≠ none ∧
    (withChan (chanWaits descLoop) true).work.windowSpan 0x400 descLoop.dst (descLoop.span false) ≠ none ∧
    descLoop.src < descLoop.dst + descLoop.span false ∧ descLoop.dst < descLoop.src + descLoop.span true ∧
    3 ≤ (withObj (withChan (chanWaits descIn) true) Obj.powerState 3).val Obj.powerState := by decide +kernel

/-- The transfer runs, with its two bytes still to write. -/
def movingIn : State := withChan (chanRuns descIn [⟨0, 1, false, true⟩, ⟨1, 2, false, false⟩]) true
def movingOut : State := withChan (chanRuns descOut [⟨0, 1, true, true⟩, ⟨1, 2, false, false⟩]) true
def portStopped : State := withIslands movingIn [(0xA8, .stopped)]

theorem wit_dma_end : movingIn.mem.wf = true ∧ (movingIn.work.dmaChan 3).running = some (0, descIn) ∧ (movingIn.work.dmaChan 3).started = true ∧
    (movingIn.work.dmaChan 3).halfReached = false ∧ 2 ≤ descIn.pixels ∧ descIn.dir = 0 ∧ (movingIn.work.dmaChan 3).queued = none ∧
    (movingOut.work.dmaChan 3).running = some (0, descOut) ∧ (movingOut.work.dmaChan 3).started = true ∧ descOut.dir ≠ 0 := by decide +kernel

theorem wit_dma_runs : channelRuns movingIn 3 ∧ channelRuns movingOut 3 ∧ ¬ channelRuns portStopped 3 := by unfold channelRuns; decide +kernel

/-- The transfer's end writes its window, and nothing else. -/
theorem test_dma_end : (after (.dmaSlotEnd 3) movingIn).mem.cells = [(0x300000000, 1), (0x300000001, 2)] ∧
    (after (.dmaSlotEnd 3) movingIn).cmdStateOf (Obj.dmaGo0 3) = 3 := by decide +kernel

/-- The slice out of service has its samples: equal ones, and ones that fit a line. -/
def gathered (p : PairSums) : Arr := { inService with cal := { inService.cal with data := p } }
def flat : PairSums := ⟨2 ^ 20, 0, 0, 0, 0, 0⟩
def fitted : PairSums := ⟨2 ^ 20, 0, 0, 2 ^ 30, 2 ^ 30, 2 ^ 30⟩

theorem wit_slice : arrayExists 5 = true ∧ ((withArr ready 5 (gathered flat)).work.arr 5).outPos = some 32 ∧
    (withArr ready 5 (gathered flat)).val Obj.calEnable ≠ 0 ∧ ((withArr ready 5 (gathered flat)).work.arr 5).state ≠ 0 ∧
    (((withArr ready 5 (gathered flat)).work.arr 5).calCount + 1) % 33 ≠ 0 ∧
    (withArr ready 5 (gathered flat)).val Obj.calSamples ≤ ((withArr ready 5 (gathered flat)).work.arr 5).cal.data.n ∧ flat.spread = false ∧
    fitted.spread = true ∧ fitted.gain.isSome = true := by decide +kernel

theorem wit_adjust : (withArr ready 5 inService).val Obj.calEnable ≠ 0 ∧ ((withArr ready 5 inService).work.arr 5).retiredPos ≠ some 4 ∧
    (((withArr ready 5 { inService with positions := [(4, { inService.position 4 with conversions := 1024 })] }).work.arr 5).position 4).conversions = 1024 ∧
    ((withArr ready 5 { inService with retiredPos := some 4 }).work.arr 5).retiredPos = some 4 ∧
    (((withArr ready 5 inService).work.arr 5).position 4).conversions < 1024 := by decide +kernel

theorem wit_upkeep : ((withArr ready 5 { inService with baseAt := some 0 }).work.arr 5).baseAt = some 0 ∧ 0 ≤ ready.val Obj.poweredSeconds ∧
    ready.work.atBoundary = true ∧ ((withArr ready 5 { inService with sentDue := true }).work.arr 5).sentDue = true ∧
    (withObj (withArr ready 5 inService) Obj.poweredSeconds 601).work.rowCalStale 5 = true ∧
    ((withArr ready 5 inService).work.arr 5).trimTemp = none ∧ (withArr ready 5 inService).work.arrayBusy 5 = false ∧
    ((withArr ready 5 inService).work.arr 5).state ≠ 0 ∧ (withObj (withArr ready 5 inService) Obj.poweredSeconds 86400).work.atBoundary = true ∧
    ((withArr ready 5 inService).work.arr 5).lastForward + 86400 ≤ (withObj (withArr ready 5 inService) Obj.poweredSeconds 86400).val Obj.poweredSeconds :=
  by decide +kernel

/-! ## Statements of 03, 04, 06 -/

/-- A job waits where two runs hold both banks. -/
def banksFull : State := withEngine ready { Engine.reset with queue := [job], runs := [run [facetPart], { run [facetPart] with tag := 8 }] }
def engineStopped : State := withIslands jobWaits [(0, .stopped)]

theorem wit_mvms : engineExists ready.ident 0 = true ∧ jobWaits.work.islandOpen 0 = true ∧ (jobWaits.work.engine 0).queue = job :: [] ∧
    (jobWaits.work.engine 0).runs = [] ∧ (jobWaits.work.engine 0).mayStart job = true ∧ (banksFull.work.engine 0).queue = job :: [] ∧
    (∀ r ∈ (banksFull.work.engine 0).runs, r.tag ≠ banksFull.dev.nextTag) ∧ (banksFull.work.engine 0).mayStart job = false ∧
    engineStopped.work.islandOpen 0 = false := by decide +kernel

theorem wit_epilogues : (runDone.work.engine 0).runs = run [{ facetPart with hiDone := true }] :: [] ∧ runDone.work.islandOpen 0 = true ∧
    runDone.work.epilogueReady 0 (run [{ facetPart with hiDone := true }]) = true ∧ (phaseRuns.work.engine 0).runs = run [facetPart] :: [] ∧
    phaseRuns.work.epilogueReady 0 (run [facetPart]) = false := by decide +kernel

theorem noScratch_of {s : State} (h : s.work.tuning = false) (e : ∀ x ∈ s.dev.slots, x.section 0x03 = []) : noScratch s := by
  intro n k b hb
  have hs : (s.work.slot n).section 0x03 = [] := by
    simp only [Work.slot, List.getD_eq_getElem?_getD]
    cases hx : s.work.slots[n]? with
    | none => rfl
    | some x => exact e x (List.mem_of_getElem? hx)
  have hp : (s.work.stepProgram n).buffers = [] := by simp [Work.stepProgram, h, Work.program, hs, programOf, leAt, slice, ofLE]
  simp [Work.buffer, hp] at hb

theorem wit_noScratch : noScratch runDone ∧ noScratch stepping ∧ noScratch worker ∧ noScratch managing := by
  refine ⟨noScratch_of ?_ ?_, noScratch_of ?_ ?_, noScratch_of ?_ ?_, noScratch_of ?_ ?_⟩ <;> decide +kernel

theorem wit_windows : engineExists phaseRuns.ident 0 = true ∧ look [] (phaseRuns.work.engine 0).phases 0 = ⟨7, 0, 0, [(0, 1)]⟩ :: [] ∧
    phaseRuns.work.runOf 0 7 = some (run [facetPart]) ∧ (run [facetPart]).facetRun 0 = some facetPart ∧ phaseRuns.work.islandOpen 0 = true ∧
    (run [facetPart]).nav = false ∧ ((convertedWindow flagged).codes.any (fun c => c.sat && decide (c.pair < facetOut job.transposed))) = true ∧
    ((convertedWindow clear).codes.any (fun c => c.sat)) = false := by decide +kernel

/-- A flagged phase leaves its two halves in its place. -/
theorem test_split_replay : look [] ((after (.phaseWindowEnd flagged) phaseRuns).work.engine 0).phases 0 = [⟨7, 0, 1, [(0, 1)]⟩, ⟨7, 0, 2, []⟩] := by
  decide +kernel

theorem wit_golden : (readingGolden.work.engine 0).reading.find? (fun q => q.facet = 0 && q.pair = 3) = some recompute ∧
    (goldenHere.work.engine 0).arrived = recompute :: [] ∧ readingGolden.work.islandOpen 0 = true ∧ goldenHere.work.islandOpen 0 = true ∧
    engineExists goldenHere.ident 0 = true := by decide +kernel

theorem wit_mayStart : MayStart ready ctx ∧ MayStart stepping ctx ∧ sramGood ctx ∧ (∀ b, ready.work.buffer 0 1 = some b → b.kind ≠ 2) := by
  refine ⟨⟨?_, rfl⟩, ⟨?_, rfl⟩, ?_, ?_⟩
  · decide +kernel
  · decide +kernel
  · unfold sramGood; decide
  · intro b e
    have h : ready.work.buffer 0 1 = none := by decide +kernel
    rw [h] at e
    cases e

theorem wit_local : localOp ctx (.act ctx ⟨1, 2, 6, 0⟩) ∧ localOp ctx (.embed ctx ⟨100, 6⟩) ∧ localOp ctx (.norm ctx ⟨1, 0, 6, 0xFF⟩) :=
  ⟨.inl (.inl ⟨_, rfl⟩), .inr (.inl (.inl ⟨_, rfl⟩)), .inr (.inr (.inr (.inr ⟨_, rfl, rfl⟩)))⟩

/-- An op reads buffer 0, of every micro-batch, at a depth of one. -/
def depthOne : List Byte :=
  toLE 4 1 ++ toLE 2 1 ++ toLE 1 1 ++ List.replicate 25 0 ++ ([1, 0, 1, 0] ++ List.replicate 12 0) ++ List.replicate 16 0 ++ (toLE 1 0x20 ++ List.replicate 31 0)

def depthCtx : OpCtx := { ctx with seq := 5, m := 1, dst := 0 }

theorem wit_waits : (withStep ready { StepState.reset with issued := [instOf ctx] }).work.mayIssue ctx = false ∧
    (withSections ready [(3, twoOps)]).work.orderReady { ctx with seq := 1, dst := 2, src0 := 1 } = false ∧
    (withSections stepping [(3, depthOne)]).work.opReady depthCtx = true ∧ (withSections stepping [(3, depthOne)]).work.depthReady depthCtx = false ∧
    instOf depthCtx ∉ (withSections stepping [(3, depthOne)]).dev.step.stalled ∧ managing.dev.serve.plan ≠ none := by decide +kernel

theorem wit_cim : MayStart stepping ctx ∧ cimArgs.deltas = false ∧ (withSections stepping [(0x10, placementBytes)]).work.deltasPresent ctx
    ((withSections stepping [(0x10, placementBytes)]).work.sliceCores 0 0) = false ∧ stepping.work.deltasPresent ctx (stepping.work.sliceCores 0 0) = true := by
  refine ⟨wit_mayStart.2.1, rfl, ?_, ?_⟩ <;> decide +kernel

theorem wit_fetch : goodCore stepping.ident 0 = true := by decide +kernel

theorem wit_collectives : worker.val Obj.groupState = 2 ∧ worker.val Obj.role = 3 ∧ managing.val Obj.groupState = 2 ∧ managing.val Obj.role = 1 ∧
    managing.dev.serve.plan = some stepPlan ∧ stepPlan.head.step = collPart.step := by
  decide +kernel

theorem wit_barriers : stepping.work.barrierReady ctx 1 = true ∧ MayStart stepping ctx ∧
    (withSections stepping [(3, oneOp 0x20)]).work.barrierReady { ctx with seq := 1 } 1 = false ∧
    (let s := withStep worker { StepState.reset with barriers := [⟨1, 2, [], false, [ctx]⟩] }; s.val Obj.groupState = 2 ∧ (s.work.barrierRun 2 1).waiting = ctx :: []) ∧
    stepping.val Obj.groupState = 2 ∧ stepping.val Obj.role = 3 ∧ (stepping.work.barrierRun 2 1).waiting = [] := by
  refine ⟨?_, wit_mayStart.2.1, ?_, ?_, ?_, ?_, ?_⟩ <;> decide +kernel

/-- The manager plans a step with a masked lane; a worker's die of the slot has the vocabulary's first eight tokens, and candidates are missing. -/
def headProgram : List Byte := toLE 4 1 ++ toLE 2 0 ++ List.replicate 26 0 ++ (toLE 1 0x52 ++ List.replicate 17 0 ++ toLE 4 8 ++ List.replicate 10 0)

def masking : State :=
  withSections (withServe managing (fun x => { x with
    held := [{ holder 0 with program := headProgram }, holder 1]
    plan := some { stepPlan with lanes := [{ lanePlan with lane := { lane1 with kind := 16 } }] } }))
    [(5, toLE 4 1 ++ List.replicate 12 0 ++ toLE 32 3)]

theorem wit_manager_ops : managing.dev.serve.plan = some stepPlan ∧ managing.work.candsIn 0 = true ∧ managing.val (Obj.slotState 1) ≠ 3 ∧
    ready.dev.serve.plan = none := by decide +kernel

theorem wit_manager_may : MayStart managing ctx ∧ MayStart masking ctx := by
  refine ⟨⟨?_, rfl⟩, ⟨?_, rfl⟩⟩ <;> decide +kernel

theorem wit_masks : { holder 0 with program := headProgram } ∈ masking.work.holders 0 ∧
    (dieSetMembers ((masking.work.slot ctx.slot).section 0x05) 0).contains 0 = true ∧ (programOf headProgram).headRange = some (0, 8) ∧
    (masking.work.maskRows.filter (fun r => r.slot = 0)).length = 1 := by decide +kernel

/-- What a GATHER TO_MANAGER of the slot's main program sends has not come. -/
def gatherProgram : List Byte :=
  toLE 4 1 ++ toLE 2 0 ++ List.replicate 26 0 ++ (toLE 1 0x11 ++ List.replicate 13 0 ++ [0xFF, 1] ++ List.replicate 16 0)

theorem wit_sample_waits :
    (withServe managing (fun x => { x with held := [{ holder 0 with program := gatherProgram }, holder 1] })).work.candsIn 0 = false := by decide +kernel

theorem wit_stepEnd : stepping.dev.step.running = some (stepHead1, body1) ∧ stepping.dev.step.ended = false ∧ stepping.work.stepComplete = true ∧
    (withSections stepping [(3, oneOp 0x20)]).dev.step.running = some (stepHead1, body1) ∧
    (withSections stepping [(3, oneOp 0x20)]).work.stepComplete = false := by decide +kernel

/-! ## Statements of 08 -/

/-- LOAD_START with the request at slot 1: in the state itself, with the slot READY, and with a device-fatal fault. -/
def slotTaken : State := withObj loadRequested (Obj.slotState 1) 3
def loadFaulted : State := { loadRequested with dev := { loadRequested.dev with rel := { loadRequested.dev.rel with deviceFault := some 0x20 } } }

theorem wit_load_start : loadRequested.startsAt (req hostA 0 0 [0]) Obj.loadStart 0 ∧ loadRequested.dev.rel.deviceFault = none ∧
    loadRequested.domBytes Obj.loadRequest = loadBytes ∧ loadBytes ≠ [] ∧ leAt loadBytes 0 1 = 1 ∧
    loadRequested.work.modeAllowed (loadRunOf loadBytes (loadRequested.val (Obj.slotState 1)) 0) = true ∧
    (loadRunOf loadBytes 0 0).mode = 0 ∧ (loadRunOf loadBytes 0 0).source = 0 := by
  refine ⟨State.startsAt_of ?_, ?_, ?_, ?_, ?_, ?_, ?_, ?_⟩ <;> decide +kernel

theorem wit_load_refused : ready.startsAt (req hostA 0 0 [0]) Obj.loadStart 0 ∧ ready.domBytes Obj.loadRequest = [] ∧ ready.dev.rel.deviceFault = none ∧
    slotTaken.startsAt (req hostA 0 0 [0]) Obj.loadStart 0 ∧ slotTaken.dev.rel.deviceFault = none ∧ slotTaken.domBytes Obj.loadRequest ≠ [] ∧
    slotTaken.work.modeAllowed (loadRunOf (slotTaken.domBytes Obj.loadRequest) (slotTaken.val (Obj.slotState 1)) slotTaken.dev.now) = false ∧
    loadFaulted.startsAt (req hostA 0 0 [0]) Obj.loadStart 0 ∧ loadFaulted.dev.rel.deviceFault ≠ none := by
  refine ⟨State.startsAt_of ?_, ?_, ?_, State.startsAt_of ?_, ?_, ?_, ?_, State.startsAt_of ?_, ?_⟩ <;> decide +kernel

/-- The section's digest stands in the manifest, whatever SHA-512 makes of it. -/
theorem wit_load_digest : (let l := loading 0 [2, 0x10] 0; let s := withLoad ready l
    sectionDigestOk (sectionTable (s.work.loadOr l 0) (s.work.loadOr l 0xFF)) (s.work.loadOr l 1) 2 0 sectionBytes = true) := by
  have h1 : sectionTable ((withLoad ready (loading 0 [2, 0x10] 0)).work.loadOr (loading 0 [2, 0x10] 0) 0)
      ((withLoad ready (loading 0 [2, 0x10] 0)).work.loadOr (loading 0 [2, 0x10] 0) 0xFF) = [secEntryOf loadTable] := by decide +kernel
  have h2 : (withLoad ready (loading 0 [2, 0x10] 0)).work.loadOr (loading 0 [2, 0x10] 0) 1 = loadManifest := rfl
  have h3 : slice loadManifest 64 64 = Config.sha512 sectionBytes := by
    simp [slice, loadManifest, Config.sha512]
  have h4 : [secEntryOf loadTable].zipIdx.find? (fun p => p.1.ty = 2 && (p.1.die = 0xFFFF || p.1.die = 0)) = some (secEntryOf loadTable, 0) := by
    decide +kernel
  have h5 : (secEntryOf loadTable).length = sectionBytes.length := by decide +kernel
  simp only [sectionDigestOk, h1, h2, h4, h5, Nat.mul_zero, Nat.add_zero, h3]
  simp

theorem wit_load_parts : (withLoad ready (loading 0 [2, 0x10] 0)).dev.res.load = some (loading 0 [2, 0x10] 0) ∧ (loading 0 [2, 0x10] 0).stopping = none ∧
    (loading 0 [2, 0x10] 0).todo.head? = some 2 ∧ (loading 0 [2, 0x10] 0).source = 0 ∧ (loading 0 [2, 0x10] 0).mode = 0 ∧
    (2 : Nat) ∉ [0, 1, 0x11, 0x14, 0x7F, 0xFF] ∧ (loading 0 [2, 0x10] 0).todo.drop 1 ≠ [] ∧ (loading 1 [2, 0x10] 2).stopping = none ∧
    (loading 1 [2, 0x10] 2).todo.head? = some 2 ∧ (loading 1 [2, 0x10] 2).source = 1 ∧ (loading 1 [2, 0x10] 2).link = 5 ∧ (loading 1 [2, 0x10] 2).mode = 2 ∧
    (∀ q ∈ (loading 1 [2, 0x10] 2).arrays, q.2 ∉ ready.dev.programming) := by
  refine ⟨rfl, ?_⟩
  decide +kernel

/-- A reattach of slot 0, whose facet 3 reads back, with DIGESTS of core 0. -/
def reattaching (golden : Bool) : LoadRun :=
  { loading 0 [] 1 with readback := true, withGolden := golden, got := [(0x16, toLE 8 0 ++ digest64)] }

def readsBack (golden : Bool) : State := withLoad (withArr ready 3 inService) (reattaching golden)

theorem wit_readback : (reattaching false).readback = true ∧ (reattaching false).stopping = none ∧ (reattaching false).mode = 1 ∧ (reattaching false).slot < 4 ∧
    (reattaching false).todo = [] ∧ (reattaching false).arrays = [] ∧ (readsBack false).work.slotArrays 0 = [(3, 3)] ∧
    digestOf ((reattaching false).part 0x16) (facetCore 3) = some ((readsBack false).work.groupRead 0 [(0, digest64)] (facetCore 3)) ∧
    digestOf ((reattaching false).part 0x16) (facetCore 3) ≠ some ((readsBack false).work.groupRead 0 [(0, List.replicate 64 1)] (facetCore 3)) ∧
    (reattaching false).withGolden = false ∧ (reattaching true).withGolden = true ∧ (reattaching true).verified = [] ∧
    (readsBack true).work.slotArrays 0 = [(3, 3)] ∧ (readsBack true).work.wornOut 3 = false ∧ (loading 0 [] 1).readback = false := by decide +kernel

/-- The load of facet 3 with facet 4 of its core still to come. -/
def twoFacets : LoadRun := { facetLoad with arrays := [(3, 3), (4, 4)] }

theorem wit_program : programming.dev.res.load = some facetLoad ∧ facetLoad.stopping = none ∧ facetLoad.source = 2 ∧ facetLoad.facetFor 3 = some 3 ∧
    programming.dev.res.shadows = [] ∧ programming.work.deepening = false ∧ 3 ∉ programming.dev.programming ∧ programming.work.startBar 3 = 0 ∧
    programming.work.wornOut 3 = false ∧ chkAgree (programming.work.loadRecord facetLoad 3) (programming.work.arr 3).image = true ∧
    (withDomain programming { ThermDomain.reset with skip := 1 }).work.startBar 3 = 2 ∧ (withObj programming Obj.powerCapW 0).work.startBar 3 = 3 ∧
    (3, 2) ∉ programming.dev.res.delayed ∧ (3, 3) ∉ programming.dev.res.delayed := by decide +kernel

/-- The facet's checksum levels are not those of its golden record. -/
theorem wit_program_refused : (let s := withLoad (withArr ready 3 { inService with state := 1, image := [1] }) facetLoad
    s.work.startBar 3 = 0 ∧ s.work.wornOut 3 = false ∧ chkAgree (s.work.loadRecord facetLoad 3) (s.work.arr 3).image = false ∧
      ∀ q ∈ facetLoad.arrays, q.2 ∉ s.dev.programming) := by decide +kernel

/-- Facet 3 is being programmed at its first attempt. -/
def programmed : State :=
  { programming with dev := { programming.dev with
      programming := [3], res := { programming.dev.res with load := some twoFacets, attempts := [(3, 1)] } } }

/-- Whether a result is good. -/
def good (s : State) (x : ProgramResult) : Bool := x.rowsOk && { (s.work.arr x.array).cells with written := true, off := x.off }.matchesGolden

theorem wit_programmed : arrayExists programResult.array = true ∧ programResult.array ∈ programmed.dev.programming ∧
    look 1 programmed.dev.res.attempts 3 = 1 ∧ good programmed programResult = false ∧ programmed.work.wornOut 3 = false ∧
    programResult.array ∉ programming.dev.programming ∧ good programmed { programResult with rowsOk := true } = true ∧ programmed.dev.res.shadows = [] ∧
    programmed.dev.res.load = some twoFacets ∧ twoFacets.stopping = none ∧ twoFacets.facetFor 3 = some 3 ∧
    (∃ p ∈ twoFacets.groupOf (facetCore 3), p.1 ≠ 3 ∧ p.1 ∉ twoFacets.verified) := by decide +kernel

/-- A suspect facet without a spare that may be refreshed in place. -/
def inPlaceReady (s : State) : Bool :=
  s.work.inPlaceDue 3 && decide (s.work.serving 3 ∉ s.dev.programming) && !s.work.wornOut (s.work.serving 3) && s.work.chkStands 3 && !s.work.deepening &&
    decide (s.val Obj.inPlaceEnable ≠ 0) && decide (pauseUs 1 ≤ 1000 * s.val Obj.pauseLimitMs)

theorem wit_inPlace : (let s := withObjs suspectFacet [(Obj.inPlaceEnable, 1), (Obj.role, 3), (Obj.groupState, 2)]
    inPlaceReady s = true ∧ s.work.formed = true ∧ (s.work.arr 3).slot ∉ s.dev.res.paused ∧ (s.work.arr 3).slot ∉ s.dev.res.pauseAsked) ∧
    inPlaceReady (withObj suspectFacet Obj.inPlaceEnable 1) = true ∧ (withObj suspectFacet Obj.inPlaceEnable 1).work.formed = false := by decide +kernel

theorem wit_release : (withObj ready (Obj.slotState 1) 5).startsAt (req hostA 0 0 [1]) Obj.slotRelease 1 ∧
    (withObj ready (Obj.slotState 1) 5).val (Obj.slotState 1) = 5 ∧ ready.startsAt (req hostA 0 0 [1]) Obj.slotRelease 1 ∧
    ready.val (Obj.slotState 1) = 0 := by
  refine ⟨State.startsAt_of ?_, ?_, State.startsAt_of ?_, ?_⟩ <;> decide +kernel

theorem wit_replace : ready.startsAt (req hostA 0 0 [0, 1, 0, 0]) Obj.replaceSlot 0x100 ∧ ready.dev.rel.deviceFault = none ∧ ready.val Obj.role ≠ 1 ∧
    managing.startsAt (req hostA 0 0 [0, 1, 0, 0]) Obj.replaceSlot 0x100 ∧ managing.dev.rel.deviceFault = none ∧ managing.val Obj.role = 1 ∧
    managing.dev.serve.plan ≠ none ∧ managing.work.drainOf (field 0x100 1 0) = none ∧
    (∃ h ∈ managing.dev.serve.held, h.slot = field 0x100 1 0 ∧ h.state = 3) ∧
    ∀ h ∈ managing.dev.serve.held, h.slot = field 0x100 1 0 → h.state = 0 ∨ h.state = 3 ∨ h.state = 6 := by
  refine ⟨State.startsAt_of ?_, ?_, ?_, State.startsAt_of ?_, ?_, ?_, ?_, ?_, ?_, ?_⟩ <;> decide +kernel

theorem wit_residency : (withArr ready 5 inService).startsAt (req hostA 0 0 [5, 0]) Obj.refreshFacet 5 ∧
    ((withArr ready 5 inService).work.arr 5).queued = 0 ∧ ready.startsAt (req hostA 0 0 [5, 0]) Obj.trimRead 5 ∧
    ready.startsAt (req hostA 0 0 [4]) Obj.layerCountsClear 4 := by
  refine ⟨State.startsAt_of ?_, ?_, State.startsAt_of ?_, State.startsAt_of ?_⟩ <;> decide +kernel

/-! ## Statements of 09 to 11 -/

theorem wit_announced : ringSized.work.tenantExists 3 = true ∧ ringSized.val (Obj.ringEnable 3) = 0 ∧ ringSized.val (Obj.intakeEntries 3) ≠ 0 ∧
    ringSized.val Obj.powerState < 3 := by decide +kernel

theorem wit_consumes : Consumes (ringsOn managing) 3 (descBytes 1 0) ∧ Consumes (ringsOn ready) 3 (descBytes 1 0) ∧
    Consumes (ringsOn managing) 3 (descBytes 2 entry.handle) := by
  refine ⟨?_, ?_, ?_⟩ <;> constructor <;> decide +kernel

theorem wit_submit : (ringsOn managing).val Obj.role = 1 ∧ leAt (descBytes 1 0) 0 1 = 1 ∧ descWindow (descBytes 1 0) = false ∧
    (ringsOn managing).work.freeIndexOf = some 0 ∧
    ((ringsOn managing).dev.serve.entries.filter (fun e => e.tenant = 3)).length < (ringsOn managing).val (Obj.tenantRequestCap 3) ∧
    (ringsOn ready).val Obj.role ≠ 1 := by decide +kernel

theorem wit_cancel : (let b := descBytes 2 entry.handle
    leAt b 0 1 = 2 ∧ (slice b 1 3).all (· = 0) = true ∧ (slice b 16 104).all (· = 0) = true ∧
    (ringsOn managing).work.byHandle (leAt b 4 4) = some entry) ∧ entry.tenant = 3 ∧ entry.terminal = false ∧
    (ringsOn managing).val Obj.role = 1 ∧ (ringsOn managing).dev.serve.plan ≠ none := by decide +kernel

/-- The request's prompt is being fetched. -/
def fetching : State := withServe managing (fun x => { x with entries := [{ entry with state := 1 }] })

theorem wit_prompt : managing.work.entry 4 = some entry ∧ entry.state ≠ 1 ∧ fetching.work.entry 4 = some { entry with state := 1 } ∧
    fetching.val Obj.role = 1 ∧ fetching.dev.serve.plan ≠ none ∧ (fetching.work.ring 3).waiting = [] := by decide +kernel

/-- A complete result waits for its commit: of a step without lanes, of one whose lane put out a token, and of one with a prefill record. -/
def committingEmpty : State := alone (fun x => { x with plan := some { stepPlan with lanes := [], result := some stepResult1 } })

def committingLane (q : LanePlan) (x : LaneResult) : State :=
  alone (fun v => { v with entries := [entry], plan := some { stepPlan with lanes := [q], result := some { stepResult1 with lanes := [x] } } })

def prefillPlan : LanePlan := { lanePlan with lane := { lane1 with kind := 1, pos := 2, count := 2 }, out := [] }
def goodLane : LaneResult := ⟨0, false, false, 1, 0, 0⟩
def badLane : LaneResult := { goodLane with poison := true }

theorem wit_commit_quiet : QuietManager committingEmpty ∧ committingEmpty.dev.serve.plan = some { stepPlan with lanes := [], result := some stepResult1 } ∧
    stepPlan.job = none := by
  refine ⟨⟨?_, ?_, ?_, ?_, ?_, ?_⟩, ?_, ?_⟩ <;> decide +kernel

/-- What a commit meets of a request's lane. -/
def onlyLane (q : LanePlan) (x : LaneResult) : Prop :=
  onlyEntry (committingLane q x) entry ∧ outlasts (committingLane q x) 100 entry ∧
    judged { stepPlan with lanes := [q], result := some { stepResult1 with lanes := [x] } } { stepResult1 with lanes := [x] } entry q x

theorem only_lane (q : LanePlan) (x : LaneResult) (h1 : q.entry = 4) (h2 : q.generation = 1) : onlyLane q x := by
  refine ⟨⟨.head _, ?_⟩, ⟨nofun, nofun⟩, .head _, rfl, ?_, h1, h2, rfl⟩
  · intro y hy _
    exact List.mem_singleton.mp hy
  · exact List.nodup_singleton _

theorem wit_commit_lane : onlyLane lanePlan goodLane ∧ onlyLane prefillPlan goodLane ∧ onlyLane lanePlan badLane ∧ goodLane.numeric = 0 ∧ lanePlan.stop = 0 ∧
    lanePlan.lane.code = 0 ∧ lanePlan.out.length = lanePlan.accepted + 1 ∧ prefillPlan.lane.code = 1 ∧ badLane.poison = true ∧ lanePlan.poison = false := by
  refine ⟨only_lane _ _ rfl rfl, only_lane _ _ rfl rfl, only_lane _ _ rfl rfl, ?_⟩
  decide +kernel

/-- A decode step advances its request by what was accepted and one. -/
theorem test_commit : (after (.commit 100) (committingLane lanePlan goodLane)).dev.serve.entries.map (·.committed) = [13] := by decide +kernel

def holding : State := alone (fun x => { x with entries := [{ entry with holdAsked := true }] })
def draining : State := alone (fun x => { x with entries := [entry], drains := [drain1] })

theorem wit_hold : holding.val Obj.role = 1 ∧ holding.dev.serve.plan = none ∧ holding.work.atBoundary = true ∧ onlyEntry holding { entry with holdAsked := true } ∧
    outlasts holding 100 { entry with holdAsked := true } ∧ 2 ≤ entry.state ∧ entry.state ≤ 4 := by
  unfold onlyEntry outlasts
  decide +kernel

theorem wit_drain : draining.val Obj.role = 1 ∧ draining.dev.serve.plan = none ∧ draining.dev.serve.drains = [drain1] ∧ drain1.complete = false ∧
    drain1.slot < 4 ∧ drain1.deadlineUs ≤ 1000 ∧ entry.live = true ∧ entry.hard = false ∧ entry.slot = drain1.slot ∧ managing.dev.serve.plan ≠ none ∧
    stepping.work.atBoundary = false := by decide +kernel

theorem wit_request_commands : managing.startsAt (for3 4 entry.handle) (Obj.requestCancel 3) entry.handle ∧
    managing.startsAt (for3 4 entry.handle) (Obj.requestHold 3) entry.handle ∧ managing.work.byHandle entry.handle = some entry ∧ entry.tenant = 3 ∧
    managing.dev.rel.deviceFault = none ∧ managing.val Obj.role = 1 ∧ managing.dev.serve.plan ≠ none ∧ (managing.work.ring 3).waiting = [] ∧
    managing.startsAt (for3 4 99) (Obj.requestHold 3) 99 ∧ managing.work.byHandle 99 = none ∧
    ready.startsAt (for3 4 99) (Obj.requestHold 3) 99 ∧ ready.dev.rel.deviceFault = none ∧ ready.val Obj.role ≠ 1 := by
  refine ⟨State.startsAt_of ?_, State.startsAt_of ?_, ?_, ?_, ?_, ?_, ?_, ?_, State.startsAt_of ?_, ?_, State.startsAt_of ?_, ?_, ?_⟩ <;> decide +kernel

def heldEntry : State := withServe managing (fun x => { x with entries := [{ entry with state := 5, hold := 1 }] })
def retainedEntry : State := withServe managing (fun x => { x with entries := [{ entry with state := 7, retain := true }] })

theorem wit_request_commands' : heldEntry.startsAt (for3 4 entry.handle) (Obj.requestResume 3) entry.handle ∧
    heldEntry.work.byHandle entry.handle = some { entry with state := 5, hold := 1 } ∧ heldEntry.dev.serve.plan ≠ none ∧
    retainedEntry.startsAt (for3 4 entry.handle) (Obj.requestRelease 3) entry.handle ∧
    retainedEntry.work.byHandle entry.handle = some { entry with state := 7, retain := true } ∧ retainedEntry.dev.serve.plan ≠ none := by
  refine ⟨State.startsAt_of ?_, ?_, ?_, State.startsAt_of ?_, ?_, ?_⟩ <;> decide +kernel

def withGrammar : State := withServe serving (fun x => { x with grammars := [⟨1, 3, 9, true, false, [1]⟩, ⟨2, 0xFFFF, 8, true, false, [1]⟩] })

/-- A request that the unloading of its variant leaves on the version it has. -/
def freezing : State := withServe tuning (fun x => { x with entries := [{ entry with variant := 6 }] })

theorem wit_variant_commands : freezing.startsAt (for3 2 6) (Obj.variantUnload 3) 6 ∧ freezing.dev.rel.deviceFault = none ∧ freezing.val Obj.role = 1 ∧
    freezing.work.loaded (field 6 13 12) (field 6 11 0) = some variant1 ∧ variant1.owner = 3 ∧ freezing.work.currentSet 0 6 = some set1 ∧
    tuning.startsAt (req hostA 0 0 (toLE 4 0x10006)) Obj.variantPin 0x10006 ∧ tuning.work.loaded (field 0x10006 13 12) (field 0x10006 11 0) = some variant1 ∧
    ready.startsAt (for3 2 6) (Obj.variantUnload 3) 6 ∧ ready.val Obj.role ≠ 1 := by
  refine ⟨State.startsAt_of ?_, ?_, ?_, ?_, ?_, ?_, State.startsAt_of ?_, ?_, State.startsAt_of ?_, ?_⟩ <;> decide +kernel

theorem wit_grammar_commands : withGrammar.startsAt (for3 2 9) (Obj.grammarDelete 3) 9 ∧ withGrammar.startsAt (req hostA 0 0 [8, 0]) Obj.globalGrammarDelete 8 ∧
    withGrammar.val Obj.role = 1 ∧ withGrammar.dev.rel.deviceFault = none ∧ (∃ g ∈ withGrammar.dev.serve.grammars, g.installed = true ∧ g.owner = 3 ∧ g.id = 9) ∧
    ∃ g ∈ withGrammar.dev.serve.grammars, g.installed = true ∧ g.owner = 0xFFFF ∧ g.id = 8 := by
  refine ⟨State.startsAt_of ?_, State.startsAt_of ?_, ?_, ?_, ?_, ?_⟩ <;> decide +kernel

theorem wit_variant_load : tuning.startsAt (for3 1 0) (Obj.variantLoad 3) 0 ∧
    (let b := tuning.domBytes (Obj.variantLoadRequest 3); b ≠ [] ∧ leAt b 0 1 % 4 = 0 ∧ leAt b 2 2 = 7 ∧ leAt b 16 8 = 4096 ∧ leAt b 4 4 = 0 ∧
      bitAt (leAt b 1 1) 1 = false) ∧ tuning.val Obj.role = 1 ∧ tuning.work.admission 0 = 0 ∧ tuning.work.loaded 0 7 = none ∧
    tuning.work.jobNames 0 7 = false ∧ tuning.work.tenantCharged 3 + 4096 ≤ tuning.val (Obj.tenantDeltaCap 3) * 2 ^ 20 ∧
    tuning.work.charged + 4096 ≤ tuning.work.reserveBytes ∧ tuning.work.slotSets 0 < 4096 ∧ tuning.work.workers ≠ [] ∧ tuning.val Obj.groupState = 2 := by
  refine ⟨State.startsAt_of ?_, ?_⟩ <;> decide +kernel

theorem wit_tune_start : tuning.startsAt (for3 1 0) (Obj.tuneStart 3) 0 ∧
    (let b := tuning.domBytes (Obj.tuneJob 3); b ≠ [] ∧ leAt b 0 1 % 4 = 0 ∧ leAt b 2 2 = 6 ∧ leAt b 4 4 = 0 ∧ leAt b 24 8 = 16 ∧
      tuning.work.windowSpan 3 (leAt b 16 8) (leAt b 24 8) = some 0x300000000 ∧
      tuning.work.jobRecords 3 (leAt b 16 8) (leAt b 24 8) = some [⟨0, 2, 0, [1, 2]⟩]) ∧ tuning.val Obj.role = 1 ∧ tuning.work.admission 0 = 0 ∧
    tuning.work.loaded 0 6 = some variant1 ∧ variant1.owner = 3 ∧ tuning.work.jobNames 0 6 = false ∧
    (tuning.dev.vars.jobs.filter TuneJob.active).length < 16 ∧ tuning.domBytes (Obj.tuneProgram 0) ≠ [] ∧
    tuning.work.currentSet 0 6 = some set1 ∧ tuning.work.memPoisoned 0x300000000 16 = false ∧ tuning.work.slotVocab 0 = 100 ∧
    tuning.work.estimate tuning.work.tuneCost [tuneItem (programOf (tuning.domBytes (Obj.tuneProgram 0))) 0 set1.handle 2] ≤ tuning.work.targetNs ∧
    tuning.work.tenantCharged 3 + (set1.bytes + 4 * set1.values) ≤ tuning.val (Obj.tenantDeltaCap 3) * 2 ^ 20 ∧
    tuning.work.charged + (set1.bytes + 4 * set1.values) ≤ tuning.work.reserveBytes := by
  refine ⟨State.startsAt_of ?_, ?_⟩ <;> decide +kernel

theorem wit_messages : worker.dev.step.head = none ∧ worker.val Obj.role = 3 ∧ worker.val Obj.groupState = 2 ∧
    bodyMatches stepHead1 worker.dev.step.body = false ∧ stepHead1.epoch = worker.val Obj.groupEpoch ∧ worker.dev.rel.deviceFault = none ∧
    managing.dev.serve.plan = some stepPlan ∧ 2 ∈ managing.work.workers ∧ stepping.val Obj.role = 3 := by decide +kernel

/-- A head of an empty body, whose CRC the body has. -/
def emptyHead : StepHead := { stepHead1 with bodyLength := 0, bodyCrc := crc32 [] }
def headed : State := withStep worker { StepState.reset with head := some emptyHead }

theorem wit_step_start : headed.dev.step.head = some emptyHead ∧ ([] : List Byte).length = emptyHead.bodyLength ∧ crc32 [] = emptyHead.bodyCrc ∧
    headed.dev.step.bodyFails = 0 ∧ headed.val Obj.role = 3 ∧ headed.val Obj.groupState = 2 := by decide +kernel

/-- The manager of a group of one worker, 2; and worker 2 with its own part and one child, 3. -/
def oneWorker : State :=
  let s := withObj managing Obj.workerCount 1
  { s with dev := { s.dev with group := { s.dev.group with membership := some { memberOf 0 1 with children := [2] } } } }

def ownPart : StepResult := { stepResult1 with src := 2, workers := 1 }
def childPart : StepResult := { stepResult1 with src := 3, workers := 1 }

def joining : State :=
  let s := withStep worker { StepState.reset with results := [ownPart] }
  { s with dev := { s.dev with group := { s.dev.group with membership := some { memberOf 2 3 with children := [3] } } } }

theorem wit_result : oneWorker.val Obj.role = 1 ∧ oneWorker.val Obj.groupState = 2 ∧ oneWorker.dev.serve.plan = some stepPlan ∧
    ownPart.step = stepPlan.head.step ∧ stepPlan.parts = [] ∧ oneWorker.work.workingKids = [2] ∧
    oneWorker.work.workingKids.filterMap (fun d => (stepPlan.parts ++ [ownPart]).find? (fun y => y.src = d)) = [ownPart] ∧
    sumNat ([ownPart].map (·.workers)) = oneWorker.val Obj.workerCount ∧
    oneWorker.work.workingKids.filterMap (fun d => (stepPlan.parts ++ [childPart]).find? (fun y => y.src = d)) = [] := by decide +kernel

theorem wit_result_up : joining.val Obj.role = 3 ∧ joining.val Obj.groupState = 2 ∧ joining.dev.step.results = [ownPart] ∧
    ownPart.src = joining.work.ownDevice ∧ childPart.src ≠ ownPart.src ∧ joining.work.workingKids = [childPart.src] := by decide +kernel

/-! ## Statements of 12 -/

/-- Link 5 trains, having known no partner, and having known device 9. -/
def training (serial : Nat) : State := withLink ready { cabled 2 with lastSerial := serial }

theorem wit_training : ((training 0).work.link 5).state = 2 ∧ (training 0).work.islandOpen (0x98 + 5) = true ∧ ((training 0).work.link 5).lastSerial = 0 ∧
    ((training 9).work.link 5).state = 2 ∧ ((training 9).work.link 5).lastSerial ≠ 0 ∧ ((training 9).work.link 5).lastSerial ≠ (identityOf 2).serial ∧
    (training 9).dev.res.load = none ∧ (training 9).work.islandOpen (0x98 + 5) = true ∧ (ready.work.link 5).state ≠ 2 ∧
    (withIslands (training 0) [(0x9D, .stopped)]).work.islandOpen (0x98 + 5) = false ∧ ((withLink ready (cabled 5)).work.link 5).state = 5 ∧
    (carrying.work.link 5).carries = true ∧ (withObj carrying Obj.linkReplayLimit 0).val Obj.linkReplayLimit = 0 := by decide +kernel

/-- Link 5 of a formed worker is ACTIVE, its partner the manager's other neighbour. -/
def activeLink : State := withLink worker { upLink with state := 4 }

def linkReq (v : Byte) : Req := { req hostA 0 0 [v] with sub := 6 }

theorem wit_link_enable : carrying.grantsAt (linkReq 0) (rowOf (Obj.linkEnable 5)) (Obj.linkEnable 5) 0 ∧
    (carrying.work.link 5).state ≠ 4 ∧ carrying.val (Obj.linkEnable 5) = 1 ∧ carrying.dev.res.load = none ∧
    activeLink.grantsAt { linkReq 0 with origin := bmc } (rowOf (Obj.linkEnable 5)) (Obj.linkEnable 5) 0 ∧ (activeLink.work.link 5).state = 4 ∧
    activeLink.val (Obj.linkEnable 5) = 1 := by
  refine ⟨State.grantsAt_of ?_, ?_, ?_, ?_, State.grantsAt_of ?_, ?_, ?_⟩ <;> decide +kernel

theorem wit_link_lost : carrying.dev.res.load = none ∧ (carrying.work.link 5).state = 3 ∧ ((withLink ready { upLink with state := 4 }).work.link 5).state = 4 ∧
    ready.val Obj.groupState ≠ 2 ∧ (withLink ready { upLink with state := 4 }).dev.res.load = none ∧ activeLink.dev.res.load = none ∧
    (activeLink.work.link 5).state = 4 ∧ (activeLink.work.link 5).partner = some (identityOf 3) ∧ activeLink.val Obj.groupState = 2 ∧
    activeLink.val Obj.role = 3 ∧ activeLink.work.idOfSerial (identityOf 3).serial ≠ 1 ∧
    (∀ m, m < 4 → (worker.work.link (4 * (3 - 2) + m)).state ≠ 4) ∧ worker.dev.res.load = none := by decide +kernel

theorem wit_flits : carrying.work.link 5 = upLink ∧ upLink.carries = true ∧ carrying.work.islandOpen (0x98 + 5) = true ∧
    goodFlit.seq % 1024 = upLink.expect ∧ upLink.nakSent = false ∧ upLink.waiting = [] ∧ (∀ p ∈ upLink.unacked, p.2 < 7) ∧ badFlit.crcOk = false ∧
    goodFlit.crcOk = true ∧ { goodFlit with seq := 4 }.seq % 1024 ≠ upLink.expect ∧ (ready.work.link 5).carries = false ∧
    (withIslands carrying [(0x9D, .gated)]).work.islandOpen (0x98 + 5) = false := by decide +kernel

/-- NAK 0 acknowledges flit 0 and asks for flit 1 again. -/
theorem test_nak : ((after (.nak 5 0) carrying).work.link 5).unacked = [(1, 1)] := by decide +kernel

/-- A flit that returns 3 credits of lane 1. -/
theorem test_credits : ((after (.nullFlit 5 goodFlit) carrying).work.link 5).credits = [16, 195, 256, 32] := by decide +kernel

/-- A worker with the child 4, and the manager of a group of one worker that waits for it. -/
def branch : State := withGroup worker (fun g => { g with membership := some { memberOf 2 3 with children := [4] } })
def beatingOne : State := withGroup (withObj beating Obj.workerCount 1) (fun g => { g with membership := some { memberOf 0 1 with children := [2] } })

theorem wit_beat : manager.val Obj.role = 1 ∧ manager.val Obj.groupState = 2 ∧ leaf.val Obj.role = 3 ∧ leaf.val Obj.groupState = 2 ∧ leaf.work.workingKids = [] ∧
    branch.work.treeChildren = [4] ∧ branch.work.workingKids ≠ [] ∧ branch.val Obj.groupState = 2 ∧ branch.val Obj.role ≠ 1 ∧ ready.val Obj.role ≠ 1 := by
  decide +kernel

theorem wit_beat_answers : beatingOne.dev.group.heartbeatOut = true ∧ beatingOne.val Obj.role = 1 ∧ beatingOne.val Obj.groupState = 2 ∧
    beatingOne.work.workingKids = [2] ∧ sumNat ((put beatingOne.dev.group.acks 2 1).map (·.2)) = beatingOne.val Obj.workerCount ∧
    (∃ p ∈ put beatingOne.dev.group.acks 2 1, p.1 = 2) ∧ sumNat ((put beating.dev.group.acks 3 1).map (·.2)) ≠ beating.val Obj.workerCount := by decide +kernel

theorem wit_timeout : beating.val Obj.role = 1 ∧ beating.val Obj.groupState = 2 ∧ beating.dev.group.heartbeatOut = true ∧ beating.val Obj.autoReform = 0 ∧
    managing.val Obj.role = 1 ∧ managing.val Obj.groupState = 2 ∧ managing.dev.serve.plan = some stepPlan ∧ stepPlan.result = none := by decide +kernel

theorem wit_notice : worker.val Obj.role ≠ 1 ∧ worker.val Obj.groupState = 2 ∧ stepNotice.epoch = worker.val Obj.groupEpoch ∧ stepNotice.cause ≠ 9 ∧
    { stepNotice with cause := 9 }.epoch = manager.val Obj.groupEpoch ∧ manager.val Obj.groupState = 2 ∧ stepNotice.epoch ≠ ready.val Obj.groupEpoch ∧
    ready.val Obj.groupState ≠ 2 ∧ ready.val Obj.groupEpoch < (memberOf 2 3).epoch ∧ (memberOf 2 3).epoch ≤ worker.val Obj.groupEpoch := by decide +kernel

/-- A device that has answered the probe of epoch 4 from link 6. -/
def probed : State := withGroup ready (fun g => { g with probed := some (4, 6) })

theorem wit_probe : ready.dev.group.probed = none ∧ ready.dev.group.forming = none ∧ probed.dev.group.probed = some (4, 6) ∧ probed.dev.group.forming = none ∧
    (6 : Nat) ≠ 5 := by decide

/-- A formation that has heard from nobody, and a reply that names a device not heard from. -/
def waiting : State := withGroup (probing ready) (fun g => { g with forming := some ⟨0, [], false, true, 0⟩ })
def namingReply : Identity := { identityOf 2 with partners := [(1, 109, 2)] }

theorem wit_reply : waiting.dev.group.forming = some ⟨0, [], false, true, 0⟩ ∧ namingReply.serial ≠ waiting.ident.serial ∧
    ((1, 109, 2) : Nat × Nat × Nat) ∈ namingReply.partners ∧ 109 ≠ waiting.ident.serial ∧ 109 ≠ namingReply.serial := by decide +kernel

theorem wit_form : (probing ready).startsAt (req hostA 0 0 [0]) Obj.groupForm 0 ∧ (probing ready).work.formRefusal = none ∧ awaitsReply (probing ready) ∧
    manager.startsAt (req hostA 0 0 [0]) Obj.groupForm 0 ∧ manager.work.formRefusal = some 0x88 := by
  refine ⟨State.startsAt_of ?_, ?_, ⟨(5, 103, 0), ?_, ?_⟩, State.startsAt_of ?_, ?_⟩ <;> decide +kernel

/-- A device that no link joins to another. -/
theorem wit_form_alone : ready.startsAt (req hostA 0 0 [0]) Obj.groupForm 0 ∧ ready.work.formRefusal = none ∧ (ready.work.identity 0).partners = [] ∧
    ready.domBytes Obj.groupPlan = [] := by
  refine ⟨State.startsAt_of ?_, ?_, ?_, ?_⟩ <;> decide +kernel

theorem wit_dissolve : ready.startsAt (req hostA 0 0 [0]) Obj.groupDissolve 0 ∧ ready.val Obj.role ≠ 1 ∧
    (alone id).startsAt (req hostA 0 0 [0]) Obj.groupDissolve 0 ∧ (alone id).val Obj.role = 1 ∧ (alone id).val Obj.groupState ≠ 2 ∧
    manager.startsAt (req hostA 0 0 [0]) Obj.groupDissolve 0 ∧ manager.val Obj.role = 1 ∧ manager.val Obj.groupState = 2 ∧
    ready.startsAt (req hostA 0 0 [0]) Obj.mirrorRelease 0 := by
  refine ⟨State.startsAt_of ?_, ?_, State.startsAt_of ?_, ?_, ?_, State.startsAt_of ?_, ?_, ?_, State.startsAt_of ?_⟩ <;> decide +kernel

/-- A standby whose group has failed. -/
def failedStandby : State := withObjs (probing standbyDev) [(Obj.groupState, 3), (Obj.takeoverEnable, 1)]

theorem wit_takeover : failedStandby.val Obj.role = 2 ∧ 2 ≤ failedStandby.val Obj.groupState ∧ failedStandby.val Obj.takeoverEnable = 1 ∧
    awaitsReply failedStandby ∧ ready.val Obj.role ≠ 2 := by
  refine ⟨?_, ?_, ?_, ⟨(5, 103, 0), ?_, ?_⟩, ?_⟩ <;> decide +kernel

/-- A READ for worker 2 arrives there. -/
def relayed : Req := { req ⟨.fabric, 0⟩ 0x5000 4 [] with target := 2 }

theorem wit_relay : worker.takes 1 relayed ∧ relayed = { relayed with origin := ⟨.fabric, 0⟩ } ∧
    worker.work.lookup relayed = some (rowOf Obj.edgeShareLimit, Obj.edgeShareLimit) ∧ (rowOf Obj.edgeShareLimit).access ≠ .wo ∧
    (rowOf Obj.edgeShareLimit).ty ≠ .domain ∧ worker.work.readState relayed.index = none ∧ relayed.payload = [] ∧ islandServes worker relayed := by
  refine ⟨State.takes_of ?_, rfl, ?_, ?_, ?_, ?_, rfl, fun h => absurd h (by decide)⟩ <;> decide +kernel

theorem wit_relayed_answer : awaiting3.dev.dict.forwarded = forwardedRead :: [] ∧ 3 ∈ forwardedRead.waiting ∧ forwardedRead.req.tag = 0x2A ∧
    (forwardedRead.opcode ||| 0x80) = 0x81 ∧ forwardedRead.req.target ≠ 255 ∧ forwardedRead.req.origin.path ≠ .fabric ∧
    (∀ f ∈ ready.dev.dict.forwarded, (3 : Nat) ∉ f.waiting) := by decide +kernel

/-- A worker that has checked its part of variant 7 of slot 1. -/
def installing : State := withVars worker (fun x => { x with checked := [⟨1, 7, []⟩] })

theorem wit_orders : worker.val Obj.role = 3 ∧ (withObj worker (Obj.slotState 1) 3).val (Obj.slotState 1) = 3 ∧
    (withObj worker (Obj.slotState 1) 4).val (Obj.slotState 1) = 4 ∧ ready.val Obj.role = 0 ∧ standbyDev.val Obj.role = 2 ∧
    standbyDev.val Obj.groupState = 2 ∧ installing.val Obj.role = 3 := by decide +kernel

theorem wit_reports : 2 ∈ managing.work.workers ∧ 9 ∉ managing.work.workers ∧ managing.val Obj.role = 1 ∧ managing.dev.serve.plan ≠ none := by decide +kernel

/-! ## Statements of 13 -/

theorem wit_port_reset : (quiet.work.port 0).vfs = 0 ∧ noChannels quiet 0x400 ∧ (ready.work.port 0).vfs = 4 ∧ (ready.work.port 0).perst = false ∧
    State.reset.dev.power.pwrgd = true ∧ (State.reset.work.port 0).perst = true ∧ State.reset.val Obj.powerState ≠ 4 := by
  refine ⟨by decide +kernel, ?_, ?_, ?_, ?_, ?_, ?_⟩
  · unfold noChannels
    decide +kernel
  all_goals decide +kernel

theorem wit_function_reset : 3 < (ready.work.port 0).vfs ∧ noChannels ready 3 := by
  unfold noChannels
  decide +kernel

theorem wit_rings : ringSized.grantsAt (for3 1 1) (rowOf (Obj.ringEnable 3)) (Obj.ringEnable 3) 1 ∧ ringSized.work.ringEnableRefused 3 1 = false ∧
    ringSized.work.resting 0x9100 = false ∧ (ringSized.work.ring 3).waiting = [] ∧ ringSized.val (Obj.ringEnable 3) = 0 := by
  refine ⟨State.grantsAt_of ?_, ?_, ?_, ?_, ?_⟩ <;> decide +kernel

/-- Tenant 3 has completions it has not been told of. -/
def untold : State := withObj { ready with dev := { ready.dev with host := { ready.dev.host with rings := [(3, { Ring.reset with timer := true, sinceIrq := 2 })] } } } (Obj.cqIrqUs 3) 5

theorem wit_ring_rows : (ringsOn ready).work.tenantExists 3 = true ∧ (ringsOn ready).val (Obj.ringEnable 3) ≠ 0 ∧ ((ringsOn ready).work.ring 3).waiting = [] ∧
    ((ringsOn ready).work.ring 3).aperture = [] ∧ (ringsOn ready).val Obj.role ≠ 1 ∧ ready.work.tenantExists 3 = true ∧ ready.val (Obj.ringEnable 3) = 0 ∧
    untold.work.tenantExists 3 = true ∧ (untold.work.ring 3).timer = true ∧ untold.val (Obj.cqIrqUs 3) ≠ 0 := by decide +kernel

/-- Sixteen bytes of a window's backing are being zeroed. -/
def zeroing : State :=
  { ready with mem := ⟨[(0x300000000, 1), (0x300000010, 2)], []⟩, dev := { ready.dev with host := { ready.dev.host with zeroing := [(0x300000000, 16)] } } }

theorem wit_zeroing : zeroing.mem.wf = true ∧ zeroing.dev.host.zeroing = (0x300000000, 16) :: [] := by decide +kernel

theorem test_zeroing : (after (.windowZeroingDone 0x300000000) zeroing).mem.cells = [(0x300000010, 2)] := by decide +kernel

/-! ## Statements of 14 to 16 -/

theorem wit_dma_assign : (withChan DmaChan.reset true).grants (reqAt (req hostA 0x9810 4 [0, 4]) 0x9810 4) (rowOf (Obj.dmaAssign 3)) (Obj.dmaAssign 3) 0x400 ∧
    (rowOf (Obj.dmaAssign 3)).min ≤ 0x400 ∧ 0x400 ≤ (rowOf (Obj.dmaAssign 3)).max ∧
    (withChan DmaChan.reset true).work.valueRefused hostA (Obj.dmaAssign 3) 0x400 = none := by
  refine ⟨State.grants_of ?_, ?_, ?_, ?_⟩ <;> decide +kernel

/-- DMA_GO of the owner 0x400 on channel 3, by slot. -/
def goReq (slot : Nat) : Req := { req hostA (0x9813 + slot) 4 [0] with tenant := 0x400 }

theorem wit_dma_go : (withDesc DmaChan.reset).starts (reqAt (goReq 0) 0x9813 4) (dmaGoKey 3 0) 0 ∧
    ((withDesc DmaChan.reset).work.dmaChan 3).running = none ∧
    (withDesc (chanRuns descIn [])).starts (reqAt (goReq 1) 0x9814 4) (dmaGoKey 3 1) 0 ∧
    ((withDesc (chanRuns descIn [])).work.dmaChan 3).running ≠ none := by
  refine ⟨State.starts_of ?_, ?_, State.starts_of ?_, ?_⟩ <;> decide +kernel

theorem wit_passes : ready.startsAt (req hostA 0 0 [0]) Obj.scrubNow 0 ∧ ready.startsAt (req hostA 0 0 [0]) Obj.sweepNow 0 ∧
    ready.startsAt (req hostA 0 0 [5]) Obj.testNow 5 ∧ goodCore ready.ident 5 = true ∧ lacksCore.startsAt (req hostA 0 0 [9]) Obj.testNow 9 ∧
    goodCore lacksCore.ident 9 = false := by
  refine ⟨State.startsAt_of ?_, State.startsAt_of ?_, State.startsAt_of ?_, ?_, State.startsAt_of ?_, ?_⟩ <;> decide +kernel

/-- SWEEP_NOW runs; slot 0 is READY with facet 3, and core 5's test runs, asked for, or again after its reset. -/
def sweeping : State := withObjs (withArr ready 3 inService) [(Obj.sweepNow, 0x12), (Obj.slotState 0, 3)]
def testsCore (x : CoreTest) : State :=
  withObj { ready with dev := { ready.dev with rel := { ready.dev.rel with tests := [(5, { x with running := true })] } } } Obj.testNow 0x11

theorem wit_sweep : sweeping.work.cmdBusy Obj.sweepNow = true ∧ sweeping.work.sweptGroups ≠ [] ∧ ready.work.sweptGroups = [] := by decide +kernel

theorem wit_tests : ready.val Obj.testEnable ≠ 0 ∧ ready.val Obj.powerState < 2 ∧ goodCore ready.ident 5 = true ∧ (ready.work.coreTest 5).running = false ∧
    ((testsCore CoreTest.reset).work.coreTest 5).running = true ∧ ((testsCore CoreTest.reset).work.coreTest 5).second = false ∧
    ((testsCore { CoreTest.reset with requested := true }).work.coreTest 5).requested = true ∧
    (testsCore { CoreTest.reset with requested := true }).work.cmdBusy Obj.testNow = true ∧
    ((testsCore { CoreTest.reset with second := true }).work.coreTest 5).second = true ∧ ([3, 7].filter (fun (k : Nat) => 1 ≤ k && k ≤ 5)) ≠ [] := by
  decide +kernel

theorem wit_held : engineExists judging.ident 0 = true ∧ judging.work.heldGroup 0 0 2 = some heldCheck ∧
    (∀ y ∈ judging.dev.step.held, y.engine = 0 → y.facet = 4 * 0 + 0 → y.group ≠ none) ∧
    judging.work.goldenPresent (facetCore heldCheck.facet) heldCheck.slot = false ∧ judgingGolden.work.heldGroup 0 0 2 = some heldCheck ∧
    judgingGolden.work.goldenPresent (facetCore heldCheck.facet) heldCheck.slot = true := by decide +kernel

theorem wit_samples : sampling.dev.step.held.find? (fun h => h.engine = 0 && h.facet = 4 * 0 + 0 && h.group.isNone) = some { heldCheck with group := none } ∧
    sampling.work.goldenPresent (facetCore heldCheck.facet) heldCheck.slot = false ∧
    (withSections sampling [(0x14, [1])]).work.goldenPresent (facetCore heldCheck.facet) heldCheck.slot = true := by decide +kernel

/-- Core 0 has recovered 40 s ago. -/
def recovered : State :=
  let s := withObj jobWaits Obj.poweredSeconds 100
  { s with dev := { s.dev with rel := { s.dev.rel with lastRecovery := [(0, 60)] } } }

theorem wit_recovery : goodCore jobWaits.ident 0 = true ∧ (∀ p ∈ jobWaits.dev.rel.lastRecovery, p.1 = 0 → p.2 + 60 ≤ jobWaits.val Obj.poweredSeconds) ∧
    (jobWaits.work.engine 0).queue ≠ [] ∧ recovered.dev.rel.lastRecovery = [(0, 60)] ∧ recovered.val Obj.poweredSeconds < 60 + 60 := by decide +kernel

/-! ## Statements of 17 to 20 -/

theorem quiet_quiet : QuietDevice quiet := by
  refine ⟨?_, ?_, ?_, ?_, ?_, ?_, ?_, ?_, ?_⟩
  case refine_9 => unfold noChannels; decide +kernel
  all_goals decide +kernel

/-- VIN is present, and the device has been shut down by a diode, or its firmware has failed. -/
def shutDown : State := after (.thermalShutdown 3) quiet
def firmwareDown : State := after .firmwareFault quiet

theorem wit_power : quiet.dev.rel.deviceFault = none ∧ shutDown.dev.rel.deviceFault = some 0x20 ∧ firmwareDown.dev.rel.deviceFault = some 0x21 ∧
    (35999 : Nat) < 36000 ∧ (36000 : Nat) ≤ 36000 := by decide +kernel

theorem test_shutdown : shutDown.dev.power.shutdownLatched = true ∧ shutDown.work.islandCond 3 = .gated ∧ shutDown.work.islandCond 0xAD = .running := by
  decide +kernel

/-- Connector positions, by the tables of R576 and R579. -/
theorem test_pins : j1Signal 0 22 = .lane 0 true 7 true ∧ j1Signal 3 23 = .lane 1 false 7 false ∧ j1Signal 1 24 = .ground ∧ j1Signal 4 8 = .perst 1 ∧
    j1Signal 4 23 = .mgmtAddr 2 ∧ j1Signal 4 19 = .reserved ∧ j1Blade 13 = .vinReturn := by decide +kernel

theorem test_pairs : cablePair 3 39 = .transmit 5 7 ∧ cablePair 5 127 = .ground ∧ cablePair 5 112 = .receive 15 0 := by decide +kernel

/-- Engine island 3 in a condition. -/
def island3 (c : IslandCond) : State := withIslands powered [(3, c)]

theorem wit_islands : islandPresent powered.ident 3 = true ∧ powered.dev.boot.target = none ∧ islandPresent powered.ident 0x80 = true ∧
    islandKind 0x80 = 2 ∧ islandKind 3 ≠ 2 ∧ (∀ c, islandCore 3 = some c → powered.work.coreProgramming c = false) ∧ powered.work.islandCond 3 = .running ∧
    (island3 .draining).dev.boot.target = none ∧ (island3 .draining).work.islandCond 3 = .draining ∧ (island3 .draining).work.islandQuiet 3 = true ∧
    3 ∉ (island3 .draining).dev.boot.gating ∧ (island3 .stopped).dev.boot.target = none ∧ (island3 .stopped).work.islandCond 3 = .stopped ∧
    (island3 .stopped).work.mayPower = true ∧ (island3 .stopped).val Obj.powerState = 0 ∧ (∀ p ∈ (island3 .stopped).dev.dict.parked, p.island ≠ 3) ∧
    (island3 .stopped).dev.dict.held = [] := by
  refine ⟨?_, ?_, ?_, ?_, ?_, ?core, ?_, ?_, ?_, ?_, ?_, ?_, ?_, ?_, ?_, ?_, ?_⟩
  case core => rintro c ⟨rfl⟩; decide +kernel
  all_goals decide +kernel

/-- A READ of a seam object, and the device while the seam island is stopped. -/
def seamRead : Req := { req hostA 0x2200 1 [] with tenant := 0 }
def seamStopped : State := withIslands powered [(0xAC, .stopped)]
def seamKey : Key := ⟨0x2200, 1, 0⟩

theorem wit_seam : seamStopped.takes 1 seamRead ∧ seamStopped.work.lookup (seen 1 seamRead) = some (rowOf seamKey, seamKey) ∧
    (rowOf seamKey).access ≠ .wo ∧ (rowOf seamKey).ty ≠ .domain ∧ seamStopped.work.readState 0x2200 = none ∧ seamRead.payload = [] ∧
    servedBySeam 0x2200 = true ∧ seamStopped.work.islandCond 0xAC = .stopped := by
  refine ⟨State.takes_of ?_, ?_, ?_, ?_, ?_, rfl, ?_, ?_⟩ <;> decide +kernel

theorem wit_seam_back : parkedSeam.dev.dict.parked = [⟨seamRead, 1, 0xAC, false⟩] ∧
    parkedSeam.work.lookup (seen 1 seamRead) = some (rowOf seamKey, seamKey) ∧ parkedSeam.work.readState 0x2200 = none ∧
    parkedSeam.dev.boot.target = none ∧ parkedSeam.work.islandCond 0xAC = .stopped ∧ parkedSeam.work.mayPower = true ∧ parkedSeam.val Obj.powerState = 0 ∧
    parkedSeam.dev.net.waiting = [] ∧ parkedSeam.dev.dict.held = [] ∧ seamRead.target = 254 ∧ seamRead.flags = 0 ∧ seamRead.rsv7 = 0 ∧
    seamRead.tenantHi = 0 ∧ seamRead.arg = 0 := by decide +kernel

theorem wit_minmax : ready.startsAt (req hostA 0 0 [0x1F, 0, 0, 0]) (Obj.minmaxReset 0) 0x1F ∧
    bitAt 0x1F 4 = true ∧ (ready.work.hkHalf 0).entries[4]? ≠ none := by
  refine ⟨State.startsAt_of ?_, ?_, ?_⟩ <;> decide +kernel

/-- Power is up, and the banks hold what is given; boot stands at its first stage. -/
def banked (x y : Bank) : State := { powered with dev := { powered.dev with boot := { powered.dev.boot with stage := 0, banks := [x, y] } } }
def fullBank : Bank := ⟨some [1], 0, 0⟩
def emptyBank : Bank := ⟨none, 0, 0⟩

theorem wit_cold_start : powered.dev.power.shutdownLatched = false ∧ powered.dev.power.supplyLatched = false ∧ quiet.dev.power.shutdownLatched = false ∧
    quiet.dev.power.supplyLatched = false ∧ (∀ p ∈ quiet.dev.dict.persist, p.key ≠ Obj.coldStarts) ∧ pclassOf Obj.powerCapW = some .p ∧
    shutDown.dev.power.shutdownLatched = true := by decide +kernel

theorem wit_boot_powered : powered.dev.power.pwrgd = true ∧ powered.dev.power.shutdownLatched = false ∧ powered.dev.power.supplyLatched = false := by
  decide +kernel

theorem wit_boot_rom : (banked emptyBank emptyBank).dev.power = powered.dev.power ∧ (banked emptyBank emptyBank).dev.boot.stage = 0 ∧
    (banked emptyBank emptyBank).work.bankOk (1 - (banked emptyBank emptyBank).dev.boot.nextActive) = false ∧
    (banked emptyBank emptyBank).work.bankOk (banked emptyBank emptyBank).dev.boot.nextActive = false ∧
    (banked emptyBank fullBank).work.bankOk (1 - (banked emptyBank fullBank).dev.boot.nextActive) = true ∧
    (banked emptyBank fullBank).work.bankOk (banked emptyBank fullBank).dev.boot.nextActive = false ∧
    (banked fullBank emptyBank).work.bankOk (banked fullBank emptyBank).dev.boot.nextActive = true := by decide +kernel

/-- Stage 2 after a device reset. -/
def resetAt2 : State := { atStage 2 with dev := { (atStage 2).dev with boot := { (atStage 2).dev.boot with resetting := true } } }

theorem wit_boot_stages : (∀ n, n < 4 → (atStage n).dev.power = powered.dev.power ∧ (atStage n).dev.boot.stage = n) ∧
    (atStage 1).dev.rel.deviceFault = none ∧ resetAt2.dev.power = powered.dev.power ∧ resetAt2.dev.boot.stage = 2 ∧ resetAt2.dev.boot.resetting = true ∧
    (resetAt2.dev.dram.region 2).1 + (resetAt2.dev.dram.region 2).2 ≤ halfBase ∧ resetAt2.dev.dram.modelGib = resetAt2.val Obj.modelRegionGib ∧
    resetAt2.dev.dram.scratchGib = resetAt2.val Obj.scratchRegionGib ∧ (atStage 2).dev.boot.resetting = false ∧ (atStage 3).dev.dict.held = [] := by
  decide +kernel

/-- Port `p` has asserted DEVICE_RESET. -/
def asserted (p : Nat) : State := withObj quiet Obj.resetAssert (2 ^ p)

theorem wit_reset : quiet.grantsAt (req hostA 0 0 [0]) (rowOf Obj.deviceReset) Obj.deviceReset 0 ∧
    quiet.grantsAt (req hostB 0 0 [0]) (rowOf Obj.deviceReset) Obj.deviceReset 0 ∧
    quiet.work.argOk (rowOf Obj.deviceReset) Obj.deviceReset 0 = true ∧ quiet.val Obj.resetAssert = 0 ∧ quiet.work.cmdBusy Obj.deviceReset = false ∧
    (asserted 1).grantsAt (req hostA 0 0 [0]) (rowOf Obj.deviceReset) Obj.deviceReset 0 ∧ (asserted 1).val Obj.resetAssert = 2 ^ (1 - 0) ∧
    (asserted 0).grantsAt (req hostB 0 0 [0]) (rowOf Obj.deviceReset) Obj.deviceReset 0 ∧ (asserted 0).val Obj.resetAssert = 2 ^ (1 - 1) ∧
    (asserted 0).work.argOk (rowOf Obj.deviceReset) Obj.deviceReset 0 = true ∧ (asserted 0).dev.dict.persist = [] ∧
    (withObj quiet Obj.deviceReset 0x11).cmdStateOf Obj.deviceReset = 1 ∧ quiet.cmdStateOf Obj.deviceReset ≠ 1 := by
  refine ⟨State.grantsAt_of ?_, State.grantsAt_of ?_, ?_, ?_, ?_, State.grantsAt_of ?_, ?_, State.grantsAt_of ?_, ?_, ?_, ?_, ?_, ?_⟩ <;> decide +kernel

theorem reset_asked_quiet : QuietDevice (asserted 0) := by
  refine ⟨?_, ?_, ?_, ?_, ?_, ?_, ?_, ?_, ?_⟩
  case refine_9 => unfold noChannels; decide +kernel
  all_goals decide +kernel

/-- The device is in L1. -/
def inL1 : State := withObj quiet Obj.powerState 1

theorem wit_power_state : quiet.startsAt (req hostA 0 0 [0]) Obj.powerStateRequest 0 ∧ quiet.val Obj.powerState = 0 ∧
    inL1.startsAt (req hostA 0 0 [0]) Obj.powerStateRequest 0 ∧ inL1.val Obj.powerState = 1 ∧
    manager.startsAt (req hostA 0 0 [2]) Obj.powerStateRequest 2 ∧ manager.val Obj.powerState ≠ 2 ∧ manager.val Obj.groupState = 2 ∧
    quiet.startsAt (req hostA 0 0 [1]) Obj.powerStateRequest 1 ∧ islandPresent quiet.ident 3 = true ∧ quiet.work.islandCond 3 ≠ islandWanted 1 3 := by
  refine ⟨State.startsAt_of ?_, ?_, State.startsAt_of ?_, ?_, State.startsAt_of ?_, ?_, ?_, State.startsAt_of ?_, ?_, ?_⟩ <;> decide +kernel

theorem wit_group_power : quiet.startsAt (req hostA 0 0 [2]) Obj.groupPower 2 ∧ quiet.val Obj.groupState ≠ 2 ∧
    worker.startsAt (req hostA 0 0 [2]) Obj.groupPower 2 ∧ worker.val Obj.groupState = 2 ∧ worker.val Obj.role ≠ 1 ∧
    managing.startsAt (req hostA 0 0 [2]) Obj.groupPower 2 ∧ managing.val Obj.groupState = 2 ∧ managing.val Obj.role = 1 ∧
    managing.dev.boot.target = none ∧ managing.dev.serve.plan ≠ none ∧ managing.val Obj.powerState ≠ 2 := by
  refine ⟨State.startsAt_of ?_, ?_, State.startsAt_of ?_, ?_, ?_, State.startsAt_of ?_, ?_, ?_, ?_, ?_, ?_⟩ <;> decide +kernel

theorem wit_group_power_now : manager.startsAt (req hostA 0 0 [2]) Obj.groupPower 2 ∧ manager.val Obj.groupState = 2 ∧ manager.val Obj.role = 1 ∧
    manager.dev.boot.target = none ∧ manager.dev.serve.plan = none ∧ manager.val Obj.powerState ≠ 2 ∧ manager.dev.group.membership ≠ none := by
  refine ⟨State.startsAt_of ?_, ?_, ?_, ?_, ?_, ?_, ?_⟩ <;> decide +kernel

/-- L1_IDLE_US is set, and the device rests in L0. -/
def resting : State := withObj quiet Obj.l1IdleUs 5

theorem wit_l1 : resting.val Obj.l1IdleUs ≠ 0 ∧ resting.val Obj.powerState = 0 ∧ resting.dev.boot.target = none ∧ resting.dev.boot.stage = 4 ∧
    resting.work.atRest = true ∧ islandKind 3 ≤ 1 ∧ resting.work.islandCond 3 = .running ∧ quiet.val Obj.l1IdleUs = 0 ∧
    inL1.val Obj.powerState = 1 ∧ inL1.dev.boot.target = none ∧ inL1.dev.host.rings = [] ∧ quiet.val Obj.powerState ≠ 1 := by decide +kernel

/-- Bank 1 holds an image; bank 0 is active. -/
def secondBank : State := { quiet with dev := { quiet.dev with boot := { quiet.dev.boot with banks := [emptyBank, fullBank] } } }

theorem wit_activate : quiet.startsAt (req hostA 0 0 [0]) Obj.firmwareActivate 0 ∧
    (quiet.dev.boot.banks.getD (1 - quiet.dev.boot.active) ⟨none, 0, 0⟩).image = none ∧ secondBank.startsAt (req hostA 0 0 [0]) Obj.firmwareActivate 0 ∧
    (secondBank.dev.boot.banks.getD (1 - secondBank.dev.boot.active) ⟨none, 0, 0⟩).image ≠ none := by
  refine ⟨State.startsAt_of ?_, ?_, State.startsAt_of ?_, ?_⟩ <;> decide +kernel

theorem wit_spdm : powered.work.spdmAnswers .portA = true ∧ (powered.work.spdmConn .portA).ready = false ∧ connected.work.spdmAnswers .portA = true ∧
    (connected.work.spdmConn .portA).ready = true ∧ (connected.work.spdmConn .portA).version = true ∧ (connected.work.spdmConn .portA).capabilities = true ∧
    powered.work.spdmAnswers .fabric = false := by decide +kernel

end Sys2Proof.Tests
end

section
/-! SUPPORT. What a command's outcome can be: `exec` is `State.nextIf` of a check of units and a work, so every next state is a run. -/

namespace Sys2Proof.Machine

/-- What has been sent stays sent, whatever the work. -/
theorem State.run_out_prefix (s : State) (f : Work → Work) : s.out <+: (s.run f).out := by
  rw [State.run_out, List.append_assoc]
  exact List.prefix_append _ _

/-- Each command checks that the module has the units it names, if it names any, and then runs its work. The commands listed name units;
the others check nothing. -/
theorem exec_eq_nextIf (c : Instr) (s : State) : ∃ present f, exec c s = s.nextIf present f := by
  cases c with
  | go | abandon | doneClear | bulkMeshTransfer | selvedgeMessage | engineMvmStart | phaseWindowEnd | goldenReadReturn | recomputeComplete
  | epilogue | draft | sliceCalibrationComplete | sliceAdjustStep | sentinelConverterCal | rowSideCal | trimApply | calibrationMvm
  | baselineRecord | facetProgramStart | facetProgramDone | drainDeadline | submit | cancel | promptFetchDone | masks | deltaFetchDone
  | linkTrainingDone | linkRetrainTimer | laneLockLoss | flitTimeout | dataFlit | nullFlit | nak | linkLatencyMeasure | probe | loadData
  | dmaSlotStart | dmaHalf | dmaSlotEnd | hostReadError | cqHead | cqIrqTimer | linkUp | portReset | functionLevelReset | vfEnableChange
  | perstRelease | scrubRead | refreshBandChange | arbitration | arbTimeout | shadowSampleJudged | testDue | testComplete | testOverdue
  | coreRecoveryReset | thermalCrossing | graceExpiry | skipStepTick | divideAfterExpiry | thermalShutdown | supplyFault | islandStop
  | islandDrainComplete | islandRestart | hkRound | hkConversion | urgentConversion | urgentResult | calSwap | cableInsert | cableRemove
  | dynamicAddressAssignment => exact ⟨_, _, rfl⟩
  | _ => exact ⟨true, _, rfl⟩

/-- A command that completes has run some work on the state it found. -/
theorem exec_next_eq_run {c : Instr} {s t : State} (h : exec c s = .next t) : ∃ f, t = s.run f := by
  obtain ⟨present, f, hc⟩ := exec_eq_nextIf c s
  exact ⟨f, (State.nextIf_eq.mp (hc.symm.trans h)).2⟩

/-- Settles O4: the next state is a run, which keeps the queue's rest and the module and appends to what has been sent. -/
theorem commandsKeepModuleQueueAndOutput : Obligations.CommandsKeepModuleQueueAndOutput := by
  unfold Obligations.CommandsKeepModuleQueueAndOutput
  intro c s t h
  obtain ⟨f, rfl⟩ := exec_next_eq_run h
  exact ⟨s.run_pending f, s.run_ident f, s.run_out_prefix f⟩

end Sys2Proof.Machine
end

section
/-! SUPPORT. The frame of a run from what its work changes, and counts that a work raises. -/

namespace Sys2Proof.Machine

/-! ## The frame of a run -/

/-- A run depends only on what its work makes of the state it finds. -/
theorem State.run_congr {s : State} {f g : Work → Work} (h : f s.work = g s.work) : s.run f = s.run g := by
  simp only [State.run, h]

/-- The state as a command's work leaves it, before the links transmit what it sends. -/
def State.worked (s : State) (f : Work → Work) : State :=
  { s with dev := (f s.work).toDev, mem := s.mem.applyAll (f s.work).writes }

/-- Transmitting changes no part of the state but the links. -/
theorem State.same_run_iff_worked (s : State) (f : Work → Work) {p : StatePart} (hp : p ≠ .links) :
    s.same (s.run f) p ↔ s.same (s.worked f) p := by
  obtain ⟨ls, n, os, hdev⟩ := s.run_dev_eq f
  cases p with
  | mem => rw [State.same, State.run_mem]; rfl
  | links => exact absurd rfl hp
  | _ => simp only [State.same, State.worked, hdev]

/-- A command that sends nothing to the fabric leaves the device as its work does. -/
theorem State.same_run_iff_worked_local (s : State) (f : Work → Work)
    (hlocal : ∀ dst link m, Output.fabric dst link m ∉ (f s.work).sent) (p : StatePart) :
    s.same (s.run f) p ↔ s.same (s.worked f) p := by
  cases p with
  | links => rw [State.same, State.run_dev_local s f hlocal]; rfl
  | _ => exact State.same_run_iff_worked s f (by decide)

/-- The value of any object after a command that sends nothing to the fabric. -/
theorem State.run_val_local (s : State) (f : Work → Work)
    (hlocal : ∀ dst link m, Output.fabric dst link m ∉ (f s.work).sent) (k : Key) : (s.run f).val k = (f s.work).get k := by
  simp only [State.val, Work.get, State.work_toDev, State.run_dev_local s f hlocal]

/-- The frame of a command that sends nothing to the fabric is that of its work. -/
theorem State.run_frame_local {s : State} {f : Work → Work} {parts : List StatePart} {keys : Key → Prop}
    (hlocal : ∀ dst link m, Output.fabric dst link m ∉ (f s.work).sent) (hparts : ∀ p, p ∉ parts → s.same (s.worked f) p)
    (hkeys : ∀ k, ¬ keys k → (f s.work).get k = s.val k) : s.frame (s.run f) parts keys :=
  ⟨rfl, rfl, s.run_out_prefix f, fun p hp => (s.same_run_iff_worked_local f hlocal p).mpr (hparts p hp),
    fun k hk => (s.run_val_local f hlocal k).trans (hkeys k hk)⟩

/-- A command that may send to the fabric changes the links and their counters besides. -/
theorem State.run_frame_links {s : State} {f : Work → Work} {parts : List StatePart} {keys : Key → Prop}
    (hlinks : StatePart.links ∈ parts) (hcounters : ∀ k, linkCounter k → keys k) (hparts : ∀ p, p ∉ parts → s.same (s.worked f) p)
    (hkeys : ∀ k, ¬ keys k → (f s.work).get k = s.val k) : s.frame (s.run f) parts keys :=
  ⟨rfl, rfl, s.run_out_prefix f,
    fun p hp => (s.same_run_iff_worked f (by rintro rfl; exact hp hlinks)).mpr (hparts p hp),
    fun k hk => (s.run_val f k (fun hc => hk (hcounters k hc))).trans (hkeys k hk)⟩

theorem State.run_net (s : State) (f : Work → Work) : (s.run f).dev.net = (f s.work).net := by
  obtain ⟨ls, n, os, h⟩ := s.run_dev_eq f
  rw [h]

theorem State.run_rel (s : State) (f : Work → Work) : (s.run f).dev.rel = (f s.work).rel := by
  obtain ⟨ls, n, os, h⟩ := s.run_dev_eq f
  rw [h]

/-- The parts of a state that a work keeps when it changes at most the networks, the records, objects and what is sent. -/
theorem State.same_worked_of_net_rel {s : State} {f : Work → Work} {net : NetState} {rel : RelState} {objs : List (Key × Nat)}
    {sent : List Output} (h : f s.work = { s.work with net := net, rel := rel, objs := objs, sent := sent }) {p : StatePart}
    (hnet : p = .net → net = s.dev.net) (hrel : p = .rel → rel = s.dev.rel) : s.same (s.worked f) p := by
  simp only [State.worked, h]
  cases p with
  | net => exact hnet rfl
  | rel => exact hrel rfl
  | _ => rfl

/-- What a command's work sends is among what the command adds to the output. -/
theorem State.mem_drop_run_out {s : State} {f : Work → Work} {o : Output} (h : o ∈ (f s.work).sent) :
    o ∈ (s.run f).out.drop s.out.length := by
  rw [State.run_out, List.append_assoc, List.drop_left]
  exact List.mem_append_left _ h

/-! ## Counts -/

/-- A work raises a count by a number, as `State.counted` says of a command. -/
def Work.counted (s t : Work) (k : Key) (n : Nat) : Prop := s.get k + n < 2 ^ bitsOf k → t.get k = s.get k + n

/-- Add to a count if a condition holds. -/
def Work.addWhen (s : Work) (c : Prop) [Decidable c] (k : Key) (n : Nat) : Work := if c then s.add k n else s

@[simp] theorem Work.addWhen_get (s : Work) (c : Prop) [Decidable c] (k : Key) (n : Nat) (q : Key) :
    (s.addWhen c k n).get q = if k = q ∧ c then countPast k (s.get k + n) else s.get q := by
  by_cases hc : c <;> simp [Work.addWhen, hc]

/-- A value that is the sum where a condition holds, and stands where it does not, counts what it is added then. -/
theorem Work.counted_of_get_eq_ite {s t : Work} {k : Key} {n : Nat} {c : Prop} [Decidable c]
    (h : t.get k = if c then countPast k (s.get k + n) else s.get k) : s.counted t k (if c then n else 0) := by
  intro hlt
  split at h
  · rw [if_pos ‹c›] at hlt ⊢
    exact h.trans (countPast_of_lt hlt)
  · rw [if_neg ‹¬ c›]
    exact h

/-- A command counts what its work counts, for an object that is no counter of a link. -/
theorem State.run_counted {s : State} {f : Work → Work} {k : Key} {n : Nat} (hk : ¬ linkCounter k)
    (h : s.work.counted (f s.work) k n) : s.counted (s.run f) k n :=
  fun hlt => (s.run_val f k hk).trans (h hlt)

/-! ## Records of faults -/

/-- A record that is no event, whose code sets no ATTENTION bit, joins those that wait for the non-volatile store; a worker also sends it. -/
theorem Work.log_of_no_attention (s : Work) {severity code : Nat} (unitKind slot unit tenant detail : Nat) (hsev : severity ≠ 0)
    (hatt : attentionOf code = none) : ∃ x os,
    s.log severity code unitKind slot unit tenant detail =
      { s with rel := { s.rel with pendingLog := s.rel.pendingLog ++ [x] }, sent := s.sent ++ os } ∧
    x.code = code ∧ x.severity = severity := by
  have hcode : code ≠ 2 := fun h => absurd (h ▸ hatt) (by decide)
  let r : RecordIn := ⟨s.ownDevice, severity, code, unitKind, slot, unit, tenant, detail % 2 ^ 32⟩
  by_cases hw : (s.isWorker && s.formed) = true
  · refine ⟨logRecOf s r, [.fabric (some 0) none (.record r)], ?_, rfl, rfl⟩
    simp only [Work.log, Work.record, hatt, hsev, hcode, if_false, false_and]
    exact if_pos hw
  · refine ⟨logRecOf s r, [], ?_, rfl, rfl⟩
    simp only [Work.log, Work.record, hatt, hsev, hcode, if_false, false_and, List.append_nil]
    exact if_neg hw

end Sys2Proof.Machine
end

section
/-! SUPPORT. The networks on the die (R22, R25 to R27): what a bulk-mesh transfer counts, and what a Selvedge message leaves. -/

namespace Sys2Proof.Machine

/-! ## Bulk-mesh transfers -/

/-- The plane that carries a transfer (R22). -/
def meshPlaneOf (m : MeshTransfer) : Nat :=
  Config.meshPlane (16 * (meshStop m.dst).1 + (meshStop m.dst).2) m.flowTag % 8

theorem meshPlaneOf_lt (m : MeshTransfer) : meshPlaneOf m < 8 := Nat.mod_lt _ (by decide)

/-- The plane's key is none of the others that a transfer moves. -/
theorem meshPlaneBytes_ne {p : Nat} (hp : p < 8) :
    Obj.meshPlaneBytes p ≠ Obj.meshPoisonFlits ∧ Obj.meshPlaneBytes p ≠ Obj.seamBytesWe ∧ Obj.meshPlaneBytes p ≠ Obj.seamBytesEw := by
  simp only [ne_eq, Key.mk.injEq]
  omega

/-- A transfer is carried by counting at its plane, its poisoned flits if it has any, and at the direction of the seam it crosses, which is
at most one. -/
theorem Work.carry_eq (s : Work) (m : MeshTransfer) :
    s.carry m =
      (((s.add (Obj.meshPlaneBytes (meshPlaneOf m)) m.bytes).addWhen (m.poisonFlits ≠ 0) Obj.meshPoisonFlits m.poisonFlits).addWhen
        ((meshStop m.src).2 < 8 ∧ 8 ≤ (meshStop m.dst).2) Obj.seamBytesWe m.bytes).addWhen
        (8 ≤ (meshStop m.src).2 ∧ (meshStop m.dst).2 < 8) Obj.seamBytesEw m.bytes := by
  have hflits : ∀ w : Work, (if m.poisonFlits = 0 then w else w.add Obj.meshPoisonFlits m.poisonFlits) =
      w.addWhen (m.poisonFlits ≠ 0) Obj.meshPoisonFlits m.poisonFlits := fun w => (ite_not ..).symm
  simp only [Work.carry, hflits, meshPlaneOf]
  by_cases heast : (meshStop m.src).2 < 8 ∧ 8 ≤ (meshStop m.dst).2
  · have hwest : ¬ (8 ≤ (meshStop m.src).2 ∧ (meshStop m.dst).2 < 8) := by omega
    simp only [Work.addWhen, heast, hwest, and_self, if_true, if_false]
  · simp only [Work.addWhen, heast, if_false]

theorem Work.carry_objs (s : Work) (m : MeshTransfer) : ∃ objs, s.carry m = { s with objs := objs } := by
  simp only [Work.carry]
  split_ifs <;> exact ⟨_, rfl⟩

theorem Work.carry_counts_plane (s : Work) (m : MeshTransfer) :
    s.counted (s.carry m) (Obj.meshPlaneBytes (meshPlaneOf m)) m.bytes := by
  obtain ⟨hpoison, hwe, hew⟩ := meshPlaneBytes_ne (meshPlaneOf_lt m)
  intro hlt
  simp only [Work.carry_eq, Work.addWhen_get, Work.add_get, hpoison.symm, hwe.symm, hew.symm, false_and, if_false, if_true]
  exact countPast_of_lt hlt

theorem Work.carry_counts_poison (s : Work) (m : MeshTransfer) : s.counted (s.carry m) Obj.meshPoisonFlits m.poisonFlits := by
  obtain ⟨hpoison, -, -⟩ := meshPlaneBytes_ne (meshPlaneOf_lt m)
  have h : s.counted (s.carry m) Obj.meshPoisonFlits (if m.poisonFlits ≠ 0 then m.poisonFlits else 0) :=
    Work.counted_of_get_eq_ite (by simp [Work.carry_eq, hpoison])
  rwa [show (if m.poisonFlits ≠ 0 then m.poisonFlits else 0) = m.poisonFlits from ite_eq_left_iff.mpr (fun h => (not_not.mp h).symm)] at h

theorem Work.carry_counts_seamWe (s : Work) (m : MeshTransfer) :
    s.counted (s.carry m) Obj.seamBytesWe (if (meshStop m.src).2 < 8 ∧ 8 ≤ (meshStop m.dst).2 then m.bytes else 0) := by
  obtain ⟨-, hwe, -⟩ := meshPlaneBytes_ne (meshPlaneOf_lt m)
  exact Work.counted_of_get_eq_ite (by simp [Work.carry_eq, hwe])

theorem Work.carry_counts_seamEw (s : Work) (m : MeshTransfer) :
    s.counted (s.carry m) Obj.seamBytesEw (if 8 ≤ (meshStop m.src).2 ∧ (meshStop m.dst).2 < 8 then m.bytes else 0) := by
  obtain ⟨-, -, hew⟩ := meshPlaneBytes_ne (meshPlaneOf_lt m)
  exact Work.counted_of_get_eq_ite (by simp [Work.carry_eq, hew])

/-- The counts that a transfer on a plane can move. -/
def meshCount (p : Nat) (k : Key) : Prop :=
  k = Obj.meshPlaneBytes p ∨ k = Obj.meshPoisonFlits ∨ k = Obj.seamBytesWe ∨ k = Obj.seamBytesEw

/-- A transfer changes no other object. -/
theorem Work.carry_get_of_not_meshCount (s : Work) (m : MeshTransfer) {k : Key} (hk : ¬ meshCount (meshPlaneOf m) k) :
    (s.carry m).get k = s.get k := by
  simp only [meshCount, not_or] at hk
  obtain ⟨hplane, hpoison, hwe, hew⟩ := hk
  simp [Work.carry_eq, Ne.symm hplane, Ne.symm hpoison, Ne.symm hwe, Ne.symm hew]

/-- A transfer between ends that the module has is carried when the islands it goes through all run. -/
theorem exec_bulkMeshTransfer_of_canCarry {s : State} {m : MeshTransfer} (hsrc : endExists s.ident m.src = true)
    (hdst : endExists s.ident m.dst = true) (h : s.work.canCarry m = true) :
    exec (.bulkMeshTransfer m) s = .next (s.run (fun w => w.carry m)) :=
  (State.nextIf_true (by rw [hsrc, hdst]; rfl)).trans (congrArg Host.Outcome.next (State.run_congr (if_pos h)))

/-- Otherwise it waits, behind those that wait already. -/
theorem exec_bulkMeshTransfer_of_not_canCarry {s : State} {m : MeshTransfer} (hsrc : endExists s.ident m.src = true)
    (hdst : endExists s.ident m.dst = true) (h : ¬ s.work.canCarry m = true) :
    exec (.bulkMeshTransfer m) s = .next (s.run (fun w => { w with net := { w.net with waiting := s.dev.net.waiting ++ [m] } })) :=
  (State.nextIf_true (by rw [hsrc, hdst]; rfl)).trans (congrArg Host.Outcome.next (State.run_congr (if_neg h)))

/-- What a transfer whose islands all run changes (R22, R25, R38). -/
theorem State.run_carry_frame (s : State) (m : MeshTransfer) :
    s.frame (s.run (fun w => w.carry m)) [] (meshCount (meshPlaneOf m)) := by
  obtain ⟨objs, h⟩ := s.work.carry_objs m
  exact State.run_frame_local (by simp [h]) (fun p _ => State.same_worked_of_net_rel h (fun _ => rfl) (fun _ => rfl))
    (fun k hk => s.work.carry_get_of_not_meshCount m hk)

/-- A transfer that meets a stopped island changes only the transfers that wait (R20, R34). -/
theorem State.run_wait_frame (s : State) (waiting : List MeshTransfer) :
    s.frame (s.run (fun w => { w with net := { w.net with waiting := waiting } })) [.net] (fun _ => False) :=
  State.run_frame_local (by simp) (fun p hp => State.same_worked_of_net_rel rfl (by rintro rfl; simp at hp) (fun _ => rfl)) (fun _ _ => rfl)

/-! ## Selvedge messages -/

/-- The work once a message is on its way: its source holds a credit, it is given out, and SELVEDGE_MAX keeps the largest latency. -/
def Work.selvedgeDeliver (s : Work) (m : SelvedgeMsg) : Work :=
  ((s.selvedgeCredit m).send (.selvedge m)).raise Obj.selvedgeMax m.latencyNs

/-- Delivering changes the networks and SELVEDGE_MAX, and gives out the message. -/
theorem Work.selvedgeDeliver_eq (s : Work) (m : SelvedgeMsg) : ∃ net objs,
    s.selvedgeDeliver m = { s with net := net, objs := objs, sent := s.sent ++ [.selvedge m] } := ⟨_, _, rfl⟩

@[simp] theorem Work.selvedgeDeliver_get (s : Work) (m : SelvedgeMsg) (k : Key) :
    (s.selvedgeDeliver m).get k =
      if Obj.selvedgeMax = k then max (s.get Obj.selvedgeMax) (objValue Obj.selvedgeMax m.latencyNs) else s.get k := by
  rw [Work.selvedgeDeliver, Work.raise_get]
  rfl

theorem le_injectAt (atNs : Nat) (times : List Nat) : atNs ≤ injectAt atNs times := by
  unfold injectAt
  split
  · exact le_rfl
  · exact le_max_left ..

theorem length_insertAsc (x : Nat) (l : List Nat) : (insertAsc x l).length = l.length + 1 := by
  induction l with
  | nil => rfl
  | cons y l ih =>
    unfold insertAsc
    split
    · rfl
    · simp [ih]

@[simp] theorem length_sortAsc (l : List Nat) : (sortAsc l).length = l.length := by
  induction l with
  | nil => rfl
  | cons x l ih =>
    rw [show sortAsc (x :: l) = insertAsc x (sortAsc l) from rfl, length_insertAsc, ih, List.length_cons]

/-- The source's credit is held from the message's injection to its delivery, and the injection is at once while fewer than two of the class
are in flight (R27). -/
theorem Work.selvedgeDeliver_flight (s : Work) (m : SelvedgeMsg) :
    ∃ f ∈ (s.selvedgeDeliver m).net.flights, f.src = m.src ∧ f.cls = m.cls ∧ m.atNs + m.latencyNs ≤ f.untilNs ∧
      ((s.net.flights.filter (fun g => decide (g.src = m.src) && decide (g.cls = m.cls) && decide (m.atNs < g.untilNs))).length < 2 →
        f.untilNs = m.atNs + m.latencyNs) := by
  let held := s.net.flights.filter (fun g => decide (g.src = m.src) && decide (g.cls = m.cls) && decide (m.atNs < g.untilNs))
  let times := sortAsc (held.map (·.untilNs))
  refine ⟨⟨m.src, m.cls, injectAt m.atNs times + m.latencyNs⟩, List.mem_append_right _ (List.mem_singleton.mpr rfl), rfl, rfl, ?_, ?_⟩
  · exact Nat.add_le_add_right (le_injectAt _ _) _
  · intro hfew
    have htimes : times.length < 2 := by simpa [times] using hfew
    simp only [injectAt, if_pos htimes]

/-- A message within the bound in force is delivered and no more (R29, R31). -/
theorem Work.selvedgeMessage_of_le {s : Work} {m : SelvedgeMsg} (h : m.latencyNs ≤ s.selvedgeBoundNow) :
    s.selvedgeMessage m = s.selvedgeDeliver m := if_pos h

/-- A message past the bound is delivered, counted and logged as a contained fault (R31). -/
theorem Work.selvedgeMessage_of_gt {s : Work} {m : SelvedgeMsg} (h : ¬ m.latencyNs ≤ s.selvedgeBoundNow) : ∃ x os,
    s.selvedgeMessage m =
      { (s.selvedgeDeliver m).add Obj.selvedgeOverruns 1 with
        rel := { s.rel with pendingLog := s.rel.pendingLog ++ [x] }, sent := s.sent ++ .selvedge m :: os } ∧
    x.code = 0x004C ∧ x.severity = 2 := by
  obtain ⟨x, os, hlog, hx⟩ := ((s.selvedgeDeliver m).add Obj.selvedgeOverruns 1).log_of_no_attention (severity := 2) (code := 0x004C) 5 0xFF
    (stopRouter (m.dst.getD m.src / 16) (m.dst.getD m.src % 16)) 0xFFFF m.latencyNs (by decide) (by decide)
  refine ⟨x, os, ?_, hx⟩
  have hsent : s.sent ++ .selvedge m :: os = ((s.selvedgeDeliver m).add Obj.selvedgeOverruns 1).sent ++ os := by
    simp [Work.selvedgeDeliver, Work.raise, Work.selvedgeCredit]
  rw [hsent]
  exact (if_neg h).trans hlog

theorem exec_selvedgeMessage {s : State} {m : SelvedgeMsg} (hsrc : m.src < 64) (hdst : m.dst.getD 0 < 64) :
    exec (.selvedgeMessage m) s = .next (s.run (fun w => w.selvedgeMessage m)) :=
  State.nextIf_true (by simp [hsrc, hdst])

/-- Late or not, a message is given out, and the credits and SELVEDGE_MAX are those of its delivery. -/
theorem Work.selvedgeMessage_delivers (s : Work) (m : SelvedgeMsg) :
    Output.selvedge m ∈ (s.selvedgeMessage m).sent ∧ (s.selvedgeMessage m).net = (s.selvedgeDeliver m).net ∧
      (s.selvedgeMessage m).get Obj.selvedgeMax = max (s.get Obj.selvedgeMax) (objValue Obj.selvedgeMax m.latencyNs) := by
  have hmax : (s.selvedgeDeliver m).get Obj.selvedgeMax = max (s.get Obj.selvedgeMax) (objValue Obj.selvedgeMax m.latencyNs) := by simp
  by_cases h : m.latencyNs ≤ s.selvedgeBoundNow
  · rw [Work.selvedgeMessage_of_le h]
    exact ⟨List.mem_append_right _ (List.mem_singleton.mpr rfl), rfl, hmax⟩
  · obtain ⟨x, os, hlate, -, -⟩ := Work.selvedgeMessage_of_gt h
    rw [hlate]
    refine ⟨List.mem_append_right _ List.mem_cons_self, rfl, ?_⟩
    exact ((s.selvedgeDeliver m).add_get Obj.selvedgeOverruns 1 Obj.selvedgeMax).trans ((if_neg (by decide)).trans hmax)

/-- A message within the bound changes the networks and SELVEDGE_MAX only. -/
theorem State.run_selvedgeMessage_frame_of_le {s : State} {m : SelvedgeMsg} (h : m.latencyNs ≤ s.work.selvedgeBoundNow) :
    s.frame (s.run (fun w => w.selvedgeMessage m)) [.net] (fun k => k = Obj.selvedgeMax) := by
  obtain ⟨net, objs, hdeliver⟩ := s.work.selvedgeDeliver_eq m
  have hwork : s.work.selvedgeMessage m = { s.work with net := net, objs := objs, sent := [.selvedge m] } :=
    (Work.selvedgeMessage_of_le h).trans hdeliver
  refine State.run_frame_local (by simp [hwork]) ?_ ?_
  · exact fun p hp => State.same_worked_of_net_rel hwork (by rintro rfl; simp at hp) (fun _ => rfl)
  · intro k hk
    rw [Work.selvedgeMessage_of_le h, Work.selvedgeDeliver_get, if_neg (Ne.symm hk)]
    rfl

/-- A message past the bound is counted and logged, and changes nothing besides but the links that carry its record. -/
theorem State.run_selvedgeMessage_of_gt {s : State} {m : SelvedgeMsg} (h : ¬ m.latencyNs ≤ s.work.selvedgeBoundNow) :
    s.counted (s.run (fun w => w.selvedgeMessage m)) Obj.selvedgeOverruns 1 ∧
      (∃ x, (s.run (fun w => w.selvedgeMessage m)).dev.rel.pendingLog = s.dev.rel.pendingLog ++ [x] ∧ x.code = 0x004C ∧ x.severity = 2) ∧
      s.frame (s.run (fun w => w.selvedgeMessage m)) [.net, .rel, .links]
        (fun k => k = Obj.selvedgeMax ∨ k = Obj.selvedgeOverruns ∨ linkCounter k) := by
  obtain ⟨x, os, hlate, hcode, hsev⟩ := Work.selvedgeMessage_of_gt h
  obtain ⟨net, objs, hdeliver⟩ := s.work.selvedgeDeliver_eq m
  have hget : ∀ k, (s.work.selvedgeMessage m).get k = ((s.work.selvedgeDeliver m).add Obj.selvedgeOverruns 1).get k := fun k => by rw [hlate]; rfl
  refine ⟨State.run_counted (by simp [linkCounter]) ?_, ⟨x, ?_, hcode, hsev⟩,
    State.run_frame_links (by simp) (fun k hk => .inr (.inr hk)) ?_ ?_⟩
  · intro hlt
    simp only [hget, Work.add_get, Work.selvedgeDeliver_get, if_true, show Obj.selvedgeMax ≠ Obj.selvedgeOverruns by decide, if_false]
    exact countPast_of_lt hlt
  · rw [State.run_rel, hlate]
    rfl
  · rw [hdeliver] at hlate
    exact fun p hp => State.same_worked_of_net_rel hlate (by rintro rfl; simp at hp) (by rintro rfl; simp at hp)
  · intro k hk
    simp only [not_or] at hk
    obtain ⟨hmax, hover, -⟩ := hk
    rw [hget, Work.add_get, if_neg (Ne.symm hover), Work.selvedgeDeliver_get, if_neg (Ne.symm hmax)]
    rfl

/-- Settles O13: a transfer is carried by four counts or joins those that wait; a Selvedge message is delivered, and past the bound it is
counted and logged besides. -/
theorem networksCarryTransfersAndMessages : Obligations.NetworksCarryTransfersAndMessages := by
  unfold Obligations.NetworksCarryTransfersAndMessages
  refine ⟨fun s m hsrc hdst => ?_, fun s m hsrc hdst => ⟨_, exec_selvedgeMessage hsrc hdst, ?_⟩⟩
  · by_cases hopen : s.work.canCarry m = true
    · refine ⟨_, exec_bulkMeshTransfer_of_canCarry hsrc hdst hopen, ?_⟩
      rw [if_pos hopen]
      exact ⟨⟨meshPlaneOf m, meshPlaneOf_lt m, State.run_counted (by simp [linkCounter]) (s.work.carry_counts_plane m), s.run_carry_frame m⟩,
        State.run_counted (by simp [linkCounter]) (s.work.carry_counts_poison m),
        State.run_counted (by simp [linkCounter]) (s.work.carry_counts_seamWe m),
        State.run_counted (by simp [linkCounter]) (s.work.carry_counts_seamEw m)⟩
    · refine ⟨_, exec_bulkMeshTransfer_of_not_canCarry hsrc hdst hopen, ?_⟩
      rw [if_neg hopen]
      exact ⟨by rw [State.run_net], s.run_wait_frame _⟩
  · obtain ⟨hsent, hnet, hmax⟩ := s.work.selvedgeMessage_delivers m
    refine ⟨State.mem_drop_run_out hsent, (s.run_val _ _ (by simp [linkCounter])).trans hmax, ?_, ?_⟩
    · rw [State.run_net, hnet]
      exact s.work.selvedgeDeliver_flight m
    · change if m.latencyNs ≤ s.work.selvedgeBoundNow then _ else _
      by_cases hbound : m.latencyNs ≤ s.work.selvedgeBoundNow
      · rw [if_pos hbound]
        exact State.run_selvedgeMessage_frame_of_le hbound
      · rw [if_neg hbound]
        exact State.run_selvedgeMessage_of_gt hbound

end Sys2Proof.Machine
end

section
/-! SUPPORT. Commands complete: a well-formed command that names units the module has passes the check of its units. -/

namespace Sys2Proof.Machine

/-- Settles O1: both clauses are the equations of `step`. -/
theorem stepRunsTheFrontCommand : Obligations.StepRunsTheFrontCommand := by
  unfold Obligations.StepRunsTheFrontCommand
  refine ⟨fun s c rest h => ?_, fun s h => ?_⟩ <;> simp only [step, h]

/-- No command is refused: each runs its work or names a unit that is not there. -/
theorem exec_ne_refused (c : Instr) (s : State) (x : Refusal) : exec c s ≠ .refused x := by
  obtain ⟨present, f, h⟩ := exec_eq_nextIf c s
  rw [h]
  exact State.nextIf_ne_refused s present f x

theorem nextIf_completes {s : State} {present : Bool} {f : Work → Work} (h : present = true) : ∃ t, s.nextIf present f = .next t :=
  ⟨s.run f, State.nextIf_true h⟩

theorem arrayExists_of_wf {a : Nat} (h : arrayWf a = true) : arrayExists a = true := h

/-- A well-formed command that names units the module has passes its check: its operands give the numbers' ranges, and the state the units. -/
theorem exec_completes (c : Instr) (s : State) (hwf : c.wf = true) (hunits : unitsPresent c s) : ∃ t, exec c s = .next t := by
  cases c with
  | go | abandon | doneClear  => 
    refine nextIf_completes (f := _) ?_
    simp_all [Instr.wf, unitsPresent, FnWin.wf, winOk]
  | engineMvmStart | phaseWindowEnd | goldenReadReturn | recomputeComplete | epilogue | arbitration | arbTimeout | shadowSampleJudged =>
    refine nextIf_completes (f := _) ?_
    simp_all [Instr.wf, unitsPresent, WindowEnd.wf, GoldenReturn.wf, ArbitrationIn.wf, ShadowJudged.wf]
  | bulkMeshTransfer | submit | cancel | deltaFetchDone | scrubRead | testDue | testComplete | testOverdue | coreRecoveryReset | islandStop
  | islandDrainComplete | islandRestart | cqHead | cqIrqTimer =>
    refine nextIf_completes (f := _) ?_
    simp_all [Instr.wf, unitsPresent, fits]
  | sliceCalibrationComplete | sliceAdjustStep | sentinelConverterCal | rowSideCal | trimApply | calibrationMvm
  | baselineRecord | facetProgramStart | facetProgramDone =>
    refine nextIf_completes (f := _) ?_
    simp_all [Instr.wf, ProgramResult.wf, arrayExists_of_wf]
  | selvedgeMessage | draft | drainDeadline | promptFetchDone | masks 
  | linkTrainingDone | linkRetrainTimer | laneLockLoss | flitTimeout | dataFlit | nullFlit | nak | linkLatencyMeasure | probe | loadData
  | dmaSlotStart | dmaHalf | dmaSlotEnd | hostReadError | linkUp | portReset | functionLevelReset | vfEnableChange
  | perstRelease | refreshBandChange 
  | thermalCrossing | graceExpiry | skipStepTick | divideAfterExpiry | thermalShutdown | supplyFault 
  | hkRound | hkConversion | urgentConversion | urgentResult | calSwap | cableInsert | cableRemove
  | dynamicAddressAssignment => 
    refine nextIf_completes (f := _) ?_
    simp_all [Instr.wf, opWf, SelvedgeMsg.wf, fits]
  | _ => exact ⟨_, rfl⟩

/-- Settles O5: a command that passes its check of units runs, and none is refused. -/
theorem wellFormedCommandsComplete : Obligations.WellFormedCommandsComplete := by
  unfold Obligations.WellFormedCommandsComplete
  exact ⟨exec_completes, exec_ne_refused⟩

end Sys2Proof.Machine
end

section
/-! SUPPORT. What taking a request changes, and that what the server reads of a state is the same after it. -/

namespace Sys2Proof.Machine

/-- The work with the function windows and the round of service as given: all that taking a request changes (R60, R68). -/
def Work.atTurn (s : Work) (ws : List (FnWin × Window)) (p : Nat) (f : Nat × Nat) : Work :=
  s.modDict (fun d => { d with windows := ws, servedPath := p, servedFns := f })

section
variable (s : Work) (ws : List (FnWin × Window)) (p : Nat) (f : Nat × Nat) (o : Origin) (k : Key) (r : Req) (v : Nat) (row : Row)

@[simp] theorem Work.atTurn_lookup : (s.atTurn ws p f).lookup r = s.lookup r := rfl
@[simp] theorem Work.atTurn_readState : (s.atTurn ws p f).readState v = s.readState v := rfl
@[simp] theorem Work.atTurn_readValue : (s.atTurn ws p f).readValue o row k = s.readValue o row k := rfl
@[simp] theorem Work.atTurn_readDomain : (s.atTurn ws p f).readDomain o k = s.readDomain o k := rfl
@[simp] theorem Work.atTurn_writeRefused : (s.atTurn ws p f).writeRefused o row = s.writeRefused o row := rfl
@[simp] theorem Work.atTurn_valueRefused : (s.atTurn ws p f).valueRefused o k v = s.valueRefused o k v := rfl
@[simp] theorem Work.atTurn_sessionFree (q : Path) : (s.atTurn ws p f).sessionFree q = s.sessionFree q := rfl
@[simp] theorem Work.atTurn_resting : (s.atTurn ws p f).resting v = s.resting v := rfl
@[simp] theorem Work.atTurn_argOk : (s.atTurn ws p f).argOk row k v = s.argOk row k v := rfl
@[simp] theorem Work.atTurn_cmdBusy : (s.atTurn ws p f).cmdBusy k = s.cmdBusy k := rfl
@[simp] theorem Work.atTurn_staysBehind : (s.atTurn ws p f).staysBehind v r = s.staysBehind v r := rfl
@[simp] theorem Work.atTurn_ownDevice : (s.atTurn ws p f).ownDevice = s.ownDevice := rfl
@[simp] theorem Work.atTurn_boot : (s.atTurn ws p f).boot = s.boot := rfl
@[simp] theorem Work.atTurn_persist : (s.atTurn ws p f).dict.persist = s.dict.persist := rfl

/-- A caller's turn changes the round alone. -/
theorem Work.atTurn_tookTurn : ∃ p' f', (s.atTurn ws p f).tookTurn o = s.atTurn ws p' f' := ⟨_, _, rfl⟩

theorem Work.setWindow_eq_atTurn (w : FnWin) (x : Window) :
    s.setWindow w x = s.atTurn (put s.dict.windows w x) s.dict.servedPath s.dict.servedFns := rfl
end

/-! ## A request as it is served -/

/-- A request is served as it came, but for its TENANT. -/
theorem seen_eq (op : Nat) (r : Req) : ∃ t, seen op r = { r with tenant := t } := by
  unfold seen
  split
  · split
    · exact ⟨r.tenant, rfl⟩
    · exact ⟨_, rfl⟩
  · exact ⟨r.tenant, rfl⟩

section
variable (op : Nat) (r : Req)

@[simp] theorem seen_origin : (seen op r).origin = r.origin := by obtain ⟨t, h⟩ := seen_eq op r; rw [h]
@[simp] theorem seen_target : (seen op r).target = r.target := by obtain ⟨t, h⟩ := seen_eq op r; rw [h]
@[simp] theorem seen_flags : (seen op r).flags = r.flags := by obtain ⟨t, h⟩ := seen_eq op r; rw [h]
@[simp] theorem seen_index : (seen op r).index = r.index := by obtain ⟨t, h⟩ := seen_eq op r; rw [h]
@[simp] theorem seen_sub : (seen op r).sub = r.sub := by obtain ⟨t, h⟩ := seen_eq op r; rw [h]
@[simp] theorem seen_rsv7 : (seen op r).rsv7 = r.rsv7 := by obtain ⟨t, h⟩ := seen_eq op r; rw [h]
@[simp] theorem seen_tenantHi : (seen op r).tenantHi = r.tenantHi := by obtain ⟨t, h⟩ := seen_eq op r; rw [h]
@[simp] theorem seen_arg : (seen op r).arg = r.arg := by obtain ⟨t, h⟩ := seen_eq op r; rw [h]
@[simp] theorem seen_payload : (seen op r).payload = r.payload := by obtain ⟨t, h⟩ := seen_eq op r; rw [h]

/-- The handle of a session operation is left alone. -/
theorem seen_of_sessionOp {op : Nat} (h : sessionOp op = true) : seen op r = r := by
  unfold seen
  split
  · exact if_pos h
  · rfl

theorem seen_of_not_tenant {r : Req} (h : originTenant r.origin = none) : seen op r = r := by
  unfold seen
  rw [h]
end

/-! ## From a request to its operation -/

/-- The operation of an opcode, its header once checked (R51). -/
def Work.serveOp (s : Work) (op : Nat) (r : Req) : Work :=
  if op = 1 then s.serveRead r
  else if op = 2 then s.serveWrite r
  else if op = 3 then s.serveDescribe r
  else if op = 4 then s.serveNext r
  else if op = 0x10 then s.serveOpenRead r
  else if op = 0x11 then s.serveOpenWrite r
  else s.serveSession op r

section
variable {s : State} {op : Nat} {r : Req}

/-- A request that the dictionary takes passes the checks of its header. -/
theorem State.takes.serveHere_eq (h : s.takes op r) (hop : dictOpcodes.contains op = true) (w : Work) :
    w.serveHere op (seen op r) = w.serveOp op (seen op r) := by
  refine if_neg ?_
  simp only [seen_flags, seen_rsv7, seen_tenantHi, seen_arg, hop, h.flags, h.rsv, Bool.not_true, ne_eq, not_true_eq_false, false_or, not_or,
    not_and, not_not, Bool.false_eq_true, Bool.not_eq_true']
  exact ⟨h.high, h.arg⟩

theorem State.takes.serveReq_eq (h : s.takes op r) (hop : dictOpcodes.contains op = true) (ws : List (FnWin × Window)) (p : Nat) (f : Nat × Nat) :
    (s.work.atTurn ws p f).serveReq op r = (s.work.atTurn ws p f).serveOp op (seen op r) := by
  have hhere : (seen op r).target = 254 ∨ (seen op r).target = (s.work.atTurn ws p f).ownDevice := by simpa using h.here
  exact (if_pos hhere).trans (h.serveHere_eq hop _)

theorem State.takes.serveOrHold_eq (h : s.takes op r) (hop : dictOpcodes.contains op = true) (ws : List (FnWin × Window)) (p : Nat) (f : Nat × Nat) :
    ∃ p' f', (s.work.atTurn ws p f).serveOrHold op r = (s.work.atTurn ws p' f').serveOp op (seen op r) := by
  obtain ⟨p', f', hturn⟩ := Work.atTurn_tookTurn s.work ws p f r.origin
  refine ⟨p', f', ?_⟩
  rw [← h.serveReq_eq hop, ← hturn]
  refine if_pos ⟨.inl h.ready, ?_⟩
  rw [Work.atTurn_staysBehind, h.turn]
  rfl

theorem State.takes.acceptReq_eq (h : s.takes op r) (hop : dictOpcodes.contains op = true) :
    ∃ ws p f, s.work.acceptReq op r = (s.work.atTurn ws p f).serveOp op (seen op r) := by
  have hfree := h.free
  simp only [Work.acceptReq, h.reaches, Bool.not_true, Bool.false_eq_true, if_false]
  cases hw : originWindow r.origin with
  | none =>
    obtain ⟨p, f, hserve⟩ := h.serveOrHold_eq hop s.work.dict.windows s.work.dict.servedPath s.work.dict.servedFns
    exact ⟨_, p, f, hserve⟩
  | some w =>
    simp only [hfree w hw, Bool.false_eq_true, if_false, Work.setWindow_eq_atTurn]
    obtain ⟨p, f, hserve⟩ := h.serveOrHold_eq hop _ _ _
    exact ⟨_, p, f, hserve⟩

/-- A command is the row of a request: what it does is to start the request. -/
def requestRow (c : Instr) (op : Nat) (r : Req) : Prop := ∀ s : State, exec c s = s.next (fun w => w.acceptReq op r)

/-- The row of a request that the dictionary takes ends as the request's operation does. -/
theorem State.takes.exec_eq (h : s.takes op r) (hop : dictOpcodes.contains op = true) {c : Instr} (hc : requestRow c op r) :
    ∃ ws p f, exec c s = .next (s.run (fun _ => (s.work.atTurn ws p f).serveOp op (seen op r))) := by
  obtain ⟨ws, p, f, h⟩ := h.acceptReq_eq hop
  exact ⟨ws, p, f, (hc s).trans (congrArg Host.Outcome.next (State.run_congr h))⟩
end

end Sys2Proof.Machine
end

section
/-! SUPPORT. Answers: what a work keeps of the state it began with, what a response adds to it, and the outcome of a command that ends
with a response. -/

namespace Sys2Proof.Machine

/-! ## What a work keeps -/

/-- A work has changed at most the parts listed and the values of the objects listed. -/
def State.keeps (s : State) (w : Work) (parts : List StatePart) (keys : Key → Prop) : Prop :=
  (∀ p, p ∉ parts → s.same (s.worked (fun _ => w)) p) ∧ ∀ k, ¬ keys k → w.get k = s.val k

section
variable {s : State} {w : Work} {parts : List StatePart} {keys : Key → Prop}

theorem State.keeps_work (s : State) (parts : List StatePart) (keys : Key → Prop) : s.keeps s.work parts keys :=
  ⟨fun p _ => State.same_of_eq rfl rfl p, fun _ _ => rfl⟩

theorem State.keeps.modDict (h : s.keeps w parts keys) (hdict : StatePart.dict ∈ parts) (f : DictState → DictState) :
    s.keeps (w.modDict f) parts keys := by
  refine ⟨fun p hp => ?_, h.2⟩
  cases p with
  | dict => exact absurd hdict hp
  | _ => exact h.1 _ hp

/-- Setting a listed object changes nothing besides. -/
theorem State.keeps.set (h : s.keeps w parts keys) {k : Key} (hk : keys k) (v : Nat) : s.keeps (w.set k v) parts keys := by
  refine ⟨fun p hp => ?_, fun q hq => ?_⟩
  · cases p with
    | _ => exact h.1 _ hp
  · rw [Work.set_get, if_neg (by rintro rfl; exact hq hk)]
    exact h.2 q hq

theorem State.keeps.add (h : s.keeps w parts keys) {k : Key} (hk : keys k) (n : Nat) : s.keeps (w.add k n) parts keys := h.set hk _

/-- What is sent, and the count of free values, are no part of the state. -/
theorem State.keeps.sent (h : s.keeps w parts keys) (os : List Output) : s.keeps { w with sent := os } parts keys := by
  refine ⟨fun p hp => ?_, h.2⟩
  cases p with
  | _ => exact h.1 _ hp

theorem State.keeps.free (h : s.keeps w parts keys) (n : Nat) : s.keeps { w with free := n } parts keys := by
  refine ⟨fun p hp => ?_, h.2⟩
  cases p with
  | _ => exact h.1 _ hp

theorem State.keeps_atTurn (hdict : StatePart.dict ∈ parts) (ws : List (FnWin × Window)) (p : Nat) (f : Nat × Nat) :
    s.keeps (s.work.atTurn ws p f) parts keys := (s.keeps_work parts keys).modDict hdict _

theorem State.keeps.frame {f : Work → Work} (h : s.keeps (f s.work) parts keys) (hlinks : StatePart.links ∈ parts)
    (hcounters : ∀ k, linkCounter k → keys k) : s.frame (s.run f) parts keys := State.run_frame_links hlinks hcounters h.1 h.2

theorem State.keeps.frame_local {f : Work → Work} (h : s.keeps (f s.work) parts keys)
    (hlocal : ∀ dst link m, Output.fabric dst link m ∉ (f s.work).sent) : s.frame (s.run f) parts keys :=
  State.run_frame_local hlocal h.1 h.2
end

/-! ## The next state's parts -/

theorem State.run_dict (s : State) (f : Work → Work) : (s.run f).dev.dict = (f s.work).dict := by
  obtain ⟨ls, n, os, h⟩ := s.run_dev_eq f
  rw [h]

theorem State.run_domBytes (s : State) (f : Work → Work) (k : Key) : (s.run f).domBytes k = ((f s.work).dom k).bytes := by
  obtain ⟨ls, n, os, h⟩ := s.run_dev_eq f
  simp only [State.domBytes, Work.dom, State.work_toDev, h]

/-! ## Responses (R50, R60, R74) -/

@[simp] theorem Work.doneIrq_get (s : Work) (o : Origin) (k : Key) : (s.doneIrq o).get k = s.get k := by
  obtain ⟨os, -, h⟩ := s.doneIrq_spec o
  rw [h]
  rfl

section
variable (s : Work) (device op : Nat) (r : Req) (status detail : Nat) (payload : List Byte)

/-- A response moves the two counts of requests only. -/
theorem Work.respondFrom_get (k : Key) :
    (s.respondFrom device op r status detail payload).get k =
      (if status = 0 then s.add Obj.requestsServed 1 else (s.add Obj.requestsServed 1).add Obj.requestsRefused 1).get k := by
  unfold Work.respondFrom
  dsimp only
  generalize (if status = 0 then s.add Obj.requestsServed 1 else (s.add Obj.requestsServed 1).add Obj.requestsRefused 1) = w
  split
  · rfl
  · rw [Work.doneIrq_get, Work.send_get]
    split <;> rfl

theorem Work.respondFrom_get_of_ne {k : Key} (hserved : k ≠ Obj.requestsServed) (hrefused : status = 0 ∨ k ≠ Obj.requestsRefused) :
    (s.respondFrom device op r status detail payload).get k = s.get k := by
  rw [Work.respondFrom_get]
  split
  · rw [Work.add_get, if_neg hserved.symm]
  · rw [Work.add_get, if_neg (hrefused.resolve_left ‹_›).symm, Work.add_get, if_neg hserved.symm]

/-- A response changes objects, the function windows and what is sent, and nothing else. -/
theorem Work.respondFrom_eq : ∃ objs windows os,
    s.respondFrom device op r status detail payload = { s with objs := objs, dict := { s.dict with windows := windows }, sent := os } := by
  obtain ⟨objs, windows, os, h, -⟩ := s.respondFrom_spec device op r status detail payload
  exact ⟨_, _, _, h⟩

@[simp] theorem Work.respond_get_of_ok (k : Key) :
    (s.respond op r 0 detail payload).get k = if Obj.requestsServed = k then countPast k (s.get k + 1) else s.get k := by
  rw [Work.respond, Work.respondFrom_get, if_pos rfl, Work.add_get]
  by_cases h : Obj.requestsServed = k
  · rw [h]
  · rw [if_neg h, if_neg h]

@[simp] theorem Work.respond_dom (k : Key) : (s.respond op r status detail payload).dom k = s.dom k := by
  obtain ⟨objs, windows, os, h⟩ := s.respondFrom_eq s.ownDevice op r status detail payload
  rw [Work.respond, h]
  rfl

@[simp] theorem Work.respond_sessions : (s.respond op r status detail payload).dict.sessions = s.dict.sessions := by
  obtain ⟨objs, windows, os, h⟩ := s.respondFrom_eq s.ownDevice op r status detail payload
  rw [Work.respond, h]

@[simp] theorem Work.respond_persist : (s.respond op r status detail payload).dict.persist = s.dict.persist := by
  obtain ⟨objs, windows, os, h⟩ := s.respondFrom_eq s.ownDevice op r status detail payload
  rw [Work.respond, h]

/-- A response off the fabric is given out as it is, and raises at most a vector besides. -/
theorem Work.respondFrom_sent_of_local (hpath : r.origin.path ≠ .fabric) : ∃ os, vectorsOnly os ∧
    (s.respondFrom device op r status detail payload).sent =
      s.sent ++ .response r.origin (op ||| 0x80) r.tag device status r.index r.sub (reqWord9 r) detail payload :: os := by
  obtain ⟨objs, windows, os, h, hv, -⟩ := s.respondFrom_spec device op r status detail payload
  refine ⟨os, hv, ?_⟩
  rw [h, if_neg hpath]

theorem Work.respondFrom_sent_of_fabric (hpath : r.origin.path = .fabric) :
    (s.respondFrom device op r status detail payload).sent =
      s.sent ++ [.fabric (some 0) none (.dictResponse (op ||| 0x80) r.tag status detail payload)] := by
  obtain ⟨objs, windows, os, h, -⟩ := s.respondFrom_spec device op r status detail payload
  rw [h, if_pos hpath]
end

section
variable {s : State} {w : Work} {parts : List StatePart} {keys : Key → Prop} {op : Nat} {r : Req} {status detail : Nat} {payload : List Byte}

theorem State.keeps.respondFrom (h : s.keeps w parts keys) (hdict : StatePart.dict ∈ parts) (hserved : keys Obj.requestsServed)
    (hrefused : status = 0 ∨ keys Obj.requestsRefused) (device : Nat) :
    s.keeps (w.respondFrom device op r status detail payload) parts keys := by
  refine ⟨fun p hp => ?_, fun k hk => ?_⟩
  · obtain ⟨objs, windows, os, e⟩ := w.respondFrom_eq device op r status detail payload
    rw [e]
    cases p with
    | dict => exact absurd hdict hp
    | _ => exact h.1 _ hp
  · rw [Work.respondFrom_get_of_ne]
    · exact h.2 k hk
    · rintro rfl
      exact hk hserved
    · exact hrefused.imp_right (by rintro hr rfl; exact hk hr)

/-- A response of the device is its answer, as long as its ID is the one it had. -/
theorem State.answer_mem_respond (hdev : w.get Obj.deviceId = s.val Obj.deviceId) :
    s.answer op r status detail payload ∈ (w.respond op r status detail payload).sent := by
  have hown : w.ownDevice = s.work.ownDevice := hdev
  unfold State.answer
  split
  case h_1 hpath =>
    rw [Work.respond, Work.respondFrom_sent_of_fabric _ _ _ _ _ _ _ hpath]
    exact List.mem_append_right _ (List.mem_singleton.mpr rfl)
  case h_2 hpath =>
    obtain ⟨os, -, h⟩ := w.respondFrom_sent_of_local w.ownDevice op r status detail payload (fun h => hpath h)
    rw [Work.respond, h, hown]
    exact List.mem_append_right _ List.mem_cons_self

/-- A command that ends with a response gives the answer out. -/
theorem State.answer_mem_run {f : Work → Work} (hf : f s.work = w.respond op r status detail payload)
    (hdev : w.get Obj.deviceId = s.val Obj.deviceId) :
    s.answer op r status detail payload ∈ (s.run f).out.drop s.out.length :=
  State.mem_drop_run_out (hf ▸ State.answer_mem_respond hdev)

/-- What a command that ends with a response leaves as it was. -/
theorem State.keeps.frame_respond (h : s.keeps w parts keys) {f : Work → Work} (hf : f s.work = w.respond op r status detail payload)
    (hdict : StatePart.dict ∈ parts) (hlinks : StatePart.links ∈ parts) (hanswer : ∀ k, answerKey k → keys k)
    (hrefused : status = 0 ∨ keys Obj.requestsRefused) : s.frame (s.run f) parts keys := by
  refine State.keeps.frame ?_ hlinks (fun k hk => hanswer k (.inr hk))
  rw [hf]
  exact h.respondFrom hdict (hanswer _ (.inl rfl)) hrefused _

/-- A request that is answered as it is found: the answer is given out, and nothing changes but its counts, the windows and the links. -/
theorem State.takes.answered (h : s.takes op r) (hop : dictOpcodes.contains op = true) {c : Instr} (hc : requestRow c op r)
    (hserve : ∀ ws p f, (s.work.atTurn ws p f).serveOp op (seen op r) = (s.work.atTurn ws p f).respond op (seen op r) status detail payload)
    (hanswer : ∀ k, answerKey k → keys k) (hrefused : status = 0 ∨ keys Obj.requestsRefused) :
    ∃ t, exec c s = .next t ∧ s.answer op (seen op r) status detail payload ∈ t.out.drop s.out.length ∧ s.frame t [.dict, .links] keys := by
  obtain ⟨ws, p, f, hexec⟩ := h.exec_eq hop hc
  refine ⟨_, hexec, State.answer_mem_run (hserve ws p f) rfl, ?_⟩
  exact (State.keeps_atTurn (by simp) ws p f).frame_respond (hserve ws p f) (by simp) (by simp) hanswer hrefused

/-- A request that is refused as it is found, by any operation. -/
theorem State.takes.refused (h : s.takes op r) (hop : dictOpcodes.contains op = true) {c : Instr} (hc : requestRow c op r) (x : Refused)
    (hserve : ∀ ws p f, (s.work.atTurn ws p f).serveOp op (seen op r) = (s.work.atTurn ws p f).refuseReq op (seen op r) x) :
    ∃ t, exec c s = .next t ∧ s.refusedWith t op r x.1 x.2 ∧ s.frame t [.dict, .links] (fun k => answerKey k ∨ k = Obj.requestsRefused) :=
  h.answered hop hc hserve (fun _ => .inl) (.inr (.inr rfl))
end

end Sys2Proof.Machine
end

section
/-! SUPPORT. The object tables: the rows are disjoint, so a name finds its one row; and NEXT over them (R42, R52, R54). -/

namespace Sys2Proof.Machine

/-! ## The tables -/

/-- A row's objects stand before another's, each row's sub-indices rising. -/
def rowBefore (a b : Row) : Prop := 256 * a.index + a.subHi < 256 * b.index + b.subLo ∧ b.subLo ≤ b.subHi

theorem rowBefore_trans {a b c : Row} (hab : rowBefore a b) (hbc : rowBefore b c) : rowBefore a c := by
  simp only [rowBefore] at *
  omega

/-- In index order, each row of the tables ends before the next begins. -/
theorem rows_isChain : (Catalogue.rows.insertionSort (fun a b => a.index ≤ b.index)).IsChain rowBefore := by
  unfold rowBefore
  decide +kernel

/-- Names fit their fields (R42). -/
theorem rows_bounds : ∀ row ∈ Catalogue.rows, row.subLo ≤ row.subHi ∧ row.subHi < 256 ∧ row.index < 0xE000 := by decide +kernel

/-- No two rows share an object. -/
theorem row_unique {a b : Row} (ha : a ∈ Catalogue.rows) (hb : b ∈ Catalogue.rows) (hindex : a.index = b.index) {sub : Nat}
    (hasub : a.subLo ≤ sub ∧ sub ≤ a.subHi) (hbsub : b.subLo ≤ sub ∧ sub ≤ b.subHi) : a = b := by
  have : Trans rowBefore rowBefore rowBefore := ⟨rowBefore_trans⟩
  have hpair : (Catalogue.rows.insertionSort (fun a b => a.index ≤ b.index)).Pairwise (fun a b => rowBefore a b ∨ rowBefore b a) :=
    (List.isChain_iff_pairwise.mp rows_isChain).imp .inl
  have : Std.Symm (fun a b => rowBefore a b ∨ rowBefore b a) := ⟨fun _ _ => Or.symm⟩
  have hmem : ∀ {x : Row}, x ∈ Catalogue.rows → x ∈ Catalogue.rows.insertionSort (fun a b => a.index ≤ b.index) :=
    (List.mem_insertionSort _).mpr
  by_contra hne
  rcases hpair.forall (hmem ha) (hmem hb) hne with h | h <;> simp only [rowBefore] at h <;> omega

/-- A name finds the one row that holds it. -/
theorem findRow_eq_some_iff {index sub : Nat} {row : Row} :
    findRow index sub = some row ↔ row ∈ Catalogue.rows ∧ row.index = index ∧ row.subLo ≤ sub ∧ sub ≤ row.subHi := by
  have hfound : ∀ {x : Row}, findRow index sub = some x → x ∈ Catalogue.rows ∧ x.index = index ∧ x.subLo ≤ sub ∧ sub ≤ x.subHi := by
    intro x h
    exact ⟨List.mem_of_find?_eq_some h, by simpa [and_assoc] using List.find?_some h⟩
  refine ⟨hfound, fun ⟨hmem, hindex, hlo, hhi⟩ => ?_⟩
  cases h : findRow index sub with
  | none => exact absurd (List.find?_eq_none.mp h row hmem) (by simp [hindex, hlo, hhi])
  | some x =>
    obtain ⟨hx, hxi, hxs⟩ := hfound h
    rw [row_unique hx hmem (hxi.trans hindex.symm) hxs ⟨hlo, hhi⟩]

/-! ## NEXT -/

section
variable {s : Work} {o : Origin} {after : Nat} {row : Row} {n sub : Nat}

/-- What a row gives NEXT is an object of the row after the given one that the caller sees. -/
theorem Work.nextIn_eq_some (h : s.nextIn o after row = some n) :
    ∃ sub, row.subLo ≤ sub ∧ sub ≤ row.subHi ∧ n = 256 * row.index + sub ∧ after < n ∧ s.visible o row sub = true := by
  simp only [Work.nextIn, Option.map_eq_some_iff] at h
  obtain ⟨sub, hfind, rfl⟩ := h
  obtain ⟨i, hi, rfl⟩ := List.mem_map.mp (List.mem_of_find?_eq_some hfind)
  have hp := List.find?_some hfind
  simp only [Bool.and_eq_true, decide_eq_true_eq] at hp
  have := List.mem_range.mp hi
  exact ⟨row.subLo + i, by omega, by omega, rfl, hp.1.1, hp.1.2⟩

/-- A row gives NEXT no later an object than any it could give. -/
theorem Work.nextIn_le (hlo : row.subLo ≤ sub) (hhi : sub ≤ row.subHi) (hafter : after < 256 * row.index + sub)
    (hsees : s.visible o row sub = true) (hstage : s.boot.stage ≠ 15) : ∃ n, s.nextIn o after row = some n ∧ n ≤ 256 * row.index + sub := by
  simp only [Work.nextIn, List.find?_map, Option.map_map, Option.map_eq_some_iff, exists_exists_and_eq_and]
  cases h : (List.range (row.subHi + 1 - row.subLo)).find? ((fun (sub : Nat) => decide (after < 256 * row.index + sub) && s.visible o row sub &&
      (s.boot.stage ≠ 15 || recoveryServes row.index sub)) ∘ (row.subLo + ·)) with
  | none =>
    have hsub : row.subLo + (sub - row.subLo) = sub := by omega
    refine absurd (List.find?_eq_none.mp h (sub - row.subLo) (List.mem_range.mpr (by omega))) ?_
    simp [hsub, hafter, hsees, hstage]
  | some i =>
    refine ⟨i, rfl, ?_⟩
    obtain ⟨-, -, hfirst⟩ := List.find?_range_eq_some.mp h
    by_contra hlate
    have hsub : row.subLo + (sub - row.subLo) = sub := by omega
    refine absurd (hfirst (sub - row.subLo) ?_) ?_
    · simp only [Function.comp_apply] at hlate
      omega
    · simp [hsub, hafter, hsees, hstage]

/-- The object that NEXT answers, or 0xFFFFFF past the last. -/
def Work.nextObject (s : Work) (o : Origin) (after : Nat) : Nat := (Catalogue.rows.filterMap (s.nextIn o after)).foldl min 0xFFFFFF

theorem foldl_min_le (l : List Nat) (a : Nat) : l.foldl min a ≤ a ∧ ∀ x ∈ l, l.foldl min a ≤ x := by
  induction l generalizing a with
  | nil => simp
  | cons y l ih =>
    obtain ⟨hle, hmem⟩ := ih (min a y)
    exact ⟨hle.trans (min_le_left a y), List.forall_mem_cons.mpr ⟨hle.trans (min_le_right a y), hmem⟩⟩

theorem foldl_min_mem (l : List Nat) (a : Nat) : l.foldl min a = a ∨ l.foldl min a ∈ l := by
  induction l generalizing a with
  | nil => exact .inl rfl
  | cons y l ih =>
    rcases ih (min a y) with h | h
    · rcases min_choice a y with hmin | hmin
      · exact .inl (h.trans hmin)
      · exact .inr (List.mem_cons.mpr (.inl (h.trans hmin)))
    · exact .inr (List.mem_cons_of_mem _ h)

/-- Between the given object and the one that NEXT answers the caller sees none. -/
theorem Work.not_visible_before_nextObject (hstage : s.boot.stage ≠ 15) {m : Nat} (hafter : after < m) (hm : m < s.nextObject o after)
    (hrow : findRow (m / 256) (m % 256) = some row) : s.visible o row (m % 256) = false := by
  obtain ⟨hmem, hindex, hlo, hhi⟩ := findRow_eq_some_iff.mp hrow
  have hname : 256 * row.index + m % 256 = m := by omega
  by_contra hsees
  obtain ⟨n, hn, hle⟩ := Work.nextIn_le (after := after) hlo hhi (by omega) (Bool.not_eq_false _ ▸ hsees) hstage
  have := (foldl_min_le (Catalogue.rows.filterMap (s.nextIn o after)) 0xFFFFFF).2 n (List.mem_filterMap.mpr ⟨row, hmem, hn⟩)
  simp only [Work.nextObject] at hm
  omega

/-- What NEXT answers, if an object at all, comes after the given one, and the caller sees it. -/
theorem Work.nextObject_visible (s : Work) (o : Origin) (after : Nat) : s.nextObject o after = 0xFFFFFF ∨
    (after < s.nextObject o after ∧
      ∃ row, findRow (s.nextObject o after / 256) (s.nextObject o after % 256) = some row ∧ s.visible o row (s.nextObject o after % 256) = true) := by
  refine (foldl_min_mem (Catalogue.rows.filterMap (s.nextIn o after)) 0xFFFFFF).imp id fun h => ?_
  obtain ⟨row, hmem, hnext⟩ := List.mem_filterMap.mp h
  obtain ⟨sub, hlo, hhi, hn, hafter, hsees⟩ := Work.nextIn_eq_some hnext
  obtain ⟨-, hbound, -⟩ := rows_bounds row hmem
  have hdiv : s.nextObject o after / 256 = row.index := by simp only [Work.nextObject, hn]; omega
  have hmod : s.nextObject o after % 256 = sub := by simp only [Work.nextObject, hn]; omega
  exact ⟨hafter, row, findRow_eq_some_iff.mpr ⟨hmem, hdiv.symm, hmod ▸ hlo, hmod ▸ hhi⟩, hmod ▸ hsees⟩
end

end Sys2Proof.Machine
end

section
/-! SUPPORT. READ, DESCRIBE and NEXT, and what a tenant's function does not see (R51, R52, R54). -/

namespace Sys2Proof.Machine

/-! ## The operations -/

section
variable {s : Work} {r : Req} {row : Row} {k : Key}

/-- An object of an island that runs is served at once (R20, R63). -/
theorem Work.atIsland_of_serves {op : Nat} {go : Work → Work}
    (h : servedBySeam r.index = true → s.islandCond 0xAC ≠ .gated ∧ s.islandCond 0xAC ≠ .stopped ∧ s.islandCond 0xAC ≠ .faulted) :
    s.atIsland op r go = go s := by
  unfold Work.atIsland
  cases hseam : servedBySeam r.index with
  | false => rfl
  | true =>
    obtain ⟨hgated, hstopped, hfaulted⟩ := h hseam
    cases hcond : s.islandCond 0xAC with
    | gated => exact absurd hcond hgated
    | stopped => exact absurd hcond hstopped
    | faulted => exact absurd hcond hfaulted
    | _ => rfl

theorem Work.serveRead_eq (hobj : s.lookup r = some (row, k)) (hwo : row.access ≠ .wo) (hdom : row.ty ≠ .domain) (hpower : s.readState r.index = none)
    (hpayload : r.payload = [])
    (hisland : servedBySeam r.index = true → s.islandCond 0xAC ≠ .gated ∧ s.islandCond 0xAC ≠ .stopped ∧ s.islandCond 0xAC ≠ .faulted) :
    s.serveRead r = s.respond 1 r 0 0 (s.readValue r.origin row k) := by
  simp [Work.serveRead, hobj, hwo, hdom, hpower, hpayload, Work.atIsland_of_serves hisland]

theorem Work.serveDescribe_eq (hobj : s.lookup r = some (row, k)) (hpayload : r.payload = []) :
    s.serveDescribe r = s.respond 3 r 0 0 (describeRow row k) := by
  simp [Work.serveDescribe, hobj, hpayload]

theorem Work.serveNext_eq (hpayload : r.payload = []) :
    s.serveNext r = s.respond 4 r 0 0
      (toLE 2 (s.nextObject r.origin (256 * r.index + r.sub) / 256) ++ toLE 1 (s.nextObject r.origin (256 * r.index + r.sub) % 256)) := by
  simp [Work.serveNext, hpayload, Work.nextObject]

/-- The operations that name an object. -/
def namesObject (op : Nat) : Prop := op = 1 ∨ op = 2 ∨ op = 3 ∨ op = 0x10 ∨ op = 0x11

/-- An object that is not there for the caller is NO_OBJECT to every operation that names one (R54). -/
theorem Work.serveOp_of_lookup_none {op : Nat} (hop : namesObject op) (hobj : s.lookup r = none) : s.serveOp op r = s.refuseReq op r (1, 0) := by
  rcases hop with rfl | rfl | rfl | rfl | rfl <;>
    simp [Work.serveOp, Work.serveRead, Work.serveWrite, Work.serveDescribe, Work.serveOpenRead, Work.serveOpenWrite, hobj]
end

theorem dictOpcodes_of_namesObject {op : Nat} (h : namesObject op) : dictOpcodes.contains op = true := by
  rcases h with rfl | rfl | rfl | rfl | rfl <;> decide

@[simp] theorem Work.atTurn_nextObject (s : Work) (ws : List (FnWin × Window)) (p : Nat) (f : Nat × Nat) (o : Origin) (after : Nat) :
    (s.atTurn ws p f).nextObject o after = s.nextObject o after := rfl

/-! ## The rows -/

section
variable {s : State} {r : Req} {row : Row} {k : Key}

theorem State.takes.refused_of_lookup_none {op : Nat} {c : Instr} (h : s.takes op r) (hop : namesObject op) (hc : requestRow c op r)
    (hobj : s.work.lookup (seen op r) = none) : ∃ t, exec c s = .next t ∧ s.refusedWith t op r 1 0 ∧
      s.frame t [.dict, .links] (fun x => answerKey x ∨ x = Obj.requestsRefused) :=
  h.refused (dictOpcodes_of_namesObject hop) hc (1, 0) fun _ _ _ => Work.serveOp_of_lookup_none hop hobj

/-- READ of a scalar that is there, as it is taken. -/
theorem State.serveOp_read_eq (hobj : s.work.lookup (seen 1 r) = some (row, k)) (hwo : row.access ≠ .wo) (hdom : row.ty ≠ .domain)
    (hpower : s.work.readState r.index = none) (hpayload : r.payload = []) (hisland : islandServes s r) (ws : List (FnWin × Window)) (p : Nat)
    (f : Nat × Nat) : (s.work.atTurn ws p f).serveOp 1 (seen 1 r) =
      (s.work.atTurn ws p f).respond 1 (seen 1 r) 0 0 (s.work.readValue r.origin row k) := by
  refine (Work.serveRead_eq (s := s.work.atTurn ws p f) hobj hwo hdom ?_ ?_ ?_).trans ?_
  · rwa [seen_index]
  · rwa [seen_payload]
  · rwa [seen_index]
  · rw [seen_origin, Work.atTurn_readValue]

/-- The answer to NEXT. -/
theorem State.takes.next_answered (h : s.takes 4 r) (hpayload : r.payload = []) : ∃ t, exec (.next r) s = .next t ∧
    s.answer 4 (seen 4 r) 0 0 (toLE 2 (s.work.nextObject r.origin (256 * r.index + r.sub) / 256) ++
      toLE 1 (s.work.nextObject r.origin (256 * r.index + r.sub) % 256)) ∈ t.out.drop s.out.length ∧ s.frame t [.dict, .links] answerKey := by
  refine h.answered (by decide) (fun _ => rfl) (fun ws p f => ?_) (fun _ => id) (.inl rfl)
  rw [show ∀ w : Work, w.serveOp 4 (seen 4 r) = w.serveNext (seen 4 r) from fun _ => rfl, Work.serveNext_eq (by simpa using hpayload)]
  simp

/-- What is not tenant-visible does not exist for a tenant's function. -/
theorem lookup_none_of_not_tenantVisible {w : Work} {op tenant : Nat} (ht : originTenant r.origin = some tenant)
    (hrow : ∀ row, findRow r.index r.sub = some row → row.tenantVisible = false) : w.lookup (seen op r) = none := by
  unfold Work.lookup
  rw [seen_index, seen_sub]
  cases h : findRow r.index r.sub with
  | none => rfl
  | some row => simp [Work.visible, ht, hrow row h]
end

/-- Settles O6: the equation of each operation gives its response, and NEXT's is the first object of the tables that the caller sees. -/
theorem readsDescribesAndNextsAreAnswered : Obligations.ReadsDescribesAndNextsAreAnswered := by
  unfold Obligations.ReadsDescribesAndNextsAreAnswered
  refine ⟨fun s r row k h hobj hwo hdom hpower hpayload hisland => ?_, fun s r row k h hobj hpayload => ?_, fun s r h hpayload => ?_,
    fun s r => ⟨fun h hobj => ?_, fun h hobj => ?_⟩⟩
  · exact h.answered (by decide) (fun _ => rfl) (State.serveOp_read_eq hobj hwo hdom hpower hpayload hisland) (fun _ => id) (.inl rfl)
  · refine h.answered (by decide) (fun _ => rfl) (fun ws p f => ?_) (fun _ => id) (.inl rfl)
    exact Work.serveDescribe_eq hobj (by simpa using hpayload)
  · obtain ⟨t, hexec, hanswer, hframe⟩ := h.next_answered hpayload
    have hstage : s.work.boot.stage ≠ 15 := fun h15 => absurd (h.ready.symm.trans h15) (by decide)
    exact ⟨t, _, hexec, hanswer, fun m hafter hm row => Work.not_visible_before_nextObject hstage hafter hm, Work.nextObject_visible .., hframe⟩
  · obtain ⟨t, hexec, hanswer, -⟩ := h.refused_of_lookup_none (c := .read r) (.inl rfl) (fun _ => rfl) hobj
    exact ⟨t, hexec, hanswer⟩
  · obtain ⟨t, hexec, hanswer, -⟩ := h.refused_of_lookup_none (c := .describe r) (.inr (.inr (.inl rfl))) (fun _ => rfl) hobj
    exact ⟨t, hexec, hanswer⟩

/-- Settles O7: the object is not there for the function, and NEXT answers an object it sees, which is tenant-visible. -/
theorem tenantsSeeOnlyTheirObjects : Obligations.TenantsSeeOnlyTheirObjects := by
  unfold Obligations.TenantsSeeOnlyTheirObjects
  refine fun s r tenant ht => ⟨fun hrow op c hop h => ?_, fun h hpayload => ?_⟩
  · have hobj : ∀ op, s.work.lookup (seen op r) = none := fun op => lookup_none_of_not_tenantVisible ht hrow
    rcases hop with ⟨rfl, rfl⟩ | ⟨rfl, rfl⟩ | ⟨rfl, rfl⟩ | ⟨rfl, rfl⟩ | ⟨rfl, rfl⟩ <;>
      exact h.refused_of_lookup_none (by simp [namesObject]) (fun _ => rfl) (hobj _)
  · obtain ⟨t, hexec, hanswer, -⟩ := h.next_answered hpayload
    refine ⟨t, _, hexec, hanswer, (s.work.nextObject_visible r.origin (256 * r.index + r.sub)).imp_right fun ⟨_, row, hrow, hsees⟩ => ?_⟩
    refine ⟨row, hrow, ?_⟩
    simp only [Work.visible, ht, Bool.and_eq_true] at hsees
    exact hsees.1

end Sys2Proof.Machine
end

section
/-! SUPPORT. WRITE: what a value that every check lets pass does, and the store of class P (R45, R47, R51). -/

namespace Sys2Proof.Machine

/-! ## The row of an object -/

theorem keyFor_eq (row : Row) (sub tenant : Nat) : ∃ t, keyFor row sub tenant = ⟨row.index, sub, t⟩ := by
  unfold keyFor
  split
  · exact ⟨tenant, rfl⟩
  · exact ⟨0, rfl⟩

/-- The object that a request names is one of its row. -/
theorem Work.lookup_row {s : Work} {r : Req} {row : Row} {k : Key} (h : s.lookup r = some (row, k)) :
    findRow r.index r.sub = some row ∧ k.index = r.index ∧ k.sub = r.sub := by
  unfold Work.lookup at h
  split at h
  · cases h
  · rename_i x hx
    dsimp only at h
    obtain ⟨t, hkey⟩ := keyFor_eq x r.sub r.tenant
    obtain ⟨-, hindex, -⟩ := findRow_eq_some_iff.mp hx
    rw [hkey] at h
    split_ifs at h
    cases h
    exact ⟨hx, hindex, rfl⟩

/-- The access of the object that a key names, if it names one. -/
def accessOf (k : Key) : Option Access := (findRow k.index k.sub).map (·.access)

theorem accessOf_requestsServed : accessOf Obj.requestsServed = some .ro := by decide +kernel
theorem accessOf_deviceId : accessOf Obj.deviceId = some .ro := by decide +kernel

/-- The counters of a link are read-only or cleared by writing 1. -/
theorem rows_linkCounter : ∀ row ∈ Catalogue.rows, row.index = 0x8204 ∨ row.index = 0x820A ∨ row.index = 0x8209 →
    row.access = .ro ∨ row.access = .w1c := by decide +kernel

section
variable {s : State} {r : Req} {row : Row} {k : Key} {v : Nat} {c : Instr}

theorem State.grants.accessOf_eq (h : s.grants r row k v) : accessOf k = some row.access := by
  obtain ⟨hrow, hindex, hsub⟩ := Work.lookup_row h.object
  rw [accessOf, hindex, hsub, hrow]
  rfl

/-- DEVICE_ID is not written. -/
theorem State.grants.ne_deviceId (h : s.grants r row k v) : k ≠ Obj.deviceId := by
  rintro rfl
  exact h.writable.1 (Option.some.inj (h.accessOf_eq.symm.trans accessOf_deviceId))

/-- The objects that answering moves are not written. -/
theorem State.grants.not_answerKey (h : s.grants r row k v) (haccess : row.access = .rw ∨ row.access = .wo) : ¬ answerKey k := by
  obtain ⟨hrow, hindex, -⟩ := Work.lookup_row h.object
  obtain ⟨hmem, hrowindex, -⟩ := findRow_eq_some_iff.mp hrow
  rintro (rfl | hcounter)
  · exact h.writable.1 (Option.some.inj (h.accessOf_eq.symm.trans accessOf_requestsServed))
  · have := rows_linkCounter row hmem (by rw [hrowindex, ← hindex]; exact hcounter)
    rcases haccess with ha | ha <;> rw [ha] at this <;> simp at this

/-! ## The operation -/

theorem State.grants.serveOp_eq (h : s.grants r row k v) (ws : List (FnWin × Window)) (p : Nat) (f : Nat × Nat) :
    (s.work.atTurn ws p f).serveOp 2 (seen 2 r) =
      if row.access = .cmd then (s.work.atTurn ws p f).serveCmd (seen 2 r) row k v
      else (s.work.atTurn ws p f).serveValue (seen 2 r) row k v := by
  change (s.work.atTurn ws p f).serveWrite (seen 2 r) = _
  have hisland : servedBySeam (seen 2 r).index = true → (s.work.atTurn ws p f).islandCond 0xAC ≠ .gated ∧
      (s.work.atTurn ws p f).islandCond 0xAC ≠ .stopped ∧ (s.work.atTurn ws p f).islandCond 0xAC ≠ .faulted := by
    rw [seen_index]
    exact h.island
  simp only [Work.serveWrite, Work.atTurn_lookup, h.object, h.writable.1, h.writable.2, or_self, if_false, Work.atTurn_writeRefused, seen_origin,
    h.allowed, seen_payload, h.length, ne_eq, not_true_eq_false, Work.atIsland_of_serves hisland, h.value]

/-- A legal value that nothing refuses is cleared from the object, waits for the store, or replaces the object's. -/
theorem State.grants.serveOp_value (h : s.grants r row k v) (hcmd : row.access ≠ .cmd) (hmin : row.min ≤ v) (hmax : v ≤ row.max)
    (hvalue : s.work.valueRefused r.origin k v = none) (ws : List (FnWin × Window)) (p : Nat) (f : Nat × Nat) :
    (s.work.atTurn ws p f).serveOp 2 (seen 2 r) =
      if row.access = .w1c then ((s.work.atTurn ws p f).clearValue row k v).respond 2 (seen 2 r) 0 0 (s.work.readValue r.origin row k)
      else if row.cls = .p then (s.work.atTurn ws p f).persistWrite 2 (seen 2 r) k v []
      else ((s.work.atTurn ws p f).putValue k v).respond 2 (seen 2 r) 0 0 [] := by
  have hrange : ¬ (v < row.min ∨ row.max < v) := by omega
  rw [h.serveOp_eq ws p f, if_neg hcmd]
  simp only [Work.serveValue, if_neg hrange, seen_origin, Work.atTurn_valueRefused, hvalue, Work.atTurn_readValue]

/-- A value from which nothing follows is set, and that is all. -/
theorem State.plainValue.putValue_eq (h : s.plainValue k) (ws : List (FnWin × Window)) (p : Nat) (f : Nat × Nat) :
    (s.work.atTurn ws p f).putValue k v = (s.work.atTurn ws p f).set k v := by
  obtain ⟨hrest, hlink, hdma, htest, hring, hplan⟩ := h
  simp only [Work.putValue, Work.atTurn_resting, hrest, Bool.false_eq_true, hlink, hdma, htest, hring, hplan, if_false]

theorem requestRow_of_valueRow (h : valueRow c r) : requestRow c 2 r := by
  rcases h with rfl | ⟨q, rfl, rfl⟩ | ⟨q, rfl, rfl⟩ | ⟨q, rfl, rfl⟩ <;> exact fun _ => rfl

/-- A written value stands, the writer is told, and nothing else changes. -/
theorem State.grants.exec_set (h : s.grants r row k v) (hc : requestRow c 2 r) (haccess : row.access = .rw ∨ row.access = .wo) (hcls : row.cls ≠ .p)
    (hmin : row.min ≤ v) (hmax : v ≤ row.max) (hvalue : s.work.valueRefused r.origin k v = none) (hplain : s.plainValue k) :
    ∃ t, exec c s = .next t ∧ s.accepted t 2 (seen 2 r) ∧ t.val k = v ∧ s.frame t [.dict, .links] (fun x => x = k ∨ answerKey x) := by
  obtain ⟨ws, p, f, hexec⟩ := h.takes.exec_eq (by decide) hc
  have hw1c : row.access ≠ .w1c := by rcases haccess with ha | ha <;> simp [ha]
  have hcmd : row.access ≠ .cmd := by rcases haccess with ha | ha <;> simp [ha]
  have hserve := h.serveOp_value hcmd hmin hmax hvalue ws p f
  rw [if_neg hw1c, if_neg hcls, hplain.putValue_eq ws p f] at hserve
  have hanswer := h.not_answerKey haccess
  refine ⟨_, hexec, State.answer_mem_run hserve ?_, ?_, ?_⟩
  · rw [Work.set_get, if_neg h.ne_deviceId]
    rfl
  · rw [State.run_val _ _ _ (fun hl => hanswer (.inr hl)), hserve, Work.respond_get_of_ok, if_neg (fun hs => hanswer (.inl hs.symm)), Work.set_get,
      if_pos rfl]
  · exact ((State.keeps_atTurn (by simp) ws p f).set (.inl rfl) v).frame_respond hserve (by simp) (by simp) (fun _ => .inr) (.inl rfl)

/-- The value that a write of a W1C object leaves (R45). -/
theorem Work.clearValue_get (w : Work) (row : Row) (k : Key) (v : Nat) (q : Key) : (w.clearValue row k v).get q =
    if q = k then (if row.ty = .bits32 then clearMask (w.get k) v else if v = 0 then w.get k else 0) else w.get q := by
  by_cases hq : q = k
  · subst hq
    simp only [Work.clearValue]
    split_ifs <;> simp
  · simp only [Work.clearValue, if_neg hq]
    split_ifs <;> simp [Ne.symm hq]

theorem State.keeps.clearValue {w : Work} {parts : List StatePart} {keys : Key → Prop} (h : s.keeps w parts keys) (hk : keys k) (row : Row) (v : Nat) :
    s.keeps (w.clearValue row k v) parts keys := by
  unfold Work.clearValue
  split_ifs
  · exact h.set hk _
  · exact h
  · exact h.set hk _

/-- A write of a W1C object answers the value before it. -/
theorem State.grants.exec_clear (h : s.grants r row k v) (hc : requestRow c 2 r) (haccess : row.access = .w1c) (hmin : row.min ≤ v) (hmax : v ≤ row.max)
    (hvalue : s.work.valueRefused r.origin k v = none) (hanswer : ¬ answerKey k) :
    ∃ t, exec c s = .next t ∧ s.answer 2 (seen 2 r) 0 0 (s.work.readValue r.origin row k) ∈ t.out.drop s.out.length ∧
      t.val k = (if row.ty = .bits32 then clearMask (s.val k) v else if v = 0 then s.val k else 0) ∧
      s.frame t [.dict, .links] (fun x => x = k ∨ answerKey x) := by
  obtain ⟨ws, p, f, hexec⟩ := h.takes.exec_eq (by decide) hc
  have hserve := h.serveOp_value (by simp [haccess]) hmin hmax hvalue ws p f
  rw [if_pos haccess] at hserve
  refine ⟨_, hexec, State.answer_mem_run hserve ?_, ?_, ?_⟩
  · rw [Work.clearValue_get, if_neg h.ne_deviceId.symm]
    rfl
  · rw [State.run_val _ _ _ (fun hl => hanswer (.inr hl)), hserve, Work.respond_get_of_ok, if_neg (fun hs => hanswer (.inl hs.symm)),
      Work.clearValue_get, if_pos rfl]
    rfl
  · exact ((State.keeps_atTurn (by simp) ws p f).clearValue (.inl rfl) row v).frame_respond hserve (by simp) (by simp) (fun _ => .inr) (.inl rfl)

/-! ## The non-volatile store (R47) -/

theorem Work.persistWrite_of_none {w : Work} {op : Nat} {b : List Byte} (h : ∀ p ∈ w.dict.persist, p.key ≠ k) :
    w.persistWrite op r k v b = w.modDict (fun d => { d with persist := d.persist ++ [⟨r, op, k, v, b, false⟩] }) := by
  have hfind : w.dict.persist.find? (fun p => p.key = k) = none := by simpa [List.find?_eq_none] using h
  simp only [Work.persistWrite, hfind]

/-- A write of class P waits for the store, unanswered. -/
theorem State.grants.exec_store (h : s.grants r row k v) (hc : requestRow c 2 r) (haccess : row.access = .rw ∨ row.access = .wo) (hcls : row.cls = .p)
    (hmin : row.min ≤ v) (hmax : v ≤ row.max) (hvalue : s.work.valueRefused r.origin k v = none) (hfree : ∀ p ∈ s.dev.dict.persist, p.key ≠ k) :
    ∃ t, exec c s = .next t ∧ t.dev.dict.persist = s.dev.dict.persist ++ [⟨seen 2 r, 2, k, v, [], false⟩] ∧ s.frame t [.dict] (fun _ => False) := by
  obtain ⟨ws, p, f, hexec⟩ := h.takes.exec_eq (by decide) hc
  have hw1c : row.access ≠ .w1c := by rcases haccess with ha | ha <;> simp [ha]
  have hcmd : row.access ≠ .cmd := by rcases haccess with ha | ha <;> simp [ha]
  have hserve := h.serveOp_value hcmd hmin hmax hvalue ws p f
  rw [if_neg hw1c, if_pos hcls, Work.persistWrite_of_none (by simpa using hfree)] at hserve
  rw [hserve] at hexec
  refine ⟨_, hexec, by rw [State.run_dict]; rfl, ?_⟩
  exact State.keeps.frame_local ((State.keeps_atTurn (by simp) ws p f).modDict (by simp) _) (fun _ _ _ => List.not_mem_nil)
end

/-! ## CLASS_P_WRITE_DURABLE -/

/-- The work once the store has done with the oldest write: its value stands if it has been stored. -/
def Work.storeEnds (w : Work) (p : PersistWrite) (rest : List PersistWrite) (stored : Bool) : Work :=
  if stored then (w.modDict (fun d => { d with persist := rest })).set p.key p.value else w.modDict (fun d => { d with persist := rest })

theorem Work.storeEnds_get (w : Work) (p : PersistWrite) (rest : List PersistWrite) (stored : Bool) (k : Key) :
    (w.storeEnds p rest stored).get k = if p.key = k then (if stored then p.value else w.get k) else w.get k := by
  cases stored <;> simp [Work.storeEnds]

theorem Work.storeEnds_persist (w : Work) (p : PersistWrite) (rest : List PersistWrite) (stored : Bool) :
    (w.storeEnds p rest stored).dict.persist = rest := by
  cases stored <;> rfl

theorem State.keeps_storeEnds (s : State) (p : PersistWrite) (rest : List PersistWrite) (stored : Bool) {keys : Key → Prop} (hk : keys p.key) :
    s.keeps (s.work.storeEnds p rest stored) [.dict, .links] keys := by
  have h : s.keeps (s.work.modDict (fun d => { d with persist := rest })) [.dict, .links] keys := (s.keeps_work _ _).modDict (by simp) _
  cases stored
  · exact h
  · exact h.set hk _

/-- What the store has done is answered, to a writer that still waits. -/
theorem Work.durable_eq {w : Work} {p : PersistWrite} {rest : List PersistWrite} {stored : Bool} {row : Row} (hpersist : w.dict.persist = p :: rest)
    (hfault : p.key ≠ Obj.faultLog) (hstamp : p.key ≠ Obj.calendarStamp) (hrow : findRow p.key.index p.key.sub = some row) (hdom : row.ty ≠ .domain)
    (hdead : p.dead = false) (htenant : p.key.tenant = 0) :
    w.durable p.key.index p.key.sub stored =
      (w.storeEnds p rest stored).respond p.opcode p.req (if stored then 0 else 0x0E) 0 [] := by
  have hnot : ¬ (p.key.index = Obj.faultLog.index ∧ p.key.sub = Obj.faultLog.sub) := by
    rintro ⟨hindex, hsub⟩
    apply hfault
    cases hkey : p.key
    simp_all
  have herase : w.modDict (fun d => { d with persist := d.persist.erase p }) = w.modDict (fun d => { d with persist := rest }) := by
    simp [Work.modDict, hpersist]
  simp only [Work.durable, if_neg hnot, hpersist, List.find?_cons, decide_true, Bool.and_self]
  simp only [herase, hdead, Bool.false_eq_true, if_false, Work.storeEnds, Work.persistApply, hrow, Option.any_some, decide_eq_true_eq, hdom, hstamp]

/-- The end of a store, as an observer sees it. -/
theorem State.exec_durable {s : State} {p : PersistWrite} {rest : List PersistWrite} {stored : Bool}
    (heq : s.work.durable p.key.index p.key.sub stored = (s.work.storeEnds p rest stored).respond p.opcode p.req (if stored then 0 else 0x0E) 0 [])
    (hanswer : ¬ answerKey p.key) (hrefused : p.key ≠ Obj.requestsRefused) (hdevice : p.key ≠ Obj.deviceId) :
    ∃ t, exec (.classPWriteDurable p.key.index p.key.sub stored) s = .next t ∧ t.dev.dict.persist = rest ∧
      t.val p.key = (if stored then p.value else s.val p.key) ∧
      s.answer p.opcode p.req (if stored then 0 else 0x0E) 0 [] ∈ t.out.drop s.out.length ∧
      s.frame t [.dict, .links] (fun x => x = p.key ∨ answerKey x ∨ x = Obj.requestsRefused) := by
  refine ⟨_, rfl, ?_, ?_, State.answer_mem_run heq ?_, ?_⟩
  · rw [State.run_dict, heq, Work.respond_persist, Work.storeEnds_persist]
  · rw [State.run_val _ _ _ (fun hl => hanswer (.inr hl)), heq, Work.respond,
      Work.respondFrom_get_of_ne _ _ _ _ _ _ _ (fun hs => hanswer (.inl hs)) (.inr hrefused), Work.storeEnds_get, if_pos rfl]
    rfl
  · rw [Work.storeEnds_get, if_neg hdevice]
    rfl
  · exact (s.keeps_storeEnds p rest stored (.inl rfl)).frame_respond heq (by simp) (by simp) (fun _ hk => .inr (.inl hk)) (.inr (.inr (.inr rfl)))

/-- Settles O8: each write is the equation of its operation, and the store's end that of CLASS_P_WRITE_DURABLE. -/
theorem writesSetClearOrWaitForTheStore : Obligations.WritesSetClearOrWaitForTheStore := by
  unfold Obligations.WritesSetClearOrWaitForTheStore
  refine ⟨fun s c r row k v hc h haccess hcls hmin hmax hvalue hplain => ?_, fun s c r row k v hc h haccess hmin hmax hvalue hanswer => ?_,
    fun s c r row k v hc h haccess hcls hmin hmax hvalue hfree => ?_, ?_⟩
  · exact h.exec_set (requestRow_of_valueRow hc) haccess hcls hmin hmax hvalue hplain
  · refine h.exec_clear ?_ haccess hmin hmax hvalue hanswer
    rcases hc with rfl | ⟨q, rfl, rfl⟩ | ⟨q, rfl, rfl⟩ <;> exact fun _ => rfl
  · refine h.exec_store ?_ haccess hcls hmin hmax hvalue hfree
    rcases hc with rfl | ⟨q, rfl, rfl⟩ | ⟨q, rfl, rfl⟩ | ⟨q, rfl, rfl⟩ <;> exact fun _ => rfl
  · intro s p rest stored row hpersist hfault hstamp hrow hdom hdead hanswer hrefused hdevice htenant
    exact State.exec_durable (Work.durable_eq hpersist hfault hstamp hrow hdom hdead htenant) hanswer hrefused hdevice

end Sys2Proof.Machine
end

section
/-! SUPPORT. Claims, the actions of CMD objects, RESTORE_DEFAULTS and aborts (R65 to R70, R75). -/

namespace Sys2Proof.Machine

/-! ## Starting and aborting actions -/

section
variable {s : State} {r : Req} {row : Row} {k : Key} {arg : Nat} {parts : List StatePart} {keys : Key → Prop} {w : Work}

/-- An action starts once its WRITE has been answered (R70). -/
theorem State.starts.serveOp_eq (h : s.starts r k arg) (hreset : k ≠ Obj.deviceReset) (ws : List (FnWin × Window)) (p : Nat) (f : Nat × Nat) :
    (s.work.atTurn ws p f).serveOp 2 (seen 2 r) = ((s.work.atTurn ws p f).respond 2 (seen 2 r) 0 0 []).startAction k arg r.origin := by
  obtain ⟨⟨row, hgrants, hcmd, hones, harg⟩, hidle, hsettled⟩ := h
  have hpower : ¬ (k = Obj.powerStateRequest ∧ (s.work.atTurn ws p f).boot.target.isSome) := by
    rintro ⟨hk, hsome⟩
    rw [Work.atTurn_boot, State.work_toDev, hsettled hk] at hsome
    cases hsome
  rw [hgrants.serveOp_eq ws p f, if_pos hcmd]
  simp only [Work.serveCmd, hones, if_false, Work.atTurn_argOk, harg, Bool.not_true, Bool.false_eq_true, hreset, Work.atTurn_cmdBusy, hidle, hpower,
    seen_origin]

theorem State.starts.takes (h : s.starts r k arg) : s.takes 2 r := by
  obtain ⟨⟨row, hgrants, -⟩, -, -⟩ := h
  exact hgrants.takes

/-- A write of all ones aborts a CMD that can be aborted while it runs; otherwise it is refused with RANGE. -/
theorem State.grants.serveOp_abort (h : s.grants r row k (2 ^ typeBits row.ty - 1)) (hcmd : row.access = .cmd) (ws : List (FnWin × Window)) (p : Nat)
    (f : Nat × Nat) : (s.work.atTurn ws p f).serveOp 2 (seen 2 r) =
      if row.abortable && s.work.cmdBusy k then ((s.work.atTurn ws p f).respond 2 (seen 2 r) 0 0 []).abort k
      else (s.work.atTurn ws p f).refuseReq 2 (seen 2 r) (4, 0) := by
  rw [h.serveOp_eq ws p f, if_pos hcmd]
  exact if_pos rfl

/-! ## The end of an action -/

theorem Work.cmdDone_get (w : Work) (k : Key) (o : Origin) (q : Key) :
    (w.cmdDone k o).get q = if k = q then progressWord 3 (pathCode o.path) 100 0 else w.get q := by
  obtain ⟨os, objs, starters, -, h, hget⟩ := w.cmdDone_spec k o
  rw [h]
  exact hget q

theorem State.keeps.cmdDone (h : s.keeps w parts keys) (hdict : StatePart.dict ∈ parts) (hk : keys k) (o : Origin) :
    s.keeps (w.cmdDone k o) parts keys := by
  refine ⟨fun p hp => ?_, fun q hq => ?_⟩
  · obtain ⟨os, objs, starters, -, e, -⟩ := w.cmdDone_spec k o
    rw [e]
    cases p with
    | dict => exact absurd hdict hp
    | _ => exact h.1 _ hp
  · rw [Work.cmdDone_get, if_neg (by rintro rfl; exact hq hk)]
    exact h.2 q hq

theorem Work.sent_prefix_cmdDone (w : Work) (k : Key) (o : Origin) : w.sent <+: (w.cmdDone k o).sent := by
  obtain ⟨os, objs, starters, -, h, -⟩ := w.cmdDone_spec k o
  rw [h]
  exact List.prefix_append _ _

/-- A command that responds first and then does more has given its answer out. -/
theorem State.answer_mem_run_of_prefix {op status detail : Nat} {payload : List Byte} {g : Work → Work}
    (hsent : (w.respond op r status detail payload).sent <+: (g s.work).sent) (hdev : w.get Obj.deviceId = s.val Obj.deviceId) :
    s.answer op r status detail payload ∈ (s.run g).out.drop s.out.length :=
  State.mem_drop_run_out (hsent.subset (State.answer_mem_respond hdev))
end

/-! ## RESTORE_DEFAULTS (R75) -/

theorem Work.claimedBy_congr {a b : Work} (h : ∀ n, a.get (Obj.rangeOwner n) = b.get (Obj.rangeOwner n)) (o : Origin) (i : Nat) :
    a.claimedBy o i = b.claimedBy o i := by
  simp only [Work.claimedBy, h]

theorem Work.roleAllows_congr {a b : Work} (h : a.get Obj.role = b.get Obj.role) (o : Origin) (cls : PClass) (i : Nat) :
    a.roleAllows o cls i = b.roleAllows o cls i := by
  simp only [Work.roleAllows, Work.isWorker, h]

/-- What a caller may return to its default depends on ROLE and the claims alone. -/
theorem Work.restores_congr {a b : Work} (hrole : a.get Obj.role = b.get Obj.role)
    (hclaims : ∀ n, a.get (Obj.rangeOwner n) = b.get (Obj.rangeOwner n)) (o : Origin) (arg : Nat) (k : Key) :
    a.restores o arg k = b.restores o arg k := by
  simp only [Work.restores, Work.roleAllows_congr hrole, Work.claimedBy_congr hclaims]

/-- Nothing read-only, and no CMD, returns to its default. -/
theorem Work.restores_of_accessOf {a : Work} {o : Origin} {arg : Nat} {k : Key} (h : accessOf k = some .ro ∨ accessOf k = some .cmd) :
    a.restores o arg k = false := by
  unfold accessOf at h
  unfold Work.restores
  cases hrow : findRow k.index k.sub with
  | none => rfl
  | some row =>
    rw [hrow] at h
    have : row.access = .ro ∨ row.access = .cmd := by simpa using h
    rcases this with ha | ha <;> simp [ha]

theorem look_filter_not {κ α : Type} [DecidableEq κ] (d : α) (l : List (κ × α)) (c : κ → Bool) (k : κ) :
    look d (l.filter (fun p => !c p.1)) k = if c k then d else look d l k := by
  induction l with
  | nil => simp
  | cons p l ih =>
    obtain ⟨a, b⟩ := p
    rw [List.filter_cons]
    by_cases hk : a = k
    · subst hk
      cases hc : c a <;> simp [look, hc, ih]
    · cases hc : c a <;> simp [look, hk, ih]

/-- TEST_INTERVAL_S back at its default, if a restore picks it. -/
def Work.restoreInterval (s : Work) (arg : Nat) (o : Origin) : Work :=
  if s.restores o arg Obj.testIntervalS then s.setTestInterval (defaultOf Obj.testIntervalS) else s

/-- The values that a restore picks at their defaults. -/
def Work.restoreValues (s : Work) (arg : Nat) (o : Origin) : Work := { s with
  objs := s.objs.filter (fun (p : Key × Nat) => !s.restores o arg p.1)
  doms := s.doms.map (fun (p : Key × DomVal) => if s.restores o arg p.1 && !p.2.bytes.isEmpty then (p.1, ⟨p.2.gen + 1, []⟩) else p) }

theorem Work.setTestInterval_get (s : Work) (v : Nat) (k : Key) :
    (s.setTestInterval v).get k = if Obj.testIntervalS = k then v else s.get k := s.set_get Obj.testIntervalS v k

section
variable (s : Work) (arg : Nat) (o : Origin)

theorem Work.restoreInterval_get_of_ne {k : Key} (hk : Obj.testIntervalS ≠ k) : (s.restoreInterval arg o).get k = s.get k := by
  unfold Work.restoreInterval
  split
  · rw [Work.setTestInterval_get, if_neg hk]
  · rfl

theorem Work.restoreInterval_restores (k : Key) : (s.restoreInterval arg o).restores o arg k = s.restores o arg k :=
  Work.restores_congr (s.restoreInterval_get_of_ne arg o (by decide)) (fun n => s.restoreInterval_get_of_ne arg o (by simp)) o arg k

theorem Work.restoreValues_get (k : Key) : (s.restoreValues arg o).get k = if s.restores o arg k then defaultOf k else s.get k :=
  look_filter_not (defaultOf k) s.objs (s.restores o arg) k

/-- A restore sets what it picks to its default and nothing else. -/
theorem Work.restored_get (k : Key) :
    ((s.restoreInterval arg o).restoreValues arg o).get k = if s.restores o arg k then defaultOf k else s.get k := by
  rw [Work.restoreValues_get, Work.restoreInterval_restores]
  split
  · rfl
  · rename_i hk
    by_cases htest : Obj.testIntervalS = k
    · rw [← htest] at hk ⊢
      rw [Work.restoreInterval, if_neg hk]
    · exact s.restoreInterval_get_of_ne arg o htest

theorem Work.restored_sent : ((s.restoreInterval arg o).restoreValues arg o).sent = s.sent := by
  unfold Work.restoreValues Work.restoreInterval
  split <;> rfl

theorem Work.idle_of_not_manager {s : Work} (h : s.get Obj.role ≠ 1) : s.idle = s := by
  simp [Work.idle, Work.isManager, h]

/-- The links that a restore enables again. -/
def Work.enableLinks (s : Work) (arg : Nat) (o : Origin) : Work :=
  ((List.range 16).filter (fun (l : Nat) => s.get (Obj.linkEnable l) = 0 && s.restores o arg (Obj.linkEnable l))).foldl
    (fun (s : Work) (l : Nat) => s.setLinkEnable l 1) s

/-- RESTORE_DEFAULTS enables links, restores the interval of tests and the values, and ends. -/
theorem Work.restoreDefaults_stages : s.restoreDefaults arg o =
    ((((s.enableLinks arg o).restoreInterval arg o).restoreValues arg o).cmdDone Obj.restoreDefaults o).idle := by
  delta Work.restoreDefaults Work.enableLinks Work.restoreInterval Work.restoreValues
  rfl

/-- At a worker whose links are all enabled no link trains and no planner starts. -/
theorem Work.restoreDefaults_eq (hrole : s.get Obj.role = 3) (hlinks : ∀ l, l < 16 → s.get (Obj.linkEnable l) = 1) :
    s.restoreDefaults arg o = ((s.restoreInterval arg o).restoreValues arg o).cmdDone Obj.restoreDefaults o := by
  have hoff : (List.range 16).filter (fun (l : Nat) => s.get (Obj.linkEnable l) = 0 && s.restores o arg (Obj.linkEnable l)) = [] := by
    refine List.filter_eq_nil_iff.mpr fun l hl => ?_
    simp [hlinks l (List.mem_range.mp hl)]
  have hidle : (((s.restoreInterval arg o).restoreValues arg o).cmdDone Obj.restoreDefaults o).get Obj.role ≠ 1 := by
    rw [Work.cmdDone_get, if_neg (by decide), Work.restored_get, Work.restores_of_accessOf (.inl (by decide +kernel)), if_neg (by decide), hrole]
    decide
  rw [Work.restoreDefaults_stages, Work.enableLinks, hoff]
  exact Work.idle_of_not_manager hidle
end

section
variable {s : State} {w : Work} {parts : List StatePart} {keys : Key → Prop} {arg : Nat} {o : Origin}

theorem State.keeps.restored (h : s.keeps w parts keys) (hdoms : StatePart.doms ∈ parts) (hrel : StatePart.rel ∈ parts)
    (hkeys : ∀ k, w.restores o arg k = true → keys k) : s.keeps ((w.restoreInterval arg o).restoreValues arg o) parts keys := by
  refine ⟨fun p hp => ?_, fun k hk => ?_⟩
  · unfold Work.restoreValues Work.restoreInterval
    split
    all_goals
      cases p with
      | doms => exact absurd hdoms hp
      | rel => exact absurd hrel hp
      | _ => exact h.1 _ hp
  · rw [Work.restored_get, if_neg (fun hr => hk (hkeys k hr))]
    exact h.2 k hk
end

theorem Work.startAction_restoreDefaults (w : Work) (arg : Nat) (o : Origin) :
    w.startAction Obj.restoreDefaults arg o = w.restoreDefaults arg o := by
  simp only [Work.startAction, if_true]

/-- RESTORE_DEFAULTS at a worker whose links are all enabled. -/
theorem State.startsAt.restoreDefaults {s : State} {r : Req} {arg : Nat} (h : s.startsAt r Obj.restoreDefaults arg) (hrole : s.val Obj.role = 3)
    (hlinks : ∀ l, l < 16 → s.val (Obj.linkEnable l) = 1) : ∃ t, exec (.restoreDefaults r) s = .next t ∧
      s.commanded t r Obj.restoreDefaults [.doms, .rel] (fun x => s.work.restores r.origin arg x = true) ∧
      ∀ x, s.work.restores r.origin arg x = true → ¬ answerKey x → t.val x = defaultOf x := by
  obtain ⟨ws, p, f, hexec⟩ := (State.starts.takes h).exec_eq (c := .restoreDefaults r) (by decide) (fun _ => rfl)
  have hserve := State.starts.serveOp_eq h (by decide) ws p f
  generalize hw : (s.work.atTurn ws p f).respond 2 (seen 2 (reqAt r Obj.restoreDefaults.index Obj.restoreDefaults.sub)) 0 0 [] = w at hserve
  have hget : ∀ k, Obj.requestsServed ≠ k → w.get k = s.val k := fun k hk => by
    rw [← hw, Work.respond_get_of_ok, if_neg hk]
    rfl
  have hrestores : ∀ k, w.restores r.origin arg k = s.work.restores r.origin arg k :=
    Work.restores_congr (hget _ (by decide)) (fun n => hget _ (by simp)) r.origin arg
  have hact : w.startAction Obj.restoreDefaults arg r.origin =
      ((w.restoreInterval arg r.origin).restoreValues arg r.origin).cmdDone Obj.restoreDefaults r.origin :=
    (w.startAction_restoreDefaults arg r.origin).trans <| w.restoreDefaults_eq arg r.origin ((hget _ (by decide)).trans hrole) (fun l hl => (hget _ (by simp)).trans (hlinks l hl))
  have hdone := hserve.trans hact
  have hkeeps : s.keeps w [.dict, .links, .doms, .rel]
      (fun x => x = Obj.restoreDefaults ∨ answerKey x ∨ s.work.restores r.origin arg x = true) := by
    rw [← hw]
    exact (State.keeps_atTurn (by simp) ws p f).respondFrom (by simp) (.inr (.inl (.inl rfl))) (.inl rfl) _
  refine ⟨_, hexec, ⟨?_, ?_, ?_⟩, fun x hx hanswer => ?_⟩
  · refine State.answer_mem_run_of_prefix (w := s.work.atTurn ws p f) ?_ rfl
    rw [hdone, hw, ← Work.restored_sent w arg r.origin]
    exact Work.sent_prefix_cmdDone _ _ _
  · rw [State.cmdStateOf, State.run_val _ _ _ (by simp [linkCounter]), hdone, Work.cmdDone_get, if_pos rfl]
    exact progressWord_state (by decide)
  · refine State.keeps.frame ?_ (by simp) (fun k hk => .inr (.inl (.inr hk)))
    rw [hdone]
    exact (hkeeps.restored (by simp) (by simp) (fun k hk => .inr (.inr (hrestores k ▸ hk)))).cmdDone (by simp) (.inl rfl) _
  · have hne : Obj.restoreDefaults ≠ x := by
      rintro rfl
      rw [Work.restores_of_accessOf (.inr (by decide +kernel))] at hx
      cases hx
    rw [State.run_val _ _ _ (fun hl => hanswer (.inr hl)), hdone, Work.cmdDone_get, if_neg hne, Work.restored_get, hrestores, if_pos hx]

/-! ## Aborts (R70) -/

theorem Work.cmdEnd_get (w : Work) (k : Key) (st res : Nat) (q : Key) : (w.cmdEnd k st res).get q =
    if k = q then progressWord st (w.cmdSource k) (if st = 3 then 100 else field (w.get k) 15 8) res else w.get q := by
  obtain ⟨os, -, h⟩ := w.cmdEnd_spec k st res
  rw [h]
  exact w.set_get k _ q

theorem State.keeps.cmdEnd {s : State} {w : Work} {parts : List StatePart} {keys : Key → Prop} (h : s.keeps w parts keys) {k : Key} (hk : keys k)
    (st res : Nat) : s.keeps (w.cmdEnd k st res) parts keys := by
  obtain ⟨os, -, e⟩ := w.cmdEnd_spec k st res
  rw [e]
  exact (h.set hk _).sent _

theorem Work.sent_prefix_cmdEnd (w : Work) (k : Key) (st res : Nat) : w.sent <+: (w.cmdEnd k st res).sent := by
  obtain ⟨os, -, h⟩ := w.cmdEnd_spec k st res
  rw [h]
  exact List.prefix_append _ _

/-- A pass or sweep that is aborted ends as ABORTED, a sweep after it has stopped. -/
theorem Work.abort_eq {k : Key} (hk : k = Obj.scrubNow ∨ k = Obj.sweepNow) (w : Work) : ∃ rel res,
    w.abort k = ({ w with rel := rel, free := w.free + 1 } : Work).cmdEnd k 5 res := by
  rcases hk with rfl | rfl
  · exact ⟨w.rel, _, rfl⟩
  · exact ⟨_, _, rfl⟩

theorem State.keeps.rel {s : State} {w : Work} {parts : List StatePart} {keys : Key → Prop} (h : s.keeps w parts keys) (hrel : StatePart.rel ∈ parts)
    (rel : RelState) : s.keeps { w with rel := rel } parts keys := by
  refine ⟨fun p hp => ?_, h.2⟩
  cases p with
  | rel => exact absurd hrel hp
  | _ => exact h.1 _ hp

theorem abortable_of_pass {r : Req} {row : Row} {k : Key} {w : Work} (hobj : w.lookup r = some (row, k)) (hk : k = Obj.scrubNow ∨ k = Obj.sweepNow) :
    row.abortable = true := by
  obtain ⟨hrow, hindex, hsub⟩ := Work.lookup_row hobj
  have hscrub : (findRow Obj.scrubNow.index Obj.scrubNow.sub).map (·.abortable) = some true := by decide +kernel
  have hsweep : (findRow Obj.sweepNow.index Obj.sweepNow.sub).map (·.abortable) = some true := by decide +kernel
  rw [← hindex, ← hsub] at hrow
  rcases hk with rfl | rfl
  · simpa [hrow] using hscrub
  · simpa [hrow] using hsweep

section
variable {s : State} {r : Req} {row : Row} {k : Key} {c : Instr}

theorem State.grants.exec_abort (h : s.grants r row k (2 ^ typeBits row.ty - 1)) (hc : requestRow c 2 r) (hcmd : row.access = .cmd)
    (hbusy : s.work.cmdBusy k = true) (hk : k = Obj.scrubNow ∨ k = Obj.sweepNow) : ∃ t, exec c s = .next t ∧ s.accepted t 2 (seen 2 r) ∧
      t.cmdStateOf k = 5 ∧ s.frame t [.dict, .links, .rel] (fun x => x = k ∨ answerKey x) := by
  obtain ⟨ws, p, f, hexec⟩ := h.takes.exec_eq (by decide) hc
  have hserve := h.serveOp_abort hcmd ws p f
  rw [abortable_of_pass h.object hk, hbusy, Bool.and_self, if_pos rfl] at hserve
  have hresponded : s.keeps ((s.work.atTurn ws p f).respond 2 (seen 2 r) 0 0 []) [.dict, .links, .rel] (fun x => x = k ∨ answerKey x) :=
    (State.keeps_atTurn (by simp) ws p f).respondFrom (by simp) (.inr (.inl rfl)) (.inl rfl) _
  generalize hw : (s.work.atTurn ws p f).respond 2 (seen 2 r) 0 0 [] = w at hserve hresponded
  obtain ⟨rel, res, habort⟩ := Work.abort_eq hk w
  have hend := hserve.trans habort
  refine ⟨_, hexec, ?_, ?_, ?_⟩
  · refine State.answer_mem_run_of_prefix (w := s.work.atTurn ws p f) ?_ rfl
    rw [hend, hw]
    exact Work.sent_prefix_cmdEnd ({ w with rel := rel, free := w.free + 1 } : Work) k 5 res
  · have hcounter : ¬ linkCounter k := by rcases hk with rfl | rfl <;> simp [linkCounter]
    rw [State.cmdStateOf, State.run_val _ _ _ hcounter, hend, Work.cmdEnd_get, if_pos rfl]
    exact progressWord_state (by decide)
  · refine State.keeps.frame ?_ (by simp) (fun q hq => .inr (.inr hq))
    rw [hend]
    exact ((hresponded.rel (by simp) rel).free _).cmdEnd (.inl rfl) _ _

theorem State.grants.exec_abort_idle (h : s.grants r row k (2 ^ typeBits row.ty - 1)) (hc : requestRow c 2 r) (hcmd : row.access = .cmd)
    (hidle : s.work.cmdBusy k = false) : ∃ t, exec c s = .next t ∧ s.refusedWith t 2 r 4 0 ∧
      s.frame t [.dict, .links] (fun x => answerKey x ∨ x = Obj.requestsRefused) := by
  refine h.takes.refused (by decide) hc (4, 0) fun ws p f => ?_
  rw [h.serveOp_abort hcmd ws p f, hidle, Bool.and_false, if_neg (by decide)]
end

/-- CMD_ABORT is a WRITE of all ones. -/
theorem requestRow_cmdAbort {r : Req} {row : Row} (hrow : findRow r.index r.sub = some row) :
    requestRow (.cmdAbort r) 2 { r with payload := List.replicate (typeSize row.ty) 0xFF } := by
  intro s
  simp [exec, execCmdAbort, hrow]

/-! ## Claims (R67) -/

theorem State.takes.write_owned {s : State} {r : Req} {row : Row} {k : Key} {c : Nat} (h : s.takes 2 r)
    (hobj : s.work.lookup (seen 2 r) = some (row, k)) (hro : row.access ≠ .ro) (hdom : row.ty ≠ .domain)
    (hrole : s.work.roleAllows r.origin row.cls row.index = true) (hclaim : s.work.claimedBy r.origin row.index = some c) :
    ∃ t, exec (.write r) s = .next t ∧ s.refusedWith t 2 r 6 c ∧ s.frame t [.dict, .links] (fun x => answerKey x ∨ x = Obj.requestsRefused) := by
  have howned : s.work.writeRefused r.origin row = some (6, c) := by simp [Work.writeRefused, hrole, hclaim]
  refine h.refused (by decide) (fun _ => rfl) (6, c) fun ws p f => ?_
  change (s.work.atTurn ws p f).serveWrite (seen 2 r) = _
  simp only [Work.serveWrite, Work.atTurn_lookup, hobj, hro, hdom, or_self, if_false, Work.atTurn_writeRefused, seen_origin, howned]

/-- Settles O9: a claim by the check of OWNED, RESTORE_DEFAULTS by what it restores, and the aborts by what a write of all ones does. -/
theorem claimsDefaultsAndAborts : Obligations.ClaimsDefaultsAndAborts := by
  unfold Obligations.ClaimsDefaultsAndAborts
  refine ⟨⟨fun s r row k c h hobj hro hdom hrole hclaim => ?_, fun s r arg h hrole hlinks => ?_⟩, ?_⟩
  · exact h.write_owned hobj hro hdom hrole hclaim
  · exact State.startsAt.restoreDefaults h hrole hlinks
  · rintro s r q row k rfl hrow h hcmd
    exact ⟨fun hbusy hk => h.exec_abort (requestRow_cmdAbort hrow) hcmd hbusy hk, fun hidle => h.exec_abort_idle (requestRow_cmdAbort hrow) hcmd hidle⟩

end Sys2Proof.Machine
end

section
/-! SUPPORT. Sessions: handles, and what each session operation answers and keeps (R71 to R73). -/

namespace Sys2Proof.Machine

/-! ## Handles -/

/-- 32 handles in a row are distinct. -/
theorem handles_nodup (n : Nat) : ((List.range 32).map (fun i => (n + i) % 65535 + 1)).Nodup := by
  refine List.nodup_range.map_on fun i hi j hj h => ?_
  have := List.mem_range.mp hi
  have := List.mem_range.mp hj
  omega

/-- While fewer than 32 sessions are open, a new handle is in its range and no open session's. -/
theorem Work.newHandle_spec {s : Work} (h : s.dict.sessions.length < 32) :
    1 ≤ s.newHandle ∧ s.newHandle ≤ 65535 ∧ ∀ x ∈ s.dict.sessions, x.handle ≠ s.newHandle := by
  unfold Work.newHandle
  cases hfind : ((List.range 33).map (fun (i : Nat) => (s.dict.nextHandle + i - 1) % 65535 + 1)).find?
      (fun (h : Nat) => !s.dict.sessions.any (fun (x : Session) => x.handle = h)) with
  | none =>
    have hused : ∀ i < 32, (s.dict.nextHandle + i) % 65535 + 1 ∈ s.dict.sessions.map (·.handle) := by
      intro i hi
      have := List.find?_eq_none.mp hfind ((s.dict.nextHandle + i) % 65535 + 1)
        (List.mem_map.mpr ⟨i + 1, List.mem_range.mpr (by omega), by rw [← Nat.add_assoc, Nat.add_sub_cancel]⟩)
      simpa using this
    have hsub : (List.range 32).map (fun i => (s.dict.nextHandle + i) % 65535 + 1) ⊆ s.dict.sessions.map (·.handle) := by
      intro n hn
      obtain ⟨i, hi, rfl⟩ := List.mem_map.mp hn
      exact hused i (List.mem_range.mp hi)
    have hlength := ((handles_nodup s.dict.nextHandle).subperm hsub).length_le
    simp only [List.length_map, List.length_range] at hlength
    omega
  | some n =>
    obtain ⟨i, -, rfl⟩ := List.mem_map.mp (List.mem_of_find?_eq_some hfind)
    have hfree := List.find?_some hfind
    refine ⟨Nat.le_add_left _ _, Nat.mod_lt _ (by decide), fun x hx hhandle => ?_⟩
    simp only [Bool.not_eq_true', List.any_eq_false, decide_eq_true_eq] at hfree
    exact hfree x hx hhandle

theorem Work.sessionFree_length {s : Work} {p : Path} (h : s.sessionFree p = true) : s.dict.sessions.length < 32 := by
  simp only [Work.sessionFree, Bool.and_eq_true, decide_eq_true_eq] at h
  exact h.2

/-- The dictionary with a session open. -/
def DictState.opened (x : Session) (d : DictState) : DictState := { d with sessions := d.sessions ++ [x], nextHandle := x.handle % 65535 + 1 }

/-! ## The operations -/

section
variable {s : Work} {r : Req} {row : Row} {k : Key} {x : Session}

theorem Work.serveOpenRead_eq {b : List Byte} (hobj : s.lookup r = some (row, k)) (hdom : row.ty = .domain) (hwo : row.access ≠ .wo)
    (hpower : s.readState r.index = none) (hpayload : r.payload = []) (hread : s.readDomain r.origin k = .ok b) (hrest : s.resting k.index = false)
    (hfree : s.sessionFree r.origin.path = true) : s.serveOpenRead r =
      (s.openSession ⟨s.newHandle, r.origin, false, k, b.length, b, (s.dom k).gen⟩).respond 0x10 r 0 s.newHandle (toLE 4 b.length) := by
  simp [Work.serveOpenRead, hobj, hdom, hwo, hpower, hpayload, hread, hrest, hfree]

theorem Work.serveOpenWrite_eq (hobj : s.lookup r = some (row, k)) (hdom : row.ty = .domain) (hro : row.access ≠ .ro)
    (hallowed : s.writeRefused r.origin row = none) (hpayload : r.payload = []) (hnone : ∀ x ∈ s.dict.sessions, x.write = true → x.key ≠ k)
    (hfree : s.sessionFree r.origin.path = true) : s.serveOpenWrite r =
      (s.openSession ⟨s.newHandle, r.origin, true, k, r.arg, [], 0⟩).respond 0x11 r 0 s.newHandle [] := by
  have hfind : s.dict.sessions.find? (fun (x : Session) => x.write && x.key = k) = none := by
    simpa [List.find?_eq_none] using hnone
  simp [Work.serveOpenWrite, hobj, hdom, hro, hallowed, hpayload, hfind, hfree]

theorem Work.serveSession_of_refused {op : Nat} {y : Refused} (h : s.sessionRefused r = some y) : s.serveSession op r = s.refuseReq op r y := by
  simp only [Work.serveSession, h]

/-- What a session operation does to the session that its handle names. -/
def Work.actOn (s : Work) (op : Nat) (r : Req) (x : Session) : Work :=
  if op = 0x12 then s.segRead r x else if op = 0x13 then s.segWrite r x else if op = 0x14 then s.segCommit r x else s.segAbort r x

theorem Work.serveSession_of_session {op : Nat} (hobj : s.sessionRefused r = none) (hsession : s.sessionOf r = some x) :
    s.serveSession op r = s.actOn op r x := by
  simp only [Work.serveSession, hobj, hsession, Work.actOn]

theorem Work.segRead_eq (hread : x.write = false) (hgen : (s.dom x.key).gen = x.gen) (hpower : s.readState x.key.index = none) (hpayload : r.payload = [])
    (harg : r.arg ≤ x.data.length) : s.segRead r x = s.respond 0x12 r 0 0 (slice x.data r.arg (maxSegment r.origin.path)) := by
  simp [Work.segRead, hread, hgen, hpower, hpayload, Nat.not_lt.mpr harg]

/-- The sessions with bytes added to what one has received. -/
def receive (handle : Nat) (bytes : List Byte) (l : List Session) : List Session :=
  l.map (fun y => if y.handle = handle then { y with data := y.data ++ bytes } else y)

theorem Work.segWrite_eq (hwrite : x.write = true) (harg : r.arg = x.data.length) (hsegment : r.payload.length ≤ maxSegment r.origin.path)
    (hfits : x.data.length + r.payload.length ≤ x.declared) : s.segWrite r x =
      (s.modDict (fun d => { d with sessions := receive x.handle r.payload d.sessions })).respond 0x13 r 0 0 [] := by
  simp [Work.segWrite, hwrite, harg, Nat.not_lt.mpr hsegment, Nat.not_lt.mpr hfits, receive]

theorem Work.segAbort_eq (hpayload : r.payload = []) : s.segAbort r x = (s.closeSession x.handle).respond 0x15 r 0 0 [] := by
  simp [Work.segAbort, hpayload]

theorem Work.mem_closeSession_ne {h : Nat} : ∀ y ∈ (s.closeSession h).dict.sessions, y.handle ≠ h := by
  intro y hy
  simpa using (List.mem_filter.mp hy).2
end

/-! ## The rows -/

section
variable {s : State} {r : Req} {op : Nat} {c : Instr} {x : Session} {status detail : Nat} {payload : List Byte}

/-- An operation that changes only the dictionary and answers with success: its answer, its sessions and its frame. -/
theorem State.takes.answered_after (h : s.takes op r) (hop : dictOpcodes.contains op = true) (hc : requestRow c op r) (g : DictState → DictState)
    (hsessions : ∀ d ws p f, (g { d with windows := ws, servedPath := p, servedFns := f }).sessions = (g d).sessions)
    (hserve : ∀ ws p f, (s.work.atTurn ws p f).serveOp op (seen op r) =
      ((s.work.atTurn ws p f).modDict g).respond op (seen op r) 0 detail payload) :
    ∃ t, exec c s = .next t ∧ t.dev.dict.sessions = (g s.dev.dict).sessions ∧
      s.answer op (seen op r) 0 detail payload ∈ t.out.drop s.out.length ∧ s.frame t [.dict, .links] answerKey := by
  obtain ⟨ws, p, f, hexec⟩ := h.exec_eq hop hc
  refine ⟨_, hexec, ?_, State.answer_mem_run (hserve ws p f) rfl, ?_⟩
  · rw [State.run_dict, hserve, Work.respond_sessions]
    exact hsessions s.dev.dict ws p f
  · exact ((State.keeps_atTurn (by simp) ws p f).modDict (by simp) g).frame_respond (hserve ws p f) (by simp) (by simp) (fun _ => id) (.inl rfl)
end

section
variable {s : State} {r : Req} {row : Row} {k : Key}

theorem State.serveOp_openRead_eq {b : List Byte} (hobj : s.work.lookup (seen 0x10 r) = some (row, k)) (hdom : row.ty = .domain)
    (hwo : row.access ≠ .wo) (hpower : s.work.readState r.index = none) (hpayload : r.payload = []) (hread : s.work.readDomain r.origin k = .ok b)
    (hrest : s.work.resting k.index = false) (hfree : s.work.sessionFree r.origin.path = true) (ws : List (FnWin × Window)) (p : Nat) (f : Nat × Nat) :
    (s.work.atTurn ws p f).serveOp 0x10 (seen 0x10 r) =
      ((s.work.atTurn ws p f).modDict
        (DictState.opened ⟨s.work.newHandle, r.origin, false, k, b.length, b, (s.work.dom k).gen⟩)).respond 0x10 (seen 0x10 r) 0 s.work.newHandle
          (toLE 4 b.length) := by
  have hserve := Work.serveOpenRead_eq (s := s.work.atTurn ws p f) hobj hdom hwo (by simpa using hpower) (by simpa using hpayload)
    (by simpa using hread) (by simpa using hrest) (by simpa using hfree)
  rwa [seen_origin] at hserve

theorem State.serveOp_openWrite_eq (hobj : s.work.lookup (seen 0x11 r) = some (row, k)) (hdom : row.ty = .domain) (hro : row.access ≠ .ro)
    (hallowed : s.work.writeRefused r.origin row = none) (hpayload : r.payload = [])
    (hnone : ∀ x ∈ s.work.dict.sessions, x.write = true → x.key ≠ k) (hfree : s.work.sessionFree r.origin.path = true)
    (ws : List (FnWin × Window)) (p : Nat) (f : Nat × Nat) :
    (s.work.atTurn ws p f).serveOp 0x11 (seen 0x11 r) =
      ((s.work.atTurn ws p f).modDict (DictState.opened ⟨s.work.newHandle, r.origin, true, k, r.arg, [], 0⟩)).respond 0x11 (seen 0x11 r) 0
        s.work.newHandle [] := by
  have hserve := Work.serveOpenWrite_eq (s := s.work.atTurn ws p f) hobj hdom hro (by simpa using hallowed) (by simpa using hpayload) hnone
    (by simpa using hfree)
  rwa [seen_origin, seen_arg] at hserve
end

/-- The row of a session operation. -/
def sessionRow (op : Nat) (c : Instr) (r : Req) : Prop :=
  (op = 0x12 ∧ c = .segRead r) ∨ (op = 0x13 ∧ c = .segWrite r) ∨ (op = 0x14 ∧ c = .segCommit r) ∨ (op = 0x15 ∧ c = .segAbort r)

section
variable {s : State} {r : Req} {op : Nat} {c : Instr} {x : Session} {detail : Nat} {payload : List Byte}

/-- A session operation reaches its session's operation as it came. -/
theorem sessionRow_spec (h : sessionRow op c r) : requestRow c op r ∧ dictOpcodes.contains op = true ∧ seen op r = r ∧
    ∀ w : Work, w.serveOp op r = w.serveSession op r := by
  rcases h with ⟨rfl, rfl⟩ | ⟨rfl, rfl⟩ | ⟨rfl, rfl⟩ | ⟨rfl, rfl⟩ <;>
    exact ⟨fun _ => rfl, by decide, seen_of_sessionOp r (by decide), fun _ => rfl⟩

/-- A session operation that changes only the dictionary and answers with success. -/
theorem State.takes.session_answered (h : s.takes op r) (hrow : sessionRow op c r) (hobj : s.work.sessionRefused r = none)
    (hsession : s.work.sessionOf r = some x) (g : DictState → DictState)
    (hsessions : ∀ d ws p f, (g { d with windows := ws, servedPath := p, servedFns := f }).sessions = (g d).sessions)
    (hact : ∀ ws p f, (s.work.atTurn ws p f).actOn op r x = ((s.work.atTurn ws p f).modDict g).respond op r 0 detail payload) :
    ∃ t, exec c s = .next t ∧ t.dev.dict.sessions = (g s.dev.dict).sessions ∧ s.answer op r 0 detail payload ∈ t.out.drop s.out.length ∧
      s.frame t [.dict, .links] answerKey := by
  obtain ⟨hc, hopcode, hseen, hserve⟩ := sessionRow_spec hrow
  have h' := h.answered_after (detail := detail) (payload := payload) hopcode hc g hsessions (fun ws p f => by
    rw [hseen, hserve, Work.serveSession_of_session (s := s.work.atTurn ws p f) hobj hsession, hact])
  rwa [hseen] at h'

theorem State.takes.session_refused (h : s.takes op r) (hrow : sessionRow op c r) {y : Refused} (hrefused : s.work.sessionRefused r = some y) :
    ∃ t, exec c s = .next t ∧ s.answer op r y.1 y.2 [] ∈ t.out.drop s.out.length ∧
      s.frame t [.dict, .links] (fun k => answerKey k ∨ k = Obj.requestsRefused) := by
  obtain ⟨hc, hopcode, hseen, hserve⟩ := sessionRow_spec hrow
  obtain ⟨t, hexec, hanswer, hframe⟩ := h.refused hopcode hc y (fun ws p f => by
    rw [hseen, hserve, Work.serveSession_of_refused (s := s.work.atTurn ws p f) hrefused])
  rw [State.refusedWith, hseen] at hanswer
  exact ⟨t, hexec, hanswer, hframe⟩
end

/-- Settles O10: each session operation is its equation, and a new handle is one that no open session has. -/
theorem sessionsCarryDomains : Obligations.SessionsCarryDomains := by
  unfold Obligations.SessionsCarryDomains
  refine ⟨fun s r row k b h hobj hdom hwo hpower hpayload hread hrest hfree => ?_, fun s r row k h hobj hdom hro hallowed hpayload hnone hfree => ?_,
    fun s r x h hobj hsession hread hgen hpower hpayload harg => ?_, fun s r x h hobj hsession hwrite harg hsegment hfits => ?_,
    fun s r op c y hop h hrefused => ?_, fun s r x h hobj hsession hpayload => ?_, fun s n => ?_⟩
  · obtain ⟨hlow, hhigh, hnew⟩ := Work.newHandle_spec (Work.sessionFree_length hfree)
    obtain ⟨t, hexec, hsessions, hanswer, hframe⟩ := h.answered_after (c := .segOpenRead r) (by decide) (fun _ => rfl)
      (DictState.opened ⟨s.work.newHandle, r.origin, false, k, b.length, b, (s.work.dom k).gen⟩) (fun _ _ _ _ => rfl)
      (State.serveOp_openRead_eq hobj hdom hwo hpower hpayload hread hrest hfree)
    exact ⟨t, _, hexec, hlow, hhigh, hnew, hsessions, hanswer, hframe⟩
  · obtain ⟨hlow, hhigh, hnew⟩ := Work.newHandle_spec (Work.sessionFree_length hfree)
    obtain ⟨t, hexec, hsessions, hanswer, hframe⟩ := h.answered_after (c := .segOpenWrite r) (by decide) (fun _ => rfl)
      (DictState.opened ⟨s.work.newHandle, r.origin, true, k, r.arg, [], 0⟩) (fun _ _ _ _ => rfl)
      (State.serveOp_openWrite_eq hobj hdom hro hallowed hpayload hnone hfree)
    exact ⟨t, _, hexec, hnew, hsessions, hanswer, hframe⟩
  · obtain ⟨t, hexec, -, hanswer, hframe⟩ := h.session_answered (.inl ⟨rfl, rfl⟩) hobj hsession id (fun _ _ _ _ => rfl)
      (fun ws p f => Work.segRead_eq (s := s.work.atTurn ws p f) hread hgen hpower hpayload harg)
    exact ⟨t, hexec, hanswer, hframe⟩
  · obtain ⟨t, hexec, hsessions, hanswer, hframe⟩ := h.session_answered (.inr (.inl ⟨rfl, rfl⟩)) hobj hsession
      (fun d => { d with sessions := receive x.handle r.payload d.sessions }) (fun _ _ _ _ => rfl)
      (fun _ _ _ => Work.segWrite_eq hwrite harg hsegment hfits)
    exact ⟨t, hexec, hanswer, hsessions, hframe⟩
  · exact h.session_refused hop hrefused
  · obtain ⟨t, hexec, hsessions, hanswer, hframe⟩ := h.session_answered (.inr (.inr (.inr ⟨rfl, rfl⟩))) hobj hsession
      (fun d => { d with sessions := d.sessions.filter (fun y => decide (y.handle ≠ x.handle)) }) (fun _ _ _ _ => rfl)
      (fun _ _ _ => Work.segAbort_eq hpayload)
    refine ⟨t, hexec, hanswer, fun y hy => ?_, hframe⟩
    rw [hsessions] at hy
    simpa using (List.mem_filter.mp hy).2
  · exact ⟨_, rfl, by rw [State.run_dict]; rfl,
      ((s.keeps_work _ _).modDict (by simp) _).frame_local (fun _ _ _ => List.not_mem_nil)⟩

end Sys2Proof.Machine
end

section
/-! SUPPORT. Commits of whole values: what SEG_COMMIT answers, and what the value of each object changes (R71, R72). -/

namespace Sys2Proof.Machine

/-! ## What a commit changes -/

/-- The second work differs from the first at most in what the objects' owners change at a commit: forwarded requests, the boot banks, the
monitor, serving, the windows and what is sent. -/
def commitOnly (s t : Work) : Prop := t = { s with
  dict := { s.dict with forwarded := t.dict.forwarded }, boot := t.boot, hk := t.hk, serve := t.serve, host := t.host, sent := t.sent }

theorem commitOnly_refl (s : Work) : commitOnly s s := rfl

theorem commitOnly_trans {s t u : Work} (h : commitOnly s t) (g : commitOnly t u) : commitOnly s u := by
  unfold commitOnly at *
  rw [g, h]

theorem commitOnly_foldl {α : Type} (l : List α) (f : Work → α → Work) (h : ∀ s a, commitOnly s (f s a)) (s : Work) :
    commitOnly s (l.foldl f s) := by
  induction l generalizing s with
  | nil => exact commitOnly_refl s
  | cons a l ih => exact commitOnly_trans (h s a) (ih (f s a))

theorem commitOnly.get {s t : Work} (h : commitOnly s t) (k : Key) : t.get k = s.get k := by rw [h]; rfl

theorem commitOnly.dom {s t : Work} (h : commitOnly s t) (k : Key) : t.dom k = s.dom k := by rw [h]; rfl

theorem commitOnly.sessions {s t : Work} (h : commitOnly s t) : t.dict.sessions = s.dict.sessions := by rw [h]

theorem Work.commitAtWorkers_only (s : Work) (k : Key) (b : List Byte) : commitOnly s (s.commitAtWorkers k b) := by
  unfold Work.commitAtWorkers
  split
  · exact commitOnly_refl s
  · refine commitOnly_foldl _ _ (fun w d => ?_) s
    rfl

/-- A valid value replaces the old one, and beside it only what its owner changes is changed. -/
theorem Work.commitApply_only {s : Work} {k : Key} {b : List Byte} (hk : k ≠ Obj.ownerUnlock) (hrest : s.resting k.index = false) :
    commitOnly (s.setDom k b) (s.commitApply k b) := by
  simp only [Work.commitApply, hk, hrest, if_false, Bool.false_eq_true]
  split_ifs
  · rfl
  · split <;> rfl
  · rfl
  · rfl
  · rfl
  · rfl
  · exact Work.commitAtWorkers_only _ k b
  · rfl
  · rfl

/-! ## SEG_COMMIT -/

section
variable {s : Work} {r : Req} {x : Session} {row : Row}

theorem Work.segCommit_eq (hwrite : x.write = true) (hpayload : r.payload = []) (hrow : findRow x.key.index x.key.sub = some row)
    (hallowed : s.writeRefused r.origin row = none) : s.segCommit r x =
      if x.data.length < x.declared then ((s.closeSession x.handle).countUnlock x.key).refuseReq 0x14 r (0x0D, 1) else s.commitWhole r x row := by
  simp [Work.segCommit, hwrite, hpayload, hrow, hallowed]

theorem Work.commitWhole_of_refused {d : Nat} (h : s.commitRefused r.origin x.key x.data = some d) :
    s.commitWhole r x row = ((s.closeSession x.handle).countUnlock x.key).refuseReq 0x14 r (0x0D, d) := by
  simp only [Work.commitWhole, h]

theorem Work.commitWhole_of_valid (h : s.commitRefused r.origin x.key x.data = none) : s.commitWhole r x row =
    if row.cls = .p then (s.closeSession x.handle).persistWrite 0x14 r x.key 0 x.data
    else ((s.closeSession x.handle).commitApply x.key x.data).respond 0x14 r 0 0 [] := by
  simp only [Work.commitWhole, h]

theorem Work.countUnlock_get_of_ne {w : Work} {k q : Key} (hq : q ≠ Obj.signatureFailures) : (w.countUnlock k).get q = w.get q := by
  unfold Work.countUnlock
  split
  · rw [Work.add_get, if_neg hq.symm]
  · rfl

@[simp] theorem Work.countUnlock_dict (w : Work) (k : Key) : (w.countUnlock k).dict = w.dict := by
  unfold Work.countUnlock
  split <;> rfl

@[simp] theorem Work.countUnlock_boot (w : Work) (k : Key) : (w.countUnlock k).boot = w.boot := by
  unfold Work.countUnlock
  split <;> rfl

@[simp] theorem Work.respond_boot (w : Work) (op : Nat) (r : Req) (status detail : Nat) (payload : List Byte) :
    (w.respond op r status detail payload).boot = w.boot := by
  obtain ⟨objs, windows, os, h⟩ := w.respondFrom_eq w.ownDevice op r status detail payload
  rw [Work.respond, h]

@[simp] theorem Work.respond_hk (w : Work) (op : Nat) (r : Req) (status detail : Nat) (payload : List Byte) :
    (w.respond op r status detail payload).hk = w.hk := by
  obtain ⟨objs, windows, os, h⟩ := w.respondFrom_eq w.ownDevice op r status detail payload
  rw [Work.respond, h]
end

theorem State.run_boot (s : State) (f : Work → Work) : (s.run f).dev.boot = (f s.work).boot := by
  obtain ⟨ls, n, os, h⟩ := s.run_dev_eq f
  rw [h]

theorem State.run_hk (s : State) (f : Work → Work) : (s.run f).dev.hk = (f s.work).hk := by
  obtain ⟨ls, n, os, h⟩ := s.run_dev_eq f
  rw [h]

/-! ## The rows -/

theorem requestRow_of_commitRow {c : Instr} {r : Req} (h : commitRow c r) : requestRow c 0x14 r := by
  rcases h with rfl | rfl | rfl | rfl | rfl | rfl | rfl | rfl <;> exact fun _ => rfl

/-- A commit that its session's object permits: what the statement of commits assumes. -/
structure State.committing (s : State) (c : Instr) (r : Req) (x : Session) (row : Row) : Prop where
  isRow : commitRow c r
  takes : s.takes 0x14 r
  object : s.work.sessionRefused r = none
  session : s.work.sessionOf r = some x
  write : x.write = true
  payload : r.payload = []
  found : findRow x.key.index x.key.sub = some row
  allowed : s.work.writeRefused r.origin row = none

section
variable {s : State} {c : Instr} {r : Req} {x : Session} {row : Row}

theorem State.committing.exec_eq (h : s.committing c r x row) : ∃ ws p f, exec c s = .next (s.run (fun _ =>
    if x.data.length < x.declared then
      (((s.work.atTurn ws p f).closeSession x.handle).countUnlock x.key).refuseReq 0x14 r (0x0D, 1)
    else (s.work.atTurn ws p f).commitWhole r x row)) := by
  obtain ⟨ws, p, f, hexec⟩ := h.takes.exec_eq (by decide) (requestRow_of_commitRow h.isRow)
  refine ⟨ws, p, f, ?_⟩
  have hserve : (s.work.atTurn ws p f).serveOp 0x14 (seen 0x14 r) = (s.work.atTurn ws p f).segCommit r x := by
    rw [seen_of_sessionOp r (by decide)]
    exact Work.serveSession_of_session (s := s.work.atTurn ws p f) h.object h.session
  rw [hexec, hserve, Work.segCommit_eq (s := s.work.atTurn ws p f) h.write h.payload h.found h.allowed]

/-- A commit that is refused ends its session, and may count for OWNER_UNLOCK (R567). -/
theorem State.committing.refused (h : s.committing c r x row) {d : Nat}
    (hrefused : if x.data.length < x.declared then d = 1 else s.work.commitRefused r.origin x.key x.data = some d) :
    ∃ t, exec c s = .next t ∧ s.answer 0x14 r 0x0D d [] ∈ t.out.drop s.out.length ∧ (∀ y ∈ t.dev.dict.sessions, y.handle ≠ x.handle) ∧
      s.frame t [.dict, .links] (fun k => answerKey k ∨ k = Obj.requestsRefused ∨ k = Obj.signatureFailures) ∧ t.dev.boot = s.dev.boot := by
  obtain ⟨ws, p, f, hexec⟩ := h.exec_eq
  have hserve : (if x.data.length < x.declared then
      (((s.work.atTurn ws p f).closeSession x.handle).countUnlock x.key).refuseReq 0x14 r (0x0D, 1)
      else (s.work.atTurn ws p f).commitWhole r x row) =
      (((s.work.atTurn ws p f).closeSession x.handle).countUnlock x.key).respond 0x14 r 0x0D d [] := by
    split at hrefused
    · rw [if_pos ‹_›, hrefused]
      rfl
    · rw [if_neg ‹_›]
      exact Work.commitWhole_of_refused (s := s.work.atTurn ws p f) hrefused
  rw [hserve] at hexec
  have hkeeps : s.keeps ((s.work.atTurn ws p f).closeSession x.handle) [.dict, .links]
      (fun k => answerKey k ∨ k = Obj.requestsRefused ∨ k = Obj.signatureFailures) :=
    (State.keeps_atTurn (by simp) ws p f).modDict (by simp) _
  refine ⟨_, hexec, State.answer_mem_run rfl ?_, ?_, State.keeps.frame_respond (w := ((s.work.atTurn ws p f).closeSession x.handle).countUnlock x.key)
    ?_ rfl (by simp) (by simp) (fun _ => .inl) (.inr (.inr (.inl rfl))), ?_⟩
  · rw [Work.countUnlock_get_of_ne (by decide)]
    rfl
  · rw [State.run_dict, Work.respond_sessions, Work.countUnlock_dict]
    exact Work.mem_closeSession_ne
  · unfold Work.countUnlock
    split
    · exact hkeeps.add (.inr (.inr rfl)) 1
    · exact hkeeps
  · rw [State.run_boot, Work.respond_boot, Work.countUnlock_boot]
    rfl

/-- A valid value of an object that is not stored durably takes effect and is answered. -/
theorem State.committing.applied (h : s.committing c r x row) (hwhole : x.declared ≤ x.data.length)
    (hvalid : s.work.commitRefused r.origin x.key x.data = none) (hcls : row.cls ≠ .p) : ∃ ws p f, exec c s = .next (s.run (fun _ =>
      (((s.work.atTurn ws p f).closeSession x.handle).commitApply x.key x.data).respond 0x14 r 0 0 [])) := by
  obtain ⟨ws, p, f, hexec⟩ := h.exec_eq
  rw [if_neg (Nat.not_lt.mpr hwhole), Work.commitWhole_of_valid (s := s.work.atTurn ws p f) hvalid, if_neg hcls] at hexec
  exact ⟨ws, p, f, hexec⟩

/-- A committed SEQUENCE waits for its half's round (R537). -/
theorem Work.commitApply_sequence {w : Work} {k : Key} {b : List Byte} {h : Nat} {cfgs : List HkEntryCfg} (hrest : w.resting k.index = false)
    (hindex : k.index = 0x3811) (hsub : k.sub = h + 1) (hcfgs : hkValidate (w.get (Obj.roundUs h)) w.dram.off b = .ok cfgs) :
    w.commitApply k b = (w.setDom k b).setHk h { w.hkHalf h with committed := some cfgs } := by
  obtain ⟨index, sub, tenant⟩ := k
  subst hindex hsub
  simp [Work.commitApply, hrest, hcfgs]
  rfl

theorem Work.commitApply_firmwareImage (w : Work) (b : List Byte) :
    w.commitApply Obj.firmwareImage b = (w.setDom Obj.firmwareImage b).imageStore b := by
  simp [Work.commitApply, Work.resting, managerOnly]

theorem Work.commitApply_ownerUnlock (w : Work) (b : List Byte) : w.commitApply Obj.ownerUnlock b = w.unlock := by
  simp only [Work.commitApply, if_true]

/-- Unlocking clears KEY_LOCK and draws a new nonce. -/
theorem Work.unlock_get (w : Work) (k : Key) : w.unlock.get k =
    if Obj.unlockNonce = k then Config.freeValue w.free % 2 ^ 64 else if Obj.keyLock = k then 0 else w.get k :=
  (Work.set_get _ _ _ _).trans (congrArg _ (w.set_get _ _ _))

/-- A valid value stands once it is committed. -/
theorem State.committing.replaces (h : s.committing c r x row) (hwhole : x.declared ≤ x.data.length)
    (hvalid : s.work.commitRefused r.origin x.key x.data = none) (hcls : row.cls ≠ .p) (hkey : x.key ≠ Obj.ownerUnlock)
    (hrest : s.work.resting x.key.index = false) :
    ∃ t, exec c s = .next t ∧ s.accepted t 0x14 r ∧ t.domBytes x.key = x.data ∧ (∀ y ∈ t.dev.dict.sessions, y.handle ≠ x.handle) ∧
      (∀ h cfgs, h < 2 → x.key.index = 0x3811 → x.key.sub = h + 1 → hkValidate (s.val (Obj.roundUs h)) s.dev.dram.off x.data = .ok cfgs →
        (t.work.hkHalf h).committed = some cfgs ∧ (t.work.hkHalf h).entries = (s.work.hkHalf h).entries) := by
  obtain ⟨ws, p, f, hexec⟩ := h.applied hwhole hvalid hcls
  have happly : commitOnly (((s.work.atTurn ws p f).closeSession x.handle).setDom x.key x.data)
    (((s.work.atTurn ws p f).closeSession x.handle).commitApply x.key x.data) := Work.commitApply_only hkey hrest
  refine ⟨_, hexec, State.answer_mem_run rfl (happly.get _), ?_, ?_, fun half cfgs _ hindex hsub hcfgs => ?_⟩
  · rw [State.run_domBytes, Work.respond_dom, happly.dom, Work.setDom_dom, if_pos rfl]
  · rw [State.run_dict, Work.respond_sessions, happly.sessions]
    exact Work.mem_closeSession_ne
  · have hhk : (s.run (fun _ => (((s.work.atTurn ws p f).closeSession x.handle).commitApply x.key x.data).respond 0x14 r 0 0 [])).work.hkHalf half =
        { s.work.hkHalf half with committed := some cfgs } := by
      rw [Work.hkHalf, State.work_toDev, State.run_hk, Work.respond_hk,
        Work.commitApply_sequence (w := (s.work.atTurn ws p f).closeSession x.handle) hrest hindex hsub hcfgs]
      exact (Work.setHk_half _ _ _ _).trans (if_pos rfl)
    rw [hhk]
    exact ⟨rfl, rfl⟩

/-- A firmware image fills the inactive bank (R562). -/
theorem State.committing.firmware (h : s.committing c r x row) (hwhole : x.declared ≤ x.data.length) (hkey : x.key = Obj.firmwareImage) :
    ∃ t, exec c s = .next t ∧ t.dev.boot.banks = (if s.work.commitRefused r.origin x.key x.data = none then
      s.dev.boot.banks.set (1 - s.dev.boot.active) ⟨some x.data, Config.imageVersion x.data, Config.imageSvn x.data⟩ else s.dev.boot.banks) := by
  have hrow : (findRow Obj.firmwareImage.index Obj.firmwareImage.sub).map (·.cls) = some .d := by decide +kernel
  have hcls : row.cls ≠ .p := by
    rw [← hkey, h.found] at hrow
    simp [Option.some.inj hrow]
  cases hvalid : s.work.commitRefused r.origin x.key x.data with
  | none =>
    obtain ⟨ws, p, f, hexec⟩ := h.applied hwhole hvalid hcls
    refine ⟨_, hexec, ?_⟩
    rw [State.run_boot, Work.respond_boot, hkey, if_pos rfl]
    rw [Work.commitApply_firmwareImage]
    rfl
  | some d =>
    obtain ⟨t, hexec, -, -, -, hboot⟩ := h.refused (d := d) (by rw [if_neg (Nat.not_lt.mpr hwhole)]; exact hvalid)
    refine ⟨t, hexec, ?_⟩
    rw [hboot, if_neg (by simp)]

/-- OWNER_UNLOCK clears the lock (R567). -/
theorem State.committing.unlocks (h : s.committing c r x row) (hwhole : x.declared ≤ x.data.length) (hkey : x.key = Obj.ownerUnlock) :
    ∃ t, exec c s = .next t ∧ if s.work.commitRefused r.origin x.key x.data = none then s.accepted t 0x14 r ∧ t.val Obj.keyLock = 0
      else t.val Obj.keyLock = s.val Obj.keyLock := by
  have hrow : (findRow Obj.ownerUnlock.index Obj.ownerUnlock.sub).map (·.cls) = some .d := by decide +kernel
  have hcls : row.cls ≠ .p := by
    rw [← hkey, h.found] at hrow
    simp [Option.some.inj hrow]
  cases hvalid : s.work.commitRefused r.origin x.key x.data with
  | none =>
    obtain ⟨ws, p, f, hexec⟩ := h.applied hwhole hvalid hcls
    have hunlock : ∀ w : Work, w.commitApply x.key x.data = w.unlock := fun w => by rw [hkey, Work.commitApply_ownerUnlock]
    refine ⟨_, hexec, ?_⟩
    rw [if_pos rfl, hunlock]
    refine ⟨State.answer_mem_run rfl ?_, ?_⟩
    · rw [Work.unlock_get, if_neg (by decide), if_neg (by decide)]
      rfl
    · rw [State.run_val _ _ _ (by simp [linkCounter]), Work.respond_get_of_ok, if_neg (by decide), Work.unlock_get, if_neg (by decide), if_pos rfl]
  | some d =>
    obtain ⟨t, hexec, -, -, hframe, -⟩ := h.refused (d := d) (by rw [if_neg (Nat.not_lt.mpr hwhole)]; exact hvalid)
    refine ⟨t, hexec, ?_⟩
    rw [if_neg (by simp)]
    obtain ⟨-, -, -, -, hkeys⟩ := hframe
    exact hkeys _ (by simp [answerKey, linkCounter])

/-- A value of class P waits for the store (R47). -/
theorem State.committing.stores (h : s.committing c r x row) (hwhole : x.declared ≤ x.data.length)
    (hvalid : s.work.commitRefused r.origin x.key x.data = none) (hcls : row.cls = .p) (hfree : ∀ p ∈ s.dev.dict.persist, p.key ≠ x.key) :
    ∃ t, exec c s = .next t ∧ t.dev.dict.persist = s.dev.dict.persist ++ [⟨r, 0x14, x.key, 0, x.data, false⟩] ∧ s.frame t [.dict] (fun _ => False) := by
  obtain ⟨ws, p, f, hexec⟩ := h.exec_eq
  rw [if_neg (Nat.not_lt.mpr hwhole), Work.commitWhole_of_valid (s := s.work.atTurn ws p f) hvalid, if_pos hcls,
    Work.persistWrite_of_none (w := (s.work.atTurn ws p f).closeSession x.handle) hfree] at hexec
  refine ⟨_, hexec, by rw [State.run_dict]; rfl, ?_⟩
  exact State.keeps.frame_local (((State.keeps_atTurn (by simp) ws p f).modDict (by simp) _).modDict (by simp) _) (fun _ _ _ => List.not_mem_nil)
end

/-- Settles O11: a commit is refused, or takes effect as its object's owner says, or waits for the store. -/
theorem commitsReplaceWholeValues : Obligations.CommitsReplaceWholeValues := by
  unfold Obligations.CommitsReplaceWholeValues
  intro s c r x row hc htakes hobj hsession hwrite hpayload hrow hallowed
  have h : s.committing c r x row := ⟨hc, htakes, hobj, hsession, hwrite, hpayload, hrow, hallowed⟩
  refine ⟨fun d hwhole hrefused => ?_, fun hshort => ?_, h.replaces, h.firmware, h.unlocks, h.stores⟩
  · obtain ⟨t, hexec, hanswer, hsessions, hframe, -⟩ := h.refused (d := d) (by rwa [if_neg (Nat.not_lt.mpr hwhole)])
    exact ⟨t, hexec, hanswer, hsessions, hframe⟩
  · obtain ⟨t, hexec, hanswer, -, hframe, -⟩ := h.refused (d := 1) (by rw [if_pos hshort])
    exact ⟨t, hexec, hanswer, hframe⟩

end Sys2Proof.Machine
end

section
/-! SUPPORT. Function windows: GO, DONE_CLEAR and ABANDON (R59 to R64). -/

namespace Sys2Proof.Machine

theorem State.run_window (s : State) (f : Work → Work) (w : FnWin) : (s.run f).work.window w = (f s.work).window w := by
  simp only [Work.window, State.work_toDev, State.run_dict]

/-- The window of the caller that a window serves is that window. -/
theorem originWindow_FnWinOrigin {w : FnWin} (h : winOk w = true) : originWindow (FnWinOrigin w) = some w := by
  obtain ⟨port, fn⟩ := w
  simp only [winOk, Bool.and_eq_true, decide_eq_true_eq] at h
  obtain ⟨hport, -⟩ := h
  obtain rfl | rfl : port = 0 ∨ port = 1 := by omega
  · rfl
  · rfl

theorem FnWinOrigin_path_ne_fabric (w : FnWin) : (FnWinOrigin w).path ≠ .fabric := by
  unfold FnWinOrigin
  split <;> simp

theorem State.keeps.setWindow {s : State} {u : Work} {parts : List StatePart} {keys : Key → Prop} (h : s.keeps u parts keys)
    (hdict : StatePart.dict ∈ parts) (w : FnWin) (x : Window) : s.keeps (u.setWindow w x) parts keys :=
  h.modDict hdict (fun d => { d with windows := put u.dict.windows w x })

/-! ## Responses in a window -/

/-- A response completes its caller's window (R60). -/
theorem Work.respond_window {s : Work} {op : Nat} {r : Req} {status detail : Nat} {payload : List Byte} {w : FnWin}
    (hw : originWindow r.origin = some w) : (s.respond op r status detail payload).window w =
      (s.window w).complete (respHeader op s.ownDevice status detail payload.length r) payload := by
  have hpath : r.origin.path ≠ .fabric := by
    intro h
    rw [originWindow, h] at hw
    cases hw
  have hirq : ∀ (u : Work) (o : Origin), (u.doneIrq o).window w = u.window w := fun u o => by
    obtain ⟨os, -, h⟩ := u.doneIrq_spec o
    rw [h]
    rfl
  have hcounts : (if status = 0 then s.add Obj.requestsServed 1 else (s.add Obj.requestsServed 1).add Obj.requestsRefused 1).window w =
      s.window w := by
    split <;> rfl
  unfold Work.respond Work.respondFrom
  dsimp only
  generalize (if status = 0 then s.add Obj.requestsServed 1 else (s.add Obj.requestsServed 1).add Obj.requestsRefused 1) = u at hcounts ⊢
  split
  · exact absurd ‹_› hpath
  · rw [hirq, hw, ← hcounts]
    exact (Work.setWindow_window _ _ _ _).trans (if_pos rfl)

/-- What leaves a function's window goes to no link. -/
theorem Work.respond_sent_local {s : Work} {op : Nat} {r : Req} {status detail : Nat} {payload : List Byte} (hpath : r.origin.path ≠ .fabric)
    (hsent : s.sent = []) (dst link : Option Nat) (m : FabricMsg) : Output.fabric dst link m ∉ (s.respond op r status detail payload).sent := by
  obtain ⟨os, hv, h⟩ := s.respondFrom_sent_of_local s.ownDevice op r status detail payload hpath
  rw [Work.respond, h, hsent]
  simpa using vectorsOnly_local hv dst link m

/-! ## GO -/

/-- A window as GO leaves it, with the request that its registers hold (R60). -/
def Window.going (x : Window) (ctrl : Nat) (hdr payload : List Byte) : Window :=
  { x with hdr := (hdr ++ List.replicate 16 0).take 16, payload := payload.take 4096, doneIrq := bitAt ctrl 2, busy := true, done := false }

section
variable {s : State} {w : FnWin} {ctrl : Nat} {hdr payload : List Byte} {op : Nat} {q : Req}

/-- GO on an idle window starts the request that the header spells. -/
theorem Work.winCtrl_go {s : Work} (hreaches : s.reaches (FnWinOrigin w) = true) (hbusy : (s.window w).busy = false)
    (hparked : (s.window w).parked = false) (hgo : bitAt ctrl 0 = true)
    (hreq : reqOf (FnWinOrigin w) ((hdr ++ List.replicate 16 0).take 16) (payload.take 4096) = (op, q)) : ∃ ws,
      s.winCtrl w ctrl hdr payload = (s.atTurn ws s.dict.servedPath s.dict.servedFns).serveOrHold op q ∧
      look .reset ws w = (s.window w).going ctrl hdr payload := by
  cases hx : s.window w with
  | mk h resp bytes irq busy done parked =>
    rw [hx] at hbusy hparked
    cases hbusy
    cases hparked
    refine ⟨_, ?_, look_put_same _ (put s.dict.windows w
      ⟨(hdr ++ List.replicate 16 0).take 16, resp, payload.take 4096, bitAt ctrl 2, false, done, false⟩) w _⟩
    simp only [Work.winCtrl, hreaches, hx, hgo, hreq, Bool.not_true, Bool.false_eq_true, if_false, Bool.and_false, Bool.not_false, Bool.and_self,
      if_true]
    rfl

/-- A request started while the device boots waits, and its window is busy (R435). -/
theorem State.go_while_booting (hok : winOk w = true) (hreaches : s.work.reaches (FnWinOrigin w) = true) (hbusy : (s.work.window w).busy = false)
    (hparked : (s.work.window w).parked = false) (hgo : bitAt ctrl 0 = true)
    (hreq : reqOf (FnWinOrigin w) ((hdr ++ List.replicate 16 0).take 16) (payload.take 4096) = (op, q)) (hstage : s.dev.boot.stage < 4) :
    ∃ t, exec (.go w ctrl hdr payload) s = .next t ∧ t.dev.dict.held = s.dev.dict.held ++ [(op, q)] ∧ (t.work.window w).busy = true ∧
      (t.work.window w).done = false ∧ s.frame t [.dict] (fun _ => False) := by
  obtain ⟨ws, hstart, hwindow⟩ := Work.winCtrl_go hreaches hbusy hparked hgo hreq
  have hnot : ¬ ((s.work.boot.stage = 4 ∨ (s.work.boot.stage = 15 ∧ q.origin.path = .mgmt)) ∧ !s.work.staysBehind op q) := by
    rintro ⟨h | ⟨h, -⟩, -⟩ <;> rw [State.work_toDev] at h <;> omega
  have hheld : s.work.winCtrl w ctrl hdr payload =
      (s.work.atTurn ws s.work.dict.servedPath s.work.dict.servedFns).modDict (fun d => { d with held := d.held ++ [(op, q)] }) :=
    hstart.trans (if_neg hnot)
  have hwin : (s.run (fun x => x.winCtrl w ctrl hdr payload)).work.window w = (s.work.window w).going ctrl hdr payload := by
    rw [State.run_window, hheld, ← hwindow]
    rfl
  refine ⟨_, State.nextIf_true hok, ?_, ?_, ?_, State.keeps.frame_local ?_ ?_⟩
  · rw [State.run_dict, hheld]
    rfl
  · rw [hwin]
    rfl
  · rw [hwin]
    rfl
  · rw [hheld]
    exact (State.keeps_atTurn (by simp) _ _ _).modDict (by simp) _
  · rw [hheld]
    exact fun _ _ _ => List.not_mem_nil

/-- A READ that the dictionary takes is answered in the window (R60, R61). -/
theorem State.go_read {row : Row} {k : Key} (hok : winOk w = true) (hreaches : s.work.reaches (FnWinOrigin w) = true)
    (hbusy : (s.work.window w).busy = false) (hparked : (s.work.window w).parked = false) (hgo : bitAt ctrl 0 = true)
    (hreq : reqOf (FnWinOrigin w) ((hdr ++ List.replicate 16 0).take 16) (payload.take 4096) = (1, q)) (htakes : s.takes 1 q)
    (hobj : s.work.lookup (seen 1 q) = some (row, k)) (hwo : row.access ≠ .wo) (hdom : row.ty ≠ .domain)
    (hpower : s.work.readState q.index = none) (hpayload : q.payload = []) (hisland : islandServes s q) :
    ∃ t, exec (.go w ctrl hdr payload) s = .next t ∧ (t.work.window w).busy = false ∧ (t.work.window w).done = true ∧
      (t.work.window w).payload.take (s.work.readValue q.origin row k).length = s.work.readValue q.origin row k ∧
      s.answer 1 (seen 1 q) 0 0 (s.work.readValue q.origin row k) ∈ t.out.drop s.out.length ∧ s.frame t [.dict] (fun x => x = Obj.requestsServed) := by
  obtain ⟨ws, hstart, -⟩ := Work.winCtrl_go hreaches hbusy hparked hgo hreq
  obtain ⟨p, f, hserve⟩ := htakes.serveOrHold_eq (by decide) ws s.work.dict.servedPath s.work.dict.servedFns
  have hread : s.work.winCtrl w ctrl hdr payload = (s.work.atTurn ws p f).respond 1 (seen 1 q) 0 0 (s.work.readValue q.origin row k) :=
    (hstart.trans hserve).trans (State.serveOp_read_eq hobj hwo hdom hpower hpayload hisland ws p f)
  have horigin : (seen 1 q).origin = FnWinOrigin w := by
    rw [seen_origin, ← congrArg (fun x : Nat × Req => x.2.origin) hreq]
    rfl
  have hwin := (s.run_window (fun x => x.winCtrl w ctrl hdr payload) w).trans
    ((congrArg (fun x : Work => x.window w) hread).trans (Work.respond_window (horigin ▸ originWindow_FnWinOrigin hok)))
  refine ⟨_, State.nextIf_true hok, ?_, ?_, ?_, State.answer_mem_run hread rfl, State.keeps.frame_local ?_ ?_⟩
  · rw [hwin]
    rfl
  · rw [hwin]
    rfl
  · rw [hwin]
    exact List.take_left
  · rw [hread]
    exact (State.keeps_atTurn (by simp) ws p f).respondFrom (by simp) (by rfl) (.inl rfl) _
  · rw [hread]
    exact Work.respond_sent_local (horigin ▸ FnWinOrigin_path_ne_fabric w) rfl
end

/-! ## DONE_CLEAR and ABANDON -/

section
variable {s : State} {w : FnWin}

theorem State.doneClear_spec (hok : winOk w = true) :
    ∃ t, exec (.doneClear w) s = .next t ∧ (t.work.window w).done = false ∧ s.frame t [.dict] (fun _ => False) := by
  refine ⟨_, State.nextIf_true hok, ?_, State.keeps.frame_local ((s.keeps_work _ _).setWindow (by simp) w _) (fun _ _ _ => List.not_mem_nil)⟩
  rw [State.run_window, Work.setWindow_window, if_pos rfl]

/-- The parked requests once a caller's READ is dropped and the rest of its requests are left without an answer (R64). -/
def abandonAll (o : Origin) (l : List ParkedReq) : List ParkedReq :=
  (l.filter (fun p => !(decide (p.req.origin = o) && decide (p.opcode = 1)))).map (fun p => if p.req.origin = o then { p with dead := true } else p)

theorem Work.abandonWindow_eq {s : Work} (h : (s.window w).parked = true) : s.abandonWindow w =
    (s.setWindow w { s.window w with busy := false, parked := false }).modDict (fun d => { d with parked := abandonAll (FnWinOrigin w) d.parked }) := by
  simp [Work.abandonWindow, h, abandonAll, Work.modDict]

theorem abandonAll_dead {o : Origin} {l : List ParkedReq} {p : ParkedReq} (hp : p ∈ abandonAll o l) (ho : p.req.origin = o) :
    p.opcode ≠ 1 ∧ p.dead = true := by
  obtain ⟨x, hx, rfl⟩ := List.mem_map.mp hp
  obtain ⟨-, hkept⟩ := List.mem_filter.mp hx
  split at ho
  · rename_i hmine
    rw [if_pos hmine]
    exact ⟨by simpa [hmine] using hkept, rfl⟩
  · exact absurd ho ‹_›

theorem State.abandon_spec (hok : winOk w = true) (hparked : (s.work.window w).parked = true) : ∃ t, exec (.abandon w) s = .next t ∧
    (t.work.window w).busy = false ∧ (t.work.window w).parked = false ∧
    (∀ p ∈ t.dev.dict.parked, p.req.origin = FnWinOrigin w → p.opcode ≠ 1 ∧ p.dead = true) ∧ s.frame t [.dict] (fun _ => False) := by
  have habandon := Work.abandonWindow_eq hparked
  have hwin : (s.run (fun x => x.abandonWindow w)).work.window w = { s.work.window w with busy := false, parked := false } := by
    rw [State.run_window, habandon]
    exact (Work.setWindow_window _ _ _ _).trans (if_pos rfl)
  refine ⟨_, State.nextIf_true hok, by rw [hwin], by rw [hwin], fun p hp => abandonAll_dead (l := s.work.dict.parked) ?_, State.keeps.frame_local ?_ ?_⟩
  · rw [State.run_dict, habandon] at hp
    exact hp
  · rw [habandon]
    exact ((s.keeps_work _ _).setWindow (by simp) w _).modDict (by simp) _
  · rw [habandon]
    exact fun _ _ _ => List.not_mem_nil

theorem State.abandon_idle (hok : winOk w = true) (hparked : (s.work.window w).parked = false) :
    ∃ t, exec (.abandon w) s = .next t ∧ s.frame t [] (fun _ => False) :=
  ⟨_, State.nextIf_true hok, s.run_id _ (by simp [Work.abandonWindow, hparked])⟩
end

/-- Settles O12: GO by whether the device boots, and the two other writes of the window's registers. -/
theorem windowsCarryOneRequest : Obligations.WindowsCarryOneRequest := by
  unfold Obligations.WindowsCarryOneRequest
  refine fun s w hok => ⟨fun ctrl hdr payload op q hreaches hbusy hparked hgo hreq => ⟨?_, ?_⟩, State.doneClear_spec hok, State.abandon_spec hok,
    State.abandon_idle hok⟩
  · exact State.go_while_booting hok hreaches hbusy hparked hgo hreq
  · rintro row k rfl htakes hobj hwo hdom hpower hpayload hisland
    exact State.go_read hok hreaches hbusy hparked hgo hreq htakes hobj hwo hdom hpower hpayload hisland

end Sys2Proof.Machine
end

section
/-! SUPPORT. The management lane: forwarded requests, the manager's orders, the members' reports and the mirror (R56, R57, R387, R405). -/

namespace Sys2Proof.Machine

/-! ## The next state's parts -/

section
variable (s : State) (f : Work → Work)

theorem State.run_res : (s.run f).dev.res = (f s.work).res := by
  obtain ⟨ls, n, os, h⟩ := s.run_dev_eq f
  rw [h]

theorem State.run_vars : (s.run f).dev.vars = (f s.work).vars := by
  obtain ⟨ls, n, os, h⟩ := s.run_dev_eq f
  rw [h]

theorem State.run_serve : (s.run f).dev.serve = (f s.work).serve := by
  obtain ⟨ls, n, os, h⟩ := s.run_dev_eq f
  rw [h]

theorem State.run_group : (s.run f).dev.group = (f s.work).group := by
  obtain ⟨ls, n, os, h⟩ := s.run_dev_eq f
  rw [h]
end

section
variable {s : State} {w : Work} {parts : List StatePart} {keys : Key → Prop}

theorem State.keeps.send (h : s.keeps w parts keys) (o : Output) : s.keeps (w.send o) parts keys := h.sent _

theorem State.keeps.res (h : s.keeps w parts keys) (hres : StatePart.res ∈ parts) (res : ResState) : s.keeps { w with res := res } parts keys := by
  refine ⟨fun p hp => ?_, h.2⟩
  cases p with
  | res => exact absurd hres hp
  | _ => exact h.1 _ hp

theorem State.keeps.modVars (h : s.keeps w parts keys) (hvars : StatePart.vars ∈ parts) (f : VarState → VarState) :
    s.keeps (w.modVars f) parts keys := by
  refine ⟨fun p hp => ?_, h.2⟩
  cases p with
  | vars => exact absurd hvars hp
  | _ => exact h.1 _ hp

theorem State.keeps.modServe (h : s.keeps w parts keys) (hserve : StatePart.serve ∈ parts) (f : ServeState → ServeState) :
    s.keeps (w.modServe f) parts keys := by
  refine ⟨fun p hp => ?_, h.2⟩
  cases p with
  | serve => exact absurd hserve hp
  | _ => exact h.1 _ hp

theorem State.keeps.setDom (h : s.keeps w parts keys) (hdoms : StatePart.doms ∈ parts) (k : Key) (b : List Byte) :
    s.keeps (w.setDom k b) parts keys := by
  refine ⟨fun p hp => ?_, h.2⟩
  cases p with
  | doms => exact absurd hdoms hp
  | _ => exact h.1 _ hp

/-- A command whose work sends nothing leaves all but what the work has changed. -/
theorem State.keeps.frame_silent {f : Work → Work} (h : s.keeps (f s.work) parts keys) (hsent : (f s.work).sent = []) :
    s.frame (s.run f) parts keys := h.frame_local (fun _ _ _ => by simp [hsent])
end

/-! ## Forwarded requests (R56, R57) -/

section
variable {s : State} {op tag src status detail : Nat} {payload : List Byte}

/-- A response that no request awaits has no effect. -/
theorem Work.dictResponse_of_none {w : Work}
    (h : ∀ f ∈ w.dict.forwarded, src ∉ f.waiting ∨ f.req.tag ≠ tag ∨ (f.opcode ||| 0x80) ≠ op) :
    w.dictResponse op tag src status detail payload = w := by
  have hfind : w.dict.forwarded.find? (fun f => f.waiting.contains src && f.req.tag = tag && (f.opcode ||| 0x80) = op) = none := by
    refine List.find?_eq_none.mpr fun f hf => ?_
    simpa [and_assoc, imp_iff_not_or] using h f hf
  simp only [Work.dictResponse, hfind]

/-- The response of the member that a request was forwarded to goes to the request's caller. -/
theorem Work.dictResponse_of_awaited {w : Work} {f : Forwarded} {rest : List Forwarded} (hforwarded : w.dict.forwarded = f :: rest)
    (hsrc : src ∈ f.waiting) (htag : f.req.tag = tag) (hop : (f.opcode ||| 0x80) = op) (htarget : f.req.target ≠ 255)
    (hpath : f.req.origin.path ≠ .fabric) : w.dictResponse op tag src status detail payload =
      (w.modDict (fun d => { d with forwarded := rest })).respondFrom src f.opcode f.req status detail payload := by
  have hfind : w.dict.forwarded.find? (fun f => f.waiting.contains src && f.req.tag = tag && (f.opcode ||| 0x80) = op) = some f := by
    simp [hforwarded, hsrc, htag, hop]
  have herase : w.modDict (fun d => { d with forwarded := d.forwarded.erase f }) = w.modDict (fun d => { d with forwarded := rest }) := by
    simp [Work.modDict, hforwarded]
  simp only [Work.dictResponse, hfind, herase, Work.answered, if_neg hpath, if_pos htarget]

theorem State.dictResponse_awaited {f : Forwarded} {rest : List Forwarded} (hforwarded : s.dev.dict.forwarded = f :: rest) (hsrc : src ∈ f.waiting)
    (htag : f.req.tag = tag) (hop : (f.opcode ||| 0x80) = op) (htarget : f.req.target ≠ 255) (hpath : f.req.origin.path ≠ .fabric) :
    ∃ t, exec (.dictResponse op tag src status detail payload) s = .next t ∧ t.dev.dict.forwarded = rest ∧
      Output.response f.req.origin op tag src status f.req.index f.req.sub (reqWord9 f.req) detail payload ∈ t.out.drop s.out.length ∧
      s.frame t [.dict] (fun x => x = Obj.requestsServed ∨ x = Obj.requestsRefused) := by
  have hresponse := Work.dictResponse_of_awaited (w := s.work) (status := status) (detail := detail) (payload := payload) hforwarded hsrc htag hop
    htarget hpath
  obtain ⟨os, hv, hsent⟩ := (s.work.modDict (fun d => { d with forwarded := rest })).respondFrom_sent_of_local src f.opcode f.req status detail
    payload hpath
  rw [hop, htag] at hsent
  refine ⟨_, rfl, ?_, State.mem_drop_run_out ?_, State.keeps.frame_local ?_ ?_⟩
  · obtain ⟨objs, windows, os', h⟩ := (s.work.modDict (fun d => { d with forwarded := rest })).respondFrom_eq src f.opcode f.req status detail payload
    rw [State.run_dict, hresponse, h]
    rfl
  · rw [hresponse, hsent]
    exact List.mem_append_right _ List.mem_cons_self
  · rw [hresponse]
    exact ((s.keeps_work _ _).modDict (by simp) _).respondFrom (by simp) (.inl rfl) (.inr (.inr rfl)) _
  · rw [hresponse, hsent]
    simpa using vectorsOnly_local hv
end

/-- DICT_REQUEST of a READ is answered on the fabric. -/
theorem State.takes.dictRequest_read {s : State} {r : Req} {row : Row} {k : Key} (h : s.takes 1 { r with origin := ⟨.fabric, 0⟩ })
    (hobj : s.work.lookup { r with origin := ⟨.fabric, 0⟩ } = some (row, k)) (hwo : row.access ≠ .wo) (hdom : row.ty ≠ .domain)
    (hpower : s.work.readState r.index = none) (hpayload : r.payload = []) (hisland : islandServes s r) :
    ∃ t, exec (.dictRequest 1 r) s = .next t ∧
      Output.fabric (some 0) none (.dictResponse 0x81 r.tag 0 0 (s.work.readValue ⟨.fabric, 0⟩ row k)) ∈ t.out.drop s.out.length ∧
      s.frame t [.dict, .links] answerKey := by
  have hseen : seen 1 { r with origin := ⟨.fabric, 0⟩ } = { r with origin := ⟨.fabric, 0⟩ } := seen_of_not_tenant 1 rfl
  obtain ⟨t, hexec, hanswer, hframe⟩ := h.answered (c := .dictRequest 1 r) (by decide) (fun _ => rfl)
    (State.serveOp_read_eq (hseen.symm ▸ hobj) hwo hdom hpower hpayload hisland) (fun _ => id) (.inl rfl)
  rw [hseen] at hanswer
  exact ⟨t, hexec, hanswer, hframe⟩

/-! ## Orders (R387) -/

/-- An order to a device that is neither worker nor standby has no effect. -/
theorem Work.order_of_no_member {w : Work} (h : w.get Obj.role = 0 ∨ w.get Obj.role = 1) (o : OrderKind) : w.order o = w := by
  have hworker : w.isWorker = false := by rcases h with h | h <;> simp [Work.isWorker, h]
  have hstandby : w.isStandby = false := by rcases h with h | h <;> simp [Work.isStandby, h]
  simp [Work.order, hworker, hstandby]

/-- The standby heeds the orders of power and dissolution alone. -/
theorem Work.order_of_standby {w : Work} (h : w.get Obj.role = 2) {o : OrderKind} (hpower : ∀ n, o ≠ .power n) (hdissolve : o ≠ .dissolve) :
    w.order o = w := by
  have hworker : w.isWorker = false := by simp [Work.isWorker, h]
  have hstandby : w.isStandby = true := by simp [Work.isStandby, h]
  cases o with
  | power n => exact absurd rfl (hpower n)
  | dissolve => exact absurd rfl hdissolve
  | _ => simp [Work.order, hworker, hstandby]

section
variable {w : Work}

theorem Work.isWorker_of_role (h : w.get Obj.role = 3) : w.isWorker = true := by simp [Work.isWorker, h]

/-- Dissolution leaves the group, at a worker as at the standby. -/
theorem Work.order_dissolve (h : w.get Obj.role = 3 ∨ w.get Obj.role = 2) : w.order .dissolve = w.leaveGroup := by
  rcases h with h | h <;> simp [Work.order, Work.isWorker, Work.isStandby, h]

theorem Work.leaveGroup_get (w : Work) : w.leaveGroup.get Obj.role = 0 ∧ w.leaveGroup.get Obj.deviceId = 254 ∧
    w.leaveGroup.get Obj.groupState = 0 := by
  simp [Work.leaveGroup]

theorem Work.setSlotState_get (w : Work) (n st : Nat) (k : Key) : (w.setSlotState n st).get k = if Obj.slotState n = k then st else w.get k := by
  rw [← Work.set_get]
  unfold Work.setSlotState
  dsimp only
  split <;> rfl

theorem State.keeps.setSlotState {s : State} {parts : List StatePart} {keys : Key → Prop} (h : s.keeps w parts keys) {n : Nat}
    (hn : keys (Obj.slotState n)) (st : Nat) : s.keeps (w.setSlotState n st) parts keys := by
  unfold Work.setSlotState
  dsimp only
  split
  · exact (h.set hn st).send _
  · exact h.set hn st

theorem Work.releaseSlot_get_slotState (w : Work) (n : Nat) : (w.releaseSlot n).get (Obj.slotState n) = 0 :=
  (Work.setSlotState_get _ _ _ _).trans (if_pos rfl)
end

/-- A held set takes its place once its part is placed. -/
theorem Work.holdSet_held (w : Work) (x : HeldSet) : ∃ p, { x with placed := p } ∈ (w.holdSet x).vars.held :=
  ⟨_, List.mem_append_right _ (List.mem_singleton.mpr rfl)⟩

theorem State.keeps.holdSet {s : State} {w : Work} {parts : List StatePart} {keys : Key → Prop} (h : s.keeps w parts keys) (hvars : StatePart.vars ∈ parts)
    (hkey : keys Obj.deltaCrossBytes) (x : HeldSet) : s.keeps (w.holdSet x) parts keys :=
  ((h.modVars hvars _).modVars hvars _).add hkey _

section
variable {s : State} {n : Nat} (h : s.val Obj.role = 3)
include h

theorem State.order_pause (us : Int) : ∃ t, exec (.order (.pause n us)) s = .next t ∧ n ∈ t.dev.res.paused ∧ n ∉ t.dev.res.pauseAsked ∧
    s.frame t [.res] (fun _ => False) := by
  have horder : s.work.order (.pause n us) = { s.work with res := { s.work.res with
      paused := if s.work.res.paused.contains n then s.work.res.paused else s.work.res.paused ++ [n]
      pauseAsked := s.work.res.pauseAsked.filter (· ≠ n) } } := if_pos (Work.isWorker_of_role h)
  refine ⟨_, rfl, ?_, ?_, State.keeps.frame_silent ?_ ?_⟩
  · rw [State.run_res, horder]
    dsimp only
    split
    next hmem => exact List.contains_iff_mem.mp hmem
    next => exact List.mem_append_right _ (List.mem_singleton.mpr rfl)
  · rw [State.run_res, horder]
    simp
  · rw [horder]
    exact (s.keeps_work _ _).res (by simp) _
  · rw [horder]
    rfl

theorem State.order_drain (hready : s.val (Obj.slotState n) = 3) : ∃ t, exec (.order (.drain n)) s = .next t ∧ t.val (Obj.slotState n) = 4 ∧
    s.frame t [.links] (fun k => k = Obj.slotState n ∨ linkCounter k) := by
  have horder : s.work.order (.drain n) = s.work.setSlotState n 4 := (if_pos (Work.isWorker_of_role h)).trans (if_pos hready)
  refine ⟨_, rfl, ?_, State.keeps.frame ?_ (by simp) (fun _ => .inr)⟩
  · rw [State.run_val _ _ _ (by simp [linkCounter]), horder, Work.setSlotState_get, if_pos rfl]
  · rw [horder]
    exact (s.keeps_work _ _).setSlotState (.inl rfl) 4

theorem State.order_drainComplete {kind : Nat} (hdraining : s.val (Obj.slotState n) = 4) (hkind : kind ≠ 0) :
    ∃ t, exec (.order (.drainComplete n kind)) s = .next t ∧ t.val (Obj.slotState n) = 3 ∧ n ∈ t.dev.res.awaiting ∧
      s.frame t [.links, .res] (fun k => k = Obj.slotState n ∨ linkCounter k) := by
  have horder : s.work.order (.drainComplete n kind) =
      { s.work.setSlotState n 3 with res := { s.work.res with awaiting := s.work.res.awaiting ++ [n] } } := by
    refine (if_pos (Work.isWorker_of_role h)).trans ?_
    change s.work.drainDone n kind = _
    have hstate : ¬ s.work.get (Obj.slotState n) ≠ 4 := not_not.mpr hdraining
    rw [Work.drainDone, if_neg hstate, if_neg hkind]
  refine ⟨_, rfl, ?_, ?_, State.keeps.frame ?_ (by simp) (fun _ => .inr)⟩
  · rw [State.run_val _ _ _ (by simp [linkCounter]), horder]
    exact (Work.setSlotState_get _ _ _ _).trans (if_pos rfl)
  · rw [State.run_res, horder]
    simp
  · rw [horder]
    exact ((s.keeps_work _ _).setSlotState (.inl rfl) 3).res (by simp) _

theorem State.order_release (hdraining : s.val (Obj.slotState n) = 4) :
    ∃ t, exec (.order (.drainComplete n 0)) s = .next t ∧ t.val (Obj.slotState n) = 0 := by
  have horder : s.work.order (.drainComplete n 0) = s.work.releaseSlot n := by
    refine (if_pos (Work.isWorker_of_role h)).trans ?_
    have hstate : ¬ s.work.get (Obj.slotState n) ≠ 4 := not_not.mpr hdraining
    change s.work.drainDone n 0 = _
    rw [Work.drainDone, if_neg hstate, if_pos rfl]
  refine ⟨_, rfl, ?_⟩
  rw [State.run_val _ _ _ (by simp [linkCounter]), horder, Work.releaseSlot_get_slotState]

theorem State.order_deltaInstall {v ver handle : Nat} {c : CheckedPart} (hchecked : s.dev.vars.checked = [c]) (hslot : c.slot = n)
    (hvariant : c.variant = v) : ∃ t, exec (.order (.deltaInstall n v ver handle)) s = .next t ∧ t.dev.vars.checked = [] ∧
      (∃ x ∈ t.dev.vars.held, x.handle = handle ∧ x.slot = n ∧ x.variant = v ∧ x.version = ver ∧ x.part = c.part) ∧
      s.frame t [.vars] (fun k => k = Obj.deltaCrossBytes) := by
  have hfind : s.work.vars.checked.find? (fun (c : CheckedPart) => c.slot = n && c.variant = v) = some c := by
    simp [hchecked, hslot, hvariant]
  have horder : s.work.order (.deltaInstall n v ver handle) =
      (s.work.modVars (fun v => { v with checked := v.checked.filter (fun (x : CheckedPart) => decide (x ≠ c)) })).holdSet
        ⟨handle, n, v, ver, c.part, false, (0, 0), none⟩ := by
    refine (if_pos (Work.isWorker_of_role h)).trans ?_
    change s.work.deltaInstallOrder n v ver handle = _
    simp only [Work.deltaInstallOrder, hfind]
  obtain ⟨p, hheld⟩ := Work.holdSet_held (s.work.modVars (fun v => { v with checked := v.checked.filter (fun (x : CheckedPart) => decide (x ≠ c)) }))
    ⟨handle, n, v, ver, c.part, false, (0, 0), none⟩
  refine ⟨_, rfl, ?_, ⟨⟨handle, n, v, ver, c.part, false, p, none⟩, ?_, rfl, rfl, rfl, rfl, rfl⟩, State.keeps.frame_silent ?_ ?_⟩
  · rw [State.run_vars, horder]
    change s.dev.vars.checked.filter _ = []
    simp [hchecked]
  · rw [State.run_vars, horder]
    exact hheld
  · rw [horder]
    exact ((s.keeps_work _ (· = Obj.deltaCrossBytes)).modVars (by simp) _).holdSet (by simp) rfl _
  · rw [horder]
    rfl

theorem State.order_deltaDrop (v handle : Nat) : ∃ t, exec (.order (.deltaDrop n v handle)) s = .next t ∧
    (∀ x ∈ t.dev.vars.held, x.handle ≠ handle) ∧ s.frame t [.vars] (fun _ => False) := by
  have horder : s.work.order (.deltaDrop n v handle) = s.work.deltaDropOrder n v handle := if_pos (Work.isWorker_of_role h)
  refine ⟨_, rfl, fun x hx => ?_, State.keeps.frame_silent ?_ ?_⟩
  · rw [State.run_vars, horder] at hx
    simpa using (List.mem_filter.mp hx).2
  · rw [horder]
    exact (s.keeps_work _ _).modVars (by simp) _
  · rw [horder]
    rfl
end

/-! ## Reports (R387, R491) -/

section
variable {s : State} {w : Nat}

theorem Work.orderReport_of_other {u : Work} (h : u.get Obj.role ≠ 1 ∨ w ∉ u.workers) (x : ReportKind) : u.orderReport w x = u := by
  refine if_pos ?_
  rcases h with h | h
  · simp [Work.isManager, h]
  · simp [h]

/-- A report of a worker of the group passes the check of its sender. -/
theorem Work.not_other_of_worker {u : Work} (hrole : u.get Obj.role = 1) (hw : w ∈ u.workers) : ¬ (!u.isManager || !u.workers.contains w) = true := by
  simp [Work.isManager, hrole, hw]

/-- While a step is planned the planner does not run. -/
theorem Work.idle_of_plan {u : Work} (h : u.serve.plan ≠ none) : u.idle = u := by
  cases hplan : u.serve.plan with
  | none => exact absurd hplan h
  | some p => simp [Work.idle, hplan]

theorem State.report_setPoisoned (hrole : s.val Obj.role = 1) (hw : w ∈ s.work.workers) (handle : Nat) :
    ∃ t, exec (.orderReport w (.setPoisoned handle)) s = .next t ∧ t.dev.serve.badSets = s.dev.serve.badSets ++ [handle] ∧
      s.frame t [.serve] (fun _ => False) := by
  have hreport : s.work.orderReport w (.setPoisoned handle) = s.work.modServe (fun v => { v with badSets := v.badSets ++ [handle] }) :=
    if_neg (Work.not_other_of_worker hrole hw)
  refine ⟨_, rfl, ?_, State.keeps.frame_silent ?_ ?_⟩
  · rw [State.run_serve, hreport]
    rfl
  · rw [hreport]
    exact (s.keeps_work _ _).modServe (by simp) _
  · rw [hreport]
    rfl

theorem State.report_pauseAsked (hrole : s.val Obj.role = 1) (hw : w ∈ s.work.workers) (hplan : s.dev.serve.plan ≠ none) (n m : Nat) :
    ∃ t, exec (.orderReport w (.pauseAsked n m)) s = .next t ∧ t.dev.serve.pauses = s.dev.serve.pauses ++ [⟨n, w, m, false, 0⟩] ∧
      s.frame t [.serve] (fun _ => False) := by
  have hreport : s.work.orderReport w (.pauseAsked n m) = s.work.modServe (fun v => { v with pauses := v.pauses ++ [⟨n, w, m, false, 0⟩] }) :=
    (if_neg (Work.not_other_of_worker hrole hw)).trans (Work.idle_of_plan hplan)
  refine ⟨_, rfl, ?_, State.keeps.frame_silent ?_ ?_⟩
  · rw [State.run_serve, hreport]
    rfl
  · rw [hreport]
    exact (s.keeps_work _ _).modServe (by simp) _
  · rw [hreport]
    rfl

/-- The manager's records of the slots once a worker has reported one. -/
def heldWith (x : SlotHeld) (l : List SlotHeld) : List SlotHeld := l.filter (fun y => !(y.worker = x.worker && y.slot = x.slot)) ++ [x]

theorem eq_of_mem_heldWith {x y : SlotHeld} {l : List SlotHeld} (hy : y ∈ heldWith x l) (hworker : y.worker = x.worker) (hslot : y.slot = x.slot) :
    y = x := by
  rcases List.mem_append.mp hy with hold | hnew
  · simpa [hworker, hslot] using (List.mem_filter.mp hold).2
  · exact List.mem_singleton.mp hnew

/-- A slot's report replaces the worker's record of that slot; a new program takes its derived cost besides. -/
theorem Work.slotReported_cases (u : Work) (x : SlotHeld) : ∃ f : ServeState → ServeState, (f u.serve).held = heldWith x u.serve.held ∧
    (f u.serve).plan = u.serve.plan ∧ (u.slotReported x = u.modServe f ∨
      u.slotReported x = (u.modServe f).setDom (Obj.stepCost x.slot) (Config.derivedCost x.program)) := by
  refine ⟨_, ?_, ?_, (ite_eq_or_eq _ _ _).symm⟩ <;> rfl

theorem Work.slotReported_held (u : Work) (x : SlotHeld) : (u.slotReported x).serve.held = heldWith x u.serve.held := by
  obtain ⟨f, hheld, -, h | h⟩ := u.slotReported_cases x <;> exact h ▸ hheld

theorem Work.slotReported_plan (u : Work) (x : SlotHeld) : (u.slotReported x).serve.plan = u.serve.plan := by
  obtain ⟨f, -, hplan, h | h⟩ := u.slotReported_cases x <;> exact h ▸ hplan

theorem Work.slotReported_sent (u : Work) (x : SlotHeld) : (u.slotReported x).sent = u.sent := by
  obtain ⟨f, -, -, h | h⟩ := u.slotReported_cases x <;> exact h ▸ rfl

theorem State.keeps.slotReported {u : Work} {parts : List StatePart} {keys : Key → Prop} (h : s.keeps u parts keys) (hserve : StatePart.serve ∈ parts)
    (hdoms : StatePart.doms ∈ parts) (x : SlotHeld) : s.keeps (u.slotReported x) parts keys := by
  obtain ⟨f, -, -, hreport | hreport⟩ := u.slotReported_cases x
  · exact hreport ▸ h.modServe hserve f
  · exact hreport ▸ (h.modServe hserve f).setDom hdoms _ _

theorem State.report_slotState (hrole : s.val Obj.role = 1) (hw : w ∈ s.work.workers) (hplan : s.dev.serve.plan ≠ none)
    (n st d b v ds ps vo k : Nat) (p sh sets : List Byte) :
    ∃ t, exec (.orderReport w (.slotState n st d b v ds ps vo k p sh sets)) s = .next t ∧
      (∀ x ∈ t.dev.serve.held, x.worker = w → x.slot = n → x = ⟨w, n, st, d, b, v, ds, ps, vo, k, p, sh, sets⟩) ∧
      ⟨w, n, st, d, b, v, ds, ps, vo, k, p, sh, sets⟩ ∈ t.dev.serve.held ∧ s.frame t [.serve, .doms] (fun _ => False) := by
  have hreport : s.work.orderReport w (.slotState n st d b v ds ps vo k p sh sets) =
      s.work.slotReported ⟨w, n, st, d, b, v, ds, ps, vo, k, p, sh, sets⟩ :=
    (if_neg (Work.not_other_of_worker hrole hw)).trans (Work.idle_of_plan (by rwa [Work.slotReported_plan]))
  have hheld : (s.run (fun u => u.orderReport w (.slotState n st d b v ds ps vo k p sh sets))).dev.serve.held =
      heldWith ⟨w, n, st, d, b, v, ds, ps, vo, k, p, sh, sets⟩ s.dev.serve.held := by
    rw [State.run_serve, hreport, Work.slotReported_held]
    rfl
  refine ⟨_, rfl, fun x hx hworker hslot => ?_, ?_, State.keeps.frame_silent ?_ ?_⟩
  · rw [hheld] at hx
    exact eq_of_mem_heldWith hx hworker hslot
  · rw [hheld]
    exact List.mem_append_right _ (List.mem_singleton.mpr rfl)
  · rw [hreport]
    exact (s.keeps_work _ _).slotReported (by simp) (by simp) _
  · rw [hreport, Work.slotReported_sent]
    rfl

theorem State.sweepRecords_other (h : s.val Obj.role ≠ 1 ∨ w ∉ s.work.workers) (rs : List SweepRec) :
    ∃ t, exec (.sweepRecords w rs) s = .next t ∧ s.frame t [] (fun _ => False) := by
  refine ⟨_, rfl, s.run_id _ (if_neg ?_)⟩
  rcases h with h | h
  · have hrole : s.work.get Obj.role ≠ 1 := h
    simp [Work.isManager, hrole]
  · simp [h]

theorem State.keeps.foldl_setDom {u : Work} {parts : List StatePart} {keys : Key → Prop} (hdoms : StatePart.doms ∈ parts) (k : Nat → Key)
    (b : Nat → List Byte) (l : List Nat) (h : s.keeps u parts keys) :
    s.keeps (l.foldl (fun (v : Work) n => v.setDom (k n) (b n)) u) parts keys := by
  induction l generalizing u with
  | nil => exact h
  | cons n l ih => exact ih (h.setDom hdoms _ _)

/-- The digests that the manager gathers change the sweep's records and the slots' tables. -/
theorem State.keeps_gatherSweep (s : State) (w : Nat) (rs : List SweepRec) :
    s.keeps (s.work.gatherSweep w rs) [.rel, .doms] (fun _ => False) :=
  .foldl_setDom (by simp) Obj.slotDigests _ _ ((s.keeps_work _ _).rel (by simp) _)

theorem State.sweepRecords_gathered (hrole : s.val Obj.role = 1) (hw : w ∈ s.work.workers) (rs : List SweepRec) :
    ∃ t, exec (.sweepRecords w rs) s = .next t ∧
      t.dev.rel.slotDigests = s.dev.rel.slotDigests.filter (fun x => decide (x.1 ≠ w)) ++ rs.map (fun r => (w, r.slot, r)) ∧
      s.frame t [.rel, .doms] (fun _ => False) := by
  have hrole' : s.work.get Obj.role = 1 := hrole
  have hgather : (if s.work.isManager && s.work.workers.contains w then s.work.gatherSweep w rs else s.work) = s.work.gatherSweep w rs :=
    if_pos (by simp [Work.isManager, hrole', hw])
  refine ⟨_, rfl, ?_, State.keeps.frame_silent ?_ ?_⟩
  · rw [State.run_rel, hgather]
    rfl
  · rw [hgather]
    exact s.keeps_gatherSweep w rs
  · rw [hgather]
    rfl
end

/-! ## The mirror (R405) -/

theorem Work.foldl_set_objs (l : List MirrorObj) (w : Work) :
    ∃ objs, l.foldl (fun (s : Work) (o : MirrorObj) => s.set ⟨o.index, o.sub, o.tenant⟩ o.value) w = { w with objs := objs } := by
  induction l generalizing w with
  | nil => exact ⟨w.objs, rfl⟩
  | cons o l ih =>
    obtain ⟨objs, h⟩ := ih (w.set ⟨o.index, o.sub, o.tenant⟩ o.value)
    exact ⟨objs, h⟩

theorem State.mirror_elsewhere {s : State} {x : MirrorMsg} (h : s.val Obj.role ≠ 2 ∨ s.val Obj.groupState ≠ 2) :
    ∃ t, exec (.mirror x) s = .next t ∧ s.frame t [] (fun _ => False) := by
  refine ⟨_, rfl, s.run_id _ (if_pos ?_)⟩
  rcases h with h | h <;> change s.work.get _ ≠ 2 at h <;> simp [Work.isStandby, Work.formed, h]

theorem State.mirror_kept {s : State} {x : MirrorMsg} (hrole : s.val Obj.role = 2) (hformed : s.val Obj.groupState = 2) :
    ∃ t, exec (.mirror x) s = .next t ∧ t.dev.group.heard = true ∧
      t.dev.group.mirror = x.entries.foldl (fun m e => put m e.1 e.2) s.dev.group.mirror ∧
      t.dev.serve.grammars = x.grammars.map (fun g => ⟨g.serial, g.owner, g.id, g.installed, g.bad, g.image⟩) ∧ t.mem = s.mem := by
  have hhere : ¬ (!s.work.isStandby || !s.work.formed) = true := by
    change s.work.get _ = 2 at hrole hformed
    simp [Work.isStandby, Work.formed, hrole, hformed]
  have hmirror : ∃ group vars serve objs, s.work.mirrorIn x = { s.work with group := group, vars := vars, serve := serve, objs := objs } ∧
      group.heard = true ∧ group.mirror = x.entries.foldl (fun m e => put m e.1 e.2) s.dev.group.mirror ∧
      serve.grammars = x.grammars.map (fun g => ⟨g.serial, g.owner, g.id, g.installed, g.bad, g.image⟩) := by
    unfold Work.mirrorIn
    rw [if_neg hhere]
    obtain ⟨objs, h⟩ := Work.foldl_set_objs x.objects _
    exact ⟨_, _, _, objs, h, rfl, rfl, rfl⟩
  obtain ⟨group, vars, serve, objs, hwork, hheard, hentries, hgrammars⟩ := hmirror
  refine ⟨_, rfl, ?_, ?_, ?_, State.run_mem_same _ _ ?_⟩
  · rw [State.run_group, hwork, hheard]
  · rw [State.run_group, hwork, hentries]
  · rw [State.run_serve, hwork, hgrammars]
  · rw [hwork]
    rfl

/-- Settles O51: each message by the member it is for; at any other device its work is the identity. -/
theorem fabricMessagesReachTheirMember : Obligations.FabricMessagesReachTheirMember := by
  unfold Obligations.FabricMessagesReachTheirMember
  refine ⟨?_, fun s op tag src status detail payload => ⟨fun h => ⟨_, rfl, s.run_id _ (Work.dictResponse_of_none h)⟩, ?_⟩, fun s o => ?_,
    fun s w => ?_, fun s x => ⟨State.mirror_elsewhere, State.mirror_kept⟩⟩
  · rintro s r q row k rfl h hobj hwo hdom hpower hpayload hisland
    exact h.dictRequest_read hobj hwo hdom hpower hpayload hisland
  · exact fun f rest => State.dictResponse_awaited
  · refine ⟨fun h => ⟨_, rfl, s.run_id _ (Work.order_of_no_member h o)⟩, fun n us h => State.order_pause h us, fun n h => State.order_drain h,
      fun n kind h => State.order_drainComplete h, fun n h => State.order_release h, fun h => ?_,
      fun h hpower hdissolve => ⟨_, rfl, s.run_id _ (Work.order_of_standby h hpower hdissolve)⟩,
      fun n v ver handle c h => State.order_deltaInstall h, fun n v handle h => State.order_deltaDrop h v handle⟩
    obtain ⟨hrole, hdevice, hstate⟩ := s.work.leaveGroup_get
    have hval : ∀ k, ¬ linkCounter k → (s.run (fun w => w.order .dissolve)).val k = s.work.leaveGroup.get k := fun k hk => by
      rw [State.run_val _ _ _ hk, Work.order_dissolve h]
    refine ⟨_, rfl, ?_, ?_, ?_⟩
    · exact (hval _ (by simp [linkCounter])).trans hrole
    · exact (hval _ (by simp [linkCounter])).trans hdevice
    · exact (hval _ (by simp [linkCounter])).trans hstate
  · exact ⟨fun x h => ⟨_, rfl, s.run_id _ (Work.orderReport_of_other h x)⟩, fun handle hrole hw => State.report_setPoisoned hrole hw handle,
      fun n m hrole hw hplan => State.report_pauseAsked hrole hw hplan n m,
      fun n st d b v ds ps vo k p sh sets hrole hw hplan => State.report_slotState hrole hw hplan n st d b v ds ps vo k p sh sets,
      fun rs h => State.sweepRecords_other h rs, fun rs hrole hw => State.sweepRecords_gathered hrole hw rs⟩

end Sys2Proof.Machine
end

section
/-! SUPPORT. The end of a conversion window (R96 to R102): what it leaves of the facets' schedules, and the phases and replays it counts. -/

namespace Sys2Proof.Machine

/-! ## What leaves the schedules -/

/-- The counts of phases and of Level 1 replays, by mode (R97). -/
def windowCounts : List Key := [Obj.phases, Obj.tphases, Obj.splitReplays, Obj.tsplitReplays]

/-- The second work has the first's schedules, changes of memory, and counts of phases and replays. -/
structure Work.keepsSchedules (s t : Work) : Prop where
  phases : ∀ e, (t.engine e).phases = (s.engine e).phases
  writes : t.writes = s.writes
  counts : ∀ k ∈ windowCounts, t.get k = s.get k

theorem not_attentionKey_of_mem_windowCounts {k : Key} (hk : k ∈ windowCounts) : ¬ attentionKey k := by
  simp only [windowCounts, List.mem_cons, List.not_mem_nil, or_false] at hk
  obtain rfl | rfl | rfl | rfl := hk <;> simp [attentionKey]

theorem not_linkCounter_of_mem_windowCounts {k : Key} (hk : k ∈ windowCounts) : ¬ linkCounter k := by
  simp only [windowCounts, List.mem_cons, List.not_mem_nil, or_false] at hk
  obtain rfl | rfl | rfl | rfl := hk <;> simp [linkCounter]

namespace Work.keepsSchedules

theorem refl (s : Work) : s.keepsSchedules s := ⟨fun _ => rfl, rfl, fun _ _ => rfl⟩

theorem foldl {α : Type} {s t : Work} {f : Work → α → Work} (hf : ∀ u a, s.keepsSchedules u → s.keepsSchedules (f u a)) (l : List α)
    (h : s.keepsSchedules t) : s.keepsSchedules (l.foldl f t) := by
  induction l generalizing t with
  | nil => exact h
  | cons a l ih => exact ih (hf t a h)

section
variable {s t : Work} (h : s.keepsSchedules t)
include h

/-- A work with the engines, the changes of memory and the objects of one that keeps the schedules. -/
theorem of_eq {u : Work} (hengines : u.engines = t.engines) (hwrites : u.writes = t.writes) (hobjs : u.objs = t.objs) : s.keepsSchedules u :=
  ⟨fun e => by rw [← h.phases e, Work.engine, Work.engine, hengines], hwrites.trans h.writes,
    fun k hk => by rw [← h.counts k hk, Work.get, Work.get, hobjs]⟩

theorem ite {c : Prop} [Decidable c] {u : Work} (hu : s.keepsSchedules u) : s.keepsSchedules (if c then t else u) := by
  split
  · exact h
  · exact hu

theorem ite_pos {c : Prop} [Decidable c] {u : Work} (hc : c) : s.keepsSchedules (if c then t else u) := by rwa [if_pos hc]

theorem ite_neg {c : Prop} [Decidable c] {u : Work} (hc : ¬ c) : s.keepsSchedules (if c then u else t) := by rwa [if_neg hc]

theorem add {k : Key} (hk : k ∉ windowCounts) (n : Nat) : s.keepsSchedules (t.add k n) :=
  ⟨h.phases, h.writes, fun q hq => by rw [Work.add_get, if_neg (by rintro rfl; exact hk hq), h.counts q hq]⟩

theorem setEngine (e : Nat) {x : Engine} (hx : x.phases = (t.engine e).phases) : s.keepsSchedules (t.setEngine e x) := by
  refine ⟨fun e' => ?_, h.writes, h.counts⟩
  rw [Work.setEngine_engine]
  split
  · next he => exact hx.trans (he ▸ h.phases e)
  · exact h.phases e'

theorem modStep (f : StepState → StepState) : s.keepsSchedules (t.modStep f) := h.of_eq rfl rfl rfl

theorem modArr (a : Nat) (f : Arr → Arr) : s.keepsSchedules (t.modArr a f) := h.of_eq rfl rfl rfl

theorem meter {k : Key} (hk : k ∉ windowCounts) : s.keepsSchedules (t.meter k) := (h.of_eq (u := t.fresh.2) rfl rfl rfl).add hk _

theorem log (severity code unitKind slot unit tenant detail : Nat) : s.keepsSchedules (t.log severity code unitKind slot unit tenant detail) := by
  obtain ⟨rel, objs, os, r, hlog, -, hobjs⟩ := t.log_spec severity code unitKind slot unit tenant detail
  rw [hlog]
  exact ⟨h.phases, h.writes, fun k hk => (hobjs k (not_attentionKey_of_mem_windowCounts hk)).trans (h.counts k hk)⟩

theorem numeric (k : VecKey) (n : Nat) : s.keepsSchedules (t.numeric k n) := h.ite ((h.modStep _).add (by decide) n)

theorem layerCount (slot layer : Nat) (f : LayerCount → LayerCount) : s.keepsSchedules (t.layerCount slot layer f) :=
  .ite (h.of_eq (by rfl) (by rfl) (by rfl)) (h.of_eq (by rfl) (by rfl) (by rfl))

theorem saturation (slot layer facet dr dc : Nat) : s.keepsSchedules (t.saturation slot layer facet dr dc) :=
  ((h.modStep _).log _ _ _ _ _ _ _).ite (h.modStep _)

/-! The runs of an engine -/

theorem setRun (e : Nat) (r : Run) : s.keepsSchedules (t.setRun e r) := h.setEngine e rfl

theorem modFacet (e tag f : Nat) (g : FacetRun → FacetRun) : s.keepsSchedules (t.modFacet e tag f g) := by
  unfold Work.modFacet
  split
  · split
    · exact h.setRun e _
    · exact h
  · exact h

theorem overflows (e : Nat) (j : MvmJob) (ls : List Nat) : s.keepsSchedules (t.overflows e j ls) :=
  h.foldl (fun _ _ hu => ((hu.add (by decide) 1).log _ _ _ _ _ _ _).numeric _ 1) ls

theorem mergeLanes (e : Nat) (r : Run) (vs : List (Nat × Int)) : s.keepsSchedules (t.mergeLanes e r vs) := (h.setRun e _).overflows e _ _

/-! Clamps and recomputes -/

theorem unrecover (e : Nat) (q : Recompute) : s.keepsSchedules (t.unrecover e q) := by
  unfold Work.unrecover
  split
  · exact h
  · have hcounted (r : Run) := ((h.add (k := Obj.unrecoveredClamps) (by decide) 1).numeric ⟨r.job.slot, r.job.m, r.job.vec⟩ 1).layerCount
      r.job.slot r.job.layer (fun c => { c with unrecovered := c.unrecovered + 1 })
    dsimp only
    split
    · exact (hcounted _).setRun e _
    · exact (hcounted _).mergeLanes e _ _

theorem issueReads (e n : Nat) : s.keepsSchedules (t.issueReads e n) := by
  induction n generalizing t with
  | zero => exact h
  | succ n ih =>
    unfold Work.issueReads
    dsimp only
    split
    · exact h
    · split
      · exact ih (h.setEngine e (by rfl))
      · exact .ite (ih ((h.setEngine e (by rfl)).unrecover e _)) (.ite (ih (h.setEngine e (by rfl))) h)

theorem clampPair (e f tag pass pair : Nat) : s.keepsSchedules (t.clampPair e f tag pass pair) := by
  unfold Work.clampPair
  split
  · exact h
  · split
    · exact h
    · have hcounted (r : Run) (j : MvmJob) (g : LayerCount → LayerCount) (facet : Nat) :=
        (((h.setRun e r).add (k := if j.transposed then Obj.tclampedRows else Obj.clampedColumns) (by split <;> decide) 1).layerCount
          j.slot j.layer g).saturation j.slot j.layer facet 0 1
      exact .ite h (.ite (((hcounted _ _ _ _).setEngine e (by rfl)).issueReads e _) ((hcounted _ _ _ _).unrecover e _))

/-! The end of a pass -/

theorem addUnless {c : Prop} [Decidable c] {k : Key} (hk : k ∉ windowCounts) (n : Nat) : s.keepsSchedules (if c then t else t.add k n) :=
  h.ite (h.add hk n)

theorem facetDone (e : Nat) (r : Run) (x : FacetRun) : s.keepsSchedules (t.facetDone e r x) := by
  unfold Work.facetDone
  refine .ite h (.ite ?_ ?_)
  · exact addUnless (addUnless h (by decide) _) (by decide) _
  · dsimp only
    split
    · exact ((addUnless (addUnless h (by decide) _) (by decide) _).modStep _).setRun e _
    · exact (addUnless (addUnless h (by decide) _) (by decide) _).modStep _

theorem passDone (e f tag pass : Nat) : s.keepsSchedules (t.passDone e f tag pass) := by
  unfold Work.passDone
  split
  · exact h
  · split
    · exact h
    · refine .ite ?_ (h.mergeLanes e _ _)
      split
      · exact (h.mergeLanes e _ _).facetDone e _ _
      · exact h.mergeLanes e _ _

theorem passDoneUnless {c : Prop} [Decidable c] (e f tag pass : Nat) : s.keepsSchedules (if c then t else t.passDone e f tag pass) :=
  h.ite (h.passDone e f tag pass)

/-! Reference and calibration samples -/

theorem calWindow (a : Nat) (used : Bool) (w : WindowEnd) : s.keepsSchedules (t.calWindow a used w) := h.ite (h.modArr a _)

theorem countRefs (ref : List Int) : s.keepsSchedules (t.countRefs ref) := h.ite (h.add (by decide) _)

theorem sampleRefs (array fsc : Nat) (ref : List Int) (rows : List (Nat × Int)) : s.keepsSchedules (t.sampleRefs array fsc ref rows) :=
  (h.modArr array _).ite ((h.modArr array _).add (by decide) _)

end
end Work.keepsSchedules

/-! ## A window that finds its phase -/

/-- The driven pairs that saturated in a window of a run: none in an MVM whose input holds NaV (R82, R97). -/
def flaggedPairs (r : Run) (w : WindowEnd) : List Nat :=
  if r.nav then [] else ((convertedWindow w).codes.filter (fun c => c.sat && c.pair < facetOut r.job.transposed)).map (·.pair)

theorem flaggedPairs_ne_nil {r : Run} {w : WindowEnd} :
    flaggedPairs r w ≠ [] ↔ r.nav = false ∧ ∃ c ∈ (convertedWindow w).codes, c.sat = true ∧ c.pair < facetOut r.job.transposed := by
  cases hnav : r.nav <;> simp [flaggedPairs, hnav]

/-- The count of a job's phases, by its mode (R97). -/
def phaseCount (j : MvmJob) : Key := if j.transposed then Obj.tphases else Obj.phases

/-- The count of a job's Level 1 replays, by its mode (R97). -/
def replayCount (j : MvmJob) : Key := if j.transposed then Obj.tsplitReplays else Obj.splitReplays

theorem phaseCount_mem (j : MvmJob) : phaseCount j ∈ windowCounts := by
  unfold phaseCount
  split <;> decide

theorem replayCount_mem (j : MvmJob) : replayCount j ∈ windowCounts := by
  unfold replayCount
  split <;> decide

theorem phaseCount_ne_replayCount (j : MvmJob) : phaseCount j ≠ replayCount j := by
  unfold phaseCount replayCount
  split <;> decide

/-- The work of a window before its codes are used: the phase counted, the window noted, its energy and calibration samples taken. -/
def Work.countWindow (s : Work) (w : WindowEnd) (p : Phase) (r : Run) (fr : FacetRun) : Work :=
  let j := r.job
  let s := s.add (phaseCount j) 1
  let s := if j.transposed then s else
    (s.layerCount j.slot j.layer (fun c => { c with phases := c.phases + 1 })).modArr fr.array
      (fun a => { a with lastForward := s.get Obj.poweredSeconds })
  let s := (s.modFacet w.engine p.tag w.facet (fun y => { y with windows := y.windows + 1 })).meter
    (if w.engine < 1024 then Obj.arrayEnergyWarp else Obj.arrayEnergyWeft)
  if j.transposed then s else s.calWindow fr.array (!r.poison && !(decide (p.half = 0) && !(flaggedPairs r w).isEmpty)) (convertedWindow w)

/-- Whether a phase is of a mode, as far as its MVM is in a bank. -/
def Work.sameMode (s : Work) (e : Nat) (transposed : Bool) (q : Phase) : Bool :=
  match s.runOf e q.tag with
  | some u => decide (u.job.transposed = transposed)
  | none => true

/-- A facet's schedule replaced. -/
def Work.setSchedule (s : Work) (e f : Nat) (l : List Phase) : Work := s.modEngine e (fun x => { x with phases := put x.phases f l })

@[simp] theorem Work.setSchedule_writes (s : Work) (e f : Nat) (l : List Phase) : (s.setSchedule e f l).writes = s.writes := rfl
@[simp] theorem Work.setSchedule_get (s : Work) (e f : Nat) (l : List Phase) (k : Key) : (s.setSchedule e f l).get k = s.get k := rfl

theorem Work.setSchedule_schedule (s : Work) (e f : Nat) (l : List Phase) : look [] ((s.setSchedule e f l).engine e).phases f = l := by
  simp [Work.setSchedule, Work.modEngine]

section
variable {s : Work} {w : WindowEnd} {p : Phase} {rest : List Phase} {r : Run} {fr : FacetRun}

/-- The window changes no schedule, nor any of the counts but the phase's. -/
theorem Work.countWindow_keeps : (s.add (phaseCount r.job) 1).keepsSchedules (s.countWindow w p r fr) := by
  have hcount := Work.keepsSchedules.refl (s.add (phaseCount r.job) 1)
  have hlayer := hcount.ite (c := r.job.transposed) ((hcount.layerCount r.job.slot r.job.layer (fun c => { c with phases := c.phases + 1 })).modArr
    fr.array (fun a => { a with lastForward := (s.add (phaseCount r.job) 1).get Obj.poweredSeconds }))
  have hmeter := (hlayer.modFacet w.engine p.tag w.facet (fun y => { y with windows := y.windows + 1 })).meter
    (k := if w.engine < 1024 then Obj.arrayEnergyWarp else Obj.arrayEnergyWeft) (by split <;> decide)
  exact hmeter.ite (hmeter.calWindow _ _ _)

/-! The MVMs in an engine's banks -/

/-- Setting a run replaces the runs of its tag. -/
theorem Work.runOf_setRun (s : Work) (e : Nat) (r : Run) (tag : Nat) :
    (s.setRun e r).runOf e tag = (s.runOf e tag).map (fun y => if y.tag = r.tag then r else y) := by
  have htag (y : Run) : (if y.tag = r.tag then r else y).tag = y.tag := by
    split
    · exact (‹y.tag = r.tag›).symm
    · rfl
  simp [Work.runOf, Work.setRun, Work.modEngine, List.find?_map, htag]

theorem Work.tag_of_runOf {s : Work} {e tag : Nat} {r : Run} (h : s.runOf e tag = some r) : r.tag = tag := by
  simpa using List.find?_some h

/-- Setting a run to one of the same job changes no job. -/
theorem Work.setRun_job {s : Work} {e : Nat} {r r' : Run} (hr : s.runOf e r'.tag = some r) (hjob : r'.job = r.job) (q : Nat) :
    ((s.setRun e r').runOf e q).map (·.job) = (s.runOf e q).map (·.job) := by
  rw [Work.runOf_setRun]
  cases hq : s.runOf e q with
  | none => rfl
  | some y =>
    by_cases htag : y.tag = r'.tag
    · obtain rfl : q = r'.tag := (Work.tag_of_runOf hq).symm.trans htag
      obtain rfl : r = y := Option.some.inj (hr.symm.trans hq)
      simp [htag, hjob]
    · simp [htag]

/-- Changing a facet's record changes no job. -/
theorem Work.modFacet_job (s : Work) (e tag f : Nat) (g : FacetRun → FacetRun) (q : Nat) :
    ((s.modFacet e tag f g).runOf e q).map (·.job) = (s.runOf e q).map (·.job) := by
  unfold Work.modFacet
  split
  · next r hr =>
    obtain rfl := Work.tag_of_runOf hr
    split
    · next x _ => exact Work.setRun_job (r' := r.setFacet (g x)) hr rfl q
    · rfl
  · rfl

theorem Work.runOf_congr {s t : Work} (h : t.engines = s.engines) (e tag : Nat) : t.runOf e tag = s.runOf e tag := by
  rw [Work.runOf, Work.runOf, Work.engine, Work.engine, h]

theorem Work.modArr_engines (s : Work) (a : Nat) (f : Arr → Arr) : (s.modArr a f).engines = s.engines := rfl

theorem Work.meter_engines (s : Work) (k : Key) : (s.meter k).engines = s.engines := rfl

theorem Work.layerCount_engines (s : Work) (slot layer : Nat) (f : LayerCount → LayerCount) : (s.layerCount slot layer f).engines = s.engines := by
  unfold Work.layerCount
  dsimp only
  split <;> rfl

theorem Work.calWindow_engines (s : Work) (a : Nat) (used : Bool) (w : WindowEnd) : (s.calWindow a used w).engines = s.engines := by
  unfold Work.calWindow
  split <;> rfl

/-- A work whose engines are those of a changed facet's record has the jobs it started from. -/
theorem Work.job_of_modFacet {t u : Work} {e tag f : Nat} {g : FacetRun → FacetRun} (ht : t.engines = (u.modFacet e tag f g).engines)
    (hu : u.engines = s.engines) (q : Nat) : (t.runOf e q).map (·.job) = (s.runOf e q).map (·.job) := by
  rw [Work.runOf_congr ht, Work.modFacet_job, Work.runOf_congr hu]

theorem Work.countWindow_job (q : Nat) : ((s.countWindow w p r fr).runOf w.engine q).map (·.job) = (s.runOf w.engine q).map (·.job) := by
  cases hmode : r.job.transposed with
  | true =>
    simp only [Work.countWindow, hmode, if_true]
    exact Work.job_of_modFacet (Work.meter_engines _ _) rfl q
  | false =>
    simp only [Work.countWindow, hmode, Bool.false_eq_true, if_false]
    exact Work.job_of_modFacet ((Work.calWindow_engines _ _ _ _).trans (Work.meter_engines _ _))
      ((Work.modArr_engines _ _ _).trans (Work.layerCount_engines _ _ _ _)) q

theorem Work.sameMode_eq (s : Work) (e : Nat) (transposed : Bool) (q : Phase) :
    s.sameMode e transposed q = ((s.runOf e q.tag).map (·.job)).all (fun j => decide (j.transposed = transposed)) := by
  unfold Work.sameMode
  cases s.runOf e q.tag <;> rfl

theorem Work.countWindow_sameMode (transposed : Bool) :
    (s.countWindow w p r fr).sameMode w.engine transposed = s.sameMode w.engine transposed := by
  funext q
  rw [Work.sameMode_eq, Work.sameMode_eq, Work.countWindow_job]

/-! What the window makes of the counts and of memory -/

theorem Work.countWindow_get_phaseCount :
    (s.countWindow w p r fr).get (phaseCount r.job) = countPast (phaseCount r.job) (s.get (phaseCount r.job) + 1) := by
  rw [Work.countWindow_keeps.counts _ (phaseCount_mem _), Work.add_get, if_pos rfl]

theorem Work.countWindow_get_replayCount : (s.countWindow w p r fr).get (replayCount r.job) = s.get (replayCount r.job) := by
  rw [Work.countWindow_keeps.counts _ (replayCount_mem _), Work.add_get, if_neg (phaseCount_ne_replayCount _)]

section
variable (hphase : look [] (s.engine w.engine).phases w.facet = p :: rest) (hrun : s.runOf w.engine p.tag = some r)
  (hfacet : r.facetRun w.facet = some fr)
include hphase hrun hfacet

/-- A flagged whole phase is replayed in halves (R97); any other leaves the schedule, its flagged pairs clamped. -/
theorem Work.windowEnd_spec :
    (p.half = 0 ∧ flaggedPairs r w ≠ [] →
      (((s.countWindow w p r fr).setSchedule w.engine w.facet
        (insertHalves ((s.countWindow w p r fr).sameMode w.engine r.job.transposed) rest (halves p))).add
          (replayCount r.job) 1).keepsSchedules (s.windowEnd w)) ∧
    (¬ (p.half = 0 ∧ flaggedPairs r w ≠ []) →
      ((s.countWindow w p r fr).setSchedule w.engine w.facet rest).keepsSchedules (s.windowEnd w)) := by
  unfold Work.windowEnd
  extract_lets w' e f x
  have hphase' : look [] x.phases f = p :: rest := hphase
  have hrun' : s.runOf e p.tag = some r := hrun
  have hfacet' : r.facetRun f = some fr := hfacet
  simp -zeta only [hphase', hrun', hfacet']
  refine ⟨fun hflagged => .ite_pos ?_ hflagged, fun hclear => .ite_neg ?_ hclear⟩
  · exact ((Work.keepsSchedules.refl _).layerCount _ _ _).saturation _ _ _ 1 0
  · have hskipped (g : FacetRun → FacetRun) := (Work.keepsSchedules.refl
      ((s.countWindow w p r fr).setSchedule w.engine w.facet rest)).modFacet w.engine p.tag w.facet g
    have hsampled (g : FacetRun → FacetRun) := (hskipped g).ite (c := r.job.transposed) (((hskipped g).countRefs (convertedWindow w).ref).ite
      (c := r.poison) ((hskipped g).sampleRefs fr.array r.job.fsc (convertedWindow w).ref p.rows))
    have hclamped (g : FacetRun → FacetRun) := (hsampled g).foldl (fun _ q hu => hu.clampPair w.engine w.facet p.tag p.pass q)
      (flaggedPairs r w)
    refine .passDoneUnless (.ite ?_ (.ite ?_ ?_)) _ _ _ _ <;> exact (hclamped _).modFacet _ _ _ _

theorem Work.windowEnd_counts_phase : s.counted (s.windowEnd w) (phaseCount r.job) 1 := by
  obtain ⟨hreplay, hadvance⟩ := s.windowEnd_spec hphase hrun hfacet
  have hget : (s.windowEnd w).get (phaseCount r.job) = (s.countWindow w p r fr).get (phaseCount r.job) := by
    by_cases hflagged : p.half = 0 ∧ flaggedPairs r w ≠ []
    · rw [(hreplay hflagged).counts _ (phaseCount_mem _), Work.add_get, if_neg (phaseCount_ne_replayCount _).symm, Work.setSchedule_get]
    · rw [(hadvance hflagged).counts _ (phaseCount_mem _), Work.setSchedule_get]
  exact fun hlt => hget.trans (Work.countWindow_get_phaseCount.trans (countPast_of_lt hlt))

theorem Work.windowEnd_writes : (s.windowEnd w).writes = s.writes := by
  obtain ⟨hreplay, hadvance⟩ := s.windowEnd_spec hphase hrun hfacet
  have hcount : (s.countWindow w p r fr).writes = s.writes := Work.countWindow_keeps.writes
  by_cases hflagged : p.half = 0 ∧ flaggedPairs r w ≠ []
  · exact (hreplay hflagged).writes.trans hcount
  · exact (hadvance hflagged).writes.trans hcount

theorem Work.windowEnd_replays (hflagged : p.half = 0 ∧ flaggedPairs r w ≠ []) :
    look [] ((s.windowEnd w).engine w.engine).phases w.facet = insertHalves (s.sameMode w.engine r.job.transposed) rest (halves p) ∧
    s.counted (s.windowEnd w) (replayCount r.job) 1 := by
  have hreplay := (s.windowEnd_spec hphase hrun hfacet).1 hflagged
  rw [Work.countWindow_sameMode] at hreplay
  constructor
  · rw [hreplay.phases]
    exact Work.setSchedule_schedule _ _ _ _
  · intro hlt
    rw [hreplay.counts _ (replayCount_mem _), Work.add_get, if_pos rfl, Work.setSchedule_get, Work.countWindow_get_replayCount, countPast_of_lt hlt]

theorem Work.windowEnd_advances (hclear : ¬ (p.half = 0 ∧ flaggedPairs r w ≠ [])) :
    look [] ((s.windowEnd w).engine w.engine).phases w.facet = rest := by
  rw [((s.windowEnd_spec hphase hrun hfacet).2 hclear).phases]
  exact Work.setSchedule_schedule _ _ _ _
end
end

theorem State.run_engine (s : State) (f : Work → Work) (e : Nat) : (s.run f).work.engine e = (f s.work).engine e := by
  obtain ⟨ls, n, os, h⟩ := s.run_dev_eq f
  rw [Work.engine, State.work_toDev, h]
  rfl

/-- Settles O28: a window counts its phase, and then replays the phase or takes it off the schedule; nothing after that changes the schedule. -/
theorem conversionWindowsReplayOrAdvance : Obligations.ConversionWindowsReplayOrAdvance := by
  unfold Obligations.ConversionWindowsReplayOrAdvance
  intro s w p rest r fr hengine hfacet hphase hrun hrecord hopen
  have hexec : exec (.phaseWindowEnd w) s = .next (s.run (fun u => u.windowEnd w)) :=
    (State.nextIf_true (by simp [hengine, hfacet])).trans (congrArg _ (State.run_congr (if_pos hopen)))
  refine ⟨_, hexec, ⟨?_, fun hhalf hflagged => ?_, fun hclear => ?_⟩, State.run_mem_same _ _ (Work.windowEnd_writes hphase hrun hrecord)⟩
  · exact State.run_counted (not_linkCounter_of_mem_windowCounts (phaseCount_mem r.job)) (Work.windowEnd_counts_phase hphase hrun hrecord)
  · obtain ⟨hschedule, hcount⟩ := Work.windowEnd_replays hphase hrun hrecord ⟨hhalf, flaggedPairs_ne_nil.mpr hflagged⟩
    rw [State.run_engine]
    exact ⟨hschedule, State.run_counted (not_linkCounter_of_mem_windowCounts (replayCount_mem r.job)) hcount⟩
  · rw [State.run_engine]
    exact Work.windowEnd_advances hphase hrun hrecord fun h => hclear ⟨h.1, flaggedPairs_ne_nil.mp h.2⟩

end Sys2Proof.Machine
end

section
/-! SUPPORT. What the engines' commands note beside the engines: counts, logs, notes of the step, and the results of ops. -/

namespace Sys2Proof.Machine

/-! ## Records -/

/-- The counts of MVMs, of delta entries and of recomputes (R130, R131, R133). -/
def mvmCounts : List Key := [Obj.engineMvms, Obj.wideMvms, Obj.deltaMacs, Obj.recomputes]

theorem not_attentionKey_of_mem_mvmCounts {k : Key} (hk : k ∈ mvmCounts) : ¬ attentionKey k := by
  simp only [mvmCounts, List.mem_cons, List.not_mem_nil, or_false] at hk
  obtain rfl | rfl | rfl | rfl := hk <;> simp [attentionKey]

/-- The second work differs from the first only in what it records: objects other than the counts of MVMs, the logs of faults and of memory,
what the running step has noted, the counts of layers, free values, memory as it reads now, and what is sent. -/
def recordsOnly (s t : Work) : Prop :=
  (∃ rel objs dram step counts free mem os,
    t = { s with rel := rel, objs := objs, dram := dram, step := step, layerCounts := counts, free := free, mem := mem, sent := os } ∧
      step.running = s.step.running) ∧
  ∀ k ∈ mvmCounts, t.get k = s.get k

namespace recordsOnly

theorem refl (s : Work) : recordsOnly s s := ⟨⟨_, _, _, _, _, _, _, _, rfl, rfl⟩, fun _ _ => rfl⟩

section
variable {s t : Work} (h : recordsOnly s t)
include h

theorem trans {u : Work} (g : recordsOnly t u) : recordsOnly s u := by
  obtain ⟨⟨_, _, _, _, _, _, _, _, rfl, hrunning⟩, hcounts⟩ := h
  obtain ⟨⟨_, _, _, _, _, _, _, _, rfl, hrunning'⟩, hcounts'⟩ := g
  exact ⟨⟨_, _, _, _, _, _, _, _, rfl, hrunning'.trans hrunning⟩, fun k hk => (hcounts' k hk).trans (hcounts k hk)⟩

theorem ite {c : Prop} [Decidable c] {u : Work} (hu : recordsOnly s u) : recordsOnly s (if c then t else u) := by
  split
  · exact h
  · exact hu

theorem foldl {α : Type} {f : Work → α → Work} (hf : ∀ u a, recordsOnly u (f u a)) (l : List α) : recordsOnly s (l.foldl f t) :=
  List.foldlRecOn l f h fun u hu a _ => hu.trans (hf u a)

theorem modStep {f : StepState → StepState} (hf : (f t.step).running = t.step.running) : recordsOnly s (t.modStep f) :=
  h.trans ⟨⟨_, _, _, _, _, _, _, _, rfl, hf⟩, fun _ _ => rfl⟩

theorem add {k : Key} (hk : k ∉ mvmCounts) (n : Nat) : recordsOnly s (t.add k n) :=
  h.trans ⟨⟨_, _, _, _, _, _, _, _, rfl, rfl⟩, fun q hq => by rw [Work.add_get, if_neg (by rintro rfl; exact hk hq)]⟩

/-- The same count in both works. -/
theorem add_both {k : Key} (hk : k ∈ mvmCounts) (n : Nat) : recordsOnly (s.add k n) (t.add k n) := by
  obtain ⟨⟨_, _, _, _, _, _, _, _, rfl, hrunning⟩, hcounts⟩ := h
  refine ⟨⟨_, _, _, _, _, _, _, _, rfl, hrunning⟩, fun q hq => ?_⟩
  rw [Work.add_get, Work.add_get, hcounts k hk, hcounts q hq]

theorem addWhen_both {c : Prop} [Decidable c] {k : Key} (hk : k ∈ mvmCounts) (n : Nat) :
    recordsOnly (s.addWhen c k n) (t.addWhen c k n) := by
  unfold Work.addWhen
  split
  · exact h.add_both hk n
  · exact h

theorem log (severity code unitKind slot unit tenant detail : Nat) : recordsOnly s (t.log severity code unitKind slot unit tenant detail) := by
  obtain ⟨rel, objs, os, r, hlog, -, hobjs⟩ := t.log_spec severity code unitKind slot unit tenant detail
  rw [hlog]
  exact h.trans ⟨⟨_, _, _, _, _, _, _, _, rfl, rfl⟩, fun k hk => hobjs k (not_attentionKey_of_mem_mvmCounts hk)⟩

theorem note (k : VecKey) (f : VecNote → VecNote) : recordsOnly s (t.note k f) := h.modStep rfl

theorem numeric (k : VecKey) (n : Nat) : recordsOnly s (t.numeric k n) := h.ite ((h.note k _).add (by decide) n)

theorem countEnc (k : VecKey) (c : EncCounts) : recordsOnly s (t.countEnc k c) := by
  refine .numeric (List.foldlRecOn _ _ h fun u hu p hp => ?_) k _
  refine hu.ite (hu.add ?_ _)
  have hkey := List.mem_map_of_mem (f := Prod.fst) hp
  simp only [List.map_cons, List.map_nil] at hkey
  have hother : ∀ q ∈ [Obj.b4Blocks, Obj.b8Blocks, Obj.zeroBlocks, Obj.floorFallbacks, Obj.ceilingFallbacks, Obj.b8Saturations,
      Obj.b8Underflows, Obj.navElements, Obj.srDraws, Obj.fpSaturations, Obj.invalidOps], q ∉ mvmCounts := by decide
  exact hother _ hkey

theorem layerCount (slot layer : Nat) (f : LayerCount → LayerCount) : recordsOnly s (t.layerCount slot layer f) := by
  have hlayers (l : List LayerCount) : recordsOnly s { t with layerCounts := l } :=
    h.trans ⟨⟨_, _, _, _, _, _, _, _, rfl, rfl⟩, fun _ _ => rfl⟩
  unfold Work.layerCount
  exact (hlayers _).ite (hlayers _)

theorem overflows (e : Nat) (j : MvmJob) (ls : List Nat) : recordsOnly s (t.overflows e j ls) :=
  h.foldl (fun u _ => (((refl u).add (by decide) 1).log _ _ _ _ _ _ _).numeric _ 1) ls

theorem suspectNoGolden (f g : Nat) : recordsOnly s (t.suspectNoGolden f g) := by
  unfold Work.suspectNoGolden
  refine h.ite ((log ?_ _ _ _ _ _ _ _).log _ _ _ _ _ _ _)
  exact h.trans ⟨⟨_, _, _, _, _, _, _, _, rfl, rfl⟩, fun _ _ => rfl⟩

theorem fresh : recordsOnly s t.fresh.2 := h.trans ⟨⟨_, _, _, _, _, _, _, _, rfl, rfl⟩, fun _ _ => rfl⟩

theorem drawSample (j : MvmJob) (f facet : Nat) : recordsOnly s (t.drawSample j f facet).2 := by
  unfold Work.drawSample
  have hnoted := h.modStep (f := fun x => { x with sampled := x.sampled ++ [⟨⟨j.slot, j.seq, j.m⟩, facet⟩] }) rfl
  dsimp only
  split_ifs
  · exact h
  · exact hnoted
  · exact hnoted
  · exact hnoted.add (by decide) 1

/-! A store in memory -/

theorem dram (d : StackState) : recordsOnly s { t with dram := d } := h.trans ⟨⟨_, _, _, _, _, _, _, _, rfl, rfl⟩, fun _ _ => rfl⟩

theorem logPoison (a kind symbols c : Nat) : recordsOnly s ((t.logError a kind symbols).notePoison c) := (h.dram _).dram _

theorem countRange {obj : Nat → Key} (hobj : ∀ n, obj n ∉ mvmCounts) (fuel addr len : Nat) :
    recordsOnly s (Work.countRange t obj fuel addr len) := by
  induction fuel generalizing t addr len with
  | zero => exact h
  | succ fuel ih => exact h.ite (ih (h.add (hobj _) _) _ _)

theorem of_writes (ws : List MemOp) (m : Mem) : recordsOnly { s with writes := ws } { t with writes := ws, mem := m } := by
  obtain ⟨⟨_, _, _, _, _, _, _, _, rfl, hrunning⟩, hcounts⟩ := h
  exact ⟨⟨_, _, _, _, _, _, _, _, rfl, hrunning⟩, hcounts⟩

theorem buffer (slot b : Nat) : t.buffer slot b = s.buffer slot b := by
  obtain ⟨⟨_, _, _, _, _, _, _, _, rfl, hrunning⟩, -⟩ := h
  simp only [Work.buffer, Work.stepProgram, Work.tuning, hrunning]
  rfl

theorem engines : t.engines = s.engines := by
  obtain ⟨⟨_, _, _, _, _, _, _, _, rfl, -⟩, -⟩ := h
  rfl

theorem nextTag : t.nextTag = s.nextTag := by
  obtain ⟨⟨_, _, _, _, _, _, _, _, rfl, -⟩, -⟩ := h
  rfl

theorem unverifiable : t.unverifiable = s.unverifiable := by
  obtain ⟨⟨_, _, _, _, _, _, _, _, rfl, -⟩, -⟩ := h
  rfl

theorem writes : t.writes = s.writes := by
  obtain ⟨⟨_, _, _, _, _, _, _, _, rfl, -⟩, -⟩ := h
  rfl
end
end recordsOnly

end Sys2Proof.Machine
end

section
/-! SUPPORT. What the rows of an engine leave of its banks: its queue, the tags of its runs, and the recomputes that have arrived. -/

namespace Sys2Proof.Machine

/-- The second work has the first's queues, tags of runs and arrived recomputes, marks of unverifiable groups, changes of memory and
counts of MVMs. -/
structure Work.keepsBanks (s t : Work) : Prop where
  queue : ∀ e, (t.engine e).queue = (s.engine e).queue
  tags : ∀ e, (t.engine e).runs.map (·.tag) = (s.engine e).runs.map (·.tag)
  arrived : ∀ e, (t.engine e).arrived = (s.engine e).arrived
  nextTag : t.nextTag = s.nextTag
  unverifiable : t.unverifiable = s.unverifiable
  writes : t.writes = s.writes
  counts : ∀ k ∈ mvmCounts, t.get k = s.get k

theorem recordsOnly.engine {s t : Work} (h : recordsOnly s t) (e : Nat) : t.engine e = s.engine e := by
  rw [Work.engine, Work.engine, h.engines]

namespace Work.keepsBanks

theorem refl (s : Work) : s.keepsBanks s := ⟨fun _ => rfl, fun _ => rfl, fun _ => rfl, rfl, rfl, rfl, fun _ _ => rfl⟩

section
variable {s t : Work} (h : s.keepsBanks t)
include h

theorem records {u : Work} (g : recordsOnly t u) : s.keepsBanks u :=
  ⟨fun e => by rw [g.engine, h.queue], fun e => by rw [g.engine, h.tags], fun e => by rw [g.engine, h.arrived],
    g.nextTag.trans h.nextTag, g.unverifiable.trans h.unverifiable, g.writes.trans h.writes,
    fun k hk => (g.2 k hk).trans (h.counts k hk)⟩

theorem setEngine (e : Nat) {x : Engine} (hqueue : x.queue = (t.engine e).queue) (htags : x.runs.map (·.tag) = (t.engine e).runs.map (·.tag))
    (harrived : x.arrived = (t.engine e).arrived) : s.keepsBanks (t.setEngine e x) where
  queue e' := by
    rw [← h.queue e', Work.setEngine_engine]
    split
    · next he => exact he ▸ hqueue
    · rfl
  tags e' := by
    rw [← h.tags e', Work.setEngine_engine]
    split
    · next he => exact he ▸ htags
    · rfl
  arrived e' := by
    rw [← h.arrived e', Work.setEngine_engine]
    split
    · next he => exact he ▸ harrived
    · rfl
  nextTag := h.nextTag
  unverifiable := h.unverifiable
  writes := h.writes
  counts := h.counts

/-- The same count in both works. -/
theorem add_both {k : Key} (hk : k ∈ mvmCounts) (n : Nat) : (s.add k n).keepsBanks (t.add k n) :=
  ⟨h.queue, h.tags, h.arrived, h.nextTag, h.unverifiable, h.writes,
    fun q hq => by rw [Work.add_get, Work.add_get, h.counts k hk, h.counts q hq]⟩

theorem setRun (e : Nat) (r : Run) : s.keepsBanks (t.setRun e r) := by
  refine h.setEngine e rfl ?_ rfl
  rw [List.map_map]
  refine List.map_congr_left fun y _ => ?_
  simp only [Function.comp]
  split
  · exact (‹y.tag = r.tag›).symm
  · rfl

theorem mergeLanes (e : Nat) (r : Run) (vs : List (Nat × Int)) : s.keepsBanks (t.mergeLanes e r vs) :=
  (h.setRun e _).records ((recordsOnly.refl _).overflows e _ _)

theorem unrecover (e : Nat) (q : Recompute) : s.keepsBanks (t.unrecover e q) := by
  unfold Work.unrecover
  split
  · exact h
  · have hcounted (r : Run) := h.records ((((recordsOnly.refl t).add (k := Obj.unrecoveredClamps) (by decide) 1).numeric
      ⟨r.job.slot, r.job.m, r.job.vec⟩ 1).layerCount r.job.slot r.job.layer (fun c => { c with unrecovered := c.unrecovered + 1 }))
    dsimp only
    split
    · exact (hcounted _).setRun e _
    · exact (hcounted _).mergeLanes e _ _

theorem issueReads (e n : Nat) : s.keepsBanks (t.issueReads e n) := by
  induction n generalizing t with
  | zero => exact h
  | succ n ih =>
    have hset (waiting reading : List Recompute) := h.setEngine e (x := { t.engine e with waiting := waiting, reading := reading }) rfl rfl rfl
    unfold Work.issueReads
    dsimp only
    split
    · exact h
    · split
      · exact ih (hset _ _)
      · split_ifs
        · exact ih ((hset _ _).unrecover e _)
        · exact ih (hset _ _)
        · exact h

theorem outlierEcc (e slot : Nat) (words : List Nat) (ecc : List (Nat × Bool)) : s.keepsBanks (t.outlierEcc e slot words ecc) := by
  refine List.foldlRecOn ecc _ h fun u hu p _ => ?_
  have hcounted := ((recordsOnly.refl u).add (k := Obj.outlierEccUncorrectable) (by decide) 1).log 2 0x45 3 slot e 0xFFFF p.1
  dsimp only
  split_ifs
  · exact hu
  · exact (hu.records hcounted).setEngine e rfl rfl rfl
  · exact hu.records ((recordsOnly.refl u).add (by decide) 1)
end
end Work.keepsBanks

/-! ## Golden reads and recomputes (R132 to R134) -/

section
variable {s : Work}

theorem Work.mem_markUnverifiable (s : Work) (core slot : Nat) : (core, slot) ∈ (s.markUnverifiable core slot).unverifiable := by
  unfold Work.markUnverifiable
  split
  · exact List.contains_iff_mem.mp ‹_›
  · exact List.mem_append_right _ (List.mem_singleton.mpr rfl)

theorem Work.markUnverifiable_writes (s : Work) (core slot : Nat) : (s.markUnverifiable core slot).writes = s.writes := by
  unfold Work.markUnverifiable
  split <;> rfl

/-- A golden read that has come back leaves the reads outstanding. -/
def Work.readBack (s : Work) (e : Nat) (q : Recompute) : Work := s.setEngine e { s.engine e with reading := (s.engine e).reading.erase q }

section
variable {g : GoldenReturn} {q : Recompute} (hread : (s.engine g.engine).reading.find? (fun p => p.facet = g.facet && p.pair = g.pair) = some q)
include hread

/-- A clean golden read makes its recompute ready. -/
theorem Work.goldenReturn_of_clean (hclean : g.poison = false) : s.goldenReturn g =
    (s.readBack g.engine q).modEngine g.engine (fun x => { x with arrived := x.arrived ++ [q] }) := by
  simp only [Work.goldenReturn, hread, hclean, Bool.false_eq_true, if_false]
  rfl

/-- A poisoned one marks its facet group; the clamp stands, and other reads may be issued. -/
theorem Work.goldenReturn_of_poison (hpoison : g.poison = true) :
    ((s.readBack g.engine q).markUnverifiable (facetCore (4 * g.engine + g.facet)) (s.arr (4 * g.engine + g.facet)).slot).keepsBanks
      (s.goldenReturn g) := by
  simp only [Work.goldenReturn, hread, hpoison, if_true]
  exact ((Work.keepsBanks.refl _).unrecover _ _).issueReads _ _

theorem Work.goldenReturn_writes : (s.goldenReturn g).writes = s.writes := by
  cases hpoison : g.poison with
  | false =>
    rw [Work.goldenReturn_of_clean hread hpoison]
    rfl
  | true => exact (Work.goldenReturn_of_poison hread hpoison).writes.trans (Work.markUnverifiable_writes _ _ _)
end

/-- The oldest recompute that has arrived leaves the arrived ones and is counted; what it adds to its lane changes neither. -/
theorem Work.recomputeDone_keepsBanks {e : Nat} {q : Recompute} {rest : List Recompute} (harrived : (s.engine e).arrived = q :: rest) :
    ((s.setEngine e { s.engine e with arrived := rest }).add Obj.recomputes 1).keepsBanks (s.recomputeDone e) := by
  have hcounted := Work.keepsBanks.refl ((s.setEngine e { s.engine e with arrived := rest }).add Obj.recomputes 1)
  simp only [Work.recomputeDone, harrived]
  refine Work.keepsBanks.issueReads ?_ e _
  split
  · exact hcounted
  · split
    · exact hcounted
    · exact hcounted.mergeLanes e _ _
end

/-! ## The rows in an island that runs, and in one that is stopped -/

section
variable {s : State} {e : Nat} {present : Bool} {f : Work → Work}

/-- A row of an engine whose island runs does its work. -/
theorem State.nextIf_inside_of_open (hpresent : present = true) (hopen : s.work.islandOpen (e / 32) = true) :
    s.nextIf present (fun w => w.inside (e / 32) f) = .next (s.run f) :=
  (State.nextIf_true hpresent).trans (congrArg _ (State.run_congr (if_pos hopen)))

/-- In a stopped island it changes nothing. -/
theorem State.nextIf_inside_of_stopped (hpresent : present = true) (hstopped : s.work.islandOpen (e / 32) = false) :
    ∃ t, s.nextIf present (fun w => w.inside (e / 32) f) = .next t ∧ s.frame t [] (fun _ => False) :=
  ⟨_, State.nextIf_true hpresent, s.run_id _ (if_neg (by simp [hstopped]))⟩
end

theorem State.run_unverifiable (s : State) (f : Work → Work) : (s.run f).dev.unverifiable = (f s.work).unverifiable := by
  obtain ⟨ls, n, os, h⟩ := s.run_dev_eq f
  rw [h]

section
variable {s : State} {w : Work} {parts : List StatePart} {keys : Key → Prop}

theorem State.keeps.setEngine (h : s.keeps w parts keys) (hengines : StatePart.engines ∈ parts) (e : Nat) (x : Engine) :
    s.keeps (w.setEngine e x) parts keys := by
  refine ⟨fun p hp => ?_, h.2⟩
  cases p with
  | engines => exact absurd hengines hp
  | _ => exact h.1 _ hp
end

/-- Settles O29: a golden read leaves the reads for the arrived recomputes or marks its group, and nothing after that changes either. -/
theorem goldenReadsFeedRecomputes : Obligations.GoldenReadsFeedRecomputes := by
  unfold Obligations.GoldenReadsFeedRecomputes
  refine fun s => ⟨fun g q hengine hfacet hopen hread => ?_, fun e q rest hengine hopen harrived => ?_⟩
  · have hexec : exec (.goldenReadReturn g) s = .next (s.run (fun u => u.goldenReturn g)) :=
      State.nextIf_inside_of_open (by simp [hengine, hfacet]) hopen
    refine ⟨_, hexec, State.run_mem_same _ _ (Work.goldenReturn_writes hread), fun hclean => ?_, fun hpoison => ?_⟩
    · have hready := Work.goldenReturn_of_clean hread hclean
      rw [State.run_engine, hready]
      refine ⟨by simp [Work.readBack, Work.modEngine], by simp [Work.readBack, Work.modEngine], State.keeps.frame_silent ?_ ?_⟩
      · rw [hready]
        exact ((s.keeps_work _ _).setEngine (by simp) _ _).setEngine (by simp) _ _
      · rw [hready]
        rfl
    · rw [State.run_unverifiable, (Work.goldenReturn_of_poison hread hpoison).unverifiable]
      exact Work.mem_markUnverifiable _ _ _
  · have hdone := Work.recomputeDone_keepsBanks harrived
    have hexec : exec (.recomputeComplete e) s = .next (s.run (fun u => u.recomputeDone e)) := State.nextIf_inside_of_open hengine hopen
    refine ⟨_, hexec, State.run_mem_same _ _ hdone.writes, ?_, State.run_counted (by simp [linkCounter]) fun hlt => ?_⟩
    · rw [State.run_engine, hdone.arrived]
      exact congrArg Engine.arrived ((Work.setEngine_engine _ _ _ _).trans (if_pos rfl))
    · rw [hdone.counts _ (by decide), Work.add_get, if_pos rfl]
      exact countPast_of_lt hlt

end Sys2Proof.Machine
end

section
/-! SUPPORT. The start of an MVM in a bank, and its end (R133, R135 to R137, R200). -/

namespace Sys2Proof.Machine

/-! ## The start -/

/-- An MVM leaves the queue and enters a bank, with the facets' schedules that it leads to. -/
def Work.enterBank (s : Work) (e : Nat) (rest : List MvmJob) (r : Run) (schedules : List (Nat × List Phase)) : Work :=
  s.setEngine e { s.engine e with queue := rest, runs := (s.engine e).runs ++ [r], phases := schedules }

/-- A facet that stands in for an op of a micro-batch is counted once (R487). -/
def Work.countStandIn (s : Work) (key : FacetInst) : Work :=
  if s.step.standin.contains key then s
  else (s.add Obj.standinInstances 1).modStep (fun x => { x with standin := x.standin ++ [key] })

theorem recordsOnly.countStandIn (s : Work) (key : FacetInst) : recordsOnly s (s.countStandIn key) :=
  (recordsOnly.refl s).ite (((recordsOnly.refl s).add (by decide) 1).modStep rfl)

/-- The contributions of the stand-ins among an MVM's facets, each counted and merged into the lanes (R487). -/
def Work.standIns (s : Work) (e : Nat) (j : MvmJob) (tag : Nat) (parts : List (Nat × Part)) : Work :=
  parts.foldl (fun s p =>
    if p.2 ≠ .standin then s
    else
      let s := s.countStandIn ⟨⟨j.slot, j.seq, j.m⟩, 4 * e + p.1⟩
      match s.runOf e tag with
      | some r =>
        s.mergeLanes e r ((List.range (facetOut j.transposed)).map (fun i =>
          (laneIndex j.transposed j.join p.1 i, s.exactDot (4 * e + p.1) j.transposed true j.twoPass (j.facetInput p.1) i)))
      | none => s) s

/-- The work with the next MVM's tag taken (R133). -/
def Work.takeTag (s : Work) : Work := { s with nextTag := (s.nextTag + 1) % 2 ^ 24 }

section
variable {s t : Work} {e : Nat} {j : MvmJob} {rest : List MvmJob}

theorem Work.mvmStart_of_full {ecc : List (Nat × Bool)} (hqueue : (s.engine e).queue = j :: rest) (hfull : (s.engine e).mayStart j = false) :
    s.mvmStart e ecc = s.meter Obj.recomputeStallCycles := by
  simp [Work.mvmStart, hqueue, hfull]

/-- The oldest MVM takes a tag, is counted, enters a bank, and takes what its stand-ins contribute. -/
theorem Work.mvmStart_of_free {ecc : List (Nat × Bool)} (hqueue : (s.engine e).queue = j :: rest) (hfree : (s.engine e).mayStart j = true) :
    ∃ u r schedules parts, (s.takeTag.add Obj.deltaMacs j.deltas.length).keepsBanks u ∧ r.job = j ∧ r.tag = s.nextTag ∧
      s.mvmStart e ecc = (u.enterBank e rest r schedules).standIns e j s.nextTag parts := by
  unfold Work.mvmStart
  extract_lets x tag tagged store enc
  have hqueue' : x.queue = j :: rest := hqueue
  have hfree' : x.mayStart j = true := hfree
  simp -zeta only [hqueue', hfree', Bool.not_true, Bool.false_eq_true, if_false]
  extract_lets words read outliers fs parts zeros nav zeroed naved counted bad r past encoded suspects entered
  refine ⟨suspects, r, _, parts, ?_, rfl, rfl, rfl⟩
  have hread : s.takeTag.keepsBanks read := (Work.keepsBanks.refl _).outlierEcc e j.slot words ecc
  have hcounted : (s.takeTag.add Obj.deltaMacs j.deltas.length).keepsBanks counted := by
    refine Work.keepsBanks.add_both (hread.records ?_) (by decide) _
    refine ((recordsOnly.add ?_ (by decide) _).add (by decide) _).add (by decide) _
    refine List.foldlRecOn (motive := fun acc : List FacetRun × Work => recordsOnly read acc.2) parts _ (.refl read) fun acc hacc p _ => ?_
    split
    · exact hacc.drawSample _ _ _
    · exact hacc
  refine hcounted.records (.foldl ((recordsOnly.refl counted).countEnc _ _) (fun u p => ?_) parts)
  exact ((recordsOnly.refl u).fresh.suspectNoGolden _ _).ite (.refl u)

/-- What stand-ins contribute changes lanes, not which MVMs are where. -/
theorem Work.keepsBanks.standIns (h : s.keepsBanks t) (e : Nat) (j : MvmJob) (tag : Nat) (parts : List (Nat × Part)) :
    s.keepsBanks (t.standIns e j tag parts) := by
  refine List.foldlRecOn parts _ h fun u hu p _ => ?_
  have hcounted := hu.records (recordsOnly.countStandIn u ⟨⟨j.slot, j.seq, j.m⟩, 4 * e + p.1⟩)
  dsimp only
  split
  · exact hu
  · split
    · exact hcounted.mergeLanes e _ _
    · exact hcounted

theorem Work.mergeLanes_job {r : Run} (hr : s.runOf e r.tag = some r) (vs : List (Nat × Int)) (tag : Nat) :
    ((s.mergeLanes e r vs).runOf e tag).map (·.job) = (s.runOf e tag).map (·.job) := by
  rw [← Work.setRun_job (r' := { r with
    lanes := (lanesAdd r.lanes vs).1, overflow := r.overflow || !(lanesAdd r.lanes vs).2.isEmpty }) hr rfl tag]
  exact congrArg _ (Work.runOf_congr ((recordsOnly.refl _).overflows e r.job (lanesAdd r.lanes vs).2).engines e tag)

theorem Work.standIns_job (s : Work) (e : Nat) (j : MvmJob) (tag : Nat) (parts : List (Nat × Part)) :
    ((s.standIns e j tag parts).runOf e tag).map (·.job) = (s.runOf e tag).map (·.job) := by
  refine List.foldlRecOn (motive := fun u : Work => (u.runOf e tag).map (·.job) = (s.runOf e tag).map (·.job)) parts _ rfl fun u hu p _ => ?_
  have hcounted := (recordsOnly.countStandIn u ⟨⟨j.slot, j.seq, j.m⟩, 4 * e + p.1⟩).engines
  dsimp only
  split
  · exact hu
  · split
    · next r hr =>
      obtain rfl := Work.tag_of_runOf hr
      rw [Work.mergeLanes_job hr, Work.runOf_congr hcounted, hu]
    · rw [Work.runOf_congr hcounted, hu]

theorem Work.enterBank_engine (s : Work) (e : Nat) (rest : List MvmJob) (r : Run) (schedules : List (Nat × List Phase)) :
    (s.enterBank e rest r schedules).engine e =
      { s.engine e with queue := rest, runs := (s.engine e).runs ++ [r], phases := schedules } :=
  (Work.setEngine_engine _ _ _ _).trans (if_pos rfl)

/-- An MVM whose tag no other of the engine has is found by its tag. -/
theorem Work.runOf_enterBank {r : Run} {schedules : List (Nat × List Phase)}
    (hnew : r.tag ∉ (s.engine e).runs.map (·.tag)) : (s.enterBank e rest r schedules).runOf e r.tag = some r := by
  have hnone : (s.engine e).runs.find? (fun y => decide (y.tag = r.tag)) = none := by
    simpa [List.find?_eq_none] using hnew
  simp [Work.runOf, Work.enterBank_engine, hnone]

/-- What the start of an MVM leaves (R133). -/
structure Work.started (s t : Work) (e : Nat) (j : MvmJob) (rest : List MvmJob) : Prop where
  queue : (t.engine e).queue = rest
  banks : (t.engine e).runs.length = (s.engine e).runs.length + 1
  run : ∃ r ∈ (t.engine e).runs, r.job = j ∧ r.tag = s.nextTag
  nextTag : t.nextTag = (s.nextTag + 1) % 2 ^ 24
  deltaMacs : s.counted t Obj.deltaMacs j.deltas.length
  writes : t.writes = s.writes

theorem Work.started_of_free {ecc : List (Nat × Bool)} (hqueue : (s.engine e).queue = j :: rest) (hfree : (s.engine e).mayStart j = true)
    (hnew : s.nextTag ∉ (s.engine e).runs.map (·.tag)) : s.started (s.mvmStart e ecc) e j rest := by
  obtain ⟨u, r, schedules, parts, hu, hjob, htag, hstart⟩ := Work.mvmStart_of_free (ecc := ecc) hqueue hfree
  have hstand := (Work.keepsBanks.refl (u.enterBank e rest r schedules)).standIns e j s.nextTag parts
  have hfound : (u.enterBank e rest r schedules).runOf e s.nextTag = some r := htag ▸ Work.runOf_enterBank (by rw [hu.tags, htag]; exact hnew)
  rw [hstart]
  constructor
  case queue => rw [hstand.queue, Work.enterBank_engine]
  case banks =>
    have hlength := congrArg List.length (hstand.tags e)
    have hbefore := congrArg List.length (hu.tags e)
    simp only [List.length_map, Work.enterBank_engine, List.length_append, List.length_singleton] at hlength hbefore
    rw [hlength, hbefore]
    rfl
  case run =>
    have hjobs := Work.standIns_job (u.enterBank e rest r schedules) e j s.nextTag parts
    rw [hfound] at hjobs
    obtain ⟨r', hr', hjob'⟩ := Option.map_eq_some_iff.mp hjobs
    exact ⟨r', List.mem_of_find?_eq_some hr', hjob'.trans hjob, Work.tag_of_runOf hr'⟩
  case nextTag => exact hstand.nextTag.trans hu.nextTag
  case deltaMacs =>
    intro hlt
    rw [hstand.counts _ (by decide)]
    refine (hu.counts _ (by decide)).trans ?_
    rw [Work.add_get, if_pos rfl]
    exact countPast_of_lt hlt
  case writes => exact hstand.writes.trans hu.writes
end

end Sys2Proof.Machine
end

section
/-! SUPPORT. The end of an MVM: what it leaves as its result comes in, and where the results of ops are written (R135 to R137, R200). -/

namespace Sys2Proof.Machine

/-! ## Results written in buffers -/

/-- `noScratch`, of a work. -/
def Work.noScratch (s : Work) : Prop := ∀ slot h b, s.buffer slot h = some b → b.kind ≠ 2

/-- The second work has recorded results since the first; memory is written only where a program holds a buffer in SCRATCH. -/
def Work.resultsOnly (s t : Work) : Prop := ∃ ws, (s.noScratch → ws = s.writes) ∧ recordsOnly { s with writes := ws } t

theorem recordsOnly.memStore (s : Work) (a : Nat) (bytes : List Byte) : ∃ ws, recordsOnly { s with writes := ws } (s.memStore a bytes) := by
  refine ⟨_, .countRange (.foldl (s := { s with writes := s.writes ++ [MemOp.write a bytes] }) ?_ (fun u c => ?_) _) (by simp [mvmCounts]) _ _ _⟩
  · exact (recordsOnly.refl s).of_writes _ _
  · exact ((recordsOnly.refl u).add (by decide) 1).logPoison _ _ _ _

namespace Work.resultsOnly

theorem refl (s : Work) : s.resultsOnly s := ⟨s.writes, fun _ => rfl, .refl s⟩

section
variable {s t : Work} (h : s.resultsOnly t)
include h

theorem records {u : Work} (g : recordsOnly t u) : s.resultsOnly u := by
  obtain ⟨ws, hws, hrec⟩ := h
  exact ⟨ws, hws, hrec.trans g⟩

theorem engine (e : Nat) : t.engine e = s.engine e := by
  obtain ⟨ws, -, hrec⟩ := h
  exact hrec.engine e

theorem counts {k : Key} (hk : k ∈ mvmCounts) : t.get k = s.get k := by
  obtain ⟨ws, -, hrec⟩ := h
  exact hrec.2 k hk

theorem writes (hs : s.noScratch) : t.writes = s.writes := by
  obtain ⟨ws, hws, hrec⟩ := h
  exact hrec.writes.trans (hws hs)

theorem not_noScratch {slot b : Nat} {x : Buffer} (hbuffer : t.buffer slot b = some x) (hkind : x.kind = 2) : ¬ s.noScratch := by
  obtain ⟨ws, -, hrec⟩ := h
  exact fun hs => hs slot b x ((hrec.buffer slot b).symm.trans hbuffer) hkind

/-- Only a program with a buffer in SCRATCH changes memory. -/
theorem store {u : Work} (hscratch : ¬ s.noScratch) (hu : ∃ ws, recordsOnly { t with writes := ws } u) : s.resultsOnly u := by
  obtain ⟨ws, -, hrec⟩ := h
  obtain ⟨ws', hrec'⟩ := hu
  exact ⟨ws', fun hs => absurd hs hscratch, (hrec.of_writes ws' t.mem).trans hrec'⟩

theorem scratchStore (slot b m i : Nat) (v : Vec) : s.resultsOnly (t.scratchStore slot b m i v) := by
  unfold Work.scratchStore
  split
  · exact h
  · next x hbuffer =>
    split
    · exact h
    · next hkind =>
      have hscratch := h.not_noScratch hbuffer (not_not.mp hkind)
      have hstored := h.store hscratch (recordsOnly.memStore t (t.scratchAt slot b m i x) ((vecBytes v).take (heldBytes x.format x.elements)))
      dsimp only
      split
      · refine List.foldlRecOn _ _ hstored fun u hu c _ => hu.store hscratch ⟨u.writes ++ [.poison c], ?_⟩
        exact (((recordsOnly.refl u).of_writes _ _).add (by decide) 1).logPoison _ _ _ _
      · exact hstored

theorem setVec (slot b m i : Nat) (v : Vec) : s.resultsOnly (t.setVec slot b m i v) :=
  (h.records ((recordsOnly.refl t).ite ((recordsOnly.refl t).modStep rfl))).scratchStore slot b m i v

theorem writeResult (c : OpCtx) (i fmt : Nat) (draws : Nat → Option Nat) (xs : List (Option Rat)) :
    s.resultsOnly (t.writeResult c i fmt draws xs) := by
  have hcounted := (h.setVec c.slot c.dst c.m i (writeVec fmt draws xs).1).records ((recordsOnly.refl _).countEnc ⟨c.slot, c.m, i⟩
    (writeVec fmt draws xs).2)
  unfold Work.writeResult
  dsimp only
  split
  · exact hcounted.records ((recordsOnly.refl _).note _ _)
  · exact hcounted

theorem finishVec (o : OpRun) (v : VecAsm) : s.resultsOnly (t.finishVec o v) := by
  unfold Work.finishVec
  dsimp only
  exact (h.records (((recordsOnly.refl t).note _ _).countEnc _ _)).writeResult _ _ _ _ _

theorem endOp (c : OpCtx) : s.resultsOnly (t.endOp c) := h.records (((recordsOnly.refl t).modStep rfl).add (by decide) 1)

theorem settleOps : s.resultsOnly t.settleOps := by
  refine List.foldlRecOn t.step.ops _ h fun u hu o _ => ?_
  have hwritten : s.resultsOnly ((o.vecs.filter VecAsm.ready).foldl (fun (s : Work) (v : VecAsm) => s.finishVec o v) u) :=
    List.foldlRecOn _ _ hu fun w hw v _ => hw.finishVec o v
  dsimp only
  split
  · exact (hwritten.records ((recordsOnly.refl _).modStep rfl)).endOp _
  · exact hwritten.records ((recordsOnly.refl _).modStep rfl)

theorem partIn (j : MvmJob) (e status : Nat) (ws : List (Option Nat)) : s.resultsOnly (t.partIn j e status ws) :=
  (h.records ((recordsOnly.refl t).modStep rfl)).settleOps
end
end Work.resultsOnly

/-! ## The epilogue -/

/-- The oldest MVM leaves its bank and is counted (R135, R139). -/
def Work.leaveBank (s : Work) (e : Nat) (r : Run) (rest : List Run) : Work :=
  ((s.modEngine e (fun x => { x with runs := rest })).add Obj.engineMvms 1).addWhen r.job.twoPass Obj.wideMvms 1

section
variable {s : Work} {e : Nat} {r : Run} {rest : List Run}

theorem Work.epilogue_of_not_ready (hruns : (s.engine e).runs = r :: rest) (hready : s.epilogueReady e r = false) : s.epilogue e = s := by
  simp [Work.epilogue, hruns, hready]

theorem Work.epilogue_of_ready (hruns : (s.engine e).runs = r :: rest) (hready : s.epilogueReady e r = true) :
    (s.leaveBank e r rest).resultsOnly (s.epilogue e) := by
  unfold Work.epilogue
  simp -zeta only [hruns, hready, Bool.not_true, Bool.false_eq_true, if_false]
  extract_lets j count outs past digital pending status k left overflowed counted wide bound poisoned faulted
  have hleft : recordsOnly left overflowed := (recordsOnly.refl left).ite (((recordsOnly.refl left).add (by decide) past).numeric k past)
  have hcounted : recordsOnly (s.leaveBank e r rest) wide := (hleft.add_both (by decide) 1).addWhen_both (by decide) 1
  have hbound : recordsOnly (s.leaveBank e r rest) bound := (hcounted.add (by decide) 1).ite hcounted
  have hpoisoned : recordsOnly (s.leaveBank e r rest) poisoned := ((hbound.add (by decide) 1).note k _).ite hbound
  exact ((Work.resultsOnly.refl _).records ((hpoisoned.note k _).ite hpoisoned)).partIn j e status _

theorem Work.leaveBank_engine (s : Work) (e : Nat) (r : Run) (rest : List Run) :
    (s.leaveBank e r rest).engine e = { s.engine e with runs := rest } := by
  have hleft : (s.modEngine e (fun x => { x with runs := rest })).engine e = { s.engine e with runs := rest } :=
    (Work.setEngine_engine _ _ _ _).trans (if_pos rfl)
  rw [← hleft]
  unfold Work.leaveBank Work.addWhen
  split <;> rfl

theorem Work.leaveBank_get (s : Work) (e : Nat) (r : Run) (rest : List Run) (k : Key) :
    (s.leaveBank e r rest).get k = ((s.add Obj.engineMvms 1).addWhen r.job.twoPass Obj.wideMvms 1).get k := by
  simp only [Work.leaveBank, Work.addWhen_get, Work.add_get]
  rfl

theorem Work.leaveBank_writes (s : Work) (e : Nat) (r : Run) (rest : List Run) : (s.leaveBank e r rest).writes = s.writes := by
  unfold Work.leaveBank Work.addWhen
  split <;> rfl

theorem Work.noScratch.leaveBank (h : s.noScratch) (e : Nat) (r : Run) (rest : List Run) : (s.leaveBank e r rest).noScratch := by
  unfold Work.leaveBank Work.addWhen
  split <;> exact h

/-- What the epilogue of an MVM leaves (R133, R135). -/
structure Work.epilogued (s t : Work) (e : Nat) (r : Run) (rest : List Run) : Prop where
  runs : (t.engine e).runs = rest
  engineMvms : s.counted t Obj.engineMvms 1
  wideMvms : r.job.twoPass = true → s.counted t Obj.wideMvms 1
  writes : s.noScratch → t.writes = s.writes

theorem Work.epilogued_of_ready (hruns : (s.engine e).runs = r :: rest) (hready : s.epilogueReady e r = true) :
    s.epilogued (s.epilogue e) e r rest := by
  have hleft := Work.epilogue_of_ready hruns hready
  refine ⟨?_, fun hlt => ?_, fun htwo hlt => ?_, fun hs => ?_⟩
  · rw [hleft.engine, Work.leaveBank_engine]
  · rw [hleft.counts (by decide), Work.leaveBank_get, Work.addWhen_get, if_neg (fun h => absurd h.1 (by decide)), Work.add_get, if_pos rfl]
    exact countPast_of_lt hlt
  · rw [hleft.counts (by decide), Work.leaveBank_get, Work.addWhen_get, if_pos ⟨rfl, htwo⟩, Work.add_get, if_neg (by decide)]
    exact countPast_of_lt hlt
  · rw [hleft.writes (hs.leaveBank e r rest), Work.leaveBank_writes]
end

theorem State.run_nextTag (s : State) (f : Work → Work) : (s.run f).dev.nextTag = (f s.work).nextTag := by
  obtain ⟨ls, n, os, h⟩ := s.run_dev_eq f
  rw [h]

/-- An MVM that finds no bank free leaves all but the cycles it waits. -/
theorem State.run_meter_frame (s : State) (k : Key) : s.frame (s.run (fun u => u.meter k)) [] (fun x => x = k) :=
  State.keeps.frame_silent (((s.keeps_work [] (fun x => x = k)).free _).add rfl s.work.fresh.1) rfl

/-- Settles O27: a start puts the oldest MVM in a bank, or waits; an epilogue takes the oldest MVM out of its bank, or waits; nothing after
that moves an MVM. -/
theorem mvmsStartInOrderAndLeaveWhenDone : Obligations.MvmsStartInOrderAndLeaveWhenDone := by
  unfold Obligations.MvmsStartInOrderAndLeaveWhenDone
  refine fun s e hengine => ⟨fun hstopped => ⟨fun ecc => State.nextIf_inside_of_stopped hengine hstopped,
    State.nextIf_inside_of_stopped hengine hstopped⟩, fun ecc j rest hopen hqueue hnew => ?_, fun r rest hopen hruns => ?_⟩
  · have hexec : exec (.engineMvmStart e ecc) s = .next (s.run (fun u => u.mvmStart e ecc)) := State.nextIf_inside_of_open hengine hopen
    refine ⟨_, hexec, ?_⟩
    split
    · next hfree =>
      have hnew' : s.work.nextTag ∉ (s.work.engine e).runs.map (·.tag) := fun h =>
        let ⟨r, hr, htag⟩ := List.mem_map.mp h
        hnew r hr htag
      obtain ⟨hrest, hbanks, hrun, htag, hmacs, hwrites⟩ := Work.started_of_free (ecc := ecc) hqueue hfree hnew'
      rw [State.run_engine, State.run_nextTag]
      exact ⟨hrest, hbanks, hrun, htag, State.run_counted (by simp [linkCounter]) hmacs, State.run_mem_same _ _ hwrites⟩
    · next hfull =>
      have hwaits := Work.mvmStart_of_full (ecc := ecc) hqueue (Bool.eq_false_iff.mpr hfull)
      rw [State.run_congr (g := fun u => u.meter Obj.recomputeStallCycles) hwaits]
      exact s.run_meter_frame _
  · have hexec : exec (.epilogue e) s = .next (s.run (fun u => u.epilogue e)) := State.nextIf_inside_of_open hengine hopen
    refine ⟨_, hexec, ?_⟩
    split
    · next hready =>
      obtain ⟨hrest, hmvms, hwide, hwrites⟩ := Work.epilogued_of_ready hruns hready
      rw [State.run_engine]
      exact ⟨hrest, State.run_counted (by simp [linkCounter]) hmvms, fun htwo => State.run_counted (by simp [linkCounter]) (hwide htwo),
        fun hs => State.run_mem_same _ _ (hwrites hs)⟩
    · next hready => exact s.run_id _ (Work.epilogue_of_not_ready hruns (Bool.eq_false_iff.mpr hready))

end Sys2Proof.Machine
end

section
/-! SUPPORT. What ops write and count: buffers, notes of vectors, and counts; and what that leaves of a step (R170, R191, R472). -/

namespace Sys2Proof.Machine

/-! ## Steps of which only values change -/

/-- The second step differs from the first only in what its buffers hold and what it notes of vectors. -/
def StepState.valuesOnly (x y : StepState) : Prop := ∃ bufs notes, y = { x with bufs := bufs, notes := notes }

theorem StepState.valuesOnly.trans {x y z : StepState} (h : x.valuesOnly y) (g : y.valuesOnly z) : x.valuesOnly z := by
  obtain ⟨_, _, rfl⟩ := h
  obtain ⟨_, _, rfl⟩ := g
  exact ⟨_, _, rfl⟩

theorem StepState.valuesOnly.refl (x : StepState) : x.valuesOnly x := ⟨_, _, rfl⟩

theorem Work.countEnc_step (s : Work) (k : VecKey) (c : EncCounts) : s.step.valuesOnly (s.countEnc k c).step := by
  have hadds (l : List (Key × Nat)) : (l.foldl (fun (s : Work) p => if p.2 = 0 then s else s.add p.1 p.2) s).step = s.step :=
    List.foldlRecOn l _ (motive := fun u : Work => u.step = s.step) rfl fun u hu p _ => by
      split
      · exact hu
      · exact hu
  unfold Work.countEnc Work.numeric
  dsimp only
  split
  · rw [hadds]
    exact .refl _
  · refine .trans ?_ ⟨_, _, rfl⟩
    rw [hadds]
    exact .refl _

theorem Work.countRange_step (s : Work) (obj : Nat → Key) (fuel addr len : Nat) : (s.countRange obj fuel addr len).step = s.step := by
  induction fuel generalizing s addr len with
  | zero => rfl
  | succ fuel ih =>
    unfold Work.countRange
    split
    · rfl
    · exact ih _ _ _

theorem Work.memStore_step (s : Work) (a : Nat) (bytes : List Byte) : (s.memStore a bytes).step = s.step := by
  unfold Work.memStore
  dsimp only
  rw [Work.countRange_step]
  exact List.foldlRecOn _ _ (motive := fun u : Work => u.step = s.step) rfl fun u hu c _ => hu

theorem Work.scratchStore_step (s : Work) (slot b m i : Nat) (v : Vec) : (s.scratchStore slot b m i v).step = s.step := by
  unfold Work.scratchStore
  split
  · rfl
  · split
    · rfl
    · dsimp only
      split
      · exact List.foldlRecOn _ _ (motive := fun u : Work => u.step = s.step) (Work.memStore_step _ _ _) fun u hu c _ => hu
      · exact Work.memStore_step _ _ _

/-! ## Works that write values -/

theorem recordsOnly.send (s : Work) (o : Output) : recordsOnly s (s.send o) := ⟨⟨_, _, _, _, _, _, _, _, rfl, rfl⟩, fun _ _ => rfl⟩

theorem Work.resultsOnly.trans {s t u : Work} (h : s.resultsOnly t) (g : t.resultsOnly u) : s.resultsOnly u := by
  obtain ⟨ws, hws, hrec⟩ := h
  obtain ⟨ws', hws', hrec'⟩ := g
  refine ⟨ws', fun hs => ?_, (hrec.of_writes ws' t.mem).trans hrec'⟩
  have ht : t.noScratch := fun slot b x hx => hs slot b x ((hrec.buffer slot b).symm.trans hx)
  rw [hws' ht, hrec.writes]
  exact hws hs

theorem Work.resultsOnly.serve {s t : Work} (h : s.resultsOnly t) : t.serve = s.serve := by
  obtain ⟨_, -, ⟨_, _, _, _, _, _, _, _, rfl, -⟩, -⟩ := h
  rfl

/-- The second work has written and counted values since the first; no op has begun or ended, and no part has come or gone. -/
structure Work.valuesOnly (s t : Work) : Prop where
  results : s.resultsOnly t
  step : s.step.valuesOnly t.step

namespace Work.valuesOnly

theorem refl (s : Work) : s.valuesOnly s := ⟨.refl s, .refl _⟩

section
variable {s t : Work} (h : s.valuesOnly t)
include h

theorem trans {u : Work} (g : t.valuesOnly u) : s.valuesOnly u := ⟨h.results.trans g.results, h.step.trans g.step⟩

theorem records {u : Work} (g : recordsOnly t u) (hstep : t.step.valuesOnly u.step) : s.valuesOnly u :=
  ⟨h.results.records g, h.step.trans hstep⟩

theorem ite {c : Prop} [Decidable c] {u : Work} (hu : s.valuesOnly u) : s.valuesOnly (if c then t else u) := by
  split
  · exact h
  · exact hu

theorem foldl {α : Type} {f : Work → α → Work} (hf : ∀ (u : Work) a, u.valuesOnly (f u a)) (l : List α) : s.valuesOnly (l.foldl f t) :=
  List.foldlRecOn l f h fun u hu a _ => hu.trans (hf u a)

theorem add {k : Key} (hk : k ∉ mvmCounts) (n : Nat) : s.valuesOnly (t.add k n) := h.records ((recordsOnly.refl t).add hk n) (.refl _)

theorem send (o : Output) : s.valuesOnly (t.send o) := h.records (.send t o) (.refl _)

theorem meter {k : Key} (hk : k ∉ mvmCounts) : s.valuesOnly (t.meter k) := h.records ((recordsOnly.refl t).fresh.add hk _) (.refl _)

theorem note (k : VecKey) (f : VecNote → VecNote) : s.valuesOnly (t.note k f) := h.records ((recordsOnly.refl t).note k f) ⟨_, _, rfl⟩

theorem countEnc (k : VecKey) (c : EncCounts) : s.valuesOnly (t.countEnc k c) :=
  h.records ((recordsOnly.refl t).countEnc k c) (t.countEnc_step k c)

theorem countInputs (k : VecKey) (vs : List Vec) : s.valuesOnly (t.countInputs k vs) := h.foldl (fun u v => (refl u).countEnc k (inputCounts v)) vs

theorem scratchStore (slot b m i : Nat) (v : Vec) : s.valuesOnly (t.scratchStore slot b m i v) :=
  ⟨h.results.scratchStore slot b m i v, (t.scratchStore_step slot b m i v).symm ▸ h.step⟩

theorem putBuf (slot b m : Nat) (vs : List Vec) : s.valuesOnly (t.putBuf slot b m vs) :=
  h.ite (h.records ((recordsOnly.refl t).modStep rfl) ⟨_, _, rfl⟩)

theorem setBuf (slot b m : Nat) (vs : List Vec) : s.valuesOnly (t.setBuf slot b m vs) := by
  unfold Work.setBuf
  refine (h.putBuf slot b m vs).foldl (fun u v => ?_) _
  exact (refl u).scratchStore slot b m v.2 v.1

theorem setVec (slot b m i : Nat) (v : Vec) : s.valuesOnly (t.setVec slot b m i v) := (h.putBuf slot b m _).scratchStore slot b m i v

theorem writeResult (c : OpCtx) (i fmt : Nat) (draws : Nat → Option Nat) (xs : List (Option Rat)) : s.valuesOnly (t.writeResult c i fmt draws xs) :=
  have hwritten := (h.setVec c.slot c.dst c.m i (writeVec fmt draws xs).1).countEnc ⟨c.slot, c.m, i⟩ (writeVec fmt draws xs).2
  (hwritten.note _ _).ite hwritten

theorem readSram (c : OpCtx) : s.valuesOnly (t.readSram c) := by
  refine h.foldl (fun u x => ?_) _
  dsimp only
  split
  · exact refl u
  · exact (refl u).ite ((refl u).setBuf _ _ _ _)
end
end Work.valuesOnly

/-- Where no buffer lies in SCRATCH, writing a buffer whole changes what it holds and nothing else. -/
theorem Work.setBuf_of_noScratch {s : Work} (hs : s.noScratch) (slot b m : Nat) (vs : List Vec) : s.setBuf slot b m vs = s.putBuf slot b m vs := by
  have hput : (s.putBuf slot b m vs).noScratch := by
    unfold Work.putBuf
    split
    · exact hs
    · exact hs
  refine List.foldlRecOn (motive := fun u : Work => u = s.putBuf slot b m vs) _ _ rfl fun u hu v _ => ?_
  subst hu
  unfold Work.scratchStore
  split
  · rfl
  · next x hbuffer => exact if_pos (hput slot b x hbuffer)

end Sys2Proof.Machine
end

section
/-! SUPPORT. Collectives on a die: how far the segments of one go, what its end leaves, and that a die that starts one has joined it or is
done with it (R203, R206, R394 to R397). -/

namespace Sys2Proof.Machine

/-! ## Segments -/

/-- The second pair is the first as a collective has gone on: it holds more segments and results, and its work has written values. -/
structure CollStep (p q : CollRun × Work) : Prop where
  run : ∃ sent results, q.1 = { p.1 with sent := sent, results := results }
  work : p.2.valuesOnly q.2

theorem CollStep.refl (p : CollRun × Work) : CollStep p p := ⟨⟨_, _, rfl⟩, .refl _⟩

theorem CollStep.trans {p q r : CollRun × Work} (h : CollStep p q) (g : CollStep q r) : CollStep p r := by
  obtain ⟨⟨_, _, hq⟩, hwork⟩ := h
  obtain ⟨⟨_, _, hr⟩, hwork'⟩ := g
  exact ⟨⟨_, _, by rw [hr, hq]⟩, hwork.trans hwork'⟩

section
variable {s t : Work} (h : s.valuesOnly t)
include h

theorem Work.valuesOnly.countEdge (x : CollRun) (data : List Vec) : s.valuesOnly (t.countEdge x data) := by
  have hkey : ∀ east : Bool, (if east then Obj.reduceBytesEast else Obj.reduceBytesWest) ∉ mvmCounts := by decide
  exact h.add (hkey _) _

theorem Work.valuesOnly.toRanks (x : CollRun) (ranks : List Nat) (data : List Vec) (m : FabricMsg) : s.valuesOnly (t.toRanks x ranks data m) :=
  h.foldl (fun u _ => ((refl u).send _).countEdge x data) ranks

theorem Work.valuesOnly.countVecs (x : CollRun) (cs : List EncCounts) : s.valuesOnly (t.countVecs x cs) :=
  h.foldl (fun u _ => (refl u).countEnc _ _) _

theorem Work.valuesOnly.roundSegment (x : CollRun) (acc : List Vec) : s.valuesOnly (t.roundSegment x acc).2 :=
  List.foldlRecOn _ _ (motive := fun r : List Vec × Work => s.valuesOnly r.2) h fun _ hr _ _ => hr.countEnc _ _
end

theorem Work.gatherSegment_goesOn (s : Work) (x : CollRun) (j : Nat) : CollStep (x, s) (s.gatherSegment x j) := by
  unfold Work.gatherSegment
  split
  · exact .refl _
  · dsimp only
    split
    · exact ⟨⟨_, _, rfl⟩, (Work.valuesOnly.refl s).toRanks _ _ _ _⟩
    · exact .refl _

theorem Work.reduceSegment_goesOn (s : Work) (x : CollRun) (j : Nat) : CollStep (x, s) (s.reduceSegment x j) := by
  unfold Work.reduceSegment
  extract_lets n kids whole parts len own combined sent rounded rooted up y t
  have hup : CollStep (x, s) up := by
    unfold up
    split
    · exact .refl _
    · have hcombined : s.valuesOnly combined.2 := List.foldlRecOn _ _ (motive := fun r : List Vec × Work => s.valuesOnly r.2) (.refl s)
        fun _ hr _ _ => hr.countVecs _ _
      have hrounded : s.valuesOnly rounded.2 := hcombined.roundSegment _ _
      split
      · exact ⟨⟨_, _, rfl⟩, (hrounded.toRanks _ _ _ _).ite hrounded⟩
      · exact ⟨⟨_, _, rfl⟩, hcombined.toRanks _ _ _ _⟩
  refine hup.trans ?_
  split
  · exact .refl _
  · split
    · exact ⟨⟨_, _, rfl⟩, (Work.valuesOnly.refl t).toRanks _ _ _ _⟩
    · exact .refl _

/-! ## The end of a collective -/

/-- The second work has gone on with collectives since the first: values may be written and ops may have ended, while what has been issued and
the parts and results received stand. -/
structure Work.collects (s t : Work) : Prop where
  results : s.resultsOnly t
  issued : t.step.issued = s.step.issued
  partsIn : t.step.partsIn = s.step.partsIn
  resultsIn : t.step.resultsIn = s.step.resultsIn

theorem Work.valuesOnly.collects {s t : Work} (h : s.valuesOnly t) : s.collects t := by
  obtain ⟨hresults, _, _, hstep⟩ := h
  exact ⟨hresults, by rw [hstep], by rw [hstep], by rw [hstep]⟩

theorem Work.valuesOnly.done {s t : Work} (h : s.valuesOnly t) : t.step.done = s.step.done := by
  obtain ⟨-, _, _, hstep⟩ := h
  rw [hstep]

theorem Work.valuesOnly.colls {s t : Work} (h : s.valuesOnly t) : t.step.colls = s.step.colls := by
  obtain ⟨-, _, _, hstep⟩ := h
  rw [hstep]

namespace Work.collects

theorem refl (s : Work) : s.collects s := ⟨.refl s, rfl, rfl, rfl⟩

section
variable {s t : Work} (h : s.collects t)
include h

theorem trans {u : Work} (g : t.collects u) : s.collects u :=
  ⟨h.results.trans g.results, g.issued.trans h.issued, g.partsIn.trans h.partsIn, g.resultsIn.trans h.resultsIn⟩

theorem modColls (f : List CollRun → List CollRun) : s.collects (t.modStep (fun x => { x with colls := f x.colls })) :=
  h.trans ⟨(Work.resultsOnly.refl t).records ((recordsOnly.refl t).modStep rfl), rfl, rfl, rfl⟩

theorem endOp (c : OpCtx) : s.collects (t.endOp c) := h.trans ⟨(Work.resultsOnly.refl t).endOp c, rfl, rfl, rfl⟩

theorem meter {k : Key} (hk : k ∉ mvmCounts) : s.collects (t.meter k) := h.trans ((Work.valuesOnly.refl t).meter hk).collects
end
end Work.collects

theorem Work.mem_endOp_done (s : Work) (c : OpCtx) : instOf c ∈ (s.endOp c).step.done := List.mem_append_right _ (List.mem_singleton.mpr rfl)

/-- The op that a collective is of. -/
def CollRun.inst (x : CollRun) : Inst := ⟨x.slot, x.seq, x.m⟩

/-- A collective that carries a NORM's statistics is that NORM's own. -/
def CollRun.owned (x : CollRun) : Prop := ∀ n ∈ x.norm, instOf n.1 = x.inst

theorem Work.eachVec_collects (s : Work) (c : OpCtx) (n fmt : Nat) (g : Nat → List (Option Rat) × EncCounts) : s.collects (s.eachVec c n fmt g) :=
  (((Work.valuesOnly.refl s).foldl (fun u i => ((Work.valuesOnly.refl u).countEnc _ _).writeResult c i fmt noDraw (g i).1) _).collects).endOp c

theorem Work.collDone_collects (s : Work) (x : CollRun) : s.collects (s.collDone x) := by
  unfold Work.collDone
  extract_lets t order vs written noted counted
  have hleft : s.collects t := (Work.collects.refl s).modColls _
  split
  · exact hleft.trans (t.eachVec_collects _ _ _ _)
  · have hnoted : t.valuesOnly noted := by
      refine ((Work.valuesOnly.refl t).setBuf x.slot x.dst x.m vs).foldl (fun u p => ?_) vs.zipIdx
      exact (((Work.valuesOnly.refl u).countEnc _ _).note _ _).ite (.refl u)
    have hcounted : t.valuesOnly counted := by
      unfold counted
      exact hnoted.ite (hnoted.add (by decide) 1)
    exact ((hleft.trans hcounted.collects).endOp _).meter (by decide)

theorem Work.mem_collDone_done (s : Work) {x : CollRun} (hx : x.owned) : x.inst ∈ (s.collDone x).step.done := by
  unfold Work.collDone
  split
  · next n hnorm => exact hx n hnorm ▸ Work.mem_endOp_done _ n.1
  · exact Work.mem_endOp_done _ _

/-! ## A collective that goes on -/

theorem Work.putColl_collects (s : Work) (x : CollRun) : s.collects (s.putColl x) := (Work.collects.refl s).modColls _

theorem Work.mem_putColl {s : Work} {x y : CollRun} (hx : x ∈ s.step.colls) (hy : y.inst = x.inst) : y ∈ (s.putColl y).step.colls := by
  refine List.mem_map.mpr ⟨x, hx, if_pos ?_⟩
  have hid := Inst.mk.inj hy
  exact ⟨hid.1.symm, hid.2.1.symm, hid.2.2.symm⟩

/-- A collective goes as far as it can, and ends when it is complete. -/
theorem Work.settleColl_eq (s : Work) (x : CollRun) : ∃ q, CollStep (x, s) q ∧
    s.settleColl x = if q.1.complete then (q.2.putColl q.1).collDone q.1 else q.2.putColl q.1 := by
  refine ⟨_, ?_, rfl⟩
  refine List.foldlRecOn _ _ (motive := fun q : CollRun × Work => CollStep (x, s) q) (.refl _) fun q hq j _ => hq.trans ?_
  split
  · exact q.2.gatherSegment_goesOn q.1 j
  · exact q.2.reduceSegment_goesOn q.1 j

theorem Work.settleColl_collects (s : Work) (x : CollRun) : s.collects (s.settleColl x) := by
  obtain ⟨q, hq, hsettled⟩ := s.settleColl_eq x
  have hput : s.collects (q.2.putColl q.1) := hq.work.collects.trans (q.2.putColl_collects q.1)
  rw [hsettled]
  split
  · exact hput.trans (Work.collDone_collects _ _)
  · exact hput

theorem Work.settleColls_collects (s : Work) : s.collects s.settleColls :=
  List.foldlRecOn _ _ (.refl s) fun u hu x _ => hu.trans (u.settleColl_collects x)

/-! ## Taking part -/

/-- The second work has gone on from the first, and its die has joined the collective of an op, or is done with the op. -/
structure Work.takesPart (s t : Work) (i : Inst) : Prop where
  collects : s.collects t
  joined : i ∈ t.step.done ∨ ∃ x ∈ t.step.colls, x.inst = i

theorem Work.collects.takesPart {s t u : Work} {i : Inst} (h : s.collects t) (g : t.takesPart u i) : s.takesPart u i :=
  ⟨h.trans g.collects, g.joined⟩

theorem Work.settleColl_takesPart {s : Work} {x : CollRun} (hx : x ∈ s.step.colls) (hown : x.owned) : s.takesPart (s.settleColl x) x.inst := by
  refine ⟨s.settleColl_collects x, ?_⟩
  obtain ⟨⟨y, t⟩, ⟨⟨sent, results, hy⟩, hwork⟩, hsettled⟩ := s.settleColl_eq x
  dsimp only at hy hwork
  have hinst : y.inst = x.inst := by rw [hy]; rfl
  have howned : y.owned := by rw [hy]; exact hown
  rw [hsettled]
  split
  · exact .inl (hinst ▸ Work.mem_collDone_done _ howned)
  · exact .inr ⟨y, Work.mem_putColl (hwork.colls ▸ hx) hinst, hinst⟩

theorem Work.startColl_takesPart (s : Work) (c : OpCtx) (gather : Bool) (a : CollArgs) (own : List Vec) {norm : Option (OpCtx × NormArgs)}
    (hnorm : ∀ n ∈ norm, n.1 = c) : s.takesPart (s.startColl c gather a own norm) (instOf c) := by
  unfold Work.startColl
  extract_lets ms
  split
  · exact ⟨(Work.collects.refl s).endOp c, .inl (s.mem_endOp_done c)⟩
  · refine ((Work.collects.refl s).modColls (fun l => l ++ [_])).takesPart (Work.settleColl_takesPart ?_ ?_)
    · exact List.mem_append_right _ (List.mem_singleton.mpr rfl)
    · exact fun n hn => hnorm n hn ▸ rfl

theorem Work.reduce_takesPart (s : Work) (c : OpCtx) (a : CollArgs) : s.takesPart (s.reduce c a) (instOf c) :=
  ((Work.valuesOnly.refl s).foldl (fun u _ => (Work.valuesOnly.refl u).countInputs _ _) _).collects.takesPart
    (Work.startColl_takesPart _ c false a _ nofun)

theorem Work.norm_takesPart (s : Work) (c : OpCtx) {a : NormArgs} (hset : a.set ≠ 0xFF) : s.takesPart (s.norm c a) (instOf c) := by
  unfold Work.norm
  dsimp only
  rw [if_neg hset]
  refine ((Work.valuesOnly.refl s).foldl (fun u _ => (Work.valuesOnly.refl u).countEnc _ _) _).collects.takesPart
    (Work.startColl_takesPart _ c true _ _ ?_)
  exact fun n hn => (Option.mem_some.mp hn) ▸ rfl

end Sys2Proof.Machine
end

section
/-! SUPPORT. The rows of collectives: REDUCE, GATHER and NORM as they start, and the parts and results that arrive (R152, R204 to R206, R396). -/

namespace Sys2Proof.Machine

theorem State.run_step (s : State) (f : Work → Work) : (s.run f).dev.step = (f s.work).step := by
  obtain ⟨ls, n, os, h⟩ := s.run_dev_eq f
  rw [h]

/-- A command whose work writes results leaves memory where no buffer lies in SCRATCH. -/
theorem State.run_mem_of_results {s : State} {f : Work → Work} (h : s.work.resultsOnly (f s.work)) (hs : noScratch s) : (s.run f).mem = s.mem :=
  State.run_mem_same s f (h.writes hs)

/-! ## Ops that start -/

/-- The work once an op has been issued. -/
def Work.issue (s : Work) (c : OpCtx) : Work := s.modStep (fun x => { x with issued := x.issued ++ [instOf c] })

theorem Work.startOp_of_mayStart {s : State} {c : OpCtx} (h : MayStart s c) (f : Work → Work) :
    s.work.startOp c f = f ((s.work.readSram c).issue c) := by
  obtain ⟨hmay, hrecord⟩ := h
  unfold Work.startOp Work.fetchRecord
  rw [if_pos hmay, if_pos hrecord]
  rfl

theorem Work.issue_resultsOnly (s : Work) (c : OpCtx) : s.resultsOnly (s.issue c) :=
  (Work.resultsOnly.refl s).records ((recordsOnly.refl s).modStep rfl)

theorem Work.readSram_of_good (s : Work) {c : OpCtx} (h : sramGood c) : s.readSram c = s := by
  have hnone : c.sram.filter (·.double) = [] := List.filter_eq_nil_iff.mpr fun x hx => by simp [h x hx]
  unfold Work.readSram
  rw [hnone]
  rfl

/-- An op that joins its collective as it starts. -/
theorem State.next_takesPart {s : State} {c : OpCtx} (hmay : MayStart s c) {f : Work → Work} (hf : ∀ u : Work, u.takesPart (f u) (instOf c)) :
    ∃ t, s.next (fun w => w.startOp c f) = .next t ∧ instOf c ∈ t.dev.step.issued ∧ (noScratch s → t.mem = s.mem) ∧
      (instOf c ∈ t.dev.step.done ∨ ∃ x ∈ t.dev.step.colls, (⟨x.slot, x.seq, x.m⟩ : Inst) = instOf c) := by
  have hpart := hf ((s.work.readSram c).issue c)
  have hread := ((Work.valuesOnly.refl s.work).readSram c).results.trans (Work.issue_resultsOnly _ c)
  refine ⟨_, rfl, ?_⟩
  rw [State.run_congr (g := fun w => f ((w.readSram c).issue c)) (Work.startOp_of_mayStart hmay f), State.run_step]
  refine ⟨?_, State.run_mem_of_results (hread.trans hpart.collects.results), hpart.joined⟩
  rw [hpart.collects.issued]
  exact List.mem_append_right _ (List.mem_singleton.mpr rfl)

/-- GATHER TO_MANAGER sends what SRC0 holds, and ends (R205). -/
theorem State.next_gatherToManager {s : State} {c : OpCtx} (hmay : MayStart s c) (hsram : sramGood c) :
    ∃ t, s.next (fun w => w.startOp c (fun w => w.gatherToManager c)) = .next t ∧ instOf c ∈ t.dev.step.done ∧
      ∃ p, p.data = s.work.buf c.slot c.src0 c.m ∧ p.slot = c.slot ∧ p.seq = c.seq ∧ p.m = c.m ∧
        Output.fabric (some 0) none (.gatherPart p) ∈ t.out.drop s.out.length := by
  have hwork : s.work.startOp c (fun w => w.gatherToManager c) = (s.work.issue c).gatherToManager c := by
    rw [Work.startOp_of_mayStart hmay, Work.readSram_of_good _ hsram]
  let data := s.work.buf c.slot c.src0 c.m
  refine ⟨_, rfl, ?_, ⟨s.work.ownDevice, stepNumber s.work, c.slot, c.seq, c.m, 0, data.any vecPoisoned, data⟩, rfl, rfl, rfl, rfl,
    State.mem_drop_run_out ?_⟩
  · rw [State.run_step, hwork]
    exact Work.mem_endOp_done _ c
  · rw [hwork]
    exact List.mem_singleton.mpr rfl

/-! ## Parts and results that arrive -/

/-- The work once a part or a result stands among those received (R397). -/
def Work.received (s : Work) (p : CollPart) (result : Bool) : Work :=
  s.modStep (fun x => if result then { x with resultsIn := x.resultsIn ++ [CollPart.taken p] }
    else { x with partsIn := x.partsIn ++ [CollPart.taken p] })

theorem Work.received_resultsOnly (s : Work) (p : CollPart) (result : Bool) : s.resultsOnly (s.received p result) :=
  (Work.resultsOnly.refl s).records ((recordsOnly.refl s).modStep (by cases result <;> rfl))

theorem Work.mem_received_partsIn (s : Work) (p : CollPart) : CollPart.taken p ∈ (s.received p false).step.partsIn :=
  List.mem_append_right _ (List.mem_singleton.mpr rfl)

theorem Work.mem_received_resultsIn (s : Work) (p : CollPart) : CollPart.taken p ∈ (s.received p true).step.resultsIn :=
  List.mem_append_right _ (List.mem_singleton.mpr rfl)

/-- A worker receives a part or a result, and then its collectives go on. -/
theorem Work.keepPart_collects (s : Work) (p : CollPart) (result : Bool) : (s.received p result).collects (s.keepPart p result) := by
  cases result with
  | true => exact Work.settleColls_collects _
  | false => exact ((Work.collects.refl _).meter (k := Obj.combineStallNs) (by decide)).trans (Work.settleColls_collects _)

section
variable {s : State} {p : CollPart} {f : Work → Work}

theorem State.run_keepPart_mem {result : Bool} (hf : f s.work = s.work.keepPart p result) (hs : noScratch s) : (s.run f).mem = s.mem :=
  State.run_mem_of_results (hf ▸ (s.work.received_resultsOnly p result).trans (s.work.keepPart_collects p result).results) hs

/-- A worker keeps a part until it is taken. -/
theorem State.run_keepPart (hf : f s.work = s.work.keepPart p false) :
    CollPart.taken p ∈ (s.run f).dev.step.partsIn ∧ (noScratch s → (s.run f).mem = s.mem) := by
  refine ⟨?_, State.run_keepPart_mem hf⟩
  rw [State.run_step, hf, (s.work.keepPart_collects p false).partsIn]
  exact s.work.mem_received_partsIn p

/-- A worker keeps a result until it is taken. -/
theorem State.run_keepResult (hf : f s.work = s.work.keepPart p true) :
    CollPart.taken p ∈ (s.run f).dev.step.resultsIn ∧ (noScratch s → (s.run f).mem = s.mem) := by
  refine ⟨?_, State.run_keepPart_mem hf⟩
  rw [State.run_step, hf, (s.work.keepPart_collects p true).resultsIn]
  exact s.work.mem_received_resultsIn p
end

theorem Work.gatherPart_of_worker {s : Work} (hformed : s.formed = true) (hworker : s.get Obj.role = 3) (p : CollPart) :
    s.gatherPart p = s.keepPart p false := by
  simp [Work.gatherPart, hformed, Work.isManager, Work.isWorker, hworker]

theorem Work.gatherPart_of_manager {s : Work} {q : StepPlan} {p : CollPart} (hformed : s.formed = true) (hmanager : s.isManager = true)
    (hplan : s.serve.plan = some q) (hstep : q.head.step = p.step) :
    s.gatherPart p = (s.modServe (fun x => { x with candidates := x.candidates ++ [p] })).gatheredInto p := by
  simp [Work.gatherPart, hformed, hmanager, hplan, hstep]

theorem State.keeps.modStep {s : State} {w : Work} {parts : List StatePart} {keys : Key → Prop} (h : s.keeps w parts keys)
    (hstep : StatePart.step ∈ parts) (f : StepState → StepState) : s.keeps (w.modStep f) parts keys := by
  refine ⟨fun p hp => ?_, h.2⟩
  cases p with
  | step => exact absurd hstep hp
  | _ => exact h.1 _ hp

/-- What a GATHER TO_MANAGER brings is written in at most one buffer (R205). -/
theorem Work.gatheredInto_eq (s : Work) (p : CollPart) : s.gatheredInto p = s ∨ ∃ slot b m vs, s.gatheredInto p = s.setBuf slot b m vs := by
  unfold Work.gatheredInto
  split
  · exact .inr ⟨_, _, _, _, rfl⟩
  · exact .inl rfl

theorem Work.gatheredInto_serve (s : Work) (p : CollPart) : (s.gatheredInto p).serve = s.serve := by
  obtain hsame | ⟨slot, b, m, vs, hset⟩ := s.gatheredInto_eq p
  · rw [hsame]
  · rw [hset, ((Work.valuesOnly.refl s).setBuf slot b m vs).results.serve]

theorem Work.gatheredInto_of_noScratch {s : Work} (hs : s.noScratch) (p : CollPart) :
    s.gatheredInto p = s ∨ ∃ f, s.gatheredInto p = s.modStep f := by
  obtain hsame | ⟨slot, b, m, vs, hset⟩ := s.gatheredInto_eq p
  · exact .inl hsame
  · rw [hset, Work.setBuf_of_noScratch hs, Work.putBuf]
    split
    · exact .inl rfl
    · exact .inr ⟨_, rfl⟩

/-- Candidates for the step in progress are kept at the manager (R205). -/
theorem State.next_candidates {s : State} {q : StepPlan} {p : CollPart} (hformed : s.val Obj.groupState = 2) (hmanager : s.val Obj.role = 1)
    (hplan : s.dev.serve.plan = some q) (hstep : q.head.step = p.step) :
    ∃ t, s.next (fun w => w.gatherPart p) = .next t ∧ t.dev.serve.candidates = s.dev.serve.candidates ++ [p] ∧
      (noScratch s → s.frame t [.serve, .step] (fun _ => False)) := by
  let kept := s.work.modServe (fun x => { x with candidates := x.candidates ++ [p] })
  have hwork : s.work.gatherPart p = kept.gatheredInto p :=
    Work.gatherPart_of_manager (decide_eq_true hformed) (decide_eq_true hmanager) hplan hstep
  refine ⟨_, rfl, ?_, fun hs => ?_⟩
  · rw [State.run_serve, hwork, Work.gatheredInto_serve]
    rfl
  · have hkept : s.keeps kept [.serve, .step] (fun _ => False) := (s.keeps_work _ _).modServe (by simp) _
    rw [State.run_congr (g := fun _ => kept.gatheredInto p) hwork]
    obtain hsame | ⟨f, hbuffer⟩ := Work.gatheredInto_of_noScratch (s := kept) hs p
    · rw [hsame]
      exact hkept.frame_silent rfl
    · rw [hbuffer]
      exact (hkept.modStep (by simp) f).frame_silent rfl

/-- Settles O33: an op that may start has its segments go as far as they can, so that it is done or stands among the collectives; a part that
arrives is kept before the collectives go on, which take none away. -/
theorem collectivesTakePartAndKeepParts : Obligations.CollectivesTakePartAndKeepParts := by
  unfold Obligations.CollectivesTakePartAndKeepParts
  refine ⟨fun s c hmay => ⟨?_, fun a hkind hsram => ?_⟩, fun s p hformed => ⟨fun hworker => ?_, fun q => State.next_candidates hformed⟩⟩
  · rintro i (⟨a, rfl⟩ | ⟨a, hkind, rfl⟩ | ⟨a, hset, rfl⟩)
    · exact State.next_takesPart hmay (fun u => u.reduce_takesPart c a)
    · refine State.next_takesPart hmay (fun u => ?_)
      rw [if_neg hkind]
      exact u.startColl_takesPart c true a _ nofun
    · exact State.next_takesPart hmay (fun u => u.norm_takesPart c hset)
  · have hexec : exec (.gather c a) s = s.next (fun w => w.startOp c (fun w => w.gatherToManager c)) := by
      change execGather c a s = _
      simp only [execGather, if_pos hkind]
    rw [hexec]
    exact State.next_gatherToManager hmay hsram
  · have hmember : (s.work.isWorker && s.work.formed) = true := Bool.and_eq_true_iff.mpr ⟨decide_eq_true hworker, decide_eq_true hformed⟩
    refine ⟨fun fmt oper kind => ⟨_, rfl, ?_⟩, ⟨_, rfl, ?_⟩, ⟨_, rfl, ?_⟩⟩
    · exact State.run_keepPart (if_pos hmember)
    · exact State.run_keepPart (Work.gatherPart_of_worker (decide_eq_true hformed) hworker p)
    · exact State.run_keepResult (if_pos hmember)

end Sys2Proof.Machine
end

section
/-! SUPPORT. What an op that runs to its end on the die that issues it does before it ends: it writes its destination and counts, and
memory changes only where the destination lies in SCRATCH (R191, R192, R196). -/

namespace Sys2Proof.Machine

/-! ## Counts -/

theorem Work.add_counts (s : Work) (k : Key) (n : Nat) : s.counted (s.add k n) k n := by
  intro hlt
  rw [Work.add_get, if_pos rfl]
  exact countPast_of_lt hlt

theorem Work.endOp_counts (s : Work) (c : OpCtx) : s.counted (s.endOp c) Obj.opsExecuted 1 := Work.add_counts _ _ _

theorem Work.mem_issue (s : Work) (c : OpCtx) : instOf c ∈ (s.issue c).step.issued := List.mem_append_right _ (List.mem_singleton.mpr rfl)

/-! ## Stores in memory (R471, R479) -/

/-- The second work differs from the first in memory, in the error log of the stacks, and in objects other than OPS_EXECUTED. -/
def Work.storesOnly (s t : Work) : Prop :=
  (∃ objs dram mem writes, t = { s with objs := objs, dram := dram, mem := mem, writes := writes }) ∧
    t.get Obj.opsExecuted = s.get Obj.opsExecuted

namespace Work.storesOnly

theorem refl (s : Work) : s.storesOnly s := ⟨⟨_, _, _, _, rfl⟩, rfl⟩

section
variable {s t : Work} (h : s.storesOnly t)
include h

theorem trans {u : Work} (g : t.storesOnly u) : s.storesOnly u := by
  obtain ⟨⟨_, _, _, _, rfl⟩, hcount⟩ := h
  obtain ⟨⟨_, _, _, _, rfl⟩, hcount'⟩ := g
  exact ⟨⟨_, _, _, _, rfl⟩, hcount'.trans hcount⟩

theorem add {k : Key} (hk : k ≠ Obj.opsExecuted) (n : Nat) : s.storesOnly (t.add k n) :=
  h.trans ⟨⟨_, _, _, _, rfl⟩, by rw [Work.add_get, if_neg hk]⟩

theorem memOp (o : MemOp) : s.storesOnly (t.memOp o) := h.trans ⟨⟨_, _, _, _, rfl⟩, rfl⟩

theorem logPoison (a kind symbols c : Nat) : s.storesOnly ((t.logError a kind symbols).notePoison c) := h.trans ⟨⟨_, _, _, _, rfl⟩, rfl⟩

theorem countRange {obj : Nat → Key} (hobj : ∀ n, obj n ≠ Obj.opsExecuted) (fuel addr len : Nat) :
    s.storesOnly (Work.countRange t obj fuel addr len) := by
  induction fuel generalizing t addr len with
  | zero => exact h
  | succ fuel ih =>
    unfold Work.countRange
    split
    · exact h
    · exact ih (h.add (hobj _) _) _ _

theorem memStore (addr : Nat) (bytes : List Byte) : s.storesOnly (t.memStore addr bytes) := by
  unfold Work.memStore
  exact .countRange (List.foldlRecOn _ _ (h.memOp _) fun _ hu _ _ => (hu.add (by decide) 1).logPoison _ _ _ _) (by simp) _ _ _

theorem memStorePoison (c : Nat) : s.storesOnly (t.memStorePoison c) := ((h.memOp _).add (by decide) 1).logPoison _ _ _ _

theorem scratchStore (slot b m i : Nat) (v : Vec) : s.storesOnly (t.scratchStore slot b m i v) := by
  unfold Work.scratchStore
  split
  · exact h
  · split
    · exact h
    · dsimp only
      split
      · exact List.foldlRecOn _ _ (h.memStore _ _) fun _ hu _ _ => hu.memStorePoison _
      · exact h.memStore _ _
end
end Work.storesOnly

/-! ## Buffers outside SCRATCH (R192) -/

/-- A buffer of a slot does not lie in SCRATCH. -/
def Work.outsideScratch (s : Work) (slot b : Nat) : Prop := ∀ x, s.buffer slot b = some x → x.kind ≠ 2

section
variable {s : Work} {slot b : Nat} (h : s.outsideScratch slot b)
include h

theorem Work.scratchStore_of_outside (m i : Nat) (v : Vec) : s.scratchStore slot b m i v = s := by
  unfold Work.scratchStore
  split
  · rfl
  · exact if_pos (h _ ‹_›)

theorem Work.outsideScratch.putBuf (m : Nat) (vs : List Vec) : (s.putBuf slot b m vs).outsideScratch slot b := by
  unfold Work.putBuf
  split
  · exact h
  · exact h

theorem Work.setBuf_of_outside (m : Nat) (vs : List Vec) : s.setBuf slot b m vs = s.putBuf slot b m vs :=
  List.foldlRecOn (motive := fun u : Work => u = s.putBuf slot b m vs) _ _ rfl fun _ hu _ _ =>
    hu ▸ Work.scratchStore_of_outside (h.putBuf m vs) _ _ _
end

/-! ## The words an op reads (R15) -/

/-- What is held in the buffers, replaced. -/
def Work.withBufs (s : Work) (bufs : List (BufKey × List Vec)) : Work := s.modStep (fun x => { x with bufs := bufs })

theorem Work.putBuf_eq (s : Work) (slot b m : Nat) (vs : List Vec) : ∃ bufs, s.putBuf slot b m vs = s.withBufs bufs := by
  unfold Work.putBuf
  split
  · exact ⟨s.step.bufs, rfl⟩
  · exact ⟨_, rfl⟩

/-- Elements that read as poison change what buffers hold, and nothing else. -/
theorem Work.readSram_eq (s : Work) (c : OpCtx) : ∃ bufs, s.readSram c = s.withBufs bufs := by
  refine List.foldlRecOn (motive := fun u : Work => ∃ bufs, u = s.withBufs bufs) _ _ ⟨s.step.bufs, rfl⟩ fun u hu x _ => ?_
  obtain ⟨bufs, rfl⟩ := hu
  dsimp only
  split
  · exact ⟨bufs, rfl⟩
  · next y hbuffer =>
    split
    · exact ⟨bufs, rfl⟩
    · next hkind =>
      rw [Work.setBuf_of_outside (fun z hz => by rw [Option.some.inj (hz.symm.trans hbuffer)]; omega)]
      exact Work.putBuf_eq _ _ _ _ _

/-! ## An op in progress -/

/-- The second work has gone on with an op since the first: values have been counted and written in its destination, and what is past
correction among the words it reads has become poison. -/
structure Work.opWrites (c : OpCtx) (s t : Work) : Prop where
  parts : ∃ objs step dram mem writes, t = { s with objs := objs, step := step, dram := dram, mem := mem, writes := writes } ∧
    step.running = s.step.running
  bufs : sramGood c → ∀ k, k ≠ s.bufKey c.slot c.dst c.m → look [] t.step.bufs k = look [] s.step.bufs k
  memory : s.outsideScratch c.slot c.dst → t.dram = s.dram ∧ t.writes = s.writes
  issued : s.step.issued ⊆ t.step.issued
  opsExecuted : t.get Obj.opsExecuted = s.get Obj.opsExecuted

namespace Work.opWrites

variable {c : OpCtx}

theorem refl (s : Work) : s.opWrites c s :=
  ⟨⟨_, _, _, _, _, rfl, rfl⟩, fun _ _ _ => rfl, fun _ => ⟨rfl, rfl⟩, fun _ h => h, rfl⟩

/-- What changes a step but not its buffers. -/
theorem ofStep (s : Work) {f : StepState → StepState} (hrunning : (f s.step).running = s.step.running) (hbufs : (f s.step).bufs = s.step.bufs)
    (hissued : s.step.issued ⊆ (f s.step).issued) : s.opWrites c (s.modStep f) :=
  ⟨⟨_, _, _, _, _, rfl, hrunning⟩, fun _ k _ => congrArg (fun l => look [] l k) hbufs, fun _ => ⟨rfl, rfl⟩, hissued, rfl⟩

section
variable {s t : Work} (h : s.opWrites c t)
include h

theorem buffer (slot b : Nat) : t.buffer slot b = s.buffer slot b := by
  obtain ⟨_, _, _, _, _, rfl, hrunning⟩ := h.parts
  simp only [Work.buffer, Work.stepProgram, Work.tuning, hrunning]
  rfl

theorem bufKey (slot b m : Nat) : t.bufKey slot b m = s.bufKey slot b m := by
  rw [Work.bufKey, Work.bufKey, h.buffer]

theorem outsideScratch (hs : s.outsideScratch c.slot c.dst) : t.outsideScratch c.slot c.dst :=
  fun x hx => hs x ((h.buffer _ _).symm.trans hx)

theorem trans {u : Work} (g : t.opWrites c u) : s.opWrites c u where
  parts := by
    obtain ⟨_, _, _, _, _, rfl, hrunning⟩ := h.parts
    obtain ⟨_, _, _, _, _, rfl, hrunning'⟩ := g.parts
    exact ⟨_, _, _, _, _, rfl, hrunning'.trans hrunning⟩
  bufs hgood k hk := (g.bufs hgood k (h.bufKey _ _ _ ▸ hk)).trans (h.bufs hgood k hk)
  memory hs :=
    have hfirst := h.memory hs
    have hsecond := g.memory (h.outsideScratch hs)
    ⟨hsecond.1.trans hfirst.1, hsecond.2.trans hfirst.2⟩
  issued := fun _ hx => g.issued (h.issued hx)
  opsExecuted := g.opsExecuted.trans h.opsExecuted

theorem ite {p : Prop} [Decidable p] {u : Work} (hu : s.opWrites c u) : s.opWrites c (if p then t else u) := by
  split
  · exact h
  · exact hu

theorem foldl {α : Type} {f : Work → α → Work} (hf : ∀ (u : Work) a, u.opWrites c (f u a)) (l : List α) : s.opWrites c (l.foldl f t) :=
  List.foldlRecOn l f h fun u hu a _ => hu.trans (hf u a)

/-! Counts and notes -/

theorem add {k : Key} (hk : k ≠ Obj.opsExecuted) (n : Nat) : s.opWrites c (t.add k n) :=
  h.trans ⟨⟨_, _, _, _, _, rfl, rfl⟩, fun _ _ _ => rfl, fun _ => ⟨rfl, rfl⟩, fun _ hx => hx, by rw [Work.add_get, if_neg hk]⟩

theorem note (k : VecKey) (f : VecNote → VecNote) : s.opWrites c (t.note k f) := h.trans (ofStep t rfl rfl fun _ hx => hx)

theorem numeric (k : VecKey) (n : Nat) : s.opWrites c (t.numeric k n) := h.ite ((h.note k _).add (by decide) n)

theorem countEnc (k : VecKey) (x : EncCounts) : s.opWrites c (t.countEnc k x) := by
  refine .numeric (List.foldlRecOn _ _ h fun u hu p hp => hu.ite (hu.add (fun hk => ?_) _)) k _
  simp [Prod.ext_iff, hk] at hp

theorem countInputs (k : VecKey) (vs : List Vec) : s.opWrites c (t.countInputs k vs) :=
  h.foldl (fun u v => (refl u).countEnc k (inputCounts v)) vs

theorem countWiden (k : VecKey) (fmt : Nat) (v : Vec) : s.opWrites c (t.countWiden k fmt v) := h.ite ((h.add (by decide) _).numeric k _)

theorem notePoisonWhen {p : Prop} [Decidable p] (k : VecKey) : s.opWrites c (if p then t.notePoison1 k else t) := (h.note k _).ite h

/-! The destination -/

theorem stores {u : Work} (g : t.storesOnly u) (houtside : t.outsideScratch c.slot c.dst → u = t) : s.opWrites c u := by
  refine h.trans ⟨?_, fun _ k _ => ?_, fun hs => ?_, ?_, g.2⟩
  · obtain ⟨⟨_, _, _, _, rfl⟩, -⟩ := g
    exact ⟨_, _, _, _, _, rfl, rfl⟩
  · obtain ⟨⟨_, _, _, _, rfl⟩, -⟩ := g
    rfl
  · rw [houtside hs]
    exact ⟨rfl, rfl⟩
  · obtain ⟨⟨_, _, _, _, rfl⟩, -⟩ := g
    exact fun _ hx => hx

theorem scratchStore (i : Nat) (v : Vec) : s.opWrites c (t.scratchStore c.slot c.dst c.m i v) :=
  h.stores ((Work.storesOnly.refl t).scratchStore _ _ _ _ _) fun hs => Work.scratchStore_of_outside hs _ _ _

theorem putBuf (vs : List Vec) : s.opWrites c (t.putBuf c.slot c.dst c.m vs) := by
  refine h.ite (h.trans ⟨⟨_, _, _, _, _, rfl, rfl⟩, fun _ k hk => ?_, fun _ => ⟨rfl, rfl⟩, fun _ hx => hx, rfl⟩)
  exact look_put_ne _ _ _ hk.symm

theorem setVec (i : Nat) (v : Vec) : s.opWrites c (t.setVec c.slot c.dst c.m i v) := (h.putBuf _).scratchStore i v

theorem writeResult (i fmt : Nat) (draws : Nat → Option Nat) (xs : List (Option Rat)) : s.opWrites c (t.writeResult c i fmt draws xs) :=
  ((h.setVec i (writeVec fmt draws xs).1).countEnc ⟨c.slot, c.m, i⟩ (writeVec fmt draws xs).2).notePoisonWhen _

/-! The start -/

theorem readSram : s.opWrites c (t.readSram c) := by
  obtain ⟨bufs, hread⟩ := t.readSram_eq c
  refine h.trans ⟨?_, fun hgood _ _ => ?_, fun _ => ?_, ?_, ?_⟩
  · exact ⟨_, _, _, _, _, hread, rfl⟩
  · rw [Work.readSram_of_good t hgood]
  · rw [hread]
    exact ⟨rfl, rfl⟩
  · rw [hread]
    exact fun _ hx => hx
  · rw [hread]
    rfl

theorem issue : s.opWrites c (t.issue c) := h.trans (ofStep t rfl rfl (List.subset_append_left _ _))
end
end Work.opWrites

end Sys2Proof.Machine
end

section
/-! SUPPORT. The ops that run to their end on the die that issues them (R206 to R214, R305): each writes its destination, and ends; and what
an op does that may not start yet (R197, R222). -/

namespace Sys2Proof.Machine

/-! ## From the start of an op to its end -/

/-- The second work is the first once an op has written its destination and has ended. -/
def Work.finishes (c : OpCtx) (s t : Work) : Prop := ∃ u, s.opWrites c u ∧ t = u.endOp c

section
variable {c : OpCtx} {s t : Work} (h : s.opWrites c t)
include h

theorem Work.opWrites.endOp : s.finishes c (t.endOp c) := ⟨t, h, rfl⟩

theorem Work.opWrites.eachVec (n fmt : Nat) (g : Nat → List (Option Rat) × EncCounts) : s.finishes c (t.eachVec c n fmt g) :=
  (h.foldl (fun u _ => ((Work.opWrites.refl u).countEnc _ _).writeResult _ _ _ _) _).endOp

theorem Work.opWrites.putKv (x : KvPos) : s.opWrites c (t.putKv x) := h.trans (.ofStep t rfl rfl fun _ hx => hx)

theorem Work.opWrites.storeKv (a : AttnArgs) (i : Nat) : s.opWrites c (t.storeKv c a i) := by
  unfold Work.storeKv
  split
  · exact h
  · dsimp only
    split
    · exact h
    · split
      · exact h
      · exact (((h.countInputs _ _).countEnc _ _).countEnc _ _).putKv _
end

/-! ## The ops -/

section
variable (s : Work) (c : OpCtx)

theorem Work.norm_finishes {a : NormArgs} (hset : a.set = 0xFF) : s.finishes c (s.norm c a) := by
  unfold Work.norm
  dsimp only
  rw [if_pos hset]
  exact (Work.opWrites.refl s).eachVec _ _ _

theorem Work.act_finishes (a : ActArgs) : s.finishes c (s.act c a) := (Work.opWrites.refl s).eachVec _ _ _

theorem Work.rope_finishes (a : RopeArgs) : s.finishes c (s.rope c a) := (Work.opWrites.refl s).eachVec _ _ _

theorem Work.attn_finishes (a : AttnArgs) : s.finishes c (s.attn c a) :=
  ((Work.opWrites.refl s).foldl (fun u i => (Work.opWrites.refl u).storeKv a i) _).eachVec _ _ _

theorem Work.route_finishes (a : RouteArgs) : s.finishes c (s.route c a) :=
  ((Work.opWrites.refl s).foldl (fun u _ => ((((((Work.opWrites.refl u).note _ _).ite (.refl u)).countInputs _ _).countEnc _ _).countEnc _ _).setVec
    _ _) _).endOp

theorem Work.embed_finishes (a : EmbedArgs) : s.finishes c (s.embed c a) :=
  ((Work.opWrites.refl s).foldl (fun u _ => (Work.opWrites.refl u).countWiden _ _ _) _).eachVec _ _ _

theorem Work.patch_finishes (a : PatchArgs) : s.finishes c (s.patch c a) := (Work.opWrites.refl s).eachVec _ _ _

theorem Work.head_finishes (a : HeadArgs) : s.finishes c (s.head c a) := by
  refine ((Work.opWrites.refl s).foldl (fun u i => ?_) _).endOp
  dsimp only
  split
  · exact .refl u
  · have hcounted := fun (p : Prop) [Decidable p] k (vs : List Vec) x =>
      (((Work.opWrites.refl (c := c) u).notePoisonWhen (p := p) k).countInputs k vs).countEnc k x
    split
    · exact (hcounted _ _ _ _).setVec _ _
    · exact ((hcounted _ _ _ _).countEnc _ _).setVec _ _

theorem Work.convert_finishes (a : ConvertArgs) : s.finishes c (s.convert c a) :=
  ((Work.opWrites.refl s).foldl (fun u _ => (((Work.opWrites.refl u).countInputs _ _).writeResult _ _ _ _).countWiden _ _ _) _).endOp

theorem Work.copy_finishes (a : CopyArgs) : s.finishes c (s.copy c a) :=
  ((Work.opWrites.refl s).foldl (fun u _ => (((Work.opWrites.refl u).setVec _ _).countEnc _ _).notePoisonWhen _) _).endOp
end

/-- A row that issues an op: it starts under R197, and then goes its way. -/
def issues (i : Instr) (c : OpCtx) (f : Work → Work) : Prop := ∀ s : State, exec i s = s.next (fun w => w.startOp c f)

theorem localOp_spec {c : OpCtx} {i : Instr} (h : localOp c i) : ∃ f, issues i c f ∧ ∀ s : Work, s.finishes c (f s) := by
  obtain (⟨a, rfl⟩ | ⟨a, rfl⟩ | ⟨a, rfl⟩ | ⟨a, rfl⟩) | (⟨a, rfl⟩ | ⟨a, rfl⟩ | ⟨a, rfl⟩) | ⟨a, rfl⟩ | ⟨a, rfl⟩ | ⟨a, hset, rfl⟩ := h
  · exact ⟨_, fun _ => rfl, fun s => s.act_finishes c a⟩
  · exact ⟨_, fun _ => rfl, fun s => s.rope_finishes c a⟩
  · exact ⟨_, fun _ => rfl, fun s => s.convert_finishes c a⟩
  · exact ⟨_, fun _ => rfl, fun s => s.copy_finishes c a⟩
  · exact ⟨_, fun _ => rfl, fun s => s.embed_finishes c a⟩
  · exact ⟨_, fun _ => rfl, fun s => s.patch_finishes c a⟩
  · exact ⟨_, fun _ => rfl, fun s => s.head_finishes c a⟩
  · exact ⟨_, fun _ => rfl, fun s => s.attn_finishes c a⟩
  · exact ⟨_, fun _ => rfl, fun s => s.route_finishes c a⟩
  · exact ⟨_, fun _ => rfl, fun s => s.norm_finishes c hset⟩

/-! ## An op that may start -/

section
variable {s : State} {w : Work} {parts : List StatePart} {keys : Key → Prop} (h : s.keeps w parts keys) (hstep : StatePart.step ∈ parts)
include h hstep

theorem State.keeps.withBufs (bufs : List (BufKey × List Vec)) : s.keeps (w.withBufs bufs) parts keys := h.modStep hstep _

theorem State.keeps.issue (c : OpCtx) : s.keeps (w.issue c) parts keys := h.modStep hstep _

theorem State.keeps.endOp (hkey : keys Obj.opsExecuted) (c : OpCtx) : s.keeps (w.endOp c) parts keys := (h.modStep hstep _).add hkey 1
end

/-- An op that may start has been issued when it ends. -/
theorem Work.startOp_finishes {s : State} {c : OpCtx} (hmay : MayStart s c) {f : Work → Work} (hf : ∀ u : Work, u.finishes c (f u)) :
    ∃ u, s.work.opWrites c u ∧ instOf c ∈ u.step.issued ∧ s.work.startOp c f = u.endOp c := by
  obtain ⟨u, hu, hend⟩ := hf ((s.work.readSram c).issue c)
  refine ⟨u, ((Work.opWrites.refl s.work).readSram.issue).trans hu, hu.issued (Work.mem_issue _ c),
    (Work.startOp_of_mayStart hmay f).trans hend⟩

section
variable {s : State} {c : OpCtx} {u : Work} (h : s.work.opWrites c u)
include h

theorem Work.opWrites.sent : u.sent = [] := by
  obtain ⟨_, _, _, _, _, rfl, -⟩ := h.parts
  rfl

/-- An op in progress changes the step, and memory where its destination lies in SCRATCH. -/
theorem Work.opWrites.keeps {parts : List StatePart} (hstep : StatePart.step ∈ parts)
    (hmem : (StatePart.mem ∈ parts ∧ StatePart.dram ∈ parts) ∨ s.work.outsideScratch c.slot c.dst) : s.keeps u parts (fun _ => True) := by
  refine ⟨fun p hp => ?_, fun _ hk => absurd trivial hk⟩
  obtain ⟨_, _, _, _, _, hu, -⟩ := h.parts
  have hmemory : p = .mem ∨ p = .dram → u.dram = s.work.dram ∧ u.writes = s.work.writes := fun hcase =>
    h.memory (hmem.resolve_left fun hin => hcase.elim (fun e => hp (e ▸ hin.1)) fun e => hp (e ▸ hin.2))
  cases p with
  | step => exact absurd hstep hp
  | mem => exact congrArg s.mem.applyAll (hmemory (.inl rfl)).2
  | dram => exact (hmemory (.inr rfl)).1
  | _ => rw [hu]; rfl

theorem Work.opWrites.counted : s.work.counted (u.endOp c) Obj.opsExecuted 1 := by
  have hcount := u.endOp_counts c
  rwa [Work.counted, h.opsExecuted] at hcount
end

/-- Settles O30: until it ends, an op that runs on the die alone writes only its destination, and counts. -/
theorem localOpsWriteTheirDestinationAndEnd : Obligations.LocalOpsWriteTheirDestinationAndEnd := by
  unfold Obligations.LocalOpsWriteTheirDestinationAndEnd
  intro s c i hmay hlocal
  obtain ⟨f, hexec, hf⟩ := localOp_spec hlocal
  obtain ⟨u, hu, hissued, hwork⟩ := Work.startOp_finishes hmay hf
  have hframe {parts : List StatePart} (hstep : StatePart.step ∈ parts) (hk : s.keeps u parts (fun _ => True)) :
      s.frame (s.run (fun _ => u.endOp c)) parts (fun _ => True) := (hk.endOp hstep trivial c).frame_silent hu.sent
  refine ⟨_, hexec s, ?_⟩
  rw [State.run_congr (g := fun _ => u.endOp c) hwork, State.run_step]
  refine ⟨hissued, u.mem_endOp_done c, State.run_counted (by simp [linkCounter]) hu.counted, hu.bufs, fun hsram => ?_, ?_⟩
  · exact hframe (by simp) (hu.keeps (by simp) (.inr hsram))
  · exact hframe (by simp) (hu.keeps (by simp) (.inl (by simp)))

/-! ## An op that may not start yet (R197, R222) -/

/-- MB_DEPTH alone holds back an op: it is noted, and counted (R222). -/
def Work.stall (s : Work) (c : OpCtx) : Work :=
  (s.modStep (fun x => { x with stalled := x.stalled ++ [instOf c] })).add Obj.mbDepthStalls 1

/-- What an op that may not start does: the time it waits for manager data is counted, and once that MB_DEPTH alone holds it back. -/
def Work.waitOp (s : Work) (c : OpCtx) : Work :=
  if s.orderReady c && !s.dataReady c then s.meter Obj.collectiveWaitNs
  else if s.opReady c && !s.depthReady c && !s.step.stalled.contains (instOf c) then s.stall c
  else s

section
variable {s : Work} {c : OpCtx}

theorem Work.startOp_of_not_mayIssue (h : s.mayIssue c = false) (f : Work → Work) : s.startOp c f = s.waitOp c :=
  if_neg (Bool.eq_false_iff.mp h)

theorem Work.dataReady_of_opReady (h : s.opReady c = true) : s.dataReady c = true := by
  simp only [Work.opReady, Bool.and_eq_true] at h
  exact h.1.2

/-- An op waits for manager data, or is held back by MB_DEPTH for the first time, or has nothing to count. -/
theorem Work.waitOp_cases (s : Work) (c : OpCtx) :
    (s.orderReady c = true ∧ s.dataReady c = false ∧ s.waitOp c = s.meter Obj.collectiveWaitNs) ∨
    (s.opReady c = true ∧ s.depthReady c = false ∧ instOf c ∉ s.step.stalled ∧ s.waitOp c = s.stall c) ∨
    ((s.opReady c = true → s.depthReady c = false → instOf c ∈ s.step.stalled) ∧ s.waitOp c = s) := by
  unfold Work.waitOp
  split
  · next hdata =>
    simp only [Bool.and_eq_true, Bool.not_eq_true'] at hdata
    exact .inl ⟨hdata.1, hdata.2, rfl⟩
  · split
    · next hdepth =>
      simp only [Bool.and_eq_true, Bool.not_eq_true', List.contains_eq_mem, decide_eq_false_iff_not] at hdepth
      exact .inr (.inl ⟨hdepth.1.1, hdepth.1.2, hdepth.2, rfl⟩)
    · next hdepth =>
      exact .inr (.inr ⟨by simpa using hdepth, rfl⟩)
end

theorem issues_mask {s : State} (hplan : s.dev.serve.plan ≠ none) (c : OpCtx) (set ns : Nat) (poisoned : List Nat) :
    exec (.mask c set ns poisoned) s = s.next (fun w => w.startOp c (fun w => w.mask c set ns poisoned)) := by
  exact congrArg _ (State.run_congr (if_neg (by simp [hplan])))

/-- A row whose op may not start yet. -/
theorem exec_waitOp {s : State} {c : OpCtx} {i : Instr}
    (hi : localOp c i ∨ (∃ a, i = .reduce c a) ∨ (∃ a, i = .gather c a) ∨ (∃ a, i = .norm c a) ∨
      ∃ a n l, s.dev.serve.plan ≠ none ∧ i = .mask c a n l)
    (hmay : s.work.mayIssue c = false) : exec i s = .next (s.run (fun w => w.waitOp c)) := by
  have hwaits (f : Work → Work) : s.next (fun w => w.startOp c f) = .next (s.run (fun w => w.waitOp c)) :=
    congrArg Host.Outcome.next (State.run_congr (Work.startOp_of_not_mayIssue hmay f))
  obtain hlocal | ⟨a, rfl⟩ | ⟨a, rfl⟩ | ⟨a, rfl⟩ | ⟨a, n, l, hplan, rfl⟩ := hi
  · obtain ⟨f, hexec, -⟩ := localOp_spec hlocal
    exact (hexec s).trans (hwaits f)
  · exact hwaits _
  · exact hwaits _
  · exact hwaits _
  · exact (issues_mask hplan c a n l).trans (hwaits _)

/-- Settles O31: what waits for manager data meters its wait, what MB_DEPTH holds back is noted and counted once, and nothing else changes. -/
theorem opsWaitUntilTheyMayStart : Obligations.OpsWaitUntilTheyMayStart := by
  unfold Obligations.OpsWaitUntilTheyMayStart
  intro s c i hi hmay
  refine ⟨_, exec_waitOp hi hmay, ?_⟩
  have hkeeps (parts : List StatePart) (keys : Key → Prop) := s.keeps_work parts keys
  obtain ⟨horder, hdata, hwait⟩ | ⟨hop, hdepth, hstalled, hwait⟩ | ⟨hnone, hwait⟩ := s.work.waitOp_cases c
  · rw [State.run_congr (g := fun w => w.meter Obj.collectiveWaitNs) hwait, State.run_step]
    have hblocked : s.work.opReady c = false := Bool.eq_false_iff.mpr fun h => absurd (Work.dataReady_of_opReady h) (by simp [hdata])
    refine ⟨rfl, rfl, rfl, ?_, fun h => ?_, fun h => absurd h (by simp [hblocked]), fun _ => s.run_meter_frame _⟩
    · exact (((hkeeps _ _).free _).add (.inl rfl) _).frame_silent rfl
    · simp [horder, hdata] at h
  · rw [State.run_congr (g := fun w => w.stall c) hwait, State.run_step]
    refine ⟨rfl, rfl, rfl, ?_, fun _ => ?_, fun _ _ _ => State.run_counted (by simp [linkCounter]) (Work.add_counts _ _ _),
      fun h => ?_⟩
    · exact (((hkeeps _ _).modStep (by simp) _).add (.inr rfl) _).frame_silent rfl
    · rw [State.run_val _ _ _ (by simp [linkCounter]), Work.stall, Work.add_get, if_neg (by decide)]
      rfl
    · exact absurd (by simpa [hop, hdepth] using h) hstalled
  · rw [State.run_congr (g := fun w => w) hwait, State.run_step]
    refine ⟨rfl, rfl, rfl, ((hkeeps _ _).frame_silent rfl), fun _ => ?_, fun hop hdepth hstalled => absurd (hnone hop hdepth) hstalled,
      fun _ => (hkeeps _ _).frame_silent rfl⟩
    exact s.run_val _ _ (by simp [linkCounter])

end Sys2Proof.Machine
end

section
/-! SUPPORT. Barriers: within a die, and the messages that release them across dies (R214, R400). -/

namespace Sys2Proof.Machine

/-! ## BARRIER within a die -/

section
variable {s : State} {c : OpCtx} {a : BarrierArgs}

theorem Work.barrier_of_not_ready {w : Work} (h : w.barrierReady c a.scope = false) : w.barrier c a = w := by
  simp [Work.barrier, h]

/-- A barrier within a die whose ops before it have ended ends as it starts. -/
theorem Work.barrier_of_ready (hscope : a.scope ≤ 1) (hready : s.work.barrierReady c a.scope = true) (hmay : MayStart s c) :
    s.work.barrier c a = ((s.work.readSram c).issue c).endOp c := by
  unfold Work.barrier
  rw [if_neg (by simp [hready]), Work.startOp_of_mayStart hmay]
  exact if_pos (.inl hscope)

theorem State.next_barrier (hscope : a.scope ≤ 1) (hready : s.work.barrierReady c a.scope = true) (hmay : MayStart s c) :
    ∃ t, exec (.barrier c a) s = .next t ∧ instOf c ∈ t.dev.step.done ∧ s.counted t Obj.opsExecuted 1 ∧
      s.frame t [.step] (fun k => k = Obj.opsExecuted) := by
  obtain ⟨bufs, hread⟩ := s.work.readSram_eq c
  have hwork : s.work.barrier c a = ((s.work.withBufs bufs).issue c).endOp c := hread ▸ Work.barrier_of_ready hscope hready hmay
  refine ⟨s.run (fun w => w.barrier c a), rfl, ?_⟩
  rw [State.run_congr (g := fun w => ((w.withBufs bufs).issue c).endOp c) hwork, State.run_step]
  refine ⟨Work.mem_endOp_done _ c, State.run_counted (by simp [linkCounter]) (Work.endOp_counts _ c), State.keeps.frame_silent ?_ rfl⟩
  have hstep : StatePart.step ∈ [StatePart.step] := List.mem_singleton.mpr rfl
  exact (((s.keeps_work _ (fun k => k = Obj.opsExecuted)).withBufs hstep bufs).issue hstep c).endOp hstep rfl c
end

/-! ## Barriers across dies -/

section
variable (s : Work) (scope id : Nat)

theorem Work.barrierRun_names : (s.barrierRun scope id).barrierId = id ∧ (s.barrierRun scope id).scope = scope := by
  unfold Work.barrierRun
  cases hfind : s.step.barriers.find? (fun b => b.barrierId = id && b.scope = scope) with
  | none => exact ⟨rfl, rfl⟩
  | some b => simpa using List.find?_some hfind

/-- A barrier that has been set is the one found by its scope and ID. -/
theorem Work.barrierRun_setBarrier {x : BarrierRun} (hnames : x.barrierId = id ∧ x.scope = scope) :
    (s.setBarrier x).barrierRun scope id = x := by
  obtain ⟨rfl, rfl⟩ := hnames
  have hnone : (s.step.barriers.filter (fun b => !(b.barrierId = x.barrierId && b.scope = x.scope))).find?
      (fun b => b.barrierId = x.barrierId && b.scope = x.scope) = none := by
    refine List.find?_eq_none.mpr fun b hb => ?_
    simpa [imp_iff_not_or] using (List.mem_filter.mp hb).2
  simp only [Work.barrierRun, Work.setBarrier, Work.modStep, List.find?_append, hnone]
  simp

theorem Work.barrierRun_congr {s t : Work} (h : t.step.barriers = s.step.barriers) : t.barrierRun scope id = s.barrierRun scope id := by
  rw [Work.barrierRun, Work.barrierRun, h]
end

theorem State.run_barrierRun (s : State) (f : Work → Work) (scope id : Nat) :
    (s.run f).work.barrierRun scope id = (f s.work).barrierRun scope id :=
  Work.barrierRun_congr scope id (congrArg StepState.barriers (s.run_step f))

section
variable {s : Work} {x : BarrierRun} {c : OpCtx} {rest : List OpCtx}

/-- A release ends the oldest op that waits; the others wait on. -/
theorem Work.barrierRelease_of_waiting (hwaiting : x.waiting = c :: rest) (used : List Nat) :
    instOf c ∈ (s.barrierRelease x used).step.done ∧ ((s.barrierRelease x used).barrierRun x.scope x.barrierId).waiting = rest := by
  simp only [Work.barrierRelease, hwaiting]
  refine ⟨Work.mem_endOp_done _ c, ?_⟩
  exact congrArg BarrierRun.waiting ((Work.barrierRun_congr _ _ rfl).trans (Work.barrierRun_setBarrier s x.scope x.barrierId
    (x := { x with arrived := used.foldl (fun l d => l.erase d) x.arrived, sent := false, waiting := rest }) ⟨rfl, rfl⟩))

/-- A worker's barrier on which nothing waits goes no further: in the group its own arrival is missing, in a set nothing has been sent. -/
theorem Work.settleBarrier_of_idle (hworker : s.isWorker = true) (hidle : x.waiting = []) : s.settleBarrier x = s.setBarrier x := by
  unfold Work.settleBarrier
  by_cases hgroup : x.scope = 3
  · simp [hgroup, hworker, hidle]
  · simp [hgroup, hidle]
end

section
variable {s : State} {scope id src : Nat} (hformed : s.val Obj.groupState = 2)
include hformed

theorem State.work_formed : s.work.formed = true := decide_eq_true hformed

theorem State.next_barrierRelease {c : OpCtx} {rest : List OpCtx} (hwaiting : (s.work.barrierRun scope id).waiting = c :: rest) :
    ∃ t, exec (.barrierMessage scope id src true) s = .next t ∧ instOf c ∈ t.dev.step.done ∧ (t.work.barrierRun scope id).waiting = rest := by
  let told := s.work.workingKids.foldl (fun (w : Work) (d : Nat) => w.toMember d (.barrier scope id true)) s.work
  have hwork : s.work.barrierMessage scope id src true = told.barrierRelease (s.work.barrierRun scope id) s.work.workingKids :=
    if_neg (by simp [State.work_formed hformed])
  refine ⟨_, rfl, ?_⟩
  rw [State.run_step, State.run_barrierRun, hwork]
  have hrelease := Work.barrierRelease_of_waiting (s := told) hwaiting s.work.workingKids
  obtain ⟨hid, hscope⟩ := s.work.barrierRun_names scope id
  rwa [hid, hscope] at hrelease

theorem State.next_barrierArrival (hidle : (s.work.barrierRun scope id).waiting = []) (hworker : s.val Obj.role = 3) :
    ∃ t, exec (.barrierMessage scope id src false) s = .next t ∧
      (t.work.barrierRun scope id).arrived = (s.work.barrierRun scope id).arrived ++ [src] ∧ s.frame t [.step] (fun _ => False) := by
  let x : BarrierRun := { s.work.barrierRun scope id with arrived := (s.work.barrierRun scope id).arrived ++ [src] }
  have hwork : s.work.barrierMessage scope id src false = s.work.setBarrier x :=
    (if_neg (by simp [State.work_formed hformed])).trans (Work.settleBarrier_of_idle (decide_eq_true hworker) hidle)
  refine ⟨s.run (fun w => w.barrierMessage scope id src false), rfl, ?_⟩
  rw [State.run_congr (g := fun w => w.setBarrier x) hwork, State.run_barrierRun,
    Work.barrierRun_setBarrier s.work scope id (x := x) (Work.barrierRun_names _ _ _)]
  exact ⟨rfl, ((s.keeps_work _ _).modStep (by simp) _).frame_silent rfl⟩
end

/-- Settles O34: a barrier that is ready ends as it starts; a release takes the oldest op that waits off its barrier and ends it. -/
theorem barriersReleaseWhatWaits : Obligations.BarriersReleaseWhatWaits := by
  unfold Obligations.BarriersReleaseWhatWaits
  refine ⟨fun s c a hscope => ⟨State.next_barrier hscope, fun hready => ?_⟩, fun s scope id src hformed => ⟨?_, ?_⟩⟩
  · exact ⟨_, rfl, s.run_id _ (Work.barrier_of_not_ready hready)⟩
  · exact fun c rest => State.next_barrierRelease hformed
  · exact State.next_barrierArrival hformed

end Sys2Proof.Machine
end

section
/-! SUPPORT. The end of a die's step: what the work of a step boundary leaves of the step and of memory (R198, R235, R270, R369, R493). -/

namespace Sys2Proof.Machine

/-! ## The work of a step boundary -/

/-- The second work has the first's step and changes of memory. -/
def Work.keepsStep (s t : Work) : Prop := t.step = s.step ∧ t.writes = s.writes

namespace Work.keepsStep

theorem refl (s : Work) : s.keepsStep s := ⟨rfl, rfl⟩

section
variable {s t : Work} (h : s.keepsStep t)
include h

theorem foldl {α : Type} {f : Work → α → Work} (hf : ∀ (u : Work) a, s.keepsStep u → s.keepsStep (f u a)) (l : List α) :
    s.keepsStep (l.foldl f t) := List.foldlRecOn l f h fun u hu a _ => hf u a hu

theorem ite {p : Prop} [Decidable p] {u : Work} (hu : s.keepsStep u) : s.keepsStep (if p then t else u) := by
  split
  · exact h
  · exact hu

theorem setCorrection (a : Nat) (gamma beta : Int) : s.keepsStep (t.setCorrection a gamma beta) := by
  unfold Work.setCorrection
  dsimp only
  split
  · exact h
  · exact h

theorem targetsOf (d : Drift) : s.keepsStep (t.targetsOf d).2 := by
  unfold Work.targetsOf
  split
  · exact h
  · exact h

theorem driftUpdate (a : Nat) : s.keepsStep (t.driftUpdate a) := h.ite ((h.targetsOf _).setCorrection a _ _)

theorem flip (x : Shadow) : s.keepsStep (t.flip x) := by
  unfold Work.flip
  dsimp only
  split_ifs <;> exact h

theorem takeTestSpare (c : Nat) : s.keepsStep (t.takeTestSpare c) := h.ite h

theorem testStart (c : Nat) : s.keepsStep (t.testStart c) := by
  have htaken := h.takeTestSpare c
  unfold Work.testStart
  dsimp only
  split
  · exact htaken
  · exact htaken

theorem testAtBoundary : s.keepsStep t.testAtBoundary := by
  unfold Work.testAtBoundary
  dsimp only
  split
  · exact h
  · exact h.testStart _

theorem stepBoundary : s.keepsStep t.stepBoundary :=
  have hdrift : s.keepsStep t.driftAll := h.foldl (fun _ a hu => hu.driftUpdate a) _
  have hflips : s.keepsStep (t.driftAll.rewriteWords (fun _ => true)).flipAll := foldl (t := t.driftAll.rewriteWords _) hdrift
    (fun _ x hu => hu.flip x) _
  hflips.testAtBoundary
end
end Work.keepsStep

/-! ## The end -/

theorem Work.countEnc_writes (s : Work) (k : VecKey) (x : EncCounts) : (s.countEnc k x).writes = s.writes :=
  ((recordsOnly.refl s).countEnc k x).writes

/-- The update of a working set changes no memory. -/
theorem Work.tuneUpdate_writes (s : Work) (h : StepHead) : (s.tuneUpdate h).writes = s.writes := by
  unfold Work.tuneUpdate
  split_ifs
  · rfl
  · split
    · split
      · rfl
      · split
        · rfl
        · dsimp only
          split_ifs
          · exact Work.countEnc_writes _ _ _
          · rfl
    · rfl

/-- The step of a die once it has ended: buffers and what was in progress are gone (R198). -/
def StepState.close (x : StepState) (results : List StepResult) : StepState :=
  { x with ended := true, bufs := [], notes := [], ops := [], colls := [], barriers := [], deltas := [], results := results }

/-- The step closes; a worker keeps its result of it until it goes up. -/
def Work.closeStep (s : Work) (own : StepResult) : Work :=
  s.modStep (fun x => x.close (if s.isWorker then x.results ++ [own] else x.results))

/-- A worker of a group sends its result up. -/
def Work.sendAsWorker (s : Work) : Work := if s.isWorker && s.formed then s.sendResult else s

/-- A worker sends its result up at most; what else is in its step stands. -/
theorem Work.sendAsWorker_step (s : Work) :
    (∃ results, s.sendAsWorker.step = { s.step with results := results }) ∧ s.sendAsWorker.writes = s.writes := by
  unfold Work.sendAsWorker Work.sendResult
  split
  · dsimp only
    split
    · exact ⟨⟨_, rfl⟩, rfl⟩
    · split
      · exact ⟨⟨_, rfl⟩, rfl⟩
      · exact ⟨⟨_, rfl⟩, rfl⟩
  · exact ⟨⟨_, rfl⟩, rfl⟩

section
variable {s : Work} {us : Nat} {h : StepHead} {b : StepBody} (hrunning : s.step.running = some (h, b))
include hrunning

theorem Work.dieStepEnd_of_incomplete (hcomplete : s.stepComplete = false) : s.dieStepEnd us = s := by
  simp [Work.dieStepEnd, hrunning, hcomplete]

/-- A complete step closes, a worker's result goes up once its children's are in, and then comes the work of the boundary. -/
theorem Work.dieStepEnd_of_complete (hended : s.step.ended = false) (hcomplete : s.stepComplete = true) :
    s.dieStepEnd us = ((s.tuneUpdate h).closeStep ((s.tuneUpdate h).ownResult h us)).sendAsWorker.stepBoundary := by
  simp only [Work.dieStepEnd, hrunning, hended, hcomplete, Bool.not_true, Bool.or_self, Bool.false_eq_true, if_false]
  rfl
end

/-- Settles O36: a complete step is closed, and the work of the boundary changes neither the step nor memory. -/
theorem dieStepEndsWhenEveryInstanceIsDone : Obligations.DieStepEndsWhenEveryInstanceIsDone := by
  unfold Obligations.DieStepEndsWhenEveryInstanceIsDone
  intro s us h b hrunning hended
  refine ⟨_, rfl, ?_⟩
  split
  · next hcomplete =>
    let closed := (s.work.tuneUpdate h).closeStep ((s.work.tuneUpdate h).ownResult h us)
    have hwork : s.work.dieStepEnd us = closed.sendAsWorker.stepBoundary := Work.dieStepEnd_of_complete hrunning hended hcomplete
    obtain ⟨⟨results, hresults⟩, hsent⟩ := closed.sendAsWorker_step
    obtain ⟨hstep, hwrites⟩ := (Work.keepsStep.refl closed.sendAsWorker).stepBoundary
    rw [State.run_step, hwork, hstep, hresults]
    refine ⟨rfl, rfl, rfl, rfl, State.run_mem_same _ _ ?_⟩
    calc (s.work.dieStepEnd us).writes
      _ = closed.writes := by rw [hwork, hwrites, hsent]
      _ = s.work.writes := s.work.tuneUpdate_writes h
  · next hcomplete =>
    exact s.run_id _ (Work.dieStepEnd_of_incomplete hrunning (Bool.eq_false_iff.mpr hcomplete))

end Sys2Proof.Machine
end

section
/-! SUPPORT. Ops on engines: what leads up to their jobs, the jobs, and that the op then runs or is done (R199 to R201, R210, R211, R234,
R363, R368). -/

namespace Sys2Proof.Machine

/-! ## Up to the jobs -/

/-- The second work has the first's buffers and changes of memory, what has been issued, and the ops that run on engines. -/
structure Work.prepares (s t : Work) : Prop where
  buffer : ∀ slot b, t.buffer slot b = s.buffer slot b
  writes : t.writes = s.writes
  issued : t.step.issued = s.step.issued
  ops : t.step.ops = s.step.ops

namespace Work.prepares

theorem refl (s : Work) : s.prepares s := ⟨fun _ _ => rfl, rfl, rfl, rfl⟩

section
variable {s t : Work} (h : s.prepares t)
include h

theorem trans {u : Work} (g : t.prepares u) : s.prepares u :=
  ⟨fun slot b => (g.buffer slot b).trans (h.buffer slot b), g.writes.trans h.writes, g.issued.trans h.issued, g.ops.trans h.ops⟩

theorem ite {p : Prop} [Decidable p] {u : Work} (hu : s.prepares u) : s.prepares (if p then t else u) := by
  split
  · exact h
  · exact hu

theorem foldl {α : Type} {f : Work → α → Work} (hf : ∀ (u : Work) a, u.prepares (f u a)) (l : List α) : s.prepares (l.foldl f t) :=
  List.foldlRecOn l f h fun u hu a _ => hu.trans (hf u a)

/-- A fold that collects values beside the work. -/
theorem foldl_snd {α β : Type} {f : β × Work → α → β × Work} (hf : ∀ (r : β × Work) a, r.2.prepares (f r a).2) (l : List α) (b : β) :
    s.prepares (l.foldl f (b, t)).2 :=
  List.foldlRecOn l f (motive := fun r : β × Work => s.prepares r.2) h fun r hr a _ => hr.trans (hf r a)

theorem records {u : Work} (g : recordsOnly t u) (hstep : t.step.valuesOnly u.step) : s.prepares u := by
  obtain ⟨_, _, hu⟩ := hstep
  exact h.trans ⟨fun slot b => g.buffer slot b, g.writes, by rw [hu], by rw [hu]⟩

theorem add (k : Key) (n : Nat) : s.prepares (t.add k n) := h.trans ⟨fun _ _ => rfl, rfl, rfl, rfl⟩

theorem note (k : VecKey) (f : VecNote → VecNote) : s.prepares (t.note k f) := h.records ((recordsOnly.refl t).note k f) ⟨_, _, rfl⟩

theorem countEnc (k : VecKey) (x : EncCounts) : s.prepares (t.countEnc k x) := h.records ((recordsOnly.refl t).countEnc k x) (t.countEnc_step k x)

theorem countInputs (k : VecKey) (vs : List Vec) : s.prepares (t.countInputs k vs) := h.foldl (fun u v => (refl u).countEnc k (inputCounts v)) vs

theorem modArr (a : Nat) (f : Arr → Arr) : s.prepares (t.modArr a f) := h.trans ⟨fun _ _ => rfl, rfl, rfl, rfl⟩

theorem putHeldSet (x : HeldSet) : s.prepares (t.putHeldSet x) := h.trans ⟨fun _ _ => rfl, rfl, rfl, rfl⟩

theorem modEngine (e : Nat) (f : Engine → Engine) : s.prepares (t.modEngine e f) := h.trans ⟨fun _ _ => rfl, rfl, rfl, rfl⟩

/-! Inputs, gradients and row-side slices -/

theorem sourceBlocks (c : OpCtx) (f : Vec → List Blk × EncCounts) : s.prepares (t.sourceBlocks c f).2 :=
  h.foldl_snd (fun r _ => (refl r.2).countEnc _ _) _ _

theorem roundVec (k : VecKey) (v : Vec) (f : Nat → Rat → Rat × EncCounts) : s.prepares (t.roundVec k v f).2 := (h.countInputs k [v]).countEnc k _

theorem deltaGradient (c : OpCtx) (a : CimArgs) : s.prepares (t.deltaGradient c a) := by
  unfold Work.deltaGradient
  split
  · exact h
  · refine countEnc (putHeldSet (foldl_snd (foldl_snd h ?_ _ _) ?_ _ _) _) _ _
    all_goals
      intro r _
      dsimp only
      exact (refl r.2).roundVec _ _ _

theorem fresh : s.prepares t.fresh.2 := h.trans ⟨fun _ _ => rfl, rfl, rfl, rfl⟩

theorem measured : s.prepares t.measured.2 := by
  unfold Work.measured
  exact h.fresh.fresh

theorem rowCalibrate (a : Nat) : s.prepares (t.rowCalibrate a) := by
  unfold Work.rowCalibrate
  generalize List.range 16 = rows
  refine modArr (foldl_snd h ?_ rows []) a _
  exact fun r _ => (refl r.2).measured

theorem rowsFresh (slot slice : Nat) : s.prepares (t.rowsFresh slot slice) :=
  h.foldl (fun _ _ => (refl _).foldl (fun u _ => ((refl u).rowCalibrate _).ite (refl u)) _) _

theorem issueJob (wideLayer : Bool) (e : Nat) (p : MvmJob × Aligned) : s.prepares (t.issueJob wideLayer e p) := by
  unfold Work.issueJob
  have hzeroed := h.ite (p := p.2.zeroed = 0) (h.add Obj.alignZeroedBlocks p.2.zeroed)
  have hwide := (hzeroed.add Obj.alignWideMvms 1).ite (p := p.1.fallback = true) hzeroed
  exact (hwide.ite (hwide.note _ _)).modEngine e _
end
end Work.prepares

/-! ## The ops that run on engines -/

/-- An op stands among those that run on engines, or it is done. -/
def Work.onEngines (s : Work) (c : OpCtx) : Prop := (∃ o ∈ s.step.ops, o.ctx = c) ∨ instOf c ∈ s.step.done

theorem Work.valuesOnly.finishVec {s t : Work} (h : s.valuesOnly t) (o : OpRun) (v : VecAsm) : s.valuesOnly (t.finishVec o v) := by
  unfold Work.finishVec
  dsimp only
  exact ((h.note _ _).countEnc _ _).writeResult _ _ _ _ _

theorem Work.valuesOnly.onEngines {s t : Work} (h : s.valuesOnly t) {c : OpCtx} (hs : s.onEngines c) : t.onEngines c := by
  obtain ⟨-, _, _, hstep⟩ := h
  unfold Work.onEngines
  rwa [hstep]

theorem Work.collects.modOps {s t : Work} (h : s.collects t) (f : List OpRun → List OpRun) :
    s.collects (t.modStep (fun x => { x with ops := f x.ops })) :=
  h.trans ⟨(Work.resultsOnly.refl t).records ((recordsOnly.refl t).modStep rfl), rfl, rfl, rfl⟩

/-- The second work has gone on from the first with ops on engines: none has gone but to be done. -/
structure Work.settles (c : OpCtx) (s t : Work) : Prop where
  collects : s.collects t
  onEngines : s.onEngines c → t.onEngines c

section
variable {s : Work} {c : OpCtx}

theorem Work.settles.trans {t u : Work} (h : s.settles c t) (g : t.settles c u) : s.settles c u :=
  ⟨h.collects.trans g.collects, fun hs => g.onEngines (h.onEngines hs)⟩

/-- An op all of whose vectors are written ends. -/
theorem Work.settles_endOp (s : Work) (c : OpCtx) (o : OpRun) :
    s.settles c ((s.modStep (fun x => { x with ops := x.ops.filter (fun y => decide (y.ctx ≠ o.ctx)) })).endOp o.ctx) := by
  refine ⟨((Work.collects.refl s).modOps _).endOp _, ?_⟩
  rintro (⟨y, hy, rfl⟩ | hdone)
  · by_cases hctx : y.ctx = o.ctx
    · exact .inr (hctx ▸ Work.mem_endOp_done _ _)
    · exact .inl ⟨y, List.mem_filter.mpr ⟨hy, by simpa using hctx⟩, rfl⟩
  · exact .inr (List.mem_append_left _ hdone)

/-- One with a vector that is not stays. -/
theorem Work.settles_keepOp (s : Work) (c : OpCtx) {o o' : OpRun} (hctx : o'.ctx = o.ctx) :
    s.settles c (s.modStep (fun x => { x with ops := x.ops.map (fun y => if y.ctx = o.ctx then o' else y) })) := by
  refine ⟨(Work.collects.refl s).modOps _, ?_⟩
  rintro (⟨y, hy, rfl⟩ | hdone)
  · refine .inl ⟨_, List.mem_map_of_mem hy, ?_⟩
    split
    · exact hctx.trans (‹y.ctx = o.ctx›).symm
    · rfl
  · exact .inr hdone

theorem Work.settleOps_settles (s : Work) (c : OpCtx) : s.settles c s.settleOps := by
  refine List.foldlRecOn s.step.ops _ ⟨.refl s, id⟩ fun u hu o _ => hu.trans ?_
  have hwritten : u.valuesOnly ((o.vecs.filter VecAsm.ready).foldl (fun (s : Work) (v : VecAsm) => s.finishVec o v) u) :=
    (Work.valuesOnly.refl u).foldl (fun w v => (Work.valuesOnly.refl w).finishVec o v) _
  have hvalues : u.settles c _ := ⟨hwritten.collects, hwritten.onEngines⟩
  dsimp only
  split
  · exact hvalues.trans (Work.settles_endOp _ c o)
  · exact hvalues.trans (Work.settles_keepOp _ c rfl)
end

/-! ## From the start of an op to its run on engines -/

/-- The second work is the first once an op has been put on engines: it runs or is done, and memory changes only where a program
holds a buffer in SCRATCH. -/
structure Work.runsOp (c : OpCtx) (s t : Work) : Prop where
  issued : t.step.issued = s.step.issued
  writes : s.noScratch → t.writes = s.writes
  onEngines : t.onEngines c

section
variable {s : Work} {c : OpCtx}

theorem Work.prepares.noScratch {t : Work} (h : s.prepares t) (hs : s.noScratch) : t.noScratch :=
  fun slot b x hx => hs slot b x ((h.buffer slot b).symm.trans hx)

theorem Work.resultsOnly.noScratch {t : Work} (h : s.resultsOnly t) (hs : s.noScratch) : t.noScratch :=
  fun _ _ _ hx hkind => h.not_noScratch hx hkind hs

theorem Work.prepares.runsOp {t u : Work} (h : s.prepares t) (g : t.runsOp c u) : s.runsOp c u :=
  ⟨g.issued.trans h.issued, fun hs => (g.writes (h.noScratch hs)).trans h.writes, g.onEngines⟩

/-- An op on engines stands among the running ones before its jobs are issued and its vectors settled. -/
theorem Work.startRun_runsOp (s : Work) (c : OpCtx) (a : CimArgs) (kind n : Nat) (vecs : List (Nat × List (Nat × Nat × List Blk) × List Nat)) :
    s.runsOp c (s.startRun c a kind n vecs) := by
  unfold Work.startRun
  extract_lets built begun issued
  have hjobs : begun.prepares issued := (Work.prepares.refl begun).foldl (fun u q => (Work.prepares.refl u).issueJob _ _ _) _
  have hsettles := issued.settleOps_settles c
  have hstands : issued.onEngines c := by
    refine .inl ⟨⟨c, kind, a.outFmt, a.accumulate, n, built.map (·.2)⟩, ?_, rfl⟩
    rw [hjobs.ops]
    exact List.mem_append_right _ (List.mem_singleton.mpr rfl)
  refine ⟨hsettles.collects.issued.trans hjobs.issued, fun hs => ?_, hsettles.onEngines hstands⟩
  exact (hsettles.collects.results.writes (hjobs.noScratch hs)).trans hjobs.writes

theorem Work.cimMvm_runsOp (s : Work) (c : OpCtx) (a : CimArgs) : s.runsOp c (s.cimMvm c a) :=
  ((Work.prepares.refl s).sourceBlocks c _).runsOp (Work.startRun_runsOp _ c a 0 _ _)

/-- What a CIM_MVMT puts on the facets: a gradient times the column scales, in B8 (R201). -/
def gradientBlocks (s : Work) (c : OpCtx) (a : CimArgs) (v : Vec) : List Blk × EncCounts :=
  let x := s.scaled c.slot a.slice v
  let r := encodeVector false noDraw x.1
  (r.1, x.2.plus r.2)

theorem Work.cimMvmt_runsOp (s : Work) (c : OpCtx) (a : CimArgs) : s.runsOp c (s.cimMvmt c a) :=
  have hsource := (Work.prepares.refl s).sourceBlocks c (gradientBlocks s c a)
  (((hsource.deltaGradient c a).ite hsource).rowsFresh c.slot a.slice).runsOp (Work.startRun_runsOp _ c a 1 _ _)

theorem Work.expert_runsOp (s : Work) (c : OpCtx) (x : ExpertArgs) : s.runsOp c (s.expert c x) :=
  (((Work.prepares.refl s).ite ((Work.prepares.refl s).add Obj.expertOverruns _)).sourceBlocks c _).runsOp (Work.startRun_runsOp _ c x.cim _ _ _)

/-! ## Waiting for deltas (R359) -/

section
variable {a : CimArgs} {cores : List Nat} (f : Work → Work)

theorem Work.startCim_of_present (h : a.deltas = false ∨ s.deltasPresent c cores = true) : s.startCim c a cores f = s.startOp c f :=
  if_neg (by obtain h | h := h <;> simp [h])

theorem Work.startCim_of_absent (hdeltas : a.deltas = true) (habsent : s.deltasPresent c cores = false) : s.startCim c a cores f = s :=
  if_pos (by simp [hdeltas, habsent])
end
end

/-- An op on engines that may start, once the deltas it reads are there. -/
theorem State.next_runsOp {s : State} {c : OpCtx} (hmay : MayStart s c) {f g : Work → Work} (hf : f s.work = s.work.startOp c g)
    (hg : ∀ u : Work, u.runsOp c (g u)) : ∃ t, s.next f = .next t ∧ instOf c ∈ t.dev.step.issued ∧ (noScratch s → t.mem = s.mem) ∧
      ((∃ o ∈ t.dev.step.ops, o.ctx = c) ∨ instOf c ∈ t.dev.step.done) := by
  have hruns := hg ((s.work.readSram c).issue c)
  have hread := ((Work.valuesOnly.refl s.work).readSram c).results.trans (Work.issue_resultsOnly _ c)
  refine ⟨_, rfl, ?_⟩
  rw [State.run_congr (g := fun w => g ((w.readSram c).issue c)) (hf.trans (Work.startOp_of_mayStart hmay g)), State.run_step]
  refine ⟨?_, fun hs => State.run_mem_same _ _ ((hruns.writes (hread.noScratch hs)).trans (hread.writes hs)), hruns.onEngines⟩
  rw [hruns.issued]
  exact Work.mem_issue _ c

/-! ## DELTA_FETCH_DONE (R351, R359, R360) -/

/-- Sets that came poisoned are counted and, in a group, reported to the manager. -/
def Work.reportPoison (s : Work) (handles : List Nat) : Work :=
  handles.foldl (fun (s : Work) (h : Nat) =>
    let s := s.add Obj.deltaPoison 1
    if s.formed && s.isWorker then s.toMember 0 (.report (.setPoisoned h)) else s) s

/-- The deltas of an op in a core's buffer, with what their fetch counts. -/
def Work.deltasIn (s : Work) (d : DeltaIn) (bytes : Nat) (waited : Bool) (waitNs splits : Nat) : Work :=
  let s := s.modStep (fun x => { x with deltas := x.deltas ++ [d] })
  let s := s.add Obj.deltaBytesStreamed bytes
  let s := if waited then (s.add Obj.deltaStalls 1).add Obj.deltaStallNs waitNs else s
  if splits = 0 then s else s.add Obj.deltaSplits splits

theorem Work.deltaFetched_eq (s : Work) (core slot seq m waitNs : Nat) (poison : List Nat) : ∃ waited splits,
    s.deltaFetched core slot seq m waitNs poison = (s.deltasIn ⟨⟨slot, seq, m⟩, core, poison⟩
      (sumNat (s.deltaFetch (s.fetchCtx slot seq m) core)) waited waitNs splits).reportPoison poison :=
  ⟨_, _, rfl⟩

section
variable (s : Work) (handles : List Nat)

theorem Work.reportPoison_step : (s.reportPoison handles).step = s.step :=
  List.foldlRecOn handles _ (motive := fun u : Work => u.step = s.step) rfl fun u hu _ _ => by
    dsimp only
    split
    · exact hu
    · exact hu

theorem Work.reportPoison_get {k : Key} (hk : Obj.deltaPoison ≠ k) : (s.reportPoison handles).get k = s.get k :=
  List.foldlRecOn handles _ (motive := fun u : Work => u.get k = s.get k) rfl fun u hu _ _ => by
    have hcounted : (u.add Obj.deltaPoison 1).get k = s.get k := by rw [Work.add_get, if_neg hk, hu]
    dsimp only
    split
    · exact hcounted
    · exact hcounted

theorem Work.reportPoison_counts : s.counted (s.reportPoison handles) Obj.deltaPoison handles.length := by
  induction handles generalizing s with
  | nil => exact fun _ => rfl
  | cons h l ih =>
    intro hlt
    rw [List.length_cons] at hlt ⊢
    have hcounted : (s.add Obj.deltaPoison 1).get Obj.deltaPoison = s.get Obj.deltaPoison + 1 := s.add_counts _ _ (by omega)
    have hrest (u : Work) (hu : u.get Obj.deltaPoison = s.get Obj.deltaPoison + 1) :
        (u.reportPoison l).get Obj.deltaPoison = s.get Obj.deltaPoison + (l.length + 1) := by
      rw [ih u (by rw [hu]; omega), hu]
      omega
    rw [Work.reportPoison, List.foldl_cons]
    refine hrest _ ?_
    dsimp only
    split
    · exact hcounted
    · exact hcounted

variable (d : DeltaIn) (bytes : Nat) (waited : Bool) (waitNs splits : Nat)

theorem Work.deltasIn_deltas : (s.deltasIn d bytes waited waitNs splits).step.deltas = s.step.deltas ++ [d] := by
  unfold Work.deltasIn
  dsimp only
  split_ifs <;> rfl

theorem Work.deltasIn_get (k : Key) (hk : k ≠ Obj.deltaStalls ∧ k ≠ Obj.deltaStallNs ∧ k ≠ Obj.deltaSplits) :
    (s.deltasIn d bytes waited waitNs splits).get k = (s.add Obj.deltaBytesStreamed bytes).get k := by
  obtain ⟨hstalls, hns, hsplits⟩ := hk
  unfold Work.deltasIn
  dsimp only
  split_ifs <;> simp [hstalls.symm, hns.symm, hsplits.symm]
end

/-- The objects that a fetch of deltas moves. -/
def fetchKey (k : Key) : Prop :=
  k = Obj.deltaBytesStreamed ∨ k = Obj.deltaStalls ∨ k = Obj.deltaStallNs ∨ k = Obj.deltaSplits ∨ k = Obj.deltaPoison ∨ linkCounter k

section
variable {s : State} {w : Work} {parts : List StatePart} (h : s.keeps w parts fetchKey)
include h

theorem State.keeps.deltasIn (hstep : StatePart.step ∈ parts) (d : DeltaIn) (bytes : Nat) (waited : Bool) (waitNs splits : Nat) :
    s.keeps (w.deltasIn d bytes waited waitNs splits) parts fetchKey := by
  have hbytes := (h.modStep hstep (fun x => { x with deltas := x.deltas ++ [d] })).add (k := Obj.deltaBytesStreamed) (by simp [fetchKey]) bytes
  have hwaited := (hbytes.add (k := Obj.deltaStalls) (by simp [fetchKey]) 1).add (k := Obj.deltaStallNs) (by simp [fetchKey]) waitNs
  unfold Work.deltasIn
  dsimp only
  split_ifs
  · exact hwaited
  · exact hbytes
  · exact hwaited.add (by simp [fetchKey]) splits
  · exact hbytes.add (by simp [fetchKey]) splits

theorem State.keeps.reportPoison (handles : List Nat) : s.keeps (w.reportPoison handles) parts fetchKey := by
  refine List.foldlRecOn handles _ (motive := fun u : Work => s.keeps u parts fetchKey) h fun u hu _ _ => ?_
  have hcounted := hu.add (k := Obj.deltaPoison) (by simp [fetchKey]) 1
  dsimp only
  split
  · exact hcounted.send _
  · exact hcounted
end

theorem State.next_deltaFetchDone (s : State) {core slot : Nat} (seq m bytes waitNs fills : Nat) (poison : List Nat)
    (hcore : goodCore s.ident core = true) (hslot : slot < 4) :
    ∃ t, exec (.deltaFetchDone core slot seq m bytes waitNs fills poison) s = .next t ∧
      t.dev.step.deltas = s.dev.step.deltas ++ [⟨⟨slot, seq, m⟩, core, poison⟩] ∧
      s.counted t Obj.deltaBytesStreamed (sumNat (s.work.deltaFetch (s.work.fetchCtx slot seq m) core)) ∧
      s.counted t Obj.deltaPoison poison.length ∧ s.frame t [.step, .links] fetchKey := by
  let d : DeltaIn := ⟨⟨slot, seq, m⟩, core, poison⟩
  let streamed := sumNat (s.work.deltaFetch (s.work.fetchCtx slot seq m) core)
  obtain ⟨waited, splits, hwork⟩ := s.work.deltaFetched_eq core slot seq m waitNs poison
  refine ⟨_, State.nextIf_true (by simp [hcore, hslot]), ?_⟩
  rw [State.run_congr (g := fun w => (w.deltasIn d streamed waited waitNs splits).reportPoison poison) hwork, State.run_step]
  refine ⟨?_, State.run_counted (by simp [linkCounter]) fun hlt => ?_, State.run_counted (by simp [linkCounter]) fun hlt => ?_, ?_⟩
  · rw [Work.reportPoison_step]
    exact s.work.deltasIn_deltas d streamed waited waitNs splits
  · rw [Work.reportPoison_get _ _ (by decide), Work.deltasIn_get _ _ _ _ _ _ _ (by decide)]
    exact Work.add_counts _ _ _ hlt
  · have hget : (s.work.deltasIn d streamed waited waitNs splits).get Obj.deltaPoison = s.work.get Obj.deltaPoison := by
      rw [Work.deltasIn_get _ _ _ _ _ _ _ (by decide), Work.add_get, if_neg (by decide)]
    rw [Work.reportPoison_counts _ _ (hget ▸ hlt), hget]
  · exact (((s.keeps_work [.step, .links] fetchKey).deltasIn (by simp) d streamed waited waitNs splits).reportPoison poison).frame (by simp)
      fun k hk => .inr (.inr (.inr (.inr (.inr hk))))

/-- Settles O32: an op on engines stands among the running ones before its jobs are issued, and leaves them only to be done; a fetch adds
its deltas to those in the buffers, and counts. -/
theorem engineOpsRunOnTheEngines : Obligations.EngineOpsRunOnTheEngines := by
  unfold Obligations.EngineOpsRunOnTheEngines
  refine ⟨fun s c a => ⟨fun hmay i hi => ?_, fun hdeltas habsent i hi => ?_⟩, fun s core slot seq m bytes waitNs fills poison =>
    s.next_deltaFetchDone seq m bytes waitNs fills poison⟩
  · obtain ⟨rfl | rfl, hpresent⟩ | ⟨x, rfl, hnone, rfl⟩ := hi
    · exact State.next_runsOp hmay (Work.startCim_of_present _ hpresent) fun u => u.cimMvm_runsOp c a
    · exact State.next_runsOp hmay (Work.startCim_of_present _ hpresent) fun u => u.cimMvmt_runsOp c a
    · exact State.next_runsOp hmay (Work.startCim_of_present _ (.inl hnone)) fun u => u.expert_runsOp c x
  · obtain rfl | rfl := hi
    · exact ⟨_, rfl, s.run_id _ (Work.startCim_of_absent _ hdeltas habsent)⟩
    · exact ⟨_, rfl, s.run_id _ (Work.startCim_of_absent _ hdeltas habsent)⟩

end Sys2Proof.Machine
end

section
/-! SUPPORT. Arrays: what a command changes of one array's record, and what the scheduling of refreshes notes (R240, R241). -/

namespace Sys2Proof.Machine

/-! ## One array's record -/

@[simp] theorem Work.setArr_arr (s : Work) (a : Nat) (x : Arr) (b : Nat) : (s.setArr a x).arr b = if a = b then x else s.arr b := by
  simp [Work.arr, Work.setArr]

@[simp] theorem Work.add_arr (s : Work) (k : Key) (n a : Nat) : (s.add k n).arr a = s.arr a := rfl

theorem Work.addWhen_objs (s : Work) (c : Prop) [Decidable c] (k : Key) (n : Nat) : ∃ objs, s.addWhen c k n = { s with objs := objs } := by
  unfold Work.addWhen
  split
  · exact ⟨_, rfl⟩
  · exact ⟨_, rfl⟩

@[simp] theorem Work.addWhen_ident (s : Work) (c : Prop) [Decidable c] (k : Key) (n : Nat) : (s.addWhen c k n).ident = s.ident := by
  obtain ⟨objs, h⟩ := s.addWhen_objs c k n
  rw [h]

@[simp] theorem Work.addWhen_sent (s : Work) (c : Prop) [Decidable c] (k : Key) (n : Nat) : (s.addWhen c k n).sent = s.sent := by
  obtain ⟨objs, h⟩ := s.addWhen_objs c k n
  rw [h]

@[simp] theorem Work.addWhen_arr (s : Work) (c : Prop) [Decidable c] (k : Key) (n a : Nat) : (s.addWhen c k n).arr a = s.arr a := by
  obtain ⟨objs, h⟩ := s.addWhen_objs c k n
  rw [h]
  rfl

theorem State.run_arr {s : State} {f : Work → Work} (hident : (f s.work).ident = s.ident) (a : Nat) : (s.run f).work.arr a = (f s.work).arr a := by
  obtain ⟨ls, n, os, h⟩ := s.run_dev_eq f
  rw [Work.arr, Work.arr, State.work_toDev, h, hident]
  rfl

theorem State.keeps.arrs {s : State} {w : Work} {parts : List StatePart} {keys : Key → Prop} (h : s.keeps w parts keys)
    (harrs : StatePart.arrs ∈ parts) (l : List (Nat × Arr)) : s.keeps { w with arrs := l } parts keys := by
  refine ⟨fun p hp => ?_, h.2⟩
  cases p with
  | arrs => exact absurd harrs hp
  | _ => exact h.1 _ hp

theorem State.keeps.setArr {s : State} {w : Work} {parts : List StatePart} {keys : Key → Prop} (h : s.keeps w parts keys)
    (harrs : StatePart.arrs ∈ parts) (a : Nat) (x : Arr) : s.keeps (w.setArr a x) parts keys := h.arrs harrs _

/-- The second work differs from the first in the record that array `a` has, and in the count of free values. -/
def Work.setsArr (s t : Work) (a : Nat) (x : Arr) : Prop :=
  (∃ arrs n, t = { s with arrs := arrs, free := n }) ∧ ∀ b, t.arr b = if a = b then x else s.arr b

theorem Work.setsArr_self (s : Work) (a : Nat) : s.setsArr s a (s.arr a) :=
  ⟨⟨_, _, rfl⟩, fun b => by split <;> simp_all⟩

theorem Work.setsArr_setArr (s : Work) (n a : Nat) (x : Arr) : s.setsArr (({ s with free := n } : Work).setArr a x) a x :=
  ⟨⟨_, _, rfl⟩, fun b => Work.setArr_arr _ a x b⟩

theorem Work.setsArr.ite {s t u : Work} {a : Nat} {x y : Arr} {c : Prop} [Decidable c] (ht : s.setsArr t a x) (hu : s.setsArr u a y) :
    s.setsArr (if c then t else u) a (if c then x else y) := by
  split
  · exact ht
  · exact hu

/-- A command that sets one array's record changes nothing else. -/
theorem State.run_setsArr {s : State} {f : Work → Work} {a : Nat} {x : Arr} (h : s.work.setsArr (f s.work) a x) :
    s.frame (s.run f) [.arrs] (fun _ => False) ∧ ∀ b, (s.run f).work.arr b = if a = b then x else s.work.arr b := by
  obtain ⟨⟨arrs, n, hwork⟩, harr⟩ := h
  refine ⟨State.keeps.frame_silent ?_ (by rw [hwork]; rfl), fun b => (State.run_arr (by rw [hwork]; rfl) b).trans (harr b)⟩
  rw [hwork]
  exact ((s.keeps_work _ _).arrs (by simp) arrs).free n

/-! ## Refreshes scheduled -/

/-- The objects that the scheduling of refreshes moves: its counts, the largest shift, and ATTENTION by its log (R240, R241). -/
def refreshKey (k : Key) : Prop := k = Obj.refreshesScheduled ∨ k = Obj.refreshBlocked ∨ k = Obj.driftMaxShift ∨ attentionKey k

theorem Work.log_sweepDueS (s : Work) (severity code unitKind slot unit tenant detail : Nat) :
    (s.log severity code unitKind slot unit tenant detail).rel.sweepDueS = s.rel.sweepDueS := by
  unfold Work.log Work.record
  dsimp only
  split_ifs <;> split <;> rfl

/-- The second work differs from the first in what the scheduling of refreshes notes: of an array, only which refresh is queued and since
when it is blocked. -/
structure Work.schedulesRefresh (s t : Work) : Prop where
  ident : t.ident = s.ident
  writes : t.writes = s.writes
  sweepDueS : t.rel.sweepDueS = s.rel.sweepDueS
  arr : ∀ a, ∃ queued blockedAt, t.arr a = { s.arr a with queued := queued, blockedAt := blockedAt }
  get : ∀ k, ¬ refreshKey k → t.get k = s.get k

namespace Work.schedulesRefresh

theorem refl (s : Work) : s.schedulesRefresh s := ⟨rfl, rfl, rfl, fun _ => ⟨_, _, rfl⟩, fun _ _ => rfl⟩

section
variable {s t : Work} (h : s.schedulesRefresh t)
include h

theorem ite {c : Prop} [Decidable c] {u : Work} (hu : s.schedulesRefresh u) : s.schedulesRefresh (if c then t else u) := by
  split
  · exact h
  · exact hu

theorem set {k : Key} (hk : refreshKey k) (v : Nat) : s.schedulesRefresh (t.set k v) :=
  ⟨h.ident, h.writes, h.sweepDueS, h.arr, fun q hq => by rw [Work.set_get, if_neg (by rintro rfl; exact hq hk), h.get q hq]⟩

theorem log (severity code unitKind slot unit tenant detail : Nat) : s.schedulesRefresh (t.log severity code unitKind slot unit tenant detail) := by
  have hsweep := t.log_sweepDueS severity code unitKind slot unit tenant detail
  obtain ⟨rel, objs, os, r, hlog, -, hobjs⟩ := t.log_spec severity code unitKind slot unit tenant detail
  rw [hlog] at hsweep ⊢
  exact ⟨h.ident, h.writes, hsweep.trans h.sweepDueS, h.arr, fun k hk => (hobjs k fun ha => hk (.inr (.inr (.inr ha)))).trans (h.get k hk)⟩

/-- The record of an array takes a queued refresh, or the time it is blocked from. -/
theorem setQueued (f queued : Nat) (blockedAt : Option Nat) :
    s.schedulesRefresh (t.setArr f { t.arr f with queued := queued, blockedAt := blockedAt }) := by
  refine ⟨h.ident, h.writes, h.sweepDueS, fun a => ?_, h.get⟩
  rw [Work.setArr_arr]
  split
  · next hf =>
    obtain ⟨_, _, harr⟩ := h.arr f
    exact ⟨queued, blockedAt, by rw [← hf, harr]⟩
  · exact h.arr a

theorem noteBlocked (f : Nat) : s.schedulesRefresh (t.noteBlocked f) :=
  ite (((h.setQueued f _ _).set (.inr (.inl rfl)) _).log _ _ _ _ _ _ _) h

theorem queueRefresh (f reason : Nat) : s.schedulesRefresh (t.queueRefresh f reason) :=
  h.ite (ite (((h.setQueued f _ _).set (.inl rfl) _).noteBlocked f) ((h.setQueued f _ _).ite h))

theorem evaluateRefresh (f : Nat) : s.schedulesRefresh (t.evaluateRefresh f) := by
  have hraised := h.set (k := Obj.driftMaxShift) (.inr (.inr (.inl rfl)))
  unfold Work.evaluateRefresh
  extract_lets x st sh raised shifted aged
  have hshifted : s.schedulesRefresh shifted := ite ((hraised _).queueRefresh f 1) (hraised _)
  have haged : s.schedulesRefresh aged := ite (hshifted.queueRefresh f 2) hshifted
  exact h.ite (ite (hraised _) (haged.noteBlocked f))

theorem foldl_evaluateRefresh (l : List Nat) : s.schedulesRefresh (l.foldl Work.evaluateRefresh t) :=
  List.foldlRecOn l _ h fun _ hu f _ => hu.evaluateRefresh f
end
end Work.schedulesRefresh

end Sys2Proof.Machine
end

section
/-! SUPPORT. Background calibration: what the completion of a slice's calibration and a step of its adjustments make of the array (R230 to R232). -/

namespace Sys2Proof.Machine

/-! ## A slice position -/

/-- An array whose slice position q, the one out of service, has been calibrated: its targets, its reference fit, and one calibration more (R230). -/
def Arr.calibrated (x : Arr) (q : Nat) (gain rOff rGain : Rat) : Arr :=
  let p := x.position q
  { x with
    positions := put x.positions q { p with
      targetOff := openI16 ((p.appliedOff : Rat) - 64 * x.cal.data.meanDiff)
      targetGain := openI16 ((p.appliedGain : Rat) + gain)
      rOff := rOff
      rGain := rGain }
    calCount := x.calCount + 1
    outPos := some q }

@[simp] theorem Arr.calibrated_position (x : Arr) (q : Nat) (gain rOff rGain : Rat) :
    (x.calibrated q gain rOff rGain).position q = { x.position q with
      targetOff := openI16 (((x.position q).appliedOff : Rat) - 64 * x.cal.data.meanDiff)
      targetGain := openI16 (((x.position q).appliedGain : Rat) + gain)
      rOff := rOff
      rGain := rGain } := look_put_same _ _ _ _

@[simp] theorem Arr.keepApplied_position (x : Arr) (q : Nat) :
    (x.keepApplied q).position q = { x.position q with targetOff := (x.position q).appliedOff, targetGain := (x.position q).appliedGain } :=
  look_put_same _ _ _ _

@[simp] theorem Arr.retire_position (x : Arr) (q r n : Nat) : (x.retire q r).position n = x.position n := rfl
@[simp] theorem Arr.rotate_position (x : Arr) (q n : Nat) : (x.rotate q).position n = x.position n := rfl

theorem map_replace_self (l : List Nat) (q : Nat) : l.map (fun p => if p = q then q else p) = l :=
  List.map_id'' (fun p => by split <;> simp_all) l

/-! ## The judgement of a calibrated slice -/

/-- A slice position's targets lie past the retirement limits (R232). -/
abbrev Work.pastLimits (s : Work) (p : SlicePos) : Prop :=
  s.get Obj.sliceRetireOffset < p.targetOff.natAbs ∨ s.get Obj.sliceRetireGain < p.targetGain.natAbs

/-- A calibrated slice that is past the limits keeps its applied adjustments and retires, which is counted and logged, and its facet's refresh is
queued (R232). -/
def Work.retireSlice (s : Work) (a q : Nat) (x : Arr) : Work :=
  (((s.setArr a ((x.keepApplied q).retire q q)).add Obj.sliceRetireEvents 1).log 1 0x62 (arrayKind a) x.slot (arrayUnit a) 0xFFFF q).queueRefresh
    (s.facetOfArray a) 3

/-- The slice in position q, once calibrated, retires or returns to service. -/
def Work.judgeSlice (s : Work) (a q : Nat) (x : Arr) : Work :=
  if s.pastLimits (x.position q) then s.retireSlice a q x else s.setArr a (x.rotate q)

/-- A calibration is counted, and a gain that it leaves out. -/
def Work.countCalibration (s : Work) (gainSkipped : Prop) [Decidable gainSkipped] (n : Nat) : Work :=
  { (s.add Obj.calCompleted 1).addWhen gainSkipped Obj.calGainSkipped 1 with free := n }

/-- The gain that a calibration finds, 0 where the data samples have no spread, which is counted (R230). -/
def Work.calGain (s : Work) (d : PairSums) : Rat × Work :=
  if !d.spread then (0, s.add Obj.calGainSkipped 1)
  else match d.gain with
    | some g => (g, s)
    | none => ((signed 16 s.fresh.1 : Rat), s.fresh.2)

/-- The reference fit that a calibration finds (R230). -/
def Work.calFit (s : Work) (d : PairSums) : (Rat × Rat) × Work :=
  match d.fit with
  | some r => (r, s)
  | none => (((signed 16 s.fresh.1 : Rat), (signed 16 s.fresh.2.fresh.1 : Rat)), s.fresh.2.fresh.2)

/-- SLICE_CALIBRATION_COMPLETE of a slice with its samples, but for every 33rd of an array, which moves the targets of all positions: the
slice is calibrated by the gain of its samples, 0 where they have no spread, and judged. -/
theorem Work.sliceCalibrated_eq {s : Work} {a q : Nat} (hout : (s.arr a).outPos = some q) (henable : s.get Obj.calEnable ≠ 0)
    (hstate : (s.arr a).state ≠ 0) (hcommon : ((s.arr a).calCount + 1) % 33 ≠ 0) (hsamples : s.get Obj.calSamples ≤ (s.arr a).cal.data.n) :
    s.sliceCalibrated a =
      (let gained := (s.add Obj.calCompleted 1).calGain (s.arr a).cal.data
       let fitted := gained.2.calFit (s.arr a).cal.refs
       fitted.2.judgeSlice a q ((s.arr a).calibrated q gained.1 fitted.1.1 fitted.1.2)) := by
  have hready : ¬ (s.get Obj.calEnable = 0 ∨ (s.arr a).state = 0 ∨ (s.arr a).cal.data.n < s.get Obj.calSamples) := by
    simp only [henable, hstate, false_or]
    omega
  unfold Work.sliceCalibrated
  extract_lets x added gained fitted
  have hfound : x.outPos = some q := hout
  simp -zeta only [hfound]
  rw [if_neg hready]
  extract_lets p adjusted calibrated common corrected judged fails failing f
  have hjudged : judged = x.calibrated q gained.1 fitted.1.1 fitted.1.2 := if_neg hcommon
  have hfailing : failing = if fitted.2.pastLimits (judged.position q) then [q] else [] := by
    have hq : failing = [q].filter fails := congrArg (fun l => (q :: l).filter fails) (if_neg hcommon)
    rw [hq, List.filter_cons, List.filter_nil]
    exact if_congr decide_eq_true_iff rfl rfl
  rw [Work.judgeSlice, ← hjudged]
  clear_value failing
  by_cases hpast : fitted.2.pastLimits (judged.position q)
  · rw [if_pos hpast] at hfailing ⊢
    rw [hfailing]
    rfl
  · rw [if_neg hpast] at hfailing ⊢
    rw [hfailing]
    rfl

theorem Work.calGain_work (s : Work) (d : PairSums) :
    ∃ n, (s.calGain d).2 = { s.addWhen (d.spread = false) Obj.calGainSkipped 1 with free := n } := by
  unfold Work.calGain Work.addWhen
  cases d.spread with
  | false => exact ⟨_, rfl⟩
  | true => cases d.gain <;> exact ⟨_, rfl⟩

theorem Work.calGain_of_flat (s : Work) {d : PairSums} (h : d.spread = false) : (s.calGain d).1 = 0 := by
  simp [Work.calGain, h]

theorem Work.calGain_of_gain (s : Work) {d : PairSums} {g : Rat} (h : d.spread = true) (hg : d.gain = some g) : (s.calGain d).1 = g := by
  simp [Work.calGain, h, hg]

theorem Work.calFit_work (s : Work) (d : PairSums) : ∃ n, (s.calFit d).2 = { s with free := n } := by
  unfold Work.calFit
  cases d.fit <;> exact ⟨_, rfl⟩

/-- What the calibration leaves of the work before the slice is judged: its counts. -/
theorem Work.calibration_counts (s : Work) (data refs : PairSums) :
    ∃ n, (((s.add Obj.calCompleted 1).calGain data).2.calFit refs).2 = s.countCalibration (data.spread = false) n := by
  obtain ⟨n, hgain⟩ := (s.add Obj.calCompleted 1).calGain_work data
  obtain ⟨m, hfit⟩ := ((s.add Obj.calCompleted 1).calGain data).2.calFit_work refs
  exact ⟨m, by rw [hfit, hgain]; rfl⟩

section
variable (s : Work) (gainSkipped : Prop) [Decidable gainSkipped] (n : Nat)

theorem Work.countCalibration_objs : ∃ objs, s.countCalibration gainSkipped n = { s with objs := objs, free := n } := by
  obtain ⟨objs, h⟩ := (s.add Obj.calCompleted 1).addWhen_objs gainSkipped Obj.calGainSkipped 1
  exact ⟨objs, by rw [Work.countCalibration, h]; rfl⟩

theorem Work.countCalibration_get {k : Key} (hcompleted : k ≠ Obj.calCompleted) (hskipped : k ≠ Obj.calGainSkipped) :
    (s.countCalibration gainSkipped n).get k = s.get k := by
  change ((s.add Obj.calCompleted 1).addWhen gainSkipped Obj.calGainSkipped 1).get k = s.get k
  rw [Work.addWhen_get, if_neg (fun h => hskipped h.1.symm), Work.add_get, if_neg hcompleted.symm]

theorem Work.countCalibration_counts_completed : s.counted (s.countCalibration gainSkipped n) Obj.calCompleted 1 := by
  intro hlt
  change ((s.add Obj.calCompleted 1).addWhen gainSkipped Obj.calGainSkipped 1).get Obj.calCompleted = _
  rw [Work.addWhen_get, if_neg (fun h => absurd h.1 (by decide)), Work.add_get, if_pos rfl, countPast_of_lt hlt]

theorem Work.countCalibration_counts_skipped (h : gainSkipped) : s.counted (s.countCalibration gainSkipped n) Obj.calGainSkipped 1 := by
  intro hlt
  change ((s.add Obj.calCompleted 1).addWhen gainSkipped Obj.calGainSkipped 1).get Obj.calGainSkipped = _
  rw [Work.addWhen_get, if_pos ⟨rfl, h⟩, Work.add_get, if_neg (by decide), countPast_of_lt hlt]
end

/-! ## What the judgement leaves -/

/-- The second array has the first's slice positions and calibrations. -/
structure Arr.sameSlices (x y : Arr) : Prop where
  position : ∀ r, y.position r = x.position r
  outPos : y.outPos = x.outPos
  retiredPos : y.retiredPos = x.retiredPos
  groupPos : y.groupPos = x.groupPos
  calCount : y.calCount = x.calCount

section
variable (s : Work) (a q : Nat) (x : Arr)

theorem Work.retireSlice_schedulesRefresh :
    ((s.setArr a ((x.keepApplied q).retire q q)).add Obj.sliceRetireEvents 1).schedulesRefresh (s.retireSlice a q x) :=
  ((Work.schedulesRefresh.refl _).log _ _ _ _ _ _ _).queueRefresh _ _

theorem Work.judgeSlice_of_past {s : Work} {q : Nat} {x : Arr} (h : s.pastLimits (x.position q)) :
    ((x.keepApplied q).retire q q).sameSlices ((s.judgeSlice a q x).arr a) ∧
    s.counted (s.judgeSlice a q x) Obj.sliceRetireEvents 1 := by
  have hretired := s.retireSlice_schedulesRefresh a q x
  rw [Work.judgeSlice, if_pos h]
  obtain ⟨_, _, harr⟩ := hretired.arr a
  have hset : ((s.setArr a ((x.keepApplied q).retire q q)).add Obj.sliceRetireEvents 1).arr a = (x.keepApplied q).retire q q := by
    rw [Work.add_arr, Work.setArr_arr, if_pos rfl]
  refine ⟨?_, fun hlt => ?_⟩
  · rw [harr, hset]
    exact ⟨fun _ => rfl, rfl, rfl, rfl, rfl⟩
  · rw [hretired.get _ (by simp [refreshKey, attentionKey]), Work.add_get, if_pos rfl]
    exact countPast_of_lt hlt

theorem Work.judgeSlice_of_not_past {s : Work} {q : Nat} {x : Arr} (h : ¬ s.pastLimits (x.position q)) :
    (s.judgeSlice a q x).arr a = x.rotate q := by
  rw [Work.judgeSlice, if_neg h, Work.setArr_arr, if_pos rfl]

/-- The judgement writes no memory, and moves no object but the count of retired slices and those of the refresh it queues. -/
theorem Work.judgeSlice_keeps : (s.judgeSlice a q x).ident = s.ident ∧ (s.judgeSlice a q x).writes = s.writes ∧
    ∀ k, k ≠ Obj.sliceRetireEvents → ¬ refreshKey k → (s.judgeSlice a q x).get k = s.get k := by
  have hretired := s.retireSlice_schedulesRefresh a q x
  unfold Work.judgeSlice
  split
  · refine ⟨hretired.ident, hretired.writes, fun k hk hr => ?_⟩
    rw [hretired.get k hr, Work.add_get, if_neg hk.symm]
    rfl
  · exact ⟨rfl, rfl, fun _ _ _ => rfl⟩
end

/-! ## The steps of an adjustment -/

/-- An array whose slice position q has moved its applied adjustments by a step (R231). -/
def Arr.adjusted (x : Arr) (q : Nat) : Arr :=
  let p := x.position q
  { x with positions := put x.positions q { p with
      appliedOff := stepToward p.appliedOff p.targetOff
      appliedGain := stepToward p.appliedGain p.targetGain
      conversions := p.conversions - 1024 } }

theorem Arr.adjusted_position (x : Arr) (q r : Nat) :
    (x.adjusted q).position r = if q = r then { x.position q with
      appliedOff := stepToward (x.position q).appliedOff (x.position q).targetOff
      appliedGain := stepToward (x.position q).appliedGain (x.position q).targetGain
      conversions := (x.position q).conversions - 1024 } else x.position r := look_put _ _ _ _ _

/-- A slice whose applied adjustments stand still (R231). -/
abbrev Work.standsStill (s : Work) (a q : Nat) : Prop :=
  s.get Obj.calEnable = 0 ∨ (s.arr a).retiredPos = some q ∨ ((s.arr a).position q).conversions < 1024

theorem Work.sliceAdjust_setsArr (s : Work) (a q : Nat) :
    s.setsArr (s.sliceAdjust a q) a (if s.standsStill a q then s.arr a else (s.arr a).adjusted q) :=
  (s.setsArr_self a).ite (s.setsArr_setArr s.free a _)

/-! ## The commands -/

/-- SLICE_CALIBRATION_COMPLETE, as a judgement of the calibrated slice. -/
theorem Work.sliceCalibrated_judges {s : Work} {a q : Nat} (hout : (s.arr a).outPos = some q) (henable : s.get Obj.calEnable ≠ 0)
    (hstate : (s.arr a).state ≠ 0) (hcommon : ((s.arr a).calCount + 1) % 33 ≠ 0) (hsamples : s.get Obj.calSamples ≤ (s.arr a).cal.data.n) :
    ∃ (gain rOff rGain : Rat) (n : Nat),
      s.sliceCalibrated a = (s.countCalibration ((s.arr a).cal.data.spread = false) n).judgeSlice a q ((s.arr a).calibrated q gain rOff rGain) ∧
      ((s.arr a).cal.data.spread = false → gain = 0) ∧
      ∀ g, (s.arr a).cal.data.spread = true → (s.arr a).cal.data.gain = some g → gain = g := by
  obtain ⟨n, hcounts⟩ := s.calibration_counts (s.arr a).cal.data (s.arr a).cal.refs
  have hjudge := Work.sliceCalibrated_eq hout henable hstate hcommon hsamples
  dsimp only at hjudge
  rw [hcounts] at hjudge
  exact ⟨_, _, _, n, hjudge, Work.calGain_of_flat _, fun g => Work.calGain_of_gain _⟩

/-- The counts and the memory that a calibration leaves. -/
theorem State.run_calibration_counts {s : State} {f : Work → Work} {a q n : Nat} {x : Arr} {flat : Prop} [Decidable flat]
    (hwork : f s.work = (s.work.countCalibration flat n).judgeSlice a q x) :
    s.counted (s.run f) Obj.calCompleted 1 ∧ (flat → s.counted (s.run f) Obj.calGainSkipped 1) ∧ (s.run f).mem = s.mem := by
  obtain ⟨objs, hobjs⟩ := s.work.countCalibration_objs flat n
  obtain ⟨-, hwrites, hget⟩ := (s.work.countCalibration flat n).judgeSlice_keeps a q x
  refine ⟨State.run_counted (by simp [linkCounter]) fun hlt => ?_, fun hflat => State.run_counted (by simp [linkCounter]) fun hlt => ?_,
    State.run_mem_same _ _ (by rw [hwork, hwrites, hobjs]; rfl)⟩
  · rw [hwork, hget _ (by decide) (by simp [refreshKey, attentionKey])]
    exact s.work.countCalibration_counts_completed flat n hlt
  · rw [hwork, hget _ (by decide) (by simp [refreshKey, attentionKey])]
    exact s.work.countCalibration_counts_skipped flat n hflat hlt

/-- What a calibration leaves of the array's slices: position q retired with its applied adjustments, or returned to service with its new
targets (R230, R232). -/
theorem State.run_calibration_slices {s : State} {f : Work → Work} {a q n : Nat} {x : Arr} {flat : Prop} [Decidable flat]
    (hwork : f s.work = (s.work.countCalibration flat n).judgeSlice a q x) :
    if s.val Obj.sliceRetireOffset < (x.position q).targetOff.natAbs ∨ s.val Obj.sliceRetireGain < (x.position q).targetGain.natAbs then
      ((x.keepApplied q).retire q q).sameSlices ((s.run f).work.arr a) ∧ s.counted (s.run f) Obj.sliceRetireEvents 1
    else (s.run f).work.arr a = x.rotate q := by
  obtain ⟨objs, hobjs⟩ := s.work.countCalibration_objs flat n
  obtain ⟨hident, -, -⟩ := (s.work.countCalibration flat n).judgeSlice_keeps a q x
  have hget {k : Key} := s.work.countCalibration_get flat n (k := k)
  have harr : (s.run f).work.arr a = ((s.work.countCalibration flat n).judgeSlice a q x).arr a := by
    rw [← hwork]
    exact State.run_arr (by rw [hwork, hident, hobjs]; rfl) a
  have hlimits : (s.work.countCalibration flat n).pastLimits (x.position q) ↔ s.work.pastLimits (x.position q) := by
    rw [Work.pastLimits, hget (by decide) (by decide), hget (by decide) (by decide)]
  rw [harr]
  split
  · next hpast =>
    obtain ⟨hslices, hcount⟩ := Work.judgeSlice_of_past a (hlimits.mpr hpast)
    refine ⟨hslices, State.run_counted (by simp [linkCounter]) fun hlt => ?_⟩
    have hsame := hget (k := Obj.sliceRetireEvents) (by decide) (by decide)
    rw [hwork, hcount (hsame ▸ hlt), hsame]
  · next hpast => exact Work.judgeSlice_of_not_past a fun h => hpast (hlimits.mp h)

/-- Settles O25: a calibration is a judgement of the slice with its new targets, and a step of an adjustment is one of the position's record. -/
theorem slicesAreCalibratedStepByStep : Obligations.SlicesAreCalibratedStepByStep := by
  unfold Obligations.SlicesAreCalibratedStepByStep
  refine ⟨fun s x q hexists hout _ henable hstate hcommon hsamples => ?_, fun s a q hexists hq => ?_⟩
  · obtain ⟨gain, rOff, rGain, n, hwork, hflat, hgain⟩ := Work.sliceCalibrated_judges hout henable hstate hcommon hsamples
    obtain ⟨hcompleted, hskipped, hmem⟩ := State.run_calibration_counts (f := fun w => w.sliceCalibrated x.array) hwork
    have hslices := State.run_calibration_slices (f := fun w => w.sliceCalibrated x.array) hwork
    simp only [Arr.calibrated_position] at hslices
    refine ⟨_, gain, State.nextIf_true hexists, ⟨fun h => ⟨hflat h, hskipped h⟩, hgain, ?_⟩, hcompleted, hmem⟩
    split_ifs at hslices ⊢ with hpast
    · obtain ⟨⟨hposition, houtPos, hretired, hgroup, hcount⟩, hevents⟩ := hslices
      simp only [hposition, hgroup, hcount, Arr.retire_position, Arr.keepApplied_position, Arr.calibrated_position]
      exact ⟨⟨houtPos, hretired, trivial, trivial, map_replace_self _ _, hevents⟩, trivial, trivial, rfl⟩
    · simp only [hslices, Arr.rotate_position, Arr.calibrated_position]
      exact ⟨⟨rfl, trivial, trivial, rfl⟩, trivial, trivial, rfl⟩
  · have hset := s.work.sliceAdjust_setsArr a q
    obtain ⟨hframe, harr⟩ := State.run_setsArr (f := fun w => w.sliceAdjust a q) hset
    refine ⟨_, State.nextIf_true (by simp [hexists, hq]), ⟨fun henable hretired hconv => ?_, fun hstill => ?_⟩, fun b hb => ?_, fun r hr => ?_, hframe⟩
    · have hmoves : ¬ s.work.standsStill a q := by
        rintro (h | h | h)
        · exact henable h
        · exact hretired h
        · exact hconv.not_gt h
      rw [harr, if_pos rfl, if_neg hmoves, Arr.adjusted_position, if_pos rfl]
      rfl
    · rw [harr, if_pos rfl, if_pos (.inr hstill)]
    · rw [harr, if_neg hb.symm]
    · rw [harr, if_pos rfl]
      split
      · rfl
      · rw [Arr.adjusted_position, if_neg hr.symm]

end Sys2Proof.Machine
end

section
/-! SUPPORT. The upkeep of arrays and the lifetime records: calibrations that are due, trim sets, powered seconds, saved records and the histogram
(R228, R234, R236, R238, R239, R244, R247). -/

namespace Sys2Proof.Machine

/-! ## Calibrations against the internal reference (R234) -/

/-- One more measurement joins those taken. -/
def measureNext (acc : List (Int × Int) × Work) : List (Int × Int) × Work := (acc.1 ++ [acc.2.measured.1], acc.2.measured.2)

/-- Measurements take free values only. -/
theorem foldl_measureNext {α : Type} (s : Work) (l : List α) (rs : List (Int × Int)) (n : Nat) :
    ∃ rs' m, l.foldl (fun acc _ => measureNext acc) (rs, { s with free := n }) = (rs', { s with free := m }) ∧
      rs'.length = rs.length + l.length := by
  induction l generalizing rs n with
  | nil => exact ⟨rs, n, rfl, rfl⟩
  | cons x l ih =>
    obtain ⟨rs', m, hfold, hlen⟩ := ih (rs ++ [({ s with free := n } : Work).measured.1]) (n + 2)
    refine ⟨rs', m, hfold, ?_⟩
    rw [hlen, List.length_append, List.length_cons, List.length_cons, List.length_nil]
    omega

theorem Work.rowCalibrate_setsArr (s : Work) (a : Nat) : ∃ rs : List (Int × Int), rs.length = 16 ∧
    s.setsArr (s.rowCalibrate a) a { s.arr a with rowCalAt := s.get Obj.poweredSeconds, rowCal := rs } := by
  have hsixteen : (List.range 16).length = 16 := List.length_range
  unfold Work.rowCalibrate
  generalize List.range 16 = rows at hsixteen ⊢
  obtain ⟨rs, n, hfold, hlen⟩ := foldl_measureNext s rows [] s.free
  refine ⟨rs, hlen.trans ((Nat.zero_add _).trans hsixteen), ?_⟩
  change s.setsArr (let r := rows.foldl (fun acc _ => measureNext acc) ([], s)
    r.2.modArr a (fun x => { x with rowCalAt := r.2.get Obj.poweredSeconds, rowCal := r.1 })) a _
  rw [hfold]
  exact s.setsArr_setArr n a _

/-- A work that leaves the array unless a condition holds. -/
theorem Work.setsArr.ite_unless {s t u : Work} {a : Nat} {x y : Arr} {c d : Prop} [Decidable c] [Decidable d] (hcd : c ↔ ¬ d)
    (ht : s.setsArr t a x) (hu : s.setsArr u a y) : s.setsArr (if c then t else u) a (if d then y else x) := by
  rw [if_congr hcd rfl rfl, ite_not]
  exact hu.ite ht

theorem Work.rowCal_setsArr (s : Work) (a : Nat) : ∃ rs : List (Int × Int), rs.length = 16 ∧
    s.setsArr (s.rowCal a) a (if s.atBoundary = true ∧ s.arrayBusy a = false ∧ s.rowCalStale a = true then
      { s.arr a with rowCalAt := s.get Obj.poweredSeconds, rowCal := rs } else s.arr a) := by
  obtain ⟨rs, hlen, hset⟩ := s.rowCalibrate_setsArr a
  refine ⟨rs, hlen, (s.setsArr_self a).ite_unless ?_ hset⟩
  simp [or_assoc, imp_iff_not_or]

theorem Work.sentinelCal_setsArr (s : Work) (a : Nat) :
    s.setsArr (s.sentinelCal a) a (if s.atBoundary = true ∧ s.arrayBusy a = false ∧
        ((s.arr a).sentDue = true ∨ (s.arr a).sentCalAt + 10 ≤ s.get Obj.poweredSeconds) then
      { s.arr a with sentCalAt := s.get Obj.poweredSeconds, sentDue := false, sentCal := s.measured.1 } else s.arr a) := by
  refine (s.setsArr_self a).ite_unless ?_ (s.setsArr_setArr (s.free + 2) a _)
  simp [or_assoc, imp_iff_not_or]

/-! ## The baseline (R239) -/

/-- An array whose baseline takes the corrections in force once it is due. -/
def Arr.baselined (x : Arr) (now : Nat) : Arr :=
  match x.baseAt with
  | some n => if n ≤ now then { x with gammaBase := x.gamma, betaBase := x.beta, baseAt := none } else x
  | none => x

theorem Arr.baselined_of_due {x : Arr} {n now : Nat} (h : x.baseAt = some n) (hdue : n ≤ now) :
    x.baselined now = { x with gammaBase := x.gamma, betaBase := x.beta, baseAt := none } := by
  simp only [Arr.baselined, h, hdue, if_true]

theorem Work.baseline_setsArr (s : Work) (a : Nat) : s.setsArr (s.baseline a) a ((s.arr a).baselined (s.get Obj.poweredSeconds)) := by
  unfold Work.baseline Arr.baselined
  dsimp only
  cases (s.arr a).baseAt with
  | none => exact s.setsArr_self a
  | some n => exact (s.setsArr_setArr s.free a _).ite (s.setsArr_self a)

/-! ## Trim sets and calibration MVMs (R228, R236) -/

/-- A due trim set none of whose points is bad is applied at the array's temperature. -/
theorem Work.trimApply_of_due {s : Work} {a : Nat} (hstate : (s.arr a).state ≠ 0) (hdue : (s.arr a).trimTemp = none) (hidle : s.arrayBusy a = false) :
    s.trimApply a [] = (s.setArr a { s.arr a with
      trimTemp := some (s.arrayTemp a)
      trimBad := ((s.arr a).trimBad ++ []).eraseDups }).add Obj.trimApplications 1 := by
  unfold Work.trimApply
  extract_lets x t due bad
  have hdue' : due = true := by simp only [due, x, hdue]
  have happlies : ¬ (decide (x.state = 0) || !due || s.arrayBusy a) = true := by simp [hdue', hidle, x, hstate]
  exact (if_neg happlies).trans (if_pos rfl)

/-- What a calibration MVM samples: the running sums, and how many of its codes saturated (R235, R236). -/
def Work.calibrationSample (s : Work) (a : Nat) (s1 sa : Int) (ref : List Int) : Drift × Nat :=
  (s.arr a).drift.sample (s.smallestCode (s.facetOfArray a)) ref s1 sa

/-- A calibration MVM of an array that is due for one is a phase. -/
theorem Work.calibrationMvm_of_due {s : Work} {a : Nat} (s1 sa : Int) (ref : List Int) (hstate : (s.arr a).state ≠ 0) (hboundary : s.atBoundary = true)
    (hdue : (s.arr a).lastForward + 86400 ≤ s.get Obj.poweredSeconds) :
    s.calibrationMvm a s1 sa ref = ((s.setArr a { s.arr a with
      drift := (s.calibrationSample a s1 sa ref).1
      lastForward := s.get Obj.poweredSeconds }).add Obj.phases 1).addWhen ((s.calibrationSample a s1 sa ref).2 ≠ 0) Obj.refSaturated
        (s.calibrationSample a s1 sa ref).2 := by
  have hruns : ¬ ((s.arr a).state = 0 ∨ (!s.atBoundary) = true ∨ s.get Obj.poweredSeconds < (s.arr a).lastForward + 86400) := by
    simp only [hstate, hboundary, Bool.not_true, Bool.false_eq_true, false_or]
    omega
  exact (if_neg hruns).trans (ite_not ..).symm

/-! ## A powered second (R238, R240, R244) -/

/-- The clocks of the tests and of the sweep, and the times that shadows wait, are no objects. -/
theorem Work.get_of_clocks (s : Work) (rel : RelState) (res : ResState) (k : Key) : ({ s with rel := rel, res := res } : Work).get k = s.get k := rfl

theorem Work.ageArrays_get (s : Work) (hours : Nat → Rat) (k : Key) : (s.ageArrays hours).get k = s.get k := rfl

/-- The objects of the equivalent age. -/
theorem Work.setDieAge_get (s : Work) (age : Rat) {k : Key} (hequiv : k ≠ Obj.equivHours85) (hused : k ≠ Obj.lifeUsed) :
    (s.setDieAge age).get k = s.get k := by
  unfold Work.setDieAge
  dsimp only
  rw [Work.set_get, if_neg hused.symm, Work.set_get, if_neg hequiv.symm]
  rfl

/-- The clock of the cores' tests moves nothing but their due times. -/
theorem Work.testClock_eq (s : Work) : ∃ tests, s.testClock = { s with rel := { s.rel with tests := tests } } := by
  unfold Work.testClock
  split
  · exact ⟨_, rfl⟩
  · exact ⟨_, rfl⟩

/-- The work of a powered second before it evaluates the refreshes: its counts, the ages, and the clocks of the tests and the sweep. -/
theorem Work.ageTick_evaluates (s : Work) : ∃ u : Work, u.schedulesRefresh s.ageTick ∧ u.writes = s.writes ∧
    u.rel.sweepDueS = s.rel.sweepDueS - 1 ∧
    ∀ k, k = Obj.poweredSeconds ∨ k = Obj.sinceStampMs → u.get k = ((s.add Obj.poweredSeconds 1).add Obj.sinceStampMs 1000).get k := by
  unfold Work.ageTick
  extract_lets counted stamped inState outOfTrim temps aged hot dieAged clocked shadows rel res ticked
  obtain ⟨tests, htests⟩ := dieAged.testClock_eq
  have hclocked : clocked = { dieAged with rel := { dieAged.rel with tests := tests } } := htests
  refine ⟨ticked, (Work.schedulesRefresh.refl ticked).foldl_evaluateRefresh _, ?_, ?_, fun k hk => ?_⟩
  · change clocked.writes = s.writes
    rw [hclocked]
    rfl
  · change clocked.rel.sweepDueS - 1 = s.rel.sweepDueS - 1
    rw [hclocked]
    rfl
  · have hother : k ≠ Obj.equivHours85 ∧ k ≠ Obj.lifeUsed ∧ k ≠ Obj.outOfTrimRangeMs ∧ ∀ n, k ≠ Obj.stateSeconds n := by
      obtain rfl | rfl := hk <;> simp
    obtain ⟨hequiv, hused, htrim, hstate⟩ := hother
    calc ticked.get k
      _ = clocked.get k := clocked.get_of_clocks rel res k
      _ = dieAged.get k := by rw [hclocked]; exact dieAged.get_of_clocks _ _ k
      _ = aged.get k := Work.setDieAge_get _ _ hequiv hused
      _ = outOfTrim.get k := outOfTrim.ageArrays_get _ k
      _ = inState.get k := (Work.add_get _ _ _ _).trans (if_neg htrim.symm)
      _ = stamped.get k := (Work.add_get _ _ _ _).trans (if_neg (hstate _).symm)

/-! ## The histogram (R247) -/

theorem toLE_length (n v : Nat) : (toLE n v).length = n := by
  induction n generalizing v with
  | zero => rfl
  | succ n ih => exact congrArg (· + 1) (ih (v / 256))

/-- The histogram of a minute has its 80 bins of four bytes, and the next minute starts with no result. -/
theorem Work.histogramMinute_eq (s : Work) : ∃ words, words.length = 320 ∧
    s.histogramMinute = { s.setDom Obj.tempHistogram words with life := { s.life with minute := List.replicate 4 (0, 0) } } := by
  refine ⟨_, ?_, rfl⟩
  rw [List.length_flatMap]
  simp only [toLE_length, List.map_const', List.length_range]
  rfl

/-! ## The next state -/

theorem State.run_life (s : State) (f : Work → Work) : (s.run f).dev.life = (f s.work).life := by
  obtain ⟨ls, n, os, h⟩ := s.run_dev_eq f
  rw [h]

theorem State.keeps.life {s : State} {w : Work} {parts : List StatePart} {keys : Key → Prop} (h : s.keeps w parts keys)
    (hlife : StatePart.life ∈ parts) (life : LifeState) : s.keeps { w with life := life } parts keys := by
  refine ⟨fun p hp => ?_, h.2⟩
  cases p with
  | life => exact absurd hlife hp
  | _ => exact h.1 _ hp

theorem State.keeps.addWhen {s : State} {w : Work} {parts : List StatePart} {keys : Key → Prop} (h : s.keeps w parts keys) (c : Prop) [Decidable c]
    {k : Key} (hk : keys k) (n : Nat) : s.keeps (w.addWhen c k n) parts keys := by
  unfold Work.addWhen
  split
  · exact h.add hk n
  · exact h

section
variable {s : State} {a : Nat} (hexists : arrayExists a = true)
include hexists

theorem State.next_trimApply (hstate : (s.work.arr a).state ≠ 0) (hdue : (s.work.arr a).trimTemp = none) (hidle : s.work.arrayBusy a = false) :
    ∃ t, exec (.trimApply a []) s = .next t ∧ (t.work.arr a).trimTemp = some (s.work.arrayTemp a) ∧
      s.counted t Obj.trimApplications 1 ∧ s.frame t [.arrs] (fun k => k = Obj.trimApplications) := by
  have hwork := Work.trimApply_of_due hstate hdue hidle
  refine ⟨_, State.nextIf_true hexists, ?_, State.run_counted (by simp [linkCounter]) fun hlt => ?_, State.keeps.frame_silent ?_ ?_⟩
  · rw [State.run_arr (by rw [hwork]; rfl), hwork, Work.add_arr, Work.setArr_arr, if_pos rfl]
  · rw [hwork, Work.add_get, if_pos rfl]
    exact countPast_of_lt hlt
  · rw [hwork]
    exact ((s.keeps_work [.arrs] (· = Obj.trimApplications)).setArr (by simp) a _).add rfl 1
  · rw [hwork]
    rfl

theorem State.next_calibrationMvm (s1 sa : Int) (ref : List Int) (hstate : (s.work.arr a).state ≠ 0) (hboundary : s.work.atBoundary = true)
    (hdue : (s.work.arr a).lastForward + 86400 ≤ s.val Obj.poweredSeconds) :
    ∃ t, exec (.calibrationMvm a s1 sa ref) s = .next t ∧ (t.work.arr a).lastForward = s.val Obj.poweredSeconds ∧
      s.counted t Obj.phases 1 ∧ s.frame t [.arrs] (fun k => k = Obj.phases ∨ k = Obj.refSaturated) := by
  have hwork := Work.calibrationMvm_of_due s1 sa ref hstate hboundary hdue
  refine ⟨_, State.nextIf_true hexists, ?_, State.run_counted (by simp [linkCounter]) fun hlt => ?_, State.keeps.frame_silent ?_ ?_⟩
  · rw [State.run_arr (by rw [hwork, Work.addWhen_ident]; rfl), hwork, Work.addWhen_arr, Work.add_arr, Work.setArr_arr, if_pos rfl]
    rfl
  · rw [hwork, Work.addWhen_get, if_neg (fun h => absurd h.1 (by decide)), Work.add_get, if_pos rfl]
    exact countPast_of_lt hlt
  · rw [hwork]
    exact (((s.keeps_work [.arrs] (fun k => k = Obj.phases ∨ k = Obj.refSaturated)).setArr (by simp) a _).add (.inl rfl) 1).addWhen _ (.inr rfl) _
  · rw [hwork, Work.addWhen_sent]
    rfl
end

theorem State.next_ageTick (s : State) : ∃ t, exec .ageTick s = .next t ∧ s.counted t Obj.poweredSeconds 1 ∧ s.counted t Obj.sinceStampMs 1000 ∧
    t.dev.rel.sweepDueS = s.dev.rel.sweepDueS - 1 ∧ t.mem = s.mem := by
  obtain ⟨u, heval, hwrites, hsweep, hget⟩ := s.work.ageTick_evaluates
  refine ⟨_, rfl, State.run_counted (by simp [linkCounter]) fun hlt => ?_, State.run_counted (by simp [linkCounter]) fun hlt => ?_, ?_,
    State.run_mem_same _ _ (heval.writes.trans hwrites)⟩
  · rw [heval.get _ (by simp [refreshKey, attentionKey]), hget _ (.inl rfl), Work.add_get, if_neg (by decide), Work.add_get, if_pos rfl]
    exact countPast_of_lt hlt
  · rw [heval.get _ (by simp [refreshKey, attentionKey]), hget _ (.inr rfl), Work.add_get, if_pos rfl, Work.add_get, if_neg (by decide)]
    exact countPast_of_lt hlt
  · rw [State.run_rel]
    exact heval.sweepDueS.trans hsweep

theorem State.next_lifetimeSave (s : State) : ∃ t, exec .lifetimeSave s = .next t ∧ s.frame t [.life] (fun _ => False) ∧
    t.dev.life.saved.powered = s.val Obj.poweredSeconds ∧ t.dev.life.saved.sinceStamp = s.val Obj.sinceStampMs ∧
    t.dev.life.saved.dieAge = s.dev.life.dieAge ∧ t.dev.life.saved.histogram = s.domBytes Obj.tempHistogram := by
  refine ⟨_, rfl, State.keeps.frame_silent ((s.keeps_work _ _).life (by simp) _) rfl, ?_⟩
  rw [State.run_life]
  exact ⟨rfl, rfl, rfl, rfl⟩

theorem State.next_histogramMinute (s : State) : ∃ t, exec .histogramMinute s = .next t ∧ s.frame t [.life, .doms] (fun _ => False) ∧
    (t.domBytes Obj.tempHistogram).length = 320 ∧ t.dev.life.minute = [(0, 0), (0, 0), (0, 0), (0, 0)] := by
  obtain ⟨words, hlen, hwork⟩ := s.work.histogramMinute_eq
  refine ⟨_, rfl, State.keeps.frame_silent ?_ ?_, ?_, ?_⟩
  · rw [hwork]
    exact ((s.keeps_work _ _).setDom (by simp) _ words).life (by simp) _
  · rw [hwork]
    rfl
  · rw [State.run_domBytes, hwork]
    change ((s.work.setDom Obj.tempHistogram words).dom Obj.tempHistogram).bytes.length = 320
    rwa [Work.setDom_dom, if_pos rfl]
  · rw [State.run_life, hwork]
    rfl

/-- Settles O26: the upkeep of an array sets its record and counts, a powered second counts before it evaluates refreshes, and the lifetime
records are copied or begun anew. -/
theorem arrayUpkeepAndLifetimeAreKept : Obligations.ArrayUpkeepAndLifetimeAreKept := by
  unfold Obligations.ArrayUpkeepAndLifetimeAreKept
  refine ⟨fun s a hexists => ⟨?_, ?_, ?_, State.next_trimApply hexists, fun s1 sa ref => State.next_calibrationMvm hexists s1 sa ref⟩,
    fun s => ⟨s.next_ageTick, s.next_lifetimeSave, s.next_histogramMinute⟩⟩
  · obtain ⟨hframe, harr⟩ := State.run_setsArr (f := fun w => w.sentinelCal a) (s.work.sentinelCal_setsArr a)
    refine ⟨_, State.nextIf_true hexists, hframe, ?_⟩
    rw [harr, if_pos rfl]
    dsimp only
    split
    · next hdue => exact ⟨_, if_pos hdue⟩
    · next hdue => exact if_neg hdue
  · obtain ⟨rs, hlen, hset⟩ := s.work.rowCal_setsArr a
    obtain ⟨hframe, harr⟩ := State.run_setsArr (f := fun w => w.rowCal a) hset
    refine ⟨_, State.nextIf_true hexists, hframe, ?_⟩
    rw [harr, if_pos rfl]
    split
    · exact ⟨rs, hlen, rfl⟩
    · rfl
  · obtain ⟨hframe, harr⟩ := State.run_setsArr (f := fun w => w.baseline a) (s.work.baseline_setsArr a)
    refine ⟨_, State.nextIf_true hexists, hframe, fun n hbase hdue => ?_⟩
    rw [harr, if_pos rfl, show s.work.get Obj.poweredSeconds = s.val Obj.poweredSeconds from rfl, Arr.baselined_of_due hbase hdue]
    exact ⟨rfl, rfl, rfl⟩

end Sys2Proof.Machine
end

section
/-! SUPPORT. The end of a reattach (R264), and the value of DIE that the statement about loads asks for and the model does not give. -/

namespace Sys2Proof.Machine

/-! ## A slot that becomes READY (R222, R263) -/

theorem Work.foldl_modArr_get {α : Type} (s : Work) (a : α → Nat) (f : Arr → Arr) (l : List α) (k : Key) :
    (l.foldl (fun s p => s.modArr (a p) f) s).get k = s.get k :=
  List.foldlRecOn l _ (motive := fun u : Work => u.get k = s.get k) rfl fun _ hu _ _ => hu

/-- SLOT_DIE_INDEX of a slot that becomes READY is the DIE of its load, as the load holds it. -/
theorem Work.slotReady_get_slotDieIndex (s : Work) (l : LoadRun) : (s.slotReady l).get (Obj.slotDieIndex l.slot) = l.die := by
  unfold Work.slotReady
  extract_lets n old goldenStays secs installed hd sh p pl bolt die facets edge sig owned headed paged costed cleared res kept assigned reported timed
  have howned : owned.get (Obj.slotDieIndex n) = edge.get (Obj.slotDieIndex n) := by
    unfold owned
    split
    · rfl
    · simp
  calc (timed.cmdEnd loadStartKey 3 0).get (Obj.slotDieIndex n)
    _ = timed.get (Obj.slotDieIndex n) := (Work.cmdEnd_get _ _ _ _ _).trans (if_neg (by simp [loadStartKey]))
    _ = reported.get (Obj.slotDieIndex n) := (Work.set_get _ _ _ _).trans (if_neg (by simp))
    _ = assigned.get (Obj.slotDieIndex n) := (Work.setSlotState_get _ _ _ _).trans (if_neg (by simp))
    _ = kept.get (Obj.slotDieIndex n) := Work.foldl_modArr_get _ _ _ _ _
    _ = paged.get (Obj.slotDieIndex n) := rfl
    _ = owned.get (Obj.slotDieIndex n) := (Work.set_get _ _ _ _).trans (if_neg (by simp))
    _ = die.get (Obj.slotDieIndex n) := by rw [howned]; simp [edge, facets]
    _ = l.die := by simp [die]

/-! ## REATTACH_READBACK_DONE (R264) -/

/-- A load that waits for no part and whose facets have all verified makes its slot READY. -/
theorem Work.loadSettle_of_complete {s : Work} {l : LoadRun} (hload : s.res.load = some l) (hstopping : l.stopping = none) (htodo : l.todo = [])
    (hreadback : l.readback = false) (hmode : l.mode ≠ 2) (hverified : l.arrays.all (fun p => l.verified.contains p.1) = true) :
    s.loadSettle = s.slotReady l := by
  simp only [Work.loadSettle, hload, hstopping, htodo, hreadback, hmode, hverified, Option.isSome_none, List.isEmpty_nil, Bool.not_true, Bool.or_self,
    Bool.false_eq_true, if_false, if_true]

/-- A reattach whose groups all read as DIGESTS has them goes on to the end of its load. -/
theorem Work.readbackDone_of_agrees {s : Work} {l : LoadRun} {digests : List (Nat × List Byte)} (hload : s.res.load = some l)
    (hreadback : l.readback = true) (hstopping : l.stopping = none)
    (hagrees : ∀ p ∈ s.slotArrays l.slot, digestOf (l.part 0x16) (facetCore p.1) = some (s.groupRead l.slot digests (facetCore p.1))) :
    s.readbackDone digests = ({ s with res := { s.res with load := some { l with readback := false } } } : Work).loadSettle := by
  have hgood : (((s.slotArrays l.slot).map (fun p => facetCore p.1)).eraseDups).filter (fun core =>
      digestOf (l.part 0x16) core ≠ some (s.groupRead l.slot digests core)) = [] := by
    refine List.filter_eq_nil_iff.mpr fun core hcore => ?_
    obtain ⟨p, hp, rfl⟩ := List.mem_map.mp (List.mem_eraseDups.mp hcore)
    simp [hagrees p hp]
  simp only [Work.readbackDone, hload, hreadback, hstopping, Option.isSome_none, Bool.not_true, Bool.or_self, Bool.false_eq_true, if_false, hgood,
    List.isEmpty_nil, if_true]

theorem objValue_lt (k : Key) (v : Nat) : objValue k v < 2 ^ bitsOf k := by
  unfold objValue
  split
  · assumption
  · exact Nat.mod_lt _ (Nat.two_pow_pos _)

/-- A reattach of slot 0, which no facet serves, whose DIE does not fit the object that is to hold it. -/
def wideReattach : LoadRun := { loadRunOf [] 0 0 with mode := 1, die := 2 ^ 16, todo := [], readback := true }

/-- The device at reset, but for that reattach. -/
def wideReattaching : State := { State.reset with dev := { Dev.reset with res := { Dev.reset.res with load := some wideReattach } } }

/-- Refutes O37: the reattach that agrees leaves its DIE as the load holds it, 65536 here, and no U16 object holds that. (No
LOAD_REQUEST names such a DIE: R257 refuses one of 252 and above. The clause wants it as a premise.) -/
theorem not_loadsTakeTheirPartsInTurn : ¬ Obligations.LoadsTakeTheirPartsInTurn := by
  unfold Obligations.LoadsTakeTheirPartsInTurn
  rintro ⟨-, -, hreadback⟩
  obtain ⟨-, hagrees⟩ := hreadback wideReattaching wideReattach [] rfl
  obtain ⟨hready, -, -⟩ := hagrees rfl rfl rfl (by decide)
  have hnone : wideReattaching.work.slotArrays wideReattach.slot = [] := by decide +kernel
  obtain ⟨t, hexec, -, -, -, hdie, -⟩ := hready (by simp [hnone]) rfl rfl
  have hsettles := (Work.readbackDone_of_agrees (s := wideReattaching.work) (digests := []) rfl rfl rfl (by simp [hnone])).trans
    (Work.loadSettle_of_complete rfl rfl rfl rfl (by decide) rfl)
  have hwide : t.val (Obj.slotDieIndex wideReattach.slot) = 2 ^ 16 := by
    rw [← Host.Outcome.next.inj hexec, State.run_val _ _ _ (by simp [linkCounter]), hsettles]
    exact Work.slotReady_get_slotDieIndex _ _
  have hfits := objValue_lt (Obj.slotDieIndex wideReattach.slot) wideReattach.die
  rw [← hdie, hwide, show bitsOf (Obj.slotDieIndex wideReattach.slot) = 16 by decide +kernel] at hfits
  exact absurd hfits (lt_irrefl _)

end Sys2Proof.Machine
end

section
/-! SUPPORT. Actions of CMD objects as rows: the work they start from, and how they end at once (R69, R70). -/

namespace Sys2Proof.Machine

/-! ## An action that fails as it starts -/

theorem Work.cmdFail_get (w : Work) (k : Key) (o : Origin) (res : Nat) (q : Key) :
    (w.cmdFail k o res).get q = if k = q then progressWord 4 (pathCode o.path) 0 res else w.get q := by
  obtain ⟨os, objs, starters, -, h, hget⟩ := w.cmdFail_spec k o res
  rw [h]
  exact hget q

theorem State.keeps.cmdStart {s : State} {w : Work} {parts : List StatePart} {keys : Key → Prop} {k : Key} (h : s.keeps w parts keys)
    (hdict : StatePart.dict ∈ parts) (hk : keys k) (st : Nat) (o : Origin) : s.keeps (w.cmdStart k st o) parts keys :=
  (h.set hk _).modDict hdict fun d => { d with starters := put d.starters k o }

theorem State.keeps.cmdFail {s : State} {w : Work} {parts : List StatePart} {keys : Key → Prop} {k : Key} (h : s.keeps w parts keys)
    (hdict : StatePart.dict ∈ parts) (hk : keys k) (o : Origin) (res : Nat) : s.keeps (w.cmdFail k o res) parts keys :=
  (h.cmdStart hdict hk 2 o).cmdEnd hk 4 res

theorem Work.sent_prefix_cmdFail (w : Work) (k : Key) (o : Origin) (res : Nat) : w.sent <+: (w.cmdFail k o res).sent :=
  Work.sent_prefix_cmdEnd (w.cmdStart k 2 o) k 4 res

/-! ## An action that succeeds at once -/

theorem Work.cmdDone_rest (w : Work) (k : Key) (o : Origin) :
    ∃ objs dict sent, w.cmdDone k o = { w with objs := objs, dict := dict, sent := sent } := by
  obtain ⟨os, objs, starters, -, h, -⟩ := w.cmdDone_spec k o
  exact ⟨_, _, _, h⟩

@[simp] theorem Work.cmdDone_ident (w : Work) (k : Key) (o : Origin) : (w.cmdDone k o).ident = w.ident := by
  obtain ⟨objs, dict, sent, h⟩ := w.cmdDone_rest k o
  rw [h]

@[simp] theorem Work.cmdDone_arr (w : Work) (k : Key) (o : Origin) (a : Nat) : (w.cmdDone k o).arr a = w.arr a := by
  obtain ⟨objs, dict, sent, h⟩ := w.cmdDone_rest k o
  rw [h]
  rfl

@[simp] theorem Work.cmdDone_dom (w : Work) (k : Key) (o : Origin) (q : Key) : (w.cmdDone k o).dom q = w.dom q := by
  obtain ⟨objs, dict, sent, h⟩ := w.cmdDone_rest k o
  rw [h]
  rfl

@[simp] theorem Work.cmdDone_layerCounts (w : Work) (k : Key) (o : Origin) : (w.cmdDone k o).layerCounts = w.layerCounts := by
  obtain ⟨objs, dict, sent, h⟩ := w.cmdDone_rest k o
  rw [h]

theorem State.run_cmdDone_state {s : State} {k : Key} (hk : ¬ linkCounter k) (u : Work) (o : Origin) :
    (s.run fun _ => u.cmdDone k o).cmdStateOf k = 3 := by
  rw [State.cmdStateOf, State.run_val _ _ _ hk, Work.cmdDone_get, if_pos rfl]
  exact progressWord_state (by decide)

/-! ## The work an action starts from -/

/-- The work after the WRITE of a CMD object has been answered: the state's own, but for what the answer changes (R70). -/
structure State.answeredWork (s : State) (r : Req) (k : Key) (w : Work) : Prop where
  rest : ∃ objs dict sent, w = { s.work with objs := objs, dict := dict, sent := sent }
  get : ∀ q, q ≠ Obj.requestsServed → w.get q = s.val q
  answer : s.answer 2 (seen 2 (reqAt r k.index k.sub)) 0 0 [] ∈ w.sent

section
variable {s : State} {r : Req} {k : Key} {arg : Nat} {w : Work}

/-- The row of a CMD object answers, and then starts the action. -/
theorem State.startsAt.exec_eq (h : s.startsAt r k arg) (hreset : k ≠ Obj.deviceReset) {c : Instr} (hc : requestRow c 2 (reqAt r k.index k.sub)) :
    ∃ w, s.answeredWork r k w ∧ exec c s = .next (s.run fun _ => w.startAction k arg r.origin) := by
  obtain ⟨ws, p, f, hexec⟩ := (State.starts.takes h).exec_eq (by decide) hc
  rw [State.starts.serveOp_eq h hreset ws p f] at hexec
  obtain ⟨objs, windows, os, hresponse⟩ := (s.work.atTurn ws p f).respondFrom_eq s.work.ownDevice 2 (seen 2 (reqAt r k.index k.sub)) 0 0 []
  refine ⟨_, ⟨⟨objs, _, os, hresponse⟩, fun q hq => ?_, State.answer_mem_respond rfl⟩, hexec⟩
  exact (Work.respond_get_of_ok _ _ _ _ _ _).trans (if_neg hq.symm)

/-- The argument of an action that starts is within its row's range. -/
theorem State.startsAt.arg_le {m : Nat} (h : s.startsAt r k arg) (hmax : (findRow k.index k.sub).map (·.max) = some m) : arg ≤ m := by
  obtain ⟨⟨row, hgrants, -, -, harg⟩, -⟩ := h
  obtain ⟨hrow, -, -⟩ := Work.lookup_row hgrants.object
  rw [seen_index, seen_sub] at hrow
  change findRow k.index k.sub = some row at hrow
  have hm : row.max = m := by simpa [hrow] using hmax
  simp only [Work.argOk, Bool.and_eq_true, decide_eq_true_eq] at harg
  exact hm ▸ harg.1.2

/-- What the argument of an action that starts meets besides its row's range. -/
theorem State.startsAt.argOk (h : s.startsAt r k arg) : ∃ row, s.work.argOk row k arg = true := by
  obtain ⟨⟨row, -, -, -, harg⟩, -⟩ := h
  exact ⟨row, harg⟩

namespace State.answeredWork

section
variable (h : s.answeredWork r k w)
include h

theorem keeps {parts : List StatePart} {keys : Key → Prop} (hdict : StatePart.dict ∈ parts) (hserved : keys Obj.requestsServed) :
    s.keeps w parts keys := by
  obtain ⟨⟨objs, dict, sent, hw⟩, hget, -⟩ := h
  refine ⟨fun p hp => ?_, fun q hq => hget q (by rintro rfl; exact hq hserved)⟩
  rw [hw]
  cases p with
  | dict => exact absurd hdict hp
  | _ => rfl

theorem ident : w.ident = s.ident := by
  obtain ⟨⟨objs, dict, sent, hw⟩, -, -⟩ := h
  rw [hw]
  rfl

/-- Answering changes no part but the dictionary's. -/
theorem same (p : StatePart) (hp : p ≠ .dict) : s.same (s.worked fun _ => w) p :=
  (h.keeps (parts := [.dict]) (keys := fun _ => True) (by simp) trivial).1 p (by simpa using hp)

/-- What the action sends follows the answer. -/
theorem accepted {g : Work → Work} (hsent : w.sent <+: (g s.work).sent) : s.acceptedAt (s.run g) r k :=
  State.mem_drop_run_out (hsent.subset h.answer)

/-- An action that fails at once changes nothing but its own object. -/
theorem run_cmdFail (hk : ¬ linkCounter k) (o : Origin) {res : Nat} (hres : res < 65536) :
    s.commandFails (s.run fun _ => w.cmdFail k o res) r k res := by
  have hval : (s.run fun _ => w.cmdFail k o res).val k = progressWord 4 (pathCode o.path) 0 res := by
    rw [State.run_val _ _ _ hk, Work.cmdFail_get, if_pos rfl]
  refine ⟨h.accepted (Work.sent_prefix_cmdFail w k o res), ?_, ?_, ?_⟩
  · rw [State.cmdStateOf, hval]
    exact progressWord_state (by decide)
  · rw [State.cmdResultOf, hval]
    exact progressWord_result (by decide) (pathCode_lt _) (by decide) hres
  · exact ((h.keeps (by simp) (.inr (.inl rfl))).cmdFail (by simp) (.inl rfl) o res).frame (by simp) fun _ hq => .inr (.inr hq)

/-- An action that succeeds at once has changed its own object and what it did before it ended. -/
theorem run_cmdDone (hk : ¬ linkCounter k) {u : Work} (o : Origin) {parts : List StatePart} {keys : Key → Prop}
    (hkeeps : s.keeps u ([.dict, .links] ++ parts) (fun x => x = k ∨ answerKey x ∨ keys x)) (hsent : w.sent <+: u.sent) :
    s.commanded (s.run fun _ => u.cmdDone k o) r k parts keys :=
  ⟨h.accepted (hsent.trans (Work.sent_prefix_cmdDone u k o)), State.run_cmdDone_state hk u o,
    (hkeeps.cmdDone (by simp) (.inl rfl) o).frame (by simp) fun _ hq => .inr (.inl (.inr hq))⟩
end
end State.answeredWork
end

end Sys2Proof.Machine
end

section
/-! SUPPORT. The commands of residency: what a release frees, a drain that begins, and refreshes, snapshots and counts on request
(R112, R232, R240, R265, R266). -/

namespace Sys2Proof.Machine

/-! ## A release (R265, R268) -/

/-- The value at a key of a list whose values have been changed one by one: that of a key it does not hold, or a changed one. -/
theorem look_map_eq_or {α : Type} (d : α) (l : List (Nat × α)) (f : Nat × α → α) (k : Nat) :
    look d (l.map fun p => (p.1, f p)) k = d ∨ ∃ x, look d (l.map fun p => (p.1, f p)) k = f (k, x) := by
  induction l with
  | nil => exact .inl rfl
  | cons p l ih =>
    obtain ⟨a, x⟩ := p
    by_cases ha : a = k
    · exact .inr ⟨x, by simp [look, ha]⟩
    · simpa [look, ha] using ih

/-- No array is of a slot whose arrays have been freed. -/
theorem Work.freeFacets_arr_slot (s : Work) {n : Nat} (hn : n ≠ 0xFF) (a : Nat) : ((s.freeFacets n).arr a).slot ≠ n := by
  unfold Work.arr Work.freeFacets
  dsimp only
  obtain h | ⟨x, h⟩ := look_map_eq_or (Arr.manufactured s.ident a) s.arrs _ a
  · rw [h]
    exact hn.symm
  · rw [h]
    dsimp only
    split_ifs with hslot
    · exact hslot
    all_goals exact hn.symm

/-- A slot's state is an object, which a worker of a group reports. -/
theorem Work.setSlotState_rest (s : Work) (n st : Nat) : ∃ objs os, s.setSlotState n st = { s with objs := objs, sent := s.sent ++ os } := by
  unfold Work.setSlotState
  dsimp only
  split
  · exact ⟨_, _, rfl⟩
  · exact ⟨_, [], by rw [List.append_nil]; rfl⟩

section
variable (s : Work) (n : Nat)

@[simp] theorem Work.clearSlotRecords_ident : (s.clearSlotRecords n).ident = s.ident := by simp [Work.clearSlotRecords]
@[simp] theorem Work.clearSlotRecords_arrs : (s.clearSlotRecords n).arrs = s.arrs := by simp [Work.clearSlotRecords]
@[simp] theorem Work.clearSlotRecords_sent : (s.clearSlotRecords n).sent = s.sent := by simp [Work.clearSlotRecords]
@[simp] theorem Work.clearSlotRecords_programming : (s.clearSlotRecords n).programming = s.programming := by simp [Work.clearSlotRecords]

@[simp] theorem Work.freeFacets_ident : (s.freeFacets n).ident = s.ident := rfl
@[simp] theorem Work.freeFacets_sent : (s.freeFacets n).sent = s.sent := rfl
@[simp] theorem Work.freeFacets_programming : (s.freeFacets n).programming = s.programming := rfl
end

/-- A release leaves the arrays as freeing the slot's does, and what it sends follows what had been sent. -/
theorem Work.releaseSlot_spec (s : Work) (n : Nat) :
    (s.releaseSlot n).ident = s.ident ∧ (s.releaseSlot n).arrs = (s.freeFacets n).arrs ∧ s.sent <+: (s.releaseSlot n).sent := by
  unfold Work.releaseSlot
  extract_lets freed vars step res cleared
  obtain ⟨objs, os, h⟩ := cleared.setSlotState_rest n 0
  rw [h]
  refine ⟨?_, ?_, ?_⟩ <;> simp [cleared, vars, freed]

theorem Work.releaseSlot_arr_slot (s : Work) {n : Nat} (hn : n ≠ 0xFF) (a : Nat) : ((s.releaseSlot n).arr a).slot ≠ n := by
  obtain ⟨hident, harrs, -⟩ := s.releaseSlot_spec n
  have harr : (s.releaseSlot n).arr a = (s.freeFacets n).arr a := by
    rw [Work.arr, Work.arr, hident, harrs]
    rfl
  rw [harr]
  exact s.freeFacets_arr_slot hn a

section
variable {s : State} {r : Req}

theorem State.startsAt.slotRelease_of_resident_or_failed {n : Nat} (h : s.startsAt r Obj.slotRelease n)
    (hstate : s.val (Obj.slotState n) = 5 ∨ s.val (Obj.slotState n) = 6) :
    ∃ t, exec (.slotRelease r) s = .next t ∧ s.acceptedAt t r Obj.slotRelease ∧ t.cmdStateOf Obj.slotRelease = 3 ∧ t.val (Obj.slotState n) = 0 ∧
      ∀ a, (t.work.arr a).slot ≠ n := by
  have hn : n ≤ 3 := h.arg_le (by decide +kernel)
  obtain ⟨w, hw, hexec⟩ := h.exec_eq (c := .slotRelease r) (by decide) fun _ => rfl
  obtain ⟨hident, -, hsent⟩ := w.releaseSlot_spec n
  have hstate' : w.get (Obj.slotState n) = 5 ∨ w.get (Obj.slotState n) = 6 := by rwa [hw.get _ (by simp)]
  have hact : w.startAction Obj.slotRelease n r.origin = (w.releaseSlot n).cmdDone Obj.slotRelease r.origin := if_pos hstate'
  rw [hact] at hexec
  refine ⟨_, hexec, hw.accepted (hsent.trans (Work.sent_prefix_cmdDone _ _ _)), State.run_cmdDone_state (by simp [linkCounter]) _ _, ?_, fun a => ?_⟩
  · rw [State.run_val _ _ _ (by simp [linkCounter]), Work.cmdDone_get, if_neg (by simp), Work.releaseSlot_get_slotState]
  · rw [State.run_arr (by rw [Work.cmdDone_ident, hident, hw.ident]), Work.cmdDone_arr]
    exact w.releaseSlot_arr_slot (by omega) a

theorem State.startsAt.slotRelease_of_other_state {n : Nat} (h : s.startsAt r Obj.slotRelease n) (h5 : s.val (Obj.slotState n) ≠ 5)
    (h6 : s.val (Obj.slotState n) ≠ 6) : ∃ t, exec (.slotRelease r) s = .next t ∧ s.commandFails t r Obj.slotRelease 0x37 := by
  obtain ⟨w, hw, hexec⟩ := h.exec_eq (c := .slotRelease r) (by decide) fun _ => rfl
  have hact : w.startAction Obj.slotRelease n r.origin = w.cmdFail Obj.slotRelease r.origin 0x37 :=
    if_neg (by rw [hw.get _ (by simp)]; exact not_or.mpr ⟨h5, h6⟩)
  rw [hact] at hexec
  exact ⟨_, hexec, hw.run_cmdFail (by simp [linkCounter]) _ (by decide)⟩

end

/-! ## REPLACE_SLOT (R266) -/

theorem Work.replaceSlot_of_not_manager {w : Work} (arg : Nat) (o : Origin) (hfault : w.rel.deviceFault = none) (hrole : w.get Obj.role ≠ 1) :
    w.replaceSlot arg o = w.cmdFail Obj.replaceSlot o 0x3A := by
  have hmanager : w.isManager = false := decide_eq_false hrole
  simp only [Work.replaceSlot, hfault, hmanager, Option.isSome_none, Bool.not_false, Bool.false_eq_true, if_false, if_true]

/-- At the manager, during a step, the drain of a slot that workers hold READY waits for the next boundary. -/
theorem Work.replaceSlot_of_ready {w : Work} {arg : Nat} (o : Origin) (hfault : w.rel.deviceFault = none) (hrole : w.get Obj.role = 1)
    (hplan : w.serve.plan ≠ none) (hdrain : w.drainOf (field arg 1 0) = none)
    (hheld : ∃ h ∈ w.serve.held, h.slot = field arg 1 0 ∧ h.state = 3)
    (hready : ∀ h ∈ w.serve.held, h.slot = field arg 1 0 → h.state = 0 ∨ h.state = 3 ∨ h.state = 6) :
    w.replaceSlot arg o = (w.cmdStart Obj.replaceSlot 2 o).modServe (fun x => { x with
      drains := x.drains ++ [⟨field arg 1 0, field arg 3 2, w.now + 1000 * field arg 31 8, false, false, []⟩] }) := by
  have hmanager : w.isManager = true := decide_eq_true hrole
  unfold Work.replaceSlot
  extract_lets slot kind key hs drain
  have hstarts : ¬ (hs.isEmpty = true ∨ hs.any (fun (h : SlotHeld) => decide (h.state ≠ 3)) = true ∨ (w.drainOf slot).isSome = true) := by
    have hnone : w.drainOf slot = none := hdrain
    obtain ⟨h, hmem, hslot, hstate⟩ := hheld
    have hin : h ∈ hs := by simp [hs, hmem, hslot, hstate, slot]
    have hall : ∀ x ∈ hs, x.state = 3 := by
      intro x hx
      simp only [hs, List.mem_filter, Bool.and_eq_true, decide_eq_true_eq] at hx
      obtain ⟨hxmem, ⟨hxslot, h0⟩, h6⟩ := hx
      exact ((hready x hxmem hxslot).resolve_left h0).resolve_right h6
    simpa [hnone, List.isEmpty_iff] using ⟨List.ne_nil_of_mem hin, hall⟩
  rw [if_neg (by simp [hfault]), if_neg (by simp [hmanager]), if_neg hstarts]
  refine if_neg ?_
  change ¬ ((_ && w.serve.plan.isNone) = true)
  simp [hplan]

section
variable {s : State} {r : Req} {arg : Nat} (h : s.startsAt r Obj.replaceSlot arg) (hfault : s.dev.rel.deviceFault = none)
include h hfault

theorem State.startsAt.replaceSlot_of_not_manager (hrole : s.val Obj.role ≠ 1) :
    ∃ t, exec (.replaceSlot r) s = .next t ∧ s.commandFails t r Obj.replaceSlot 0x3A := by
  obtain ⟨w, hw, hexec⟩ := h.exec_eq (c := .replaceSlot r) (by decide) fun _ => rfl
  have hact : w.startAction Obj.replaceSlot arg r.origin = w.cmdFail Obj.replaceSlot r.origin 0x3A :=
    Work.replaceSlot_of_not_manager arg r.origin ((congrArg RelState.deviceFault (hw.same .rel (by decide))).trans hfault)
      (by rwa [hw.get _ (by decide)])
  rw [hact] at hexec
  exact ⟨_, hexec, hw.run_cmdFail (by simp [linkCounter]) _ (by decide)⟩

theorem State.startsAt.replaceSlot_of_ready (hrole : s.val Obj.role = 1) (hplan : s.dev.serve.plan ≠ none)
    (hdrain : s.work.drainOf (field arg 1 0) = none) (hheld : ∃ h ∈ s.dev.serve.held, h.slot = field arg 1 0 ∧ h.state = 3)
    (hready : ∀ h ∈ s.dev.serve.held, h.slot = field arg 1 0 → h.state = 0 ∨ h.state = 3 ∨ h.state = 6) :
    ∃ t, exec (.replaceSlot r) s = .next t ∧ s.acceptedAt t r Obj.replaceSlot ∧ t.cmdStateOf Obj.replaceSlot = 2 ∧
      t.dev.serve.drains = s.dev.serve.drains ++ [⟨field arg 1 0, field arg 3 2, s.dev.now + 1000 * field arg 31 8, false, false, []⟩] ∧
      s.frame t [.dict, .links, .serve] (fun x => x = Obj.replaceSlot ∨ answerKey x) := by
  obtain ⟨w, hw, hexec⟩ := h.exec_eq (c := .replaceSlot r) (by decide) fun _ => rfl
  have hserve : w.serve = s.dev.serve := hw.same .serve (by decide)
  have hnow : w.now = s.dev.now := hw.same .now (by decide)
  have hdrain' : w.drainOf (field arg 1 0) = none := by rw [Work.drainOf, hserve]; exact hdrain
  have hact : w.startAction Obj.replaceSlot arg r.origin = _ :=
    Work.replaceSlot_of_ready r.origin ((congrArg RelState.deviceFault (hw.same .rel (by decide))).trans hfault) ((hw.get _ (by decide)).trans hrole)
      (hserve ▸ hplan) hdrain' (hserve ▸ hheld) (hserve ▸ hready)
  rw [hact] at hexec
  refine ⟨_, hexec, hw.accepted List.prefix_rfl, ?_, ?_, ?_⟩
  · rw [State.cmdStateOf, State.run_val _ _ _ (by simp [linkCounter])]
    exact (congrArg (field · 3 0) ((Work.set_get _ _ _ _).trans (if_pos rfl))).trans (progressWord_state (by decide))
  · rw [State.run_serve, ← hnow, ← hserve]
    rfl
  · exact State.keeps.frame (((hw.keeps (by simp) (.inr (.inl rfl))).cmdStart (by simp) (.inl rfl) 2 r.origin).modServe (by simp) _) (by simp)
      fun _ hk => .inr (.inr hk)
end

/-! ## REFRESH_FACET (R240, R241) -/

theorem Work.log_rest (s : Work) (severity code unitKind slot unit tenant detail : Nat) : ∃ rel objs os,
    s.log severity code unitKind slot unit tenant detail = { s with rel := rel, objs := objs, sent := s.sent ++ os } := by
  obtain ⟨rel, objs, os, -, h, -⟩ := s.log_spec severity code unitKind slot unit tenant detail
  exact ⟨rel, objs, os, h⟩

theorem Work.log_get (s : Work) (severity code unitKind slot unit tenant detail : Nat) {k : Key} (hk : ¬ attentionKey k) :
    (s.log severity code unitKind slot unit tenant detail).get k = s.get k := by
  obtain ⟨rel, objs, os, -, h, -, hget⟩ := s.log_spec severity code unitKind slot unit tenant detail
  rw [h]
  exact hget k hk

@[simp] theorem Work.log_arr (s : Work) (severity code unitKind slot unit tenant detail a : Nat) :
    (s.log severity code unitKind slot unit tenant detail).arr a = s.arr a := by
  obtain ⟨rel, objs, os, h⟩ := s.log_rest severity code unitKind slot unit tenant detail
  rw [h]
  rfl

/-- That a queued refresh is blocked is noted in the facet's record, counted and logged (R241). -/
theorem Work.noteBlocked_rest (s : Work) (f : Nat) : ∃ arrs rel objs os,
    s.noteBlocked f = { s with arrs := arrs, rel := rel, objs := objs, sent := s.sent ++ os } := by
  unfold Work.noteBlocked
  extract_lets x
  split
  · obtain ⟨rel, objs, os, h⟩ := ((s.setArr f { x with blockedAt := some (s.get Obj.poweredSeconds) }).add Obj.refreshBlocked 1).log_rest 0 9 1 x.slot f
      0xFFFF x.queued
    exact ⟨_, rel, objs, os, h⟩
  · exact ⟨_, _, _, [], by rw [List.append_nil]⟩

theorem Work.noteBlocked_arr (s : Work) (f a : Nat) : ∃ b, (s.noteBlocked f).arr a = { s.arr a with blockedAt := b } := by
  unfold Work.noteBlocked
  extract_lets x
  split
  · rw [Work.log_arr, Work.add_arr, Work.setArr_arr]
    split
    · next hf =>
      subst hf
      exact ⟨_, rfl⟩
    · exact ⟨_, rfl⟩
  · exact ⟨_, rfl⟩

theorem Work.noteBlocked_get (s : Work) (f : Nat) {k : Key} (hk : k ≠ Obj.refreshBlocked) (hatt : ¬ attentionKey k) :
    (s.noteBlocked f).get k = s.get k := by
  unfold Work.noteBlocked
  extract_lets x
  split
  · rw [Work.log_get _ _ _ _ _ _ _ _ hatt, Work.add_get, if_neg hk.symm]
    rfl
  · rfl

/-- A refresh of a facet in service for which none is queued is queued, counted, and noted if it is blocked (R240). -/
theorem Work.queueRefresh_of_idle {s : Work} {f : Nat} (reason : Nat) (hholds : (s.arr f).holds = true) (hqueued : (s.arr f).queued = 0) :
    s.queueRefresh f reason =
      ((s.setArr f { s.arr f with queued := reason, blockedAt := none }).add Obj.refreshesScheduled 1).noteBlocked f := by
  simp only [Work.queueRefresh, hholds, hqueued, Bool.not_true, Bool.false_eq_true, if_false, if_true]

theorem State.startsAt.refreshFacet {s : State} {r : Req} {f : Nat} (h : s.startsAt r Obj.refreshFacet f) (hqueued : (s.work.arr f).queued = 0) :
    ∃ t, exec (.refreshFacet r) s = .next t ∧ s.acceptedAt t r Obj.refreshFacet ∧ t.cmdStateOf Obj.refreshFacet = 3 ∧ (t.work.arr f).queued = 4 ∧
      s.counted t Obj.refreshesScheduled 1 := by
  obtain ⟨row, harg⟩ := h.argOk
  obtain ⟨w, hw, hexec⟩ := h.exec_eq (c := .refreshFacet r) (by decide) fun _ => rfl
  have harr : w.arr f = s.work.arr f := by
    have harrs : w.arrs = s.dev.arrs := hw.same .arrs (by decide)
    rw [Work.arr, harrs, hw.ident]
    rfl
  have hstate : (s.work.arr f).state = 2 := by
    simp only [Work.argOk, Bool.and_eq_true] at harg
    simpa using harg.2
  rw [← harr] at hstate hqueued
  have hact : w.startAction Obj.refreshFacet f r.origin = (_ : Work).cmdDone Obj.refreshFacet r.origin :=
    congrArg (fun u : Work => u.cmdDone Obj.refreshFacet r.origin) (Work.queueRefresh_of_idle 4 (by simp [Arr.holds, hstate]) hqueued)
  generalize hu : (w.setArr f { w.arr f with queued := 4, blockedAt := none }).add Obj.refreshesScheduled 1 = u at hact
  obtain ⟨arrs, rel, objs, os, hrest⟩ := u.noteBlocked_rest f
  obtain ⟨b, hnoted⟩ := u.noteBlocked_arr f f
  rw [hact] at hexec
  refine ⟨_, hexec, hw.accepted ?_, State.run_cmdDone_state (by simp [linkCounter]) _ _, ?_, State.run_counted (by simp [linkCounter]) fun hlt => ?_⟩
  · refine List.IsPrefix.trans ?_ (Work.sent_prefix_cmdDone _ _ _)
    rw [hrest, ← hu]
    exact List.prefix_append _ _
  · rw [State.run_arr (by rw [Work.cmdDone_ident, hrest, ← hu]; exact hw.ident), Work.cmdDone_arr, hnoted, ← hu, Work.add_arr, Work.setArr_arr,
      if_pos rfl]
  · have hscheduled : w.get Obj.refreshesScheduled = s.work.get Obj.refreshesScheduled := hw.get _ (by decide)
    rw [Work.cmdDone_get, if_neg (by decide), Work.noteBlocked_get _ _ (by decide) (by simp [attentionKey]), ← hu, Work.add_get, if_pos rfl,
      Work.setArr_get, hscheduled]
    exact countPast_of_lt hlt

/-! ## TRIM_READ and LAYER_COUNTS_CLEAR (R112, R232) -/

theorem State.startsAt.trimRead {s : State} {r : Req} {id : Nat} (h : s.startsAt r Obj.trimRead id) :
    ∃ t, exec (.trimRead r) s = .next t ∧ s.commanded t r Obj.trimRead [.doms] (fun _ => False) ∧
      (t.domBytes Obj.trimRecord).take 2 = toLE 2 id := by
  obtain ⟨w, hw, hexec⟩ := h.exec_eq (c := .trimRead r) (by decide) fun _ => rfl
  refine ⟨_, hexec, hw.run_cmdDone (u := w.trimSnapshot id) (by simp [linkCounter]) r.origin ?_ List.prefix_rfl, ?_⟩
  · exact (hw.keeps (by simp) (.inr (.inl (.inl rfl)))).setDom (by simp) _ _
  · have hdom : (w.startAction Obj.trimRead id r.origin).dom Obj.trimRecord = _ :=
      ((w.trimSnapshot id).cmdDone_dom Obj.trimRead r.origin _).trans ((Work.setDom_dom _ _ _ _).trans (if_pos rfl))
    rw [State.run_domBytes, hdom]
    exact (congrArg (List.take 2) (List.append_assoc _ _ _)).trans (List.take_left' (toLE_length 2 id))

theorem State.run_layerCounts (s : State) (f : Work → Work) : (s.run f).dev.layerCounts = (f s.work).layerCounts := by
  obtain ⟨ls, n, os, h⟩ := s.run_dev_eq f
  rw [h]

theorem State.keeps.layerCounts {s : State} {w : Work} {parts : List StatePart} {keys : Key → Prop} (h : s.keeps w parts keys)
    (hcounts : StatePart.layerCounts ∈ parts) (l : List LayerCount) : s.keeps { w with layerCounts := l } parts keys := by
  refine ⟨fun p hp => ?_, h.2⟩
  cases p with
  | layerCounts => exact absurd hcounts hp
  | _ => exact h.1 _ hp

theorem State.startsAt.layerCountsClear {s : State} {r : Req} {n : Nat} (h : s.startsAt r Obj.layerCountsClear n) :
    ∃ t, exec (.layerCountsClear r) s = .next t ∧ s.commanded t r Obj.layerCountsClear [.layerCounts] (fun _ => False) ∧
      (n = 4 → t.dev.layerCounts = []) ∧ (∀ c, c ∈ t.dev.layerCounts ↔ c ∈ s.dev.layerCounts ∧ n ≠ 4 ∧ c.slot ≠ n) := by
  obtain ⟨w, hw, hexec⟩ := h.exec_eq (c := .layerCountsClear r) (by decide) fun _ => rfl
  have hcounts : (s.run fun _ => w.startAction Obj.layerCountsClear n r.origin).dev.layerCounts =
      s.dev.layerCounts.filter (fun c => decide (n ≠ 4 ∧ c.slot ≠ n)) := by
    have hsame : w.layerCounts = s.dev.layerCounts := hw.same .layerCounts (by decide)
    rw [State.run_layerCounts, ← hsame]
    exact (w.layerClear n).cmdDone_layerCounts Obj.layerCountsClear r.origin
  refine ⟨_, hexec, hw.run_cmdDone (u := w.layerClear n) (by simp [linkCounter]) r.origin ?_ List.prefix_rfl, fun hall => ?_, fun c => ?_⟩
  · exact (hw.keeps (by simp) (.inr (.inl (.inl rfl)))).layerCounts (by simp) _
  · rw [hcounts]
    simp [hall]
  · rw [hcounts]
    simp

/-- Settles O39: each command is the answer of its WRITE and then its action's equation. -/
theorem residencyCommandsAct : Obligations.ResidencyCommandsAct := by
  unfold Obligations.ResidencyCommandsAct
  refine ⟨fun s r n h => ⟨h.slotRelease_of_resident_or_failed, h.slotRelease_of_other_state⟩,
    fun s r arg h hfault => ⟨h.replaceSlot_of_not_manager hfault, ?_⟩,
    fun s r f h => h.refreshFacet, fun s r f h => h.trimRead, fun s r n h => h.layerCountsClear⟩
  exact fun hrole hplan hdrain => h.replaceSlot_of_ready hfault hrole hplan hdrain

end Sys2Proof.Machine
end

section
/-! SUPPORT. Programming arrays: what an erase changes, how a facet of a load starts, and how the end of its programming is taken
(R243, R253, R255, R261, R262). -/

namespace Sys2Proof.Machine

/-! ## An erase (R243, R253, R255) -/

@[simp] theorem Work.modArr_arr (s : Work) (a : Nat) (g : Arr → Arr) (b : Nat) : (s.modArr a g).arr b = if a = b then g (s.arr a) else s.arr b :=
  s.setArr_arr a _ b

section
variable (s : Work) (a : Nat)

/-- An erase changes the array's record, its counts, and the log that warns of wear. -/
theorem Work.erase_rest : ∃ arrs rel objs os, s.erase a = { s with arrs := arrs, rel := rel, objs := objs, sent := s.sent ++ os } := by
  unfold Work.erase
  extract_lets x n warn cells erased counted raised
  split
  · obtain ⟨rel, objs, os, h⟩ := raised.log_rest 0 8 (arrayKind a) x.slot (arrayUnit a) 0xFFFF n
    exact ⟨_, rel, objs, os, h⟩
  · exact ⟨_, _, _, [], by rw [List.append_nil]; rfl⟩

theorem Work.erase_arr_programs : ((s.erase a).arr a).programs = (s.arr a).programs + 1 := by
  unfold Work.erase
  extract_lets x n warn cells erased counted raised
  have hraised : (raised.arr a).programs = n := by
    change (counted.arr a).programs = n
    rw [Work.add_arr, Work.setArr_arr, if_pos rfl]
  split
  · rw [Work.log_arr, hraised]
  · exact hraised

theorem Work.erase_get {k : Key} (hatt : ¬ attentionKey k) (hwear : k ≠ Obj.wearMax) : (s.erase a).get k = (s.add Obj.programsTotal 1).get k := by
  unfold Work.erase
  extract_lets x n warn cells erased counted raised
  have hraised : raised.get k = (s.add Obj.programsTotal 1).get k := (Work.raise_get _ _ _ _).trans (if_neg hwear.symm)
  split
  · rw [Work.log_get _ _ _ _ _ _ _ _ hatt, hraised]
  · exact hraised
end

/-! ## The start of an array (R253, R261) -/

/-- What the start of an array counts and what it adds to those being programmed; the second work is the first with the array started. -/
structure Work.startsProgram (s t : Work) (a : Nat) : Prop where
  ident : t.ident = s.ident
  programming : t.programming = s.programming ++ [a]
  programs : (t.arr a).programs = (s.arr a).programs + 1
  counted : s.counted t Obj.programsTotal 1

/-- The second work differs from the first in nothing that the start of an array counts. -/
structure Work.leavesPrograms (s t : Work) : Prop where
  ident : t.ident = s.ident
  programming : t.programming = s.programming
  programs : ∀ a, (t.arr a).programs = (s.arr a).programs
  total : t.get Obj.programsTotal = s.get Obj.programsTotal

theorem Work.leavesPrograms.startsProgram {s t u : Work} {a : Nat} (h : s.leavesPrograms t) (g : t.startsProgram u a) : s.startsProgram u a :=
  ⟨g.ident.trans h.ident, by rw [g.programming, h.programming], by rw [g.programs, h.programs], by
    have := g.counted
    rwa [Work.counted, h.total] at this⟩

namespace Work.leavesPrograms

variable {s t : Work} (h : s.leavesPrograms t)
include h

theorem modArr (a : Nat) {g : Arr → Arr} (hg : (g (t.arr a)).programs = (t.arr a).programs) : s.leavesPrograms (t.modArr a g) := by
  refine ⟨h.ident, h.programming, fun b => ?_, h.total⟩
  rw [Work.modArr_arr, ← h.programs b]
  split
  · next hb => rw [hg, hb]
  · rfl

theorem setSlotState (n st : Nat) : s.leavesPrograms (t.setSlotState n st) := by
  obtain ⟨objs, os, hset⟩ := t.setSlotState_rest n st
  refine ⟨?_, ?_, fun a => ?_, (Work.setSlotState_get _ _ _ _).trans ((if_neg (by simp)).trans h.total)⟩ <;> rw [hset]
  · exact h.ident
  · exact h.programming
  · exact h.programs a

theorem ite {c : Prop} [Decidable c] {u : Work} (hu : s.leavesPrograms u) : s.leavesPrograms (if c then t else u) := by
  split
  · exact h
  · exact hu
end Work.leavesPrograms

theorem Work.beginProgram_startsProgram (s : Work) (a : Nat) (record fine : List Byte) : s.startsProgram (s.beginProgram a record fine) a := by
  let filled := s.modArr a fun x => { x with cells := ⟨false, record, fine, []⟩ }
  obtain ⟨arrs, rel, objs, os, h⟩ := filled.erase_rest a
  refine ⟨?_, ?_, ?_, fun hlt => ?_⟩
  · change (filled.erase a).ident = s.ident
    rw [h]
    rfl
  · change (filled.erase a).programming ++ [a] = s.programming ++ [a]
    rw [h]
    rfl
  · change ((filled.erase a).arr a).programs = _
    rw [filled.erase_arr_programs, Work.modArr_arr, if_pos rfl]
  · change (filled.erase a).get Obj.programsTotal = _
    rw [filled.erase_get a (by simp [attentionKey]) (by decide), Work.add_get, if_pos rfl]
    exact countPast_of_lt hlt

/-! ## FACET_PROGRAM_START for a facet of a load (R261, R262) -/

section
variable (s : Work) (f : Nat)

@[simp] theorem Work.noteBlocked_ident : (s.noteBlocked f).ident = s.ident := by
  obtain ⟨arrs, rel, objs, os, h⟩ := s.noteBlocked_rest f
  rw [h]

@[simp] theorem Work.noteBlocked_res : (s.noteBlocked f).res = s.res := by
  obtain ⟨arrs, rel, objs, os, h⟩ := s.noteBlocked_rest f
  rw [h]

@[simp] theorem Work.noteBlocked_programming : (s.noteBlocked f).programming = s.programming := by
  obtain ⟨arrs, rel, objs, os, h⟩ := s.noteBlocked_rest f
  rw [h]

@[simp] theorem Work.noteBlocked_slot (n : Nat) : (s.noteBlocked f).slot n = s.slot n := by
  obtain ⟨arrs, rel, objs, os, h⟩ := s.noteBlocked_rest f
  rw [h]
  rfl

@[simp] theorem Work.noteBlocked_deepening : (s.noteBlocked f).deepening = s.deepening := by
  have hboot : (s.noteBlocked f).boot = s.boot := by
    obtain ⟨arrs, rel, objs, os, h⟩ := s.noteBlocked_rest f
    rw [h]
  rw [Work.deepening, Work.deepening, hboot, s.noteBlocked_get f (by decide) (by simp [attentionKey])]

@[simp] theorem Work.noteBlocked_arr_programs (a : Nat) : ((s.noteBlocked f).arr a).programs = (s.arr a).programs := by
  obtain ⟨b, h⟩ := s.noteBlocked_arr f a
  rw [h]

@[simp] theorem Work.noteBlocked_arr_image (a : Nat) : ((s.noteBlocked f).arr a).image = (s.arr a).image := by
  obtain ⟨b, h⟩ := s.noteBlocked_arr f a
  rw [h]

@[simp] theorem Work.noteBlocked_loadRecord (l : LoadRun) (a : Nat) : (s.noteBlocked f).loadRecord l a = s.loadRecord l a := by
  obtain ⟨b, h⟩ := s.noteBlocked_arr f a
  rw [Work.loadRecord, Work.loadGolden, h, Work.noteBlocked_slot]
  rfl

theorem Work.noteBlocked_leavesPrograms : s.leavesPrograms (s.noteBlocked f) :=
  ⟨by simp, by simp, by simp, s.noteBlocked_get f (by decide) (by simp [attentionKey])⟩
end

/-- A facet of a load starts to be programmed; the slot of a load that replaces weights is PROGRAMMING from then on. -/
def Work.startLoadFacet (s : Work) (l : LoadRun) (a f : Nat) : Work :=
  let s : Work := { s with res := { s.res with load := some { l with started := true } } }
  let s := if l.mode ≠ 2 ∧ s.get (Obj.slotState l.slot) = 1 then s.setSlotState l.slot 2 else s
  (s.modArr a (fun x => if x.state = 9 then x else { x with state := 4 })).beginProgram a (s.loadRecord l f) (s.arr f).image

/-- What becomes of a facet of a load once nothing bars its start. -/
def Work.startUnbarred (s : Work) (l : LoadRun) (a f : Nat) : Work :=
  if s.wornOut a then s.loadReplace l f 0x31
  else if !chkAgree (s.loadRecord l f) (s.arr f).image then s.loadStop 0x1A
  else s.startLoadFacet l a f

section
variable {s : Work} {l : LoadRun} {a f : Nat}

/-- FACET_PROGRAM_START of a facet that a load from the slot's own golden image waits for, with no shadow at work: the start is noted, and then
held back by the half's throttling or the power, put off by concurrency, or taken. -/
theorem Work.programStart_of_load (ha : a < 8192) (hload : s.res.load = some l) (hstopping : l.stopping = none) (hsource : l.source = 2)
    (hfacet : l.facetFor a = some f) (hshadows : s.res.shadows = []) (hdeep : s.deepening = false) (hidle : a ∉ s.programming) :
    s.programStart a =
      if s.startBar a = 2 then (s.noteBlocked a).holdBack a 2 Obj.programThermalWaits
      else if s.startBar a = 3 then (s.noteBlocked a).holdBack a 3 Obj.programPowerWaits
      else if s.startBar a = 1 then s.noteBlocked a
      else (s.noteBlocked a).startUnbarred l a f := by
  have hwaits : (s.noteBlocked a).replaceWaits = false := by simp [Work.replaceWaits, hshadows]
  have hin : s.recordIn l f = true := by simp [Work.recordIn, hsource]
  simp only [Work.programStart, hload, hfacet, hstopping, hin, ha, hdeep, hidle, hwaits, Work.noteBlocked_deepening, Work.noteBlocked_programming,
    Work.noteBlocked_res, Option.filter_some, Option.isNone_none, Bool.and_self, if_true, List.contains_eq_mem, decide_false, Option.isSome_some,
    Bool.or_false, Bool.true_or, Bool.not_true, Bool.false_eq_true, if_false, Work.startUnbarred, Work.startLoadFacet]

theorem Work.startLoadFacet_startsProgram (s : Work) (l : LoadRun) (a f : Nat) : s.startsProgram (s.startLoadFacet l a f) a := by
  unfold Work.startLoadFacet
  extract_lets res loaded slotted
  have hloaded : s.leavesPrograms loaded := ⟨rfl, rfl, fun _ => rfl, rfl⟩
  have hslotted : s.leavesPrograms slotted := (hloaded.setSlotState l.slot 2).ite hloaded
  exact (hslotted.modArr a (by split <;> rfl)).startsProgram (Work.beginProgram_startsProgram _ _ _ _)
end

/-! ## The end of a load that fails (R258) -/

theorem field_lt (v hi lo : Nat) : field v hi lo < 2 ^ (hi + 1 - lo) := Nat.mod_lt _ (Nat.two_pow_pos _)

/-- An action that ends shows its state and its result. -/
theorem State.run_cmdEnd {s : State} {f : Work → Work} {w : Work} {k : Key} {st res : Nat} (hk : ¬ linkCounter k)
    (hf : f s.work = w.cmdEnd k st res) (hst : st < 16) (hres : res < 65536) : (s.run f).cmdStateOf k = st ∧ (s.run f).cmdResultOf k = res := by
  have hsource : w.cmdSource k < 16 := field_lt _ 7 4
  have hpct : (if st = 3 then 100 else field (w.get k) 15 8) < 256 := by
    split
    · decide
    · exact field_lt _ 15 8
  rw [State.cmdStateOf, State.cmdResultOf, State.run_val _ _ _ hk, hf, Work.cmdEnd_get, if_pos rfl]
  exact ⟨progressWord_state hst, progressWord_result hst hsource hpct hres⟩

@[simp] theorem Work.cmdEnd_programming (w : Work) (k : Key) (st res : Nat) : (w.cmdEnd k st res).programming = w.programming := by
  obtain ⟨os, -, h⟩ := w.cmdEnd_spec k st res
  rw [h]
  rfl

@[simp] theorem Work.cmdEnd_res (w : Work) (k : Key) (st res : Nat) : (w.cmdEnd k st res).res = w.res := by
  obtain ⟨os, -, h⟩ := w.cmdEnd_spec k st res
  rw [h]
  rfl

@[simp] theorem Work.setSlotState_programming (s : Work) (n st : Nat) : (s.setSlotState n st).programming = s.programming := by
  obtain ⟨objs, os, h⟩ := s.setSlotState_rest n st
  rw [h]

@[simp] theorem Work.setSlotState_res (s : Work) (n st : Nat) : (s.setSlotState n st).res = s.res := by
  obtain ⟨objs, os, h⟩ := s.setSlotState_rest n st
  rw [h]

@[simp] theorem Work.clearSlotRecords_res (s : Work) (n : Nat) : (s.clearSlotRecords n).res = s.res := by simp [Work.clearSlotRecords]
@[simp] theorem Work.freeFacets_load (s : Work) (n : Nat) : (s.freeFacets n).res.load = s.res.load := rfl
@[simp] theorem Work.restoreMap_res (s : Work) (l : LoadRun) : (s.restoreMap l).res = s.res := rfl
@[simp] theorem Work.restoreMap_programming (s : Work) (l : LoadRun) : (s.restoreMap l).programming = s.programming := rfl

/-- A load that ends without success is gone, and its action ends with the reason; what is being programmed goes on. -/
theorem Work.loadEnd_spec {s : Work} {l : LoadRun} (hload : s.res.load = some l) (reason : Nat) :
    ∃ v : Work, s.loadEnd reason = v.cmdEnd Obj.loadStart (if reason = 0x30 then 5 else 4) reason ∧ v.res.load = none ∧
      v.programming = s.programming := by
  unfold Work.loadEnd
  simp -zeta only [hload]
  extract_lets res unloaded ended
  refine ⟨ended, rfl, ?_⟩
  unfold ended
  split_ifs
  · simp [unloaded]
  · simp [unloaded]
  · exact ⟨rfl, rfl⟩

theorem Work.loadStop_of_idle {s : Work} {l : LoadRun} (hload : s.res.load = some l) (hidle : ∀ q ∈ l.arrays, q.2 ∉ s.programming)
    (reason : Nat) : s.loadStop reason = s.loadEnd reason := by
  have hnone : l.arrays.any (fun p => s.programming.contains p.2) = false := by simpa using fun a b h => hidle (a, b) h
  simp only [Work.loadStop, hload, hnone, Bool.false_eq_true, if_false]

/-! ## The rows of the start -/

theorem State.run_programming (s : State) (f : Work → Work) : (s.run f).dev.programming = (f s.work).programming := by
  obtain ⟨ls, n, os, h⟩ := s.run_dev_eq f
  rw [h]

theorem State.run_startsProgram {s : State} {g : Work → Work} {a : Nat} (h : s.work.startsProgram (g s.work) a) :
    (s.run g).dev.programming = s.dev.programming ++ [a] ∧ ((s.run g).work.arr a).programs = (s.work.arr a).programs + 1 ∧
      s.counted (s.run g) Obj.programsTotal 1 := by
  refine ⟨?_, ?_, State.run_counted (by simp [linkCounter]) h.counted⟩
  · rw [State.run_programming]
    exact h.programming
  · rw [State.run_arr h.ident]
    exact h.programs

/-- A start held back for a reason it has not been held back for yet counts a wait, and is not taken (R261, R262). -/
theorem State.run_holdBack {s : State} {g : Work → Work} {a bar : Nat} {k : Key} (hg : g s.work = (s.work.noteBlocked a).holdBack a bar k)
    (hnew : (a, bar) ∉ s.dev.res.delayed) (hk : k ≠ Obj.refreshBlocked) (hatt : ¬ attentionKey k) (hcounter : ¬ linkCounter k) :
    (s.run g).dev.programming = s.dev.programming ∧ s.counted (s.run g) k 1 := by
  have hheld : ¬ (s.work.noteBlocked a).res.delayed.contains (a, bar) = true := by simpa using hnew
  rw [Work.holdBack, if_neg hheld] at hg
  refine ⟨?_, State.run_counted hcounter fun hlt => ?_⟩
  · rw [State.run_programming, hg]
    exact s.work.noteBlocked_programming a
  · have hget : (s.work.noteBlocked a).get k = s.work.get k := s.work.noteBlocked_get a hk hatt
    rw [hg, Work.add_get, if_pos rfl]
    change countPast k ((s.work.noteBlocked a).get k + 1) = _
    rw [hget]
    exact countPast_of_lt hlt

section
variable {s : State} {l : LoadRun} {a f : Nat} (ha : a < 8192) (hload : s.dev.res.load = some l) (hstopping : l.stopping = none)
  (hsource : l.source = 2) (hfacet : l.facetFor a = some f) (hshadows : s.dev.res.shadows = []) (hdeep : s.work.deepening = false) (hidle : a ∉ s.dev.programming)
include ha hload hstopping hsource hfacet hshadows hdeep hidle

theorem State.next_facetProgramStart_of_unbarred (hbar : s.work.startBar a = 0) (hworn : s.work.wornOut a = false) :
    (chkAgree (s.work.loadRecord l f) (s.work.arr f).image = true →
      ∃ t, exec (.facetProgramStart a) s = .next t ∧ t.dev.programming = s.dev.programming ++ [a] ∧
        (t.work.arr a).programs = (s.work.arr a).programs + 1 ∧ s.counted t Obj.programsTotal 1) ∧
    (chkAgree (s.work.loadRecord l f) (s.work.arr f).image = false → (∀ q ∈ l.arrays, q.2 ∉ s.dev.programming) →
      ∃ t, exec (.facetProgramStart a) s = .next t ∧ t.dev.res.load = none ∧ t.dev.programming = s.dev.programming ∧
        t.cmdStateOf Obj.loadStart = 4 ∧ t.cmdResultOf Obj.loadStart = 0x1A) := by
  have hexec : exec (.facetProgramStart a) s = .next (s.run fun w => w.programStart a) := State.nextIf_true (by simp [arrayExists, ha])
  have hstart := Work.programStart_of_load ha hload hstopping hsource hfacet hshadows hdeep hidle
  have hworn' : (s.work.noteBlocked a).wornOut a = false := by rw [Work.wornOut, Work.noteBlocked_arr_programs]; exact hworn
  simp only [hbar, OfNat.zero_ne_ofNat, zero_ne_one, if_false, Work.startUnbarred, hworn', Bool.false_eq_true, Work.noteBlocked_loadRecord,
    Work.noteBlocked_arr_image] at hstart
  refine ⟨fun hchk => ⟨_, hexec, State.run_startsProgram ?_⟩, fun hchk hnone => ⟨_, hexec, ?_⟩⟩
  · simp only [hchk, Bool.not_true, Bool.false_eq_true, if_false] at hstart
    exact hstart ▸ (s.work.noteBlocked_leavesPrograms a).startsProgram (Work.startLoadFacet_startsProgram _ _ _ _)
  · simp only [hchk, Bool.not_false, if_true] at hstart
    obtain ⟨v, hend, hgone, hprogramming⟩ := Work.loadEnd_spec (s := s.work.noteBlocked a) (by rw [Work.noteBlocked_res]; exact hload) 0x1A
    rw [Work.loadStop_of_idle (l := l) (by rw [Work.noteBlocked_res]; exact hload) (by rw [Work.noteBlocked_programming]; exact hnone), hend,
      if_neg (by decide)] at hstart
    refine ⟨?_, ?_, State.run_cmdEnd (by simp [linkCounter]) hstart (by decide) (by decide)⟩
    · rw [State.run_res, hstart, Work.cmdEnd_res, hgone]
    · rw [State.run_programming, hstart, Work.cmdEnd_programming, hprogramming, Work.noteBlocked_programming]
      rfl

theorem State.next_facetProgramStart_of_throttled (hbar : s.work.startBar a = 2) (hnew : (a, 2) ∉ s.dev.res.delayed) :
    ∃ t, exec (.facetProgramStart a) s = .next t ∧ t.dev.programming = s.dev.programming ∧ s.counted t Obj.programThermalWaits 1 := by
  have hstart := Work.programStart_of_load ha hload hstopping hsource hfacet hshadows hdeep hidle
  rw [if_pos hbar] at hstart
  exact ⟨_, State.nextIf_true (by simp [arrayExists, ha]),
    State.run_holdBack (g := fun w => w.programStart a) hstart hnew (by decide) (by simp [attentionKey]) (by simp [linkCounter])⟩

theorem State.next_facetProgramStart_of_powerless (hbar : s.work.startBar a = 3) (hnew : (a, 3) ∉ s.dev.res.delayed) :
    ∃ t, exec (.facetProgramStart a) s = .next t ∧ t.dev.programming = s.dev.programming ∧ s.counted t Obj.programPowerWaits 1 := by
  have hstart := Work.programStart_of_load ha hload hstopping hsource hfacet hshadows hdeep hidle
  rw [if_neg (by rw [hbar]; decide), if_pos hbar] at hstart
  exact ⟨_, State.nextIf_true (by simp [arrayExists, ha]),
    State.run_holdBack (g := fun w => w.programStart a) hstart hnew (by decide) (by simp [attentionKey]) (by simp [linkCounter])⟩
end

end Sys2Proof.Machine
end

section
/-! SUPPORT. The end of an array's programming, and refreshes in place (R235, R253, R255, R260, R272). -/

namespace Sys2Proof.Machine

/-! ## FACET_PROGRAM_DONE (R253, R255) -/

/-- The cells of an array once an attempt to program it has ended. -/
def Work.cellsRead (s : Work) (r : ProgramResult) : Cells := { (s.arr r.array).cells with written := true, off := r.off }

/-- An attempt has verified: its rows did, and the array holds its golden record (R253). -/
def Work.verifies (s : Work) (r : ProgramResult) : Bool := r.rowsOk && (s.cellsRead r).matchesGolden

/-- The work with the cells as an attempt left them. -/
def Work.takeCells (s : Work) (r : ProgramResult) : Work := s.modArr r.array fun x => { x with cells := s.cellsRead r }

@[simp] theorem Work.modArr_res (s : Work) (a : Nat) (g : Arr → Arr) : (s.modArr a g).res = s.res := rfl
@[simp] theorem Work.endProgram_load (s : Work) (a : Nat) : (s.endProgram a).res.load = s.res.load := rfl

section
variable {s : Work} {r : ProgramResult} (hin : r.array ∈ s.programming)
include hin

/-- A first attempt that fails is followed by a second, of an array that may be erased again. -/
theorem Work.programDone_of_first_failure (hfirst : look 1 s.res.attempts r.array = 1) (hfails : s.verifies r = false)
    (hworn : s.wornOut r.array = false) :
    s.programDone r = ({ ((s.takeCells r).erase r.array).add Obj.programRetries 1 with
      res := { s.res with attempts := put s.res.attempts r.array 2 } } : Work) := by
  have hworn' : (s.takeCells r).wornOut r.array = false := by
    rw [Work.wornOut, Work.takeCells, Work.modArr_arr, if_pos rfl]
    exact hworn
  simp only [Work.programDone, List.contains_eq_mem, hin, decide_true, Bool.not_true, Bool.false_eq_true, if_false, hfirst, one_ne_zero]
  refine if_pos ⟨?_, trivial, ?_⟩
  · exact (congrArg (fun b => !b) hfails)
  · exact (congrArg (fun b => !b) hworn')

/-- An attempt that verifies, of an array that no shadow has and a load waits for, verifies the load's facet. -/
theorem Work.programDone_of_verified {l : LoadRun} {f : Nat} (hattempt : look 1 s.res.attempts r.array ≠ 0) (hgood : s.verifies r = true)
    (hshadows : s.res.shadows = []) (hload : s.res.load = some l) (hstopping : l.stopping = none) (hfacet : l.facetFor r.array = some f) :
    s.programDone r = ((s.takeCells r).endProgram r.array).loadFacetDone l f r.array r := by
  have hres : ((s.takeCells r).endProgram r.array).res.load = some l := hload
  have hfind : ∀ p : Shadow → Bool, s.res.shadows.find? p = none := by simp [hshadows]
  have hgood' : (r.rowsOk && { (s.arr r.array).cells with written := true, off := r.off }.matchesGolden) = true := hgood
  simp only [Work.programDone, List.contains_eq_mem, hin, decide_true, Bool.not_true, Bool.false_eq_true, if_false, hattempt, hfind, hgood', false_and,
    if_true, Work.endProgram_load, Work.modArr_res, hload, hstopping, hfacet, Work.takeCells, Work.cellsRead]
end

/-! ## A facet of a load that has verified (R235, R260) -/

/-- The second work has the first's module, programming and residency, and array `a`'s cells. -/
structure Work.keepsCells (s t : Work) (a : Nat) : Prop where
  ident : t.ident = s.ident
  programming : t.programming = s.programming
  res : t.res = s.res
  cells : (t.arr a).cells = (s.arr a).cells

namespace Work.keepsCells

variable {s t : Work} {a : Nat} (h : s.keepsCells t a)
include h

theorem add (k : Key) (n : Nat) : s.keepsCells (t.add k n) a := ⟨h.ident, h.programming, h.res, h.cells⟩

theorem ite {p : Prop} [Decidable p] {u : Work} (hu : s.keepsCells u a) : s.keepsCells (if p then t else u) a := by
  split
  · exact h
  · exact hu

theorem modArr {g : Arr → Arr} (hg : (g (t.arr a)).cells = (t.arr a).cells) : s.keepsCells (t.modArr a g) a :=
  ⟨h.ident, h.programming, h.res, by rw [Work.modArr_arr, if_pos rfl, hg, h.cells]⟩

theorem targetsOf (d : Drift) : s.keepsCells (t.targetsOf d).2 a := by
  unfold Work.targetsOf
  split
  · exact h
  · exact ⟨h.ident, h.programming, h.res, h.cells⟩

theorem setCorrection (gamma beta : Int) : s.keepsCells (t.setCorrection a gamma beta) a := by
  unfold Work.setCorrection
  dsimp only
  exact ((h.add _ _).ite h).modArr rfl

/-- The corrections of an array just written are formed anew; its cells are as written. -/
theorem seed (phases : List CalPhase) : s.keepsCells (t.seed a phases) a := by
  have hphases := h.add Obj.phases (phases.take (t.get Obj.driftMinSamples)).length
  unfold Work.seed
  dsimp only
  exact (((hphases.ite (hphases.add _ _)).targetsOf _).setCorrection _ _).modArr rfl
end Work.keepsCells

/-- A facet of a load is among those verified, which are counted. -/
def Work.noteVerified (s : Work) (l : LoadRun) (f : Nat) : Work :=
  ({ s with res := { s.res with load := some { l with verified := l.verified ++ [f] } } } : Work).set Obj.loadFacetsDone
    ((l.verified ++ [f]).length % 65536)

/-- A facet of a load that verifies while another of its group has not is seeded and noted, and that is all. -/
theorem Work.loadFacetDone_of_unfinished {s : Work} {l : LoadRun} {f a : Nat} (r : ProgramResult)
    (hothers : ∃ p ∈ l.groupOf (facetCore f), p.1 ≠ f ∧ p.1 ∉ l.verified) :
    s.loadFacetDone l f a r = ((s.seed a r.samples).modArr a (fun x => { x with lastReason := 0 })).noteVerified l f := by
  obtain ⟨p, hp, hne, hnot⟩ := hothers
  have hunfinished : (({ l with verified := l.verified ++ [f] } : LoadRun).groupOf (facetCore f)).all
      (fun p => (l.verified ++ [f]).contains p.1) = false := by
    refine List.all_eq_false.mpr ⟨p, hp, ?_⟩
    simp [hne, hnot]
  unfold Work.loadFacetDone
  exact if_pos (congrArg (fun b => !b) hunfinished)

/-! ## The rows of the end -/

section
variable {s : State} {r : ProgramResult} (hexists : arrayExists r.array = true)
include hexists

theorem State.next_facetProgramDone_of_idle (hidle : r.array ∉ s.dev.programming) :
    ∃ t, exec (.facetProgramDone r) s = .next t ∧ s.frame t [] (fun _ => False) :=
  ⟨_, State.nextIf_true hexists, s.run_id _ (if_pos (by simpa using hidle))⟩

theorem State.next_facetProgramDone_of_first_failure (hin : r.array ∈ s.dev.programming) (hfirst : look 1 s.dev.res.attempts r.array = 1)
    (hfails : s.work.verifies r = false) (hworn : s.work.wornOut r.array = false) :
    ∃ t, exec (.facetProgramDone r) s = .next t ∧ t.dev.programming = s.dev.programming ∧ s.counted t Obj.programRetries 1 ∧
      look 1 t.dev.res.attempts r.array = 2 := by
  have hdone := Work.programDone_of_first_failure hin hfirst hfails hworn
  obtain ⟨arrs, rel, objs, os, herased⟩ := (s.work.takeCells r).erase_rest r.array
  refine ⟨_, State.nextIf_true hexists, ?_, State.run_counted (by simp [linkCounter]) fun hlt => ?_, ?_⟩
  · rw [State.run_programming, hdone]
    exact congrArg (fun u : Work => u.programming) herased
  · have hget : ((s.work.takeCells r).erase r.array).get Obj.programRetries = s.work.get Obj.programRetries := by
      rw [Work.erase_get _ _ (by simp [attentionKey]) (by decide), Work.add_get, if_neg (by decide)]
      rfl
    rw [hdone]
    refine (Work.add_get _ _ _ _).trans ((if_pos rfl).trans ?_)
    rw [hget]
    exact countPast_of_lt hlt
  · rw [State.run_res, hdone]
    exact look_put_same _ _ _ _

theorem State.next_facetProgramDone_of_verified {l : LoadRun} {f : Nat} (hin : r.array ∈ s.dev.programming)
    (hattempt : look 1 s.dev.res.attempts r.array ≠ 0) (hgood : s.work.verifies r = true) (hshadows : s.dev.res.shadows = [])
    (hload : s.dev.res.load = some l) (hstopping : l.stopping = none) (hfacet : l.facetFor r.array = some f)
    (hothers : ∃ p ∈ l.groupOf (facetCore f), p.1 ≠ f ∧ p.1 ∉ l.verified) :
    ∃ t, exec (.facetProgramDone r) s = .next t ∧ t.dev.programming = s.dev.programming.erase r.array ∧
      t.dev.res.load = some { l with verified := l.verified ++ [f] } ∧ (t.work.arr r.array).cells.written = true := by
  let u := (s.work.takeCells r).endProgram r.array
  have hdone : s.work.programDone r = u.loadFacetDone l f r.array r :=
    Work.programDone_of_verified hin hattempt hgood hshadows hload hstopping hfacet
  have hseeded : u.keepsCells (u.seed r.array r.samples) r.array := Work.keepsCells.seed ⟨rfl, rfl, rfl, rfl⟩ _
  have hnoted := hseeded.modArr (g := fun x => { x with lastReason := 0 }) rfl
  rw [Work.loadFacetDone_of_unfinished r hothers] at hdone
  generalize (u.seed r.array r.samples).modArr r.array (fun x => { x with lastReason := 0 }) = noted at hdone hnoted
  obtain ⟨hident, hprogramming, -, hcells⟩ := hnoted
  refine ⟨_, State.nextIf_true hexists, ?_, ?_, ?_⟩
  · rw [State.run_programming, hdone]
    exact hprogramming
  · rw [State.run_res, hdone]
    rfl
  · have hread : (u.arr r.array).cells = s.work.cellsRead r := by
      change (((s.work.takeCells r).arr r.array).cells) = _
      rw [Work.takeCells, Work.modArr_arr, if_pos rfl]
    rw [State.run_arr (by rw [hdone]; exact hident), hdone]
    refine (congrArg Cells.written (hcells.trans hread)).trans rfl
end

/-! ## IN_PLACE_REFRESH (R272) -/

/-- A shadow operation that still waits for a spare for the facet is dropped. -/
def Work.dropWaiting (s : Work) (g : Nat) : Work :=
  match s.res.shadows.find? (fun (h : Shadow) => h.facet = g && h.spare = 0xFF) with
  | some h => s.dropShadow h
  | none => s

theorem Work.dropWaiting_rest (s : Work) (g : Nat) : ∃ res, s.dropWaiting g = { s with res := res } := by
  unfold Work.dropWaiting
  split <;> exact ⟨_, rfl⟩

/-- A facet is programmed where it stands, for the reason it was queued for or SUSPECT. -/
def Work.programInPlace (s : Work) (g : Nat) : Work :=
  let s := s.dropWaiting g
  let reason := if (s.arr g).state = 5 then 0x11 else (s.arr g).queued
  let s := s.setShadows (s.res.shadows ++ [⟨0xFF, 3, g, 5, reason, 0⟩])
  let s := s.modArr g (fun x => if x.state = 2 then { x with state := 4 } else x)
  s.beginProgram (s.serving g) (s.goldenRecord g) (s.arr g).image

section
variable {s : Work} {f : Nat} (hf : f < 8192) (hdue : s.inPlaceDue f = true) (hidle : s.serving f ∉ s.programming)
  (hworn : s.wornOut (s.serving f) = false) (hchk : s.chkStands f = true) (hdeep : s.deepening = false) (henable : s.get Obj.inPlaceEnable ≠ 0)
  (hlimit : pauseUs 1 ≤ 1000 * s.get Obj.pauseLimitMs)
include hf hdue hidle hworn hchk hdeep henable hlimit

/-- The refresh of one facet that is due in place: in a formed group whose manager has not granted the slot's pause it is asked for, once; else
the facet is programmed where it stands. -/
theorem Work.inPlace_of_due : s.inPlace [f] =
    if s.formed && !s.res.paused.contains (s.arr f).slot then
      if s.res.pauseAsked.contains (s.arr f).slot then s
      else ({ s with res := { s.res with pauseAsked := s.res.pauseAsked ++ [(s.arr f).slot] } } : Work).toMember 0
        (.report (.pauseAsked (s.arr f).slot 1))
    else ({ s with res := { s.res with paused := s.res.paused.filter (· ≠ (s.arr f).slot) } } : Work).programInPlace f := by
  have hcan : ¬ (s.deepening = true ∨ s.get Obj.inPlaceEnable = 0 ∨ 1000 * s.get Obj.pauseLimitMs < pauseUs 1) := by
    simp [hdeep, henable, hlimit]
  have hall : [f].eraseDups.filter (fun f => f < 8192 && s.inPlaceDue f && !s.programming.contains (s.serving f) && !s.wornOut (s.serving f) &&
      s.chkStands f) = [f] := by
    simp [List.eraseDups_cons, hf, hdue, hidle, hworn, hchk]
  have hsame : [f].filter (fun g => facetCore g = facetCore f && (s.arr g).slot = (s.arr f).slot) = [f] := by simp
  simp only [Work.inPlace, hall, hsame, List.length_singleton, hcan, if_false, List.foldl_cons, List.foldl_nil]
  rfl
end

theorem Work.programInPlace_startsProgram (s : Work) (f : Nat) : s.startsProgram (s.programInPlace f) (s.serving f) := by
  unfold Work.programInPlace
  extract_lets dropped reason queued marked
  obtain ⟨res, hdropped⟩ : ∃ res, dropped = { s with res := res } := s.dropWaiting_rest f
  have hmap : (marked.arr f).mapTo = (s.arr f).mapTo := by
    have hqueued : queued.arr f = s.arr f := by
      change dropped.arr f = s.arr f
      rw [hdropped]
      rfl
    rw [Work.modArr_arr, if_pos rfl, hqueued]
    split <;> rfl
  have hserving : marked.serving f = s.serving f := by rw [Work.serving, Work.serving, hmap]
  have hleaves : s.leavesPrograms queued := by
    unfold queued
    rw [hdropped]
    exact ⟨rfl, rfl, fun _ => rfl, rfl⟩
  rw [hserving]
  exact (hleaves.modArr f (by split <;> rfl)).startsProgram (Work.beginProgram_startsProgram _ _ _ _)

/-- Settles O38: the start of a load's facet and of an in-place refresh are those of an array, and the end of its programming is that of its
attempt. -/
theorem facetsAreProgrammedWhenAllowed : Obligations.FacetsAreProgrammedWhenAllowed := by
  unfold Obligations.FacetsAreProgrammedWhenAllowed
  refine ⟨fun s l a f ha hload hstopping hsource hfacet hshadows hdeep hidle => ⟨?_, ?_, ?_, ?_⟩, fun s x hexists => ⟨?_, ?_, ?_⟩,
    fun s f hf hdue hidle hworn hchk hdeep henable hlimit => ⟨?_, ?_⟩⟩
  · exact fun hbar hworn =>
      (State.next_facetProgramStart_of_unbarred ha hload hstopping hsource hfacet hshadows hdeep hidle hbar hworn).1
  · exact fun hbar hworn =>
      (State.next_facetProgramStart_of_unbarred ha hload hstopping hsource hfacet hshadows hdeep hidle hbar hworn).2
  · exact State.next_facetProgramStart_of_throttled ha hload hstopping hsource hfacet hshadows hdeep hidle
  · exact State.next_facetProgramStart_of_powerless ha hload hstopping hsource hfacet hshadows hdeep hidle
  · exact State.next_facetProgramDone_of_idle hexists
  · exact State.next_facetProgramDone_of_first_failure hexists
  · exact fun l f hin hattempt hgood hshadows hload hstopping hfacet =>
      State.next_facetProgramDone_of_verified hexists hin hattempt hgood hshadows hload hstopping hfacet
  · intro hformed hpaused hasked
    have hwork := Work.inPlace_of_due hf hdue hidle hworn hchk hdeep henable hlimit
    rw [if_pos (by simpa [hformed] using hpaused), if_neg (by simpa using hasked)] at hwork
    refine ⟨_, rfl, ?_, ?_, ?_⟩
    · rw [State.run_res, hwork]
      rfl
    · refine State.mem_drop_run_out ?_
      rw [hwork]
      exact List.mem_append_right _ (List.mem_singleton.mpr rfl)
    · refine State.keeps.frame ?_ (by simp) (fun _ => id)
      rw [hwork]
      exact ((s.keeps_work _ _).res (by simp) _).send _
  · intro hformed
    have hwork := Work.inPlace_of_due hf hdue hidle hworn hchk hdeep henable hlimit
    rw [if_neg (by simp [hformed])] at hwork
    refine ⟨_, rfl, ?_⟩
    rw [State.run_programming, hwork, (Work.programInPlace_startsProgram _ f).programming]
    rfl

end Sys2Proof.Machine
end

section
/-! SUPPORT. A lane of a request that is DRAINING: the commit of its tokens writes the final record that waits before them, and the request
is FREE before its lane is (R283, R300, R429). -/

namespace Sys2Proof.Machine

/-- A request that is DRAINING: its final record has been formed, and it is not retained. -/
def drainingEntry : Entry := { State.reset.work.entryOf 0 0 [] with state := 6 }

/-- A decode lane of that request which has put out one token, and its result, without fault or event. -/
def drainingLane : LanePlan :=
  { entry := 0, generation := 1, lane := laneAtBytes [], drafted := false, drafts := [], probs := [], out := [0], accepted := 0, stop := 0
    grammar := ⟨0, [], 0⟩, poison := false, draftPoison := false }

def faultlessLane : LaneResult := ⟨0, false, false, 0, 0, 0⟩

def drainingResult : StepResult := ⟨0, 0, 0, 0, 0, 0, [faultlessLane]⟩

/-- The step of that lane alone, complete. -/
def drainingPlan : StepPlan :=
  { head := ⟨0, 0, 0, 0, 0, 0, 0, 0, 0, 0, 0, 0⟩, body := ⟨[], [], [], [], []⟩, lanes := [drainingLane], estimateNs := 0, parts := []
    result := some drainingResult, startUs := 0, job := none }

/-- The device at reset, but for that request and its step, and an enabled ring with room, in which the request's final record waits. -/
def drainingCommit : State := { State.reset with dev := { Dev.reset with
  objs := [(Obj.ringEnable 0, 1), (Obj.cqEntries 0, 2)]
  host := { HostState.reset with rings := [(0, { Ring.reset with waiting := [drainingEntry.record 3 0 false [] false] })] }
  serve := { ServeState.reset with entries := [drainingEntry], plan := some drainingPlan } } }

/-- The tokens' record joins the final record in the ring, and that one is written first: the request is FREE. -/
theorem drainingCommit_frees : ((drainingCommit.work.at 0).commit).serve.entries = [] := by decide +kernel

/-- Refutes O41: a good decode lane need not advance its request. `judged` lets the request be DRAINING (state 6 is not terminal); delivering
its token then writes the final record that waits before it in the ring, and that frees the request. (The planner takes no such request into a
step: a premise that the request is not DRAINING would exclude the case.) -/
theorem not_boundariesCommitHoldAndDrain : ¬ Obligations.BoundariesCommitHoldAndDrain := by
  unfold Obligations.BoundariesCommitHoldAndDrain
  rintro ⟨hcommits, -⟩
  obtain ⟨t, hexec, -, -, -, hlanes⟩ := hcommits drainingCommit 0 drainingPlan drainingResult rfl rfl
  have honly : onlyEntry drainingCommit drainingEntry := ⟨.head _, fun x hx _ => List.mem_singleton.mp hx⟩
  have hjudged : judged drainingPlan drainingResult drainingEntry drainingLane faultlessLane :=
    ⟨.head _, rfl, List.nodup_singleton _, rfl, rfl, rfl⟩
  obtain ⟨-, hgood⟩ := hlanes drainingEntry drainingLane faultlessLane rfl honly hjudged
  obtain ⟨hdecode, -⟩ := hgood ⟨nofun, nofun⟩ rfl rfl rfl (.inl rfl) rfl
  obtain ⟨y, hy, -⟩ := hdecode rfl rfl
  rw [← Host.Outcome.next.inj hexec, State.run_serve, drainingCommit_frees] at hy
  exact List.not_mem_nil hy

end Sys2Proof.Machine
end

section
/-! SUPPORT. What the manager sends a worker during a step: DRAFTS, MASKS and ACCEPT (R294, R318, R328). -/

namespace Sys2Proof.Machine

/-- What leaves all but some parts leaves all but more. -/
theorem State.frame.mono {s t : State} {parts parts' : List StatePart} {keys : Key → Prop} (h : s.frame t parts keys) (hparts : parts ⊆ parts') :
    s.frame t parts' keys := by
  obtain ⟨hpending, hident, hout, hsame, hvals⟩ := h
  exact ⟨hpending, hident, hout, fun p hp => hsame p fun hin => hp (hparts hin), hvals⟩

/-- A command whose work changes the step alone. -/
theorem State.run_modStep {s : State} {f : Work → Work} {g : StepState → StepState} (hf : f s.work = s.work.modStep g) :
    (s.run f).dev.step = g s.dev.step ∧ s.frame (s.run f) [.step] (fun _ => False) := by
  refine ⟨by rw [State.run_step, hf]; rfl, State.keeps.frame_silent ?_ (by rw [hf]; rfl)⟩
  rw [hf]
  exact (s.keeps_work _ _).modStep (by simp) g

section
variable {u : Work} {h : StepHead} {b : StepBody}

/-- The tentative lengths that ACCEPT sets are a change of the page lists. -/
theorem Work.applyAccept_pages (words : List Nat) : ∃ pages, u.applyAccept words = u.modStep fun x => { x with pages := pages } := by
  refine List.foldlRecOn _ _ (motive := fun w : Work => ∃ pages, w = u.modStep fun x => { x with pages := pages }) ⟨u.step.pages, rfl⟩ ?_
  rintro _ ⟨pages, rfl⟩ p -
  exact ⟨_, rfl⟩

theorem Work.accept_of_other_step {w : Nat} {ws : List Nat} (hrunning : u.step.running = some (h, b)) (hstep : field w 15 0 ≠ h.step % 65536) :
    u.accept (w :: ws) = u := by
  simp only [Work.accept, hrunning]
  exact if_pos hstep

/-- A fragment of the running step's ACCEPT joins those before it; the last sets the tentative lengths. -/
theorem Work.accept_of_step {w : Nat} {ws : List Nat} (hrunning : u.step.running = some (h, b)) (hstep : field w 15 0 = h.step % 65536) :
    ∃ pages, u.accept (w :: ws) =
      u.modStep fun x => { x with accept := some (u.step.accept.getD [] ++ ws.take (field w 31 24)), pages := pages } := by
  simp only [Work.accept, hrunning]
  rw [if_neg (not_not.mpr hstep)]
  split
  · obtain ⟨pages, hpages⟩ := Work.applyAccept_pages (u := u.modStep fun x => { x with
      accept := some (u.step.accept.getD [] ++ ws.take (field w 31 24)) }) (u.step.accept.getD [] ++ ws.take (field w 31 24))
    exact ⟨pages, hpages⟩
  · exact ⟨u.step.pages, rfl⟩
end

section
variable {s : State} {h : StepHead} {b : StepBody} (hrole : s.val Obj.role = 3) (hrunning : s.dev.step.running = some (h, b))
include hrole hrunning

/-- What a worker does in its running step only. -/
theorem State.run_inStep (g : StepState → StepState) :
    (s.run fun w => if w.isWorker && w.step.running.isSome then w.modStep g else w).dev.step = g s.dev.step ∧
      s.frame (s.run fun w => if w.isWorker && w.step.running.isSome then w.modStep g else w) [.step] (fun _ => False) := by
  have hruns : (s.work.isWorker && s.work.step.running.isSome) = true := by simp [Work.isWorker_of_role (w := s.work) hrole, hrunning]
  exact State.run_modStep (if_pos hruns)

theorem State.drafts_taken (lanes : List LaneDrafts) :
    ∃ t, exec (.drafts lanes) s = .next t ∧ t.dev.step.drafts = some lanes ∧ s.frame t [.step] (fun _ => False) := by
  obtain ⟨hstep, hframe⟩ := State.run_inStep hrole hrunning fun x => { x with drafts := some lanes }
  exact ⟨_, rfl, congrArg StepState.drafts hstep, hframe⟩

/-- The masks of a slot replace those it had. -/
theorem State.masks_taken {slot : Nat} (hslot : slot < 4) (rows : List (Nat × Nat × List Byte)) (poison : Bool) :
    ∃ t, exec (.masks slot rows poison) s = .next t ∧ (∃ x ∈ t.dev.step.masks, x = ⟨slot, rows, poison⟩) ∧
      (∀ x ∈ t.dev.step.masks, x.slot = slot → x = ⟨slot, rows, poison⟩) ∧ s.frame t [.step] (fun _ => False) := by
  obtain ⟨hstep, hframe⟩ := State.run_inStep hrole hrunning fun x => { x with
    masks := x.masks.filter (fun m => decide (m.slot ≠ slot)) ++ [⟨slot, rows, poison⟩] }
  refine ⟨_, State.nextIf_true (decide_eq_true hslot), ⟨_, ?_, rfl⟩, fun x hx hxslot => ?_, hframe⟩
  · rw [hstep]
    exact List.mem_append_right _ (List.mem_singleton.mpr rfl)
  · rw [hstep] at hx
    obtain hold | hnew := List.mem_append.mp hx
    · exact absurd hxslot (by simpa using (List.mem_filter.mp hold).2)
    · exact List.mem_singleton.mp hnew

theorem State.accept_taken (w : Nat) (ws : List Nat) : ∃ t, exec (.accept (w :: ws)) s = .next t ∧
    (if field w 15 0 = h.step % 65536 then t.dev.step.accept = some (s.dev.step.accept.getD [] ++ ws.take (field w 31 24))
      else s.frame t [] (fun _ => False)) ∧ s.frame t [.step] (fun _ => False) := by
  have hworker : (fun v : Work => if v.isWorker then v.accept (w :: ws) else v) s.work = s.work.accept (w :: ws) :=
    if_pos (Work.isWorker_of_role hrole)
  refine ⟨_, rfl, ?_⟩
  by_cases hstep : field w 15 0 = h.step % 65536
  · obtain ⟨pages, hpages⟩ := Work.accept_of_step (u := s.work) (ws := ws) hrunning hstep
    obtain ⟨htaken, hframe⟩ := State.run_modStep (hworker.trans hpages)
    rw [if_pos hstep]
    exact ⟨congrArg StepState.accept htaken, hframe⟩
  · have hframe := State.run_id s _ (hworker.trans (Work.accept_of_other_step hrunning hstep))
    rw [if_neg hstep]
    exact ⟨hframe, hframe.mono (List.nil_subset _)⟩
end

/-- Settles O45: each of the three messages changes the step alone, and an ACCEPT of another step nothing. -/
theorem managerDataReachesWorkers : Obligations.ManagerDataReachesWorkers := by
  unfold Obligations.ManagerDataReachesWorkers
  exact fun s h b hrole hrunning => ⟨State.drafts_taken hrole hrunning, fun slot rows poison hslot => State.masks_taken hrole hrunning hslot rows poison,
    State.accept_taken hrole hrunning⟩

end Sys2Proof.Machine
end

section
/-! SUPPORT. The start of a step on a worker from its head and its body, and the body that is asked for again (R294, R296). -/

namespace Sys2Proof.Machine

/-! ## The start -/

section
variable {w : Work} {h : StepHead}

theorem Work.tryStart_of_no_head (hhead : w.step.head = none) : w.tryStart = w := by simp only [Work.tryStart, hhead]

theorem Work.tryStart_of_mismatch (hhead : w.step.head = some h) (hbody : bodyMatches h w.step.body = false) : w.tryStart = w := by
  simp [Work.tryStart, hhead, hbody]

theorem Work.tryStart_of_match {bytes : List Byte} (hhead : w.step.head = some h) (hbody : w.step.body = some bytes)
    (hlength : bytes.length = h.bodyLength) (hcrc : crc32 bytes = h.bodyCrc) : w.tryStart = w.leaveL1.beginStep h (bodyOf h bytes) := by
  have hmatch : bodyMatches h (some bytes) = true := by simp only [bodyMatches, hlength, hcrc, decide_true, Bool.and_self]
  simp [Work.tryStart, hhead, hbody, hmatch]

/-- A step that begins is the running one, and none of its ops is done. -/
theorem Work.beginStep_step (w : Work) (h : StepHead) (b : StepBody) :
    (w.beginStep h b).step.running = some (h, b) ∧ (w.beginStep h b).step.done = [] := ⟨rfl, rfl⟩
end

/-! ## STEP_BODY and STEP_HEAD -/

theorem State.keeps.modGroup {s : State} {w : Work} {parts : List StatePart} {keys : Key → Prop} (h : s.keeps w parts keys)
    (hgroup : StatePart.group ∈ parts) (f : GroupRec → GroupRec) : s.keeps (w.modGroup f) parts keys := by
  refine ⟨fun p hp => ?_, h.2⟩
  cases p with
  | group => exact absurd hgroup hp
  | _ => exact h.1 _ hp

section
variable {s : State} (hrole : s.val Obj.role = 3) (hformed : s.val Obj.groupState = 2)
include hrole hformed

theorem State.work_isWorker_and_formed : (s.work.isWorker && s.work.formed) = true := by
  have hin : s.work.formed = true := decide_eq_true hformed
  simp [Work.isWorker_of_role (w := s.work) hrole, hin]

/-- A worker's body is kept, and starts the step if its head is there. -/
theorem State.stepBody_work (bytes : List Byte) :
    exec (.stepBody bytes) s = .next (s.run fun _ => (s.work.modStep fun x => { x with body := some bytes }).tryStart) :=
  congrArg Host.Outcome.next (State.run_congr (if_pos (State.work_isWorker_and_formed hrole hformed)))

theorem State.stepBody_waits (bytes : List Byte) (hhead : s.dev.step.head = none) :
    ∃ t, exec (.stepBody bytes) s = .next t ∧ t.dev.step.body = some bytes ∧ s.frame t [.step] (fun _ => False) := by
  obtain ⟨hstep, hframe⟩ := State.run_modStep (s := s) (f := fun _ => (s.work.modStep fun x => { x with body := some bytes }).tryStart)
    (Work.tryStart_of_no_head hhead)
  exact ⟨_, State.stepBody_work hrole hformed bytes, congrArg StepState.body hstep, hframe⟩

theorem State.stepBody_starts {bytes : List Byte} {h : StepHead} (hhead : s.dev.step.head = some h) (hlength : bytes.length = h.bodyLength)
    (hcrc : crc32 bytes = h.bodyCrc) :
    ∃ t, exec (.stepBody bytes) s = .next t ∧ t.dev.step.running = some (h, bodyOf h bytes) ∧ t.dev.step.done = [] := by
  refine ⟨_, State.stepBody_work hrole hformed bytes, ?_⟩
  rw [State.run_step, Work.tryStart_of_match hhead rfl hlength hcrc]
  exact Work.beginStep_step _ h _

theorem State.stepHead_waits {h : StepHead} (hepoch : h.epoch = s.val Obj.groupEpoch) (hfault : s.dev.rel.deviceFault = none)
    (hbody : bodyMatches h s.dev.step.body = false) :
    ∃ t, exec (.stepHead h) s = .next t ∧ t.dev.step.head = some h ∧ t.dev.step.bodyFails = 0 ∧ s.frame t [.step, .group] (fun _ => False) := by
  have htaken : (s.work.isWorker && s.work.formed && h.epoch = s.work.get Obj.groupEpoch && s.work.rel.deviceFault.isNone) = true := by
    have hown : h.epoch = s.work.get Obj.groupEpoch := hepoch
    simp [State.work_isWorker_and_formed hrole hformed, hown, hfault]
  have hexec : exec (.stepHead h) s = .next (s.run fun _ =>
      (s.work.modStep fun x => { x with head := some h, bodyFails := 0 }).modGroup fun g => { g with heard := true }) :=
    congrArg Host.Outcome.next (State.run_congr ((if_pos htaken).trans (Work.tryStart_of_mismatch rfl hbody)))
  refine ⟨_, hexec, ?_, ?_, State.keeps.frame_silent ?_ rfl⟩
  · rw [State.run_step]
    rfl
  · rw [State.run_step]
    rfl
  · exact ((s.keeps_work _ _).modStep (by simp) _).modGroup (by simp) _
end

theorem State.stepHead_of_other_epoch {s : State} {h : StepHead} (hepoch : h.epoch ≠ s.val Obj.groupEpoch) :
    ∃ t, exec (.stepHead h) s = .next t ∧ s.frame t [] (fun _ => False) := by
  have hother : ¬ (s.work.isWorker && s.work.formed && h.epoch = s.work.get Obj.groupEpoch && s.work.rel.deviceFault.isNone) = true := by
    have hown : h.epoch ≠ s.work.get Obj.groupEpoch := hepoch
    simp [hown]
  exact ⟨_, rfl, State.run_id s _ (if_neg hother)⟩

/-! ## BODY_TIMEOUT and BODY_RESEND -/

/-- A command whose work ends with a message to a member sends it, and changes the links and their counters besides. -/
theorem State.run_toMember {s : State} {f : Work → Work} {w : Work} {d : Nat} {m : FabricMsg} {parts : List StatePart} {keys : Key → Prop}
    (hf : f s.work = w.toMember d m) (h : s.keeps w parts keys) (hlinks : StatePart.links ∈ parts) (hcounters : ∀ k, linkCounter k → keys k) :
    Output.fabric (some d) none m ∈ (s.run f).out.drop s.out.length ∧ s.frame (s.run f) parts keys := by
  refine ⟨State.mem_drop_run_out ?_, State.keeps.frame ?_ hlinks hcounters⟩
  · rw [hf]
    exact List.mem_append_right _ (List.mem_singleton.mpr rfl)
  · rw [hf]
    exact h.send _

theorem State.bodyTimeout_first {s : State} {h : StepHead} (hhead : s.dev.step.head = some h) (hformed : s.val Obj.groupState = 2)
    (hfails : s.dev.step.bodyFails = 0) :
    ∃ t, exec .bodyTimeout s = .next t ∧ t.dev.step.bodyFails = 1 ∧ t.dev.step.body = none ∧
      Output.fabric (some 0) none .bodyResend ∈ t.out.drop s.out.length ∧ s.frame t [.step, .links] linkCounter := by
  have hwork : s.work.bodyTimeout = (s.work.modStep fun x => { x with bodyFails := 1, body := none }).toMember 0 .bodyResend := by
    have hin : s.work.formed = true := decide_eq_true hformed
    simp [Work.bodyTimeout, hhead, hin, hfails]
  obtain ⟨hsent, hframe⟩ := State.run_toMember (f := Work.bodyTimeout) hwork ((s.keeps_work [.step, .links] linkCounter).modStep (by simp) _)
    (by simp) fun _ => id
  refine ⟨_, rfl, ?_, ?_, hsent, hframe⟩
  · rw [State.run_step, hwork]
    rfl
  · rw [State.run_step, hwork]
    rfl

theorem State.bodyResend_sends {s : State} {p : StepPlan} {w : Nat} (hplan : s.dev.serve.plan = some p) (hw : w ∈ s.work.workers) :
    ∃ t, exec (.bodyResend w) s = .next t ∧ Output.fabric (some w) none (.stepBody p.body.bytes) ∈ t.out.drop s.out.length ∧
      s.frame t [.links] linkCounter := by
  refine ⟨_, rfl, State.run_toMember ?_ (s.keeps_work _ _) (by simp) fun _ => id⟩
  have hcontains : s.work.workers.contains w = true := List.contains_iff_mem.mpr hw
  simp only [State.work_toDev, hplan]
  exact if_pos hcontains

/-- Settles O44: a body and a head by whether the other is there and fits it, and the two requests for a body by what they send. -/
theorem stepsStartFromHeadAndBody : Obligations.StepsStartFromHeadAndBody := by
  unfold Obligations.StepsStartFromHeadAndBody
  refine ⟨fun s hrole hformed => ⟨?_, ?_, ?_, ?_⟩, ?_, ?_⟩
  · exact State.stepBody_waits hrole hformed
  · exact fun bytes h => State.stepBody_starts hrole hformed
  · exact fun h => State.stepHead_waits hrole hformed
  · exact fun h => State.stepHead_of_other_epoch
  · exact fun s h => State.bodyTimeout_first
  · exact fun s p w => State.bodyResend_sends

end Sys2Proof.Machine
end

section
/-! SUPPORT. STEP_RESULT: what combining parts makes of times, rates, workers and lanes, the part a worker sends up, and the result that
becomes complete at the manager (R299, R392); and the records that members forward (R500). -/

namespace Sys2Proof.Machine

/-! ## Lanes of combined parts (R299) -/

/-- The lanes of a part have gone into those of a result: each lane bears the part's poison and facet fault. A part without lanes says nothing
of them. -/
def lanesJoin (g z : List LaneResult) : Prop :=
  g = [] ∨ (z ≠ [] ∧ ∀ (i : Nat) (y : LaneResult), z[i]? = some y →
    ∃ w : LaneResult, g[i]? = some w ∧ (w.poison = true → y.poison = true) ∧ (w.facetFault = true → y.facetFault = true))

theorem lanesJoin_refl (g : List LaneResult) : lanesJoin g g := by
  by_cases hg : g = []
  · exact .inl hg
  · exact .inr ⟨hg, fun i y hy => ⟨y, hy, id, id⟩⟩

theorem lanesJoin.trans {g z z' : List LaneResult} (h : lanesJoin g z) (h' : lanesJoin z z') : lanesJoin g z' := by
  obtain hg | ⟨hz, hlanes⟩ := h
  · exact .inl hg
  · obtain ⟨hz', hlanes'⟩ := h'.resolve_left hz
    refine .inr ⟨hz', fun i y' hy' => ?_⟩
    obtain ⟨y, hy, hpoison', hfault'⟩ := hlanes' i y' hy'
    obtain ⟨w, hw, hpoison, hfault⟩ := hlanes i y hy
    exact ⟨w, hw, hpoison' ∘ hpoison, hfault' ∘ hfault⟩

/-- Lanes that both parts have are added one by one, and each of the two has joined. -/
theorem lanesJoin_addLane {a b : List LaneResult} (ha : a ≠ []) (hb : b ≠ []) :
    lanesJoin a ((a.zip b).map fun p => addLane p.1 p.2) ∧ lanesJoin b ((a.zip b).map fun p => addLane p.1 p.2) := by
  have hne : (a.zip b).map (fun p => addLane p.1 p.2) ≠ [] := by simp [List.zip_eq_nil_iff, ha, hb]
  have hlane : ∀ (i : Nat) (y : LaneResult), ((a.zip b).map fun p => addLane p.1 p.2)[i]? = some y →
      ∃ v w, a[i]? = some v ∧ b[i]? = some w ∧ addLane v w = y := by
    intro i y hy
    rw [List.getElem?_map, Option.map_eq_some_iff] at hy
    obtain ⟨⟨v, w⟩, hvw, hy⟩ := hy
    obtain ⟨hv, hw⟩ := List.getElem?_zip_eq_some.mp hvw
    exact ⟨v, w, hv, hw, hy⟩
  refine ⟨.inr ⟨hne, fun i y hy => ?_⟩, .inr ⟨hne, fun i y hy => ?_⟩⟩
  · obtain ⟨v, w, hv, -, rfl⟩ := hlane i y hy
    exact ⟨v, hv, fun h => by simp [addLane, h], fun h => by simp [addLane, h]⟩
  · obtain ⟨v, w, -, hw, rfl⟩ := hlane i y hy
    exact ⟨w, hw, fun h => by simp [addLane, h], fun h => by simp [addLane, h]⟩

theorem combine_lanes (a b : StepResult) : lanesJoin a.lanes (StepResult.combine a b).lanes ∧ lanesJoin b.lanes (StepResult.combine a b).lanes := by
  have hlanes : (StepResult.combine a b).lanes = if a.lanes.isEmpty then b.lanes else if b.lanes.isEmpty then a.lanes
      else (a.lanes.zip b.lanes).map (fun p => addLane p.1 p.2) := rfl
  rw [hlanes]
  by_cases ha : a.lanes = []
  · rw [if_pos (by simp [ha])]
    exact ⟨.inl ha, lanesJoin_refl _⟩
  · rw [if_neg (by simp [ha])]
    by_cases hb : b.lanes = []
    · rw [if_pos (by simp [hb])]
      exact ⟨lanesJoin_refl _, .inl hb⟩
    · rw [if_neg (by simp [hb])]
      exact lanesJoin_addLane ha hb

/-! ## Combined parts (R299) -/

/-- A part has gone into a result: no rate is higher than the part's, and its lanes have joined the result's. -/
structure goesInto (g z : StepResult) : Prop where
  engineMhz : z.engineMhz ≤ g.engineMhz
  seamGbs : z.seamGbs ≤ g.seamGbs
  lanes : lanesJoin g.lanes z.lanes

theorem goesInto.refl (g : StepResult) : goesInto g g := ⟨le_rfl, le_rfl, lanesJoin_refl _⟩

theorem goesInto.trans {g z z' : StepResult} (h : goesInto g z) (h' : goesInto z z') : goesInto g z' :=
  ⟨h'.engineMhz.trans h.engineMhz, h'.seamGbs.trans h.seamGbs, h.lanes.trans h'.lanes⟩

theorem goesInto_combine_left (a b : StepResult) : goesInto a (StepResult.combine a b) :=
  ⟨Nat.min_le_left _ _, Nat.min_le_left _ _, (combine_lanes a b).1⟩

theorem goesInto_combine_right (a b : StepResult) : goesInto b (StepResult.combine a b) :=
  ⟨Nat.min_le_right _ _, Nat.min_le_right _ _, (combine_lanes a b).2⟩

theorem goesInto_foldl_combine (a : StepResult) (xs : List StepResult) : ∀ g ∈ a :: xs, goesInto g (xs.foldl StepResult.combine a) := by
  induction xs generalizing a with
  | nil => exact List.forall_mem_singleton.mpr (.refl a)
  | cons x xs ih =>
    obtain ⟨hfirst, hrest⟩ := List.forall_mem_cons.mp (ih (StepResult.combine a x))
    exact List.forall_mem_cons.mpr ⟨(goesInto_combine_left a x).trans hfirst,
      List.forall_mem_cons.mpr ⟨(goesInto_combine_right a x).trans hfirst, hrest⟩⟩

theorem foldl_combine_workers (a : StepResult) (xs : List StepResult) :
    (xs.foldl StepResult.combine a).workers = (xs.map (·.workers)).foldl (· + ·) a.workers := by
  rw [List.foldl_map]
  exact (List.foldl_hom StepResult.workers (g₁ := StepResult.combine) (g₂ := fun n y => n + y.workers) fun _ _ => rfl).symm

theorem foldl_combine_dieUs (a : StepResult) (xs : List StepResult) :
    (xs.foldl StepResult.combine a).dieUs = (xs.map (·.dieUs)).foldl max a.dieUs := by
  rw [List.foldl_map]
  exact (List.foldl_hom StepResult.dieUs (g₁ := StepResult.combine) (g₂ := fun n y => max n y.dieUs) fun _ _ => rfl).symm

/-- Parts combine into one result, of all their workers and the longest of their times. -/
theorem combineAll_eq_some {l : List StepResult} (hl : l ≠ []) : ∃ z, combineAll l = some z ∧ z.workers = sumNat (l.map (·.workers)) ∧
    z.dieUs = maxNat (l.map (·.dieUs)) ∧ ∀ g ∈ l, goesInto g z := by
  obtain ⟨a, xs, rfl⟩ := List.exists_cons_of_ne_nil hl
  refine ⟨_, rfl, ?_, ?_, goesInto_foldl_combine a xs⟩
  · rw [foldl_combine_workers, sumNat, List.map_cons, List.foldl_cons, Nat.zero_add]
  · rw [foldl_combine_dieUs, maxNat, List.map_cons, List.foldl_cons, Nat.zero_max]

/-! ## STEP_RESULT at a worker (R299, R392) -/

/-- A worker that has its own part and its one child's sends them up as one. -/
theorem Work.sendResult_of_pair {w : Work} {own x : StepResult} (hresults : w.step.results = [own, x]) (hown : own.src = w.ownDevice)
    (hsrc : x.src ≠ own.src) (hkids : w.workingKids = [x.src]) :
    w.sendResult = (w.modStep fun y => { y with results := [] }).toMember w.treeParent
      (.stepResult { StepResult.combine own x with src := w.ownDevice }) := by
  have hmine : [own, x].filter (fun y => decide (y.src = w.ownDevice)) = [own] := by simp [← hown, hsrc]
  have hkid : [x.src].filterMap (fun d => [own, x].find? fun y => decide (y.src = d)) = [x] := by simp [hsrc.symm]
  simp only [Work.sendResult, hresults, hkids, hmine, hkid]
  rfl

theorem State.stepResult_sent_up {s : State} {x own : StepResult} (hrole : s.val Obj.role = 3) (hformed : s.val Obj.groupState = 2)
    (hresults : s.dev.step.results = [own]) (hown : own.src = s.work.ownDevice) (hsrc : x.src ≠ own.src) (hkids : s.work.workingKids = [x.src]) :
    ∃ t z, exec (.stepResult x) s = .next t ∧ t.dev.step.results = [] ∧
      Output.fabric (some s.work.treeParent) none (.stepResult z) ∈ t.out.drop s.out.length ∧
      z.src = s.work.ownDevice ∧ z.workers = own.workers + x.workers ∧ z.dieUs = max own.dieUs x.dieUs := by
  let w := s.work.modStep fun y => { y with results := [own, x] }
  have hin : s.work.formed = true := decide_eq_true hformed
  have hmanager : s.work.isManager = false := decide_eq_false (by change s.val Obj.role ≠ 1; omega)
  have hwork : s.work.stepResult x = w.sendResult := by
    simp only [Work.stepResult, hin, hmanager, Bool.not_true, Bool.false_eq_true, if_false]
    have hjoined : s.work.step.results.filter (fun z => decide (z.src ≠ x.src)) ++ [x] = [own, x] := by
      simp [hresults, hsrc.symm]
    exact congrArg Work.sendResult (congrArg (fun l => s.work.modStep fun y => { y with results := l }) hjoined)
  have hsent := hwork.trans (Work.sendResult_of_pair rfl hown hsrc hkids)
  refine ⟨_, { StepResult.combine own x with src := s.work.ownDevice }, rfl, ?_, State.mem_drop_run_out ?_, rfl, rfl, rfl⟩
  · rw [State.run_step, hsent]
    rfl
  · rw [hsent]
    exact List.mem_append_right _ (List.mem_singleton.mpr rfl)

/-! ## STEP_RESULT at the manager (R299) -/

/-- A part of the step in progress, from a child that has not sent one, joins the parts; with every child's there, they are combined. -/
theorem Work.gatherResult_of_part {w : Work} {x : StepResult} {p : StepPlan} (hplan : w.serve.plan = some p) (hstep : x.step = p.head.step)
    (hnew : ∀ y ∈ p.parts, y.src ≠ x.src) {got : List StepResult}
    (hgot : got = w.workingKids.filterMap fun (d : Nat) => (p.parts ++ [x]).find? fun (y : StepResult) => y.src = d) :
    (got.length ≠ w.workingKids.length → w.gatherResult x =
      w.modServe fun y => { y with plan := some { p with parts := p.parts ++ [x], result := none } }) ∧
    ∀ z, got.length = w.workingKids.length → combineAll got = some z → z.workers = w.get Obj.workerCount → w.gatherResult x =
      w.modServe fun y => { y with plan := some { p with parts := p.parts ++ [x], result := some z } } := by
  have hjoins : ¬ (x.step ≠ p.head.step ∨ p.parts.any (fun y => decide (y.src = x.src)) = true) := by
    simpa [hstep] using hnew
  constructor
  · intro hmissing
    simp only [Work.gatherResult, hplan, hjoins, if_false, ← hgot, hmissing]
  · intro z hwhole hcombined hworkers
    simp only [Work.gatherResult, hplan, hjoins, if_false, ← hgot, hwhole, if_true, hcombined]
    exact if_pos hworkers

section
variable {s : State} {x : StepResult} {p : StepPlan} {got : List StepResult} (hrole : s.val Obj.role = 1) (hformed : s.val Obj.groupState = 2)
  (hplan : s.dev.serve.plan = some p) (hstep : x.step = p.head.step) (hnew : ∀ y ∈ p.parts, y.src ≠ x.src)
  (hgot : got = s.work.workingKids.filterMap fun (d : Nat) => (p.parts ++ [x]).find? fun (y : StepResult) => y.src = d)
include hrole hformed

/-- What the manager does with a result, once it is a change of its plan. -/
theorem State.stepResult_gathered {q : StepPlan} (hwork : s.work.gatherResult x = s.work.modServe fun y => { y with plan := some q }) :
    ∃ t, exec (.stepResult x) s = .next t ∧ t.dev.serve.plan = some q ∧ s.frame t [.serve] (fun _ => False) := by
  have hin : s.work.formed = true := decide_eq_true hformed
  have hmanager : s.work.isManager = true := decide_eq_true hrole
  have hgathers : s.work.stepResult x = s.work.modServe fun y => { y with plan := some q } := by
    rw [← hwork]
    simp only [Work.stepResult, hin, hmanager, Bool.not_true, Bool.false_eq_true, if_false, if_true]
  refine ⟨_, rfl, ?_, State.keeps.frame_silent ?_ (by rw [hgathers]; rfl)⟩
  · rw [State.run_serve, hgathers]
    rfl
  · rw [hgathers]
    exact (s.keeps_work _ _).modServe (by simp) _

include hplan hstep hnew hgot

theorem State.stepResult_waits (hmissing : got.length < s.work.workingKids.length) :
    ∃ t, exec (.stepResult x) s = .next t ∧ t.dev.serve.plan = some { p with parts := p.parts ++ [x], result := none } ∧
      s.frame t [.serve] (fun _ => False) :=
  State.stepResult_gathered hrole hformed ((Work.gatherResult_of_part (w := s.work) hplan hstep hnew hgot).1 hmissing.ne)

theorem State.stepResult_completes (hne : got ≠ []) (hwhole : got.length = s.work.workingKids.length)
    (hworkers : sumNat (got.map (·.workers)) = s.val Obj.workerCount) :
    ∃ t z, exec (.stepResult x) s = .next t ∧ t.dev.serve.plan = some { p with parts := p.parts ++ [x], result := some z } ∧
      s.frame t [.serve] (fun _ => False) ∧ z.dieUs = maxNat (got.map (·.dieUs)) ∧ ∀ g ∈ got, goesInto g z := by
  obtain ⟨z, hcombined, hsum, hmax, hjoins⟩ := combineAll_eq_some hne
  obtain ⟨t, hexec, hplan', hframe⟩ := State.stepResult_gathered hrole hformed
    ((Work.gatherResult_of_part (w := s.work) hplan hstep hnew hgot).2 z hwhole hcombined (hsum.trans hworkers))
  exact ⟨t, z, hexec, hplan', hframe, hmax, hjoins⟩
end

/-! ## FORWARDED_RECORD (R500) -/

/-- A record that is no event joins those that wait for the non-volatile store. -/
theorem Work.record_rel (w : Work) {r : RecordIn} (hsev : r.severity ≠ 0) :
    (w.record r).rel = { w.rel with pendingLog := w.rel.pendingLog ++ [logRecOf w r] } := by
  unfold Work.record
  extract_lets rec_ rel stored attended told
  have hattended : attended.rel = stored.rel := by unfold attended; split <;> rfl
  have htold : told.rel = attended.rel := by unfold told; split <;> rfl
  have hstored : stored.rel = { w.rel with pendingLog := w.rel.pendingLog ++ [logRecOf w r] } := by
    unfold stored
    rw [if_neg hsev]
  rw [← hstored, ← hattended, ← htold]
  split <;> rfl

/-- A seam rate changes the planner's rates, and no record. -/
theorem Work.setRate_rel (w : Work) (f : ServeState → ServeState) : (w.modServe f).setRate.rel = w.rel := rfl

theorem State.forwardedRecord_waits {s : State} (hrole : s.val Obj.role = 1) {x : RecordIn} (hsev : x.severity ≠ 0) :
    ∃ t, exec (.forwardedRecord x) s = .next t ∧
      ∃ y, t.dev.rel.pendingLog = s.dev.rel.pendingLog ++ [y] ∧ y.code = x.code ∧ y.device = x.device ∧ y.severity = x.severity ∧
        y.unit = x.unit ∧ y.detail = x.detail := by
  have hmanager : s.work.isManager = true := decide_eq_true hrole
  have hrel : (s.work.forwarded x).rel = (s.work.record x).rel := by
    simp only [Work.forwarded, hmanager, Bool.not_true, Bool.false_eq_true, if_false]
    split
    · exact Work.setRate_rel _ _
    · rfl
  refine ⟨_, rfl, logRecOf s.work x, ?_, rfl, rfl, rfl, rfl, rfl⟩
  rw [State.run_rel, hrel, Work.record_rel _ hsev]
  rfl

/-- Settles O46: two parts at a worker are sent up combined, the last part at the manager completes the result, into which each part has gone,
and a record of a fault is one that waits. -/
theorem resultsAndRecordsReachTheManager : Obligations.ResultsAndRecordsReachTheManager := by
  unfold Obligations.ResultsAndRecordsReachTheManager
  refine ⟨fun s x own => State.stepResult_sent_up, fun s hrole => ⟨fun x p got hformed hplan hstep hnew hgot => ⟨?_, ?_⟩, ?_⟩⟩
  · exact State.stepResult_waits hrole hformed hplan hstep hnew hgot
  · intro hne hwhole hworkers
    obtain ⟨t, z, hexec, hplan', hframe, hmax, hjoins⟩ := State.stepResult_completes hrole hformed hplan hstep hnew hgot hne hwhole hworkers
    refine ⟨t, z, hexec, hplan', hframe, hmax, fun g hg => ⟨(hjoins g hg).engineMhz, (hjoins g hg).seamGbs⟩, fun i y hy g hg w hw => ?_⟩
    obtain hnil | ⟨-, hlane⟩ := (hjoins g hg).lanes
    · simp [hnil] at hw
    · obtain ⟨w', hw', hpoison, hfault⟩ := hlane i y hy
      obtain rfl : w' = w := Option.some.inj (hw'.symm.trans hw)
      exact ⟨hpoison, hfault⟩
  · exact fun x => State.forwardedRecord_waits hrole

end Sys2Proof.Machine
end

section
/-! SUPPORT. Completion rings: what a record that ends no request leaves as it goes into its ring (R425, R427, R429, R431, R432). -/

namespace Sys2Proof.Machine

/-! ## What records move -/

/-- The objects that a record moves: the counts of records and of bytes written to the host, and TENANT_ATTENTION. -/
def recordKey (k : Key) : Prop :=
  k = Obj.completionsWritten ∨ (∃ t, k = Obj.tenantCompletions t) ∨ (∃ p, k = Obj.hostWriteBytes p) ∨ ∃ t, k = Obj.tenantAttention t

/-- The second work differs from the first in the rings, though not in what their tenants have announced, in the objects that records move, and
in what it has sent since. -/
structure Work.ringsOnly (s t : Work) : Prop where
  rest : ∃ host objs os, t = { s with host := host, objs := objs, sent := s.sent ++ os }
  vals : ∀ k, ¬ recordKey k → t.get k = s.get k
  aperture : ∀ n, (t.ring n).aperture = (s.ring n).aperture

/-- A ring into which a record has come: what can be written is, and TENANT_ATTENTION is set where something begins to wait (R429, R432). -/
def Work.settleRing (w : Work) (n : Nat) : Work :=
  let u := Work.flushRing (w.ring n).waiting.length n w
  if (u.ring n).waiting.isEmpty || u.get (Obj.ringEnable n) = 0 then u else u.attendTenant n 3

namespace Work.ringsOnly

theorem refl (s : Work) : s.ringsOnly s := ⟨⟨_, _, [], by rw [List.append_nil]⟩, fun _ _ => rfl, fun _ => rfl⟩

section
variable {s t : Work} (h : s.ringsOnly t)
include h

theorem trans {u : Work} (g : t.ringsOnly u) : s.ringsOnly u := by
  obtain ⟨⟨host, objs, os, rfl⟩, hvals, haperture⟩ := h
  obtain ⟨⟨host', objs', os', rfl⟩, hvals', haperture'⟩ := g
  exact ⟨⟨host', objs', os ++ os', by rw [← List.append_assoc]⟩, fun k hk => (hvals' k hk).trans (hvals k hk),
    fun n => (haperture' n).trans (haperture n)⟩

theorem serve : t.serve = s.serve := by
  obtain ⟨⟨host, objs, os, rfl⟩, -, -⟩ := h
  rfl

theorem sent : s.sent <+: t.sent := by
  obtain ⟨⟨host, objs, os, rfl⟩, -, -⟩ := h
  exact List.prefix_append _ _

theorem setRing {n : Nat} {x : Ring} (hx : x.aperture = (t.ring n).aperture) : s.ringsOnly (t.setRing n x) := by
  refine h.trans ⟨⟨_, _, [], by rw [List.append_nil]; rfl⟩, fun _ _ => rfl, fun m => ?_⟩
  rw [Work.setRing_ring]
  split
  next hm => rw [hx, hm]
  next => rfl

theorem set {k : Key} (hk : recordKey k) (v : Nat) : s.ringsOnly (t.set k v) := by
  refine h.trans ⟨⟨_, _, [], by rw [List.append_nil]; rfl⟩, fun q hq => ?_, fun _ => rfl⟩
  rw [Work.set_get, if_neg (by rintro rfl; exact hq hk)]

theorem add {k : Key} (hk : recordKey k) (n : Nat) : s.ringsOnly (t.add k n) := h.set hk _

theorem send (o : Output) : s.ringsOnly (t.send o) := h.trans ⟨⟨_, _, [o], rfl⟩, fun _ _ => rfl, fun _ => rfl⟩

theorem attendTenant (n i : Nat) : s.ringsOnly (t.attendTenant n i) := h.set (.inr (.inr (.inr ⟨n, rfl⟩))) _

theorem completionIrq (n : Nat) : s.ringsOnly (t.completionIrq n) :=
  (h.setRing (x := { t.ring n with sinceIrq := 0, timer := false }) rfl).send _

/-- A record that is not a request's final one goes into its slot. -/
theorem writeRecord {n : Nat} {c : CompRec} (hkind : c.kind ≠ 3) : s.ringsOnly (t.writeRecord n c) := by
  unfold Work.writeRecord
  extract_lets r m size slot sent r' counted written ended
  have hwritten : s.ringsOnly written :=
    ((((h.send _).setRing (x := r') rfl).add (.inl rfl) 1).add (.inr (.inl ⟨n, rfl⟩)) 1).add (.inr (.inr (.inl ⟨_, rfl⟩))) 64
  have hended : ended = written := if_neg hkind
  rw [hended]
  split
  · exact hwritten.completionIrq n
  · exact hwritten

/-- The only record that waits in a ring is written if it can be. -/
theorem flushRing {n : Nat} {c : CompRec} (hwaiting : (t.ring n).waiting = [c]) (hkind : c.kind ≠ 3) : s.ringsOnly (Work.flushRing 1 n t) := by
  simp only [Work.flushRing, hwaiting]
  split
  · exact (h.setRing (by rfl)).writeRecord hkind
  · exact h

/-- A record that stands alone in its ring is written, or waits. -/
theorem settleRing {n : Nat} {c : CompRec} {x : Ring} (haperture : x.aperture = (t.ring n).aperture) (hwaiting : x.waiting = [c])
    (hkind : c.kind ≠ 3) : s.ringsOnly ((t.setRing n x).settleRing n) := by
  have hring : ((t.setRing n x).ring n).waiting = [c] := by rw [Work.setRing_ring, if_pos rfl, hwaiting]
  have hflushed := (h.setRing haperture).flushRing hring hkind
  unfold Work.settleRing
  dsimp only
  rw [hring]
  split
  · exact hflushed
  · exact hflushed.attendTenant n 3

theorem putRecord {n : Nat} {c : CompRec} (hwaiting : (t.ring n).waiting = []) (hkind : c.kind ≠ 3) : s.ringsOnly (t.putRecord n c) :=
  h.settleRing rfl (by rw [hwaiting, List.nil_append]) hkind

/-- In an empty ring there is nothing for a CANCELLED record to go ahead of. -/
theorem putCancelled {n : Nat} {c : CompRec} (hwaiting : (t.ring n).waiting = []) (hkind : c.kind ≠ 3) : s.ringsOnly (t.putCancelled n c) :=
  h.settleRing rfl (by simp [hwaiting]) hkind
end
end Work.ringsOnly

/-- A command counts what its work, from the value the state has, adds. -/
theorem State.run_counted_add {s : State} {f : Work → Work} {u : Work} {k : Key} {n : Nat} (hk : ¬ linkCounter k) (hu : u.get k = s.val k)
    (hf : (f s.work).get k = (u.add k n).get k) : s.counted (s.run f) k n := by
  refine State.run_counted hk fun hlt => ?_
  rw [hf, Work.add_get, if_pos rfl, hu]
  exact countPast_of_lt hlt

end Sys2Proof.Machine
end

section
/-! SUPPORT. The request commands: which request a handle names, what marks it, and what a cancel leaves of it (R280, R302 to R304, R312). -/

namespace Sys2Proof.Machine

/-! ## Entries (R280) -/

theorem Work.index_of_entry {w : Work} {i : Nat} {e : Entry} (h : w.entry i = some e) : e ∈ w.serve.entries ∧ e.index = i :=
  ⟨List.mem_of_find?_eq_some h, by simpa using List.find?_some h⟩

theorem Work.mem_of_byHandle {w : Work} {h : Nat} {e : Entry} (he : w.byHandle h = some e) : e ∈ w.serve.entries := by
  unfold Work.byHandle at he
  split at he
  next x hx =>
    obtain rfl : x = e := by simpa using (Option.ite_none_right_eq_some.mp he).2
    exact (Work.index_of_entry hx).1
  next => cases he

theorem Work.byHandle_congr {w u : Work} (h : w.serve = u.serve) (n : Nat) : w.byHandle n = u.byHandle n := by
  unfold Work.byHandle Work.entry
  rw [h]

/-- A request whose record is replaced by another of its index has that one. -/
theorem Work.mem_putEntry {w : Work} {e e' : Entry} (he : e ∈ w.serve.entries) (hindex : e'.index = e.index) :
    e' ∈ (w.putEntry e').serve.entries := List.mem_map.mpr ⟨e, he, if_pos hindex.symm⟩

/-! ## Cancelling a request (R302) -/

/-- What the cancelling of a request leaves: the request is CANCELLED and counted, and its record is in its ring. -/
structure Work.cancels (s t : Work) (e : Entry) : Prop where
  entry : ∃ x ∈ t.serve.entries, x.index = e.index ∧ x.state = 9 ∧ x.cause = 0x10
  sent : s.sent <+: t.sent
  vals : ∀ k, ¬ recordKey k → t.get k = (s.add Obj.requestsCancelled 1).get k
  aperture : ∀ n, (t.ring n).aperture = (s.ring n).aperture

theorem Work.cancelEntry_cancels {s : Work} {e : Entry} (he : e ∈ s.serve.entries) (hwaiting : (s.ring e.tenant).waiting = [])
    (hplan : s.serve.plan ≠ none) (slot : Bool) : s.cancels (s.cancelEntry e slot) e := by
  unfold Work.cancelEntry
  extract_lets r inIntake freed e' put paged
  have hfreed : s.ringsOnly freed ∧ (freed.ring e.tenant).waiting = [] := by
    unfold freed
    split
    · exact ⟨Work.ringsOnly.setRing (.refl s) rfl, by rw [Work.setRing_ring, if_pos rfl]; exact hwaiting⟩
    · exact ⟨.refl s, hwaiting⟩
  obtain ⟨hrings, hempty⟩ := hfreed
  obtain ⟨ops, hpaged⟩ : ∃ ops, paged = put.modServe (fun x => { x with pageOps := ops }) := by
    unfold paged
    split
    · exact ⟨put.serve.pageOps, rfl⟩
    · exact ⟨_, rfl⟩
  have hrecorded := Work.ringsOnly.putCancelled (.refl paged) (n := e.tenant)
    (c := e'.record 5 0x10 false [] (if inIntake then e.reserved else slot)) (by rw [hpaged]; exact hempty) (by simp [Entry.record])
  have hserve : (paged.putCancelled e.tenant (e'.record 5 0x10 false [] (if inIntake then e.reserved else slot))).serve = paged.serve :=
    hrecorded.serve
  rw [Work.idle_of_plan (by rw [hserve, hpaged]; exact (congrArg ServeState.plan hrings.serve).trans_ne hplan)]
  refine ⟨⟨e', ?_, rfl, rfl, rfl⟩, ?_, fun k hk => ?_, fun n => ?_⟩
  · rw [hserve, hpaged]
    exact Work.mem_putEntry (w := freed) (e := e) (hrings.serve ▸ he) rfl
  · refine hrings.sent.trans (List.IsPrefix.trans ?_ hrecorded.sent)
    rw [hpaged]
    exact List.prefix_rfl
  · rw [hrecorded.vals k hk, hpaged, Work.modServe_get]
    have hcount : freed.get Obj.requestsCancelled = s.get Obj.requestsCancelled := hrings.vals _ (by simp [recordKey])
    change ((freed.putEntry e').add Obj.requestsCancelled 1).get k = _
    rw [Work.add_get, Work.add_get, Work.putEntry, Work.modServe_get, Work.modServe_get, hrings.vals k hk, hcount]
  · rw [hrecorded.aperture n, hpaged]
    exact hrings.aperture n

/-! ## The work an action starts from, and what it leaves of requests -/

theorem Work.cmdDone_serve (w : Work) (k : Key) (o : Origin) : (w.cmdDone k o).serve = w.serve := by
  obtain ⟨objs, dict, sent, h⟩ := w.cmdDone_rest k o
  rw [h]

theorem Work.cmdDone_host (w : Work) (k : Key) (o : Origin) : (w.cmdDone k o).host = w.host := by
  obtain ⟨objs, dict, sent, h⟩ := w.cmdDone_rest k o
  rw [h]

namespace State.answeredWork

section
variable {s : State} {r : Req} {k : Key} {w : Work} (h : s.answeredWork r k w)
include h

theorem serve : w.serve = s.dev.serve := h.same .serve (by decide)

theorem byHandle (n : Nat) : w.byHandle n = s.work.byHandle n := Work.byHandle_congr h.serve n

/-- An action that marks a request, during a step, changes the request and nothing else. -/
theorem run_mark (hk : ¬ linkCounter k) (o : Origin) (hplan : s.dev.serve.plan ≠ none) {e e' : Entry} (he : e ∈ s.dev.serve.entries)
    (hindex : e'.index = e.index) : s.commanded (s.run fun _ => ((w.cmdDone k o).putEntry e').idle) r k [.serve] (fun _ => False) ∧
      e' ∈ (s.run fun _ => ((w.cmdDone k o).putEntry e').idle).dev.serve.entries := by
  have hserve := Work.cmdDone_serve w k o
  rw [Work.idle_of_plan (by rw [Work.putEntry, Work.modServe_toDev, hserve, h.serve]; exact hplan)]
  refine ⟨⟨h.accepted (Work.sent_prefix_cmdDone w k o), ?_, ?_⟩, ?_⟩
  · rw [State.cmdStateOf, State.run_val _ _ _ hk, Work.putEntry, Work.modServe_get, Work.cmdDone_get, if_pos rfl]
    exact progressWord_state (by decide)
  · exact (((h.keeps (by simp) (.inr (.inl (.inl rfl)))).cmdDone (by simp) (.inl rfl) o).modServe (by simp) _).frame (by simp)
      fun _ hq => .inr (.inl (.inr hq))
  · rw [State.run_serve]
    exact Work.mem_putEntry (e := e) (by rw [hserve, h.serve]; exact he) hindex
end
end State.answeredWork

/-! ## The commands -/

section
variable {w : Work} {t arg : Nat}

theorem Work.requestTarget_of_not_manager (hfault : w.rel.deviceFault = none) (hrole : w.get Obj.role ≠ 1) : w.requestTarget t arg = .error 0x3A := by
  have hmanager : w.isManager = false := decide_eq_false hrole
  simp [Work.requestTarget, hfault, hmanager]

theorem Work.requestTarget_of_manager (hfault : w.rel.deviceFault = none) (hrole : w.get Obj.role = 1) :
    (w.byHandle arg = none → w.requestTarget t arg = .error 0x60) ∧
    ∀ e, w.byHandle arg = some e → e.tenant = t → w.requestTarget t arg = .ok e := by
  have hmanager : w.isManager = true := decide_eq_true hrole
  constructor
  · intro hnone
    simp [Work.requestTarget, hfault, hmanager, hnone]
  · intro e he htenant
    simp [Work.requestTarget, hfault, hmanager, he, htenant]

theorem Work.startAction_requestCancel (o : Origin) : w.startAction (Obj.requestCancel t) arg o = w.requestCancelCmd t arg o := if_pos rfl

theorem Work.startAction_requestHold (o : Origin) : w.startAction (Obj.requestHold t) arg o = w.requestHoldCmd t arg o := if_pos rfl

theorem Work.startAction_requestResume (o : Origin) : w.startAction (Obj.requestResume t) arg o = w.requestResumeCmd t arg o := if_pos rfl

theorem Work.startAction_requestRelease (o : Origin) : w.startAction (Obj.requestRelease t) arg o = w.requestReleaseCmd t arg o := if_pos rfl

theorem Work.requestHoldCmd_of_planned {e : Entry} (htarget : w.requestTarget t arg = .ok e) (hlow : 2 ≤ e.state) (hhigh : e.state ≤ 4) (o : Origin) :
    w.requestHoldCmd t arg o = ((w.cmdDone (Obj.requestHold t) o).putEntry { e with holdAsked := true }).idle := by
  simp only [Work.requestHoldCmd, htarget, hlow, hhigh, and_self, if_true]

theorem Work.requestResumeCmd_of_held {e : Entry} (htarget : w.requestTarget t arg = .ok e) (hstate : e.state = 5) (hhold : e.hold = 1) (o : Origin) :
    w.requestResumeCmd t arg o = ((w.cmdDone (Obj.requestResume t) o).putEntry { e with resumeAsked := true }).idle := by
  simp only [Work.requestResumeCmd, htarget, hstate, hhold, and_self, if_true]

theorem Work.requestReleaseCmd_of_retained {e : Entry} (htarget : w.requestTarget t arg = .ok e) (hstate : e.state = 7) (hretain : e.retain = true)
    (o : Origin) : w.requestReleaseCmd t arg o = ((w.cmdDone (Obj.requestRelease t) o).putEntry { e with releaseAsked := true }).idle := by
  simp only [Work.requestReleaseCmd, htarget, hstate, hretain, and_self, if_true]

theorem Work.requestCancelCmd_of_live {e : Entry} (htarget : w.requestTarget t arg = .ok e) (hlive : e.terminal = false) (o : Origin) :
    w.requestCancelCmd t arg o = (w.cmdDone (Obj.requestCancel t) o).cancelEntry e false := by
  simp only [Work.requestCancelCmd, htarget, hlive, Bool.false_eq_true, if_false]
end

/-- A command that acts on the request a handle names: it is the row of its object, and ends as its target's failure where there is none. -/
structure RequestCommand (c : Instr) (r : Req) (k : Key) (tenant : Nat) : Prop where
  row : requestRow c 2 (reqAt r k.index k.sub)
  not_reset : k ≠ Obj.deviceReset
  not_link : ¬ linkCounter k
  fails : ∀ (w : Work) (arg : Nat) (o : Origin) (x : Nat), w.requestTarget tenant arg = .error x → w.startAction k arg o = w.cmdFail k o x

theorem requestCommand_cancel (r : Req) (t : Nat) : RequestCommand (.requestCancel r) r (Obj.requestCancel t) t :=
  ⟨fun _ => rfl, by simp, by simp [linkCounter], fun w arg o x h => by rw [Work.startAction_requestCancel, Work.requestCancelCmd, h]⟩

theorem requestCommand_hold (r : Req) (t : Nat) : RequestCommand (.requestHold r) r (Obj.requestHold t) t :=
  ⟨fun _ => rfl, by simp, by simp [linkCounter], fun w arg o x h => by rw [Work.startAction_requestHold, Work.requestHoldCmd, h]⟩

theorem requestCommand_resume (r : Req) (t : Nat) : RequestCommand (.requestResume r) r (Obj.requestResume t) t :=
  ⟨fun _ => rfl, by simp, by simp [linkCounter], fun w arg o x h => by rw [Work.startAction_requestResume, Work.requestResumeCmd, h]⟩

theorem requestCommand_release (r : Req) (t : Nat) : RequestCommand (.requestRelease r) r (Obj.requestRelease t) t :=
  ⟨fun _ => rfl, by simp, by simp [linkCounter], fun w arg o x h => by rw [Work.startAction_requestRelease, Work.requestReleaseCmd, h]⟩

namespace RequestCommand

section
variable {s : State} {c : Instr} {r : Req} {k : Key} {tenant arg : Nat} (h : RequestCommand c r k tenant) (hstarts : s.startsAt r k arg)
  (hfault : s.dev.rel.deviceFault = none)
include h hstarts hfault

/-- The work such a command starts from finds no fault, and the role that the state has. -/
theorem starts : ∃ w, s.answeredWork r k w ∧ exec c s = .next (s.run fun _ => w.startAction k arg r.origin) ∧ w.rel.deviceFault = none ∧
    w.get Obj.role = s.val Obj.role := by
  obtain ⟨w, hw, hexec⟩ := hstarts.exec_eq h.not_reset h.row
  exact ⟨w, hw, hexec, (congrArg RelState.deviceFault (hw.same .rel (by decide))).trans hfault, hw.get _ (by decide)⟩

theorem fails_of_not_manager (hrole : s.val Obj.role ≠ 1) : ∃ t, exec c s = .next t ∧ s.commandFails t r k 0x3A := by
  obtain ⟨w, hw, hexec, hfault', hrole'⟩ := h.starts hstarts hfault
  rw [h.fails w arg r.origin 0x3A (Work.requestTarget_of_not_manager hfault' (by rwa [hrole']))] at hexec
  exact ⟨_, hexec, hw.run_cmdFail h.not_link _ (by decide)⟩

theorem fails_of_no_request (hrole : s.val Obj.role = 1) (hnone : s.work.byHandle arg = none) :
    ∃ t, exec c s = .next t ∧ s.commandFails t r k 0x60 := by
  obtain ⟨w, hw, hexec, hfault', hrole'⟩ := h.starts hstarts hfault
  rw [h.fails w arg r.origin 0x60 ((Work.requestTarget_of_manager hfault' (hrole'.trans hrole)).1 (by rwa [hw.byHandle]))] at hexec
  exact ⟨_, hexec, hw.run_cmdFail h.not_link _ (by decide)⟩

/-- The work such a command starts from, where its handle names a request of its tenant. -/
theorem targets {e : Entry} (hrole : s.val Obj.role = 1) (he : s.work.byHandle arg = some e) (htenant : e.tenant = tenant) :
    ∃ w, s.answeredWork r k w ∧ exec c s = .next (s.run fun _ => w.startAction k arg r.origin) ∧ w.requestTarget tenant arg = .ok e := by
  obtain ⟨w, hw, hexec, hfault', hrole'⟩ := h.starts hstarts hfault
  exact ⟨w, hw, hexec, (Work.requestTarget_of_manager hfault' (hrole'.trans hrole)).2 e (by rwa [hw.byHandle]) htenant⟩

/-- A command that marks its request, during a step. -/
theorem marks {e e' : Entry} (hrole : s.val Obj.role = 1) (hplan : s.dev.serve.plan ≠ none) (he : s.work.byHandle arg = some e)
    (htenant : e.tenant = tenant) (hindex : e'.index = e.index)
    (hact : ∀ w : Work, w.requestTarget tenant arg = .ok e → w.startAction k arg r.origin = ((w.cmdDone k r.origin).putEntry e').idle) :
    ∃ t, exec c s = .next t ∧ s.commanded t r k [.serve] (fun _ => False) ∧ e' ∈ t.dev.serve.entries := by
  obtain ⟨w, hw, hexec, htarget⟩ := h.targets hstarts hfault hrole he htenant
  rw [hact w htarget] at hexec
  exact ⟨_, hexec, hw.run_mark h.not_link _ hplan (Work.mem_of_byHandle he) hindex⟩
end

/-- A cancel ends its request, during a step, as CANCELLED. -/
theorem cancels {s : State} {c : Instr} {r : Req} {tenant arg : Nat} (h : RequestCommand c r (Obj.requestCancel tenant) tenant)
    (hstarts : s.startsAt r (Obj.requestCancel tenant) arg) (hfault : s.dev.rel.deviceFault = none) {e : Entry} (hrole : s.val Obj.role = 1)
    (hplan : s.dev.serve.plan ≠ none) (he : s.work.byHandle arg = some e) (htenant : e.tenant = tenant) (hlive : e.terminal = false)
    (hwaiting : (s.work.ring tenant).waiting = []) :
    ∃ t, exec c s = .next t ∧ s.acceptedAt t r (Obj.requestCancel tenant) ∧ t.cmdStateOf (Obj.requestCancel tenant) = 3 ∧
      s.counted t Obj.requestsCancelled 1 ∧ ∃ x ∈ t.dev.serve.entries, x.index = e.index ∧ x.state = 9 := by
  obtain ⟨w, hw, hexec, htarget⟩ := h.targets hstarts hfault hrole he htenant
  rw [Work.startAction_requestCancel, Work.requestCancelCmd_of_live htarget hlive] at hexec
  have hserve := Work.cmdDone_serve w (Obj.requestCancel tenant) r.origin
  have hring : ((w.cmdDone (Obj.requestCancel tenant) r.origin).ring e.tenant).waiting = [] := by
    have hhost : (w.cmdDone (Obj.requestCancel tenant) r.origin).host = s.dev.host :=
      (Work.cmdDone_host w _ _).trans (hw.same .host (by decide))
    rw [Work.ring, hhost, htenant]
    exact hwaiting
  obtain ⟨⟨x, hx, hindex, hstate, -⟩, hsent, hvals, -⟩ := Work.cancelEntry_cancels (s := w.cmdDone (Obj.requestCancel tenant) r.origin) (e := e)
    (by rw [hserve, hw.serve]; exact Work.mem_of_byHandle he) hring (by rw [hserve, hw.serve]; exact hplan) false
  refine ⟨_, hexec, hw.accepted ((Work.sent_prefix_cmdDone w _ _).trans hsent), ?_, ?_, x, by rwa [State.run_serve], hindex, hstate⟩
  · rw [State.cmdStateOf, State.run_val _ _ _ h.not_link, hvals _ (by simp [recordKey]), Work.add_get, if_neg (by simp), Work.cmdDone_get, if_pos rfl]
    exact progressWord_state (by decide)
  · refine State.run_counted_add (by simp [linkCounter]) ?_ (hvals _ (by simp [recordKey]))
    rw [Work.cmdDone_get, if_neg (by simp), hw.get _ (by decide)]
end RequestCommand

/-- Settles O42: the four commands fail alike where they have no request, and three of them mark theirs, which the fourth cancels. -/
theorem requestCommandsActOnTheirRequest : Obligations.RequestCommandsActOnTheirRequest := by
  unfold Obligations.RequestCommandsActOnTheirRequest
  intro s c r k tenant h hrow hstarts hfault
  have hcommand : RequestCommand c r k tenant := by
    rcases hrow with ⟨rfl, rfl⟩ | ⟨rfl, rfl⟩ | ⟨rfl, rfl⟩ | ⟨rfl, rfl⟩
    exacts [requestCommand_cancel r tenant, requestCommand_hold r tenant, requestCommand_resume r tenant, requestCommand_release r tenant]
  refine ⟨hcommand.fails_of_not_manager hstarts hfault, hcommand.fails_of_no_request hstarts hfault, fun e hrole hplan he htenant => ⟨?_, ?_, ?_, ?_⟩⟩
  · rintro rfl hlow hhigh
    obtain ⟨t, hexec, hdone, hmem⟩ := hcommand.marks (e' := { e with holdAsked := true }) hstarts hfault hrole hplan he htenant rfl fun w htarget =>
      (Work.startAction_requestHold _).trans (Work.requestHoldCmd_of_planned htarget hlow hhigh _)
    exact ⟨t, hexec, hdone, _, hmem, rfl, rfl, rfl⟩
  · rintro rfl hstate hhold
    obtain ⟨t, hexec, hdone, hmem⟩ := hcommand.marks (e' := { e with resumeAsked := true }) hstarts hfault hrole hplan he htenant rfl fun w htarget =>
      (Work.startAction_requestResume _).trans (Work.requestResumeCmd_of_held htarget hstate hhold _)
    exact ⟨t, hexec, hdone, _, hmem, rfl, rfl⟩
  · rintro rfl hstate hretain
    obtain ⟨t, hexec, hdone, hmem⟩ := hcommand.marks (e' := { e with releaseAsked := true }) hstarts hfault hrole hplan he htenant rfl fun w htarget =>
      (Work.startAction_requestRelease _).trans (Work.requestReleaseCmd_of_retained htarget hstate hretain _)
    exact ⟨t, hexec, hdone, _, hmem, rfl, rfl⟩
  · rintro rfl hlive hwaiting
    exact hcommand.cancels hstarts hfault hrole hplan he htenant hlive hwaiting

end Sys2Proof.Machine
end

section
/-! SUPPORT. Intake: descriptors that are announced and consumed, requests that are admitted or refused, and the end of a prompt's fetch (R285,
R286, R302, R423 to R426). -/

namespace Sys2Proof.Machine

/-! ## What the arrival of a descriptor keeps -/

section
variable {s : State} {w : Work} {parts : List StatePart} {keys : Key → Prop} (h : s.keeps w parts keys)
include h

theorem State.keeps.mono {parts' : List StatePart} {keys' : Key → Prop} (hparts : parts ⊆ parts') (hkeys : ∀ k, keys k → keys' k) :
    s.keeps w parts' keys' := ⟨fun p hp => h.1 p fun hin => hp (hparts hin), fun k hk => h.2 k fun hin => hk (hkeys k hin)⟩

theorem State.keeps.host (hhost : StatePart.host ∈ parts) (host : HostState) : s.keeps { w with host := host } parts keys := by
  refine ⟨fun p hp => ?_, h.2⟩
  cases p with
  | host => exact absurd hhost hp
  | _ => exact h.1 _ hp

theorem State.keeps.at (hnow : StatePart.now ∈ parts) (us : Nat) : s.keeps (w.at us) parts keys := by
  refine ⟨fun p hp => ?_, h.2⟩
  cases p with
  | now => exact absurd hnow hp
  | _ => exact h.1 _ hp
end

theorem State.run_now (s : State) (f : Work → Work) : (s.run f).dev.now = (f s.work).now := by
  obtain ⟨ls, n, os, h⟩ := s.run_dev_eq f
  rw [h]

theorem State.run_host (s : State) (f : Work → Work) : (s.run f).dev.host = (f s.work).host := by
  obtain ⟨ls, n, os, h⟩ := s.run_dev_eq f
  rw [h]

/-! ## Announcements (R415, R424) -/

section
variable {w : Work} {t : Nat} {b : List Byte}

/-- A ring once a descriptor stands in its slot. -/
def Work.announcedRing (w : Work) (t : Nat) (b : List Byte) (poisoned : Bool) : Ring :=
  { w.ring t with aperture := (w.ring t).aperture.filter (fun x => decide (x.slot ≠ descSlot (w.get (Obj.intakeEntries t)) b)) ++
      [⟨descSlot (w.get (Obj.intakeEntries t)) b, b, poisoned⟩] }

theorem Work.announce_of_room (hentries : w.get (Obj.intakeEntries t) ≠ 0) (hpower : w.get Obj.powerState < 3) (poisoned : Bool) :
    w.announce t b poisoned = (w.setRing t (w.announcedRing t b poisoned)).intake t :=
  if_neg (not_or.mpr ⟨hentries, not_le.mpr hpower⟩)

theorem Work.intake_of_closed (hclosed : w.intakeOpen t = false) : w.intake t = w := by
  have hvisit : w.intakeVisit t = w := by simp only [Work.intakeVisit, hclosed, Bool.not_false, if_true]
  exact List.foldl_fixed' (fun _ => hvisit) _

/-- A visit of a tenant that has announced nothing notes it in the ring, if that. -/
theorem Work.intakeVisit_of_empty (hempty : (w.ring t).aperture = []) : ∃ host, w.intakeVisit t = { w with host := host } := by
  have hnone : w.nextDesc t = none := by simp [Work.nextDesc, hempty]
  unfold Work.intakeVisit
  split
  · exact ⟨w.host, rfl⟩
  · rw [hnone]
    exact ⟨_, rfl⟩

theorem Work.intakeVisit_of_empty_get (hempty : (w.ring t).aperture = []) (k : Key) : (w.intakeVisit t).get k = w.get k := by
  obtain ⟨host, h⟩ := Work.intakeVisit_of_empty hempty
  rw [h]
  rfl

theorem Work.intakeVisit_of_empty_serve (hempty : (w.ring t).aperture = []) : (w.intakeVisit t).serve = w.serve := by
  obtain ⟨host, h⟩ := Work.intakeVisit_of_empty hempty
  rw [h]

/-- A tenant's rings once a descriptor has been taken out of its slot, with a completion slot reserved for it (R425). -/
def Work.taken (w : Work) (t : Nat) (a : Announced) : Work :=
  let u := w.setRing t { w.ring t with
    expected := (w.ring t).expected + 1, intakeHead := (w.ring t).expected % 2 ^ 32, reserved := (w.ring t).reserved + 1, stalled := false
    aperture := (w.ring t).aperture.filter (fun x => decide (x.slot ≠ a.slot)) }
  { u with host := { u.host with visited := t } }

theorem Work.taken_ring (w : Work) (t : Nat) (a : Announced) : ((w.taken t a).ring t).waiting = (w.ring t).waiting ∧
    ((w.taken t a).ring t).aperture = (w.ring t).aperture.filter (fun x => decide (x.slot ≠ a.slot)) := by
  have hring : (w.taken t a).ring t = { w.ring t with
      expected := (w.ring t).expected + 1, intakeHead := (w.ring t).expected % 2 ^ 32, reserved := (w.ring t).reserved + 1, stalled := false
      aperture := (w.ring t).aperture.filter (fun x => decide (x.slot ≠ a.slot)) } := (Work.setRing_ring w t _ t).trans (if_pos rfl)
  rw [hring]
  exact ⟨rfl, rfl⟩

theorem Work.leaveL1_of_not_L1 (hpower : w.get Obj.powerState ≠ 1) : w.leaveL1 = w := if_pos (by simp [hpower])

/-- A visit of a tenant whose next descriptor can be consumed consumes it. -/
theorem Work.intakeVisit_of_next {a : Announced} (hopen : w.intakeOpen t = true) (hnext : w.nextDesc t = some a) (hfree : w.slotFree t = true)
    (hpower : w.get Obj.powerState ≠ 1) : w.intakeVisit t = (w.taken t a).consume t a := by
  simp only [Work.intakeVisit, hopen, hnext, hfree, Bool.not_true, Bool.false_eq_true, if_false, Work.leaveL1_of_not_L1 hpower]
  rfl

/-- The only descriptor announced is consumed if it is in turn and in its slot, and nothing is left for the next visit. -/
theorem Work.intake_of_one {a : Announced} (haperture : (w.ring t).aperture = [a]) (hopen : w.intakeOpen t = true)
    (hslot : a.slot = ((w.ring t).expected - 1) % max 1 (w.get (Obj.intakeEntries t))) (hturn : descStamp a.desc = (w.ring t).expected)
    (hfree : w.slotFree t = true) (hpower : w.get Obj.powerState ≠ 1) : w.intake t = ((w.taken t a).consume t a).intakeVisit t := by
  have hnext : w.nextDesc t = some a := by simp [Work.nextDesc, haperture, ← hslot, hturn]
  rw [← Work.intakeVisit_of_next hopen hnext hfree hpower, Work.intake, haperture]
  rfl
end

/-- A descriptor that arrives while the rings are not enabled waits. -/
theorem State.descriptor_waits {s : State} {tenant : Nat} (hexists : s.work.tenantExists tenant = true) (hclosed : s.val (Obj.ringEnable tenant) = 0)
    (hentries : s.val (Obj.intakeEntries tenant) ≠ 0) (hpower : s.val Obj.powerState < 3) (b : List Byte) (poisoned : Bool) (us : Nat) {c : Instr}
    (hc : c = .submit tenant b poisoned us ∨ c = .cancel tenant b poisoned us) :
    ∃ t, exec c s = .next t ∧ ⟨descSlot (s.val (Obj.intakeEntries tenant)) b, b, poisoned⟩ ∈ (t.work.ring tenant).aperture ∧
      t.dev.now = us ∧ s.frame t [.host, .now] (fun _ => False) := by
  let w := s.work.at us
  have hexec : exec c s = .next (s.run fun _ => w.announce tenant b poisoned) := by
    obtain rfl | rfl := hc <;> exact State.nextIf_true hexists
  have hoff : (w.setRing tenant (w.announcedRing tenant b poisoned)).intakeOpen tenant = false := by
    have hclosed' : (w.setRing tenant (w.announcedRing tenant b poisoned)).get (Obj.ringEnable tenant) = 0 := hclosed
    simp [Work.intakeOpen, hclosed']
  rw [Work.announce_of_room (w := w) hentries hpower, Work.intake_of_closed hoff] at hexec
  refine ⟨_, hexec, ?_, ?_, State.keeps.frame_silent ?_ rfl⟩
  · rw [Work.ring, State.work_toDev, State.run_host]
    change _ ∈ ((w.setRing tenant (w.announcedRing tenant b poisoned)).ring tenant).aperture
    rw [Work.setRing_ring, if_pos rfl]
    exact List.mem_append_right _ (List.mem_singleton.mpr rfl)
  · rw [State.run_now]
    rfl
  · exact ((s.keeps_work _ _).at (by simp) us).host (by simp) _

/-! ## Consumption (R424, R425) -/

/-- A work of a state in which a tenant has announced nothing, and no record waits for it: what its intake consumes a descriptor in. -/
structure State.consuming (s : State) (tenant : Nat) (w : Work) : Prop where
  keeps : s.keeps w [.host, .now] (fun _ => False)
  silent : w.sent = []
  aperture : (w.ring tenant).aperture = []
  waiting : (w.ring tenant).waiting = []

section
variable {s : State} {tenant : Nat} {w : Work} (h : s.consuming tenant w)
include h

theorem State.consuming.serve : w.serve = s.dev.serve := h.keeps.1 .serve (by decide)

theorem State.consuming.get (k : Key) : w.get k = s.val k := h.keeps.2 k id
end

/-- A descriptor that can be consumed as it arrives is, and the next visit finds nothing announced. -/
theorem State.descriptor_consumed {s : State} {tenant : Nat} {b : List Byte} (h : Consumes s tenant b) (us : Nat) {c : Instr}
    (hc : c = .submit tenant b false us ∨ c = .cancel tenant b false us) :
    ∃ w a, s.consuming tenant w ∧ a.desc = b ∧ a.poisoned = false ∧ exec c s = .next (s.run fun _ => (w.consume tenant a).intakeVisit tenant) := by
  obtain ⟨hexists, henabled, hl0, hentries, hempty, hwaiting, hturn, hslot, hroom⟩ := h
  let w := s.work.at us
  let a : Announced := ⟨descSlot (s.val (Obj.intakeEntries tenant)) b, b, false⟩
  let v := w.setRing tenant { w.ring tenant with aperture := [a] }
  have hexec : exec c s = .next (s.run fun _ => w.announce tenant b false) := by
    obtain rfl | rfl := hc <;> exact State.nextIf_true hexists
  have hannounced : w.announce tenant b false = v.intake tenant := by
    have hnothing : (w.ring tenant).aperture = [] := hempty
    rw [Work.announce_of_room (w := w) hentries (by change s.val Obj.powerState < 3; omega), Work.announcedRing, hnothing]
    rfl
  have hring : v.ring tenant = { w.ring tenant with aperture := [a] } := (Work.setRing_ring w tenant _ tenant).trans (if_pos rfl)
  have hconsumed : v.intake tenant = ((v.taken tenant a).consume tenant a).intakeVisit tenant := by
    have hsize : max 1 (s.val (Obj.intakeEntries tenant)) = s.val (Obj.intakeEntries tenant) := by omega
    refine Work.intake_of_one (by rw [hring]) henabled ?_ ?_ ?_ (by change s.val Obj.powerState ≠ 1; omega)
    · rw [hring]
      change a.slot = ((s.work.ring tenant).expected - 1) % max 1 (s.val (Obj.intakeEntries tenant))
      rw [hsize]
      exact hslot
    · rw [hring]
      exact hturn
    · rw [Work.slotFree, hring]
      exact hroom
  obtain ⟨hkept, hleft⟩ := v.taken_ring tenant a
  refine ⟨v.taken tenant a, a, ⟨((s.keeps_work _ _).at (by simp) us).host (by simp) _, rfl, ?_, ?_⟩, rfl, rfl, by rw [hexec, hannounced, hconsumed]⟩
  · rw [hleft, hring]
    simp
  · rw [hkept, hring]
    exact hwaiting

/-! ## SUBMIT and CANCEL, consumed (R286, R302, R423) -/

/-- A descriptor consumed is counted, for the device and for its tenant. -/
def Work.countDesc (w : Work) (t : Nat) : Work := (w.add Obj.intakeDescriptors 1).add (Obj.tenantDescriptors t) 1

section
variable {w : Work} {t : Nat} {a : Announced}

theorem Work.countDesc_get_of_ne {k : Key} (h : k ≠ Obj.intakeDescriptors) (h' : k ≠ Obj.tenantDescriptors t) : (w.countDesc t).get k = w.get k := by
  rw [Work.countDesc, Work.add_get, if_neg h'.symm, Work.add_get, if_neg h.symm]

theorem Work.countDesc_get_role : (w.countDesc t).get Obj.role = w.get Obj.role := Work.countDesc_get_of_ne (by simp) (by simp)

theorem Work.consume_submit (hpoison : a.poisoned = false) (hrole : w.get Obj.role = 1) (hop : leAt a.desc 0 1 = 1) :
    w.consume t a = (w.countDesc t).submitDesc t a.desc := by
  have hmanager : (w.countDesc t).isManager = true := decide_eq_true (Work.countDesc_get_role.trans hrole)
  rw [Work.countDesc] at hmanager ⊢
  simp [Work.consume, hpoison, hmanager, hop]

theorem Work.consume_cancel (hpoison : a.poisoned = false) (hrole : w.get Obj.role = 1) (hop : leAt a.desc 0 1 = 2) :
    w.consume t a = (w.countDesc t).cancelDesc t a.desc := by
  have hmanager : (w.countDesc t).isManager = true := decide_eq_true (Work.countDesc_get_role.trans hrole)
  rw [Work.countDesc] at hmanager ⊢
  simp [Work.consume, hpoison, hmanager, hop]

theorem Work.consume_elsewhere (hpoison : a.poisoned = false) (hrole : w.get Obj.role ≠ 1) :
    ∃ h, w.consume t a = (w.countDesc t).refuse t 0x40 h (descTag a.desc) none := by
  have hmanager : (w.countDesc t).isManager = false := decide_eq_false fun h => hrole (Work.countDesc_get_role.symm.trans h)
  rw [Work.countDesc] at hmanager
  exact ⟨_, by simp only [Work.consume, hpoison, hmanager, Work.countDesc, Bool.false_eq_true, if_false, Bool.not_false, if_true]; rfl⟩

theorem Work.freeIndexOf_congr {u : Work} (h : w.serve = u.serve) : w.freeIndexOf = u.freeIndexOf := by simp only [Work.freeIndexOf, h]

/-- A SUBMIT with a free entry, within its tenant's cap and with its prompt still to be fetched, takes the entry. -/
theorem Work.submitDesc_of_free {b : List Byte} {i : Nat} (hfree : w.freeIndexOf = some i) (hwindow : descWindow b = false)
    (hcap : (w.serve.entries.filter (fun e => e.tenant = t)).length < w.get (Obj.tenantRequestCap t)) :
    w.submitDesc t b = w.modServe fun x => { x with
      entries := x.entries ++ [w.entryOf t i b], gens := put x.gens i (w.entryOf t i b).generation, nextSeq := (x.nextSeq + 1) % 2 ^ 32
      fetching := put x.fetching i b } := by
  have hroom : ¬ w.get (Obj.tenantRequestCap t) < (w.serve.entries.filter (fun e => e.tenant = t)).length + 1 := by omega
  have hprompt : (w.entryOf t i b).windowInput = false := hwindow
  simp only [Work.submitDesc, hfree, hroom, if_false, hprompt, Bool.false_eq_true]

/-- A refusal counts itself, and puts its record in the ring. -/
theorem Work.refuse_ringsOnly (hwaiting : (w.ring t).waiting = []) (cause handle tag : Nat) (deadline : Option Int) :
    (w.add Obj.intakeRefused 1).ringsOnly (w.refuse t cause handle tag deadline) :=
  Work.ringsOnly.putRecord (.refl _) hwaiting (by simp [refusedRecord])

theorem Work.cancelDesc_of_live {b : List Byte} {e : Entry} (hslot : (slice b 1 3).all (· = 0) = true) (hrest : (slice b 16 104).all (· = 0) = true)
    (he : w.byHandle (leAt b 4 4) = some e) (htenant : e.tenant = t) (hlive : e.terminal = false) :
    w.cancelDesc t b = w.cancelEntry e true := by
  simp only [Work.cancelDesc, hslot, hrest, he, htenant, hlive, Bool.and_self, Bool.not_true, Bool.false_eq_true, if_false, ne_eq, not_true_eq_false]
end

section
variable {s : State} {tenant : Nat} {b : List Byte} (h : Consumes s tenant b) (us : Nat)
include h

theorem State.submit_takes_entry {i : Nat} (hrole : s.val Obj.role = 1) (hop : leAt b 0 1 = 1) (hwindow : descWindow b = false)
    (hfree : s.work.freeIndexOf = some i)
    (hcap : (s.dev.serve.entries.filter (fun e => e.tenant = tenant)).length < s.val (Obj.tenantRequestCap tenant)) :
    ∃ t, exec (.submit tenant b false us) s = .next t ∧ s.counted t Obj.intakeDescriptors 1 ∧
      (∃ e ∈ t.dev.serve.entries, e.index = i ∧ e.tenant = tenant ∧ e.state = 1 ∧ e.hostTag = descTag b ∧ e.slot = leAt b 1 1 % 4) ∧
      s.frame t [.host, .now, .serve] (fun x => x = Obj.intakeDescriptors ∨ x = Obj.tenantDescriptors tenant) := by
  obtain ⟨w, a, hw, rfl, hpoison, hexec⟩ := State.descriptor_consumed h us (.inl rfl)
  have hfree' : (w.countDesc tenant).freeIndexOf = some i :=
    (Work.freeIndexOf_congr hw.serve).trans hfree
  have hcap' : ((w.countDesc tenant).serve.entries.filter (fun e => e.tenant = tenant)).length < (w.countDesc tenant).get (Obj.tenantRequestCap tenant) := by
    rw [Work.countDesc_get_of_ne (by simp) (by simp), hw.get]
    change (w.serve.entries.filter _).length < _
    rw [hw.serve]
    exact hcap
  rw [Work.consume_submit hpoison ((hw.get _).trans hrole) hop, Work.submitDesc_of_free hfree' hwindow hcap'] at hexec
  obtain ⟨host, hvisit⟩ := Work.intakeVisit_of_empty (w := (w.countDesc tenant).modServe _) hw.aperture
  rw [hvisit] at hexec
  refine ⟨_, hexec, State.run_counted_add (u := w) (by simp [linkCounter]) (hw.get _) ?_, ?_, State.keeps.frame_silent ?_ hw.silent⟩
  · change (w.countDesc tenant).get Obj.intakeDescriptors = _
    rw [Work.countDesc, Work.add_get, if_neg (by simp)]
  · rw [State.run_serve]
    exact ⟨_, List.mem_append_right _ (List.mem_singleton.mpr rfl), rfl, rfl, rfl, rfl, rfl⟩
  · exact ((((hw.keeps.mono (by simp) fun _ => False.elim).add (.inl rfl) 1).add (.inr rfl) 1).modServe (by simp) _).host (by simp) host

theorem State.submit_refused_elsewhere (hrole : s.val Obj.role ≠ 1) :
    ∃ t, exec (.submit tenant b false us) s = .next t ∧ s.counted t Obj.intakeRefused 1 ∧ t.dev.serve.entries = s.dev.serve.entries := by
  obtain ⟨w, a, hw, rfl, hpoison, hexec⟩ := State.descriptor_consumed h us (.inl rfl)
  obtain ⟨handle, hrefused⟩ := Work.consume_elsewhere (w := w) (t := tenant) hpoison (by rwa [hw.get])
  have hrings := Work.refuse_ringsOnly (w := w.countDesc tenant) hw.waiting 0x40 handle (descTag a.desc) none
  have hempty := (hrings.aperture tenant).trans hw.aperture
  rw [hrefused] at hexec
  refine ⟨_, hexec, State.run_counted_add (u := w.countDesc tenant) (by simp [linkCounter]) ?_
    ((Work.intakeVisit_of_empty_get hempty _).trans (hrings.vals _ (by simp [recordKey]))), ?_⟩
  · rw [Work.countDesc_get_of_ne (by simp) (by simp), hw.get]
  · rw [State.run_serve, Work.intakeVisit_of_empty_serve hempty]
    exact congrArg ServeState.entries (hrings.serve.trans hw.serve)

theorem State.cancel_ends_request {e : Entry} (hrole : s.val Obj.role = 1) (hplan : s.dev.serve.plan ≠ none) (hop : leAt b 0 1 = 2)
    (hslot : (slice b 1 3).all (· = 0) = true) (hrest : (slice b 16 104).all (· = 0) = true) (he : s.work.byHandle (leAt b 4 4) = some e)
    (htenant : e.tenant = tenant) (hlive : e.terminal = false) :
    ∃ t, exec (.cancel tenant b false us) s = .next t ∧ s.counted t Obj.requestsCancelled 1 ∧
      ∃ x ∈ t.dev.serve.entries, x.index = e.index ∧ x.state = 9 ∧ x.cause = 0x10 := by
  obtain ⟨w, a, hw, rfl, hpoison, hexec⟩ := State.descriptor_consumed h us (.inr rfl)
  have he' : (w.countDesc tenant).byHandle (leAt a.desc 4 4) = some e := (Work.byHandle_congr hw.serve _).trans he
  have hplan' : w.serve.plan ≠ none := by rwa [hw.serve]
  obtain ⟨hentry, -, hvals, haperture⟩ := Work.cancelEntry_cancels (s := w.countDesc tenant) (Work.mem_of_byHandle he')
    (by rw [htenant]; exact hw.waiting) hplan' true
  have hempty := (haperture tenant).trans hw.aperture
  rw [Work.consume_cancel hpoison ((hw.get _).trans hrole) hop, Work.cancelDesc_of_live hslot hrest he' htenant hlive] at hexec
  refine ⟨_, hexec, State.run_counted_add (u := w.countDesc tenant) (by simp [linkCounter]) ?_
    ((Work.intakeVisit_of_empty_get hempty _).trans (hvals _ (by simp [recordKey]))), ?_⟩
  · rw [Work.countDesc_get_of_ne (by simp) (by simp), hw.get]
  · rw [State.run_serve, Work.intakeVisit_of_empty_serve hempty]
    exact hentry
end

/-! ## Admission and refusal (R285, R286) -/

/-- A request that was in INTAKE is QUEUED, and counted. -/
structure Work.queues (s t : Work) (e : Entry) : Prop where
  entry : ∃ x ∈ t.serve.entries, x.index = e.index ∧ x.state = 2
  vals : ∀ k, ¬ recordKey k → t.get k = (s.add Obj.requestsAdmitted 1).get k

/-- A request that was in INTAKE is refused, and its entry FREE. -/
structure Work.refuses (s t : Work) (e : Entry) : Prop where
  free : ∀ x ∈ t.serve.entries, x.index ≠ e.index
  vals : ∀ k, ¬ recordKey k → t.get k = (s.add Obj.intakeRefused 1).get k

theorem isSome_ite_some {c : Prop} [Decidable c] {a : Nat} {o : Option Nat} (h : o.isSome = true) : (if c then some a else o).isSome = true := by
  split
  · rfl
  · exact h

/-- A prompt that was fetched poisoned, or not at all, fails the check of INPUT_POISON if none before it (R585). -/
theorem Work.intakeCheck_poison (w : Work) (e : Entry) (b : List Byte) : (w.intakeCheck e b true).isSome = true := by
  unfold Work.intakeCheck
  iterate 6 refine isSome_ite_some ?_
  rfl

section
variable {w : Work} {e : Entry} (hwaiting : (w.ring e.tenant).waiting = []) (hplan : w.serve.plan ≠ none)
include hwaiting hplan

theorem Work.refuseEntry_refuses (cause : Nat) : w.refuses (w.refuseEntry e cause).idle e := by
  have hrings := Work.refuse_ringsOnly hwaiting cause 0xFFFFFFFF e.hostTag e.deadline
  rw [Work.idle_of_plan (u := w.refuseEntry e cause) ((congrArg ServeState.plan hrings.serve).trans_ne hplan)]
  refine ⟨fun x hx => of_decide_eq_true (List.mem_filter.mp hx).2, fun k hk => ?_⟩
  rw [Work.refuseEntry, Work.freeEntry, Work.modServe_get]
  exact hrings.vals k hk

theorem Work.admitRequest_queues (he : ∃ x ∈ w.serve.entries, x.index = e.index) : w.queues (w.admitRequest e) e := by
  unfold Work.admitRequest
  extract_lets n forked typed queued put
  have hforked : forked.index = e.index ∧ forked.tenant = e.tenant := by
    unfold forked
    split
    · exact ⟨rfl, rfl⟩
    · split <;> exact ⟨rfl, rfl⟩
  have htyped : typed.index = forked.index ∧ typed.tenant = forked.tenant := by
    unfold typed
    split
    · exact ⟨rfl, rfl⟩
    · split <;> exact ⟨rfl, rfl⟩
  have hindex : queued.index = e.index := htyped.1.trans hforked.1
  have htenant : queued.tenant = e.tenant := htyped.2.trans hforked.2
  have hrings := Work.ringsOnly.putRecord (.refl put) (n := queued.tenant) (c := queued.record 1 0 false [] true) (by rw [htenant]; exact hwaiting)
    (by simp [Entry.record])
  rw [Work.idle_of_plan ((congrArg ServeState.plan hrings.serve).trans_ne hplan)]
  obtain ⟨x, hx, hxindex⟩ := he
  refine ⟨⟨queued, ?_, hindex, rfl⟩, hrings.vals⟩
  rw [hrings.serve]
  exact Work.mem_putEntry hx (hindex.trans hxindex.symm)

/-- A request whose prompt has come is admitted or refused. -/
theorem Work.judge_queues_or_refuses (he : ∃ x ∈ w.serve.entries, x.index = e.index) (b : List Byte) (poison : Bool) :
    w.queues (w.judge e b poison) e ∨ w.refuses (w.judge e b poison) e := by
  unfold Work.judge
  split
  · exact .inr (Work.refuseEntry_refuses hwaiting hplan _)
  · exact .inl (Work.admitRequest_queues hwaiting hplan he)

/-- One whose prompt has not come whole is refused. -/
theorem Work.judge_refuses_poison (b : List Byte) : w.refuses (w.judge e b true) e := by
  obtain ⟨cause, hcause⟩ := Option.isSome_iff_exists.mp (w.intakeCheck_poison e b)
  rw [Work.judge, hcause]
  exact Work.refuseEntry_refuses hwaiting hplan cause
end

/-! ## PROMPT_FETCH_DONE (R286, R426) -/

/-- The fetch of a prompt is over: nothing of it is awaited, and its bytes have been read from the host. -/
def Work.fetchOver (w : Work) (i : Nat) (e : Entry) : Work :=
  (w.modServe fun x => { x with fetching := drop1 x.fetching i }).add (Obj.hostReadBytes (tenantPort e.tenant)) (4 * e.promptLen)

/-- The bytes read are counted, whatever else is counted then. -/
theorem Work.fetchOver_add_get (w : Work) (i : Nat) (e : Entry) {k : Key} (n : Nat) (hk : k ≠ Obj.hostReadBytes (tenantPort e.tenant)) :
    ((w.fetchOver i e).add k n).get (Obj.hostReadBytes (tenantPort e.tenant)) =
      (w.add (Obj.hostReadBytes (tenantPort e.tenant)) (4 * e.promptLen)).get (Obj.hostReadBytes (tenantPort e.tenant)) :=
  (Work.add_get _ _ _ _).trans (if_neg hk)

theorem Work.fetchOver_get_of_ne (w : Work) (i : Nat) (e : Entry) {k : Key} (hk : k ≠ Obj.hostReadBytes (tenantPort e.tenant)) :
    (w.fetchOver i e).get k = w.get k := (Work.add_get _ _ _ _).trans (if_neg hk.symm)

section
variable {w : Work} {i : Nat} {e : Entry} (he : w.entry i = some e)
include he

theorem Work.promptFetched_of_not_intake (hstate : e.state ≠ 1) (f : FetchEnd) : w.promptFetched i f = w := by
  simp only [Work.promptFetched, he, hstate, ne_eq, not_false_eq_true, if_true]

/-- A prompt that has come is judged with its tokens, and one that has not with its failure. -/
theorem Work.promptFetched_of_intake (hstate : e.state = 1) (f : FetchEnd) :
    (∃ tokens log b, f = .ok tokens ∧ w.promptFetched i f = ((w.fetchOver i e).putEntry { e with log := log }).judge { e with log := log } b false) ∨
    ∃ b, w.promptFetched i f = (w.fetchOver i e).judge e b true := by
  simp only [Work.promptFetched, he, hstate, ne_eq, not_true_eq_false, if_false]
  cases f with
  | ok tokens => exact .inl ⟨tokens, _, _, rfl, rfl⟩
  | error => exact .inr ⟨_, rfl⟩
  | poisoned => exact .inr ⟨_, rfl⟩

theorem Work.promptFetched_queues_or_refuses (hstate : e.state = 1) (hwaiting : (w.ring e.tenant).waiting = []) (hplan : w.serve.plan ≠ none)
    (f : FetchEnd) :
    ((∃ tokens, f = .ok tokens) ∧ (w.fetchOver i e).queues (w.promptFetched i f) e) ∨ (w.fetchOver i e).refuses (w.promptFetched i f) e := by
  obtain ⟨hmem, hindex⟩ := Work.index_of_entry he
  obtain ⟨tokens, log, b, hf, hjudge⟩ | ⟨b, hjudge⟩ := Work.promptFetched_of_intake he hstate f
  · have hin : { e with log := log } ∈ ((w.fetchOver i e).putEntry { e with log := log }).serve.entries := Work.mem_putEntry (e := e) hmem rfl
    rw [hjudge]
    obtain ⟨hentry, hvals⟩ | ⟨hfree, hvals⟩ := Work.judge_queues_or_refuses (w := (w.fetchOver i e).putEntry { e with log := log })
      (e := { e with log := log }) hwaiting hplan ⟨_, hin, rfl⟩ b false
    · exact .inl ⟨⟨tokens, hf⟩, hentry, hvals⟩
    · exact .inr ⟨hfree, hvals⟩
  · rw [hjudge]
    exact .inr (Work.judge_refuses_poison (w := w.fetchOver i e) hwaiting hplan b)
end

section
variable {s : State} {i : Nat} {e : Entry} (hi : i < 16384) (he : s.work.entry i = some e) (f : FetchEnd) (us : Nat)
include hi he

theorem State.promptFetch_of_not_intake (hstate : e.state ≠ 1) :
    ∃ t, exec (.promptFetchDone i f us) s = .next t ∧ s.frame t [.now] (fun _ => False) := by
  have hwork := Work.promptFetched_of_not_intake (w := s.work.at us) he hstate f
  refine ⟨_, State.nextIf_true (decide_eq_true hi), State.keeps.frame_silent ?_ ?_⟩
  · rw [hwork]
    exact (s.keeps_work _ _).at (by simp) us
  · rw [hwork]
    rfl

theorem State.promptFetch_of_intake (hstate : e.state = 1) (hplan : s.dev.serve.plan ≠ none) (hwaiting : (s.work.ring e.tenant).waiting = []) :
    ∃ t, exec (.promptFetchDone i f us) s = .next t ∧ s.counted t (Obj.hostReadBytes (tenantPort e.tenant)) (4 * e.promptLen) ∧
      ((s.counted t Obj.requestsAdmitted 1 ∧ ∃ x ∈ t.dev.serve.entries, x.index = i ∧ x.state = 2) ∨
       (s.counted t Obj.intakeRefused 1 ∧ ∀ x ∈ t.dev.serve.entries, x.index ≠ i)) ∧
      (f = .error ∨ f = .poisoned → ∀ x ∈ t.dev.serve.entries, x.index ≠ i) := by
  let w := s.work.at us
  obtain ⟨-, hindex⟩ := Work.index_of_entry he
  have hexec : exec (.promptFetchDone i f us) s = .next (s.run fun _ => w.promptFetched i f) := State.nextIf_true (decide_eq_true hi)
  obtain ⟨⟨tokens, rfl⟩, ⟨x, hx, hxindex, hxstate⟩, hvals⟩ | ⟨hfree, hvals⟩ :=
    Work.promptFetched_queues_or_refuses (w := w) he hstate hwaiting hplan f
  · refine ⟨_, hexec, ?_, .inl ⟨?_, x, by rwa [State.run_serve], hxindex.trans hindex, hxstate⟩, by rintro (hf | hf) <;> cases hf⟩
    · exact State.run_counted_add (u := w) (by simp [linkCounter]) rfl
        ((hvals _ (by simp [recordKey])).trans (w.fetchOver_add_get i e 1 (by simp)))
    · exact State.run_counted_add (by simp [linkCounter]) (w.fetchOver_get_of_ne i e (by simp)) (hvals _ (by simp [recordKey]))
  · have hgone : ∀ x ∈ (s.run fun _ => w.promptFetched i f).dev.serve.entries, x.index ≠ i := by
      rw [State.run_serve]
      exact fun x hx => hindex ▸ hfree x hx
    refine ⟨_, hexec, ?_, .inr ⟨?_, hgone⟩, fun _ => hgone⟩
    · exact State.run_counted_add (u := w) (by simp [linkCounter]) rfl
        ((hvals _ (by simp [recordKey])).trans (w.fetchOver_add_get i e 1 (by simp)))
    · exact State.run_counted_add (by simp [linkCounter]) (w.fetchOver_get_of_ne i e (by simp)) (hvals _ (by simp [recordKey]))
end

/-- Settles O40: a descriptor waits or is consumed as its ring stands, what is consumed acts or is refused as its device is the manager or not,
and a prompt's fetch ends INTAKE one way or the other. -/
theorem descriptorsAreTakenIn : Obligations.DescriptorsAreTakenIn := by
  unfold Obligations.DescriptorsAreTakenIn
  refine ⟨fun s tenant b poisoned us c hc hexists hclosed hentries hpower => ?_, fun s tenant b us i h => ⟨?_, ?_, fun e => ?_⟩,
    fun s i us f e hi he => ⟨?_, ?_⟩⟩
  · exact State.descriptor_waits hexists hclosed hentries hpower b poisoned us hc
  · exact State.submit_takes_entry h us
  · exact State.submit_refused_elsewhere h us
  · exact State.cancel_ends_request h us
  · exact State.promptFetch_of_not_intake hi he f us
  · exact fun hstate _ hplan hwaiting => State.promptFetch_of_intake hi he f us hstate hplan hwaiting

end Sys2Proof.Machine
end

section
/-! SUPPORT. The manager's ops whose destination is 0xFFFF, no buffer (R192): DRAFT then writes its drafts nowhere (R193, R215, R314). -/

namespace Sys2Proof.Machine

/-! ## No buffer (R192) -/

/-- What is written to no buffer changes nothing. -/
theorem Work.setBuf_of_noBuffer (s : Work) (slot m : Nat) (vs : List Vec) : s.setBuf slot 0xFFFF m vs = s := by
  have hnone : s.buffer slot 0xFFFF = none := if_pos rfl
  have houtside : s.outsideScratch slot 0xFFFF := fun x hx => by simp [hnone] at hx
  rw [Work.setBuf_of_outside houtside, Work.putBuf, if_pos rfl]

/-! ## DRAFT (R314, R315) -/

/-- Drafting a lane changes requests and counts, and nothing of what the die holds of the step. -/
theorem Work.draftLane_step (s : Work) (slot : Nat) (ready : Bool) (left : Nat) (p : LanePlan) (k : Nat) (heads : List CandRec) :
    (s.draftLane slot ready left p k heads).1.step = s.step := by
  unfold Work.draftLane
  split
  · rfl
  · extract_lets
    split
    · rfl
    · split
      next done _ complete _ =>
      have hcounted : (if done = 0 then s else s.add Obj.catchupPositions done).step = s.step := by split <;> rfl
      extract_lets
      split
      · exact hcounted
      · split
        · exact hcounted
        · exact hcounted

/-- DRAFT without a destination leaves every buffer as it was. -/
theorem Work.draft_bufs_of_noBuffer (s : Work) {c : OpCtx} (hdst : c.dst = 0xFFFF) (d k : Nat) (heads : List (List CandRec)) :
    (s.draft c d k heads).step.bufs = s.step.bufs := by
  unfold Work.draft
  extract_lets
  split
  next u _ _ hfold =>
  have hstep : u.step = s.step := by
    refine (congrArg (fun acc => acc.1.step) hfold).symm.trans ?_
    refine List.foldlRecOn (motive := fun acc : Work × Nat × List LanePlan => acc.1.step = s.step) _ _ rfl fun acc hacc q _ => ?_
    extract_lets
    split
    · exact hacc
    · exact (Work.draftLane_step ..).trans hacc
  extract_lets
  rw [hdst, Work.setBuf_of_noBuffer]
  change u.step.bufs = s.step.bufs
  rw [hstep]

theorem State.next_draft_bufs_of_noBuffer {s : State} {c : OpCtx} (hmay : MayStart s c) (hsram : sramGood c) (hplan : s.dev.serve.plan ≠ none)
    (hdst : c.dst = 0xFFFF) {d : Nat} (hd : d < 4) (k : Nat) (heads : List (List CandRec)) {t : State} (hexec : exec (.draft c d k heads) s = .next t) :
    t.dev.step.bufs = s.dev.step.bufs := by
  have hstarts : s.work.startManagerOp c (fun w => w.draft c d k heads) = (s.work.issue c).draft c d k heads := by
    rw [Work.startManagerOp, if_neg (by simpa using hplan), Work.startOp_of_mayStart hmay, Work.readSram_of_good _ hsram]
  have hrun : exec (.draft c d k heads) s = .next (s.run fun w => w.startManagerOp c (fun w => w.draft c d k heads)) :=
    State.nextIf_true (decide_eq_true hd)
  rw [← Host.Outcome.next.inj (hrun.symm.trans hexec), State.run_step, hstarts, Work.draft_bufs_of_noBuffer _ hdst]
  rfl

/-! ## An instance of DRAFT without a destination -/

/-- The device at reset, but for a step of one lane in progress: no buffer holds anything. -/
def oneLaneStep : State := { State.reset with dev := { Dev.reset with serve := { ServeState.reset with plan := some drainingPlan } } }

/-- An op of slot 0, which holds no program: no buffer is its destination or a source. -/
def noBufferOp : OpCtx := ⟨0, 0, 0, 0, 0, 0xFFFF, 0xFFFF, 0xFFFF, 0xFFFF, true, []⟩

theorem mayStart_noBufferOp : MayStart oneLaneStep noBufferOp := ⟨by decide +kernel, rfl⟩

/-- Refutes O35: a DRAFT whose destination is 0xFFFF, no buffer (R192), writes its drafts nowhere, while the statement reads back one vector for
each lane of the step. (A program that loads names a DRAFTS buffer there, R215 and R216: a premise that the destinations are buffers would
exclude the case.) -/
theorem not_managerOpsOfAStepComplete : ¬ Obligations.ManagerOpsOfAStepComplete := by
  unfold Obligations.ManagerOpsOfAStepComplete
  intro h
  obtain ⟨-, -, hsteps⟩ := h oneLaneStep noBufferOp
  obtain ⟨hdrafts, -⟩ := hsteps drainingPlan rfl mayStart_noBufferOp
  obtain ⟨t, q, hexec, -, hlanes, -, -, -, -, hread, -⟩ := hdrafts 0 0 [] (by decide)
  have hempty : t.dev.step.bufs = [] := State.next_draft_bufs_of_noBuffer mayStart_noBufferOp nofun nofun rfl (by decide) 0 [] hexec
  rw [hempty] at hread
  have hnone : q.lanes.length = 0 := by simpa using congrArg List.length hread.symm
  exact absurd (hlanes.symm.trans hnone) (by decide)

end Sys2Proof.Machine
end

section
/-! SUPPORT. More of what a run and a work keep: power, clocks, islands and memory (R20, R463, R512). -/

namespace Sys2Proof.Machine

/-! ## The next state's parts -/

section
variable (s : State) (f : Work → Work)

theorem State.run_power : (s.run f).dev.power = (f s.work).power := by
  obtain ⟨ls, n, os, h⟩ := s.run_dev_eq f
  rw [h]

theorem State.run_islands : (s.run f).dev.islands = (f s.work).islands := by
  obtain ⟨ls, n, os, h⟩ := s.run_dev_eq f
  rw [h]

theorem State.run_dma : (s.run f).dev.dma = (f s.work).dma := by
  obtain ⟨ls, n, os, h⟩ := s.run_dev_eq f
  rw [h]

theorem State.run_dram : (s.run f).dev.dram = (f s.work).dram := by
  obtain ⟨ls, n, os, h⟩ := s.run_dev_eq f
  rw [h]

theorem State.run_domain (d : Nat) : (s.run f).work.domain d = (f s.work).domain d :=
  congrArg (fun x : PowerState => x.domains.getD d .reset) (s.run_power f)

theorem State.run_islandCond (i : Nat) : (s.run f).work.islandCond i = (f s.work).islandCond i :=
  congrArg (fun x : List (Nat × IslandCond) => look IslandCond.running x i) (s.run_islands f)

theorem State.run_hkHalf (h : Nat) : (s.run f).work.hkHalf h = (f s.work).hkHalf h :=
  congrArg (fun x : List HkHalf => x.getD h .reset) (s.run_hk f)

theorem State.run_dmaChan (c : Nat) : (s.run f).work.dmaChan c = (f s.work).dmaChan c :=
  congrArg (fun x : List (Nat × DmaChan) => look DmaChan.reset x c) (s.run_dma f)

theorem State.run_coreTest (c : Nat) : (s.run f).work.coreTest c = (f s.work).coreTest c :=
  congrArg (fun x : RelState => look CoreTest.reset x.tests c) (s.run_rel f)
end

/-! ## What a work keeps -/

section
variable {s : State} {w : Work} {parts : List StatePart} {keys : Key → Prop}

theorem State.keeps.power (h : s.keeps w parts keys) (hpower : StatePart.power ∈ parts) (x : PowerState) : s.keeps { w with power := x } parts keys := by
  refine ⟨fun p hp => ?_, h.2⟩
  cases p with
  | power => exact absurd hpower hp
  | _ => exact h.1 _ hp

theorem State.keeps.setDomain (h : s.keeps w parts keys) (hpower : StatePart.power ∈ parts) (d : Nat) (x : ThermDomain) :
    s.keeps (w.setDomain d x) parts keys := h.power hpower _

theorem State.keeps.setIsland (h : s.keeps w parts keys) (hislands : StatePart.islands ∈ parts) (i : Nat) (c : IslandCond) :
    s.keeps (w.setIsland i c) parts keys := by
  refine ⟨fun p hp => ?_, h.2⟩
  cases p with
  | islands => exact absurd hislands hp
  | _ => exact h.1 _ hp

theorem State.keeps.boot (h : s.keeps w parts keys) (hboot : StatePart.boot ∈ parts) (x : BootState) : s.keeps { w with boot := x } parts keys := by
  refine ⟨fun p hp => ?_, h.2⟩
  cases p with
  | boot => exact absurd hboot hp
  | _ => exact h.1 _ hp

theorem State.keeps.modBoot (h : s.keeps w parts keys) (hboot : StatePart.boot ∈ parts) (f : BootState → BootState) :
    s.keeps (w.modBoot f) parts keys := h.boot hboot _

theorem State.keeps.setHk (h : s.keeps w parts keys) (hhk : StatePart.hk ∈ parts) (n : Nat) (x : HkHalf) : s.keeps (w.setHk n x) parts keys := by
  refine ⟨fun p hp => ?_, h.2⟩
  cases p with
  | hk => exact absurd hhk hp
  | _ => exact h.1 _ hp

theorem State.keeps.setDma (h : s.keeps w parts keys) (hdma : StatePart.dma ∈ parts) (c : Nat) (x : DmaChan) : s.keeps (w.setDma c x) parts keys := by
  refine ⟨fun p hp => ?_, h.2⟩
  cases p with
  | dma => exact absurd hdma hp
  | _ => exact h.1 _ hp

theorem State.keeps.dram (h : s.keeps w parts keys) (hdram : StatePart.dram ∈ parts) (x : StackState) : s.keeps { w with dram := x } parts keys := by
  refine ⟨fun p hp => ?_, h.2⟩
  cases p with
  | dram => exact absurd hdram hp
  | _ => exact h.1 _ hp

theorem State.keeps.setTest (h : s.keeps w parts keys) (hrel : StatePart.rel ∈ parts) (c : Nat) (x : CoreTest) : s.keeps (w.setTest c x) parts keys :=
  h.rel hrel _

theorem State.keeps.setLink (h : s.keeps w parts keys) (hlinks : StatePart.links ∈ parts) (l : Nat) (x : Link) : s.keeps (w.setLink l x) parts keys := by
  refine ⟨fun p hp => ?_, h.2⟩
  cases p with
  | links => exact absurd hlinks hp
  | _ => exact h.1 _ hp

theorem State.keeps.memOp (h : s.keeps w parts keys) (hmem : StatePart.mem ∈ parts) (o : MemOp) : s.keeps (w.memOp o) parts keys := by
  refine ⟨fun p hp => ?_, h.2⟩
  cases p with
  | mem => exact absurd hmem hp
  | _ => exact h.1 _ hp

/-- Raising a maximum that is listed. -/
theorem State.keeps.raise (h : s.keeps w parts keys) {k : Key} (hk : keys k) (v : Nat) : s.keeps (w.raise k v) parts keys := h.set hk _

theorem State.keeps.ite (h : s.keeps w parts keys) {u : Work} (hu : s.keeps u parts keys) (c : Prop) [Decidable c] :
    s.keeps (if c then w else u) parts keys := by
  split
  · exact h
  · exact hu

theorem State.keeps.foldl {α : Type} {f : Work → α → Work} (l : List α) (h : s.keeps w parts keys)
    (hf : ∀ u, s.keeps u parts keys → ∀ a ∈ l, s.keeps (f u a) parts keys) : s.keeps (l.foldl f w) parts keys :=
  List.foldlRecOn (motive := fun u => s.keeps u parts keys) l f h hf

/-- A command that sends nothing counts what its work counts, for any object. -/
theorem State.run_counted_silent {f : Work → Work} {k : Key} {n : Nat} (hsent : (f s.work).sent = []) (h : s.work.counted (f s.work) k n) :
    s.counted (s.run f) k n :=
  fun hlt => (State.run_val_local s f (fun _ _ _ => by simp [hsent]) k).trans (h hlt)
end

theorem Work.counted_add (s : Work) (k : Key) (n : Nat) : s.counted (s.add k n) k n := fun hlt => by
  rw [Work.add_get, if_pos rfl, countPast_of_lt hlt]

/-- A count that has been added to a value that stands as it was. -/
theorem Work.counted_of_get_eq {s t : Work} {k : Key} {n : Nat} (h : t.get k = countPast k (s.get k + n)) : s.counted t k n := fun hlt =>
  h.trans (countPast_of_lt hlt)

end Sys2Proof.Machine
end

section
/-! SUPPORT. Memory stays canonical, and what reset leaves (R463, R471, R548, R557, R558). -/

namespace Sys2Proof.Machine

/-- Every run leaves memory as its work's changes make it, and each change keeps it canonical. -/
theorem State.run_mem_wf {s : State} (h : s.mem.wf = true) (f : Work → Work) : (s.run f).mem.wf = true := by
  rw [State.run_mem]
  exact Mem.applyAll_wf _ h

/-- A command that completes has run a work, which keeps memory canonical. -/
theorem exec_mem_wf {c : Instr} {s t : State} (hexec : exec c s = .next t) (h : s.mem.wf = true) : t.mem.wf = true := by
  obtain ⟨f, rfl⟩ := exec_next_eq_run hexec
  exact State.run_mem_wf h f

/-- Settles O2: an idle step leaves memory alone, and any other is a command that completes. -/
theorem everyStepKeepsMemoryCanonical : Obligations.EveryStepKeepsMemoryCanonical := by
  unfold Obligations.EveryStepKeepsMemoryCanonical
  intro s t hwf hstep
  unfold step at hstep
  split at hstep
  case h_1 =>
    obtain rfl := Host.Outcome.next.inj hstep
    exact hwf
  case h_2 c rest _ => exact exec_mem_wf hstep (s := { s with pending := rest }) hwf

/-- At reset no object has been set, so each reads its default. -/
theorem State.reset_val (k : Key) : State.reset.val k = defaultOf k := rfl

theorem defaultOf_of_lit {k : Key} {row : Row} {v : Nat} (hrow : findRow k.index k.sub = some row) (hlit : row.dflt = .lit v) : defaultOf k = v := by
  simp only [defaultOf, hrow, hlit]

/-- Settles O3: memory lists nothing, and an object that has not been set has its default. -/
theorem resetLeavesDefaultsAndZeroMemory : Obligations.ResetLeavesDefaultsAndZeroMemory := by
  unfold Obligations.ResetLeavesDefaultsAndZeroMemory
  exact ⟨reset_mem_wf, fun _ => rfl, fun _ => rfl, fun k _ _ hrow hlit => (State.reset_val k).trans (defaultOf_of_lit hrow hlit), rfl, rfl⟩

end Sys2Proof.Machine
end

section
/-! SUPPORT. The power governor (R512 to R514) and the skip level an island tells of (R19, R513). -/

namespace Sys2Proof.Machine

/-! ## POWER_SAMPLE (R512) -/

/-- The work once a sample has been taken in, before it is judged. -/
def Work.sampled (s : Work) (mw mv ma : Nat) : Work :=
  ({ s with power := { s.power with
    samples := (mw :: s.power.samples).take 100, vinMv := mv, vinMa := ma, energy := s.power.energy + mw } } : Work).raise Obj.peakInputMw mw

/-- A sample judged against the bound. -/
def Work.peakJudged (u : Work) (mw : Nat) : Work :=
  if 1000 * u.get Obj.powerBoundW + u.programDraw < mw then
    if (u.add Obj.peakEvents 1).get Obj.governorSkip < 4 then (u.add Obj.peakEvents 1).setGovernor 4 else u.add Obj.peakEvents 1
  else if 1000 * u.get Obj.powerBoundW < mw then { u.add Obj.peakEvents 1 with power := { u.power with withhold := true } }
  else if u.power.withhold ∧ u.power.samples.all (fun x => x + u.get Obj.programDrawMw < 1000 * u.get Obj.powerBoundW) then
    { u with power := { u.power with withhold := false } }
  else u

theorem Work.powerSample_eq (s : Work) (mw mv ma : Nat) : s.powerSample mw mv ma = (s.sampled mw mv ma).peakJudged mw := rfl

theorem Work.sampled_get (s : Work) (mw mv ma : Nat) (k : Key) :
    (s.sampled mw mv ma).get k = if Obj.peakInputMw = k then max (s.get Obj.peakInputMw) (objValue Obj.peakInputMw mw) else s.get k :=
  Work.raise_get _ _ _ _

theorem Work.sampled_programDraw (s : Work) (mw mv ma : Nat) : (s.sampled mw mv ma).programDraw = s.programDraw := by
  have hdraw : (s.sampled mw mv ma).get Obj.programDrawMw = s.get Obj.programDrawMw := (s.sampled_get mw mv ma _).trans (if_neg (by decide))
  rw [Work.programDraw, hdraw]
  rfl

theorem Work.peakJudged_rest (u : Work) (mw : Nat) : ∃ power objs, u.peakJudged mw = { u with power := power, objs := objs } ∧
    power = { u.power with sinceChange := power.sinceChange, withhold := power.withhold } ∧
    (1000 * u.get Obj.powerBoundW < mw → mw ≤ 1000 * u.get Obj.powerBoundW + u.programDraw → power.withhold = true) := by
  unfold Work.peakJudged
  split
  case isTrue hfar => split <;> exact ⟨_, _, rfl, rfl, fun _ h => absurd h (by omega)⟩
  case isFalse =>
    split
    case isTrue => exact ⟨_, _, rfl, rfl, fun _ _ => rfl⟩
    case isFalse hunder => split <;> exact ⟨_, _, rfl, rfl, fun h => absurd h hunder⟩

/-- Past the bound a sample is a peak event; past it by more than the draw of programming it raises the governor to 4. -/
theorem Work.peakJudged_get (u : Work) (mw : Nat) (k : Key) : (u.peakJudged mw).get k =
    if Obj.peakEvents = k ∧ 1000 * u.get Obj.powerBoundW < mw then countPast k (u.get k + 1)
    else if Obj.governorSkip = k ∧ 1000 * u.get Obj.powerBoundW + u.programDraw < mw then max 4 (u.get k) else u.get k := by
  have hcounted : (u.add Obj.peakEvents 1).get k = if Obj.peakEvents = k then countPast k (u.get k + 1) else u.get k := by
    rw [Work.add_get]
    split
    case isTrue hk => rw [hk]
    case isFalse => rfl
  have hne : Obj.peakEvents ≠ Obj.governorSkip := by decide
  unfold Work.peakJudged
  split
  case isTrue hfar =>
    have hpast : 1000 * u.get Obj.powerBoundW < mw := by omega
    have hskip : (u.add Obj.peakEvents 1).get Obj.governorSkip = u.get Obj.governorSkip := (u.add_get _ _ _).trans (if_neg hne)
    rw [hskip]
    split
    case isTrue hlow =>
      refine ((u.add Obj.peakEvents 1).set_get Obj.governorSkip 4 k).trans ?_
      by_cases hk : Obj.governorSkip = k
      · subst hk
        rw [if_pos rfl, if_neg (fun h => hne h.1), if_pos ⟨rfl, hfar⟩]
        omega
      · rw [if_neg hk, hcounted]
        simp only [hpast, hk, and_true, false_and, if_false]
    case isFalse hhigh =>
      rw [hcounted]
      by_cases hk : Obj.governorSkip = k
      · subst hk
        rw [if_neg hne, if_neg (fun h => hne h.1), if_pos ⟨rfl, hfar⟩]
        omega
      · simp only [hpast, hk, and_true, false_and, if_false]
  case isFalse hnear =>
    split
    case isTrue hpast => exact hcounted.trans (by simp only [hpast, hnear, and_true, and_false, if_false])
    case isFalse hunder =>
      simp only [hunder, hnear, and_false, if_false]
      split <;> rfl

theorem Work.powerSample_rest (s : Work) (mw mv ma : Nat) : ∃ power objs, s.powerSample mw mv ma = { s with power := power, objs := objs } ∧
    power.samples = (mw :: s.power.samples).take 100 ∧ power.vinMv = mv ∧ power.vinMa = ma ∧ power.energy = s.power.energy + mw ∧
    (1000 * s.get Obj.powerBoundW < mw → mw ≤ 1000 * s.get Obj.powerBoundW + s.programDraw → power.withhold = true) := by
  obtain ⟨power, objs, heq, hpower, hwithhold⟩ := (s.sampled mw mv ma).peakJudged_rest mw
  rw [(s.sampled_get mw mv ma _).trans (if_neg (by decide)), s.sampled_programDraw] at hwithhold
  exact ⟨power, objs, heq, by rw [hpower]; rfl, by rw [hpower]; rfl, by rw [hpower]; rfl, by rw [hpower]; rfl, hwithhold⟩

theorem Work.powerSample_get (s : Work) (mw mv ma : Nat) (k : Key) : (s.powerSample mw mv ma).get k =
    if Obj.peakEvents = k ∧ 1000 * s.get Obj.powerBoundW < mw then countPast k (s.get k + 1)
    else if Obj.governorSkip = k ∧ 1000 * s.get Obj.powerBoundW + s.programDraw < mw then max 4 (s.get k)
    else if Obj.peakInputMw = k then max (s.get k) (objValue k mw) else s.get k := by
  have hbound : (s.sampled mw mv ma).get Obj.powerBoundW = s.get Obj.powerBoundW := (s.sampled_get mw mv ma _).trans (if_neg (by decide))
  rw [s.powerSample_eq, Work.peakJudged_get, hbound, s.sampled_programDraw, s.sampled_get]
  by_cases hk : Obj.peakInputMw = k
  · subst hk
    simp
  · simp only [hk, if_false]

/-- Settles O14: the sample is taken in, and the judgement moves its own three objects. -/
theorem powerSampleFeedsTheGovernor : Obligations.PowerSampleFeedsTheGovernor := by
  unfold Obligations.PowerSampleFeedsTheGovernor
  intro s mw mv ma
  obtain ⟨power, objs, heq, hsamples, hmv, hma, henergy, hwithhold⟩ := s.work.powerSample_rest mw mv ma
  have hpower : (s.run fun w => w.powerSample mw mv ma).dev.power = power := by rw [State.run_power, heq]
  have hval : ∀ k, (s.run fun w => w.powerSample mw mv ma).val k = _ := fun k =>
    (State.run_val_local s _ (fun _ _ _ => by simp [heq]) k).trans (s.work.powerSample_get mw mv ma k)
  refine ⟨_, rfl, ?_, ?_, ?_, ?_, ?_, ⟨?_, ?_, ?_, ?_⟩, State.run_frame_local (fun _ _ _ => by simp [heq]) ?_ ?_⟩
  · rw [hpower, hsamples]
    rfl
  · rw [hpower, hmv]
  · rw [hpower, hma]
  · rw [hpower, henergy]
    rfl
  · exact hval _
  · intro hpast hlt
    rw [hval, if_pos ⟨rfl, hpast⟩]
    exact countPast_of_lt hlt
  · intro hle
    exact (hval _).trans (if_neg fun h => absurd h.2 (not_lt.mpr hle))
  · rw [hval]
    simp
    rfl
  · rw [hpower]
    exact hwithhold
  · intro p hp
    simp only [State.worked, heq]
    cases p with
    | power => exact absurd List.mem_cons_self hp
    | _ => rfl
  · intro k hk
    simp only [not_or] at hk
    obtain ⟨hpeak, hevents, hskip⟩ := hk
    rw [s.work.powerSample_get, if_neg (fun h => hevents h.1.symm), if_neg (fun h => hskip h.1.symm), if_neg (Ne.symm hpeak)]
    rfl

/-! ## GOVERNOR_DECISION (R512, R514) -/

/-- A millisecond passes in one domain (R531, R532). -/
def Work.msPasses (s : Work) (d : Nat) : Work :=
  if (s.domain d).state = .skipping ∨ (s.domain d).state = .divided then
    (s.setDomain d { s.domain d with ms := min ((s.domain d).ms + 1) 65535 }).add (Obj.enforcedMs d) 1
  else s.setDomain d { s.domain d with ms := min ((s.domain d).ms + 1) 65535 }

theorem Work.msPasses_domain (s : Work) (d e : Nat) :
    (s.msPasses d).domain e = if e = d then { s.domain d with ms := min ((s.domain d).ms + 1) 65535 } else s.domain e := by
  unfold Work.msPasses
  split <;> exact s.setDomain_domain d _ e

theorem Work.msPasses_get (s : Work) (d : Nat) {k : Key} (hk : Obj.enforcedMs d ≠ k) : (s.msPasses d).get k = s.get k := by
  unfold Work.msPasses
  split
  · exact (Work.add_get _ _ _ _).trans (if_neg hk)
  · rfl

theorem Work.msPasses_rest (s : Work) (d : Nat) : ∃ domains objs,
    s.msPasses d = { s with power := { s.power with domains := domains }, objs := objs } := by
  unfold Work.msPasses
  split <;> exact ⟨_, _, rfl⟩

theorem Work.thermalMs_eq (s : Work) : s.thermalMs = (((s.msPasses 0).msPasses 1).msPasses 2).msPasses 3 := by
  have hfold : s.thermalMs = (List.range 4).foldl Work.msPasses s := rfl
  rw [hfold, show List.range 4 = [0, 1, 2, 3] from rfl, List.foldl_cons, List.foldl_cons, List.foldl_cons, List.foldl_cons, List.foldl_nil]

theorem Work.thermalMs_rest (s : Work) : ∃ domains objs, s.thermalMs = { s with power := { s.power with domains := domains }, objs := objs } := by
  obtain ⟨_, _, h0⟩ := s.msPasses_rest 0
  obtain ⟨_, _, h1⟩ := (s.msPasses 0).msPasses_rest 1
  obtain ⟨_, _, h2⟩ := ((s.msPasses 0).msPasses 1).msPasses_rest 2
  obtain ⟨_, _, h3⟩ := (((s.msPasses 0).msPasses 1).msPasses 2).msPasses_rest 3
  rw [s.thermalMs_eq, h3, h2, h1, h0]
  exact ⟨_, _, rfl⟩

theorem Work.thermalMs_domain (s : Work) {d : Nat} (hd : d < 4) :
    s.thermalMs.domain d = { s.domain d with ms := min ((s.domain d).ms + 1) 65535 } := by
  rw [s.thermalMs_eq]
  interval_cases d <;> simp [Work.msPasses_domain]

theorem Work.thermalMs_get (s : Work) {k : Key} (hk : ∀ d, d < 4 → Obj.enforcedMs d ≠ k) : s.thermalMs.get k = s.get k := by
  rw [s.thermalMs_eq, Work.msPasses_get _ _ (hk 3 (by decide)), Work.msPasses_get _ _ (hk 2 (by decide)), Work.msPasses_get _ _ (hk 1 (by decide)),
    Work.msPasses_get _ _ (hk 0 (by decide))]

/-- One more decision since the last change. -/
def Work.sinceTick (u : Work) : Work := { u with power := { u.power with sinceChange := u.power.sinceChange + 1 } }

/-- The work that the governor decides on: a millisecond has passed, and is counted while the governor skips. -/
@[irreducible] def Work.governorTick (s : Work) : Work := (s.thermalMs.addWhen (s.thermalMs.get Obj.governorSkip ≠ 0) Obj.capLimitedMs 1).sinceTick

/-- What a decision does (R512). -/
def Work.governorActs (u : Work) (g : Nat) : GovAct → Work
  | .raise => u.setGovernor (g + 1)
  | .lower => u.setGovernor (g - 1)
  | .unreached => u.add Obj.capUnreached 1
  | .keep => u

section
variable (s : Work)

theorem Work.addWhen_rest (c : Prop) [Decidable c] (k : Key) (n : Nat) : ∃ objs, s.addWhen c k n = { s with objs := objs } := by
  unfold Work.addWhen
  split <;> exact ⟨_, rfl⟩

theorem Work.governorTick_eq : ∃ objs, s.governorTick = { s.thermalMs with
    power := { s.thermalMs.power with sinceChange := s.thermalMs.power.sinceChange + 1 }, objs := objs } := by
  unfold Work.governorTick
  generalize s.thermalMs = u
  obtain ⟨objs, h⟩ := u.addWhen_rest (u.get Obj.governorSkip ≠ 0) Obj.capLimitedMs 1
  rw [h]
  exact ⟨objs, rfl⟩

theorem Work.governorTick_rest : ∃ domains objs, s.governorTick =
    { s with power := { s.power with domains := domains, sinceChange := s.power.sinceChange + 1 }, objs := objs } := by
  obtain ⟨domains, objs, h⟩ := s.thermalMs_rest
  obtain ⟨objs', h'⟩ := s.governorTick_eq
  rw [h', h]
  exact ⟨domains, objs', rfl⟩

theorem Work.governorTick_domain {d : Nat} (hd : d < 4) :
    s.governorTick.domain d = { s.domain d with ms := min ((s.domain d).ms + 1) 65535 } := by
  obtain ⟨objs, h⟩ := s.governorTick_eq
  rw [← s.thermalMs_domain hd, h]
  generalize s.thermalMs = u
  rfl

theorem Work.governorTick_get {k : Key} (hk : ∀ d, d < 4 → Obj.enforcedMs d ≠ k) :
    s.governorTick.get k = if Obj.capLimitedMs = k ∧ s.get Obj.governorSkip ≠ 0 then countPast k (s.get k + 1) else s.get k := by
  have hskip : s.thermalMs.get Obj.governorSkip = s.get Obj.governorSkip := s.thermalMs_get fun d hd => by simp
  rw [← hskip, ← s.thermalMs_get hk]
  unfold Work.governorTick
  generalize s.thermalMs = u
  have hget : (u.addWhen (u.get Obj.governorSkip ≠ 0) Obj.capLimitedMs 1).sinceTick.get k =
    (u.addWhen (u.get Obj.governorSkip ≠ 0) Obj.capLimitedMs 1).get k := rfl
  rw [hget, Work.addWhen_get]
  split
  case isTrue h => rw [h.1]
  case isFalse => rfl

theorem Work.governorTick_get_of_ne {k : Key} (hk : ∀ d, d < 4 → Obj.enforcedMs d ≠ k) (hlimited : Obj.capLimitedMs ≠ k) :
    s.governorTick.get k = s.get k := by
  rw [s.governorTick_get hk, if_neg fun h => hlimited h.1]

theorem Work.governorTick_programDraw : s.governorTick.programDraw = s.programDraw := by
  obtain ⟨domains, objs, h⟩ := s.governorTick_rest
  rw [Work.programDraw, s.governorTick_get_of_ne (fun d hd => by simp) (by decide), h]
  rfl

theorem Work.governorTick_meanPower : s.governorTick.meanPower = s.meanPower := by
  obtain ⟨domains, objs, h⟩ := s.governorTick_rest
  rw [h]
  rfl

/-- The governor decides by the powers, its level and the decisions since it last changed. -/
theorem Work.governorDecision_eq : s.governorDecision = s.governorTick.governorActs (s.get Obj.governorSkip)
    (governorAct (1000 * s.get Obj.powerCapW) s.meanPower s.programDraw (s.get Obj.governorSkip) (s.power.sinceChange + 1)) := by
  have hcap := s.governorTick_get_of_ne (k := Obj.powerCapW) (fun d hd => by simp) (by decide)
  have hsince : s.governorTick.power.sinceChange = s.power.sinceChange + 1 := by
    obtain ⟨domains, objs, h⟩ := s.governorTick_rest
    rw [h]
  rw [← s.thermalMs_get (k := Obj.governorSkip) (fun d hd => by simp), ← hcap, ← hsince, ← s.governorTick_programDraw, ← s.governorTick_meanPower]
  unfold Work.governorDecision Work.governorTick
  generalize s.thermalMs = u
  rfl

/-- What a decision moves besides the governor's level. -/
theorem Work.governorActs_rest (u : Work) (g : Nat) (a : GovAct) : ∃ n objs,
    u.governorActs g a = { u with power := { u.power with sinceChange := n }, objs := objs } := by
  cases a <;> exact ⟨_, _, rfl⟩
end

/-- A governor that acts leaves the domains, and every object but its level and the count of a cap that is not reached. -/
theorem Work.governorActs_get (u : Work) (g : Nat) (a : GovAct) {k : Key} (hskip : Obj.governorSkip ≠ k) (hunreached : Obj.capUnreached ≠ k) :
    (u.governorActs g a).get k = u.get k := by
  cases a with
  | raise => exact (u.set_get _ _ _).trans (if_neg hskip)
  | lower => exact (u.set_get _ _ _).trans (if_neg hskip)
  | unreached => exact (u.add_get _ _ _).trans (if_neg hunreached)
  | keep => rfl

/-- The level and the decisions since it changed, after a decision. -/
theorem Work.governorActs_level (u : Work) (a : GovAct) : (u.governorActs (u.get Obj.governorSkip) a).get Obj.governorSkip =
      (match a with | .raise => u.get Obj.governorSkip + 1 | .lower => u.get Obj.governorSkip - 1 | _ => u.get Obj.governorSkip) ∧
    (u.governorActs (u.get Obj.governorSkip) a).power.sinceChange =
      (match a with | .raise => 0 | .lower => 0 | _ => u.power.sinceChange) := by
  cases a with
  | raise => exact ⟨(u.set_get _ _ _).trans (if_pos rfl), rfl⟩
  | lower => exact ⟨(u.set_get _ _ _).trans (if_pos rfl), rfl⟩
  | unreached => exact ⟨(u.add_get _ _ _).trans (if_neg (by decide)), rfl⟩
  | keep => exact ⟨rfl, rfl⟩

theorem governorAct_of_high {cap prog g since : Nat} {mean : Rat} (h : (cap : Rat) < mean ∧ (cap : Rat) + (prog : Rat) < mean) :
    governorAct cap mean prog g since = if g < 7 then .raise else .unreached := if_pos h

theorem governorAct_of_low {cap prog g since : Nat} {mean : Rat} (h : ¬ ((cap : Rat) < mean ∧ (cap : Rat) + (prog : Rat) < mean)) :
    governorAct cap mean prog g since = if mean + 25000 < (cap : Rat) + (prog : Rat) ∧ 10 ≤ since ∧ 0 < g then .lower else .keep := if_neg h

section
variable (s : State)

/-- What the governor decides in a state. -/
def State.decision : GovAct :=
  governorAct (1000 * s.val Obj.powerCapW) s.work.meanPower s.work.programDraw (s.val Obj.governorSkip) (s.dev.power.sinceChange + 1)

theorem State.governorDecision_eq : s.work.governorDecision = s.work.governorTick.governorActs (s.val Obj.governorSkip) s.decision :=
  s.work.governorDecision_eq

/-- A decision changes the power record and objects, and sends nothing. -/
theorem State.governorDecision_rest : ∃ domains n objs, s.work.governorDecision =
    { s.work with power := { s.dev.power with domains := domains, sinceChange := n }, objs := objs } := by
  obtain ⟨domains, objs, htick⟩ := s.work.governorTick_rest
  obtain ⟨n, objs', hacts⟩ := s.work.governorTick.governorActs_rest (s.val Obj.governorSkip) s.decision
  rw [s.governorDecision_eq, hacts, htick]
  exact ⟨_, _, _, rfl⟩

theorem State.governorDecision_val (k : Key) : (s.run Work.governorDecision).val k = s.work.governorDecision.get k := by
  obtain ⟨domains, n, objs, h⟩ := s.governorDecision_rest
  exact State.run_val_local s _ (fun _ _ _ => by simp [h]) k

/-- The governor's level and the decisions since it changed, by what has been decided. -/
theorem State.governorDecision_level : (s.run Work.governorDecision).val Obj.governorSkip =
      (match s.decision with | .raise => s.val Obj.governorSkip + 1 | .lower => s.val Obj.governorSkip - 1 | _ => s.val Obj.governorSkip) ∧
    (s.run Work.governorDecision).dev.power.sinceChange = (match s.decision with | .raise => 0 | .lower => 0 | _ => s.dev.power.sinceChange + 1) := by
  have hlevel := s.work.governorTick.governorActs_level s.decision
  rw [s.work.governorTick_get_of_ne (k := Obj.governorSkip) (fun d hd => by simp) (by decide)] at hlevel
  obtain ⟨domains, objs, htick⟩ := s.work.governorTick_rest
  have hsince : s.work.governorTick.power.sinceChange = s.dev.power.sinceChange + 1 := by rw [htick]; rfl
  rw [hsince] at hlevel
  rw [s.governorDecision_val, State.run_power, s.governorDecision_eq]
  exact hlevel

theorem State.governorDecision_domain {d : Nat} (hd : d < 4) :
    (s.run Work.governorDecision).work.domain d = { s.work.domain d with ms := min ((s.work.domain d).ms + 1) 65535 } := by
  obtain ⟨n, objs, hacts⟩ := s.work.governorTick.governorActs_rest (s.val Obj.governorSkip) s.decision
  rw [State.run_domain, s.governorDecision_eq, ← s.work.governorTick_domain hd, hacts]
  rfl

theorem State.governorDecision_get {k : Key} (hskip : Obj.governorSkip ≠ k) (hunreached : Obj.capUnreached ≠ k)
    (hms : ∀ d, d < 4 → Obj.enforcedMs d ≠ k) : s.work.governorDecision.get k =
      if Obj.capLimitedMs = k ∧ s.val Obj.governorSkip ≠ 0 then countPast k (s.val k + 1) else s.val k := by
  rw [s.governorDecision_eq, Work.governorActs_get _ _ _ hskip hunreached]
  exact s.work.governorTick_get hms
end

/-- Settles O15: a decision is one of four acts, and the millisecond that passes before it is each domain's own. -/
theorem governorDecidesEveryMillisecond : Obligations.GovernorDecidesEveryMillisecond := by
  unfold Obligations.GovernorDecidesEveryMillisecond
  intro s
  obtain ⟨hskip, hsince⟩ := s.governorDecision_level
  refine ⟨_, rfl, ⟨fun hhigh hlt => ?_, fun hhigh hge => ?_, fun hlow hfall => ?_, fun hlow hkeep => ?_, fun hpos hlt => ?_⟩, fun d hd => ?_, ?_⟩
  · have hact : s.decision = .raise := (governorAct_of_high hhigh).trans (if_pos hlt)
    rw [hact] at hskip hsince
    exact ⟨hskip, hsince⟩
  · have hact : s.decision = .unreached := (governorAct_of_high hhigh).trans (if_neg (not_lt.mpr hge))
    rw [hact] at hskip hsince
    refine ⟨hskip, fun hlt => ?_⟩
    have htick := s.work.governorTick_get_of_ne (k := Obj.capUnreached) (fun d hd => by simp) (by decide)
    rw [s.governorDecision_val, s.governorDecision_eq, hact]
    exact (s.work.governorTick.counted_add _ _ (htick ▸ hlt)).trans (congrArg (· + 1) htick)
  · have hact : s.decision = .lower := (governorAct_of_low hlow).trans (if_pos hfall)
    rw [hact] at hskip hsince
    exact ⟨hskip, hsince⟩
  · have hact : s.decision = .keep := (governorAct_of_low hlow).trans (if_neg hkeep)
    rw [hact] at hskip hsince
    exact ⟨hskip, hsince⟩
  · rw [s.governorDecision_val, s.governorDecision_get (by decide) (by decide) (fun d hd => by simp), if_pos ⟨rfl, by omega⟩, countPast_of_lt hlt]
  · rw [s.governorDecision_domain hd]
    exact ⟨rfl, rfl, rfl, rfl⟩
  · obtain ⟨domains, n, objs, heq⟩ := s.governorDecision_rest
    refine State.run_frame_local (fun _ _ _ => by simp [heq]) (fun p hp => ?_) (fun k hk => ?_)
    · simp only [State.worked, heq]
      cases p with
      | power => exact absurd List.mem_cons_self hp
      | _ => rfl
    · simp only [not_or, not_exists, not_and] at hk
      obtain ⟨hne, hlimited, hunreached, hms⟩ := hk
      rw [s.governorDecision_get (Ne.symm hne) (Ne.symm hunreached) (fun d hd => Ne.symm (hms d hd)), if_neg (fun h => hlimited h.1.symm)]

/-! ## The skip level of ISLAND_STATUS (R19, R40, R513) -/

theorem islandPresent_kind_ne {m : Ident} {i : Nat} (h : islandPresent m i = true) : islandKind i ≠ 15 := by
  unfold islandPresent at h
  split at h
  case isTrue hi => simp [islandKind, hi]
  case isFalse hi =>
    split at h
    case isTrue hi' => simp [islandKind, hi, hi']
    case isFalse => simpa using h

/-- On a running island the word's skip field is the level in force, whatever its condition (R40). -/
theorem field_status_skip {st kind skip half clk : Nat} (hst : st < 16) (hkind : kind < 16) (hskip : skip < 8) :
    field (st + 16 * kind + 256 * skip + 2048 * half + 65536 * clk) 10 8 = skip := by
  simp only [field]
  omega

theorem islandKind_lt (i : Nat) : islandKind i < 16 := by
  unfold islandKind
  split_ifs <;> omega

/-- Settles O16: the skip field is that of the word, which the level in force fills. -/
theorem skippingIsTheLargerLevel : Obligations.SkippingIsTheLargerLevel := by
  unfold Obligations.SkippingIsTheLargerLevel
  intro s i hpresent hrunning hgovernor hdomain
  have hskip : s.work.skipOf i < 8 := by
    unfold Work.skipOf
    split
    · exact max_lt hgovernor hdomain
    · decide
  have hident : islandPresent s.work.ident i = true := hpresent
  have hword : field (s.work.islandStatus i) 10 8 = s.work.skipOf i := by
    simp only [Work.islandStatus, islandPresent_kind_ne hpresent, hident, hrunning, Bool.not_true, Bool.false_eq_true, if_false]
    split_ifs with hdivided hlevel
    · exact field_status_skip (by decide) (islandKind_lt i) hskip
    · exact field_status_skip (by decide) (islandKind_lt i) hskip
    · rw [not_not.mp hlevel]
      exact field_status_skip (by decide) (islandKind_lt i) (by decide)
  exact hword

end Sys2Proof.Machine
end

section
/-! SUPPORT. Records that set no ATTENTION bit, refresh bands (R475), and what installing a thermal domain leaves (R33, R519, R520). -/

namespace Sys2Proof.Machine

/-! ## Records (R500 to R502) -/

/-- A record whose code sets no ATTENTION bit leaves every object as it is. -/
theorem Work.log_get_of_no_attention (s : Work) {code : Nat} (severity unitKind slot unit tenant detail : Nat) (hatt : attentionOf code = none) (k : Key) :
    (s.log severity code unitKind slot unit tenant detail).get k = s.get k := by
  have hcode : code ≠ 2 := fun h => absurd (h ▸ hatt) (by decide)
  have hsend : ∀ (u : Work) (c : Bool) (m : FabricMsg), (if c then u.toMember 0 m else u).get k = u.get k := fun u c m => by split <;> rfl
  simp only [Work.log, Work.record, hatt, hcode, if_false, false_and, hsend]
  split <;> rfl

section
variable {s : State} {w : Work} {parts : List StatePart} {keys : Key → Prop}

theorem State.keeps.record_rest (h : s.keeps w parts keys) (hrel : StatePart.rel ∈ parts) {u : Work}
    (hu : ∃ rel objs os, u = { w with rel := rel, objs := objs, sent := w.sent ++ os }) (hget : ∀ k, ¬ keys k → u.get k = w.get k) :
    s.keeps u parts keys := by
  obtain ⟨rel, objs, os, rfl⟩ := hu
  refine ⟨fun p hp => ?_, fun k hk => (hget k hk).trans (h.2 k hk)⟩
  cases p with
  | rel => exact absurd hrel hp
  | _ => exact h.1 _ hp

theorem State.keeps.log (h : s.keeps w parts keys) (hrel : StatePart.rel ∈ parts) (hatt : ∀ k, attentionKey k → keys k)
    (severity code unitKind slot unit tenant detail : Nat) : s.keeps (w.log severity code unitKind slot unit tenant detail) parts keys :=
  h.record_rest hrel (w.log_rest severity code unitKind slot unit tenant detail)
    fun _ hk => w.log_get severity code unitKind slot unit tenant detail fun ha => hk (hatt _ ha)

theorem State.keeps.log_of_no_attention (h : s.keeps w parts keys) (hrel : StatePart.rel ∈ parts) {code : Nat} (hatt : attentionOf code = none)
    (severity unitKind slot unit tenant detail : Nat) : s.keeps (w.log severity code unitKind slot unit tenant detail) parts keys :=
  h.record_rest hrel (w.log_rest severity code unitKind slot unit tenant detail)
    fun k _ => w.log_get_of_no_attention severity unitKind slot unit tenant detail hatt k

theorem State.keeps.attend (h : s.keeps w parts keys) (h0 : keys (Obj.attention 0)) (h1 : keys (Obj.attention 1)) (i : Nat) :
    s.keeps (w.attend i) parts keys := (h.set h0 _).set h1 _

theorem State.keeps.toMember (h : s.keeps w parts keys) (d : Nat) (m : FabricMsg) : s.keeps (w.toMember d m) parts keys := h.send _
end

/-- A command that changes less has the frame of one that may change more. -/
theorem State.frame.weaken {s t : State} {parts parts' : List StatePart} {keys keys' : Key → Prop} (h : s.frame t parts keys) (hparts : parts ⊆ parts')
    (hkeys : ∀ k, keys k → keys' k) : s.frame t parts' keys' := by
  obtain ⟨hpending, hident, hout, hsame, hval⟩ := h
  exact ⟨hpending, hident, hout, fun p hp => hsame p fun hp' => hp (hparts hp'), fun k hk => hval k fun hk' => hk (hkeys k hk')⟩

/-! ## REFRESH_BAND_CHANGE (R475) -/

/-- The bands of a temperature and the rate in force (R475). -/
theorem refreshBand_eq (rate : Nat) (t : Int) : refreshBand rate t =
    if 95 * 16 ≤ t ∨ (rate = 4 ∧ 92 * 16 < t) then 4 else if 85 * 16 ≤ t ∨ (2 ≤ rate ∧ 82 * 16 < t) then 2 else 1 := rfl

theorem refreshBand_four {rate : Nat} {t : Int} (h : 95 * 16 ≤ t ∨ (rate = 4 ∧ 92 * 16 < t)) : refreshBand rate t = 4 := if_pos h

theorem refreshBand_two {rate : Nat} {t : Int} (hcool : t < 95 * 16) (hleft : rate = 4 → t ≤ 92 * 16)
    (h : 85 * 16 ≤ t ∨ (2 ≤ rate ∧ 82 * 16 < t)) : refreshBand rate t = 2 := by
  rw [refreshBand_eq, if_neg (by omega), if_pos h]

theorem refreshBand_one {rate : Nat} {t : Int} (hcool : t < 85 * 16) (h : 2 ≤ rate → t ≤ 82 * 16) : refreshBand rate t = 1 := by
  rw [refreshBand_eq, if_neg (by omega), if_neg (by omega)]

/-- Settles O22: the rate follows the band, unless the stacks are off or follow their own sensors. -/
theorem refreshRateFollowsTheBand : Obligations.RefreshRateFollowsTheBand := by
  unfold Obligations.RefreshRateFollowsTheBand
  intro s stack hstack
  refine ⟨_, State.nextIf_true (decide_eq_true hstack), ?_⟩
  by_cases hoff : s.dev.dram.off = true ∨ s.dev.dram.selfRefresh = true
  · have hframe := State.run_id s (fun w => w.refreshBandChange stack) (if_pos (by simpa using hoff))
    exact ⟨by rwa [if_pos hoff], hframe.weaken (List.nil_subset _) fun _ => False.elim⟩
  · have hwork : s.work.refreshBandChange stack =
        s.work.set (Obj.refreshRate stack) (refreshBand (s.val (Obj.refreshRate stack)) (s.work.stackTemp16 stack)) := if_neg (by simpa using hoff)
    have hrate : (s.run fun w => w.refreshBandChange stack).val (Obj.refreshRate stack) =
        refreshBand (s.val (Obj.refreshRate stack)) (s.work.stackTemp16 stack) := by
      rw [State.run_val_local s _ (fun _ _ _ => by simp [hwork]), hwork, Work.set_get, if_pos rfl]
    refine ⟨?_, State.keeps.frame_silent (by rw [hwork]; exact (s.keeps_work _ (· = Obj.refreshRate stack)).set rfl _) (by rw [hwork]; rfl)⟩
    rw [if_neg hoff, hrate]
    exact ⟨fun h => refreshBand_four (.inl h), fun hne h h' => refreshBand_two h' (fun he => absurd he hne) (.inl h),
      fun hlt h => refreshBand_one h (by omega), fun he h => refreshBand_four (.inr ⟨he, h⟩),
      fun he h h' => refreshBand_two (by omega) (by omega) (.inr ⟨by omega, h⟩),
      fun hle h h' => refreshBand_two (by omega) (by omega) (.inr ⟨hle, h⟩), fun h => refreshBand_one (by omega) (by omega)⟩

/-! ## Installing a domain (R518 to R520) -/

/-- SEAM_RATE follows the clocks, and a change is told of in an event. -/
theorem Work.refreshRates_rest (s : Work) : ∃ rel objs os, s.refreshRates = { s with rel := rel, objs := objs, sent := s.sent ++ os } := by
  unfold Work.refreshRates
  extract_lets bound rated counted
  split
  · exact ⟨_, _, [], by rw [List.append_nil]; rfl⟩
  · obtain ⟨rel, objs, os, h⟩ := counted.log_rest 0 0x0006 0 0xFF 0 0xFFFF counted.seamRateNow
    exact ⟨rel, objs, os, h⟩

/-- The objects that follow the division of the routers' clocks (R29, R33). -/
def rateKeys : List Key := [Obj.selvedgeBound, Obj.seamRate, Obj.seamRateChanges]

theorem Work.refreshRates_get (s : Work) {k : Key} (hk : k ∉ rateKeys) : s.refreshRates.get k = s.get k := by
  simp only [rateKeys, List.mem_cons, List.not_mem_nil, or_false, not_or] at hk
  obtain ⟨hbound, hrate, hchanges⟩ := hk
  unfold Work.refreshRates
  extract_lets bound rated counted
  have hset : bound.get k = s.get k := (s.set_get _ _ _).trans (if_neg (Ne.symm hbound))
  split
  · exact hset
  · rw [Work.log_get_of_no_attention _ _ _ _ _ _ _ rfl]
    exact ((rated.add_get _ _ _).trans (if_neg (Ne.symm hchanges))).trans (((bound.set_get _ _ _).trans (if_neg (Ne.symm hrate))).trans hset)

theorem State.keeps.refreshRates {s : State} {w : Work} {parts : List StatePart} {keys : Key → Prop} (h : s.keeps w parts keys)
    (hrel : StatePart.rel ∈ parts) (hkeys : ∀ k ∈ rateKeys, keys k) : s.keeps w.refreshRates parts keys :=
  h.record_rest hrel w.refreshRates_rest fun k hk => w.refreshRates_get fun hm => hk (hkeys k hm)

section
variable (s : Work) (d : Nat) (x : ThermDomain)

/-- Installing a domain sets it, with the rates that follow, and a worker may report. -/
theorem Work.putDomain_eq : s.putDomain d x = (s.setDomain d x).refreshRates ∨
    s.putDomain d x = (s.setDomain d x).refreshRates.toMember 0 (.throttle x.requesting) := by
  unfold Work.putDomain
  dsimp only
  split
  · exact .inr rfl
  · exact .inl rfl

theorem Work.putDomain_rest : ∃ rel objs os, s.putDomain d x = { s.setDomain d x with rel := rel, objs := objs, sent := s.sent ++ os } := by
  obtain ⟨rel, objs, os, h⟩ := (s.setDomain d x).refreshRates_rest
  obtain hput | hput := s.putDomain_eq d x <;> rw [hput, h]
  · exact ⟨rel, objs, os, rfl⟩
  · exact ⟨rel, objs, os ++ [_], by rw [← List.append_assoc]; rfl⟩

theorem Work.putDomain_domain (e : Nat) : (s.putDomain d x).domain e = if e = d then x else s.domain e := by
  obtain ⟨rel, objs, os, h⟩ := s.putDomain_rest d x
  rw [h]
  exact s.setDomain_domain d x e

theorem Work.putDomain_get {k : Key} (hk : k ∉ rateKeys) : (s.putDomain d x).get k = s.get k := by
  have hrates := (s.setDomain d x).refreshRates_get hk
  obtain hput | hput := s.putDomain_eq d x <;> rw [hput]
  · exact hrates
  · exact hrates

theorem Work.divideDomain_domain : (s.divideDomain d x).domain d = { x with divided := true }.to .divided := by
  rw [Work.divideDomain, Work.putDomain_domain, if_pos rfl]

theorem Work.divideDomain_counts : s.counted (s.divideDomain d x) (Obj.divisions d) 1 := by
  refine Work.counted_of_get_eq ?_
  rw [Work.divideDomain, Work.putDomain_get _ _ _ (by simp [rateKeys]), Work.add_get, if_pos rfl]
end

section
variable {s : State} {w : Work} {parts : List StatePart} {keys : Key → Prop}

theorem State.keeps.putDomain (h : s.keeps w parts keys) (hpower : StatePart.power ∈ parts) (hrel : StatePart.rel ∈ parts)
    (hkeys : ∀ k ∈ rateKeys, keys k) (d : Nat) (x : ThermDomain) : s.keeps (w.putDomain d x) parts keys := by
  have hrates := (h.setDomain hpower d x).refreshRates hrel hkeys
  obtain hput | hput := w.putDomain_eq d x <;> rw [hput]
  · exact hrates
  · exact hrates.toMember _ _

theorem State.keeps.divideDomain (h : s.keeps w parts keys) (hpower : StatePart.power ∈ parts) (hrel : StatePart.rel ∈ parts)
    (hkeys : ∀ k ∈ rateKeys, keys k) {d : Nat} (hdiv : keys (Obj.divisions d)) (x : ThermDomain) : s.keeps (w.divideDomain d x) parts keys :=
  (h.add hdiv 1).putDomain hpower hrel hkeys d _

theorem State.keeps.hottest (h : s.keeps w parts keys) (hever : keys Obj.tjMaxEver) {d : Nat} (hmax : keys (Obj.domainTempMax d)) (t : Int) :
    s.keeps (w.hottest d t) parts keys := by
  unfold Work.hottest
  extract_lets raised
  have hraised : s.keeps raised parts keys := h.raise hever _
  split
  · exact hraised.set hmax _
  · exact hraised
end

theorem thermalKeys_of_rateKeys (d : Nat) : ∀ k ∈ rateKeys, thermalKeys d k := by
  simp only [rateKeys, List.mem_cons, List.not_mem_nil, or_false, thermalKeys]
  tauto

/-- A command on a thermal domain changes what installing it may change. -/
theorem State.keeps.frame_thermal {s : State} {f : Work → Work} {d : Nat} (h : s.keeps (f s.work) [.power, .rel, .links] (thermalKeys d)) :
    s.frame (s.run f) [.power, .rel, .links] (thermalKeys d) :=
  h.frame (by simp) fun k hk => by simp only [thermalKeys]; tauto

end Sys2Proof.Machine
end

section
/-! SUPPORT. The throttle ladder (R515 to R520). -/

namespace Sys2Proof.Machine

/-! ## A domain on its ladder -/

section
variable (x : ThermDomain) (st : ThermState)

@[simp] theorem ThermDomain.to_state : (x.to st).state = st := by
  unfold ThermDomain.to
  split
  · assumption
  · rfl

/-- Going to a state changes the state and the time in it. -/
theorem ThermDomain.to_rest : ∃ ms, x.to st = { x with state := st, ms := ms } := by
  unfold ThermDomain.to
  split
  case isTrue h => exact ⟨x.ms, by rw [← h]⟩
  case isFalse => exact ⟨_, rfl⟩

@[simp] theorem ThermDomain.to_skip : (x.to st).skip = x.skip := by obtain ⟨ms, h⟩ := x.to_rest st; rw [h]
@[simp] theorem ThermDomain.to_divided : (x.to st).divided = x.divided := by obtain ⟨ms, h⟩ := x.to_rest st; rw [h]
@[simp] theorem ThermDomain.to_temp : (x.to st).temp = x.temp := by obtain ⟨ms, h⟩ := x.to_rest st; rw [h]
@[simp] theorem ThermDomain.to_stackTemp : (x.to st).stackTemp = x.stackTemp := by obtain ⟨ms, h⟩ := x.to_rest st; rw [h]
@[simp] theorem ThermDomain.to_divideDue : (x.to st).divideDue = x.divideDue := by obtain ⟨ms, h⟩ := x.to_rest st; rw [h]

@[simp] theorem ThermDomain.settle_skip : x.settle.skip = x.skip := x.to_skip _
@[simp] theorem ThermDomain.settle_temp : x.settle.temp = x.temp := x.to_temp _
@[simp] theorem ThermDomain.settle_stackTemp : x.settle.stackTemp = x.stackTemp := x.to_stackTemp _

theorem ThermDomain.settle_state : x.settle.state = .normal ∨ x.settle.state = .warning := by
  have h : x.settle.state = if x.calm then .normal else .warning := x.to_state _
  rw [h]
  split
  · exact .inl rfl
  · exact .inr rfl
end

/-! ## What the ladder does (R517, R518) -/

section
variable (s : Work) (d : Nat) (x : ThermDomain)

/-- The ladder ends by installing the domain, its temperatures as confirmed, in the state the result takes it to. -/
theorem Work.ladder_domain : ∃ y, (s.ladder d x).domain d = y ∧ y.temp = x.temp ∧ y.stackTemp = x.stackTemp ∧
    (x.state = .normal ∨ x.state = .warning → x.hot = true → y.state = .request) ∧
    (x.state = .normal → x.hot = false → x.warm = true → y.state = .warning) ∧
    (x.state = .request → x.cool = true → y.state = .normal ∨ y.state = .warning) ∧
    (x.state ≠ .skipping → x.state ≠ .divided → y.skip = x.skip) := by
  refine ⟨_, rfl, ?_⟩
  unfold Work.ladder
  cases hstate : x.state with
  | normal =>
    cases hhot : x.hot <;> cases hwarm : x.warm <;> simp [Work.putDomain_domain]
  | warning =>
    cases hhot : x.hot <;> cases hcalm : x.calm <;> simp [Work.putDomain_domain]
  | request =>
    cases hcool : x.cool
    · simp only [Bool.false_eq_true, if_false]
      split <;> simp [Work.putDomain_domain, Work.divideDomain_domain]
    · simp [Work.putDomain_domain, ThermDomain.settle_state]
  | skipping =>
    cases hcool : x.cool <;> simp only [Bool.false_eq_true, if_false, if_true] <;> split <;>
      simp [Work.putDomain_domain, Work.divideDomain_domain]
  | divided =>
    cases hcool : x.cool <;> simp only [Bool.false_eq_true, if_false, if_true] <;> split <;>
      simp [Work.putDomain_domain, Work.divideDomain_domain]
  | shutdown => simp [Work.putDomain_domain]

/-- An entry into REQUEST is counted. -/
theorem Work.ladder_counts_entry (hstate : x.state = .normal ∨ x.state = .warning) (hhot : x.hot = true) :
    s.counted (s.ladder d x) (Obj.throttleEntries d) 1 := by
  refine Work.counted_of_get_eq ?_
  obtain hstate | hstate := hstate <;> simp only [Work.ladder, hstate, hhot, if_true]
  · rw [Work.putDomain_get _ _ _ (by simp [rateKeys]), Work.add_get, if_pos rfl]
    simp [Work.attend]
  · rw [Work.putDomain_get _ _ _ (by simp [rateKeys]), Work.add_get, if_pos rfl]
end

theorem State.keeps.ladder {s : State} {w : Work} {d : Nat} (h : s.keeps w [.power, .rel, .links] (thermalKeys d)) (x : ThermDomain) :
    s.keeps (w.ladder d x) [.power, .rel, .links] (thermalKeys d) := by
  have hput : ∀ {u : Work} (y : ThermDomain), s.keeps u [.power, .rel, .links] (thermalKeys d) →
      s.keeps (u.putDomain d y) [.power, .rel, .links] (thermalKeys d) := fun y hu => hu.putDomain (by simp) (by simp) (thermalKeys_of_rateKeys d) d y
  have hdivide : ∀ y, s.keeps (w.divideDomain d y) [.power, .rel, .links] (thermalKeys d) := fun y =>
    h.divideDomain (by simp) (by simp) (thermalKeys_of_rateKeys d) (by simp [thermalKeys]) y
  have hattend := h.attend (by simp [thermalKeys]) (by simp [thermalKeys]) 2
  have hentries : thermalKeys d (Obj.throttleEntries d) := by simp [thermalKeys]
  unfold Work.ladder
  cases x.state with
  | normal => exact State.keeps.ite (hput _ (hattend.add hentries 1)) (.ite (hput _ hattend) (hput _ h) _) _
  | warning => exact State.keeps.ite (hput _ (h.add hentries 1)) (.ite (hput _ h) (hput _ h) _) _
  | request => exact State.keeps.ite (hput _ h) (.ite (hdivide _) (hput _ h) _) _
  | skipping => exact State.keeps.ite (.ite (hput _ h) (hput _ h) _) (.ite (hdivide _) (hput _ h) _) _
  | divided => exact State.keeps.ite (.ite (hput _ h) (hput _ h) _) (.ite (hdivide _) (hput _ h) _) _
  | shutdown => exact hput _ h

/-! ## THERMAL_CROSSING below 118 °C (R515, R518) -/

/-- A domain as a confirmed result has it. -/
def ThermDomain.seeing (x : ThermDomain) (temp : Int) (byStack : Bool) : ThermDomain :=
  if byStack then { x with stackTemp := temp } else { x with temp := temp, stale := false }

/-- The work in which a confirmed result is judged: a diode's may be a domain's highest. -/
def Work.confirmed (s : Work) (d : Nat) (temp : Int) (byStack : Bool) : Work := if byStack then s else s.hottest d temp

theorem Work.thermalConfirmed_of_lower (s : Work) (d : Nat) {temp : Int} {byStack : Bool} (h : byStack = true ∨ temp < 118 * 16) :
    s.thermalConfirmed d temp byStack = (s.confirmed d temp byStack).ladder d ((s.domain d).seeing temp byStack) := by
  have hlow : ¬ (!byStack && decide (118 * 16 ≤ temp)) = true := by
    obtain h | h := h
    · simp [h]
    · simpa using fun _ => h
  rw [Work.thermalConfirmed, if_neg hlow]
  cases byStack <;> rfl

theorem Work.hottest_get_of_ne (s : Work) (d : Nat) (t : Int) {k : Key} (hever : Obj.tjMaxEver ≠ k) (hmax : Obj.domainTempMax d ≠ k) :
    (s.hottest d t).get k = s.get k := by
  unfold Work.hottest
  extract_lets raised
  have hraised : raised.get k = s.get k := (s.raise_get _ _ _).trans (if_neg hever)
  split
  · exact ((raised.set_get _ _ _).trans (if_neg hmax)).trans hraised
  · exact hraised

theorem Work.confirmed_get_throttleEntries (s : Work) (d : Nat) (temp : Int) (byStack : Bool) :
    (s.confirmed d temp byStack).get (Obj.throttleEntries d) = s.get (Obj.throttleEntries d) := by
  cases byStack
  · exact s.hottest_get_of_ne d temp (by simp) (by simp)
  · rfl

theorem State.keeps_confirmed (s : State) (d : Nat) (temp : Int) (byStack : Bool) :
    s.keeps (s.work.confirmed d temp byStack) [.power, .rel, .links] (thermalKeys d) := by
  cases byStack
  · exact (s.keeps_work _ _).hottest (by simp [thermalKeys]) (by simp [thermalKeys]) temp
  · exact s.keeps_work _ _

theorem exec_thermalCrossing {s : State} {d : Nat} {byStack : Bool} (hd : d < 4) (hstack : byStack = true → d < 2) (temp : Int) :
    exec (.thermalCrossing d temp byStack) s = .next (s.run fun w => w.thermalConfirmed d temp byStack) := by
  refine State.nextIf_true ?_
  cases byStack
  · simp [hd]
  · simp [hd, hstack rfl]

/-- The ladder moves a domain as its confirmed result says. -/
theorem State.thermalCrossing_moves {s : State} {d : Nat} {temp : Int} {byStack : Bool} (hd : d < 4) (hstack : byStack = true → d < 2)
    (hlow : byStack = true ∨ temp < 118 * 16) : ∃ t, exec (.thermalCrossing d temp byStack) s = .next t ∧
      (let x := s.work.domain d
       let seen := x.seeing temp byStack
       let y := t.work.domain d
       y.temp = seen.temp ∧ y.stackTemp = seen.stackTemp ∧
       (x.state = .normal ∨ x.state = .warning → seen.hot = true → y.state = .request ∧ s.counted t (Obj.throttleEntries d) 1) ∧
       (x.state = .normal → seen.hot = false → seen.warm = true → y.state = .warning) ∧
       (x.state = .request → seen.cool = true → y.state = .normal ∨ y.state = .warning) ∧
       (x.state ≠ .skipping → x.state ≠ .divided → y.skip = x.skip)) ∧
      s.frame t [.power, .rel, .links] (thermalKeys d) := by
  have hwork := s.work.thermalConfirmed_of_lower d hlow
  have hstate : ((s.work.domain d).seeing temp byStack).state = (s.work.domain d).state := by cases byStack <;> rfl
  have hskip : ((s.work.domain d).seeing temp byStack).skip = (s.work.domain d).skip := by cases byStack <;> rfl
  obtain ⟨y, hy, htemp, hstackTemp, hentry, hwarns, hleaves, hstands⟩ :=
    (s.work.confirmed d temp byStack).ladder_domain d ((s.work.domain d).seeing temp byStack)
  rw [hstate] at hentry hwarns hleaves hstands
  refine ⟨_, exec_thermalCrossing hd hstack temp, ?_, State.keeps.frame_thermal ?_⟩
  · rw [State.run_domain, hwork, hy]
    refine ⟨htemp, hstackTemp, fun hfrom hhot => ⟨hentry hfrom hhot, State.run_counted (by simp [linkCounter]) ?_⟩, hwarns, hleaves,
      fun hs hd => (hstands hs hd).trans hskip⟩
    have hcounts := (s.work.confirmed d temp byStack).ladder_counts_entry d ((s.work.domain d).seeing temp byStack) (by rwa [hstate]) hhot
    rw [hwork]
    rwa [Work.counted, s.work.confirmed_get_throttleEntries] at hcounts
  · rw [hwork]
    exact (s.keeps_confirmed d temp byStack).ladder _

/-! ## Enforcement and reports (R518 to R520) -/

/-- A command on a domain installs it, as its own rule has it, or leaves all as it was. -/
theorem State.frame_of_unchanged {s : State} {f : Work → Work} (h : f s.work = s.work) (parts : List StatePart) (keys : Key → Prop) :
    s.frame (s.run f) parts keys := (s.run_id f h).weaken (List.nil_subset _) fun _ => False.elim

theorem State.graceExpiry_enforces (s : State) {d : Nat} (hd : d < 4) : ∃ t, exec (.graceExpiry d) s = .next t ∧
    (let x := s.work.domain d
     let y := t.work.domain d
     if x.state = .request ∧ x.cool = false then
       (if d < 2 then y.state = .skipping ∧ y.skip = 1 ∧ y.divided = x.divided
        else y.state = .divided ∧ y.divided = true ∧ s.counted t (Obj.divisions d) 1) ∧
       s.frame t [.power, .rel, .links] (thermalKeys d)
     else s.frame t [] (fun _ => False)) := by
  refine ⟨_, State.nextIf_true (decide_eq_true hd), ?_⟩
  dsimp only
  by_cases hlate : (s.work.domain d).state = .request ∧ (s.work.domain d).cool = false
  · rw [if_pos hlate]
    have hlate' : (s.work.domain d).state = .request ∧ (!(s.work.domain d).cool) = true := by simpa using hlate
    by_cases hhalf : d < 2
    · have hwork : s.work.graceExpiry d = s.work.putDomain d ({ s.work.domain d with skip := 1 }.to .skipping) :=
        (if_pos hlate').trans (if_pos hhalf)
      rw [if_pos hhalf, State.run_domain, hwork, Work.putDomain_domain, if_pos rfl]
      refine ⟨⟨by simp, by simp, by simp⟩, State.keeps.frame_thermal ?_⟩
      rw [hwork]
      exact (s.keeps_work _ _).putDomain (by simp) (by simp) (thermalKeys_of_rateKeys d) d _
    · have hwork : s.work.graceExpiry d = s.work.divideDomain d (s.work.domain d) := (if_pos hlate').trans (if_neg hhalf)
      rw [if_neg hhalf, State.run_domain, hwork, Work.divideDomain_domain]
      refine ⟨⟨by simp, by simp, State.run_counted (by simp [linkCounter]) ?_⟩, State.keeps.frame_thermal ?_⟩
      · rw [hwork]
        exact s.work.divideDomain_counts d _
      · rw [hwork]
        exact (s.keeps_work _ _).divideDomain (by simp) (by simp) (thermalKeys_of_rateKeys d) (by simp [thermalKeys]) _
  · rw [if_neg hlate]
    exact s.run_id _ (if_neg (by simpa using hlate))

/-- What a tick of the skip level makes of a half. -/
theorem Work.skipStepTick_eq (s : Work) {d : Nat} (hd : d < 2) : s.skipStepTick d =
    if (s.domain d).lowering then
      if (s.domain d).cool then
        if (s.domain d).skip - 1 = 0 ∧ (!(s.domain d).divided) = true then s.putDomain d { s.domain d with skip := (s.domain d).skip - 1 }.settle
        else s.putDomain d { s.domain d with skip := (s.domain d).skip - 1 }
      else s
    else if ((s.domain d).state = .skipping ∨ (s.domain d).state = .divided) ∧ (s.domain d).hot then
      s.putDomain d { s.domain d with skip := min ((s.domain d).skip + 1) 7 }
    else s := if_neg (by omega)

theorem State.skipStepTick_steps (s : State) {d : Nat} (hd : d < 2) : ∃ t, exec (.skipStepTick d) s = .next t ∧
    (let x := s.work.domain d
     let y := t.work.domain d
     (x.lowering = false → x.state = .skipping ∨ x.state = .divided → x.hot = true → y.skip = min (x.skip + 1) 7) ∧
     (x.lowering = true → x.cool = true → y.skip = x.skip - 1) ∧
     (x.hot = false → x.lowering = false → y = x)) ∧
    s.frame t [.power, .rel, .links] (thermalKeys d) := by
  have hwork := s.work.skipStepTick_eq hd
  refine ⟨_, State.nextIf_true (decide_eq_true (by omega)), ?_, ?_⟩
  · rw [State.run_domain, hwork]
    refine ⟨fun hraise hstate hhot => ?_, fun hlower hcool => ?_, fun hcold hraise => ?_⟩
    · rw [if_neg (by simp [hraise]), if_pos ⟨hstate, hhot⟩, Work.putDomain_domain, if_pos rfl]
    · rw [if_pos hlower, if_pos hcool]
      split <;> rw [Work.putDomain_domain, if_pos rfl]
      exact ThermDomain.settle_skip _
    · rw [if_neg (by simp [hraise]), if_neg (by simp [hcold])]
  · have hput := fun y => (s.keeps_work [.power, .rel, .links] (thermalKeys d)).putDomain (by simp) (by simp) (thermalKeys_of_rateKeys d) d y
    refine State.keeps.frame_thermal ?_
    rw [hwork]
    exact .ite (.ite (.ite (hput _) (hput _) _) (s.keeps_work _ _) _) (.ite (hput _) (s.keeps_work _ _) _) _

/-- What DIVIDE_AFTER_EXPIRY makes of a half. -/
theorem Work.divideAfterExpiry_eq (s : Work) {d : Nat} (hd : d < 2) : s.divideAfterExpiry d =
    if (!(s.domain d).requesting) = true ∨ (s.domain d).state = .shutdown then s
    else if (s.domain d).hot && !(s.domain d).divided then s.divideDomain d { s.domain d with divideDue := true }
    else s.setDomain d { s.domain d with divideDue := true } := by
  have hhalf : ¬ 2 ≤ d := by omega
  simp only [Work.divideAfterExpiry, hhalf, false_or]
  rfl

theorem State.divideAfterExpiry_divides (s : State) {d : Nat} (hd : d < 2) : ∃ t, exec (.divideAfterExpiry d) s = .next t ∧
    (let x := s.work.domain d
     let y := t.work.domain d
     (x.requesting = true → x.state ≠ .shutdown → x.hot = true → y.divided = true) ∧
     (x.requesting = true → x.state ≠ .shutdown → y.divideDue = true) ∧
     (x.requesting = false → y = x)) ∧
    s.frame t [.power, .rel, .links] (thermalKeys d) := by
  have hwork := s.work.divideAfterExpiry_eq hd
  refine ⟨_, State.nextIf_true (decide_eq_true (by omega)), ?_, ?_⟩
  · rw [State.run_domain, hwork]
    refine ⟨fun hreq hstate hhot => ?_, fun hreq hstate => ?_, fun hreq => ?_⟩
    · rw [if_neg (by simp [hreq, hstate])]
      cases hdiv : (s.work.domain d).divided
      · simp [hhot, Work.divideDomain_domain]
      · simp [hdiv]
    · rw [if_neg (by simp [hreq, hstate])]
      split
      · simp [Work.divideDomain_domain]
      · simp
    · rw [if_pos (by simp [hreq])]
  · refine State.keeps.frame_thermal ?_
    rw [hwork]
    exact .ite (s.keeps_work _ _) (.ite ((s.keeps_work _ _).divideDomain (by simp) (by simp) (thermalKeys_of_rateKeys d) (by simp [thermalKeys]) _)
      ((s.keeps_work _ _).setDomain (by simp) d _) _) _

theorem State.throttleStateChange_reports (s : State) (n : Nat) (on : Bool) : ∃ t, exec (.throttleStateChange n on) s = .next t ∧
    (s.val Obj.role = 1 → (n ∈ t.dev.group.throttled ↔ on = true) ∧ ∀ x, x ≠ n → (x ∈ t.dev.group.throttled ↔ x ∈ s.dev.group.throttled)) ∧
    (s.val Obj.role ≠ 1 → s.frame t [] (fun _ => False)) ∧ s.frame t [.group] (fun _ => False) := by
  refine ⟨_, rfl, ?_⟩
  by_cases hrole : s.val Obj.role = 1
  · have hmanager : s.work.isManager = true := decide_eq_true hrole
    have hwork : s.work.throttleStateChange n on = s.work.modGroup fun g => { g with
        throttled := if on then n :: g.throttled.filter (fun d => d ≠ n) else g.throttled.filter (fun d => d ≠ n) } := if_neg (by simp [hmanager])
    refine ⟨fun _ => ?_, fun h => absurd hrole h, ?_⟩
    · rw [State.run_group, hwork]
      cases on
      · simp
        exact fun x hx _ => hx
      · simp
        exact fun x hx => by simp [hx]
    · refine State.keeps.frame_silent ?_ (by rw [hwork]; rfl)
      rw [hwork]
      exact (s.keeps_work _ _).modGroup (by simp) _
  · have hwork : s.work.throttleStateChange n on = s.work := if_pos (by simp [Work.isManager, show s.work.get Obj.role ≠ 1 from hrole])
    exact ⟨fun h => absurd h hrole, fun _ => s.run_id _ hwork, State.frame_of_unchanged hwork _ _⟩

/-- Settles O18: each command is the equation of its rule, and installs the domain it changes. -/
theorem thermalLadderIsEnforced : Obligations.ThermalLadderIsEnforced := by
  unfold Obligations.ThermalLadderIsEnforced
  exact ⟨fun s d hd => s.graceExpiry_enforces hd, fun s d hd => ⟨s.skipStepTick_steps hd, s.divideAfterExpiry_divides hd⟩,
    fun s n on => s.throttleStateChange_reports n on⟩

end Sys2Proof.Machine
end

section
/-! SUPPORT. Housekeeping rounds, urgent conversions and calibration (R535 to R545). -/

namespace Sys2Proof.Machine

/-! ## Whole values (R539) -/

/-- A quotient as a whole number is one of the two beside it, and itself where it is whole. -/
theorem openWhole_div (a : Int) {n : Nat} (hn : 0 < n) :
    (openWhole ((a : Rat) / (n : Rat)) = a / (n : Int) ∨ openWhole ((a : Rat) / (n : Rat)) = a / (n : Int) + 1) ∧
    (a % (n : Int) = 0 → openWhole ((a : Rat) / (n : Rat)) = a / (n : Int)) := by
  have hfloor : ((a : Rat) / (n : Rat)).num / (((a : Rat) / (n : Rat)).den : Int) = a / (n : Int) := by
    rw [← Rat.floor_def', Rat.floor_intCast_div_natCast]
  unfold openWhole
  split
  case isTrue hden =>
    have hnum : ((a : Rat) / (n : Rat)).num = a / (n : Int) := by rw [← hfloor, hden]; simp
    exact ⟨.inl hnum, fun _ => hnum⟩
  case isFalse hden =>
    rw [hfloor]
    refine ⟨by omega, fun hmod => absurd ?_ hden⟩
    obtain ⟨q, rfl⟩ := Int.dvd_of_emod_eq_zero hmod
    have hq : (((n : Int) * q : Int) : Rat) / (n : Rat) = ((q : Int) : Rat) := by
      have : (n : Rat) ≠ 0 := by exact_mod_cast hn.ne'
      push_cast
      field_simp
    rw [hq]
    rfl

/-! ## A domain follows its results (R515) -/

theorem Work.add_hkHalf (s : Work) (k : Key) (n h : Nat) : (s.add k n).hkHalf h = s.hkHalf h := rfl

section
variable (s : Work) (d : Nat)

theorem Work.hottest_rest (t : Int) : ∃ objs, s.hottest d t = { s with objs := objs } := by
  unfold Work.hottest Work.raise
  dsimp only
  split <;> exact ⟨_, rfl⟩

theorem Work.followDomain_rest : ∃ power objs, s.followDomain d = { s with power := power, objs := objs } := by
  unfold Work.followDomain
  split
  case h_1 => exact ⟨_, _, rfl⟩
  case h_2 r rs _ =>
    dsimp only
    obtain ⟨objs, h⟩ := s.hottest_rest d (rs.foldl (fun m e => max m e.value) r.value)
    rw [h]
    exact ⟨_, _, rfl⟩

theorem Work.followDomain_hkHalf (h : Nat) : (s.followDomain d).hkHalf h = s.hkHalf h := by
  obtain ⟨power, objs, heq⟩ := s.followDomain_rest d
  rw [heq]
  rfl

theorem Work.followDomain_get {k : Key} (hever : Obj.tjMaxEver ≠ k) (hmax : Obj.domainTempMax d ≠ k) : (s.followDomain d).get k = s.get k := by
  unfold Work.followDomain
  split
  case h_1 => rfl
  case h_2 => exact s.hottest_get_of_ne d _ hever hmax
end

theorem State.keeps.followDomain {s : State} {w : Work} {parts : List StatePart} {keys : Key → Prop} (h : s.keeps w parts keys)
    (hpower : StatePart.power ∈ parts) (hever : keys Obj.tjMaxEver) {d : Nat} (hmax : keys (Obj.domainTempMax d)) :
    s.keeps (w.followDomain d) parts keys := by
  unfold Work.followDomain
  split
  · exact h
  · exact (h.hottest hever hmax _).setDomain hpower d _

/-- A half's two domains follow what its monitor holds. -/
def Work.followHalf (s : Work) (h : Nat) : Work := (s.followDomain h).followDomain (h + 2)

/-- The objects that a half's domains may raise (R252, R531). -/
def halfMaxima (h : Nat) : List Key := [Obj.domainTempMax h, Obj.domainTempMax (h + 2), Obj.tjMaxEver]

section
variable (s : Work) (h : Nat)

theorem Work.followHalf_rest : ∃ power objs, s.followHalf h = { s with power := power, objs := objs } := by
  obtain ⟨_, _, heq⟩ := s.followDomain_rest h
  obtain ⟨power, objs, heq'⟩ := (s.followDomain h).followDomain_rest (h + 2)
  rw [Work.followHalf, heq', heq]
  exact ⟨power, objs, rfl⟩

theorem Work.followHalf_hkHalf (g : Nat) : (s.followHalf h).hkHalf g = s.hkHalf g :=
  (Work.followDomain_hkHalf _ _ _).trans (s.followDomain_hkHalf _ _)

theorem Work.followHalf_get {k : Key} (hk : k ∉ halfMaxima h) : (s.followHalf h).get k = s.get k := by
  simp only [halfMaxima, List.mem_cons, List.not_mem_nil, or_false, not_or] at hk
  obtain ⟨hmax, hmax', hever⟩ := hk
  exact (Work.followDomain_get _ _ (Ne.symm hever) (Ne.symm hmax')).trans (s.followDomain_get _ (Ne.symm hever) (Ne.symm hmax))
end

theorem State.keeps.followHalf {s : State} {w : Work} {parts : List StatePart} {keys : Key → Prop} (h : s.keeps w parts keys)
    (hpower : StatePart.power ∈ parts) {i : Nat} (hkeys : ∀ k ∈ halfMaxima i, keys k) : s.keeps (w.followHalf i) parts keys :=
  (h.followDomain hpower (hkeys _ (by simp [halfMaxima])) (hkeys _ (by simp [halfMaxima]))).followDomain hpower
    (hkeys _ (by simp [halfMaxima])) (hkeys _ (by simp [halfMaxima]))

/-! ## The exchange of roles (R542, R543) -/

section
variable (s : Work) (h : Nat) (fit : Int × Int)

theorem Work.swapSlices_eq : s.swapSlices h fit = ((s.setHk h ((s.hkHalf h).exchange fit)).add (Obj.calSwaps h) 1).followHalf h := rfl

theorem Work.swapSlices_hkHalf : (s.swapSlices h fit).hkHalf h = (s.hkHalf h).exchange fit := by
  rw [Work.swapSlices_eq, Work.followHalf_hkHalf]
  exact (Work.setHk_half _ _ _ _).trans (if_pos rfl)

theorem Work.swapSlices_get {k : Key} (hk : k ∉ halfMaxima h) :
    (s.swapSlices h fit).get k = if Obj.calSwaps h = k then countPast k (s.get k + 1) else s.get k := by
  rw [Work.swapSlices_eq, Work.followHalf_get _ _ hk, Work.add_get]
  split
  case isTrue he => rw [he]; rfl
  case isFalse => rfl

theorem Work.swapSlices_rest : ∃ hk power objs, s.swapSlices h fit = { s with hk := hk, power := power, objs := objs } := by
  rw [Work.swapSlices_eq]
  obtain ⟨power, objs, heq⟩ := ((s.setHk h ((s.hkHalf h).exchange fit)).add (Obj.calSwaps h) 1).followHalf_rest h
  rw [heq]
  exact ⟨_, power, objs, rfl⟩
end

theorem State.keeps.swapSlices {s : State} {w : Work} {parts : List StatePart} {keys : Key → Prop} (h : s.keeps w parts keys)
    (hhk : StatePart.hk ∈ parts) (hpower : StatePart.power ∈ parts) {i : Nat} (hswaps : keys (Obj.calSwaps i))
    (hkeys : ∀ k ∈ halfMaxima i, keys k) (fit : Int × Int) : s.keeps (w.swapSlices i fit) parts keys :=
  ((h.setHk hhk i _).add hswaps 1).followHalf hpower hkeys

/-! ## CAL_SWAP, URGENT_CONVERSION and URGENT_RESULT (R541, R542) -/

section
variable {s : Work} {h : Nat} {off gain : Int} (hrunning : (s.hkHalf h).running = true) (hfailed : (s.hkHalf h).failed = none)
include hrunning hfailed

theorem Work.calSwap_of_outside (hfit : ¬ (off.natAbs ≤ 32 ∧ gain.natAbs ≤ 20000)) : s.calSwap h off gain =
    (s.setHk h { s.hkHalf h with failed := some (1 - (s.hkHalf h).serving), swap := none }).add (Obj.calFailures h) 1 :=
  (if_neg (by simp [hrunning, hfailed])).trans (if_pos (by omega))

theorem Work.calSwap_of_midRound (hfit : off.natAbs ≤ 32 ∧ gain.natAbs ≤ 20000) (hmid : (s.hkHalf h).midRound s.dram.off = true) :
    s.calSwap h off gain = s.setHk h { s.hkHalf h with swap := some (off, gain) } :=
  (if_neg (by simp [hrunning, hfailed])).trans ((if_neg (by omega)).trans (if_pos hmid))

theorem Work.calSwap_of_between (hfit : off.natAbs ≤ 32 ∧ gain.natAbs ≤ 20000) (hmid : ¬ (s.hkHalf h).midRound s.dram.off = true) :
    s.calSwap h off gain = s.swapSlices h (off, gain) :=
  (if_neg (by simp [hrunning, hfailed])).trans ((if_neg (by omega)).trans (if_neg hmid))
end

theorem Work.urgentConversion_eq {s : Work} {h : Nat} {u : Urgent} (hrunning : (s.hkHalf h).running = true) (hch : u.channel < 38) :
    s.urgentConversion h u = s.setHk h { s.hkHalf h with urgent := (s.hkHalf h).urgent ++ [u] } :=
  if_neg (by simp [hrunning]; omega)

theorem Work.urgentResult_eq {s : Work} {h ns : Nat} {u : Urgent} {rest : List Urgent} (hrunning : (s.hkHalf h).running = true)
    (hurgent : (s.hkHalf h).urgent = u :: rest) : s.urgentResult h ns =
      ((s.setHk h { s.hkHalf h with urgent := rest }).add (Obj.urgentConversions h) 1).raise (Obj.urgentMaxNs h) (ns - u.requestNs) := by
  simp only [Work.urgentResult, hurgent, hrunning, Bool.not_true, Bool.false_eq_true, if_false]

theorem State.calSwap_swaps {s : State} {h : Nat} {off gain : Int} (hh : h < 2) (hrunning : (s.work.hkHalf h).running = true)
    (hfailed : (s.work.hkHalf h).failed = none) : ∃ t, exec (.calSwap h off gain) s = .next t ∧
      (if off.natAbs ≤ 32 ∧ gain.natAbs ≤ 20000 then
        if (s.work.hkHalf h).midRound s.dev.dram.off = true then
          (t.work.hkHalf h).swap = some (off, gain) ∧ (t.work.hkHalf h).serving = (s.work.hkHalf h).serving ∧ s.frame t [.hk] (fun _ => False)
        else
          (t.work.hkHalf h).serving = 1 - (s.work.hkHalf h).serving ∧ (t.work.hkHalf h).failed = none ∧ s.counted t (Obj.calSwaps h) 1 ∧
          ∀ e ∈ (t.work.hkHalf h).entries, e.sum = 0 ∧ e.count = 0 ∧ e.stale = e.valid
       else
        (t.work.hkHalf h).failed = some (1 - (s.work.hkHalf h).serving) ∧ (t.work.hkHalf h).serving = (s.work.hkHalf h).serving ∧
        s.counted t (Obj.calFailures h) 1) ∧
      s.frame t [.hk, .power] (fun k => k = Obj.calSwaps h ∨ k = Obj.calFailures h ∨ k = Obj.domainTempMax h ∨
        k = Obj.domainTempMax (h + 2) ∨ k = Obj.tjMaxEver) := by
  refine ⟨_, State.nextIf_true (decide_eq_true hh), ?_⟩
  rw [State.run_hkHalf]
  by_cases hfit : off.natAbs ≤ 32 ∧ gain.natAbs ≤ 20000
  · rw [if_pos hfit]
    by_cases hmid : (s.work.hkHalf h).midRound s.dev.dram.off = true
    · have hwork := Work.calSwap_of_midRound hrunning hfailed hfit hmid
      have hframe : s.frame (s.run fun w => w.calSwap h off gain) [.hk] (fun _ => False) :=
        State.keeps.frame_silent (by rw [hwork]; exact (s.keeps_work _ _).setHk (by simp) h _) (by rw [hwork]; rfl)
      rw [if_pos hmid]
      exact ⟨⟨by rw [hwork]; simp, by rw [hwork]; simp, hframe⟩, hframe.weaken (by simp) fun _ => False.elim⟩
    · have hwork := Work.calSwap_of_between hrunning hfailed hfit hmid
      obtain ⟨hk, power, objs, hrest⟩ := s.work.swapSlices_rest h (off, gain)
      rw [if_neg hmid, hwork, Work.swapSlices_hkHalf]
      refine ⟨⟨rfl, hfailed, State.run_counted (by simp [linkCounter]) (Work.counted_of_get_eq ?_), ?_⟩, State.keeps.frame_silent ?_ ?_⟩
      · rw [hwork, Work.swapSlices_get _ _ _ (by simp [halfMaxima]), if_pos rfl]
      · intro e he
        obtain ⟨e', -, rfl⟩ := List.mem_map.mp he
        exact ⟨rfl, rfl, rfl⟩
      · rw [hwork]
        exact (s.keeps_work _ _).swapSlices (by simp) (by simp) (by simp) (by simp [halfMaxima]) _
      · rw [hwork, hrest]
        rfl
  · have hwork := Work.calSwap_of_outside hrunning hfailed hfit
    rw [if_neg hfit, hwork]
    refine ⟨⟨by rw [Work.add_hkHalf]; simp, by rw [Work.add_hkHalf]; simp, State.run_counted (by simp [linkCounter]) (Work.counted_of_get_eq ?_)⟩,
      State.keeps.frame_silent ?_ (by rw [hwork]; rfl)⟩
    · rw [hwork, Work.add_get, if_pos rfl]
      rfl
    · rw [hwork]
      exact ((s.keeps_work _ _).setHk (by simp) h _).add (by simp) 1

/-- Settles O20: each command is one equation of its half's monitor. -/
theorem urgentConversionsAndCalibrationSwaps : Obligations.UrgentConversionsAndCalibrationSwaps := by
  unfold Obligations.UrgentConversionsAndCalibrationSwaps
  refine ⟨fun s h hh hrunning => ⟨fun ch sm g ns hch => ?_, fun v ns u rest hurgent => ?_⟩,
    fun s h off gain hh hrunning hfailed => State.calSwap_swaps hh hrunning hfailed⟩
  · have hwork := Work.urgentConversion_eq (u := ⟨ch, sm, g, ns⟩) hrunning hch
    refine ⟨_, State.nextIf_true (decide_eq_true hh), ?_, ?_, State.keeps.frame_silent ?_ (by rw [hwork]; rfl)⟩
    · rw [State.run_hkHalf, hwork, Work.setHk_half, if_pos rfl]
    · rw [State.run_hkHalf, hwork, Work.setHk_half, if_pos rfl]
    · rw [hwork]
      exact (s.keeps_work _ _).setHk (by simp) h _
  · have hwork := Work.urgentResult_eq (ns := ns) hrunning hurgent
    have hhalf : (s.work.urgentResult h ns).hkHalf h = { s.work.hkHalf h with urgent := rest } := by
      rw [hwork]
      exact (Work.setHk_half _ _ _ _).trans (if_pos rfl)
    refine ⟨_, State.nextIf_true (decide_eq_true hh), ?_, ?_, State.run_counted (by simp [linkCounter]) (Work.counted_of_get_eq ?_),
      State.keeps.frame_silent ?_ (by rw [hwork]; rfl)⟩
    · rw [State.run_hkHalf, hhalf]
    · rw [State.run_hkHalf, hhalf]
    · rw [hwork, Work.raise_get, if_neg (by simp), Work.add_get, if_pos rfl]
      rfl
    · rw [hwork]
      exact (((s.keeps_work _ _).setHk (by simp) h _).add (by simp) 1).raise (by simp) _

/-! ## HK_ROUND (R536, R537, R542) -/

/-- A half as the round that starts has it. -/
def HkHalf.started (x : HkHalf) (off : Bool) : HkHalf :=
  { x with inRound := true, entries := x.entries.map fun e =>
      { e with done := 0, valid := e.valid && e.takesPart off || e.valid && !e.cfg.enable } }

/-- The exchange that waited for the round's end. -/
def Work.swapDue (s : Work) (h : Nat) : Option (Int × Int) → Work
  | some fit => s.swapSlices h fit
  | none => s

/-- The work in which a round starts: the one before it is counted and an exchange that waited is made. -/
def Work.roundEnded (s : Work) (h : Nat) : Work :=
  (s.addWhen ((s.hkHalf h).inRound = true) (Obj.rounds h) 1).swapDue h (s.hkHalf h).swap

/-- The half that starts the round. -/
def Work.roundStarts (s : Work) (h : Nat) : Work := s.setHk h ((s.hkHalf h).applyCommitted.started s.dram.off)

theorem Work.hkRound_eq {s : Work} {h : Nat} {late : Bool} (hrunning : (s.hkHalf h).running = true)
    (hmid : (s.hkHalf h).midRound s.dram.off = false) :
    s.hkRound h late = ((s.roundEnded h).roundStarts h).addWhen (late = true) (Obj.roundOverruns h) 1 :=
  if_neg (by simp [hrunning, hmid])

theorem Work.hkRound_of_not {s : Work} {h : Nat} {late : Bool}
    (hnot : ¬ ((s.hkHalf h).running = true ∧ (s.hkHalf h).midRound s.dram.off = false)) : s.hkRound h late = s :=
  if_pos (by cases hr : (s.hkHalf h).running <;> cases hm : (s.hkHalf h).midRound s.dram.off <;> simp_all)

theorem HkHalf.applyCommitted_rest (x : HkHalf) : ∃ entries, x.applyCommitted = { x with entries := entries, committed := none } := by
  unfold HkHalf.applyCommitted
  split
  case h_1 hnone => exact ⟨x.entries, by rw [← hnone]⟩
  case h_2 => exact ⟨_, rfl⟩

theorem HkHalf.started_done (x : HkHalf) (off : Bool) : ∀ e ∈ (x.started off).entries, e.done = 0 := fun e he => by
  obtain ⟨e', -, rfl⟩ := List.mem_map.mp he
  rfl

section
variable (s : Work) (h : Nat)

theorem Work.swapDue_rest (fit : Option (Int × Int)) : ∃ hk power objs, s.swapDue h fit = { s with hk := hk, power := power, objs := objs } := by
  cases fit with
  | none => exact ⟨_, _, _, rfl⟩
  | some fit => exact s.swapSlices_rest h fit

theorem Work.swapDue_get (fit : Option (Int × Int)) {k : Key} (hk : k ∉ halfMaxima h) :
    (s.swapDue h fit).get k = if Obj.calSwaps h = k ∧ fit.isSome = true then countPast k (s.get k + 1) else s.get k := by
  cases fit with
  | none => simp [Work.swapDue]
  | some fit =>
    rw [Work.swapDue, Work.swapSlices_get _ _ _ hk]
    simp

theorem Work.swapDue_hkHalf (fit : Option (Int × Int)) : (s.swapDue h fit).hkHalf h = (match fit with
    | some fit => (s.hkHalf h).exchange fit
    | none => s.hkHalf h) := by
  cases fit with
  | none => rfl
  | some fit => exact s.swapSlices_hkHalf h fit

/-- The half at the end of a round: an exchange that waited has been made. -/
theorem Work.roundEnded_hkHalf : ((s.roundEnded h).hkHalf h).swap = none ∧
    ((s.roundEnded h).hkHalf h).serving = (if (s.hkHalf h).swap.isSome = true then 1 - (s.hkHalf h).serving else (s.hkHalf h).serving) := by
  obtain ⟨objs, hadd⟩ := s.addWhen_rest ((s.hkHalf h).inRound = true) (Obj.rounds h) 1
  have hhalf : (s.addWhen ((s.hkHalf h).inRound = true) (Obj.rounds h) 1).hkHalf h = s.hkHalf h := by rw [hadd]; rfl
  rw [Work.roundEnded, Work.swapDue_hkHalf, hhalf]
  cases hswap : (s.hkHalf h).swap with
  | none => exact ⟨hswap, rfl⟩
  | some fit => exact ⟨rfl, rfl⟩

theorem Work.roundStarts_hkHalf : let x := (s.roundStarts h).hkHalf h
    x.committed = none ∧ x.swap = (s.hkHalf h).swap ∧ x.inRound = true ∧ x.serving = (s.hkHalf h).serving ∧ ∀ e ∈ x.entries, e.done = 0 := by
  have hhalf : (s.roundStarts h).hkHalf h = (s.hkHalf h).applyCommitted.started s.dram.off := (Work.setHk_half _ _ _ _).trans (if_pos rfl)
  obtain ⟨entries, happly⟩ := (s.hkHalf h).applyCommitted_rest
  rw [hhalf]
  refine ⟨?_, ?_, rfl, ?_, HkHalf.started_done _ _⟩ <;> rw [happly] <;> rfl
end

theorem State.keeps.addWhen_key {s : State} {w : Work} {parts : List StatePart} {keys : Key → Prop} (h : s.keeps w parts keys)
    (c : Prop) [Decidable c] {k : Key} (hk : c → keys k) (n : Nat) : s.keeps (w.addWhen c k n) parts keys := by
  unfold Work.addWhen
  split
  case isTrue hc => exact h.add (hk hc) n
  case isFalse => exact h

theorem State.keeps.roundStarts {s : State} {w : Work} {parts : List StatePart} {keys : Key → Prop} (h : s.keeps w parts keys)
    (hhk : StatePart.hk ∈ parts) (i : Nat) : s.keeps (w.roundStarts i) parts keys := h.setHk hhk i _

/-- The frame of a round's start. -/
def roundKeys (h : Nat) (k : Key) : Prop := k = Obj.rounds h ∨ k = Obj.roundOverruns h ∨ k = Obj.calSwaps h ∨ k = Obj.domainTempMax h ∨
  k = Obj.domainTempMax (h + 2) ∨ k = Obj.tjMaxEver

section
variable {s : State} {h : Nat} {late : Bool} (hrunning : (s.work.hkHalf h).running = true)
  (hmid : (s.work.hkHalf h).midRound s.dev.dram.off = false)
include hrunning hmid

theorem State.hkRound_rest : ∃ hk power objs, s.work.hkRound h late = { s.work with hk := hk, power := power, objs := objs } := by
  rw [Work.hkRound_eq hrunning hmid, Work.roundStarts, Work.roundEnded]
  obtain ⟨_, hadd⟩ := s.work.addWhen_rest ((s.work.hkHalf h).inRound = true) (Obj.rounds h) 1
  rw [hadd]
  obtain ⟨_, _, _, hdue⟩ := Work.swapDue_rest { s.work with objs := _ } h (s.work.hkHalf h).swap
  rw [hdue]
  obtain ⟨_, hlate⟩ := Work.addWhen_rest (Work.setHk { s.work with hk := _, power := _, objs := _ } h _) (late = true) (Obj.roundOverruns h) 1
  rw [hlate]
  exact ⟨_, _, _, rfl⟩

/-- What a round's start counts. -/
theorem State.hkRound_get {k : Key} (hk : k ∉ halfMaxima h) (hoverruns : Obj.roundOverruns h ≠ k) : (s.work.hkRound h late).get k =
    if Obj.calSwaps h = k ∧ (s.work.hkHalf h).swap.isSome = true then
      countPast k ((if Obj.rounds h = k ∧ (s.work.hkHalf h).inRound = true then countPast k (s.val k + 1) else s.val k) + 1)
    else if Obj.rounds h = k ∧ (s.work.hkHalf h).inRound = true then countPast k (s.val k + 1) else s.val k := by
  have hget : ∀ u : Work, (u.roundStarts h).get k = u.get k := fun _ => rfl
  have hrounds : (s.work.addWhen ((s.work.hkHalf h).inRound = true) (Obj.rounds h) 1).get k =
      if Obj.rounds h = k ∧ (s.work.hkHalf h).inRound = true then countPast k (s.val k + 1) else s.val k := by
    rw [Work.addWhen_get]
    split
    case isTrue he => rw [he.1]; rfl
    case isFalse => rfl
  rw [Work.hkRound_eq hrunning hmid, Work.addWhen_get, if_neg (fun he => hoverruns he.1), hget, Work.roundEnded, Work.swapDue_get _ _ _ hk, hrounds]

theorem State.hkRound_overruns : (s.work.hkRound h late).get (Obj.roundOverruns h) =
    if late = true then countPast (Obj.roundOverruns h) (s.val (Obj.roundOverruns h) + 1) else s.val (Obj.roundOverruns h) := by
  have hget : ((s.work.roundEnded h).roundStarts h).get (Obj.roundOverruns h) = s.val (Obj.roundOverruns h) := by
    have hstarts : ∀ u : Work, (u.roundStarts h).get (Obj.roundOverruns h) = u.get (Obj.roundOverruns h) := fun _ => rfl
    rw [hstarts, Work.roundEnded, Work.swapDue_get _ _ _ (by simp [halfMaxima]), if_neg (by simp), Work.addWhen_get, if_neg (by simp)]
    rfl
  rw [Work.hkRound_eq hrunning hmid, Work.addWhen_get, hget]
  simp only [true_and]

theorem State.hkRound_keeps : s.keeps (s.work.hkRound h late) [.hk, .power] (roundKeys h) := by
  have hended : s.keeps (s.work.roundEnded h) [.hk, .power] (roundKeys h) := by
    have hadd := (s.keeps_work [.hk, .power] (roundKeys h)).addWhen_key ((s.work.hkHalf h).inRound = true) (k := Obj.rounds h)
      (fun _ => by simp [roundKeys]) 1
    unfold Work.roundEnded Work.swapDue
    split
    · exact hadd.swapSlices (by simp) (by simp) (by simp [roundKeys]) (by simp [halfMaxima, roundKeys]) _
    · exact hadd
  rw [Work.hkRound_eq hrunning hmid]
  exact (hended.roundStarts (by simp) h).addWhen_key _ (fun _ => by simp [roundKeys]) 1

/-- With no exchange waiting nothing moves but the half's monitor and the counts of rounds. -/
theorem State.hkRound_keeps_of_no_swap (hswap : (s.work.hkHalf h).swap = none) :
    s.keeps (s.work.hkRound h late) [.hk] (fun k => k = Obj.rounds h ∨ k = Obj.roundOverruns h) := by
  have hadd := (s.keeps_work [.hk] (fun k => k = Obj.rounds h ∨ k = Obj.roundOverruns h)).addWhen_key ((s.work.hkHalf h).inRound = true)
    (k := Obj.rounds h) (fun _ => by simp) 1
  have hended : s.keeps (s.work.roundEnded h) [.hk] (fun k => k = Obj.rounds h ∨ k = Obj.roundOverruns h) := by
    rw [Work.roundEnded, hswap]
    exact hadd
  rw [Work.hkRound_eq hrunning hmid]
  exact (hended.roundStarts (by simp) h).addWhen_key _ (fun _ => by simp) 1

theorem State.hkRound_hkHalf : let y := (s.work.hkRound h late).hkHalf h
    y.committed = none ∧ y.swap = none ∧ y.inRound = true ∧ (∀ e ∈ y.entries, e.done = 0) ∧
    y.serving = (if (s.work.hkHalf h).swap.isSome = true then 1 - (s.work.hkHalf h).serving else (s.work.hkHalf h).serving) := by
  have hhalf : (s.work.hkRound h late).hkHalf h = ((s.work.roundEnded h).roundStarts h).hkHalf h := by
    obtain ⟨_, hlate⟩ := ((s.work.roundEnded h).roundStarts h).addWhen_rest (late = true) (Obj.roundOverruns h) 1
    rw [Work.hkRound_eq hrunning hmid, hlate]
    rfl
  obtain ⟨hcommitted, hswap, hround, hserving, hdone⟩ := (s.work.roundEnded h).roundStarts_hkHalf h
  obtain ⟨hended, hserves⟩ := s.work.roundEnded_hkHalf h
  rw [hhalf]
  exact ⟨hcommitted, hswap.trans hended, hround, hdone, hserving.trans hserves⟩

theorem State.hkRound_sent : (s.work.hkRound h late).sent = [] := by
  obtain ⟨hk, power, objs, hrest⟩ := State.hkRound_rest (late := late) hrunning hmid
  rw [hrest]
  rfl

theorem State.hkRound_val (k : Key) : (s.run fun w => w.hkRound h late).val k = (s.work.hkRound h late).get k :=
  State.run_val_local s _ (fun _ _ _ => by simp [State.hkRound_sent hrunning hmid]) k
end

theorem State.hkRound_rounds (s : State) {h : Nat} (hh : h < 2) (late : Bool) : ∃ t, exec (.hkRound h late) s = .next t ∧
    (let x := s.work.hkHalf h
     let y := t.work.hkHalf h
     if x.running = true ∧ x.midRound s.dev.dram.off = false then
      (if x.inRound = true then s.counted t (Obj.rounds h) 1 else t.val (Obj.rounds h) = s.val (Obj.rounds h)) ∧
      s.counted t (Obj.roundOverruns h) (if late then 1 else 0) ∧ y.committed = none ∧ y.swap = none ∧ y.inRound = true ∧
      (∀ e ∈ y.entries, e.done = 0) ∧
      (if x.swap.isSome = true then y.serving = 1 - x.serving ∧ s.counted t (Obj.calSwaps h) 1
       else y.serving = x.serving ∧ s.frame t [.hk] (fun k => k = Obj.rounds h ∨ k = Obj.roundOverruns h))
     else s.frame t [] (fun _ => False)) ∧
    s.frame t [.hk, .power] (roundKeys h) := by
  refine ⟨_, State.nextIf_true (decide_eq_true hh), ?_⟩
  dsimp only
  by_cases hstart : (s.work.hkHalf h).running = true ∧ (s.work.hkHalf h).midRound s.dev.dram.off = false
  case neg =>
    have hwork := Work.hkRound_of_not (late := late) hstart
    rw [if_neg hstart]
    exact ⟨s.run_id _ hwork, State.frame_of_unchanged hwork _ _⟩
  case pos =>
    obtain ⟨hrunning, hmid⟩ := hstart
    obtain ⟨hcommitted, hswap, hround, hdone, hserving⟩ := State.hkRound_hkHalf (late := late) hrunning hmid
    rw [if_pos ⟨hrunning, hmid⟩, State.run_hkHalf]
    refine ⟨⟨?_, fun hlt => ?_, hcommitted, hswap, hround, hdone, ?_⟩,
      (State.hkRound_keeps hrunning hmid).frame_silent (State.hkRound_sent hrunning hmid)⟩
    · have hget : (s.run fun w => w.hkRound h late).val (Obj.rounds h) = _ := (State.hkRound_val hrunning hmid _).trans
        ((State.hkRound_get hrunning hmid (by simp [halfMaxima]) (by simp)).trans (if_neg (by simp)))
      split
      case isTrue hin => exact fun hlt => hget.trans ((if_pos ⟨rfl, hin⟩).trans (countPast_of_lt hlt))
      case isFalse hout => exact hget.trans (if_neg fun he => hout he.2)
    · rw [State.hkRound_val hrunning hmid, State.hkRound_overruns hrunning hmid]
      cases late with
      | true => exact countPast_of_lt hlt
      | false => rfl
    · split
      case isTrue hsome =>
        rw [if_pos hsome] at hserving
        refine ⟨hserving, fun hlt => ?_⟩
        rw [State.hkRound_val hrunning hmid, State.hkRound_get hrunning hmid (by simp [halfMaxima]) (by simp), if_pos ⟨rfl, hsome⟩,
          if_neg (by simp), countPast_of_lt hlt]
      case isFalse hnone =>
        rw [if_neg hnone] at hserving
        exact ⟨hserving, (State.hkRound_keeps_of_no_swap hrunning hmid (by simpa using hnone)).frame_silent (State.hkRound_sent hrunning hmid)⟩

/-! ## HK_CONVERSION (R539) -/

/-- An entry that takes a conversion in: the accumulator grows, or is published and starts again. -/
theorem HkEntry.convert_spec (a : HkEntry) (v : Int) (serving : Nat) : let b := a.convert v serving
    b.cfg = a.cfg ∧ b.done = a.done + 1 ∧
    (if a.count + 1 = 2 ^ a.cfg.accLog2 then
       b.sum = 0 ∧ b.count = 0 ∧ b.valid = true ∧ b.stale = false ∧ b.publishes = (a.publishes + 1) % 65536 ∧
       ((a.sum + v) % (2 ^ a.cfg.accLog2 : Nat) = 0 → b.value = (a.sum + v) / (2 ^ a.cfg.accLog2 : Nat)) ∧
       (b.value = (a.sum + v) / (2 ^ a.cfg.accLog2 : Nat) ∨ b.value = (a.sum + v) / (2 ^ a.cfg.accLog2 : Nat) + 1)
     else b.sum = a.sum + v ∧ b.count = a.count + 1 ∧ b.value = a.value ∧ b.publishes = a.publishes) := by
  unfold HkEntry.convert
  dsimp only
  split
  · obtain ⟨hnear, hwhole⟩ := openWhole_div (a.sum + v) (n := 2 ^ a.cfg.accLog2) (by positivity)
    exact ⟨rfl, rfl, rfl, rfl, rfl, rfl, rfl, hwhole, hnear⟩
  · exact ⟨rfl, rfl, rfl, rfl, rfl, rfl⟩

theorem HkHalf.due_some {x : HkHalf} {off : Bool} {i : Nat} (h : x.due off = some i) : ∃ a, x.entries[i]? = some a := by
  have hdue := List.find?_some h
  split at hdue
  case h_1 a ha => exact ⟨a, ha⟩
  case h_2 => exact absurd hdue (by simp)

/-- A half whose entry has taken a conversion in. -/
def HkHalf.converted (x : HkHalf) (i : Nat) (v : Int) : HkHalf := { x with entries := x.entries.modify i fun y => y.convert v x.serving }

/-- The work once a published result has joined its sensor's minute. -/
def Work.minuteJoined (s : Work) (h i : Nat) (v : Int) : Work :=
  match (s.hkHalf h).entries[i]?, ((s.hkHalf h).converted i v).entries[i]? with
  | some a, some b => if a.publishes ≠ b.publishes then s.minuteResult h b else s
  | _, _ => s

theorem Work.hkConversion_eq {s : Work} {h i : Nat} {v : Int} (hrunning : (s.hkHalf h).running = true) (hround : (s.hkHalf h).inRound = true)
    (hdue : (s.hkHalf h).due s.dram.off = some i) :
    s.hkConversion h i v = ((s.minuteJoined h i v).setHk h ((s.hkHalf h).converted i v)).followHalf h :=
  if_neg (by simp [hrunning, hround, hdue])

theorem Work.hkConversion_of_not {s : Work} {h i : Nat} {v : Int}
    (hnot : ¬ ((s.hkHalf h).running = true ∧ (s.hkHalf h).inRound = true ∧ (s.hkHalf h).due s.dram.off = some i)) : s.hkConversion h i v = s :=
  if_pos (by cases hr : (s.hkHalf h).running <;> cases hi : (s.hkHalf h).inRound <;> simp_all)

theorem Work.minuteJoined_rest (s : Work) (h i : Nat) (v : Int) : ∃ life, s.minuteJoined h i v = { s with life := life } := by
  unfold Work.minuteJoined Work.minuteResult
  split
  · dsimp only
    split_ifs <;> exact ⟨_, rfl⟩
  · exact ⟨_, rfl⟩

theorem State.hkConversion_converts (s : State) {h i : Nat} (v : Int) (hh : h < 2) (hi : i < 16) : ∃ t, exec (.hkConversion h i v) s = .next t ∧
    (if (s.work.hkHalf h).running = true ∧ (s.work.hkHalf h).inRound = true ∧ (s.work.hkHalf h).due s.dev.dram.off = some i then
       ∃ a b, (s.work.hkHalf h).entries[i]? = some a ∧ (t.work.hkHalf h).entries[i]? = some b ∧ b = a.convert v (s.work.hkHalf h).serving
     else s.frame t [] (fun _ => False)) ∧
    s.frame t [.hk, .power, .life] (fun k => k = Obj.domainTempMax h ∨ k = Obj.domainTempMax (h + 2) ∨ k = Obj.tjMaxEver) := by
  refine ⟨_, State.nextIf_true (by simp [hh, hi]), ?_⟩
  by_cases hdue : (s.work.hkHalf h).running = true ∧ (s.work.hkHalf h).inRound = true ∧ (s.work.hkHalf h).due s.dev.dram.off = some i
  case neg =>
    have hwork := Work.hkConversion_of_not (v := v) hdue
    rw [if_neg hdue]
    exact ⟨s.run_id _ hwork, State.frame_of_unchanged hwork _ _⟩
  case pos =>
    rw [if_pos hdue]
    obtain ⟨hrunning, hround, hdue⟩ := hdue
    obtain ⟨a, ha⟩ := HkHalf.due_some hdue
    have hwork := Work.hkConversion_eq (v := v) hrunning hround hdue
    obtain ⟨life, hminute⟩ := s.work.minuteJoined_rest h i v
    rw [hminute] at hwork
    refine ⟨⟨a, _, ha, ?_, rfl⟩, State.keeps.frame_silent ?_ ?_⟩
    · have hhalf : (s.work.hkConversion h i v).hkHalf h = (s.work.hkHalf h).converted i v := by
        rw [hwork, Work.followHalf_hkHalf, Work.setHk_half, if_pos rfl]
      rw [State.run_hkHalf, hhalf, HkHalf.converted]
      simp [ha]
    · rw [hwork]
      exact (((s.keeps_work _ _).life (by simp) life).setHk (by simp) h _).followHalf (by simp) (by simp [halfMaxima])
    · obtain ⟨power, objs, hfollow⟩ := Work.followHalf_rest (Work.setHk { s.work with life := life } h ((s.work.hkHalf h).converted i v)) h
      rw [hwork, hfollow]
      rfl

/-- Settles O19: a round starts where none is in progress, and an entry that is due takes its conversion in. -/
theorem housekeepingRoundsConvertAndPublish : Obligations.HousekeepingRoundsConvertAndPublish := by
  unfold Obligations.HousekeepingRoundsConvertAndPublish
  refine ⟨fun s h late hh => s.hkRound_rounds hh late, fun s h i v hh hi => ?_⟩
  obtain ⟨t, hexec, hconverts, hframe⟩ := s.hkConversion_converts v hh hi
  refine ⟨t, hexec, ?_, hframe⟩
  split
  case isTrue hdue =>
    rw [if_pos hdue] at hconverts
    obtain ⟨a, b, ha, hb, rfl⟩ := hconverts
    exact ⟨a, _, ha, hb, a.convert_spec v _⟩
  case isFalse hnot => rwa [if_neg hnot] at hconverts

end Sys2Proof.Machine
end

section
/-! SUPPORT. The SPDM responder (R563 to R565, R578). -/

namespace Sys2Proof.Machine

/-! ## Replies and refusals (R564) -/

section
variable (u : Work) (p : Path)

theorem Work.setSpdm_conn (c : SpdmConn) : (u.setSpdm p c).spdmConn p = c := look_put_same _ _ _ _

/-- A response leaves the connection as it was but for its transcript. -/
theorem Work.spdmReply_conn (request : List Byte) (code : Nat) (bytes : List Byte) : ∃ transcript,
    (u.spdmReply p request code bytes).spdmConn p = { u.spdmConn p with transcript := transcript } := ⟨_, Work.setSpdm_conn u p _⟩
end

theorem State.run_spdmConn (s : State) (f : Work → Work) (p : Path) : (s.run f).work.spdmConn p = (f s.work).spdmConn p :=
  congrArg (fun x : BootState => look SpdmConn.reset x.spdm p) (s.run_boot f)

section
variable {s : State} {w : Work} {parts : List StatePart} {keys : Key → Prop}

theorem State.keeps.setSpdm (h : s.keeps w parts keys) (hboot : StatePart.boot ∈ parts) (p : Path) (c : SpdmConn) :
    s.keeps (w.setSpdm p c) parts keys := h.modBoot hboot _

theorem State.keeps.spdmReply (h : s.keeps w parts keys) (hboot : StatePart.boot ∈ parts) (p : Path) (request : List Byte) (code : Nat) (bytes : List Byte) :
    s.keeps (w.spdmReply p request code bytes) parts keys := (h.setSpdm hboot p _).send _
end

section
variable {s : State} {w : Work} {keys : Key → Prop} {c : Instr} {f : Work → Work} {p : Path}

/-- A command whose work sends one response: the connection is that of the work the response is sent from. -/
theorem State.spdm_replies {request bytes : List Byte} {code : Nat} (hexec : exec c s = s.next f) (hf : f s.work = w.spdmReply p request code bytes)
    (hkeeps : s.keeps w [.boot] keys) (hsent : w.sent = []) : ∃ t, exec c s = .next t ∧ Output.spdm p code bytes ∈ t.out.drop s.out.length ∧
      (∃ transcript, t.work.spdmConn p = { w.spdmConn p with transcript := transcript }) ∧
      (∀ k n, ¬ linkCounter k → s.work.counted w k n → s.counted t k n) ∧ s.frame t [.boot] keys := by
  have hsends : (f s.work).sent = [Output.spdm p code bytes] := by
    rw [hf]
    show w.sent ++ _ = _
    rw [hsent, List.nil_append]
  obtain ⟨transcript, hconn⟩ := w.spdmReply_conn p request code bytes
  refine ⟨_, hexec, State.mem_drop_run_out (by simp [hsends]), ⟨transcript, ?_⟩, fun k n hk hcounted => State.run_counted hk ?_,
    State.keeps.frame_local ?_ (by simp [hsends])⟩
  · rw [State.run_spdmConn, hf, hconn]
  · rw [hf]
    exact hcounted
  · rw [hf]
    exact hkeeps.spdmReply (by simp) p _ _ _

/-- A command whose work turns a request down. -/
theorem State.spdm_refuses {code : Nat} (hexec : exec c s = s.next f) (hf : f s.work = s.work.spdmError p code) : ∃ t, exec c s = .next t ∧
    Output.spdm p 0x7F (toLE 1 code ++ toLE 1 0) ∈ t.out.drop s.out.length ∧ s.frame t [] (fun _ => False) := by
  have hsends : (f s.work).sent = [Output.spdm p 0x7F (toLE 1 code ++ toLE 1 0)] := by rw [hf]; rfl
  refine ⟨_, hexec, State.mem_drop_run_out (by simp [hsends]), State.keeps.frame_local ?_ (by simp [hsends])⟩
  rw [hf]
  exact (s.keeps_work _ _).send _

/-- A command that does nothing. -/
theorem State.next_unchanged (hexec : exec c s = s.next f) (hf : f s.work = s.work) : ∃ t, exec c s = .next t ∧ s.frame t [] (fun _ => False) :=
  ⟨_, hexec, s.run_id f hf⟩
end

/-! ## The requests in their order (R564) -/

section
variable {s : State} {p : Path} (hanswers : s.work.spdmAnswers p = true)
include hanswers

theorem State.getVersion_begins : ∃ t, exec (.getVersion p) s = .next t ∧ Output.spdm p 0x04 (toLE 1 1 ++ toLE 1 0x12) ∈ t.out.drop s.out.length ∧
    (t.work.spdmConn p).version = true ∧ (t.work.spdmConn p).capabilities = false ∧ (t.work.spdmConn p).algorithms = false ∧
    s.frame t [.boot] (fun _ => False) := by
  obtain ⟨t, hexec, hout, ⟨transcript, hconn⟩, -, hframe⟩ := State.spdm_replies (c := .getVersion p) (s := s) (p := p) (keys := fun _ => False) rfl
    (if_neg (by simp [hanswers])) ((s.keeps_work _ _).setSpdm (by simp) p _) rfl
  rw [Work.setSpdm_conn] at hconn
  exact ⟨t, hexec, hout, by rw [hconn], by rw [hconn]; rfl, by rw [hconn]; rfl, hframe⟩

theorem State.getCapabilities_carries : ∃ t, exec (.getCapabilities p) s = .next t ∧ s.frame t [.boot] (fun _ => False) ∧
    (if (s.work.spdmConn p).version = true then
       Output.spdm p 0x61 (toLE 4 0x36 ++ toLE 4 8192) ∈ t.out.drop s.out.length ∧ (t.work.spdmConn p).capabilities = true
     else Output.spdm p 0x7F (toLE 1 4 ++ toLE 1 0) ∈ t.out.drop s.out.length) := by
  by_cases hversion : (s.work.spdmConn p).version = true
  · obtain ⟨t, hexec, hout, ⟨transcript, hconn⟩, -, hframe⟩ := State.spdm_replies (c := .getCapabilities p) (s := s) (p := p) (keys := fun _ => False) rfl
      ((if_neg (by simp [hanswers])).trans (if_neg (by simp [hversion]))) ((s.keeps_work _ _).setSpdm (by simp) p _) rfl
    rw [Work.setSpdm_conn] at hconn
    exact ⟨t, hexec, hframe, (if_pos hversion).mpr ⟨hout, by rw [hconn]⟩⟩
  · obtain ⟨t, hexec, hout, hframe⟩ := State.spdm_refuses (c := .getCapabilities p) (s := s) (p := p) (code := 4) rfl
      ((if_neg (by simp [hanswers])).trans (if_pos (by simp [hversion])))
    exact ⟨t, hexec, hframe.weaken (by simp) fun _ => id, (if_neg hversion).mpr hout⟩

theorem State.negotiateAlgorithms_carries (asym hash : List Nat) : ∃ t, exec (.negotiateAlgorithms p asym hash) s = .next t ∧
    s.frame t [.boot] (fun _ => False) ∧
    (if (s.work.spdmConn p).capabilities = true then (t.work.spdmConn p).algorithms = (asym.contains 6 && hash.contains 2)
     else Output.spdm p 0x7F (toLE 1 4 ++ toLE 1 0) ∈ t.out.drop s.out.length) := by
  by_cases hcapable : (s.work.spdmConn p).capabilities = true
  · obtain ⟨t, hexec, -, ⟨transcript, hconn⟩, -, hframe⟩ := State.spdm_replies (c := .negotiateAlgorithms p asym hash) (s := s) (p := p)
      (keys := fun _ => False) rfl ((if_neg (by simp [hanswers])).trans (if_neg (by simp [hcapable]))) ((s.keeps_work _ _).setSpdm (by simp) p _) rfl
    rw [Work.setSpdm_conn] at hconn
    exact ⟨t, hexec, hframe, (if_pos hcapable).mpr (by rw [hconn])⟩
  · obtain ⟨t, hexec, hout, hframe⟩ := State.spdm_refuses (c := .negotiateAlgorithms p asym hash) (s := s) (p := p) (code := 4) rfl
      ((if_neg (by simp [hanswers])).trans (if_pos (by simp [hcapable])))
    exact ⟨t, hexec, hframe.weaken (by simp) fun _ => id, (if_neg hcapable).mpr hout⟩

/-- A connection that has negotiated: what its four requests are told. -/
theorem State.spdm_ready (hready : (s.work.spdmConn p).ready = true) :
    (∃ t, exec (.getDigests p) s = .next t ∧ Output.spdm p 0x01 (toLE 1 1 ++ Config.sha512 Config.certChain) ∈ t.out.drop s.out.length ∧
      s.frame t [.boot] (fun _ => False)) ∧
    (∀ off len, ∃ t b, exec (.getCertificate p 0 off len) s = .next t ∧
      (off < Config.certChain.length →
        Output.spdm p 0x02 (b ++ slice Config.certChain off (min len (min 8184 (Config.certChain.length - off)))) ∈ t.out.drop s.out.length) ∧
      s.frame t [.boot] (fun _ => False)) ∧
    (∀ nonce, ∃ t b, exec (.challenge p 0 nonce) s = .next t ∧ Output.spdm p 0x03 (Config.sha512 Config.certChain ++ b) ∈ t.out.drop s.out.length ∧
      s.counted t Obj.spdmChallenges 1 ∧ s.frame t [.boot] (fun k => k = Obj.spdmChallenges)) ∧
    (∀ i nonce, 1 ≤ i → i ≤ 8 → ∃ t, exec (.getMeasurements p i false nonce) s = .next t ∧
      Output.spdm p 0x60 (toLE 1 1 ++ s.work.measurementBytes i) ∈ t.out.drop s.out.length ∧ s.frame t [.boot] (fun _ => False)) := by
  have hpath : ¬ (!s.work.spdmAnswers p) = true := by simp [hanswers]
  have hconn : ¬ (!(s.work.spdmConn p).ready) = true := by simp [hready]
  refine ⟨?_, fun off len => ?_, fun nonce => ?_, fun i nonce hi hi8 => ?_⟩
  · obtain ⟨t, hexec, hout, -, -, hframe⟩ := State.spdm_replies (c := .getDigests p) (s := s) (p := p) (keys := fun _ => False) rfl
      ((if_neg hpath).trans (if_neg hconn)) (s.keeps_work _ _) rfl
    exact ⟨t, hexec, hout, hframe⟩
  · by_cases hoff : off < Config.certChain.length
    · obtain ⟨t, hexec, hout, -, -, hframe⟩ := State.spdm_replies (c := .getCertificate p 0 off len) (s := s) (p := p) (keys := fun _ => False) rfl
        ((if_neg hpath).trans ((if_neg hconn).trans (if_neg (by omega)))) (s.keeps_work _ _) rfl
      exact ⟨t, _, hexec, fun _ => hout, hframe⟩
    · obtain ⟨t, hexec, -, hframe⟩ := State.spdm_refuses (c := .getCertificate p 0 off len) (s := s) (p := p) (code := 1) rfl
        ((if_neg hpath).trans ((if_neg hconn).trans (if_pos (by omega))))
      exact ⟨t, [], hexec, fun h => absurd h hoff, hframe.weaken (by simp) fun _ => id⟩
  · have hnonce : s.keeps s.work.spdmNonce.2 [.boot] (fun k => k = Obj.spdmChallenges) := (s.keeps_work _ _).free _
    obtain ⟨t, hexec, hout, -, hcounts, hframe⟩ := State.spdm_replies (c := .challenge p 0 nonce) (s := s) (p := p)
      (keys := fun k => k = Obj.spdmChallenges) rfl ((if_neg hpath).trans ((if_neg hconn).trans (if_neg (by simp))))
      (hnonce.add rfl 1) rfl
    exact ⟨t, _, hexec, by rw [List.append_assoc] at hout; exact hout, hcounts _ _ (by simp [linkCounter]) (Work.counted_add s.work.fresh.2 _ 1), hframe⟩
  · have hpicked : ((List.range 8).map (· + 1)).filter (· = i) = [i] := by interval_cases i <;> decide
    obtain ⟨t, hexec, hout, -, -, hframe⟩ := State.spdm_replies (c := .getMeasurements p i false nonce) (s := s) (p := p) (keys := fun _ => False) rfl
      ((if_neg hpath).trans ((if_neg hconn).trans ((if_neg (by rw [if_neg (by omega), hpicked]; simp)).trans (if_pos rfl)))) (s.keeps_work _ _) rfl
    rw [if_neg (show i ≠ 0 by omega), if_neg (show i ≠ 0xFF by omega), hpicked] at hout
    exact ⟨t, hexec, by simpa using hout, hframe⟩

/-- A connection that has not: its requests are out of order. -/
theorem State.spdm_unready (hready : (s.work.spdmConn p).ready = false) {c : Instr} (hc : c = .getDigests p ∨ (∃ a b n, c = .getCertificate p a b n) ∨
    (∃ a n, c = .challenge p a n) ∨ (∃ i g n, c = .getMeasurements p i g n)) :
    ∃ t, exec c s = .next t ∧ Output.spdm p 0x7F (toLE 1 4 ++ toLE 1 0) ∈ t.out.drop s.out.length ∧ s.frame t [] (fun _ => False) := by
  have hpath : ¬ (!s.work.spdmAnswers p) = true := by simp [hanswers]
  have hconn : (!(s.work.spdmConn p).ready) = true := by simp [hready]
  obtain rfl | ⟨a, b, n, rfl⟩ | ⟨a, n, rfl⟩ | ⟨i, g, n, rfl⟩ := hc <;> exact State.spdm_refuses rfl ((if_neg hpath).trans (if_pos hconn))
end

/-- A path that is not answered. -/
theorem State.spdm_silent {s : State} {p : Path} {c : Instr} (hanswers : s.work.spdmAnswers p = false) (hc : c = .getVersion p ∨ c = .getCapabilities p ∨
    c = .getDigests p ∨ (∃ a b, c = .negotiateAlgorithms p a b) ∨ (∃ a b n, c = .getCertificate p a b n) ∨ (∃ a n, c = .challenge p a n) ∨
    (∃ i g n, c = .getMeasurements p i g n)) : ∃ t, exec c s = .next t ∧ s.frame t [] (fun _ => False) := by
  have hpath : (!s.work.spdmAnswers p) = true := by simp [hanswers]
  obtain rfl | rfl | rfl | ⟨a, b, rfl⟩ | ⟨a, b, n, rfl⟩ | ⟨a, n, rfl⟩ | ⟨i, g, n, rfl⟩ := hc <;> exact State.next_unchanged rfl (if_pos hpath)

/-- Settles O60: each request is answered by the connection it finds. -/
theorem spdmAnswersInItsOrder : Obligations.SpdmAnswersInItsOrder := by
  unfold Obligations.SpdmAnswersInItsOrder
  refine ⟨fun s p hanswers => ⟨State.getVersion_begins hanswers, State.getCapabilities_carries hanswers, State.negotiateAlgorithms_carries hanswers,
    State.spdm_ready hanswers, fun hready c hc => State.spdm_unready hanswers hready hc⟩, fun s p c hanswers hc => State.spdm_silent hanswers hc,
    fun s a ha => ⟨_, State.nextIf_true (decide_eq_true ha), ?_, State.keeps.frame_silent ((s.keeps_work _ _).modBoot (by simp) _) rfl⟩⟩
  rw [State.run_boot]
  rfl

end Sys2Proof.Machine
end

section
/-! SUPPORT. What stores in memory leave alone, and the DMA channels (R443 to R461). -/

namespace Sys2Proof.Machine

/-! ## Stores in memory (R463, R471) -/

/-- A change of memory that leaves a byte alone. -/
def MemOp.leaves : MemOp → Nat → Prop
  | .write addr bytes, b => b < addr ∨ addr + bytes.length ≤ b
  | .zero addr len, b => b < addr ∨ addr + len ≤ b
  | .poison _, _ => True

/-- Changes that each leave a byte alone leave it as it was. -/
theorem Mem.getCell_applyAll {m : Mem} {ops : List MemOp} {b : Nat} (hwf : m.wf = true) (hops : ∀ o ∈ ops, o.leaves b) :
    getCell (m.applyAll ops).cells b = getCell m.cells b := by
  induction ops generalizing m with
  | nil => rfl
  | cons o os ih =>
    obtain ⟨ho, hos⟩ := List.forall_mem_cons.mp hops
    refine (ih (Mem.apply_wf o hwf) hos).trans ((Mem.getCell_apply o b hwf).trans ?_)
    cases o with
    | write addr bytes => exact if_neg (by rintro ⟨_, _⟩; rcases ho with h | h <;> omega)
    | zero addr len => exact if_neg (by rintro ⟨_, _⟩; rcases ho with h | h <;> omega)
    | poison _ => rfl

/-- The changes of memory from one work to the next leave a byte alone. -/
def Work.leaves (s t : Work) (b : Nat) : Prop := ∃ ops, t.writes = s.writes ++ ops ∧ ∀ o ∈ ops, o.leaves b

theorem Work.leaves_of_writes_eq {s t : Work} (h : t.writes = s.writes) (b : Nat) : s.leaves t b := ⟨[], by rw [h, List.append_nil], by simp⟩

theorem Work.leaves.trans {s t u : Work} {b : Nat} (h : s.leaves t b) (g : t.leaves u b) : s.leaves u b := by
  obtain ⟨ops, hw, hops⟩ := h
  obtain ⟨ops', hw', hops'⟩ := g
  exact ⟨ops ++ ops', by rw [hw', hw, List.append_assoc], fun o ho => (List.mem_append.mp ho).elim (hops o) (hops' o)⟩

theorem Work.leaves.foldl {α : Type} {f : Work → α → Work} {s t : Work} {b : Nat} (l : List α) (h : s.leaves t b)
    (hf : ∀ u : Work, ∀ a ∈ l, u.leaves (f u a) b) : s.leaves (l.foldl f t) b :=
  List.foldlRecOn (motive := fun u => s.leaves u b) l f h fun u hu a ha => hu.trans (hf u a ha)

theorem State.run_byteAt_of_leaves {s : State} {f : Work → Work} {b : Nat} (hwf : s.mem.wf = true) (h : s.work.leaves (f s.work) b) :
    (s.run f).byteAt b = s.byteAt b := by
  obtain ⟨ops, hw, hops⟩ := h
  rw [State.run_byteAt, hw]
  exact Mem.getCell_applyAll hwf hops

/-- Counting a range by its stacks changes counts of the stacks only. -/
theorem Work.countRange_rest (s : Work) (obj : Nat → Key) (fuel addr len : Nat) : ∃ objs, Work.countRange s obj fuel addr len = { s with objs := objs } := by
  induction fuel generalizing s addr len with
  | zero => exact ⟨_, rfl⟩
  | succ fuel ih =>
    unfold Work.countRange
    split
    · exact ⟨_, rfl⟩
    · obtain ⟨objs, h⟩ := ih (s.add (obj (addrStack addr)) (min len (4096 - addr % 4096))) (addr + min len (4096 - addr % 4096))
        (len - min len (4096 - addr % 4096))
      exact ⟨objs, h⟩

theorem Work.countRange_get (s : Work) {obj : Nat → Key} (fuel addr len : Nat) {k : Key} (hk : ∀ n, obj n ≠ k) :
    (Work.countRange s obj fuel addr len).get k = s.get k := by
  induction fuel generalizing s addr len with
  | zero => rfl
  | succ fuel ih =>
    unfold Work.countRange
    split
    · rfl
    · rw [ih]
      exact (s.add_get _ _ _).trans (if_neg (hk _))

/-- The objects that stores in memory count. -/
def storeKey (k : Key) : Prop := k = Obj.poisonWrites ∨ ∃ n, k = Obj.stackWriteBytes n

/-- The objects besides memory that a store changes: its counts and the error log. -/
structure Work.stores (s t : Work) : Prop where
  rest : ∃ objs dram mem writes, t = { s with objs := objs, dram := dram, mem := mem, writes := writes }
  get : ∀ k, ¬ storeKey k → t.get k = s.get k

namespace Work.stores

theorem refl (s : Work) : s.stores s := ⟨⟨_, _, _, _, rfl⟩, fun _ _ => rfl⟩

theorem trans {s t u : Work} (h : s.stores t) (g : t.stores u) : s.stores u := by
  obtain ⟨⟨_, _, _, _, rfl⟩, hget⟩ := h
  obtain ⟨⟨_, _, _, _, rfl⟩, hget'⟩ := g
  exact ⟨⟨_, _, _, _, rfl⟩, fun k hk => (hget' k hk).trans (hget k hk)⟩

theorem foldl {α : Type} {f : Work → α → Work} {s t : Work} (l : List α) (h : s.stores t) (hf : ∀ u : Work, ∀ a ∈ l, u.stores (f u a)) :
    s.stores (l.foldl f t) := List.foldlRecOn (motive := fun u => s.stores u) l f h fun u hu a ha => hu.trans (hf u a ha)

theorem logPoison (s : Work) (c : Nat) : s.stores (((s.add Obj.poisonWrites 1).logError (32 * c) 4 0).notePoison c) :=
  ⟨⟨_, _, _, _, rfl⟩, fun _ hk => (s.add_get _ _ _).trans (if_neg fun h => hk (.inl h.symm))⟩

theorem memStorePoison (s : Work) (c : Nat) : s.stores (s.memStorePoison c) :=
  trans (t := s.memOp (.poison c)) ⟨⟨_, _, _, _, rfl⟩, fun _ _ => rfl⟩ (logPoison (s.memOp (.poison c)) c)

theorem memStore (s : Work) (addr : Nat) (bytes : List Byte) : s.stores (s.memStore addr bytes) := by
  unfold Work.memStore
  extract_lets kept stored logged
  have hlogged : s.stores logged := foldl kept (t := stored) ⟨⟨_, _, _, _, rfl⟩, fun _ _ => rfl⟩ fun u c _ => logPoison u c
  refine hlogged.trans ⟨?_, fun k hk => logged.countRange_get _ _ _ fun n h => hk (.inr ⟨n, h.symm⟩)⟩
  obtain ⟨objs, h⟩ := logged.countRange_rest Obj.stackWriteBytes (bytes.length / 4096 + 2) addr bytes.length
  exact ⟨objs, _, _, _, h⟩
end Work.stores

/-- A store leaves the bytes beside it alone, and a poisoned codeword's data as it is. -/
theorem Work.memStore_leaves (s : Work) {addr : Nat} {bytes : List Byte} {b : Nat} (hb : b < addr ∨ addr + bytes.length ≤ b) :
    s.leaves (s.memStore addr bytes) b := by
  unfold Work.memStore
  extract_lets kept stored logged
  have hlogged : s.leaves logged b := Work.leaves.foldl kept (t := stored) ⟨[.write addr bytes], rfl, by simpa [MemOp.leaves] using hb⟩
    fun u c _ => Work.leaves_of_writes_eq rfl b
  refine hlogged.trans (Work.leaves_of_writes_eq ?_ b)
  obtain ⟨objs, h⟩ := logged.countRange_rest Obj.stackWriteBytes (bytes.length / 4096 + 2) addr bytes.length
  rw [h]

theorem Work.memStorePoison_leaves (s : Work) (c b : Nat) : s.leaves (s.memStorePoison c) b := ⟨[.poison c], rfl, by simp [MemOp.leaves]⟩

/-! ## Destination bytes (R449, R457) -/

/-- A run of destination bytes covers offsets of its bytes only. -/
theorem mem_offsets_of_dmaRuns {bs : List DmaByte} {r : Nat × List Byte} (hr : r ∈ dmaRuns bs) {c : Nat} (hlo : r.1 ≤ c) (hhi : c < r.1 + r.2.length) :
    ∃ b ∈ bs, b.offset = c := by
  induction bs generalizing r with
  | nil => exact absurd hr List.not_mem_nil
  | cons b bs ih =>
    have hrest : ∀ {q : Nat × List Byte}, q ∈ dmaRuns bs → q.1 ≤ c → c < q.1 + q.2.length → ∃ x ∈ b :: bs, x.offset = c := fun hq hl hh => by
      obtain ⟨x, hx, hxo⟩ := ih hq hl hh
      exact ⟨x, List.mem_cons_of_mem b hx, hxo⟩
    have hfirst : b.offset = c → ∃ x ∈ b :: bs, x.offset = c := fun h => ⟨b, List.mem_cons_self, h⟩
    unfold dmaRuns at hr
    split at hr
    case h_1 =>
      obtain rfl := List.mem_singleton.mp hr
      simp only [List.length_singleton] at hhi
      exact hfirst (by omega)
    case h_2 o vs rest hruns =>
      split at hr
      case isTrue ho =>
        rcases List.mem_cons.mp hr with rfl | hr
        · simp only [List.length_cons] at hlo hhi
          by_cases hc : b.offset = c
          · exact hfirst hc
          · exact hrest (q := (o, vs)) (by rw [hruns]; exact List.mem_cons_self) (by simp only; omega) (by simp only; omega)
        · exact hrest (by rw [hruns]; exact List.mem_cons_of_mem _ hr) hlo hhi
      case isFalse =>
        rcases List.mem_cons.mp hr with rfl | hr
        · simp only [List.length_singleton] at hhi
          exact hfirst (by omega)
        · exact hrest (by rw [hruns]; exact hr) hlo hhi

/-- The objects that writing destination bytes counts. -/
def dmaWriteKey (k : Key) : Prop := k = Obj.dmaBytesWritten ∨ (∃ p, k = Obj.hostWriteBytes p) ∨ storeKey k

section
variable (s : Work) (owner : Nat) (d : DmaDesc) (bs : List DmaByte)

/-- Destination bytes sent to the host. -/
theorem foldl_hostWrite_rest (w : Work) : ∃ os, bs.foldl (fun (u : Work) b =>
    u.send (.hostWrite owner (d.dst + b.offset) [b.value] (if b.poison then [0] else []))) w = { w with sent := w.sent ++ os } := by
  induction bs generalizing w with
  | nil => exact ⟨[], by rw [List.append_nil]; rfl⟩
  | cons b bs ih =>
    obtain ⟨os, h⟩ := ih (w.send (.hostWrite owner (d.dst + b.offset) [b.value] (if b.poison then [0] else [])))
    exact ⟨[_] ++ os, by rw [List.foldl_cons, h, ← List.append_assoc]; rfl⟩

/-- Destination bytes stored in a window. -/
def Work.dmaStores (w : Work) (a : Nat) (bs : List DmaByte) : Work :=
  (bs.filter (·.poison)).foldl (fun u b => if u.mem.poison.contains ((a + b.offset) / 32) then u else u.memStorePoison ((a + b.offset) / 32))
    ((dmaRuns bs).foldl (fun (u : Work) (r : Nat × List Byte) => u.memStore (a + r.1) r.2) w)

theorem Work.dmaStores_stores (w : Work) (a : Nat) : w.stores (w.dmaStores a bs) :=
  .foldl _ (.foldl _ (.refl w) fun u r _ => .memStore u _ _) fun u b _ => by
    split
    · exact .refl u
    · exact .memStorePoison u _

theorem Work.dmaStores_leaves (w : Work) (a : Nat) {b : Nat} (hb : ∀ e ∈ bs, b ≠ a + e.offset) : w.leaves (w.dmaStores a bs) b := by
  refine .foldl _ (.foldl _ (Work.leaves_of_writes_eq rfl b) fun u r hr => u.memStore_leaves ?_) fun u e _ => ?_
  · by_contra hin
    obtain ⟨e, he, hoff⟩ := mem_offsets_of_dmaRuns hr (c := b - a) (by omega) (by omega)
    exact hb e he (by omega)
  · split
    · exact Work.leaves_of_writes_eq rfl b
    · exact u.memStorePoison_leaves _ b

theorem Work.dmaWrite_eq : s.dmaWrite owner d bs =
    if bs.isEmpty then s
    else if d.dir = 1 then
      bs.foldl (fun (u : Work) b => u.send (.hostWrite owner (d.dst + b.offset) [b.value] (if b.poison then [0] else [])))
        ((s.add Obj.dmaBytesWritten bs.length).add (Obj.hostWriteBytes (ownerPort owner)) bs.length)
    else match s.windowSpan owner d.dst (d.span false) with
      | none => s.add Obj.dmaBytesWritten bs.length
      | some a => (s.add Obj.dmaBytesWritten bs.length).dmaStores a bs := by
  unfold Work.dmaWrite
  rfl

/-- What writing destination bytes changes besides memory. -/
theorem Work.dmaWrite_rest : (∃ objs dram mem writes os, s.dmaWrite owner d bs =
    { s with objs := objs, dram := dram, mem := mem, writes := writes, sent := s.sent ++ os }) ∧
    ∀ k, ¬ dmaWriteKey k → (s.dmaWrite owner d bs).get k = s.get k := by
  have hcount : ∀ k, ¬ dmaWriteKey k → (s.add Obj.dmaBytesWritten bs.length).get k = s.get k := fun k hk =>
    (s.add_get _ _ _).trans (if_neg fun h => hk (.inl h.symm))
  rw [Work.dmaWrite_eq]
  split
  case isTrue => exact ⟨⟨_, _, _, _, [], by rw [List.append_nil]⟩, fun _ _ => rfl⟩
  case isFalse =>
    split
    case isTrue =>
      obtain ⟨os, h⟩ := foldl_hostWrite_rest owner d bs ((s.add Obj.dmaBytesWritten bs.length).add (Obj.hostWriteBytes (ownerPort owner)) bs.length)
      rw [h]
      exact ⟨⟨_, _, _, _, os, rfl⟩, fun k hk => ((Work.add_get _ _ _ _).trans (if_neg fun h => hk (.inr (.inl ⟨_, h.symm⟩)))).trans (hcount k hk)⟩
    case isFalse =>
      split
      case h_1 => exact ⟨⟨_, _, _, _, [], by rw [List.append_nil]; rfl⟩, hcount⟩
      case h_2 a _ =>
        obtain ⟨⟨objs, dram, mem, writes, h⟩, hget⟩ := (s.add Obj.dmaBytesWritten bs.length).dmaStores_stores bs a
        exact ⟨⟨objs, dram, mem, writes, [], by rw [h, List.append_nil]; rfl⟩, fun k hk => (hget k fun h => hk (.inr (.inr h))).trans (hcount k hk)⟩

/-- A transfer to the host writes no memory. -/
theorem Work.dmaWrite_writes_of_host (hdir : d.dir = 1) : (s.dmaWrite owner d bs).writes = s.writes := by
  rw [Work.dmaWrite_eq, if_pos hdir]
  split
  · rfl
  · obtain ⟨os, h⟩ := foldl_hostWrite_rest owner d bs ((s.add Obj.dmaBytesWritten bs.length).add (Obj.hostWriteBytes (ownerPort owner)) bs.length)
    rw [h]
    rfl

/-- A transfer to a window writes its bytes at their offsets, and no other. -/
theorem Work.dmaWrite_leaves {b : Nat} (hb : ∀ a e, s.windowSpan owner d.dst (d.span false) = some a → e ∈ bs → b ≠ a + e.offset) :
    s.leaves (s.dmaWrite owner d bs) b := by
  by_cases hdir : d.dir = 1
  · exact Work.leaves_of_writes_eq (s.dmaWrite_writes_of_host owner d bs hdir) b
  · rw [Work.dmaWrite_eq, if_neg hdir]
    split
    · exact Work.leaves_of_writes_eq rfl b
    · split
      · exact Work.leaves_of_writes_eq rfl b
      · exact Work.leaves.trans (Work.leaves_of_writes_eq rfl b) (Work.dmaStores_leaves _ _ _ fun e he => hb _ e ‹_› he)
end

end Sys2Proof.Machine
end

section
/-! SUPPORT. The slots of a DMA channel: start, half, end and host errors (R446, R453 to R457). -/

namespace Sys2Proof.Machine

/-! ## Channels -/

@[simp] theorem Work.setDma_dmaChan (s : Work) (c : Nat) (x : DmaChan) (e : Nat) : (s.setDma c x).dmaChan e = if c = e then x else s.dmaChan e :=
  look_put _ _ _ _ _

/-- A channel that runs is inside its owner's island. -/
theorem Work.dmaInside_of_runs {s : State} {c : Nat} (h : channelRuns s c) (f : Work → Work) : s.work.dmaInside c f = f s.work := by
  unfold Work.dmaInside
  dsimp only
  split
  case isTrue ho => exact if_pos (h ho)
  case isFalse => rfl

theorem Work.dmaInside_of_stopped {s : State} {c : Nat} (h : ¬ channelRuns s c) (f : Work → Work) : s.work.dmaInside c f = s.work := by
  obtain ⟨ho, hclosed⟩ := Classical.not_imp.mp h
  unfold Work.dmaInside
  exact (if_pos ho).trans (if_neg hclosed)

/-- The channel once no slot runs. -/
def DmaChan.rests (x : DmaChan) : DmaChan := { x with running := none, started := false, bytes := [], poisoned := false, halfReached := false }

/-- The channel as a slot begins to run. -/
def DmaChan.runs (x : DmaChan) (slot : Nat) (d : DmaDesc) : DmaChan :=
  { x with running := some (slot, d), queued := none, started := false, bytes := [], poisoned := false, halfReached := false }

section
variable (s : Work) (c : Nat)

theorem Work.dmaNext_of_none (h : (s.dmaChan c).queued = none) : s.dmaNext c = s.setDma c (s.dmaChan c).rests := by
  unfold Work.dmaNext
  dsimp only
  split
  case h_1 hq => exact absurd (h.symm.trans hq) (by simp)
  case h_2 => rfl

theorem Work.dmaNext_of_some {slot : Nat} {d : DmaDesc} (h : (s.dmaChan c).queued = some (slot, d)) :
    s.dmaNext c = (s.setDma c ((s.dmaChan c).runs slot d)).cmdTo (dmaGoKey c slot) 2 0 := by
  unfold Work.dmaNext
  simp only [h]
  rfl

/-- The waiting slot, if there is one, takes the channel. -/
theorem Work.dmaNext_dmaChan : let y := (s.dmaNext c).dmaChan c
    y.running = (s.dmaChan c).queued ∧ y.queued = none := by
  cases h : (s.dmaChan c).queued with
  | none =>
    rw [s.dmaNext_of_none c h]
    simp [DmaChan.rests, h]
  | some q =>
    obtain ⟨slot, d⟩ := q
    have hchan : (s.dmaNext c).dmaChan c = (s.dmaChan c).runs slot d := by
      rw [s.dmaNext_of_some c h]
      exact (s.setDma_dmaChan _ _ _).trans (if_pos rfl)
    rw [hchan]
    exact ⟨rfl, rfl⟩

theorem Work.dmaNext_rest : ∃ objs dma, s.dmaNext c = { s with objs := objs, dma := dma } := by
  cases h : (s.dmaChan c).queued with
  | none => exact ⟨_, _, s.dmaNext_of_none c h⟩
  | some q => exact ⟨_, _, s.dmaNext_of_some c h⟩

theorem Work.dmaNext_get {k : Key} (hk : ∀ slot, dmaGoKey c slot ≠ k) : (s.dmaNext c).get k = s.get k := by
  cases h : (s.dmaChan c).queued with
  | none => rw [s.dmaNext_of_none c h]; rfl
  | some q =>
    rw [s.dmaNext_of_some c h]
    exact (Work.set_get _ _ _ _).trans (if_neg (hk _))

theorem Work.dmaNext_get_of_none (h : (s.dmaChan c).queued = none) (k : Key) : (s.dmaNext c).get k = s.get k := by
  rw [s.dmaNext_of_none c h]
  rfl
end

/-! ## The end of a slot (R446, R455, R461) -/

/-- The objects an ending slot changes besides its GO object. -/
def dmaEndKey (c st res : Nat) (k : Key) : Prop :=
  k = Obj.dmaLastTag c ∨ (st = 3 ∧ (k = Obj.dmaTransfers ∨ k = Obj.dmaDoneCount c)) ∨ (st = 4 ∧ k = Obj.dmaFailures) ∨ (res = 0x91 ∧ k = Obj.dmaPoisoned)

/-- The work in which a slot has been counted, its owner told, and its tag kept. -/
def Work.dmaTold (s : Work) (c : Nat) (d : DmaDesc) (st res : Nat) (vectors : Bool) : Work :=
  let x := s.dmaChan c
  let owner := s.dmaOwner c
  let full := st = 3 ∨ (st = 4 ∧ res = 0x91)
  let s := if vectors ∧ full ∧ d.halfIrq ∧ !x.halfReached then s.msixOwner owner 2 2 else s
  let s := if vectors ∧ full ∧ d.fullIrq then s.msixOwner owner 3 3 else s
  let s := if vectors ∧ st = 4 then s.msixOwner owner 4 4 else s
  let s := if st = 3 then (s.add Obj.dmaTransfers 1).add (Obj.dmaDoneCount c) 1
    else if st = 4 then s.add Obj.dmaFailures 1 else s
  let s := if res = 0x91 then s.add Obj.dmaPoisoned 1 else s
  s.set (Obj.dmaLastTag c) d.tag

section
variable {s : Work} {c slot : Nat} {d : DmaDesc} (st res : Nat) (vectors : Bool)

/-- A vector raised when a condition holds. -/
theorem Work.msixOwner_ite_spec (s : Work) (p : Prop) [Decidable p] (owner a b : Nat) : ∃ os, vectorsOnly os ∧
    (if p then s.msixOwner owner a b else s) = { s with sent := s.sent ++ os } := by
  split
  · exact s.msixOwner_spec owner a b
  · exact ⟨[], nofun, by rw [List.append_nil]⟩

theorem vectorsOnly.append {a b : List Output} (ha : vectorsOnly a) (hb : vectorsOnly b) : vectorsOnly (a ++ b) := fun o ho =>
  (List.mem_append.mp ho).elim (ha o) (hb o)

/-- The counts of a slot that ends. -/
def Work.dmaCounted (s : Work) (c : Nat) (d : DmaDesc) (st res : Nat) : Work :=
  let s := if st = 3 then (s.add Obj.dmaTransfers 1).add (Obj.dmaDoneCount c) 1
    else if st = 4 then s.add Obj.dmaFailures 1 else s
  let s := if res = 0x91 then s.add Obj.dmaPoisoned 1 else s
  s.set (Obj.dmaLastTag c) d.tag

theorem Work.dmaTold_eq (s : Work) (c : Nat) (d : DmaDesc) : ∃ os, vectorsOnly os ∧
    s.dmaTold c d st res vectors = ({ s with sent := s.sent ++ os } : Work).dmaCounted c d st res := by
  unfold Work.dmaTold
  extract_lets x owner full half whole failed counted poisoned
  obtain ⟨os, hos, hhalf⟩ := s.msixOwner_ite_spec (vectors ∧ full ∧ d.halfIrq ∧ !x.halfReached) owner 2 2
  obtain ⟨os', hos', hwhole⟩ := half.msixOwner_ite_spec (vectors ∧ full ∧ d.fullIrq) owner 3 3
  obtain ⟨os'', hos'', hfailed⟩ := whole.msixOwner_ite_spec (vectors ∧ st = 4) owner 4 4
  refine ⟨os ++ os' ++ os'', (hos.append hos').append hos'', ?_⟩
  have heq : failed = { s with sent := s.sent ++ (os ++ os' ++ os'') } := by
    rw [show failed = _ from hfailed, show whole = _ from hwhole, show half = _ from hhalf]
    simp only [List.append_assoc]
  rw [← heq]
  rfl

theorem Work.dmaCounted_rest (s : Work) (c : Nat) (d : DmaDesc) : ∃ objs, s.dmaCounted c d st res = { s with objs := objs } := by
  unfold Work.dmaCounted
  split_ifs <;> exact ⟨_, rfl⟩

theorem Work.dmaCounted_get (s : Work) (c : Nat) (d : DmaDesc) {k : Key} (hk : ¬ dmaEndKey c st res k) : (s.dmaCounted c d st res).get k = s.get k := by
  simp only [dmaEndKey, not_or, not_and] at hk
  obtain ⟨htag, hdone, hfailed, hpoisoned⟩ := hk
  unfold Work.dmaCounted
  extract_lets counted poisoned
  have hcounted : counted.get k = s.get k := by
    unfold counted
    split_ifs with h3 h4
    · rw [Work.add_get, if_neg (Ne.symm (hdone h3).2), Work.add_get, if_neg (Ne.symm (hdone h3).1)]
    · rw [Work.add_get, if_neg (Ne.symm (hfailed h4))]
    · rfl
  have hpoison : poisoned.get k = counted.get k := by
    unfold poisoned
    split
    case isTrue h => rw [Work.add_get, if_neg (Ne.symm (hpoisoned h))]
    case isFalse => rfl
  exact ((Work.set_get _ _ _ _).trans (if_neg (Ne.symm htag))).trans (hpoison.trans hcounted)

theorem Work.dmaCounted_lastTag (s : Work) (c : Nat) (d : DmaDesc) : (s.dmaCounted c d st res).get (Obj.dmaLastTag c) = d.tag :=
  (Work.set_get _ _ _ _).trans (if_pos rfl)

theorem Work.dmaCounted_transfers (s : Work) (c : Nat) (d : DmaDesc) : s.counted (s.dmaCounted c d 3 0) Obj.dmaTransfers 1 := by
  refine Work.counted_of_get_eq ?_
  simp [Work.dmaCounted]

theorem Work.dmaCounted_failures (s : Work) (c : Nat) (d : DmaDesc) : s.counted (s.dmaCounted c d 4 res) Obj.dmaFailures 1 := by
  refine Work.counted_of_get_eq ?_
  simp only [Work.dmaCounted, show ¬ (4 : Nat) = 3 by decide, if_false, if_true]
  split <;> simp

theorem Work.dmaEnd_eq (h : (s.dmaChan c).running = some (slot, d)) : s.dmaEnd c st res vectors =
    (((s.dmaTold c d st res vectors).setDma c { s.dmaChan c with lastResult := res }).cmdEnd (dmaGoKey c slot) st res).dmaNext c := by
  unfold Work.dmaEnd
  simp only [h]
  rfl

end

section
variable {s : Work} {c slot : Nat} {d : DmaDesc} (h : (s.dmaChan c).running = some (slot, d)) (st res : Nat) (vectors : Bool)
include h

/-- A slot that ends is counted and marked ended, and the next takes the channel. -/
theorem Work.dmaEnd_spec : ∃ u : Work, s.dmaEnd c st res vectors = (u.cmdEnd (dmaGoKey c slot) st res).dmaNext c ∧
    u.dmaChan c = { s.dmaChan c with lastResult := res } ∧ (∃ objs dma os, vectorsOnly os ∧ u = { s with objs := objs, dma := dma, sent := s.sent ++ os }) ∧
    ∀ k, u.get k = (s.dmaCounted c d st res).get k := by
  obtain ⟨os, hos, htold⟩ := s.dmaTold_eq (c := c) (d := d) st res vectors
  refine ⟨_, Work.dmaEnd_eq st res vectors h, (Work.setDma_dmaChan _ _ _ _).trans (if_pos rfl), ?_, fun k => ?_⟩
  · obtain ⟨objs, hcounted⟩ := Work.dmaCounted_rest st res { s with sent := s.sent ++ os } c d
    rw [htold, hcounted]
    exact ⟨_, _, os, hos, rfl⟩
  · rw [htold]
    have hset : ∀ v : Work, (v.setDma c { s.dmaChan c with lastResult := res }).get k = v.get k := fun _ => rfl
    rw [hset]
    unfold Work.dmaCounted
    split_ifs <;> rfl

theorem Work.dmaEnd_rest : ∃ objs dma os, vectorsOnly os ∧ s.dmaEnd c st res vectors = { s with objs := objs, dma := dma, sent := s.sent ++ os } := by
  obtain ⟨u, heq, -, ⟨objs, dma, os, hos, rfl⟩, -⟩ := Work.dmaEnd_spec h st res vectors
  obtain ⟨os', hos', hend⟩ := Work.cmdEnd_spec { s with objs := objs, dma := dma, sent := s.sent ++ os } (dmaGoKey c slot) st res
  obtain ⟨objs', dma', hnext⟩ := Work.dmaNext_rest (Work.cmdEnd { s with objs := objs, dma := dma, sent := s.sent ++ os } (dmaGoKey c slot) st res) c
  rw [heq, hnext, hend]
  exact ⟨objs', dma', os ++ os', hos.append hos', by rw [← List.append_assoc]; rfl⟩

theorem Work.dmaEnd_dmaChan : ((s.dmaEnd c st res vectors).dmaChan c).running = (s.dmaChan c).queued ∧
    ((s.dmaEnd c st res vectors).dmaChan c).queued = none := by
  obtain ⟨u, heq, hchan, -, -⟩ := Work.dmaEnd_spec h st res vectors
  obtain ⟨hrunning, hqueued⟩ := (u.cmdEnd (dmaGoKey c slot) st res).dmaNext_dmaChan c
  obtain ⟨os, -, hend⟩ := u.cmdEnd_spec (dmaGoKey c slot) st res
  have hended : (u.cmdEnd (dmaGoKey c slot) st res).dmaChan c = { s.dmaChan c with lastResult := res } := by
    rw [hend]
    exact hchan
  rw [heq]
  exact ⟨hrunning.trans (by rw [hended]), hqueued⟩

theorem Work.dmaEnd_get {k : Key} (hgo : ∀ n, dmaGoKey c n ≠ k) : (s.dmaEnd c st res vectors).get k = (s.dmaCounted c d st res).get k := by
  obtain ⟨u, heq, -, -, hget⟩ := Work.dmaEnd_spec h st res vectors
  rw [heq, Work.dmaNext_get _ _ hgo, Work.cmdEnd_get, if_neg (hgo _), hget]

/-- With no slot waiting, only the GO object of the slot that ends moves. -/
theorem Work.dmaEnd_get_of_none (hqueued : (s.dmaChan c).queued = none) {k : Key} (hk : dmaGoKey c slot ≠ k) :
    (s.dmaEnd c st res vectors).get k = (s.dmaCounted c d st res).get k := by
  obtain ⟨u, heq, hchan, -, hget⟩ := Work.dmaEnd_spec h st res vectors
  obtain ⟨os, -, hend⟩ := u.cmdEnd_spec (dmaGoKey c slot) st res
  have hended : ((u.cmdEnd (dmaGoKey c slot) st res).dmaChan c).queued = none := by
    rw [hend]
    show (u.dmaChan c).queued = none
    rw [hchan, hqueued]
  rw [heq, Work.dmaNext_get_of_none _ _ hended, Work.cmdEnd_get, if_neg hk, hget]

/-- With no slot waiting, the GO object shows how the slot ended. -/
theorem Work.dmaEnd_go (hqueued : (s.dmaChan c).queued = none) : ∃ u : Work, (s.dmaEnd c st res vectors).get (dmaGoKey c slot) =
    (u.cmdEnd (dmaGoKey c slot) st res).get (dmaGoKey c slot) := by
  obtain ⟨u, heq, hchan, -, -⟩ := Work.dmaEnd_spec h st res vectors
  obtain ⟨os, -, hend⟩ := u.cmdEnd_spec (dmaGoKey c slot) st res
  have hended : ((u.cmdEnd (dmaGoKey c slot) st res).dmaChan c).queued = none := by
    rw [hend]
    show (u.dmaChan c).queued = none
    rw [hchan, hqueued]
  exact ⟨u, by rw [heq, Work.dmaNext_get_of_none _ _ hended]⟩
end

theorem dmaGoKey_not_linkCounter (c slot : Nat) : ¬ linkCounter (dmaGoKey c slot) := by
  unfold dmaGoKey
  split <;> simp [linkCounter]

theorem dmaGoKey_index (c slot : Nat) : (dmaGoKey c slot).index = 0x9813 ∨ (dmaGoKey c slot).index = 0x9814 := by
  unfold dmaGoKey
  split
  · exact .inl rfl
  · exact .inr rfl

/-- An object of another index is not a GO object. -/
theorem dmaGoKey_ne {c : Nat} {k : Key} (h0 : k.index ≠ 0x9813) (h1 : k.index ≠ 0x9814) (slot : Nat) : dmaGoKey c slot ≠ k := by
  rintro rfl
  exact (dmaGoKey_index c slot).elim h0 h1

/-- What the GO object of a slot shows once the slot has ended. -/
theorem State.run_dmaEnd_go {s : State} {f : Work → Work} {w : Work} {c slot st res : Nat} {d : DmaDesc} {vectors : Bool}
    (hf : f s.work = w.dmaEnd c st res vectors) (hrun : (w.dmaChan c).running = some (slot, d)) (hqueued : (w.dmaChan c).queued = none)
    (hst : st < 16) (hres : res < 65536) : (s.run f).cmdStateOf (dmaGoKey c slot) = st ∧ (s.run f).cmdResultOf (dmaGoKey c slot) = res := by
  obtain ⟨u, hu⟩ := Work.dmaEnd_go hrun st res vectors hqueued
  have hgo := State.run_cmdEnd (s := s) (f := fun _ => u.cmdEnd (dmaGoKey c slot) st res) (dmaGoKey_not_linkCounter c slot) rfl hst hres
  have hval : (s.run f).val (dmaGoKey c slot) = (s.run fun _ => u.cmdEnd (dmaGoKey c slot) st res).val (dmaGoKey c slot) := by
    rw [State.run_val _ _ _ (dmaGoKey_not_linkCounter c slot), State.run_val _ _ _ (dmaGoKey_not_linkCounter c slot), hf, hu]
  rw [State.cmdStateOf, State.cmdResultOf, hval]
  exact hgo

/-! ## DMA_SLOT_START (R453) -/

/-- The source of a transfer as it is read: bytes, poisoned positions, and the counts of the reading. -/
def Work.dmaFetch (s : Work) (c : Nat) (d : DmaDesc) (host : List Byte) (bad : List Nat) : List Byte × List Nat × Work :=
  match d.dir, s.windowSpan (s.dmaOwner c) d.src (d.span true) with
  | 0, _ => (host, bad, s.add (Obj.hostReadBytes (ownerPort (s.dmaOwner c))) (d.dataBytes true))
  | _, some a =>
    (s.memRead a (d.span true), (List.range (s.memRead a (d.span true)).length).filter (fun i => s.mem.poison.contains ((a + i) / 32)),
      (d.parts true).foldl (fun (s : Work) (p : Nat × Nat) => (s.memLoad (a + p.1) p.2).2.2) s)
  | _, none => ([], [], s)

/-- The converted elements of a transfer and how many saturated, counted; `x` is the channel that begins. -/
def Work.dmaBegins (s : Work) (c : Nat) (x : DmaChan) (d : DmaDesc) (bytes : List Byte) (poison : List Nat) : Work :=
  let s := s.add Obj.dmaBytesRead (d.dataBytes true)
  let r := dmaStreams d (dmaSource bytes poison)
  let out := r.1.flatMap (fun t => t.bytes d.pixels)
  let s := if r.2 = 0 then s else s.add Obj.dmaSaturated r.2
  let s := if r.2 ≠ 0 ∧ 6 ≤ d.dstWidth then s.add Obj.fpSaturations r.2 else s
  s.setDma c { x with started := true, bytes := out, poisoned := out.any (·.poison) }

/-- The objects that reading and converting count. -/
def dmaReadKey (k : Key) : Prop := k = Obj.dmaBytesRead ∨ k = Obj.dmaSaturated ∨ k = Obj.fpSaturations ∨ k = Obj.poisonReads ∨
  (∃ n, k = Obj.stackReadBytes n) ∨ ∃ p, k = Obj.hostReadBytes p

section
variable {s : Work} {c slot : Nat} {d : DmaDesc} (host : List Byte) (bad : List Nat)

/-- A started transfer is one whose windows stand, whose sides are apart and whose stacks have power. -/
theorem Work.dmaSlotStart_eq (hrun : (s.dmaChan c).running = some (slot, d)) (hstarted : (s.dmaChan c).started = false) :
    s.dmaSlotStart c host bad =
      if (d.dir ≠ 0 ∧ s.windowSpan (s.dmaOwner c) d.src (d.span true) = none) ∨ (d.dir ≠ 1 ∧ s.windowSpan (s.dmaOwner c) d.dst (d.span false) = none)
      then s.dmaEnd c 4 0x90 true
      else if d.dir = 2 ∧ d.src < d.dst + d.span false ∧ d.dst < d.src + d.span true then s.dmaEnd c 4 0x93 true
      else if 3 ≤ s.get Obj.powerState then s.dmaEnd c 4 0x94 true
      else (s.dmaFetch c d host bad).2.2.dmaBegins c (s.dmaChan c) d (s.dmaFetch c d host bad).1 (s.dmaFetch c d host bad).2.1 := by
  unfold Work.dmaSlotStart
  extract_lets x
  split
  case h_1 hnone => exact absurd (hrun.symm.trans hnone) (by simp)
  case h_2 slot' d' hsome =>
    obtain ⟨rfl, rfl⟩ : slot = slot' ∧ d = d' := by simpa using hrun.symm.trans hsome
    rw [if_neg (show ¬ x.started = true from by simp [x, hstarted])]
    rfl

/-- A demand read counts on the stacks, and the poison it meets (R470, R479). -/
theorem Work.memLoad_rest (s : Work) (addr len : Nat) : (∃ objs, (s.memLoad addr len).2.2 = { s with objs := objs }) ∧
    ∀ k, k ≠ Obj.poisonReads → (∀ n, Obj.stackReadBytes n ≠ k) → (s.memLoad addr len).2.2.get k = s.get k := by
  obtain ⟨objs, h⟩ := s.countRange_rest Obj.stackReadBytes (len / 4096 + 2) addr len
  unfold Work.memLoad
  extract_lets bad s'
  have hs' : s' = { s with objs := objs } := h
  have hget : ∀ k, (∀ n, Obj.stackReadBytes n ≠ k) → s'.get k = s.get k := fun k hk => s.countRange_get _ _ _ hk
  dsimp only
  split
  · exact ⟨⟨objs, hs'⟩, fun k _ hk => hget k hk⟩
  · exact ⟨⟨_, by rw [hs']; rfl⟩, fun k hpoison hk => (Work.add_get _ _ _ _).trans ((if_neg (Ne.symm hpoison)).trans (hget k hk))⟩

/-- Reading the source counts what it reads, and no more. -/
theorem Work.dmaFetch_rest : (∃ objs, (s.dmaFetch c d host bad).2.2 = { s with objs := objs }) ∧
    ∀ k, k ≠ Obj.poisonReads → (∀ n, Obj.stackReadBytes n ≠ k) → (∀ p, Obj.hostReadBytes p ≠ k) → (s.dmaFetch c d host bad).2.2.get k = s.get k := by
  unfold Work.dmaFetch
  split
  case h_1 => exact ⟨⟨_, rfl⟩, fun k _ _ hhost => (s.add_get _ _ _).trans (if_neg (hhost _))⟩
  case h_2 _ a _ _ =>
    refine List.foldlRecOn (motive := fun u : Work => (∃ objs, u = { s with objs := objs }) ∧ ∀ k, k ≠ Obj.poisonReads →
      (∀ n, Obj.stackReadBytes n ≠ k) → (∀ p, Obj.hostReadBytes p ≠ k) → u.get k = s.get k) _ _ ⟨⟨_, rfl⟩, fun _ _ _ _ => rfl⟩ ?_
    rintro u ⟨⟨objs, rfl⟩, hget⟩ q -
    obtain ⟨⟨objs', h⟩, hget'⟩ := Work.memLoad_rest { s with objs := objs } (a + q.1) q.2
    exact ⟨⟨objs', h⟩, fun k hp hn hh => (hget' k hp hn).trans (hget k hp hn hh)⟩
  case h_3 => exact ⟨⟨_, rfl⟩, fun _ _ _ _ => rfl⟩

theorem Work.add_ite_get (s : Work) (p : Prop) [Decidable p] (j : Key) (n : Nat) {k : Key} (hk : j ≠ k) : (if p then s.add j n else s).get k = s.get k := by
  split
  · exact (s.add_get _ _ _).trans (if_neg hk)
  · rfl

theorem Work.ite_add_get (s : Work) (p : Prop) [Decidable p] (j : Key) (n : Nat) {k : Key} (hk : j ≠ k) : (if p then s else s.add j n).get k = s.get k := by
  split
  · rfl
  · exact (s.add_get _ _ _).trans (if_neg hk)

/-- A transfer that begins counts its whole source, and what saturates. -/
theorem Work.dmaBegins_spec (s : Work) (c : Nat) (x : DmaChan) (d : DmaDesc) (bytes : List Byte) (poison : List Nat) :
    (∃ objs dma, s.dmaBegins c x d bytes poison = { s with objs := objs, dma := dma }) ∧
    (∃ out poisoned, (s.dmaBegins c x d bytes poison).dmaChan c = { x with started := true, bytes := out, poisoned := poisoned }) ∧
    (s.dmaBegins c x d bytes poison).get Obj.dmaBytesRead = countPast Obj.dmaBytesRead (s.get Obj.dmaBytesRead + d.dataBytes true) ∧
    ∀ k, k ≠ Obj.dmaBytesRead → k ≠ Obj.dmaSaturated → k ≠ Obj.fpSaturations → (s.dmaBegins c x d bytes poison).get k = s.get k := by
  unfold Work.dmaBegins
  extract_lets read r out saturated floats
  have hset : ∀ v : Work, ∀ k, (v.setDma c { x with started := true, bytes := out, poisoned := out.any (·.poison) }).get k = v.get k := fun _ _ => rfl
  have hsaturated : ∀ k, k ≠ Obj.dmaSaturated → saturated.get k = read.get k := fun k hk => read.ite_add_get _ _ _ (Ne.symm hk)
  have hfloats : ∀ k, k ≠ Obj.dmaSaturated → k ≠ Obj.fpSaturations → floats.get k = read.get k := fun k hs hf =>
    (saturated.add_ite_get _ _ _ (Ne.symm hf)).trans (hsaturated k hs)
  have hread : ∀ k, k ≠ Obj.dmaBytesRead → read.get k = s.get k := fun k hk => (s.add_get _ _ _).trans (if_neg (Ne.symm hk))
  refine ⟨?_, ⟨out, _, (Work.setDma_dmaChan _ _ _ _).trans (if_pos rfl)⟩, ?_, fun k hb hs hf => ?_⟩
  · have hrest : ∃ objs, floats = { s with objs := objs } := by
      unfold floats saturated
      split_ifs <;> exact ⟨_, rfl⟩
    obtain ⟨objs, h⟩ := hrest
    rw [h]
    exact ⟨objs, _, rfl⟩
  · rw [hset, hfloats _ (by decide) (by decide)]
    exact (s.add_get _ _ _).trans (if_pos rfl)
  · rw [hset, hfloats k hs hf, hread k hb]
end

/-- A slot that ends changes its channel, and the objects of its end. -/
theorem State.keeps.dmaEnd {s : State} {w : Work} {parts : List StatePart} {keys : Key → Prop} (h : s.keeps w parts keys)
    (hdma : StatePart.dma ∈ parts) {c slot : Nat} {d : DmaDesc} (hrun : (w.dmaChan c).running = some (slot, d)) (hqueued : (w.dmaChan c).queued = none)
    (hgo : keys (dmaGoKey c slot)) {st res : Nat} (hkeys : ∀ k, dmaEndKey c st res k → keys k) (vectors : Bool) :
    s.keeps (w.dmaEnd c st res vectors) parts keys := by
  refine ⟨?_, fun k hk => ?_⟩
  · obtain ⟨objs, dma, os, -, heq⟩ := Work.dmaEnd_rest hrun st res vectors
    rw [heq]
    intro p hp
    cases p with
    | dma => exact absurd hdma hp
    | _ => exact h.1 _ hp
  · rw [Work.dmaEnd_get_of_none (k := k) hrun st res vectors hqueued (fun he => hk (he ▸ hgo)), Work.dmaCounted_get _ _ _ _ _ fun he => hk (hkeys k he)]
    exact h.2 k hk

/-- What DMA_SLOT_START may change. -/
def dmaStartKey (c slot : Nat) (k : Key) : Prop := k = dmaGoKey c slot ∨ k = Obj.dmaLastTag c ∨ k = Obj.dmaFailures ∨ k = Obj.dmaBytesRead ∨
  k = Obj.dmaSaturated ∨ k = Obj.fpSaturations ∨ k = Obj.poisonReads ∨ (∃ n, k = Obj.stackReadBytes n) ∨ ∃ p, k = Obj.hostReadBytes p

section
variable {s : State} {c slot : Nat} {d : DmaDesc} {host : List Byte} {bad : List Nat}
  (hrun : (s.work.dmaChan c).running = some (slot, d))

section
variable (hqueued : (s.work.dmaChan c).queued = none)
include hrun hqueued

/-- A start that a check turns down. -/
theorem State.dmaStart_fails {f : Work → Work} {res : Nat} (hf : f s.work = s.work.dmaEnd c 4 res true) (hres : res < 65536) (hpoison : res ≠ 0x91) :
    ((s.run f).cmdStateOf (dmaGoKey c slot) = 4 ∧ (s.run f).cmdResultOf (dmaGoKey c slot) = res ∧ ((s.run f).work.dmaChan c).running = none) ∧
      s.frame (s.run f) [.dma] (dmaStartKey c slot) := by
  obtain ⟨hstate, hresult⟩ := State.run_dmaEnd_go hf hrun hqueued (by decide) hres
  refine ⟨⟨hstate, hresult, ?_⟩, State.keeps.frame_local ?_ fun dst link m => ?_⟩
  · rw [State.run_dmaChan, hf, (Work.dmaEnd_dmaChan hrun 4 res true).1, hqueued]
  · rw [hf]
    refine (s.keeps_work _ _).dmaEnd (by simp) hrun hqueued (.inl rfl) (fun k hk => ?_) true
    rcases hk with rfl | ⟨h, -⟩ | ⟨-, rfl⟩ | ⟨h, -⟩
    · exact .inr (.inl rfl)
    · exact absurd h (by decide)
    · exact .inr (.inr (.inl rfl))
    · exact absurd h hpoison
  · obtain ⟨objs, dma, os, hos, heq⟩ := Work.dmaEnd_rest hrun 4 res true
    rw [hf, heq]
    exact vectorsOnly_local (by simpa using hos) dst link m
end

/-- A start that passes its checks. -/
theorem State.dmaStart_begins {f : Work → Work} (hf : f s.work = (s.work.dmaFetch c d host bad).2.2.dmaBegins c (s.work.dmaChan c) d
    (s.work.dmaFetch c d host bad).1 (s.work.dmaFetch c d host bad).2.1) :
    (((s.run f).work.dmaChan c).started = true ∧ ((s.run f).work.dmaChan c).running = (s.work.dmaChan c).running ∧
      s.counted (s.run f) Obj.dmaBytesRead (d.dataBytes true)) ∧ s.frame (s.run f) [.dma] (dmaStartKey c slot) := by
  obtain ⟨⟨objs, hfetch⟩, hget⟩ := s.work.dmaFetch_rest (c := c) (d := d) host bad
  obtain ⟨⟨objs', dma, hrest⟩, ⟨out, poisoned, hchan⟩, hcount, hget'⟩ := (s.work.dmaFetch c d host bad).2.2.dmaBegins_spec c (s.work.dmaChan c) d
    (s.work.dmaFetch c d host bad).1 (s.work.dmaFetch c d host bad).2.1
  rw [← hf] at hrest hchan hcount hget'
  rw [hget Obj.dmaBytesRead (by decide) (by simp) (by simp)] at hcount
  refine ⟨⟨?_, ?_, State.run_counted (by simp [linkCounter]) (Work.counted_of_get_eq hcount)⟩, State.keeps.frame_silent ⟨?_, fun k hk => ?_⟩ ?_⟩
  · rw [State.run_dmaChan, hchan]
  · rw [State.run_dmaChan, hchan]
  · rw [hrest, hfetch]
    intro p hp
    cases p with
    | dma => exact absurd List.mem_cons_self hp
    | _ => rfl
  · simp only [dmaStartKey, not_or, not_exists] at hk
    obtain ⟨-, -, -, hread, hsat, hfp, hpoison, hstack, hhost⟩ := hk
    rw [hget' k hread hsat hfp, hget k hpoison (fun n => Ne.symm (hstack n)) (fun p => Ne.symm (hhost p))]
    rfl
  · rw [hrest, hfetch]
    rfl

end

/-- Settles O23: the checks run in their order, and the first that fails ends the slot. -/
theorem dmaStartChecksWindowsOverlapAndPower : Obligations.DmaStartChecksWindowsOverlapAndPower := by
  unfold Obligations.DmaStartChecksWindowsOverlapAndPower
  intro s c slot d host bad hc hinside hrun hstarted hqueued
  have hwork : (s.work.dmaInside c fun w => w.dmaSlotStart c host bad) = _ :=
    (Work.dmaInside_of_runs hinside _).trans (Work.dmaSlotStart_eq host bad hrun hstarted)
  refine ⟨_, State.nextIf_true (decide_eq_true hc), ?_⟩
  generalize hf : (fun w : Work => w.dmaInside c fun w => w.dmaSlotStart c host bad) = f
  have hfs : f s.work = _ := (congrFun hf s.work).symm.trans hwork
  dsimp only
  by_cases hunmapped : (d.dir ≠ 0 ∧ s.work.windowSpan (s.work.dmaOwner c) d.src (d.span true) = none) ∨
      (d.dir ≠ 1 ∧ s.work.windowSpan (s.work.dmaOwner c) d.dst (d.span false) = none)
  · obtain ⟨hfailed, hframe⟩ := State.dmaStart_fails hrun hqueued (hfs.trans (if_pos hunmapped)) (by decide) (by decide)
    exact ⟨⟨fun _ => hfailed, fun h => absurd hunmapped h, fun h => absurd hunmapped h, fun h => absurd hunmapped h⟩, hframe⟩
  have hmapped := hfs.trans (if_neg hunmapped)
  by_cases hoverlap : d.dir = 2 ∧ d.src < d.dst + d.span false ∧ d.dst < d.src + d.span true
  · obtain ⟨hfailed, hframe⟩ := State.dmaStart_fails hrun hqueued (hmapped.trans (if_pos hoverlap)) (by decide) (by decide)
    exact ⟨⟨fun h => absurd h hunmapped, fun _ _ => hfailed, fun _ h => absurd hoverlap h, fun _ h => absurd hoverlap h⟩, hframe⟩
  have hapart := hmapped.trans (if_neg hoverlap)
  by_cases hpower : 3 ≤ s.val Obj.powerState
  · obtain ⟨hfailed, hframe⟩ := State.dmaStart_fails hrun hqueued (hapart.trans (if_pos hpower)) (by decide) (by decide)
    exact ⟨⟨fun h => absurd h hunmapped, fun _ h => absurd h hoverlap, fun _ _ _ => hfailed, fun _ _ h => absurd hpower (by omega)⟩, hframe⟩
  · obtain ⟨⟨hbegun, hstands, hcounts⟩, hframe⟩ := State.dmaStart_begins (slot := slot) (hapart.trans (if_neg hpower))
    exact ⟨⟨fun h => absurd h hunmapped, fun _ h => absurd h hoverlap, fun _ _ h => absurd h hpower, fun _ _ _ => ⟨hbegun, hstands.trans hrun, hcounts⟩⟩, hframe⟩

end Sys2Proof.Machine
end

section
/-! SUPPORT. A DMA slot's half, its end and a host's error (R455 to R457). -/

namespace Sys2Proof.Machine

section
variable {s : Work} {c slot : Nat} {d : DmaDesc} (hrun : (s.dmaChan c).running = some (slot, d))
include hrun

theorem Work.dmaSlotEnd_eq (hstarted : (s.dmaChan c).started = true) : s.dmaSlotEnd c =
    if (s.dmaChan c).poisoned then (s.dmaWrite (s.dmaOwner c) d (s.dmaChan c).bytes).dmaEnd c 4 0x91 true
    else (s.dmaWrite (s.dmaOwner c) d (s.dmaChan c).bytes).dmaEnd c 3 0 true := by
  unfold Work.dmaSlotEnd
  extract_lets x
  split
  case h_1 hnone => exact absurd (hrun.symm.trans hnone) (by simp)
  case h_2 slot' d' hsome =>
    obtain ⟨rfl, rfl⟩ : slot = slot' ∧ d = d' := by simpa using hrun.symm.trans hsome
    rw [if_neg (show ¬ (!x.started) = true from by simp [x, hstarted])]

/-- The bytes of the first half are written, and the rest are what is left. -/
theorem Work.dmaHalf_eq (hstarted : (s.dmaChan c).started = true) (hhalf : (s.dmaChan c).halfReached = false) (hpixels : 2 ≤ d.pixels) : s.dmaHalf c =
    let w := (s.dmaWrite (s.dmaOwner c) d ((s.dmaChan c).bytes.filter (·.firstHalf))).setDma c
      { s.dmaChan c with bytes := (s.dmaChan c).bytes.filter (fun b => !b.firstHalf), halfReached := true }
    if d.halfIrq then w.msixOwner (w.dmaOwner c) 2 2 else w := by
  unfold Work.dmaHalf
  extract_lets x w
  split
  case h_1 hnone => exact absurd (hrun.symm.trans hnone) (by simp)
  case h_2 slot' d' hsome =>
    obtain ⟨rfl, rfl⟩ : slot = slot' ∧ d = d' := by simpa using hrun.symm.trans hsome
    have hgoes : ¬ (!x.started || x.halfReached || decide (d.pixels < 2)) = true := by simp [x, hstarted, hhalf]; omega
    rw [if_neg hgoes]

theorem Work.hostReadError_of_window (hdir : d.dir ≠ 0) (n : Nat) : s.hostReadError c n = s := by
  unfold Work.hostReadError
  simp only [hrun, hdir, if_false]

theorem Work.hostReadError_of_host (hdir : d.dir = 0) (hstarted : (s.dmaChan c).started = true) (n : Nat) : ∃ bs,
    s.hostReadError c n = (s.dmaWrite (s.dmaOwner c) d bs).dmaEnd c 4 0x92 true := by
  refine ⟨(s.dmaChan c).bytes.filter fun b => decide (d.dst + b.offset < (d.dst + n + 63) / 64 * 64), ?_⟩
  unfold Work.hostReadError Work.dmaStop
  simp only [hrun, hdir, if_true, hstarted]
end

/-! ## What writing bytes leaves of the channels -/

section
variable (s : Work) (owner : Nat) (d : DmaDesc) (bs : List DmaByte)

theorem Work.dmaWrite_dmaChan (c : Nat) : (s.dmaWrite owner d bs).dmaChan c = s.dmaChan c := by
  obtain ⟨⟨objs, dram, mem, writes, os, h⟩, -⟩ := s.dmaWrite_rest owner d bs
  rw [h]
  rfl

theorem Work.dmaWrite_get {k : Key} (hk : ¬ dmaWriteKey k) : (s.dmaWrite owner d bs).get k = s.get k := (s.dmaWrite_rest owner d bs).2 k hk
end

/-- A slot whose bytes have been written and that ends. -/
structure State.dmaEnded (s t : State) (c slot : Nat) (d : DmaDesc) (bs : List DmaByte) (st res : Nat) : Prop where
  running : (t.work.dmaChan c).running = (s.work.dmaChan c).queued
  queued : (t.work.dmaChan c).queued = none
  go : (s.work.dmaChan c).queued = none → t.cmdStateOf (dmaGoKey c slot) = st ∧ t.cmdResultOf (dmaGoKey c slot) = res
  lastTag : t.val (Obj.dmaLastTag c) = d.tag
  done : st = 3 → res = 0 → s.counted t Obj.dmaTransfers 1
  failed : st = 4 → s.counted t Obj.dmaFailures 1
  host : d.dir = 1 → t.mem = s.mem
  bytes : s.mem.wf = true → ∀ b, (∀ a e, s.work.windowSpan (s.work.dmaOwner c) d.dst (d.span false) = some a → e ∈ bs → b ≠ a + e.offset) →
    t.byteAt b = s.byteAt b

theorem State.run_dmaEnd {s : State} {c slot : Nat} {d : DmaDesc} {bs : List DmaByte} {st res : Nat} {f : Work → Work}
    (hrun : (s.work.dmaChan c).running = some (slot, d)) (hst : st < 16) (hres : res < 65536)
    (hf : f s.work = (s.work.dmaWrite (s.work.dmaOwner c) d bs).dmaEnd c st res true) : s.dmaEnded (s.run f) c slot d bs st res := by
  have hchan : (s.work.dmaWrite (s.work.dmaOwner c) d bs).dmaChan c = s.work.dmaChan c := Work.dmaWrite_dmaChan _ _ _ _ _
  have hrun' : ((s.work.dmaWrite (s.work.dmaOwner c) d bs).dmaChan c).running = some (slot, d) := hchan ▸ hrun
  obtain ⟨hrunning, hqueued⟩ := Work.dmaEnd_dmaChan hrun' st res true
  obtain ⟨objs, dma, os, -, hrest⟩ := Work.dmaEnd_rest hrun' st res true
  have hget : ∀ {k : Key}, k.index ≠ 0x9813 → k.index ≠ 0x9814 → (f s.work).get k = ((s.work.dmaWrite (s.work.dmaOwner c) d bs).dmaCounted c d st res).get k :=
    fun h0 h1 => by rw [hf, Work.dmaEnd_get hrun' st res true (dmaGoKey_ne h0 h1)]
  have hwrites : (f s.work).writes = (s.work.dmaWrite (s.work.dmaOwner c) d bs).writes := by rw [hf, hrest]
  have hcount : ∀ {k : Key} {n : Nat}, ¬ linkCounter k → ¬ dmaWriteKey k → k.index ≠ 0x9813 → k.index ≠ 0x9814 →
      (s.work.dmaWrite (s.work.dmaOwner c) d bs).counted ((s.work.dmaWrite (s.work.dmaOwner c) d bs).dmaCounted c d st res) k n →
      s.counted (s.run f) k n := fun hl hw h0 h1 hcounted => State.run_counted hl fun hlt => by
    rw [hget h0 h1, ← Work.dmaWrite_get s.work (s.work.dmaOwner c) d bs hw]
    rw [← Work.dmaWrite_get s.work (s.work.dmaOwner c) d bs hw] at hlt
    exact hcounted hlt
  constructor
  case running => rw [State.run_dmaChan, hf, hrunning, hchan]
  case queued => rw [State.run_dmaChan, hf, hqueued]
  case go => exact fun hnone => State.run_dmaEnd_go hf hrun' (hchan ▸ hnone) hst hres
  case lastTag => rw [State.run_val _ _ _ (by simp [linkCounter]), hget (by simp) (by simp), Work.dmaCounted_lastTag]
  case done =>
    rintro rfl rfl
    exact hcount (by simp [linkCounter]) (by simp [dmaWriteKey, storeKey]) (by simp) (by simp) (Work.dmaCounted_transfers _ c d)
  case failed =>
    rintro rfl
    exact hcount (by simp [linkCounter]) (by simp [dmaWriteKey, storeKey]) (by simp) (by simp) (Work.dmaCounted_failures res _ c d)
  case host =>
    intro hdir
    refine State.run_mem_same _ _ (hwrites.trans ?_)
    rw [Work.dmaWrite_writes_of_host _ _ _ _ hdir]
    rfl
  case bytes => exact fun hwf b hb => State.run_byteAt_of_leaves hwf ((Work.dmaWrite_leaves s.work _ d bs hb).trans (Work.leaves_of_writes_eq hwrites b))

section
variable {s : State} {c slot : Nat} {d : DmaDesc} (hc : c < 32)
include hc

/-- Events of a channel whose island is stopped have no effect (R20). -/
theorem State.dma_stopped (hstopped : ¬ channelRuns s c) {e : Instr} {f : Work → Work} (hexec : exec e s = s.nextIf (c < 32) fun w => w.dmaInside c f) :
    ∃ t, exec e s = .next t ∧ s.frame t [] (fun _ => False) :=
  ⟨_, hexec.trans (State.nextIf_true (decide_eq_true hc)), s.run_id _ (Work.dmaInside_of_stopped hstopped f)⟩

variable (hinside : channelRuns s c) (hrun : (s.work.dmaChan c).running = some (slot, d)) (hstarted : (s.work.dmaChan c).started = true)
include hinside hrun

theorem State.hostReadError_of_window (hdir : d.dir ≠ 0) (n : Nat) : ∃ t, exec (.hostReadError c n) s = .next t ∧ s.frame t [] (fun _ => False) :=
  ⟨_, State.nextIf_true (decide_eq_true hc), s.run_id _ ((Work.dmaInside_of_runs hinside _).trans (Work.hostReadError_of_window hrun hdir n))⟩

include hstarted

theorem State.dmaSlotEnd_ends : ∃ t, exec (.dmaSlotEnd c) s = .next t ∧ s.dmaEnded t c slot d (s.work.dmaChan c).bytes
    (if (s.work.dmaChan c).poisoned then 4 else 3) (if (s.work.dmaChan c).poisoned then 0x91 else 0) := by
  have hwork := (Work.dmaInside_of_runs hinside fun w => w.dmaSlotEnd c).trans (Work.dmaSlotEnd_eq hrun hstarted)
  refine ⟨_, State.nextIf_true (decide_eq_true hc), ?_⟩
  cases hpoisoned : (s.work.dmaChan c).poisoned
  · rw [hpoisoned] at hwork
    exact State.run_dmaEnd hrun (by decide) (by decide) hwork
  · rw [hpoisoned] at hwork
    exact State.run_dmaEnd hrun (by decide) (by decide) hwork

theorem State.hostReadError_ends (hdir : d.dir = 0) (n : Nat) : ∃ t bs, exec (.hostReadError c n) s = .next t ∧ s.dmaEnded t c slot d bs 4 0x92 := by
  obtain ⟨bs, herror⟩ := Work.hostReadError_of_host hrun hdir hstarted n
  have hwork := (Work.dmaInside_of_runs hinside fun w => w.hostReadError c n).trans herror
  exact ⟨_, bs, State.nextIf_true (decide_eq_true hc), State.run_dmaEnd hrun (by decide) (by decide) hwork⟩

theorem State.dmaHalf_writes (hhalf : (s.work.dmaChan c).halfReached = false) (hpixels : 2 ≤ d.pixels) : ∃ t, exec (.dmaHalf c) s = .next t ∧
    (t.work.dmaChan c).halfReached = true ∧ (t.work.dmaChan c).bytes = (s.work.dmaChan c).bytes.filter (fun b => !b.firstHalf) ∧
    (t.work.dmaChan c).running = some (slot, d) ∧ (d.dir = 1 → t.mem = s.mem) := by
  have hwork := (Work.dmaInside_of_runs hinside fun w => w.dmaHalf c).trans (Work.dmaHalf_eq hrun hstarted hhalf hpixels)
  dsimp only at hwork
  obtain ⟨os, -, htold⟩ := Work.msixOwner_ite_spec ((s.work.dmaWrite (s.work.dmaOwner c) d ((s.work.dmaChan c).bytes.filter (·.firstHalf))).setDma c
    { s.work.dmaChan c with bytes := (s.work.dmaChan c).bytes.filter (fun b => !b.firstHalf), halfReached := true }) (d.halfIrq = true)
    (((s.work.dmaWrite (s.work.dmaOwner c) d ((s.work.dmaChan c).bytes.filter (·.firstHalf))).setDma c
      { s.work.dmaChan c with bytes := (s.work.dmaChan c).bytes.filter (fun b => !b.firstHalf), halfReached := true }).dmaOwner c) 2 2
  rw [htold] at hwork
  have hchan : (s.work.dmaInside c fun w => w.dmaHalf c).dmaChan c =
      { s.work.dmaChan c with bytes := (s.work.dmaChan c).bytes.filter (fun b => !b.firstHalf), halfReached := true } := by
    rw [hwork]
    exact (Work.setDma_dmaChan _ _ _ _).trans (if_pos rfl)
  refine ⟨_, State.nextIf_true (decide_eq_true hc), ?_, ?_, ?_, fun hdir => State.run_mem_same _ _ ?_⟩
  · rw [State.run_dmaChan, hchan]
  · rw [State.run_dmaChan, hchan]
  · rw [State.run_dmaChan, hchan]
    exact hrun
  · rw [hwork]
    exact Work.dmaWrite_writes_of_host s.work _ d _ hdir
end

/-- Settles O24: each event writes bytes of the slot's own list, and ends the slot or leaves it running. -/
theorem dmaTransfersHalveEndAndFail : Obligations.DmaTransfersHalveEndAndFail := by
  unfold Obligations.DmaTransfersHalveEndAndFail
  refine ⟨fun s c slot d hwf hc hinside hrun hstarted => ?_, fun s c hc hstopped => ⟨fun host bad => State.dma_stopped hc hstopped rfl,
    State.dma_stopped hc hstopped rfl, State.dma_stopped hc hstopped rfl, fun n => State.dma_stopped hc hstopped rfl⟩,
    fun s c slot d hc hinside hrun hstarted => ⟨fun hhalf hpixels => State.dmaHalf_writes hc hinside hrun hstarted hhalf hpixels,
      fun n hdir => State.hostReadError_of_window hc hinside hrun hdir n, fun n hdir hqueued => ?_⟩⟩
  · obtain ⟨t, hexec, hended⟩ := State.dmaSlotEnd_ends hc hinside hrun hstarted
    refine ⟨t, hexec, hended.running, hended.queued, hended.go, hended.lastTag, fun hclean => hended.done (by simp [hclean]) (by simp [hclean]),
      fun hpoisoned => hended.failed (by simp [hpoisoned]), hended.host, hended.bytes hwf⟩
  · obtain ⟨t, bs, hexec, hended⟩ := State.hostReadError_ends hc hinside hrun hstarted hdir n
    obtain ⟨hstate, hresult⟩ := hended.go hqueued
    exact ⟨t, hexec, hstate, hresult, hended.running.trans hqueued⟩

end Sys2Proof.Machine
end

section
/-! SUPPORT. Flits, acknowledgement and replay (R379 to R383). -/

namespace Sys2Proof.Machine

/-! ## A run that queues no message (R380) -/

/-- What is sent is queued on no link: it is not for the fabric, or is a NAK, a flit of its own kind. -/
def unqueued (os : List Output) : Prop := ∀ dst link m, Output.fabric dst link m ∈ os → ∃ n, m = .nak n

theorem Work.transmit_of_unqueued (s : Work) {os : List Output} (h : unqueued os) : s.transmit os = s := by
  induction os generalizing s with
  | nil => rfl
  | cons o os ih =>
    have hrest := ih s fun dst link m hm => h dst link m (List.mem_cons_of_mem _ hm)
    cases o with
    | fabric dst link m =>
      obtain ⟨n, rfl⟩ := h dst link m List.mem_cons_self
      exact hrest
    | _ => exact hrest

section
variable {s : State} {f : Work → Work} (h : unqueued (f s.work).sent)
include h

theorem State.run_dev_unqueued : (s.run f).dev = (f s.work).toDev := by rw [State.run_dev, Work.transmit_of_unqueued _ h]

theorem State.run_val_unqueued (k : Key) : (s.run f).val k = (f s.work).get k := by
  simp only [State.val, Work.get, State.work_toDev, State.run_dev_unqueued h]

theorem State.run_link_unqueued (l : Nat) : (s.run f).work.link l = (f s.work).link l := by
  simp only [Work.link, State.work_toDev, State.run_dev_unqueued h]

theorem State.keeps.frame_unqueued {parts : List StatePart} {keys : Key → Prop} (hkeeps : s.keeps (f s.work) parts keys) :
    s.frame (s.run f) parts keys := by
  refine ⟨rfl, rfl, s.run_out_prefix f, fun p hp => ?_, fun k hk => (State.run_val_unqueued h k).trans (hkeeps.2 k hk)⟩
  cases p with
  | links => exact (congrArg Dev.links (State.run_dev_unqueued h)).trans (hkeeps.1 _ hp)
  | _ => exact (s.same_run_iff_worked f (by decide)).mpr (hkeeps.1 _ hp)
end

theorem unqueued_of_nil {w : Work} (h : w.sent = []) : unqueued w.sent := by
  rw [h]
  nofun

/-! ## The transmitter of a link (R381, R383) -/

/-- What the transmitter does to a link: flits leave what waits and join what is not acknowledged. -/
theorem Link.pump_spec (n : Nat) (k : Link) : ∃ ws cs us seq a b, (k.pump n).1 =
    { k with waiting := ws, credits := cs, unacked := k.unacked ++ us, nextSeq := seq, sinceMgmt := a, sinceBulk := b } := by
  have hrefl (k : Link) : ∃ ws cs us seq a b, k =
      { k with waiting := ws, credits := cs, unacked := k.unacked ++ us, nextSeq := seq, sinceMgmt := a, sinceBulk := b } :=
    ⟨_, _, [], _, _, _, by rw [List.append_nil]⟩
  induction n generalizing k with
  | zero => exact hrefl k
  | succ n ih =>
    unfold Link.pump
    split
    · exact hrefl k
    · split
      · exact hrefl k
      · next vl _ =>
        obtain ⟨ws, cs, us, seq, a, b, h⟩ := ih { k with
          waiting := k.waiting.erase vl, credits := k.credits.modify vl (· - 1)
          unacked := k.unacked ++ [(k.nextSeq, 0)], nextSeq := (k.nextSeq + 1) % 1024
          sinceMgmt := if vl = 3 then 0 else min 15 (k.sinceMgmt + 1)
          sinceBulk := if vl = 2 then 0 else min 15 (k.sinceBulk + 1) }
        exact ⟨ws, cs, (k.nextSeq, 0) :: us, seq, a, b, h.trans (by simp)⟩

theorem Work.pumpLink_link (s : Work) (l : Nat) : (s.pumpLink l).link l = ((s.link l).pump (s.link l).waiting.length).1 := by
  unfold Work.pumpLink Work.link
  split
  · next hnone => rw [List.getD_eq_getElem?_getD, hnone]; rfl
  · next k hk =>
    obtain ⟨hlt, -⟩ := List.getElem?_eq_some_iff.mp hk
    have hset : (s.links.set l (k.pump k.waiting.length).1).getD l .reset = (k.pump k.waiting.length).1 := by
      rw [List.getD_eq_getElem?_getD, List.getElem?_set_self hlt]; rfl
    have hlink : s.links.getD l .reset = k := by rw [List.getD_eq_getElem?_getD, hk]; rfl
    rw [hlink]
    dsimp only
    split <;> exact hset

/-- The transmitter keeps the state of its link, what the link expects and whether it has sent NAK. -/
theorem Work.pumpLink_receiver (s : Work) (l : Nat) : ((s.pumpLink l).link l).state = (s.link l).state ∧
    ((s.pumpLink l).link l).expect = (s.link l).expect ∧ ((s.pumpLink l).link l).nakSent = (s.link l).nakSent ∧
      (s.link l).unacked <+: ((s.pumpLink l).link l).unacked := by
  obtain ⟨ws, cs, us, seq, a, b, h⟩ := Link.pump_spec (s.link l).waiting.length (s.link l)
  rw [Work.pumpLink_link, h]
  exact ⟨rfl, rfl, rfl, us, rfl⟩

theorem Work.pumpLink_credits {s : Work} {l : Nat} (h : (s.link l).waiting = []) : ((s.pumpLink l).link l).credits = (s.link l).credits := by
  rw [Work.pumpLink_link, h]
  rfl

/-- The transmitter counts what it has sent, and changes the links besides. -/
theorem Work.pumpLink_rest (s : Work) (l : Nat) : ∃ ls os, s.pumpLink l = { s with links := ls, objs := os } ∧
    ∀ k, k ≠ Obj.linkTxBytes l → (s.pumpLink l).get k = s.get k := by
  unfold Work.pumpLink
  split
  · exact ⟨_, _, rfl, fun _ _ => rfl⟩
  · next k _ =>
    dsimp only
    split
    · exact ⟨_, _, rfl, fun _ _ => rfl⟩
    · refine ⟨_, _, rfl, fun q hq => ?_⟩
      rw [Work.add_get, if_neg hq.symm]
      rfl

@[simp] theorem Work.pumpLink_sent (s : Work) (l : Nat) : (s.pumpLink l).sent = s.sent := by
  obtain ⟨ls, os, h, -⟩ := s.pumpLink_rest l
  rw [h]

theorem State.keeps.pumpLink {s : State} {w : Work} {parts : List StatePart} {keys : Key → Prop} (h : s.keeps w parts keys)
    (hlinks : StatePart.links ∈ parts) {l : Nat} (hk : keys (Obj.linkTxBytes l)) : s.keeps (w.pumpLink l) parts keys := by
  obtain ⟨ls, os, hpump, hget⟩ := w.pumpLink_rest l
  refine ⟨fun p hp => ?_, fun k hkey => (hget k (by rintro rfl; exact hkey hk)).trans (h.2 k hkey)⟩
  rw [hpump]
  cases p with
  | links => exact absurd hlinks hp
  | _ => exact h.1 _ hp

/-! ## Acknowledgement (R381) -/

theorem Link.acked_receiver (k : Link) (ack : Nat) : (k.acked ack).state = k.state ∧ (k.acked ack).expect = k.expect ∧
    (k.acked ack).nakSent = k.nakSent ∧ (k.acked ack).waiting = k.waiting ∧ (k.acked ack).credits = k.credits := by
  unfold Link.acked
  split <;> exact ⟨rfl, rfl, rfl, rfl, rfl⟩

/-- An acknowledgement starts the count of resends of what is left anew, or leaves it. -/
theorem Link.acked_resends {k : Link} {ack n : Nat} (hpos : 0 < n) (h : ∀ p ∈ k.unacked, p.2 < n) : ∀ p ∈ (k.acked ack).unacked, p.2 < n := by
  unfold Link.acked
  split
  · intro p hp
    obtain ⟨q, -, rfl⟩ := List.mem_map.mp hp
    exact hpos
  · exact h

/-! ## What a flit returns -/

/-- The link with what a flit acknowledges and the credits it returns. -/
def Link.returned (k : Link) (f : Flit) : Link := { k.acked f.ack with credits := (k.acked f.ack).credits.modify (f.crVl % 4) (· + f.crCnt % 8) }

theorem Work.flitReturns_eq (s : Work) (l : Nat) (f : Flit) : s.flitReturns l f = (s.setLink l ((s.link l).returned f)).pumpLink l := rfl

theorem Work.flitReturns_receiver (s : Work) (l : Nat) (f : Flit) : ((s.flitReturns l f).link l).expect = (s.link l).expect ∧
    ((s.flitReturns l f).link l).nakSent = (s.link l).nakSent := by
  obtain ⟨-, hexpect, hnak, -, -⟩ := (s.link l).acked_receiver f.ack
  obtain ⟨-, hpe, hpn, -⟩ := (s.setLink l ((s.link l).returned f)).pumpLink_receiver l
  rw [Work.setLink_link, if_pos rfl] at hpe hpn
  exact ⟨hpe.trans hexpect, hpn.trans hnak⟩

theorem Work.flitReturns_credits {s : Work} {l : Nat} (f : Flit) (h : (s.link l).waiting = []) :
    ((s.flitReturns l f).link l).credits = (s.link l).credits.modify (f.crVl % 4) (· + f.crCnt % 8) := by
  obtain ⟨-, -, -, hwaiting, hcredits⟩ := (s.link l).acked_receiver f.ack
  have hlink : (s.setLink l ((s.link l).returned f)).link l = (s.link l).returned f := by rw [Work.setLink_link, if_pos rfl]
  rw [Work.flitReturns_eq, Work.pumpLink_credits (by rw [hlink]; exact hwaiting.trans h), hlink]
  exact congrArg (fun c : List Nat => c.modify (f.crVl % 4) (· + f.crCnt % 8)) hcredits

@[simp] theorem Work.flitReturns_sent (s : Work) (l : Nat) (f : Flit) : (s.flitReturns l f).sent = s.sent := Work.pumpLink_sent _ l

theorem Work.flitReturns_get (s : Work) (l : Nat) (f : Flit) {k : Key} (hk : k ≠ Obj.linkTxBytes l) : (s.flitReturns l f).get k = s.get k := by
  obtain ⟨ls, os, -, hget⟩ := (s.setLink l ((s.link l).returned f)).pumpLink_rest l
  exact hget k hk

section
variable {s : State} {w : Work} {parts : List StatePart} {keys : Key → Prop} (h : s.keeps w parts keys) (hlinks : StatePart.links ∈ parts)
  {l : Nat}
include h hlinks

theorem State.keeps.flitReturns (hk : keys (Obj.linkTxBytes l)) (f : Flit) : s.keeps (w.flitReturns l f) parts keys :=
  (h.setLink hlinks l _).pumpLink hlinks hk

theorem State.keeps.nakOnce : s.keeps (w.nakOnce l) parts keys := by
  unfold Work.nakOnce
  dsimp only
  split
  · exact h
  · exact (h.setLink hlinks l _).send _
end

/-! ## A run of discarded flits (R380) -/

theorem Work.nakOnce_link (s : Work) (l : Nat) : (s.nakOnce l).link l = { s.link l with nakSent := true } := by
  unfold Work.nakOnce
  dsimp only
  split
  · next hsent => rw [← hsent]
  · exact (s.setLink_link l _ l).trans (if_pos rfl)

theorem Work.nakOnce_get (s : Work) (l : Nat) (k : Key) : (s.nakOnce l).get k = s.get k := by
  unfold Work.nakOnce
  dsimp only
  split <;> rfl

theorem Work.nakOnce_sent_of_first {s : Work} {l : Nat} (h : (s.link l).nakSent = false) :
    (s.nakOnce l).sent = s.sent ++ [.fabric none (some l) (.nak (((s.link l).expect + 1023) % 1024))] := by
  unfold Work.nakOnce
  dsimp only
  rw [if_neg (by rw [h]; exact Bool.false_ne_true)]
  rfl

theorem Work.nakOnce_unqueued {s : Work} (l : Nat) (h : s.sent = []) : unqueued (s.nakOnce l).sent := by
  cases hfirst : (s.link l).nakSent with
  | true =>
    have hsame : s.nakOnce l = s := if_pos hfirst
    rw [hsame, h]
    nofun
  | false =>
    rw [Work.nakOnce_sent_of_first hfirst, h]
    intro dst link m hm
    injection List.mem_singleton.mp hm with _ _ hmsg
    exact ⟨_, hmsg⟩

/-! ## The flits by their cases -/

section
variable {s : Work} {l : Nat}

theorem Work.dataFlit_of_silent (f : Flit) (h : (s.link l).carries = false) : s.dataFlit l f = s := if_pos (by rw [h]; rfl)
theorem Work.nullFlit_of_silent (f : Flit) (h : (s.link l).carries = false) : s.nullFlit l f = s := if_pos (by rw [h]; rfl)
theorem Work.nakIn_of_silent (ack : Nat) (h : (s.link l).carries = false) : s.nakIn l ack = s := if_pos (by rw [h]; rfl)

/-- The link once the flit it expects has been taken. -/
def Link.tookFlit (k : Link) : Link := { k with expect := (k.expect + 1) % 1024, nakSent := false }

variable (hcarries : (s.link l).carries = true)
include hcarries

theorem Work.dataFlit_of_broken {f : Flit} (hcrc : f.crcOk = false) : s.dataFlit l f = (s.add (Obj.linkCrcErrors l) 1).nakOnce l :=
  (if_neg (by rw [hcarries]; exact Bool.false_ne_true)).trans (if_pos (by rw [hcrc]; rfl))

theorem Work.dataFlit_of_intact {f : Flit} (hcrc : f.crcOk = true) : s.dataFlit l f =
    if f.seq % 1024 ≠ (s.link l).expect then (s.flitReturns l f).nakOnce l
    else ((s.flitReturns l f).setLink l ((s.flitReturns l f).link l).tookFlit).add (Obj.linkRxBytes l) 64 := by
  refine (if_neg (by rw [hcarries]; exact Bool.false_ne_true)).trans ((if_neg (by rw [hcrc]; exact Bool.false_ne_true)).trans ?_)
  rw [← (s.flitReturns_receiver l f).1]
  rfl

theorem Work.nullFlit_of_broken {f : Flit} (hcrc : f.crcOk = false) : s.nullFlit l f = s.add (Obj.linkCrcErrors l) 1 :=
  (if_neg (by rw [hcarries]; exact Bool.false_ne_true)).trans (if_pos (by rw [hcrc]; rfl))

theorem Work.nullFlit_of_intact {f : Flit} (hcrc : f.crcOk = true) : s.nullFlit l f = s.flitReturns l f :=
  (if_neg (by rw [hcarries]; exact Bool.false_ne_true)).trans (if_neg (by rw [hcrc]; exact Bool.false_ne_true))

end

/-- The link with everything that is not acknowledged on its way again. -/
def Link.resent (k : Link) (ack : Nat) : Link :=
  let k := k.acked ack
  { k with unacked := k.unacked.map (fun p => (p.1, p.2 + 1)), replaysSec := k.replaysSec + 1
           replaying := !(k.unacked.map (fun p => (p.1, p.2 + 1))).isEmpty }

/-- Below the eighth resend of any flit the link stays up, and its transmitter goes on. -/
theorem Work.nakIn_of_few {s : Work} {l : Nat} (ack : Nat) (hcarries : (s.link l).carries = true) (hfew : ∀ p ∈ (s.link l).unacked, p.2 < 7) :
    s.nakIn l ack = ((s.setLink l ((s.link l).resent ack)).add (Obj.linkReplays l) 1).pumpLink l := by
  refine (if_neg (by rw [hcarries]; exact Bool.false_ne_true)).trans (if_neg fun h => ?_)
  obtain ⟨p, hp, heighth⟩ := List.any_eq_true.mp h
  obtain ⟨q, hq, rfl⟩ := List.mem_map.mp hp
  have hresends := Link.acked_resends (by decide) hfew q hq
  have : 8 ≤ q.2 + 1 := of_decide_eq_true heighth
  omega

/-! ## Flits at a link's island -/

section
variable {s : State} {l : Nat}

theorem State.unchanged_of_deaf {g : Work → Work} (hdeaf : (s.work.link l).carries = false ∨ s.work.islandOpen (0x98 + l) = false)
    (hg : (s.work.link l).carries = false → g s.work = s.work) {c : Instr}
    (hexec : exec c s = s.nextIf (l < 16) (fun w => w.inside (0x98 + l) g)) (hl : l < 16) :
    ∃ t, exec c s = .next t ∧ s.frame t [] (fun _ => False) := by
  have hnext : exec c s = s.next (fun w => w.inside (0x98 + l) g) := hexec.trans (State.nextIf_true (decide_eq_true hl))
  refine State.next_unchanged hnext ?_
  cases hopen : s.work.islandOpen (0x98 + l) with
  | false => exact if_neg (by rw [hopen]; exact Bool.false_ne_true)
  | true => exact (if_pos hopen).trans (hg (hdeaf.resolve_right (by rw [hopen]; exact Bool.noConfusion)))

/-- What a flit does at a link that hears it. -/
theorem State.exec_flit {g : Work → Work} {c : Instr} (hexec : exec c s = s.nextIf (l < 16) (fun w => w.inside (0x98 + l) g)) (hl : l < 16)
    (hopen : s.work.islandOpen (0x98 + l) = true) : exec c s = .next (s.run g) := by
  rw [hexec, State.nextIf_true (decide_eq_true hl)]
  exact congrArg _ (State.run_congr (if_pos hopen))

end

section
variable {s : State} {l : Nat} {f : Flit}

theorem State.dataFlit_taken (hcarries : (s.work.link l).carries = true) (hcrc : f.crcOk = true) (hseq : f.seq % 1024 = (s.work.link l).expect) :
    ((s.run (·.dataFlit l f)).work.link l).expect = ((s.work.link l).expect + 1) % 1024 ∧
      ((s.run (·.dataFlit l f)).work.link l).nakSent = false ∧ s.counted (s.run (·.dataFlit l f)) (Obj.linkRxBytes l) 64 ∧
      s.frame (s.run (·.dataFlit l f)) [.links] (fun k => k = Obj.linkRxBytes l ∨ k = Obj.linkTxBytes l) := by
  have hwork : s.work.dataFlit l f = ((s.work.flitReturns l f).setLink l ((s.work.flitReturns l f).link l).tookFlit).add (Obj.linkRxBytes l) 64 :=
    (Work.dataFlit_of_intact hcarries hcrc).trans (if_neg (not_not.mpr hseq))
  have hunqueued : unqueued (s.work.dataFlit l f).sent := unqueued_of_nil ((congrArg Work.sent hwork).trans (s.work.flitReturns_sent l f))
  have hlink : (s.run (·.dataFlit l f)).work.link l = ((s.work.flitReturns l f).link l).tookFlit := by
    rw [State.run_link_unqueued hunqueued, hwork]
    exact ((s.work.flitReturns l f).setLink_link l _ l).trans (if_pos rfl)
  have hkeeps : s.keeps (s.work.dataFlit l f) [.links] (fun k => k = Obj.linkRxBytes l ∨ k = Obj.linkTxBytes l) := by
    rw [hwork]
    exact (((s.keeps_work _ _).flitReturns (List.mem_singleton.mpr rfl) (.inr rfl) f).setLink (List.mem_singleton.mpr rfl) l _).add (.inl rfl) 64
  refine ⟨?_, ?_, fun hlt => ?_, hkeeps.frame_unqueued hunqueued⟩
  · rw [hlink]
    exact congrArg (fun e => (e + 1) % 1024) (s.work.flitReturns_receiver l f).1
  · rw [hlink]
    rfl
  · rw [State.run_val_unqueued hunqueued, hwork]
    have hget : (s.work.flitReturns l f).get (Obj.linkRxBytes l) = s.val (Obj.linkRxBytes l) := Work.flitReturns_get _ l f (by simp)
    rw [Work.add_get, if_pos rfl]
    refine Eq.trans ?_ (countPast_of_lt hlt)
    exact congrArg (fun v => countPast _ (v + 64)) hget

theorem State.dataFlit_broken (hcarries : (s.work.link l).carries = true) (hcrc : f.crcOk = false) :
    s.counted (s.run (·.dataFlit l f)) (Obj.linkCrcErrors l) 1 ∧ ((s.run (·.dataFlit l f)).work.link l).expect = (s.work.link l).expect ∧
      ((s.run (·.dataFlit l f)).work.link l).nakSent = true ∧
      ((s.work.link l).nakSent = false → Output.fabric none (some l) (.nak (((s.work.link l).expect + 1023) % 1024)) ∈
        (s.run (·.dataFlit l f)).out.drop s.out.length) ∧
      s.frame (s.run (·.dataFlit l f)) [.links] (fun k => k = Obj.linkCrcErrors l) := by
  have hwork : s.work.dataFlit l f = (s.work.add (Obj.linkCrcErrors l) 1).nakOnce l := Work.dataFlit_of_broken hcarries hcrc
  have hunqueued : unqueued (s.work.dataFlit l f).sent := hwork ▸ Work.nakOnce_unqueued l rfl
  have hlink : (s.run (·.dataFlit l f)).work.link l = { s.work.link l with nakSent := true } := by
    rw [State.run_link_unqueued hunqueued, hwork]
    exact Work.nakOnce_link _ l
  have hkeeps : s.keeps (s.work.dataFlit l f) [.links] (fun k => k = Obj.linkCrcErrors l) := by
    rw [hwork]
    exact ((s.keeps_work _ _).add (by rfl) 1).nakOnce (List.mem_singleton.mpr rfl)
  refine ⟨fun hlt => ?_, by rw [hlink], by rw [hlink], fun hfirst => ?_, hkeeps.frame_unqueued hunqueued⟩
  · rw [State.run_val_unqueued hunqueued, hwork, Work.nakOnce_get]
    exact s.work.counted_add (Obj.linkCrcErrors l) 1 hlt
  · refine State.mem_drop_run_out ?_
    have hsent := Work.nakOnce_sent_of_first (s := s.work.add (Obj.linkCrcErrors l) 1) hfirst
    rw [hwork, hsent]
    exact List.mem_append_right _ (List.mem_singleton.mpr rfl)

theorem State.dataFlit_unexpected (hcarries : (s.work.link l).carries = true) (hcrc : f.crcOk = true) (hseq : f.seq % 1024 ≠ (s.work.link l).expect) :
    ((s.run (·.dataFlit l f)).work.link l).expect = (s.work.link l).expect ∧ ((s.run (·.dataFlit l f)).work.link l).nakSent = true ∧
      s.frame (s.run (·.dataFlit l f)) [.links] (fun k => k = Obj.linkTxBytes l) := by
  have hwork : s.work.dataFlit l f = (s.work.flitReturns l f).nakOnce l := (Work.dataFlit_of_intact hcarries hcrc).trans (if_pos hseq)
  have hunqueued : unqueued (s.work.dataFlit l f).sent := hwork ▸ Work.nakOnce_unqueued l (s.work.flitReturns_sent l f)
  have hlink : (s.run (·.dataFlit l f)).work.link l = { (s.work.flitReturns l f).link l with nakSent := true } := by
    rw [State.run_link_unqueued hunqueued, hwork]
    exact Work.nakOnce_link _ l
  have hkeeps : s.keeps (s.work.dataFlit l f) [.links] (fun k => k = Obj.linkTxBytes l) := by
    rw [hwork]
    exact ((s.keeps_work _ _).flitReturns (List.mem_singleton.mpr rfl) (by rfl) f).nakOnce (List.mem_singleton.mpr rfl)
  refine ⟨?_, by rw [hlink], hkeeps.frame_unqueued hunqueued⟩
  rw [hlink]
  exact (s.work.flitReturns_receiver l f).1

theorem State.nullFlit_broken (hcarries : (s.work.link l).carries = true) (hcrc : f.crcOk = false) :
    s.counted (s.run (·.nullFlit l f)) (Obj.linkCrcErrors l) 1 ∧ s.frame (s.run (·.nullFlit l f)) [] (fun k => k = Obj.linkCrcErrors l) := by
  have hwork : s.work.nullFlit l f = s.work.add (Obj.linkCrcErrors l) 1 := Work.nullFlit_of_broken hcarries hcrc
  have hunqueued : unqueued (s.work.nullFlit l f).sent := unqueued_of_nil (congrArg Work.sent hwork)
  have hkeeps : s.keeps (s.work.nullFlit l f) [] (fun k => k = Obj.linkCrcErrors l) := by
    rw [hwork]
    exact (s.keeps_work _ _).add (by rfl) 1
  refine ⟨fun hlt => ?_, hkeeps.frame_unqueued hunqueued⟩
  rw [State.run_val_unqueued hunqueued, hwork]
  exact s.work.counted_add (Obj.linkCrcErrors l) 1 hlt

theorem State.nullFlit_intact (hcarries : (s.work.link l).carries = true) (hcrc : f.crcOk = true) :
    ((s.run (·.nullFlit l f)).work.link l).expect = (s.work.link l).expect ∧
      ((s.work.link l).waiting = [] →
        ((s.run (·.nullFlit l f)).work.link l).credits = (s.work.link l).credits.modify (f.crVl % 4) (· + f.crCnt % 8)) ∧
      s.frame (s.run (·.nullFlit l f)) [.links] (fun k => k = Obj.linkTxBytes l) := by
  have hwork : s.work.nullFlit l f = s.work.flitReturns l f := Work.nullFlit_of_intact hcarries hcrc
  have hunqueued : unqueued (s.work.nullFlit l f).sent := unqueued_of_nil ((congrArg Work.sent hwork).trans (s.work.flitReturns_sent l f))
  have hlink : (s.run (·.nullFlit l f)).work.link l = (s.work.flitReturns l f).link l := by
    rw [State.run_link_unqueued hunqueued, hwork]
  have hkeeps : s.keeps (s.work.nullFlit l f) [.links] (fun k => k = Obj.linkTxBytes l) := by
    rw [hwork]
    exact (s.keeps_work _ _).flitReturns (List.mem_singleton.mpr rfl) (by rfl) f
  rw [hlink]
  exact ⟨(s.work.flitReturns_receiver l f).1, Work.flitReturns_credits f, hkeeps.frame_unqueued hunqueued⟩

theorem State.nakIn_replays {ack : Nat} (hcarries : (s.work.link l).carries = true) (hfew : ∀ p ∈ (s.work.link l).unacked, p.2 < 7) :
    s.counted (s.run (·.nakIn l ack)) (Obj.linkReplays l) 1 ∧ ((s.run (·.nakIn l ack)).work.link l).state = (s.work.link l).state ∧
      ((s.work.link l).acked ack).unacked.map (fun p => (p.1, p.2 + 1)) <+: ((s.run (·.nakIn l ack)).work.link l).unacked ∧
      s.frame (s.run (·.nakIn l ack)) [.links] (fun k => k = Obj.linkReplays l ∨ k = Obj.linkTxBytes l) := by
  have hwork := Work.nakIn_of_few ack hcarries hfew
  have hunqueued : unqueued (s.work.nakIn l ack).sent := unqueued_of_nil (by rw [hwork, Work.pumpLink_sent]; rfl)
  have hresent : ((s.work.setLink l ((s.work.link l).resent ack)).add (Obj.linkReplays l) 1).link l = (s.work.link l).resent ack :=
    (s.work.setLink_link l _ l).trans (if_pos rfl)
  obtain ⟨hstate, -, -, hprefix⟩ := ((s.work.setLink l ((s.work.link l).resent ack)).add (Obj.linkReplays l) 1).pumpLink_receiver l
  rw [hresent] at hstate hprefix
  have hkeeps : s.keeps (s.work.nakIn l ack) [.links] (fun k => k = Obj.linkReplays l ∨ k = Obj.linkTxBytes l) := by
    rw [hwork]
    exact (((s.keeps_work _ _).setLink (List.mem_singleton.mpr rfl) l _).add (.inl rfl) 1).pumpLink (List.mem_singleton.mpr rfl) (.inr rfl)
  refine ⟨fun hlt => ?_, ?_, ?_, hkeeps.frame_unqueued hunqueued⟩
  · obtain ⟨_, _, -, hget⟩ := ((s.work.setLink l ((s.work.link l).resent ack)).add (Obj.linkReplays l) 1).pumpLink_rest l
    rw [State.run_val_unqueued hunqueued, hwork, hget _ (by simp)]
    exact (s.work.setLink l ((s.work.link l).resent ack)).counted_add (Obj.linkReplays l) 1 hlt
  · rw [State.run_link_unqueued hunqueued, hwork, hstate]
    exact ((s.work.link l).acked_receiver ack).1
  · rw [State.run_link_unqueued hunqueued, hwork]
    exact hprefix

end

/-- Settles O48: a link whose island hears nothing, or that carries nothing, stays as it is; else each flit by its CRC and its place. -/
theorem flitsAreTakenOrAskedForAgain : Obligations.FlitsAreTakenOrAskedForAgain := by
  unfold Obligations.FlitsAreTakenOrAskedForAgain
  intro s l f hl
  refine ⟨fun hdeaf => ⟨?_, ?_, ?_⟩, fun hcarries hopen => ⟨fun hcrc hseq => ?_, fun hcrc => ?_, fun hcrc hseq => ?_, fun hcrc => ?_, fun hcrc => ?_, fun hfew => ?_⟩⟩
  · exact State.unchanged_of_deaf hdeaf (Work.dataFlit_of_silent f) rfl hl
  · exact State.unchanged_of_deaf hdeaf (Work.nullFlit_of_silent f) rfl hl
  · exact State.unchanged_of_deaf hdeaf (Work.nakIn_of_silent f.ack) rfl hl
  · exact ⟨_, State.exec_flit rfl hl hopen, State.dataFlit_taken hcarries hcrc hseq⟩
  · exact ⟨_, State.exec_flit rfl hl hopen, State.dataFlit_broken hcarries hcrc⟩
  · exact ⟨_, State.exec_flit rfl hl hopen, State.dataFlit_unexpected hcarries hcrc hseq⟩
  · exact ⟨_, State.exec_flit rfl hl hopen, State.nullFlit_broken hcarries hcrc⟩
  · exact ⟨_, State.exec_flit rfl hl hopen, State.nullFlit_intact hcarries hcrc⟩
  · exact ⟨_, State.exec_flit rfl hl hopen, State.nakIn_replays hcarries hfew⟩

end Sys2Proof.Machine
end

section
/-! SUPPORT. A tuning job whose key is no TUNE_START (R371, R374): its end is told to whatever object the key names. -/

namespace Sys2Proof.Machine

/-- An object's value after a command, where the command completes. -/
def valueAfter (k : Key) : Host.Outcome State Fault Refusal → Option Nat
  | .next t => some (t.val k)
  | _ => none

theorem val_of_valueAfter {k : Key} {n : Nat} {o : Host.Outcome State Fault Refusal} {t : State} (h : valueAfter k o = some n) (ho : o = .next t) :
    t.val k = n := by
  subst ho
  exact Option.some.inj h

/-- What counts no further than the value it has is not counted. -/
theorem not_counted_of_val {s t : State} {k : Key} {n v : Nat} (hroom : s.val k + n < 2 ^ bitsOf k) (hval : t.val k = v) (hne : v ≠ s.val k + n) :
    ¬ s.counted t k n := fun h => hne (hval.symm.trans (h hroom))

/-- A tuning job of tenant 0 on slot 0 that runs, and whose CMD is said to be `key`. -/
def strayJob (key : Key) : TuneJob :=
  { index := 0, key := key, tenant := 0, owner := 0, slot := 0, variant := 0, numericFail := false, seed := 0, dataOffset := 0, dataLength := 0
    lr := 0, decay := 0, windowSteps := 0, publishEvery := 0, epochs := 0, state := 1, cause := 0, epoch := 0, record := 0, steps := 0
    updates := 0, published := 0, loss := 0, numeric := 0, base := 0, work := 0, values := 0, charge := 0, positions := 0, lossSum := 0
    lastOfEpoch := false }

/-- The device at reset, but that it is READY with both ports up, has that job, and the objects and rings given. -/
def strayDevice (key : Key) (vfs : Nat) (objs : List (Key × Nat)) (rings : List (Nat × Ring)) : Dev :=
  { Dev.reset with
    objs := objs
    islands := []
    boot := { BootState.reset with stage := 4 }
    host := { HostState.reset with ports := [⟨6, 8, true, true, false, vfs⟩, ⟨6, 8, true, true, false, 0⟩], rings := rings }
    vars := { VarState.reset with jobs := [strayJob key] } }

/-- The objects of the manager of a formed group that is not to form again by itself. -/
def formedManager : List (Key × Nat) := [(Obj.role, 1), (Obj.groupState, 2), (Obj.autoReform, 0)]

/-! ## The end of the group (R307, R403) -/

/-- The manager awaits its heartbeat's answers. -/
def strayBeating : State :=
  { State.reset with dev := { strayDevice Obj.groupFaults 0 formedManager [] with group := { GroupRec.reset with heartbeatOut := true } } }

theorem strayBeating_groupFaults :
    valueAfter Obj.groupFaults (exec .stepResultTimeout strayBeating) = some (progressWord 4 0 0 0x24) := by decide +kernel

/-- Refutes O49: the group fault of a result that does not come is counted, and then ends the manager's jobs; a job whose key is GROUP_FAULTS leaves
its end there, over the count. (TUNE_START gives a job its own object for key: a premise on the keys of the jobs would exclude the case.) -/
theorem not_groupsBeatAndFail : ¬ Obligations.GroupsBeatAndFail := by
  unfold Obligations.GroupsBeatAndFail
  rintro ⟨-, htimeout, -⟩
  obtain ⟨t, hexec, hcounted, -⟩ := htimeout strayBeating rfl rfl (.inl rfl)
  exact not_counted_of_val (by decide +kernel) (val_of_valueAfter strayBeating_groupFaults hexec) (by decide +kernel) hcounted

/-- A host's WRITE of one byte to a CMD object of the device it is aimed at. -/
def hostWrite (payload : List Byte) : Req := ⟨⟨.portA, 0⟩, 0, 254, 0, 0, 0, 0, 0, 0, 0, payload⟩

/-- The manager of a formed group with a job whose key is GROUP_FAULTS. -/
def strayFormed : State := { State.reset with dev := strayDevice Obj.groupFaults 0 formedManager [] }

theorem strayFormed_dissolve_groupFaults :
    valueAfter Obj.groupFaults (exec (.groupDissolve (hostWrite [0])) strayFormed) = some (progressWord 4 0 0 0x24) := by decide +kernel

/-- Refutes O50: GROUP_DISSOLVE of a formed group counts its group fault and then ends the manager's jobs, of which one has GROUP_FAULTS for
key. (TUNE_START gives a job its own object for key.) -/
theorem not_groupsFormAndDissolve : ¬ Obligations.GroupsFormAndDissolve := by
  unfold Obligations.GroupsFormAndDissolve
  rintro ⟨-, -, -, hdissolve, -⟩
  obtain ⟨hformed, -⟩ := hdissolve strayFormed (hostWrite [0]) 0 (State.startsAt_of (by decide +kernel))
  obtain ⟨t, hexec, -, -, hcounted, -⟩ := hformed rfl rfl
  exact not_counted_of_val (by decide +kernel) (val_of_valueAfter strayFormed_dissolve_groupFaults hexec) (by decide +kernel) hcounted

/-! ## Device-fatal faults at a manager (R498, R499) -/

/-- Core 0's test runs for the second time. -/
def strayTesting : State :=
  { State.reset with dev := { strayDevice Obj.testsRun 0 formedManager [] with
      rel := { RelState.reset with tests := [(0, { CoreTest.reset with running := true, second := true })] } } }

theorem strayTesting_testsRun :
    valueAfter Obj.testsRun (exec (.testComplete 0 [1] 0 0) strayTesting) = some (progressWord 4 0 0 0x24) := by decide +kernel

/-- Refutes O54: a test that fails twice is counted, is device-fatal, and so ends the manager's jobs, of which one has TESTS_RUN for key.
(TUNE_START gives a job its own object for key.) -/
theorem not_passesAndTestsRun : ¬ Obligations.PassesAndTestsRun := by
  unfold Obligations.PassesAndTestsRun
  rintro ⟨-, -, -, -, htests⟩
  obtain ⟨-, hcomplete, -⟩ := htests strayTesting 0 (by decide +kernel)
  obtain ⟨t, hexec, hcounted, -⟩ := hcomplete [1] 0 0 [1] (by decide +kernel) rfl
  exact not_counted_of_val (by decide +kernel) (val_of_valueAfter strayTesting_testsRun hexec) (by decide +kernel) hcounted

/-- Core 0 has just recovered. -/
def strayRecovered : State :=
  { State.reset with dev := { strayDevice Obj.coreRecoveries 0 formedManager [] with rel := { RelState.reset with lastRecovery := [(0, 0)] } } }

theorem strayRecovered_coreRecoveries :
    valueAfter Obj.coreRecoveries (exec (.coreRecoveryReset 0 2) strayRecovered) = some (progressWord 4 0 0 0x24) := by decide +kernel

/-- Refutes O55: the second recovery of a core within 60 s is counted, is device-fatal, and so ends the manager's jobs, of which one has
CORE_RECOVERIES for key. (TUNE_START gives a job its own object for key.) -/
theorem not_heldChecksAreJudged : ¬ Obligations.HeldChecksAreJudged := by
  unfold Obligations.HeldChecksAreJudged
  rintro ⟨-, -, hrecovery⟩
  obtain ⟨t, hexec, hcounted, -⟩ := hrecovery strayRecovered 0 2 (by decide +kernel)
  exact not_counted_of_val (by decide +kernel) (val_of_valueAfter strayRecovered_coreRecoveries hexec) (by decide +kernel) hcounted

/-- The manager of a formed group with a job whose key is LAST_DEVICE_FAULT. -/
def strayFaulty : State := { State.reset with dev := strayDevice Obj.lastDeviceFault 0 formedManager [] }

theorem strayFaulty_lastDeviceFault :
    valueAfter Obj.lastDeviceFault (exec .firmwareFault strayFaulty) = some (progressWord 4 2 0 0x24) := by decide +kernel

/-- Refutes O56: the first device-fatal fault stands in LAST_DEVICE_FAULT only until it ends the manager's jobs, of which one has that object for
key. (TUNE_START gives a job its own object for key.) -/
theorem not_powerIsLostAndLatched : ¬ Obligations.PowerIsLostAndLatched := by
  unfold Obligations.PowerIsLostAndLatched
  rintro ⟨-, -, -, hfault⟩
  obtain ⟨t, hexec, hfirst, -⟩ := hfault strayFaulty
  obtain ⟨-, hlast⟩ := hfirst rfl
  exact absurd (hlast.symm.trans (val_of_valueAfter strayFaulty_lastDeviceFault hexec)) (by decide +kernel)

/-! ## The reset of a tenant (R372, R436) -/

/-- A device outside a group with one tenant, which has a job whose key is PORT_RESETS of port 0. -/
def strayTenant : State := { State.reset with dev := strayDevice (Obj.portResets 0) 1 [] [] }

theorem strayTenant_portResets :
    valueAfter (Obj.portResets 0) (exec (.portReset 0 3) strayTenant) = some (progressWord 5 0 0 0x30 + 1) := by decide +kernel

/-- Refutes O52: the reset of a port ends the jobs of its tenants before it is counted, and one of them has PORT_RESETS for key. (TUNE_START gives
a job its own object for key.) -/
theorem not_portsResetAndTrain : ¬ Obligations.PortsResetAndTrain := by
  unfold Obligations.PortsResetAndTrain
  rintro ⟨hreset, -⟩
  obtain ⟨t, hexec, hcounted, -⟩ := hreset strayTenant 0 3 _ (by decide) (by decide) (.inl rfl)
  exact not_counted_of_val (by decide +kernel) (val_of_valueAfter strayTenant_portResets hexec) (by decide +kernel) hcounted

/-- Port B has asserted DEVICE_RESET; the tenant of port A has a job whose key is DEVICE_RESETS. -/
def strayAsserted : State := { State.reset with dev := strayDevice Obj.deviceResets 1 [(Obj.resetAssert, 2)] [] }

theorem strayAsserted_deviceResets :
    valueAfter Obj.deviceResets (exec (.deviceReset (hostWrite [0])) strayAsserted) = some (progressWord 5 0 0 0x30 + 1) := by decide +kernel

/-- Refutes O58: a device reset resets both ports and with them their tenants before it is counted, and a job of one has DEVICE_RESETS for key.
(TUNE_START gives a job its own object for key.) -/
theorem not_bootFollowsItsStages : ¬ Obligations.BootFollowsItsStages := by
  unfold Obligations.BootFollowsItsStages
  rintro ⟨-, -, hasked, -⟩
  obtain ⟨-, hsecond⟩ := hasked strayAsserted (hostWrite [0]) (rowOf Obj.deviceReset) 0 0 (State.grantsAt_of (by decide +kernel)) (by decide +kernel)
    (by decide +kernel) (.inl ⟨rfl, rfl⟩)
  obtain ⟨t, hexec, -, -, hcounted, -⟩ := hsecond rfl nofun
  exact not_counted_of_val (by decide +kernel) (val_of_valueAfter strayAsserted_deviceResets hexec) (by decide +kernel) hcounted

/-! ## A boundary on the way out of L1 (R551, R586) -/

/-- A SUBMIT descriptor with its input in a window and the first stamp. -/
def windowDescriptor : List Byte := toLE 2 1 ++ toLE 1 0x80 ++ List.replicate 117 0 ++ toLE 8 1

/-- A manager in L1: tenant 0 has announced that descriptor, and slot 0, which no request uses, is to be replaced. -/
def strayInL1 : State :=
  { State.reset with dev := { strayDevice Obj.powerState 1
      [(Obj.role, 1), (Obj.powerState, 1), (Obj.ringEnable 0, 1), (Obj.intakeEntries 0, 1), (Obj.cqEntries 0, 4), (Obj.tenantRequestCap 0, 1)]
      [(0, { Ring.reset with aperture := [⟨0, windowDescriptor, false⟩] })] with
    serve := { ServeState.reset with drains := [⟨0, 0, 0, true, false, []⟩] } } }

theorem strayInL1_powerState : valueAfter Obj.powerState (exec .l1Exit strayInL1) = some (progressWord 4 0 0 0x22) := by decide +kernel

/-- Refutes O59: L1_EXIT takes in what waits, and the boundary that follows completes a drain, which ends the slot's jobs, of which one has
POWER_STATE for key. (TUNE_START gives a job its own object for key.) -/
theorem not_powerStatesChange : ¬ Obligations.PowerStatesChange := by
  unfold Obligations.PowerStatesChange
  rintro ⟨-, -, hidle, -⟩
  obtain ⟨-, -, hexit, -⟩ := hidle strayInL1
  obtain ⟨t, hexec, hpower, -⟩ := hexit rfl rfl
  exact absurd (hpower.symm.trans (val_of_valueAfter strayInL1_powerState hexec)) (by decide +kernel)

end Sys2Proof.Machine
end

section
/-! SUPPORT. What the work of requests, jobs and steps leaves alone: the power supply, and how far each tenant's host has read its completion ring
(R283, R290, R307, R421, R427, R586). -/

namespace Sys2Proof.Machine

/-- The second work has the power supply of the first, and its tenants' hosts have read their completion rings as far. -/
structure Work.outsideSame (s t : Work) : Prop where
  power : t.power = s.power
  heads : ∀ n, (t.ring n).cqHead = (s.ring n).cqHead

namespace Work.outsideSame

theorem refl (s : Work) : s.outsideSame s := ⟨rfl, fun _ => rfl⟩

/-- Nothing of it has changed where neither the supply nor the host's part has. -/
theorem of_eq {s t : Work} (hpower : t.power = s.power) (hhost : t.host = s.host) : s.outsideSame t :=
  ⟨hpower, fun n => by rw [Work.ring, Work.ring, hhost]⟩

section
variable {s t : Work} (h : s.outsideSame t)
include h

theorem trans {u : Work} (g : t.outsideSame u) : s.outsideSame u :=
  ⟨g.power.trans h.power, fun n => (g.heads n).trans (h.heads n)⟩

theorem eq {u : Work} (hpower : u.power = t.power) (hhost : u.host = t.host) : s.outsideSame u := h.trans (of_eq hpower hhost)

theorem setRing {n : Nat} {x : Ring} (hx : x.cqHead = (t.ring n).cqHead) : s.outsideSame (t.setRing n x) := by
  refine h.trans ⟨rfl, fun m => ?_⟩
  rw [Work.setRing_ring]
  split
  next hm => rw [hx, hm]
  next => rfl

theorem foldl {α : Type} {f : Work → α → Work} (hf : ∀ (u : Work) a, u.outsideSame (f u a)) (l : List α) : s.outsideSame (l.foldl f t) :=
  List.foldlRecOn l f (motive := fun u : Work => s.outsideSame u) h fun u hu a _ => hu.trans (hf u a)

/-! ## What ends a CMD, and what is sent -/

theorem toMember (d : Nat) (m : FabricMsg) : s.outsideSame (t.toMember d m) := h.eq rfl rfl
theorem modServe (f : ServeState → ServeState) : s.outsideSame (t.modServe f) := h.eq rfl rfl
theorem modVars (f : VarState → VarState) : s.outsideSame (t.modVars f) := h.eq rfl rfl
theorem modBoot (f : BootState → BootState) : s.outsideSame (t.modBoot f) := h.eq rfl rfl
theorem add (k : Key) (n : Nat) : s.outsideSame (t.add k n) := h.eq rfl rfl
theorem set (k : Key) (v : Nat) : s.outsideSame (t.set k v) := h.eq rfl rfl
theorem putEntry (e : Entry) : s.outsideSame (t.putEntry e) := h.eq rfl rfl
theorem pageOp (o : PageOp) : s.outsideSame (t.pageOp o) := h.eq rfl rfl
theorem freeEntry (i : Nat) : s.outsideSame (t.freeEntry i) := h.eq rfl rfl
theorem attendTenant (n i : Nat) : s.outsideSame (t.attendTenant n i) := h.eq rfl rfl

theorem cmdEnd (k : Key) (st res : Nat) : s.outsideSame (t.cmdEnd k st res) := by
  obtain ⟨os, -, hend⟩ := t.cmdEnd_spec k st res
  rw [hend]
  exact h.eq rfl rfl

theorem log (severity code unitKind slot unit tenant detail : Nat) : s.outsideSame (t.log severity code unitKind slot unit tenant detail) := by
  obtain ⟨rel, objs, os, r, hlog, -⟩ := t.log_spec severity code unitKind slot unit tenant detail
  rw [hlog]
  exact h.eq rfl rfl

theorem orderAll (o : OrderKind) : s.outsideSame (t.orderAll o) := by
  unfold Work.orderAll
  split
  · exact h
  · exact h.foldl (fun u d => (refl u).toMember d _) _

/-! ## Completion rings -/

theorem completionIrq (n : Nat) : s.outsideSame (t.completionIrq n) := (h.setRing (x := { t.ring n with sinceIrq := 0, timer := false }) rfl).eq rfl rfl

theorem finalWritten (handle : Nat) : s.outsideSame (t.finalWritten handle) := by
  unfold Work.finalWritten
  split
  · split
    · exact h
    · split
      · exact h.putEntry _
      · exact (h.pageOp _).freeEntry _
  · exact h

theorem writeRecord (n : Nat) (c : CompRec) : s.outsideSame (t.writeRecord n c) := by
  unfold Work.writeRecord
  extract_lets r m size slot sent r' counted written ended
  have hwritten : s.outsideSame written := ((((h.eq (u := sent) rfl rfl).setRing (x := r') rfl).add _ 1).add _ 1).add _ 64
  have hended : s.outsideSame ended := by
    unfold ended
    split
    · exact hwritten.finalWritten _
    · exact hwritten
  split
  · exact hended.completionIrq n
  · exact hended

theorem flushRing (fuel n : Nat) : s.outsideSame (Work.flushRing fuel n t) := by
  induction fuel generalizing t with
  | zero => exact h
  | succ fuel ih =>
    unfold Work.flushRing
    split
    · exact h
    · split
      · exact ih ((h.setRing (by rfl)).writeRecord n _)
      · exact h

theorem settleRing (n : Nat) : s.outsideSame (t.settleRing n) := by
  unfold Work.settleRing
  dsimp only
  split
  · exact h.flushRing _ n
  · exact (h.flushRing _ n).attendTenant n 3

theorem putRecord (n : Nat) (c : CompRec) : s.outsideSame (t.putRecord n c) :=
  (h.setRing (x := { t.ring n with waiting := (t.ring n).waiting ++ [c] }) rfl).settleRing n

theorem putCancelled (n : Nat) (c : CompRec) : s.outsideSame (t.putCancelled n c) := by
  unfold Work.putCancelled
  extract_lets r mine freed before after put flushed
  have hput : s.outsideSame put := h.setRing (by rfl)
  exact hput.settleRing n

/-! ## The end of requests and jobs -/

theorem endRequest (e : Entry) (st cause : Nat) : s.outsideSame (t.endRequest e st cause) := by
  unfold Work.endRequest
  extract_lets e' put r kept paged counted
  have hkept : s.outsideSame kept := (h.putEntry e').setRing (by rfl)
  have hpaged : s.outsideSame paged := by
    unfold paged
    split
    · exact hkept
    · exact hkept.pageOp _
  have hcounted : s.outsideSame counted := by
    unfold counted
    split
    · exact (hpaged.add _ 1).add _ 1
    · exact hpaged.add _ 1
  split
  · exact hcounted.setRing (by rfl)
  · exact hcounted.putRecord _ _

theorem failAll (pick : Entry → Bool) (cause : Nat) : s.outsideSame (t.failAll pick cause) := by
  unfold Work.failAll
  refine h.foldl (fun u e => ?_) _
  split
  · exact (refl u).endRequest _ _ _
  · exact refl u

theorem failRequests (cause : Nat) : s.outsideSame (t.failRequests cause) := by
  unfold Work.failRequests
  exact (h.failAll _ cause).modServe _

theorem jobEnd (j : TuneJob) (st cause : Nat) : s.outsideSame (t.jobEnd j st cause) := by
  unfold Work.jobEnd
  exact ((h.modVars _).orderAll _).cmdEnd _ _ _

/-! ## The end of a group (R307, R402, R403, R407) -/

theorem flood (ok : Nat → Bool) (m : FabricMsg) : s.outsideSame (t.flood ok m) := by
  unfold Work.flood
  refine h.foldl (fun u l => ?_) _
  split
  · split
    · exact of_eq rfl rfl
    · exact refl u
  · exact refl u

theorem respond (op : Nat) (r : Req) (status detail : Nat) (payload : List Byte) : s.outsideSame (t.respond op r status detail payload) := by
  obtain ⟨objs, windows, os, hrespond, -⟩ := t.respondFrom_spec t.ownDevice op r status detail payload
  rw [Work.respond, hrespond]
  exact h.eq rfl rfl

theorem failForwarded : s.outsideSame t.failForwarded := by
  unfold Work.failForwarded
  extract_lets l dict dropped
  have hdropped : s.outsideSame dropped := h.eq rfl rfl
  clear_value dropped
  refine hdropped.foldl (fun u f => ?_) _
  split
  · exact refl u
  · exact (refl u).respond _ _ _ _ _

theorem discardStep : s.outsideSame t.discardStep := h.eq rfl rfl

theorem endGroupPower : s.outsideSame t.endGroupPower := by
  unfold Work.endGroupPower
  extract_lets boot stopped restored
  have hrestored : s.outsideSame restored := (h.eq (u := stopped) rfl rfl).modServe _
  split
  · exact hrestored.cmdEnd _ _ _
  · exact hrestored

theorem leaveGroup : s.outsideSame t.leaveGroup := h.eq rfl rfl

theorem formFail (f : Forming) (res : Nat) : s.outsideSame (t.formFail f res) := by
  unfold Work.formFail
  extract_lets was
  have hwas : s.outsideSame was := h.eq rfl rfl
  split
  · exact hwas.cmdEnd _ _ _
  · exact hwas

theorem join (x : Membership) : s.outsideSame (t.join x) := by
  unfold Work.join
  extract_lets role members group links topology routes
  have hgroup : s.outsideSame group := h.eq rfl rfl
  clear_value group
  have hroutes : s.outsideSame routes := hgroup.eq rfl rfl
  split
  · refine hroutes.foldl (fun u n => ?_) _
    split
    · exact refl u
    · exact (refl u).toMember _ _
  · exact hroutes

theorem formDone (f : Forming) (epoch : Nat) (others : List (Nat × Identity)) : s.outsideSame (t.formDone f epoch others) := by
  unfold Work.formDone
  extract_lets own all ids hops depths dists far idOf parent left devices topo membership excluded told joined known held
  have htold : s.outsideSame told := (h.set _ _).foldl (fun u p => (refl u).toMember _ _) _
  have hjoined : s.outsideSame joined := htold.join _
  clear_value joined
  have hheld : s.outsideSame held := hjoined.eq rfl rfl
  split
  · exact h.formFail f _
  · split
    · exact h.formFail f _
    · split
      · exact hheld.cmdEnd _ _ _
      · exact hheld

theorem formSettle : s.outsideSame t.formSettle := by
  unfold Work.formSettle
  split
  · exact h
  · split
    · exact h
    · extract_lets epoch
      split
      · exact h.formFail _ _
      · exact h.formDone _ _ _

theorem form (takeover byCmd : Bool) : s.outsideSame (t.form takeover byCmd) := by
  have hbegin : s.outsideSame (t.formBegin takeover byCmd) := by
    unfold Work.formBegin
    extract_lets epoch was begun
    have hbegun : s.outsideSame begun := h.eq rfl rfl
    exact hbegun.flood _ _
  exact hbegin.formSettle

theorem groupFault (n : Notice) : s.outsideSame (t.groupFault n) := by
  unfold Work.groupFault
  extract_lets counted last logged flooded dropped vars links fallen failed cleared ended
  have hlogged : s.outsideSame logged := ((h.add _ 1).set _ _).log _ _ _ _ _ _ _
  have hflooded : s.outsideSame flooded := hlogged.flood _ _
  have hdropped : s.outsideSame dropped := hflooded.discardStep.failForwarded
  clear_value dropped
  have hfallen : s.outsideSame fallen := hdropped.eq rfl rfl
  have hcleared : s.outsideSame cleared := by
    unfold cleared
    split
    · have hfailed : s.outsideSame failed := hfallen.failRequests _
      exact hfailed.foldl (fun u j => (refl u).jobEnd j _ _) _
    · exact hfallen
  have hended : s.outsideSame ended := hcleared.endGroupPower
  split
  · exact h
  · split
    · exact hended.leaveGroup
    · split
      · exact hended.form _ _
      · exact hended

theorem groupFatal (cause device link : Nat) : s.outsideSame (t.groupFatal cause device link) := h.groupFault _

theorem deviceFatal (code unitKind unit detail : Nat) : s.outsideSame (t.deviceFatal code unitKind unit detail) := by
  unfold Work.deviceFatal
  extract_lets first logged last rel marked dropped lost cleared
  have hlogged : s.outsideSame logged := h.log _ _ _ _ _ _ _
  clear_value logged
  have hdropped : s.outsideSame dropped := hlogged.eq rfl rfl
  have hcleared : s.outsideSame cleared := by
    unfold cleared
    split
    · exact hdropped
    · split
      · exact hdropped.modServe _
      · exact hdropped.failRequests _
  split
  · exact hlogged
  · exact hcleared.groupFatal _ _ _

/-! ## Loads and shadows (R256, R274) -/

theorem setSlotState (n st : Nat) : s.outsideSame (t.setSlotState n st) := by
  obtain ⟨objs, os, hstate⟩ := t.setSlotState_rest n st
  rw [hstate]
  exact h.eq rfl rfl

theorem clearSlotRecords (n : Nat) : s.outsideSame (t.clearSlotRecords n) := h.eq (by simp [Work.clearSlotRecords]) (by simp [Work.clearSlotRecords])

theorem loadEnd (reason : Nat) : s.outsideSame (t.loadEnd reason) := by
  unfold Work.loadEnd
  split
  · exact h
  · next l _ =>
    extract_lets res dropped left
    have hdropped : s.outsideSame dropped := h.eq rfl rfl
    have hleft : s.outsideSame left := by
      unfold left
      split
      · have hfreed : s.outsideSame ((dropped.freeFacets l.slot).setSlot l.slot ⟨[]⟩) := hdropped.eq rfl rfl
        exact (hfreed.clearSlotRecords _).setSlotState _ _
      · split
        · have hrestored : s.outsideSame (dropped.restoreMap l) := hdropped.eq rfl rfl
          exact hrestored.setSlotState _ _
        · exact hdropped
    exact hleft.cmdEnd _ _ _

theorem loadStop (reason : Nat) : s.outsideSame (t.loadStop reason) := by
  unfold Work.loadStop
  split
  · exact h
  · split
    · exact h.eq rfl rfl
    · exact h.loadEnd reason

theorem queueShadow (kind f reason : Nat) : s.outsideSame (t.queueShadow kind f reason) := by
  unfold Work.queueShadow
  split
  · exact h
  · exact h.eq rfl rfl

theorem withdrawRemap (f : Nat) : s.outsideSame (t.withdrawRemap f) := by
  unfold Work.withdrawRemap
  split
  · exact h.eq rfl rfl
  · exact h

theorem suspect (f reason : Nat) : s.outsideSame (t.suspect f reason) := by
  unfold Work.suspect
  extract_lets x withdrawn rel forgotten queued
  have hwithdrawn : s.outsideSame withdrawn := by
    unfold withdrawn
    split
    · exact h.withdrawRemap f
    · exact h
  have hforgotten : s.outsideSame (forgotten.modArr f (fun x => { x with state := 5 })) := hwithdrawn.eq rfl rfl
  have hqueued : s.outsideSame queued := hforgotten.queueShadow 2 f reason
  split
  · exact h.eq rfl rfl
  · split
    · split
      · exact hqueued.log _ _ _ _ _ _ _
      · exact hqueued
    · exact h

theorem abandonShadows : s.outsideSame t.abandonShadows := by
  unfold Work.abandonShadows
  extract_lets all freed kept
  have hfreed : s.outsideSame freed := by
    refine h.foldl (fun u x => ?_) _
    split
    · exact refl u
    · exact of_eq rfl rfl
  have hkept : s.outsideSame kept := hfreed.eq rfl rfl
  clear_value kept
  refine hkept.foldl (fun u x => ?_) _
  have hback : u.outsideSame (u.modArr x.facet (fun y => if y.state = 4 ∧ (x.phase = 3 ∨ x.kind = 3) then { y with state := 2 } else y)) :=
    of_eq rfl rfl
  dsimp only
  split
  · exact hback.suspect _ _
  · exact hback

theorem residentSlots : s.outsideSame t.residentSlots := by
  unfold Work.residentSlots
  refine h.foldl (fun u n => ?_) _
  dsimp only
  split
  · exact (refl u).setSlotState _ _
  · exact refl u

end
end Work.outsideSame

/-! ## The supply while power is lost (R510, R521, R522) -/

theorem Work.loseMemory_power (s : Work) : s.loseMemory.power = s.power := (Work.outsideSame.refl s).abandonShadows.power

theorem Work.foldl_retrain_power (s : Work) (l : List Nat) : (l.foldl (fun (s : Work) l => s.retrain l) s).power = s.power :=
  List.foldlRecOn l _ (motive := fun u : Work => u.power = s.power) rfl fun _ hu _ _ => hu

theorem Work.foldl_setIsland_power (s : Work) (c : IslandCond) (l : List Nat) : (l.foldl (fun (s : Work) i => s.setIsland i c) s).power = s.power :=
  List.foldlRecOn l _ (motive := fun u : Work => u.power = s.power) rfl fun _ hu _ _ => hu

/-- Taking power from the islands leaves the supply's own record. -/
theorem Work.removePower_power (s : Work) : s.removePower.power = s.power := by
  unfold Work.removePower
  extract_lets aborted untargeted idle resident gone gated trained held
  have haborted : s.outsideSame aborted := by
    unfold aborted
    split
    · exact (Work.outsideSame.refl s).cmdEnd _ _ _
    · exact .refl s
  have hidle : s.outsideSame idle := haborted.eq rfl rfl
  clear_value idle
  calc trained.power
    _ = gated.power := Work.foldl_retrain_power _ _
    _ = resident.power := Work.foldl_setIsland_power _ _ _
    _ = (idle.loadEnd 0x30).loseMemory.power := (Work.outsideSame.refl _).residentSlots.power
    _ = (idle.loadEnd 0x30).power := Work.loseMemory_power _
    _ = s.power := (hidle.loadEnd _).power

/-! ## A diode at 118 °C (R521) -/

/-- The domain of a diode, as THERMAL_SHUTDOWN numbers the ten. -/
def domainOfChannel (channel : Nat) : Nat := if channel < 4 then 0 else if channel = 4 then 2 else if channel < 9 then 1 else 3

/-- A domain whose diode has shut the device down. -/
def ThermDomain.shut (x : ThermDomain) : ThermDomain := { x with state := .shutdown }

/-- The supply once it has latched a shutdown. -/
def PowerState.shut (x : PowerState) : PowerState := { x with shutdownLatched := true }

theorem Work.thermalShutdown_eq (s : Work) (channel : Nat) {u : Work} (hu : (({ s with power := s.power.shut } : Work).deviceFatal 0x20 0 0 channel) = u) :
    s.thermalShutdown channel = (u.putDomain (domainOfChannel channel) (u.domain (domainOfChannel channel)).shut).removePower := by
  rw [← hu]
  rfl

/-- A shutdown latches, and takes the diode's domain to the end of its ladder. -/
theorem Work.thermalShutdown_power (s : Work) (channel : Nat) :
    (s.thermalShutdown channel).power.shutdownLatched = true ∧
      (s.thermalShutdown channel).domain (domainOfChannel channel) = (s.domain (domainOfChannel channel)).shut := by
  generalize hu : (({ s with power := s.power.shut } : Work).deviceFatal 0x20 0 0 channel) = u
  have hfaulted : u.power = s.power.shut := hu ▸ ((Work.outsideSame.refl _).deviceFatal _ _ _ _).power
  rw [s.thermalShutdown_eq channel hu]
  generalize hd : domainOfChannel channel = d
  have hdomain : u.domain d = s.domain d := by
    rw [Work.domain, hfaulted]
    rfl
  obtain ⟨rel, objs, os, hput⟩ := u.putDomain_rest d (u.domain d).shut
  have hpower := Work.removePower_power (u.putDomain d (u.domain d).shut)
  constructor
  · rw [hpower, hput]
    exact congrArg PowerState.shutdownLatched hfaulted
  · refine (congrArg (fun p : PowerState => p.domains.getD d .reset) hpower).trans ?_
    rw [← hdomain]
    exact (u.putDomain_domain d (u.domain d).shut d).trans (if_pos rfl)

/-- The channel of a domain's hottest diode is one of the domain's. -/
theorem Work.domainOfChannel_hotChannel (s : Work) {d : Nat} (hd : d < 4) : domainOfChannel (s.hotChannel d) = d := by
  unfold Work.hotChannel
  split
  · next hedge =>
    obtain rfl | rfl : d = 2 ∨ d = 3 := by omega
    · rfl
    · rfl
  · next hhalf =>
    extract_lets value
    have hbest : (List.range 4).foldl (fun (best c : Nat) => if value best < value c then c else best) 0 < 4 := by
      refine List.foldlRecOn (motive := fun b : Nat => b < 4) _ _ (by decide) fun b hb c hc => ?_
      split
      · exact List.mem_range.mp hc
      · exact hb
    unfold domainOfChannel
    obtain rfl | rfl : d = 0 ∨ d = 1 := by omega
    · rw [if_pos (by omega)]
    · rw [if_neg (by omega), if_neg (by omega), if_pos (by omega)]

/-- A confirmed diode at 118 °C shuts the device down. -/
theorem State.thermalCrossing_shuts {s : State} {d : Nat} {temp : Int} (hd : d < 4) (hhot : 118 * 16 ≤ temp) :
    ∃ t, exec (.thermalCrossing d temp false) s = .next t ∧ t.dev.power.shutdownLatched = true ∧ t.work.thermtripLow = true ∧
      (t.work.domain d).state = .shutdown ∧ (t.work.domain d).temp = temp := by
  have hwork : s.work.thermalConfirmed d temp false =
      ((s.work.hottest d temp).setDomain d ((s.work.domain d).seeing temp false)).thermalShutdown (s.work.hotChannel d) :=
    if_pos (decide_eq_true hhot)
  obtain ⟨hlatched, hdomain⟩ :=
    ((s.work.hottest d temp).setDomain d ((s.work.domain d).seeing temp false)).thermalShutdown_power (s.work.hotChannel d)
  rw [s.work.domainOfChannel_hotChannel hd, Work.setDomain_domain, if_pos rfl, ← hwork] at hdomain
  rw [← hwork] at hlatched
  refine ⟨_, exec_thermalCrossing (byStack := false) hd (fun h => Bool.noConfusion h) temp, ?_, ?_, ?_, ?_⟩
  · rw [State.run_power]
    exact hlatched
  · rw [Work.thermtripLow, State.work_toDev, State.run_power]
    exact hlatched
  · rw [State.run_domain, hdomain]
    rfl
  · rw [State.run_domain, hdomain]
    rfl

/-- Settles O17: a diode at 118 °C shuts the device down, and any other confirmed result moves its domain on the ladder. -/
theorem thermalCrossingMovesTheLadder : Obligations.ThermalCrossingMovesTheLadder := by
  unfold Obligations.ThermalCrossingMovesTheLadder
  intro s d temp byStack hd hstack
  refine ⟨?_, fun hlow => ?_⟩
  · rintro rfl hhot
    exact State.thermalCrossing_shuts hd hhot
  · obtain ⟨t, hexec, hmoves⟩ := State.thermalCrossing_moves hd hstack hlow
    refine ⟨t, hexec, ?_⟩
    cases byStack <;> exact hmoves

end Sys2Proof.Machine
end

section
/-! SUPPORT. What a boundary and the intake leave alone: the power supply, and how far each tenant's host has read its completion ring (R290, R424,
R427, R586). -/

namespace Sys2Proof.Machine

namespace Work.outsideSame

section
variable {s t : Work} (h : s.outsideSame t)
include h

/-! ## Variants, delta sets and jobs (R350, R355, R369) -/

theorem dropSet (x : DeltaSet) : s.outsideSame (t.dropSet x) := (h.modVars _).orderAll _

theorem putJob (j : TuneJob) : s.outsideSame (t.putJob j) := h.modVars _

theorem putSet (x : DeltaSet) : s.outsideSame (t.putSet x) := h.modVars _

theorem setBad (handle : Nat) : s.outsideSame (t.setBad handle) := by
  unfold Work.setBad
  split
  · exact h
  · split
    · exact h
    · split
      · exact (h.putSet _).attendTenant _ _
      · exact h.putSet _

theorem freezeFollows (slot id : Nat) : s.outsideSame (t.freezeFollows slot id) := by
  unfold Work.freezeFollows
  split
  · exact h
  · exact h.modServe _

theorem unloadVariant (slot id : Nat) : s.outsideSame (t.unloadVariant slot id) := by
  unfold Work.unloadVariant
  split
  · exact h
  · exact (h.freezeFollows slot id).eq rfl rfl

theorem evict (l : List DeltaSet) : s.outsideSame (t.evict l) := by
  unfold Work.evict
  exact h.foldl (fun u x => (((refl u).unloadVariant _ _).dropSet x).add _ 1) l

theorem installSet (x : DeltaSet) (pin : Option Bool) (copyOf : Option Nat) : s.outsideSame (t.installSet x pin copyOf) := by
  unfold Work.installSet
  extract_lets v x' put known
  have hknown : s.outsideSame known := h.eq rfl rfl
  split
  · exact hknown.orderAll _
  · exact hknown.orderAll _

theorem publish {j : TuneJob} {u : Work} (hpublish : t.publish j = some u) : s.outsideSame u := by
  unfold Work.publish at hpublish
  extract_lets bytes at hpublish
  split at hpublish
  · exact absurd hpublish (by simp)
  · next l _ =>
    extract_lets evicted set numbered version installed at hpublish
    obtain rfl := Option.some.inj hpublish
    have hnumbered : s.outsideSame numbered := (h.evict l).eq rfl rfl
    exact ((hnumbered.installSet _ _ _).add _ 1).putJob _

theorem tryPublish (j : TuneJob) (again : Bool) : s.outsideSame (t.tryPublish j again) := by
  unfold Work.tryPublish
  extract_lets deferred
  have hdeferred : s.outsideSame deferred := by
    unfold deferred
    split
    · exact h.add _ 1
    · exact h
  split
  · exact hdeferred.putJob _
  · next u hpublish =>
    have hu := hdeferred.publish hpublish
    split
    · split
      · exact hu.jobEnd _ _ _
      · exact hu
    · exact hu

/-! ## What a boundary does before it plans (R266, R272, R283, R287, R301, R303, R350, R351) -/

theorem badAct : s.outsideSame t.badAct := by
  unfold Work.badAct
  exact (h.modServe _).foldl (fun u x => ((refl u).setBad x).add _ 1) _

theorem expireAll : s.outsideSame t.expireAll := by
  unfold Work.expireAll
  exact h.foldl (fun u e => (refl u).endRequest e _ _) _

theorem releaseServed (slot : Nat) : s.outsideSame (t.releaseServed slot) := by
  unfold Work.releaseServed
  extract_lets freed failed dropped
  have hfreed : s.outsideSame freed := h.foldl (fun u e => ((refl u).pageOp _).putEntry _) _
  have hfailed : s.outsideSame failed := hfreed.foldl (fun u j => (refl u).jobEnd j _ _) _
  have hdropped : s.outsideSame dropped := hfailed.foldl (fun u x => (refl u).dropSet x) _
  exact hdropped.modVars _

theorem drainAct (d : Drain) : s.outsideSame (t.drainAct d) := by
  unfold Work.drainAct
  extract_lets started discarded ordered complete released
  have hstarted : s.outsideSame started := by
    unfold started
    split
    · exact h
    · exact (h.orderAll _).modServe _
  have hdiscarded : s.outsideSame discarded := by
    unfold discarded
    split
    · exact hstarted
    · exact hstarted.foldl (fun u e => ((refl u).endRequest e _ _).add _ 1) _
  have hcomplete : s.outsideSame complete := (hdiscarded.orderAll _).modServe _
  have hreleased : s.outsideSame released := by
    unfold released
    split
    · exact hcomplete.releaseServed _
    · exact hcomplete
  split
  · exact h
  · split
    · exact hdiscarded
    · exact hreleased.cmdEnd _ _ _

theorem drainsAct : s.outsideSame t.drainsAct := by
  unfold Work.drainsAct
  have hall : s.outsideSame (t.serve.drains.foldl (fun (s : Work) (d : Drain) => s.drainAct d) t) := h.foldl (fun u d => (refl u).drainAct d) _
  exact hall.modServe _

theorem promoteSets : s.outsideSame t.promoteSets := by
  unfold Work.promoteSets
  refine h.foldl (fun u x => ?_) _
  exact of_eq rfl rfl

theorem pausesAct : s.outsideSame t.pausesAct := by
  unfold Work.pausesAct
  extract_lets ended asked granted
  have hgranted : s.outsideSame granted := h.eq rfl rfl
  exact hgranted.foldl (fun u p => (refl u).toMember _ _) _

theorem freeTerminal : s.outsideSame t.freeTerminal := by
  unfold Work.freeTerminal
  refine h.foldl (fun u e => ?_) _
  dsimp only
  split
  · exact ((refl u).pageOp _).freeEntry _
  · exact (refl u).freeEntry _

theorem collectSets : s.outsideSame t.collectSets := by
  unfold Work.collectSets
  exact h.foldl (fun u x => (refl u).dropSet x) _

theorem retryPublish : s.outsideSame t.retryPublish := by
  unfold Work.retryPublish
  split
  · exact h
  · exact h.foldl (fun u j => (refl u).tryPublish j true) _

theorem resumePages : s.outsideSame t.resumePages := by
  unfold Work.resumePages
  extract_lets held
  refine List.foldlRecOn (motive := fun acc : Work × List Cand => s.outsideSame acc.1) _ _ h fun acc hacc e _ => ?_
  dsimp only
  split
  · exact hacc.putEntry _
  · exact hacc

/-! ## GROUP_POWER (R553) -/

theorem orderPower (n : Nat) : s.outsideSame (t.orderPower n) := by
  unfold Work.orderPower
  split
  · exact h.foldl (fun u d => (refl u).toMember d _) _
  · exact h

/-- Before the islands stop for L2 nothing but the saved records changes. -/
theorem entryBegin : s.outsideSame (t.entryBegin 2) := by
  unfold Work.entryBegin
  split
  · exact h
  · exact h.eq rfl rfl

theorem zeroAll : s.outsideSame t.zeroAll := h.eq rfl rfl

theorem restoreCorrections : s.outsideSame t.restoreCorrections := by
  unfold Work.restoreCorrections
  refine h.foldl (fun u p => ?_) _
  exact of_eq rfl rfl

theorem exitBegin (old n : Nat) : s.outsideSame (t.exitBegin old n) := by
  unfold Work.exitBegin
  extract_lets dram refreshed dram' back
  have hrefreshed : s.outsideSame refreshed := by
    unfold refreshed
    split
    · exact h.eq rfl rfl
    · exact h
  have hback : s.outsideSame back := by
    unfold back
    split
    · clear_value refreshed
      have hpowered : s.outsideSame { refreshed with dram := { refreshed.dram with off := false, selfRefresh := decide (n = 3) } } :=
        hrefreshed.eq rfl rfl
      exact (hpowered.zeroAll.residentSlots).restoreCorrections
    · exact hrefreshed
  split
  · exact hback.eq rfl rfl
  · exact hback

theorem powerBegin : s.outsideSame (t.powerBegin 2) := by
  unfold Work.powerBegin
  extract_lets old begun
  have hbegun : s.outsideSame begun := h.modBoot _
  split
  · exact (hbegun.loadStop _).entryBegin
  · exact (hbegun.exitBegin _ _).modBoot _

theorem groupPowerAct : s.outsideSame t.groupPowerAct := by
  unfold Work.groupPowerAct
  split
  · exact ((h.modBoot _).orderPower 2).powerBegin
  · exact h

/-! ## The planner (R288 to R292, R298, R305, R306) -/

theorem beginStep (head : StepHead) (b : StepBody) : s.outsideSame (t.beginStep head b) := by
  unfold Work.beginStep
  extract_lets counted paged
  have hcounted : s.outsideSame counted := by
    unfold counted
    split
    · exact h
    · exact h.add _ _
  exact hcounted.eq rfl rfl

theorem sendStep (kind : Nat) (cap : Nat → Nat) (ls : List Planned) (est : Rat) (job : Option Nat) : s.outsideSame (t.sendStep kind cap ls est job) := by
  unfold Work.sendStep
  extract_lets laid refs order offs plans lanes body bytes n slots head sent planned
  have hplanned : s.outsideSame planned := h.eq rfl rfl
  split
  · exact hplanned.beginStep _ _
  · exact hplanned

theorem tuneStep (j : TuneJob) : s.outsideSame (t.tuneStep j) := by
  unfold Work.tuneStep
  extract_lets p rs take ls est chosen
  have hchosen : s.outsideSame chosen := h.modVars _
  split
  · exact hchosen
  · exact hchosen.sendStep _ _ _ _ _

theorem planDecode (limit : Rat) (got : List Cand) (l : List Entry) : s.outsideSame (t.planDecode limit got l).1 := by
  induction l generalizing t got with
  | nil => exact h
  | cons e rest ih =>
    unfold Work.planDecode
    extract_lets c mine
    split
    · exact ih h _
    · split
      · exact ih ((h.putEntry _).add _ 1) _
      · exact ih h _

theorem shareFork (e : Entry) : s.outsideSame (t.shareFork e) := by
  unfold Work.shareFork
  split
  · exact h
  · extract_lets n held
    split
    · exact h.pageOp _
    · exact h.foldl (fun u p => (refl u).pageOp _) _

theorem grow (e : Entry) (lo hi : Nat) : s.outsideSame (t.grow e lo hi) := by
  unfold Work.grow
  extract_lets list copies more fresh shared taken copied grown list'
  have htaken : s.outsideSame taken := (h.shareFork e).eq rfl rfl
  have hcopied : s.outsideSame copied := htaken.foldl (fun u p => ((refl u).pageOp _).add _ 1) _
  have hgrown : s.outsideSame grown := hcopied.foldl (fun u p => (refl u).pageOp _) _
  exact hgrown.putEntry _

theorem takeLane (c : Cand) : s.outsideSame (t.takeLane c) := by
  unfold Work.takeLane
  split
  · exact h
  · next e _ =>
    extract_lets grown
    have hgrown : s.outsideSame grown := h.grow e c.lo c.hi
    split
    · exact hgrown
    · exact hgrown.putEntry _

theorem serveStep (kind : Nat) : s.outsideSame (t.serveStep kind) := by
  unfold Work.serveStep
  extract_lets mine skipped counted order target prefill limit
  have hcounted : s.outsideSame counted := by
    unfold counted
    split
    · exact h
    · exact h.add _ _
  split
  next u lanes hlanes =>
  have hu : s.outsideSame u := by
    have hdecode := hcounted.planDecode limit [] (order.filter (fun e => e.state = 4))
    rwa [hlanes] at hdecode
  extract_lets recs
  split
  next got cut _ =>
  extract_lets skipped' planned waited est taken
  have hskipped : s.outsideSame skipped' := by
    unfold skipped'
    split
    · exact hu
    · exact hu.add _ _
  have hwaited : s.outsideSame waited := by
    refine hskipped.foldl (fun v e => ?_) _
    split
    · split
      · exact refl v
      · exact (refl v).putEntry _
    · exact refl v
  split
  · exact hwaited
  · have htaken : s.outsideSame taken := hwaited.foldl (fun v c => (refl v).takeLane c) _
    exact htaken.sendStep _ _ _ _ _

theorem markUsed : s.outsideSame t.markUsed := by
  unfold Work.markUsed
  split
  · exact h
  · exact h.modVars _

theorem planStep : s.outsideSame t.planStep := by
  unfold Work.planStep
  extract_lets tuned wide due
  have htuned : s.outsideSame tuned := by
    unfold tuned
    split
    · exact h.tuneStep _
    · exact h
  split
  · exact h
  · split
    · exact htuned
    · exact (htuned.serveStep _).markUsed

/-! ## Boundaries (R290, R586) -/

theorem boundary : s.outsideSame t.boundary := by
  unfold Work.boundary
  extract_lets acted freed resumed
  have hdrained : s.outsideSame t.badAct.chargeAll.expireAll.drainsAct := ((h.badAct.modServe _).expireAll).drainsAct
  have hacted : s.outsideSame acted := ((hdrained.modServe _).promoteSets).pausesAct
  have hfreed : s.outsideSame freed := ((hacted.freeTerminal.collectSets).modServe _).retryPublish
  have hresumed : s.outsideSame resumed := by
    unfold resumed
    split
    · exact hfreed.resumePages
    · exact hfreed
  exact hresumed.groupPowerAct.planStep

theorem idle : s.outsideSame t.idle := by
  unfold Work.idle
  split
  · exact h.boundary
  · exact h

/-! ## Intake (R283, R286, R302, R422 to R425) -/

theorem refuse (n cause handle tag : Nat) (deadline : Option Int) : s.outsideSame (t.refuse n cause handle tag deadline) := (h.add _ 1).putRecord _ _

theorem refuseEntry (e : Entry) (cause : Nat) : s.outsideSame (t.refuseEntry e cause) := (h.refuse _ _ _ _ _).freeEntry _

theorem admitRequest (e : Entry) : s.outsideSame (t.admitRequest e) := by
  unfold Work.admitRequest
  exact (((h.putEntry _).add _ 1).putRecord _ _).idle

theorem judge (e : Entry) (b : List Byte) (poison : Bool) : s.outsideSame (t.judge e b poison) := by
  unfold Work.judge
  split
  · exact (h.refuseEntry _ _).idle
  · exact h.admitRequest e

theorem cancelEntry (e : Entry) (slot : Bool) : s.outsideSame (t.cancelEntry e slot) := by
  unfold Work.cancelEntry
  extract_lets r inIntake released e' put paged
  have hreleased : s.outsideSame released := by
    unfold released
    split
    · exact h.setRing rfl
    · exact h
  have hput : s.outsideSame put := (hreleased.putEntry _).add _ 1
  have hpaged : s.outsideSame paged := by
    unfold paged
    split
    · exact hput
    · exact hput.pageOp _
  exact (hpaged.putCancelled _ _).idle

theorem cancelDesc (n : Nat) (b : List Byte) : s.outsideSame (t.cancelDesc n b) := by
  unfold Work.cancelDesc
  extract_lets handle clean
  split
  · exact h.refuse _ _ _ _ _
  · split
    · split
      · exact h.refuse _ _ _ _ _
      · split
        · exact h.refuse _ _ _ _ _
        · exact h.cancelEntry _ _
    · exact h.refuse _ _ _ _ _

theorem submitDesc (n : Nat) (b : List Byte) : s.outsideSame (t.submitDesc n b) := by
  unfold Work.submitDesc
  extract_lets budget deadline
  split
  · exact h.refuse _ _ _ _ _
  · split
    · exact h.refuse _ _ _ _ _
    · extract_lets e taken
      have htaken : s.outsideSame taken := h.modServe _
      split
      · exact htaken.judge _ _ _
      · exact htaken

theorem consume (n : Nat) (a : Announced) : s.outsideSame (t.consume n a) := by
  unfold Work.consume
  extract_lets b counted
  have hcounted : s.outsideSame counted := (h.add _ 1).add _ 1
  split
  · exact hcounted.refuse _ _ _ _ _
  · split
    · exact hcounted.refuse _ _ _ _ _
    · split
      · exact hcounted.cancelDesc n b
      · split
        · exact hcounted.submitDesc n b
        · exact hcounted.refuse _ _ _ _ _

theorem leaveL1 : s.outsideSame t.leaveL1 := by
  unfold Work.leaveL1
  split
  · exact h
  · exact h.eq rfl rfl

theorem intakeVisit (n : Nat) : s.outsideSame (t.intakeVisit n) := by
  unfold Work.intakeVisit
  split
  · exact h
  · split
    · exact h.setRing rfl
    · split
      · exact h.setRing rfl
      · extract_lets left r taken
        have hleft : s.outsideSame left := h.leaveL1
        have htaken : s.outsideSame taken := hleft.setRing rfl
        have hvisited : s.outsideSame { taken with host := { taken.host with visited := n } } := htaken.trans ⟨rfl, fun _ => rfl⟩
        exact hvisited.consume _ _

theorem intake (n : Nat) : s.outsideSame (t.intake n) := by
  unfold Work.intake
  exact h.foldl (fun u _ => (refl u).intakeVisit n) _

theorem serveRing (n : Nat) : s.outsideSame (t.serveRing n) := (h.flushRing _ n).intake n

end
end Work.outsideSame

end Sys2Proof.Machine
end

section
/-! SUPPORT. Rings and windows as the host moves them (R417, R420, R421, R424, R425, R431). -/

namespace Sys2Proof.Machine

/-! ## Records that wait, of any kind (R283, R425, R427, R429) -/

/-- The second work has the values of the first, but for what records count, and what its tenants have announced. -/
structure Work.recordsOnly (s t : Work) : Prop where
  vals : ∀ k, ¬ recordKey k → t.get k = s.get k
  aperture : ∀ n, (t.ring n).aperture = (s.ring n).aperture

namespace Work.recordsOnly

theorem of_eq {s t : Work} (hobjs : t.objs = s.objs) (hhost : t.host = s.host) : s.recordsOnly t :=
  ⟨fun k _ => by rw [Work.get, Work.get, hobjs], fun n => by rw [Work.ring, Work.ring, hhost]⟩

section
variable {s t : Work} (h : s.recordsOnly t)
include h

theorem trans {u : Work} (g : t.recordsOnly u) : s.recordsOnly u :=
  ⟨fun k hk => (g.vals k hk).trans (h.vals k hk), fun n => (g.aperture n).trans (h.aperture n)⟩

theorem eq {u : Work} (hobjs : u.objs = t.objs) (hhost : u.host = t.host) : s.recordsOnly u := h.trans (of_eq hobjs hhost)

theorem setRing {n : Nat} {x : Ring} (hx : x.aperture = (t.ring n).aperture) : s.recordsOnly (t.setRing n x) := by
  refine h.trans ⟨fun _ _ => rfl, fun m => ?_⟩
  rw [Work.setRing_ring]
  split
  next hm => rw [hx, hm]
  next => rfl

theorem add {k : Key} (hk : recordKey k) (n : Nat) : s.recordsOnly (t.add k n) := by
  refine h.trans ⟨fun q hq => ?_, fun _ => rfl⟩
  rw [Work.add_get, if_neg (by rintro rfl; exact hq hk)]

theorem finalWritten (handle : Nat) : s.recordsOnly (t.finalWritten handle) := by
  unfold Work.finalWritten
  split
  · split
    · exact h
    · split
      · exact h.eq rfl rfl
      · exact h.eq rfl rfl
  · exact h

theorem writeRecord (n : Nat) (c : CompRec) : s.recordsOnly (t.writeRecord n c) := by
  unfold Work.writeRecord
  extract_lets r m size slot sent r' counted written ended
  have hsent : s.recordsOnly (sent.setRing n r') := (h.eq (u := sent) rfl rfl).setRing rfl
  have hwritten : s.recordsOnly written := ((hsent.add (.inl rfl) 1).add (.inr (.inl ⟨n, rfl⟩)) 1).add (.inr (.inr (.inl ⟨_, rfl⟩))) 64
  have hended : s.recordsOnly ended := by
    unfold ended
    split
    · exact hwritten.finalWritten _
    · exact hwritten
  split
  · exact (hended.setRing (x := { ended.ring n with sinceIrq := 0, timer := false }) rfl).eq rfl rfl
  · exact hended

theorem flushRing (fuel n : Nat) : s.recordsOnly (Work.flushRing fuel n t) := by
  induction fuel generalizing t with
  | zero => exact h
  | succ fuel ih =>
    unfold Work.flushRing
    split
    · exact h
    · split
      · exact ih ((h.setRing (by rfl)).writeRecord n _)
      · exact h

end
end Work.recordsOnly

/-! ## A ring in which nothing is announced -/

section
variable {w : Work} {n : Nat} (hempty : (w.ring n).aperture = [])
include hempty

theorem Work.intake_of_empty : w.intake n = w.intakeVisit n := by
  rw [Work.intake, hempty]
  rfl

theorem Work.serveRing_get_of_empty {k : Key} (hk : ¬ recordKey k) : (w.serveRing n).get k = w.get k := by
  have hflush := (Work.recordsOnly.of_eq (s := w) rfl rfl).flushRing (w.ring n).waiting.length n
  have hflushed := (hflush.aperture n).trans hempty
  rw [Work.serveRing, Work.intake_of_empty hflushed, Work.intakeVisit_of_empty_get hflushed]
  exact hflush.vals k hk

theorem Work.intakeVisit_ring_of_empty (hstalled : (w.ring n).stalled = false) : (w.intakeVisit n).ring n = w.ring n := by
  have hnone : w.nextDesc n = none := by simp [Work.nextDesc, hempty]
  unfold Work.intakeVisit
  split
  · rfl
  · rw [hnone]
    refine ((w.setRing_ring n _ n).trans (if_pos rfl)).trans ?_
    rw [← hstalled]

/-- With no record that waits either, serving the ring is a visit that finds nothing. -/
theorem Work.serveRing_of_empty (hwaiting : (w.ring n).waiting = []) : w.serveRing n = w.intakeVisit n := by
  rw [Work.serveRing, hwaiting]
  exact Work.intake_of_empty hempty
end

/-! ## RING_ENABLE (R420, R421) -/

/-- A ring as RING_ENABLE begins it. -/
def Ring.begun (r : Ring) : Ring := { Ring.reset with waiting := r.waiting, reserved := r.reserved }

theorem Ring.begun_of_empty {r : Ring} (h : r.waiting = []) : r.begun = { Ring.reset with reserved := r.reserved } := by
  rw [Ring.begun, h]
  rfl

/-- RING_ENABLE as it is written when its value changes. -/
def Work.ringTurned (w : Work) (n v : Nat) : Work :=
  if v = 0 then w.set (Obj.ringEnable n) v else ((w.set (Obj.ringEnable n) v).setRing n (w.ring n).begun).serveRing n

theorem Work.putValue_ringEnable (w : Work) (n v : Nat) :
    w.putValue (Obj.ringEnable n) v = if w.get (Obj.ringEnable n) = v then w else w.ringTurned n v := by
  have hrest : w.resting 0x9100 = false := by simp [Work.resting, managerOnly]
  simp [Work.putValue, hrest, Work.setRingEnable, Work.ringTurned, Ring.begun, Work.ring]

theorem not_recordKey_ringEnable (n : Nat) : ¬ recordKey (Obj.ringEnable n) := by simp [recordKey]
theorem not_recordKey_deviceId : ¬ recordKey Obj.deviceId := by simp [recordKey]

section
variable (w : Work) (n v : Nat)

theorem Work.ring_begun_ring : ((w.set (Obj.ringEnable n) v).setRing n (w.ring n).begun).ring n = (w.ring n).begun :=
  (Work.setRing_ring _ n _ n).trans (if_pos rfl)

theorem Work.putValue_ringEnable_get {k : Key} (hk : ¬ recordKey k) :
    (w.putValue (Obj.ringEnable n) v).get k = if k = Obj.ringEnable n then v else w.get k := by
  have hset : (w.set (Obj.ringEnable n) v).get k = if k = Obj.ringEnable n then v else w.get k := by
    simp only [Work.set_get, eq_comm]
  rw [Work.putValue_ringEnable]
  split
  next hsame =>
    split
    next hkey => rw [hkey, hsame]
    next => rfl
  next =>
    unfold Work.ringTurned
    split
    · exact hset
    · exact (Work.serveRing_get_of_empty (by rw [Work.ring_begun_ring]; rfl) hk).trans hset

variable (hwaiting : (w.ring n).waiting = [])
include hwaiting

/-- A ring that begins without a record has nothing to serve. -/
theorem Work.putValue_ringEnable_ring (hv : v = 1) (hoff : w.get (Obj.ringEnable n) = 0) :
    (w.putValue (Obj.ringEnable n) v).ring n = (w.ring n).begun := by
  have hbegun := w.ring_begun_ring n v
  rw [Work.putValue_ringEnable, if_neg (by rw [hoff, hv]; exact Nat.zero_ne_one), Work.ringTurned, if_neg (by rw [hv]; exact Nat.one_ne_zero),
    Work.serveRing_of_empty (by rw [hbegun]; rfl) (by rw [hbegun]; exact hwaiting),
    Work.intakeVisit_ring_of_empty (by rw [hbegun]; rfl) (by rw [hbegun]; rfl), hbegun]

theorem State.keeps.putValue_ringEnable {s : State} {parts : List StatePart} {keys : Key → Prop} (h : s.keeps w parts keys)
    (hhost : StatePart.host ∈ parts) (hk : keys (Obj.ringEnable n)) : s.keeps (w.putValue (Obj.ringEnable n) v) parts keys := by
  rw [Work.putValue_ringEnable]
  split
  · exact h
  · unfold Work.ringTurned
    split
    · exact h.set hk v
    · have hbegun := w.ring_begun_ring n v
      have hempty : (((w.set (Obj.ringEnable n) v).setRing n (w.ring n).begun).ring n).aperture = [] := by rw [hbegun]; rfl
      rw [Work.serveRing_of_empty hempty (by rw [hbegun]; exact hwaiting)]
      obtain ⟨host, hvisit⟩ := Work.intakeVisit_of_empty hempty
      rw [hvisit]
      exact (h.set hk v).host hhost host
end

/-- What any RING_ENABLE's row says. -/
theorem rowOf_ringEnable (n : Nat) : (rowOf (Obj.ringEnable n)).access = .rw ∧ (rowOf (Obj.ringEnable n)).cls ≠ .p ∧
    (rowOf (Obj.ringEnable n)).min = 0 ∧ (rowOf (Obj.ringEnable n)).max = 1 := by
  change (rowOf (Obj.ringEnable 0)).access = .rw ∧ (rowOf (Obj.ringEnable 0)).cls ≠ .p ∧ (rowOf (Obj.ringEnable 0)).min = 0 ∧ (rowOf (Obj.ringEnable 0)).max = 1
  decide +kernel

/-- The row of an object that a request has found is the object's row. -/
theorem State.grants.rowOf_eq {s : State} {r : Req} {row : Row} {k : Key} {v : Nat} (h : s.grants r row k v) : rowOf k = row := by
  obtain ⟨hrow, hindex, hsub⟩ := Work.lookup_row h.object
  rw [rowOf, hindex, hsub, hrow]
  rfl

theorem Work.valueRefused_ringEnable (s : Work) (o : Origin) (n v : Nat) (h : s.ringEnableRefused n v = false) :
    s.valueRefused o (Obj.ringEnable n) v = none := by
  simp [Work.valueRefused, h]

theorem State.ringEnable_written {s : State} {r : Req} {row : Row} {n v : Nat} (h : s.grantsAt r row (Obj.ringEnable n) v) (hv : v < 2)
    (hrefused : s.work.ringEnableRefused n v = false) :
    ∃ t, exec (.ringEnable r) s = .next t ∧ s.acceptedAt t r (Obj.ringEnable n) ∧ t.val (Obj.ringEnable n) = v ∧
      ((s.work.ring n).waiting = [] →
        (v = 1 → s.val (Obj.ringEnable n) = 0 → t.work.ring n = { Ring.reset with reserved := (s.work.ring n).reserved }) ∧
        s.frame t [.dict, .links, .host] (fun k => k = Obj.ringEnable n ∨ answerKey k)) := by
  obtain ⟨haccess, hcls, hmin, hmax⟩ := rowOf_ringEnable n
  rw [State.grants.rowOf_eq h] at haccess hcls hmin hmax
  obtain ⟨ws, p, f, hexec⟩ := State.takes.exec_eq (c := .ringEnable r) (State.grants.takes h) (by decide) (fun _ => rfl)
  have hserve := State.grants.serveOp_value h (by simp [haccess]) (by omega) (by omega)
    (s.work.valueRefused_ringEnable _ n v hrefused) ws p f
  rw [if_neg (by simp [haccess]), if_neg hcls] at hserve
  refine ⟨_, hexec, State.answer_mem_run hserve ?_, ?_, fun hwaiting => ⟨fun hone hoff => ?_, ?_⟩⟩
  · rw [Work.putValue_ringEnable_get _ n v not_recordKey_deviceId, if_neg (by simp)]
    rfl
  · rw [State.run_val _ _ _ (by simp [linkCounter]), hserve, Work.respond_get_of_ok, if_neg (by simp),
      Work.putValue_ringEnable_get _ n v (not_recordKey_ringEnable n), if_pos rfl]
  · obtain ⟨objs, windows, os, hrespond⟩ := ((s.work.atTurn ws p f).putValue (Obj.ringEnable n) v).respondFrom_eq
      ((s.work.atTurn ws p f).putValue (Obj.ringEnable n) v).ownDevice 2 (seen 2 (reqAt r (Obj.ringEnable n).index (Obj.ringEnable n).sub)) 0 0 []
    rw [Work.ring, State.work_toDev, State.run_host, hserve, Work.respond, hrespond]
    exact (Work.putValue_ringEnable_ring (s.work.atTurn ws p f) n v hwaiting hone hoff).trans (Ring.begun_of_empty hwaiting)
  · exact (State.keeps.putValue_ringEnable (s.work.atTurn ws p f) n v hwaiting (State.keeps_atTurn (by simp) ws p f) (by simp) (.inl rfl)).frame_respond
      hserve (by simp) (by simp) (fun _ => .inr) (.inl rfl)

/-! ## CQ_HEAD and CQ_IRQ_TIMER (R421, R431) -/

/-- A ring of which the host has taken the records before an index. -/
def Ring.headed (r : Ring) (v : Nat) : Ring := { r with cqHead := v }

section
variable {w : Work} {n : Nat}

theorem Work.cqHeadWrite_eq (hon : w.get (Obj.ringEnable n) ≠ 0) (v : Nat) :
    w.cqHeadWrite n v = ((w.setRing n ((w.ring n).headed v)).serveRing n).idle := if_neg hon

theorem Work.cqHeadWrite_cqHead (hon : w.get (Obj.ringEnable n) ≠ 0) (v : Nat) : ((w.cqHeadWrite n v).ring n).cqHead = v := by
  rw [Work.cqHeadWrite_eq hon]
  refine (((Work.outsideSame.refl (w.setRing n ((w.ring n).headed v))).serveRing n).idle.heads n).trans ?_
  rw [Work.setRing_ring, if_pos rfl]
  rfl

/-- At a ring with nothing to write or take, only the host's side of the device changes. -/
theorem Work.cqHeadWrite_of_empty (hon : w.get (Obj.ringEnable n) ≠ 0) (v : Nat) (hwaiting : (w.ring n).waiting = [])
    (haperture : (w.ring n).aperture = []) (hrole : w.get Obj.role ≠ 1) : ∃ host, w.cqHeadWrite n v = { w with host := host } := by
  have hring : (w.setRing n ((w.ring n).headed v)).ring n = (w.ring n).headed v := (Work.setRing_ring _ n _ n).trans (if_pos rfl)
  have hempty : ((w.setRing n ((w.ring n).headed v)).ring n).aperture = [] := by rw [hring]; exact haperture
  obtain ⟨host, hvisit⟩ := Work.intakeVisit_of_empty hempty
  have hserved := Work.serveRing_of_empty hempty (by rw [hring]; exact hwaiting)
  refine ⟨host, ?_⟩
  rw [Work.cqHeadWrite_eq hon, hserved, hvisit, Work.idle_of_not_manager (by exact hrole)]
  rfl
end

section
variable {s : State} {n : Nat}

theorem State.cqHead_ignored (hexists : s.work.tenantExists n = true) {v : Nat} (hv : v < 2 ^ 32) (hoff : s.val (Obj.ringEnable n) = 0) :
    ∃ t, exec (.cqHead n v) s = .next t ∧ s.frame t [] (fun _ => False) :=
  State.next_unchanged (State.nextIf_true (by rw [hexists, decide_eq_true hv]; rfl)) (if_pos hoff)

theorem State.cqHead_makesRoom (hexists : s.work.tenantExists n = true) {v : Nat} (hv : v < 2 ^ 32) (hon : s.val (Obj.ringEnable n) ≠ 0) :
    ∃ t, exec (.cqHead n v) s = .next t ∧ (t.work.ring n).cqHead = v ∧
      ((s.work.ring n).waiting = [] → (s.work.ring n).aperture = [] → s.val Obj.role ≠ 1 → s.frame t [.host] (fun _ => False)) := by
  refine ⟨_, State.nextIf_true (by rw [hexists, decide_eq_true hv]; rfl), ?_, fun hwaiting haperture hrole => ?_⟩
  · rw [Work.ring, State.work_toDev, State.run_host]
    exact Work.cqHeadWrite_cqHead hon v
  · obtain ⟨host, hwork⟩ := Work.cqHeadWrite_of_empty hon v hwaiting haperture hrole
    have hkeeps : s.keeps (s.work.cqHeadWrite n v) [.host] (fun _ => False) := by
      rw [hwork]
      exact (s.keeps_work _ _).host (List.mem_singleton.mpr rfl) host
    have hsent : (s.work.cqHeadWrite n v).sent = [] := by
      rw [hwork]
      rfl
    exact hkeeps.frame_silent (f := (·.cqHeadWrite n v)) hsent

theorem State.keeps.completionIrq {w : Work} {parts : List StatePart} {keys : Key → Prop} (h : s.keeps w parts keys) (hhost : StatePart.host ∈ parts) :
    s.keeps (w.completionIrq n) parts keys := (h.host hhost _).send _

theorem State.cqIrqTimer_raises (hexists : s.work.tenantExists n = true) :
    ∃ t, exec (.cqIrqTimer n) s = .next t ∧
      (if (s.work.ring n).timer = true ∧ s.val (Obj.cqIrqUs n) ≠ 0 then
         Output.msix (tenantPort n) (tenantFn n) 0 ∈ t.out.drop s.out.length ∧ (t.work.ring n).timer = false ∧ (t.work.ring n).sinceIrq = 0
       else s.frame t [] (fun _ => False)) ∧ s.frame t [.host] (fun _ => False) := by
  have hexec : exec (.cqIrqTimer n) s = s.next (fun w => if (w.ring n).timer && w.get (Obj.cqIrqUs n) ≠ 0 then w.completionIrq n else w) :=
    State.nextIf_true hexists
  by_cases hdue : (s.work.ring n).timer = true ∧ s.val (Obj.cqIrqUs n) ≠ 0
  · have hraise : s.next (fun w => if (w.ring n).timer && w.get (Obj.cqIrqUs n) ≠ 0 then w.completionIrq n else w) = s.next (·.completionIrq n) :=
      congrArg Host.Outcome.next (State.run_congr (if_pos (by rw [hdue.1, decide_eq_true (by exact hdue.2)]; rfl)))
    have hring : (s.work.completionIrq n).ring n = { s.work.ring n with sinceIrq := 0, timer := false } :=
      (Work.setRing_ring _ n _ n).trans (if_pos rfl)
    refine ⟨_, hexec.trans hraise, Eq.mpr (if_pos hdue) ⟨State.mem_drop_run_out (List.mem_append_right _ (List.mem_singleton.mpr rfl)), ?_, ?_⟩, ?_⟩
    · rw [Work.ring, State.work_toDev, State.run_host]
      exact congrArg Ring.timer hring
    · rw [Work.ring, State.work_toDev, State.run_host]
      exact congrArg Ring.sinceIrq hring
    · exact ((s.keeps_work _ _).completionIrq (List.mem_singleton.mpr rfl)).frame_local
        (f := (·.completionIrq n)) fun dst link m hm => by
          cases List.mem_singleton.mp hm
  · obtain ⟨t, ht, hframe⟩ := State.next_unchanged hexec (if_neg (by
      simpa using (show ¬((s.work.ring n).timer = true ∧ s.work.get (Obj.cqIrqUs n) ≠ 0) from hdue)))
    exact ⟨t, ht, Eq.mpr (if_neg hdue) hframe, hframe.weaken (by simp) (by simp)⟩

end

/-! ## WINDOW_ZEROING_DONE (R417) -/

theorem State.windowZeroingDone_zeroes {s : State} {base len : Nat} {rest : List (Nat × Nat)} (hwf : s.mem.wf = true)
    (hzeroing : s.dev.host.zeroing = (base, len) :: rest) :
    ∃ t, exec (.windowZeroingDone base) s = .next t ∧ t.dev.host.zeroing = rest ∧ (∀ a, base ≤ a → a < base + len → t.byteAt a = 0) ∧
      (∀ a, a < base ∨ base + len ≤ a → t.byteAt a = s.byteAt a) ∧ s.frame t [.mem, .host] (fun _ => False) := by
  have hwork : s.work.windowZeroed base =
      (s.work.memOp (.zero base len)).modHost (fun h => { h with zeroing := h.zeroing.erase (base, len) }) := by
    have hfind : s.work.host.zeroing.find? (fun z => z.1 = base) = some (base, len) := by
      rw [State.work_toDev, hzeroing]
      exact List.find?_cons_of_pos (decide_eq_true rfl)
    rw [Work.windowZeroed, hfind]
  have hbyte (a : Nat) : (s.run (·.windowZeroed base)).byteAt a = if base ≤ a ∧ a < base + len then 0 else s.byteAt a := by
    rw [State.run_byteAt, hwork]
    exact Mem.getCell_apply (.zero base len) a hwf
  refine ⟨_, rfl, ?_, fun a hlow hhigh => ?_, fun a hout => ?_, ?_⟩
  · rw [State.run_host, hwork]
    exact (congrArg (fun l : List (Nat × Nat) => l.erase (base, len)) hzeroing).trans (List.erase_cons_head ..)
  · rw [hbyte, if_pos ⟨hlow, hhigh⟩]
  · rw [hbyte, if_neg (by omega)]
  · have hkeeps : s.keeps (s.work.windowZeroed base) [.mem, .host] (fun _ => False) := by
      rw [hwork]
      exact ((s.keeps_work _ _).memOp (by simp) _).host (by simp) _
    exact hkeeps.frame_silent (congrArg Work.sent hwork)

/-- Settles O53: RING_ENABLE and CQ_HEAD serve a ring as it stands, the timer raises what its tenant has not been told of, and a zeroed backing
is zero. -/
theorem ringsAndWindowsFollowTheHost : Obligations.RingsAndWindowsFollowTheHost := by
  unfold Obligations.RingsAndWindowsFollowTheHost
  refine ⟨fun s r row n v h hv hrefused _ => State.ringEnable_written h hv hrefused, fun s n v hexists => ⟨?_, ?_, ?_⟩, fun s base len rest => ?_⟩
  · exact State.cqHead_ignored hexists
  · exact State.cqHead_makesRoom hexists
  · exact State.cqIrqTimer_raises hexists
  · exact State.windowZeroingDone_zeroes

end Sys2Proof.Machine
end

section
/-! SUPPORT. Links that train, come up and are lost (R378, R382, R399, R402, R409, R579). -/

namespace Sys2Proof.Machine

/-! ## A link after messages are queued (R380, R381) -/

theorem Work.pumpLink_link_of_ne (s : Work) {l m : Nat} (h : m ≠ l) : (s.pumpLink l).link m = s.link m := by
  unfold Work.pumpLink
  split
  · rfl
  · next k _ =>
    have hset (x : Link) : (s.links.set l x).getD m .reset = s.links.getD m .reset := by
      rw [List.getD_eq_getElem?_getD, List.getElem?_set_ne h.symm, ← List.getD_eq_getElem?_getD]
    dsimp only
    split <;> exact hset _

section
variable (P : Link → Prop) (hP : ∀ k : Link, k.state = 3 ∨ k.state = 4 → P k →
  ∀ ws cs us seq a b, P { k with waiting := ws, credits := cs, unacked := us, nextSeq := seq, sinceMgmt := a, sinceBulk := b })
include hP

/-- What a link that carries flits keeps while its transmitter runs, any link keeps while flits are queued. -/
theorem Work.queueFlits_link (s : Work) (l vl n m : Nat) (h : P (s.link m)) : P ((s.queueFlits l vl n).link m) := by
  unfold Work.queueFlits
  split
  · exact h
  · next k hk =>
    extract_lets queued counted
    split
    · exact h
    · next hup =>
      have hcounted : counted.links = queued.links := by
        unfold counted
        split
        · rfl
        · split <;> rfl
      have hlink (x : Nat) : counted.link x = queued.link x := by rw [Work.link, Work.link, hcounted]
      by_cases hm : m = l
      · subst hm
        obtain ⟨hlt, -⟩ := List.getElem?_eq_some_iff.mp hk
        have hself : s.link m = k := by rw [Work.link, List.getD_eq_getElem?_getD, hk]; rfl
        have hqueued : queued.link m = { k with waiting := k.waiting ++ List.replicate n vl } := by
          rw [Work.link, List.getD_eq_getElem?_getD]
          exact congrArg (Option.getD · Link.reset) (List.getElem?_set_self hlt)
        rw [Work.pumpLink_link, hlink, hqueued]
        obtain ⟨ws, cs, us, seq, a, b, hpump⟩ := Link.pump_spec (k.waiting ++ List.replicate n vl).length
          { k with waiting := k.waiting ++ List.replicate n vl }
        rw [hpump]
        exact hP k (by omega) (hself ▸ h) ws cs _ seq a b
      · have hqueued : queued.link m = s.link m := by
          rw [Work.link, List.getD_eq_getElem?_getD, List.getElem?_set_ne (Ne.symm hm), ← List.getD_eq_getElem?_getD]
          rfl
        rw [Work.pumpLink_link_of_ne _ hm, hlink, hqueued]
        exact h

theorem Work.transmit_link (s : Work) (os : List Output) (m : Nat) (h : P (s.link m)) : P ((s.transmit os).link m) := by
  have hfold (ls : List Nat) (vl n : Nat) (w : Work) (hw : P (w.link m)) : P ((ls.foldl (fun (s : Work) l => s.queueFlits l vl n) w).link m) := by
    induction ls generalizing w with
    | nil => exact hw
    | cons l ls ih => exact ih _ (Work.queueFlits_link P hP w l vl n m hw)
  induction os generalizing s with
  | nil => exact h
  | cons o os ih =>
    cases o with
    | fabric dst link msg =>
      simp only [Work.transmit]
      split
      · exact ih s h
      · exact ih _ (hfold _ _ _ _ h)
    | _ => exact ih s h
end

/-- A link that carries nothing is left by a command as its work leaves it. -/
theorem State.run_link_of_down {s : State} {f : Work → Work} {l : Nat} (h3 : ((f s.work).link l).state ≠ 3) (h4 : ((f s.work).link l).state ≠ 4) :
    (s.run f).work.link l = (f s.work).link l :=
  Work.transmit_link (fun k => k = (f s.work).link l) (fun k hup hk => by
    subst hk
    exact absurd hup (not_or.mpr ⟨h3, h4⟩)) (f s.work) (f s.work).sent l rfl

theorem State.run_link_replaysSec (s : State) (f : Work → Work) (l : Nat) :
    ((s.run f).work.link l).replaysSec = ((f s.work).link l).replaysSec :=
  Work.transmit_link (fun k => k.replaysSec = ((f s.work).link l).replaysSec) (fun _ _ hk _ _ _ _ _ _ => hk) (f s.work) (f s.work).sent l rfl

/-! ## A link that is down (R378, R382) -/

/-- The state in which a link that carries nothing waits. -/
def Work.downState (s : Work) (l : Nat) : Nat := if s.get (Obj.linkEnable l) = 0 then 0 else if s.mayTrain l then 2 else 1

theorem Work.downState_le (s : Work) (l : Nat) : s.downState l ≤ 2 := by
  unfold Work.downState
  split
  · omega
  · split <;> omega

theorem Work.downState_congr {s t : Work} {l : Nat} (hcable : (t.link l).cable = (s.link l).cable)
    (henable : t.get (Obj.linkEnable l) = s.get (Obj.linkEnable l)) (hislands : t.islands = s.islands) (hboot : t.boot = s.boot) :
    t.downState l = s.downState l := by
  have hmay : t.mayTrain l = s.mayTrain l := by rw [Work.mayTrain, Work.mayTrain, Work.islandCond, Work.islandCond, hcable, henable, hislands, hboot]
  rw [Work.downState, Work.downState, hmay, henable]

/-- Without a cable a link does not train. -/
theorem Work.downState_of_no_cable {s : Work} {l : Nat} (h : (s.link l).cable = false) : s.downState l ≤ 1 := by
  have hno : s.mayTrain l = false := by simp [Work.mayTrain, h]
  rw [Work.downState, hno]
  split <;> simp

theorem Work.retrain_eq (s : Work) (l : Nat) : s.retrain l = (s.set (Obj.linkPartner l) 0).setLink l ((s.link l).quiet (s.downState l)) := by
  have hdown : (s.set (Obj.linkPartner l) 0).downState l = s.downState l := Work.downState_congr rfl (by rw [Work.set_get, if_neg (by simp)]) rfl rfl
  rw [← hdown]
  rfl

theorem Work.retrain_link (s : Work) (l m : Nat) : (s.retrain l).link m = if m = l then (s.link l).quiet (s.downState l) else s.link m := by
  rw [Work.retrain_eq, Work.setLink_link]
  rfl

theorem Work.retrain_get (s : Work) (l : Nat) (k : Key) : (s.retrain l).get k = if Obj.linkPartner l = k then 0 else s.get k := by
  rw [Work.retrain_eq]
  exact Work.set_get ..

theorem State.keeps.setLinks {s : State} {w : Work} {parts : List StatePart} {keys : Key → Prop} (h : s.keeps w parts keys)
    (hlinks : StatePart.links ∈ parts) (ls : List Link) : s.keeps { w with links := ls } parts keys := by
  refine ⟨fun p hp => ?_, h.2⟩
  cases p with
  | links => exact absurd hlinks hp
  | _ => exact h.1 _ hp

theorem State.keeps.retrain {s : State} {w : Work} {parts : List StatePart} {keys : Key → Prop} (h : s.keeps w parts keys)
    (hlinks : StatePart.links ∈ parts) {l : Nat} (hk : keys (Obj.linkPartner l)) : s.keeps (w.retrain l) parts keys := by
  rw [Work.retrain_eq]
  exact (h.set hk 0).setLinks hlinks _

/-- A link that is lost, outside a group: it is counted, and trains again when it may. -/
def Work.lost (s : Work) (l : Nat) : Work := (s.add (Obj.linkDownEvents l) 1).retrain l

theorem Work.lost_link (s : Work) (l m : Nat) : (s.lost l).link m = if m = l then (s.link l).quiet (s.downState l) else s.link m := by
  have hdown : (s.add (Obj.linkDownEvents l) 1).downState l = s.downState l := Work.downState_congr rfl (by rw [Work.add_get, if_neg (by simp)]) rfl rfl
  rw [Work.lost, Work.retrain_link, hdown]
  rfl

theorem Work.lost_get (s : Work) (l : Nat) {k : Key} (hpartner : k ≠ Obj.linkPartner l) (hevents : k ≠ Obj.linkDownEvents l) :
    (s.lost l).get k = s.get k := by
  rw [Work.lost, Work.retrain_get, if_neg hpartner.symm, Work.add_get, if_neg hevents.symm]

theorem Work.lost_get_events (s : Work) (l : Nat) : (s.lost l).get (Obj.linkDownEvents l) = countPast (Obj.linkDownEvents l) (s.get (Obj.linkDownEvents l) + 1) := by
  rw [Work.lost, Work.retrain_get, if_neg (by simp), Work.add_get, if_pos rfl]

theorem State.keeps.lost {s : State} {w : Work} {parts : List StatePart} {keys : Key → Prop} (h : s.keeps w parts keys)
    (hlinks : StatePart.links ∈ parts) {l : Nat} (hevents : keys (Obj.linkDownEvents l)) (hpartner : keys (Obj.linkPartner l)) :
    s.keeps (w.lost l) parts keys := (h.add hevents 1).retrain hlinks hpartner

/-- A link that carries flits outside a group is lost, and no load uses it. -/
theorem Work.linkDown_of_ungrouped {s : Work} {l : Nat} (hload : s.res.load = none)
    (hup : (s.link l).state = 3 ∨ ((s.link l).state = 4 ∧ s.get Obj.groupState ≠ 2)) : s.linkDown l = s.lost l := by
  have hsource : (s.lost l).loseSource l = s.lost l := by
    have hnone : (s.lost l).res.load = none := hload
    simp only [Work.loseSource, hnone]
  have hactive : (s.link l).state = 4 → (s.lost l).activeLost l (s.link l).partner = s.lost l := fun h4 => by
    have hungrouped : (s.lost l).formed = false := by
      rw [Work.formed, Work.lost_get s l (by simp) (by simp)]
      exact decide_eq_false (hup.elim (fun h3 => absurd (h3.symm.trans h4) (by decide)) And.right)
    unfold Work.activeLost
    exact if_pos (by rw [hungrouped]; rfl)
  unfold Work.linkDown
  extract_lets k counted lost
  rw [if_neg (by simp only [k, linkUp, linkActive]; omega)]
  change (if k.state = linkActive then ((s.lost l).loseSource l).activeLost l k.partner else (s.lost l).loseSource l) = s.lost l
  rw [hsource]
  split
  · exact hactive ‹_›
  · rfl

theorem linkDown_of_quiet {s t : State} {l : Nat} {k : Link} (h : t.work.link l = k.quiet (s.work.downState l)) : LinkDown s t l := by
  rw [LinkDown, h]
  exact ⟨rfl, rfl, rfl, rfl⟩

theorem Link.quiet_down {s : Work} {l : Nat} (k : Link) : (k.quiet (s.downState l)).state ≠ 3 ∧ (k.quiet (s.downState l)).state ≠ 4 := by
  have hle := s.downState_le l
  simp only [Link.quiet]
  omega

end Sys2Proof.Machine
end

section
/-! SUPPORT. The commands by which links train, come up, are lost, and follow their cables (R378, R382, R399, R409, R579). -/

namespace Sys2Proof.Machine

/-! ## The end of training (R378) -/

/-- A link whose training has failed once more. -/
def Link.failed (k : Link) (locked : Nat) : Link :=
  { k with lock := locked % 256, fails := k.fails + 1, state := if 3 ≤ k.fails + 1 then 5 else 2 }

/-- A link that has come UP. -/
def Link.up (k : Link) (p : Identity) (reversed : Bool) : Link :=
  { k.quiet linkUp with lock := 255, reversed := reversed, partner := some p, credits := creditsAtUp, fails := 0, lastSerial := p.serial }

section
variable (s : Work) (l : Nat) (p : Identity) (ns : Nat) (rev : Bool)

theorem Work.linkUpWith_link (m : Nat) : (s.linkUpWith l p ns rev).link m = if m = l then (s.link l).up p rev else s.link m := s.setLink_link l _ m

theorem Work.linkUpWith_get (k : Key) : (s.linkUpWith l p ns rev).get k =
    if Obj.linkLatencyNs l = k then objValue (Obj.linkLatencyNs l) ns else if Obj.linkPartner l = k then p.serial else s.get k := by
  refine (Work.set_get _ _ _ _).trans (if_congr Iff.rfl rfl ?_)
  exact Work.set_get _ _ _ _

theorem State.keeps.linkUpWith {s : State} {w : Work} {parts : List StatePart} {keys : Key → Prop} (h : s.keeps w parts keys)
    (hlinks : StatePart.links ∈ parts) (hpartner : keys (Obj.linkPartner l)) (hlatency : keys (Obj.linkLatencyNs l)) :
    s.keeps (w.linkUpWith l p ns rev) parts keys := ((h.setLinks hlinks _).set hpartner _).set hlatency _
end

section
variable {s : Work} {l locked ns : Nat} {q : Option Identity} {rev : Bool}

theorem Work.trained_of_not_training (h : (s.link l).state ≠ 2) : s.trained l locked q ns rev = s := if_pos h

theorem Work.trained_of_failed (hstate : (s.link l).state = 2) (h : q = none ∨ locked % 256 ≠ 255) :
    s.trained l locked q ns rev = s.setLink l ((s.link l).failed locked) := by
  refine (if_neg (not_not.mpr hstate)).trans ?_
  cases q with
  | none => rfl
  | some p => exact if_pos (h.resolve_left nofun)

theorem Work.trained_of_locked {p : Identity} (hstate : (s.link l).state = 2) (hlocked : locked % 256 = 255) :
    s.trained l locked (some p) ns rev =
      if (s.link l).lastSerial ≠ 0 ∧ (s.link l).lastSerial ≠ p.serial then (s.linkUpWith l p ns rev).linkDown l else s.linkUpWith l p ns rev := by
  refine (if_neg (not_not.mpr hstate)).trans ((if_neg (not_not.mpr hlocked)).trans (if_congr ?_ rfl rfl))
  simp
end

/-! ## What a link that trains does -/

section
variable {s : State} {l : Nat}

theorem State.inside_unchanged {c : Instr} {i : Nat} {g : Work → Work} (hexec : exec c s = s.next (fun w => w.inside i g))
    (h : s.work.islandOpen i = false ∨ g s.work = s.work) : ∃ t, exec c s = .next t ∧ s.frame t [] (fun _ => False) := by
  refine State.next_unchanged hexec ?_
  unfold Work.inside
  split
  next hopen => exact h.resolve_left (by rw [hopen]; exact Bool.noConfusion)
  next => rfl

section
variable (hl : l < 16) (locked ns : Nat) (q : Option Identity) (rev : Bool)
include hl

theorem State.linkTrainingDone_ignored (h : (s.work.link l).state ≠ 2 ∨ s.work.islandOpen (0x98 + l) = false) :
    ∃ t, exec (.linkTrainingDone l locked q ns rev) s = .next t ∧ s.frame t [] (fun _ => False) :=
  State.inside_unchanged (State.nextIf_true (decide_eq_true hl)) (h.symm.imp id Work.trained_of_not_training)

variable (hopen : s.work.islandOpen (0x98 + l) = true) (hstate : (s.work.link l).state = 2)
include hopen hstate

theorem State.linkTrainingDone_failed (hfail : q = none ∨ locked % 256 ≠ 255) :
    ∃ t, exec (.linkTrainingDone l locked q ns rev) s = .next t ∧ (t.work.link l).fails = (s.work.link l).fails + 1 ∧
      (t.work.link l).state = (if 3 ≤ (s.work.link l).fails + 1 then 5 else 2) ∧ s.frame t [.links] (fun _ => False) := by
  have hwork := Work.trained_of_failed (ns := ns) (rev := rev) hstate hfail
  have hunqueued : unqueued (s.work.trained l locked q ns rev).sent := unqueued_of_nil (congrArg Work.sent hwork)
  have hlink : (s.run (·.trained l locked q ns rev)).work.link l = (s.work.link l).failed locked := by
    rw [State.run_link_unqueued hunqueued, hwork, Work.setLink_link, if_pos rfl]
  refine ⟨_, State.exec_flit rfl hl hopen, congrArg Link.fails hlink, congrArg Link.state hlink, State.keeps.frame_unqueued hunqueued ?_⟩
  rw [hwork]
  exact (s.keeps_work _ _).setLinks (by simp) _

variable {p : Identity} (hlocked : locked % 256 = 255)
include hlocked

theorem State.linkTrainingDone_up (hsame : (s.work.link l).lastSerial = 0 ∨ (s.work.link l).lastSerial = p.serial) :
    ∃ t, exec (.linkTrainingDone l locked (some p) ns rev) s = .next t ∧ (t.work.link l).state = 3 ∧ (t.work.link l).partner = some p ∧
      (t.work.link l).credits = creditsAtUp ∧ (t.work.link l).fails = 0 ∧ t.val (Obj.linkPartner l) = p.serial ∧
      t.val (Obj.linkLatencyNs l) = objValue (Obj.linkLatencyNs l) ns ∧ s.frame t [.links] (fun k => k = Obj.linkPartner l ∨ k = Obj.linkLatencyNs l) := by
  have hwork : s.work.trained l locked (some p) ns rev = s.work.linkUpWith l p ns rev :=
    (Work.trained_of_locked hstate hlocked).trans (if_neg (by tauto))
  have hunqueued : unqueued (s.work.trained l locked (some p) ns rev).sent := unqueued_of_nil (congrArg Work.sent hwork)
  have hlink : (s.run (·.trained l locked (some p) ns rev)).work.link l = (s.work.link l).up p rev := by
    rw [State.run_link_unqueued hunqueued, hwork, Work.linkUpWith_link, if_pos rfl]
  have hval (k : Key) : (s.run (·.trained l locked (some p) ns rev)).val k = (s.work.linkUpWith l p ns rev).get k := by
    rw [State.run_val_unqueued hunqueued, hwork]
  refine ⟨_, State.exec_flit rfl hl hopen, congrArg Link.state hlink, congrArg Link.partner hlink, congrArg Link.credits hlink,
    congrArg Link.fails hlink, ?_, ?_, State.keeps.frame_unqueued hunqueued ?_⟩
  · rw [hval, Work.linkUpWith_get, if_neg (by simp), if_pos rfl]
  · rw [hval, Work.linkUpWith_get, if_pos rfl]
  · rw [hwork]
    exact (s.keeps_work _ _).linkUpWith l p ns rev (by simp) (.inl rfl) (.inr rfl)

/-- Another partner than before takes the link down as soon as it is up. -/
theorem State.linkTrainingDone_stranger (hload : s.dev.res.load = none) (hlast : (s.work.link l).lastSerial ≠ 0)
    (hother : (s.work.link l).lastSerial ≠ p.serial) :
    ∃ t, exec (.linkTrainingDone l locked (some p) ns rev) s = .next t ∧ s.counted t (Obj.linkDownEvents l) 1 ∧ LinkDown s t l ∧
      s.frame t [.links] (fun k => k = Obj.linkDownEvents l ∨ k = Obj.linkPartner l ∨ k = Obj.linkLatencyNs l) := by
  have hup : (s.work.linkUpWith l p ns rev).link l = (s.work.link l).up p rev := (Work.linkUpWith_link s.work l p ns rev l).trans (if_pos rfl)
  have hwork : s.work.trained l locked (some p) ns rev = (s.work.linkUpWith l p ns rev).lost l :=
    (Work.trained_of_locked hstate hlocked).trans ((if_pos ⟨hlast, hother⟩).trans (Work.linkDown_of_ungrouped hload (.inl (by rw [hup]; rfl))))
  have hunqueued : unqueued (s.work.trained l locked (some p) ns rev).sent := unqueued_of_nil (congrArg Work.sent hwork)
  have hdown : (s.work.linkUpWith l p ns rev).downState l = s.work.downState l := by
    refine Work.downState_congr ?_ ?_ rfl rfl
    · rw [hup]
      rfl
    · rw [Work.linkUpWith_get, if_neg (by simp), if_neg (by simp)]
  have hget : (s.work.linkUpWith l p ns rev).get (Obj.linkDownEvents l) = s.work.get (Obj.linkDownEvents l) := by
    rw [Work.linkUpWith_get, if_neg (by simp), if_neg (by simp)]
  refine ⟨_, State.exec_flit rfl hl hopen, State.run_counted (by simp [linkCounter]) ?_, linkDown_of_quiet (k := (s.work.link l).up p rev) ?_,
    State.keeps.frame_unqueued hunqueued ?_⟩
  · exact Work.counted_of_get_eq (by rw [hwork, Work.lost_get_events, hget])
  · rw [State.run_link_unqueued hunqueued, hwork, Work.lost_link, if_pos rfl, hup, hdown]
  · rw [hwork]
    exact ((s.keeps_work _ _).linkUpWith l p ns rev (by simp) (.inr (.inl rfl)) (.inr (.inr rfl))).lost (by simp) (.inl rfl) (.inr (.inl rfl))
end

/-! ## The timers of a link (R378, R399, R409) -/

/-- A link that may fail its training again. -/
def Link.afresh (k : Link) : Link := { k with fails := 0 }

theorem State.linkRetrainTimer_retrains (hl : l < 16) :
    ∃ t, exec (.linkRetrainTimer l) s = .next t ∧
      (if (s.work.link l).state = 5 then (t.work.link l).fails = 0 ∧ LinkDown s t l ∧ s.frame t [.links] (fun k => k = Obj.linkPartner l)
       else s.frame t [] (fun _ => False)) := by
  have hexec : exec (.linkRetrainTimer l) s = s.next (·.retrainTimer l) := State.nextIf_true (decide_eq_true hl)
  split
  next hstate =>
    have hwork : s.work.retrainTimer l = (s.work.setLink l (s.work.link l).afresh).retrain l := if_pos hstate
    have hself : (s.work.setLink l (s.work.link l).afresh).link l = (s.work.link l).afresh := (s.work.setLink_link l _ l).trans (if_pos rfl)
    have hdown : (s.work.setLink l (s.work.link l).afresh).downState l = s.work.downState l :=
      Work.downState_congr (by rw [hself]; rfl) rfl rfl rfl
    have hunqueued : unqueued (s.work.retrainTimer l).sent := unqueued_of_nil (congrArg Work.sent hwork)
    have hlink : (s.run (·.retrainTimer l)).work.link l = (s.work.link l).afresh.quiet (s.work.downState l) := by
      rw [State.run_link_unqueued (f := (·.retrainTimer l)) hunqueued, hwork, Work.retrain_link, if_pos rfl, hself, hdown]
    refine ⟨_, hexec, congrArg Link.fails hlink, linkDown_of_quiet hlink, State.keeps.frame_unqueued (f := (·.retrainTimer l)) hunqueued ?_⟩
    rw [hwork]
    exact ((s.keeps_work _ _).setLinks (by simp) _).retrain (by simp) rfl
  next hstate => exact State.next_unchanged hexec (if_neg hstate)

/-- The latency of a link that carries flits, and the count of its replays begun anew. -/
def Work.latencyTaken (s : Work) (l ns : Nat) : Work :=
  (if (s.link l).carries then s.set (Obj.linkLatencyNs l) (objValue (Obj.linkLatencyNs l) ns) else s).setLink l { s.link l with replaysSec := 0 }

theorem Work.latencyTaken_link (s : Work) (l ns : Nat) : ((s.latencyTaken l ns).link l).replaysSec = 0 := by
  rw [Work.latencyTaken, Work.setLink_link, if_pos rfl]

theorem Work.latencyTaken_get {s : Work} (ns : Nat) (h : (s.link l).carries = true) :
    (s.latencyTaken l ns).get (Obj.linkLatencyNs l) = objValue (Obj.linkLatencyNs l) ns := by
  rw [Work.latencyTaken, if_pos h]
  exact (Work.set_get ..).trans (if_pos rfl)

theorem State.linkLatencyMeasure_takes (hl : l < 16) (ns : Nat) :
    ∃ t, exec (.linkLatencyMeasure l ns) s = .next t ∧ (t.work.link l).replaysSec = 0 ∧
      ((s.work.link l).carries = true → t.val (Obj.linkLatencyNs l) = objValue (Obj.linkLatencyNs l) ns) ∧
      (s.val Obj.linkReplayLimit = 0 → s.frame t [.links] (fun k => k = Obj.linkLatencyNs l)) := by
  have hlimit : (s.work.latencyTaken l ns).get Obj.linkReplayLimit = s.work.get Obj.linkReplayLimit := by
    unfold Work.latencyTaken
    split
    · exact (Work.set_get ..).trans (if_neg (by simp))
    · rfl
  have hwork : s.work.latency l ns =
      if s.work.get Obj.linkReplayLimit ≠ 0 ∧ s.work.get Obj.linkReplayLimit < (s.work.link l).replaysSec then
        (s.work.latencyTaken l ns).log 0 0x0007 7 0xFF l 0xFFFF (s.work.link l).replaysSec
      else s.work.latencyTaken l ns := by
    rw [← hlimit]
    rfl
  have hlog : ∃ rel objs os, s.work.latency l ns = { s.work.latencyTaken l ns with rel := rel, objs := objs, sent := os } ∧
      (s.work.latency l ns).get (Obj.linkLatencyNs l) = (s.work.latencyTaken l ns).get (Obj.linkLatencyNs l) := by
    rw [hwork]
    split
    · obtain ⟨rel, objs, os, hlog⟩ := (s.work.latencyTaken l ns).log_rest 0 0x0007 7 0xFF l 0xFFFF (s.work.link l).replaysSec
      exact ⟨rel, objs, _, hlog, Work.log_get _ _ _ _ _ _ _ _ (by simp [attentionKey])⟩
    · exact ⟨_, _, _, rfl, rfl⟩
  obtain ⟨rel, objs, os, hrest, hget⟩ := hlog
  refine ⟨_, State.nextIf_true (decide_eq_true hl), ?_, fun hcarries => ?_, fun hzero => ?_⟩
  · rw [State.run_link_replaysSec, hrest]
    exact s.work.latencyTaken_link l ns
  · rw [State.run_val _ _ _ (by simp [linkCounter]), hget]
    exact Work.latencyTaken_get ns hcarries
  · have hnolog : s.work.latency l ns = s.work.latencyTaken l ns := hwork.trans (if_neg fun h => h.1 hzero)
    have hsent : (s.work.latencyTaken l ns).sent = [] := by
      unfold Work.latencyTaken
      split <;> rfl
    refine State.keeps.frame_unqueued (f := (·.latency l ns)) (unqueued_of_nil (by rw [hnolog]; exact hsent)) ?_
    rw [hnolog, Work.latencyTaken]
    refine State.keeps.setLinks ?_ (by simp) _
    split
    · exact (s.keeps_work _ (fun k => k = Obj.linkLatencyNs l)).set rfl _
    · exact s.keeps_work _ _

end

end Sys2Proof.Machine
end

section
/-! SUPPORT. LINK_ENABLE, the loss of a link, and its cable (R382, R402, R409, R579). -/

namespace Sys2Proof.Machine

/-! ## LINK_ENABLE (R378, R409) -/

/-- LINK_ENABLE with a new value. -/
def Work.enabled (s : Work) (l v : Nat) : Work := (s.set (Obj.linkEnable l) v).setLink l (s.link l).afresh

theorem Work.enabled_link (s : Work) (l v : Nat) : (s.enabled l v).link l = (s.link l).afresh :=
  ((s.set (Obj.linkEnable l) v).setLink_link l _ l).trans (if_pos rfl)

theorem Work.setLinkEnable_of_change {s : Work} {l v : Nat} (hv : v ≠ s.get (Obj.linkEnable l)) (hload : s.res.load = none) :
    s.setLinkEnable l v = (s.enabled l v).retrain l := by
  refine (if_neg hv.symm).trans ?_
  change ((s.enabled l v).retrain l).loseSource l = (s.enabled l v).retrain l
  have hnone : ((s.enabled l v).retrain l).res.load = none := hload
  simp only [Work.loseSource, hnone]

theorem Work.putValue_linkEnable {s : Work} {l v : Nat} (hv : v ≠ s.get (Obj.linkEnable l)) (hload : s.res.load = none) :
    s.putValue (Obj.linkEnable l) v = (s.enabled l v).retrain l := by
  have hrest : s.resting 0x8201 = false := by simp [Work.resting, managerOnly]
  rw [← Work.setLinkEnable_of_change hv hload]
  simp [Work.putValue, hrest]

/-- What any LINK_ENABLE's row says. -/
theorem rowOf_linkEnable : ∀ l < 16, (rowOf (Obj.linkEnable l)).access = .rw ∧ (rowOf (Obj.linkEnable l)).cls ≠ .p ∧
    (rowOf (Obj.linkEnable l)).min = 0 ∧ (rowOf (Obj.linkEnable l)).max = 1 := by
  decide +kernel

theorem Work.valueRefused_linkEnable (s : Work) (o : Origin) (l v : Nat) : s.valueRefused o (Obj.linkEnable l) v =
    if (s.link l).state = linkActive ∧ v ≠ s.get (Obj.linkEnable l) then some (8, s.get Obj.powerState) else none := by
  simp [Work.valueRefused]

section
variable {s : State} {r : Req} {row : Row} {l v : Nat}

theorem State.linkEnable_refused (h : s.grantsAt { r with sub := l + 1 } row (Obj.linkEnable l) v) (hl : l < 16) (hv : v < 2)
    (hactive : (s.work.link l).state = 4) (hchange : v ≠ s.val (Obj.linkEnable l)) :
    ∃ t, exec (.linkEnable { r with sub := l + 1 }) s = .next t ∧
      s.refusedWith t 2 (reqAt { r with sub := l + 1 } (Obj.linkEnable l).index (l + 1)) 8 (s.val Obj.powerState) ∧
      s.frame t [.dict, .links] (fun k => answerKey k ∨ k = Obj.requestsRefused) := by
  obtain ⟨haccess, -, hmin, hmax⟩ := rowOf_linkEnable l hl
  rw [State.grants.rowOf_eq h] at haccess hmin hmax
  have hrefused (o : Origin) : s.work.valueRefused o (Obj.linkEnable l) v = some (8, s.val Obj.powerState) :=
    (s.work.valueRefused_linkEnable o l v).trans (if_pos ⟨hactive, hchange⟩)
  refine (State.grants.takes h).refused (c := .linkEnable { r with sub := l + 1 }) (by decide) (fun _ => rfl) (8, s.val Obj.powerState) fun ws p f => ?_
  rw [State.grants.serveOp_eq h ws p f, if_neg (by simp [haccess])]
  have hrange : ¬ (v < row.min ∨ row.max < v) := by omega
  simp only [Work.serveValue, if_neg hrange, seen_origin, Work.atTurn_valueRefused, hrefused]

theorem State.linkEnable_written (h : s.grantsAt { r with sub := l + 1 } row (Obj.linkEnable l) v) (hl : l < 16) (hv : v < 2)
    (hidle : (s.work.link l).state ≠ 4) (hchange : v ≠ s.val (Obj.linkEnable l)) (hload : s.dev.res.load = none) :
    ∃ t, exec (.linkEnable { r with sub := l + 1 }) s = .next t ∧ s.acceptedAt t { r with sub := l + 1 } (Obj.linkEnable l) ∧
      t.val (Obj.linkEnable l) = v ∧ (v = 0 → (t.work.link l).state = 0) ∧ (t.work.link l).partner = none ∧
      s.frame t [.dict, .links] (fun k => k = Obj.linkEnable l ∨ k = Obj.linkPartner l ∨ answerKey k) := by
  obtain ⟨haccess, hcls, hmin, hmax⟩ := rowOf_linkEnable l hl
  rw [State.grants.rowOf_eq h] at haccess hcls hmin hmax
  obtain ⟨ws, p, f, hexec⟩ := State.takes.exec_eq (c := .linkEnable { r with sub := l + 1 }) (State.grants.takes h) (by decide) (fun _ => rfl)
  have hserve := State.grants.serveOp_value h (by simp [haccess]) (by omega) (by omega)
    ((s.work.valueRefused_linkEnable _ l v).trans (if_neg fun hboth => hidle hboth.1)) ws p f
  have hput : (s.work.atTurn ws p f).putValue (Obj.linkEnable l) v = ((s.work.atTurn ws p f).enabled l v).retrain l :=
    Work.putValue_linkEnable hchange hload
  rw [if_neg (by simp [haccess]), if_neg hcls, hput] at hserve
  generalize hw : (s.work.atTurn ws p f).enabled l v = w at hserve
  have hget (k : Key) : w.get k = if Obj.linkEnable l = k then v else s.work.get k := by
    rw [← hw]
    exact Work.set_get _ _ _ _
  have hkeeps : s.keeps (w.retrain l) [.dict, .links] (fun k => k = Obj.linkEnable l ∨ k = Obj.linkPartner l ∨ answerKey k) := by
    rw [← hw]
    exact (((State.keeps_atTurn (by simp) ws p f).set (.inl rfl) v).setLinks (by simp) _).retrain (by simp) (.inr (.inl rfl))
  have hlinks (q : Req) : ((w.retrain l).respond 2 q 0 0 []).link l = (w.link l).quiet (w.downState l) := by
    obtain ⟨objs, windows, os, hrespond⟩ := (w.retrain l).respondFrom_eq (w.retrain l).ownDevice 2 q 0 0 []
    rw [Work.respond, hrespond]
    exact (Work.retrain_link w l l).trans (if_pos rfl)
  generalize hu : (s.work.atTurn ws p f).serveOp 2 (seen 2 (reqAt { r with sub := l + 1 } (Obj.linkEnable l).index (Obj.linkEnable l).sub)) = u
    at hexec hserve
  have hulink : u.link l = (w.link l).quiet (w.downState l) := by rw [hserve, hlinks]
  have hdown := Link.quiet_down (s := w) (l := l) (w.link l)
  have hlink : (s.run fun _ => u).work.link l = (w.link l).quiet (w.downState l) :=
    (State.run_link_of_down (f := fun _ => u) (by rw [hulink]; exact hdown.1) (by rw [hulink]; exact hdown.2)).trans hulink
  refine ⟨_, hexec, State.answer_mem_run hserve ?_, ?_, fun hzero => ?_, congrArg Link.partner hlink, hkeeps.frame_respond hserve (by simp) (by simp)
    (fun _ hk => .inr (.inr hk)) (.inl rfl)⟩
  · rw [Work.retrain_get, if_neg (by simp), hget, if_neg (by simp)]
    rfl
  · rw [State.run_val _ _ _ (by simp [linkCounter]), hserve, Work.respond_get_of_ok, if_neg (by simp), Work.retrain_get, if_neg (by simp), hget, if_pos rfl]
  · refine (congrArg Link.state hlink).trans (if_pos ?_)
    rw [hget, if_pos rfl, hzero]
end

end Sys2Proof.Machine
end

section
/-! SUPPORT. The loss of a link, in a group and outside one, and its cable (R382, R402, R579). -/

namespace Sys2Proof.Machine

/-! ## A fault of the group, at a worker (R402, R403) -/

/-- What a notice of a fault may change of the objects, beside the fault's own count and GROUP_STATE. -/
def noticeKey (k : Key) : Prop :=
  attentionKey k ∨ k = Obj.lastGroupFault ∨ k = Obj.requestsServed ∨ k = Obj.requestsRefused ∨ k = Obj.groupPower

/-- The second work has the links of the first, and its values but for those of a notice. -/
structure Work.noticedOnly (s t : Work) : Prop where
  links : t.links = s.links
  get : ∀ k, ¬ noticeKey k → t.get k = s.get k

namespace Work.noticedOnly

theorem of_eq {s t : Work} (hlinks : t.links = s.links) (hobjs : t.objs = s.objs) : s.noticedOnly t :=
  ⟨hlinks, fun k _ => by rw [Work.get, Work.get, hobjs]⟩

theorem of_respond (s : Work) (op : Nat) (r : Req) (status detail : Nat) (payload : List Byte) :
    s.noticedOnly (s.respond op r status detail payload) := by
  obtain ⟨objs, windows, os, hrespond, -, hget⟩ := s.respondFrom_spec s.ownDevice op r status detail payload
  rw [Work.respond, hrespond]
  exact ⟨rfl, fun k hk => hget k (fun h => hk (.inr (.inr (.inl h)))) fun h => hk (.inr (.inr (.inr (.inl h))))⟩

section
variable {s t : Work} (h : s.noticedOnly t)
include h

theorem trans {u : Work} (g : t.noticedOnly u) : s.noticedOnly u :=
  ⟨g.links.trans h.links, fun k hk => (g.get k hk).trans (h.get k hk)⟩

theorem eq {u : Work} (hlinks : u.links = t.links) (hobjs : u.objs = t.objs) : s.noticedOnly u := h.trans (of_eq hlinks hobjs)

theorem foldl {α : Type} {f : Work → α → Work} (hf : ∀ (u : Work) a, u.noticedOnly (f u a)) (l : List α) : s.noticedOnly (l.foldl f t) := by
  induction l generalizing t with
  | nil => exact h
  | cons a l ih => exact ih (h.trans (hf t a))

theorem set {k : Key} (hk : noticeKey k) (v : Nat) : s.noticedOnly (t.set k v) :=
  h.trans ⟨rfl, fun q hq => (Work.set_get _ _ _ _).trans (if_neg (by rintro rfl; exact hq hk))⟩

theorem log (severity code unitKind slot unit tenant detail : Nat) : s.noticedOnly (t.log severity code unitKind slot unit tenant detail) := by
  obtain ⟨rel, objs, os, hlog⟩ := t.log_rest severity code unitKind slot unit tenant detail
  refine h.trans ⟨?_, fun k hk => Work.log_get _ _ _ _ _ _ _ _ fun hatt => hk (.inl hatt)⟩
  rw [hlog]

theorem flood (ok : Nat → Bool) (m : FabricMsg) : s.noticedOnly (t.flood ok m) := by
  unfold Work.flood
  refine h.foldl (fun u l => ?_) _
  split
  · split
    · exact of_eq rfl rfl
    · exact of_eq rfl rfl
  · exact of_eq rfl rfl

theorem failForwarded : s.noticedOnly t.failForwarded := by
  unfold Work.failForwarded
  extract_lets l dict dropped
  have hdropped : s.noticedOnly dropped := h.eq rfl rfl
  clear_value dropped
  refine hdropped.foldl (fun u f => ?_) _
  split
  · exact of_eq rfl rfl
  · exact of_respond _ _ _ _ _ _

theorem discardStep : s.noticedOnly t.discardStep := h.eq rfl rfl

theorem endGroupPower : s.noticedOnly t.endGroupPower := by
  unfold Work.endGroupPower
  extract_lets boot stopped restored
  have hrestored : s.noticedOnly restored := h.eq rfl rfl
  clear_value restored
  split
  · obtain ⟨os, -, hend⟩ := restored.cmdEnd_spec Obj.groupPower 4 0xD2
    rw [hend]
    exact (hrestored.set (.inr (.inr (.inr (.inr rfl)))) _).eq rfl rfl
  · exact hrestored
end
end Work.noticedOnly

/-- ACTIVE links that are UP alone, as the group has ended. -/
def Work.linksReturned (s : Work) : Work :=
  { s with links := s.links.map (fun (k : Link) => if k.state = linkActive then { k with state := linkUp } else k) }

theorem Work.linksReturned_link (s : Work) {l : Nat} (h : (s.link l).state ≠ 4) : s.linksReturned.link l = s.link l := by
  unfold Work.linksReturned Work.link at *
  simp only [List.getD_eq_getElem?_getD, List.getElem?_map] at *
  cases hk : s.links[l]? with
  | none => rfl
  | some k =>
    rw [hk] at h
    exact if_neg h

/-- A fault of the group in force, at a device that does not manage it: counted, and the group is FAULT. -/
theorem Work.groupFault_at_worker {s : Work} {n : Notice} (hformed : s.formed = true) (hepoch : n.epoch = s.get Obj.groupEpoch)
    (hrole : s.get Obj.role ≠ 1) (hcause : n.cause ≠ 9) :
    (∀ k, ¬ noticeKey k → k ≠ Obj.groupFaults → k ≠ Obj.groupState → (s.groupFault n).get k = s.get k) ∧
      (s.groupFault n).get Obj.groupFaults = countPast Obj.groupFaults (s.get Obj.groupFaults + 1) ∧ (s.groupFault n).get Obj.groupState = 3 ∧
      ∀ l, (s.link l).state ≠ 4 → (s.groupFault n).link l = s.link l := by
  unfold Work.groupFault
  extract_lets counted last logged flooded dropped vars links fallen failed cleared ended
  rw [if_neg (by simp [hformed, hepoch])]
  have hself : counted.noticedOnly counted := .of_eq rfl rfl
  have hlast : counted.noticedOnly last := hself.set (.inr (.inl rfl)) _
  have hlogged : counted.noticedOnly logged := hlast.log _ _ _ _ _ _ _
  have hflooded : counted.noticedOnly flooded := hlogged.flood _ _
  have hdropped : counted.noticedOnly dropped := hflooded.discardStep.failForwarded
  clear_value dropped
  have hfallen (k : Key) : fallen.get k = if Obj.groupState = k then 3 else dropped.get k := (links.set Obj.groupState 3).modGroup_get _ k |>.trans (Work.set_get _ _ _ _)
  have hlinks : fallen.links = vars.linksReturned.links := rfl
  have hworker : fallen.isManager = false := by
    rw [Work.isManager, hfallen, if_neg (by simp), hdropped.get _ (by simp [noticeKey, attentionKey]), Work.add_get, if_neg (by simp)]
    exact decide_eq_false hrole
  have hcleared : cleared = fallen := if_neg (by rw [hworker]; exact Bool.false_ne_true)
  have hended : fallen.noticedOnly ended := (Work.noticedOnly.of_eq (s := fallen) (by rw [hcleared]) (by rw [hcleared])).endGroupPower
  have hstays : ended.isManager = false := by
    rw [Work.isManager, hended.get _ (by simp [noticeKey, attentionKey])]
    exact hworker
  rw [if_neg hcause, if_neg (by simp [hstays])]
  have hget (k : Key) (hk : ¬ noticeKey k) : ended.get k = if Obj.groupState = k then 3 else counted.get k := by
    rw [hended.get k hk, hfallen, hdropped.get k hk]
  refine ⟨fun k hk hfaults hstate => ?_, ?_, ?_, fun l hl => ?_⟩
  · rw [hget k hk, if_neg hstate.symm, Work.add_get, if_neg hfaults.symm]
  · rw [hget _ (by simp [noticeKey, attentionKey]), if_neg (by simp), Work.add_get, if_pos rfl]
  · rw [hget _ (by simp [noticeKey, attentionKey]), if_pos rfl]
  · have hsame : vars.link l = s.link l := by rw [Work.link, Work.link, show vars.links = dropped.links from rfl, hdropped.links]; rfl
    rw [Work.link, hended.links, hlinks, ← Work.link, Work.linksReturned_link _ (by rw [hsame]; exact hl), hsame]

/-! ## A link that is lost (R382) -/

section
variable {s : State} {l : Nat} {c : Instr}

theorem State.exec_linkLost (hl : l < 16) (hc : (∃ lane, lane < 8 ∧ c = .laneLockLoss l lane) ∨ c = .flitTimeout l) :
    exec c s = .next (s.run (·.linkDown l)) := by
  rcases hc with ⟨lane, hlane, rfl⟩ | rfl
  · exact State.nextIf_true (by simp [hl, hlane])
  · exact State.nextIf_true (by simp [hl])

theorem State.link_lost (hl : l < 16) (hc : (∃ lane, lane < 8 ∧ c = .laneLockLoss l lane) ∨ c = .flitTimeout l) (hload : s.dev.res.load = none)
    (hup : (s.work.link l).state = 3 ∨ ((s.work.link l).state = 4 ∧ s.val Obj.groupState ≠ 2)) :
    ∃ t, exec c s = .next t ∧ s.counted t (Obj.linkDownEvents l) 1 ∧ LinkDown s t l ∧
      s.frame t [.links] (fun k => k = Obj.linkDownEvents l ∨ k = Obj.linkPartner l) := by
  have hwork : s.work.linkDown l = s.work.lost l := Work.linkDown_of_ungrouped hload hup
  have hunqueued : unqueued (s.work.linkDown l).sent := unqueued_of_nil (congrArg Work.sent hwork)
  refine ⟨_, State.exec_linkLost hl hc, State.run_counted (by simp [linkCounter]) (Work.counted_of_get_eq ?_), linkDown_of_quiet (k := s.work.link l) ?_,
    State.keeps.frame_unqueued (f := (·.linkDown l)) hunqueued ?_⟩
  · rw [hwork, Work.lost_get_events]
  · rw [State.run_link_unqueued (f := (·.linkDown l)) hunqueued, hwork, Work.lost_link, if_pos rfl]
  · rw [hwork]
    exact (s.keeps_work _ _).lost (by simp) (.inl rfl) (.inr rfl)

/-- An ACTIVE link of a worker's group that is lost is a fault of the group, but for the link to the standby. -/
theorem Work.linkDown_of_worker {s : Work} {p : Identity} (hload : s.res.load = none) (hactive : (s.link l).state = 4)
    (hpartner : (s.link l).partner = some p) (hformed : s.get Obj.groupState = 2) (hrole : s.get Obj.role = 3) (hstandby : s.idOfSerial p.serial ≠ 1) :
    s.linkDown l = (s.lost l).groupFatal 1 (s.idOfSerial p.serial) l := by
  have hnone : (s.lost l).res.load = none := hload
  have hgroup : (s.lost l).formed = true := by
    rw [Work.formed, Work.lost_get s l (by simp) (by simp)]
    exact decide_eq_true hformed
  have hworker : (s.lost l).isStandby = false := by
    rw [Work.isStandby, Work.lost_get s l (by simp) (by simp), hrole]
    rfl
  have hlost : (s.lost l).activeLost l (some p) = (s.lost l).groupFatal 1 (s.idOfSerial p.serial) l := by
    unfold Work.activeLost
    rw [hgroup, hworker]
    exact (if_neg (by simp)).trans ((if_neg hstandby).trans (if_neg (by simp)))
  unfold Work.linkDown
  extract_lets k counted lost
  rw [if_neg (by simp only [k, linkUp, linkActive]; omega)]
  change (if k.state = linkActive then ((s.lost l).loseSource l).activeLost l k.partner else (s.lost l).loseSource l) = _
  have hk : k.partner = some p := hpartner
  rw [if_pos (by exact hactive), hk]
  simp only [Work.loseSource, hnone, hlost]

theorem State.active_link_lost {p : Identity} (hl : l < 16) (hc : (∃ lane, lane < 8 ∧ c = .laneLockLoss l lane) ∨ c = .flitTimeout l)
    (hload : s.dev.res.load = none) (hactive : (s.work.link l).state = 4) (hpartner : (s.work.link l).partner = some p)
    (hformed : s.val Obj.groupState = 2) (hrole : s.val Obj.role = 3) (hstandby : s.work.idOfSerial p.serial ≠ 1) :
    ∃ t, exec c s = .next t ∧ s.counted t (Obj.linkDownEvents l) 1 ∧ LinkDown s t l ∧ s.counted t Obj.groupFaults 1 ∧ t.val Obj.groupState = 3 := by
  have hwork : s.work.linkDown l = (s.work.lost l).groupFatal 1 (s.work.idOfSerial p.serial) l :=
    Work.linkDown_of_worker hload hactive hpartner hformed hrole hstandby
  have hgroup : (s.work.lost l).formed = true := by
    rw [Work.formed, Work.lost_get _ l (by simp) (by simp)]
    exact decide_eq_true hformed
  have hquiet : (s.work.lost l).link l = (s.work.link l).quiet (s.work.downState l) := (Work.lost_link s.work l l).trans (if_pos rfl)
  have hdown := Link.quiet_down (s := s.work) (l := l) (s.work.link l)
  obtain ⟨hget, hfaults, hstate, hlinks⟩ := Work.groupFault_at_worker (s := s.work.lost l)
    (n := ⟨(s.work.lost l).get Obj.groupEpoch, 1, s.work.idOfSerial p.serial, l, (s.work.lost l).ownDevice⟩) hgroup rfl
    (by rw [Work.lost_get _ l (by simp) (by simp)]; exact fun h1 => absurd (hrole.symm.trans h1) (by decide)) (by simp)
  have hlink : (s.work.linkDown l).link l = (s.work.link l).quiet (s.work.downState l) := by
    rw [hwork]
    exact (hlinks l (by rw [hquiet]; exact hdown.2)).trans hquiet
  refine ⟨_, State.exec_linkLost hl hc, State.run_counted (by simp [linkCounter]) (Work.counted_of_get_eq ?_), linkDown_of_quiet (k := s.work.link l) ?_,
    State.run_counted (by simp [linkCounter]) (Work.counted_of_get_eq ?_), ?_⟩
  · rw [hwork]
    exact (hget _ (by simp [noticeKey, attentionKey]) (by simp) (by simp)).trans (Work.lost_get_events _ _)
  · rw [State.run_link_of_down (f := (·.linkDown l)) (by rw [hlink]; exact hdown.1) (by rw [hlink]; exact hdown.2), hlink]
  · rw [hwork, ← Work.lost_get s.work l (by simp) (by simp)]
    exact hfaults
  · rw [State.run_val _ _ _ (by simp [linkCounter]), hwork]
    exact hstate

end

end Sys2Proof.Machine
end

section
/-! SUPPORT. The cable of a link (R382, R579). -/

namespace Sys2Proof.Machine

/-! ## A cable that arrives -/

/-- A link whose cable has arrived. -/
def Link.plugged (k : Link) : Link := { k with cable := true, fails := 0 }

/-- A link's cable arrives, and it trains if it waited. -/
def Work.plugged (s : Work) (l : Nat) : Work :=
  if ((s.setLink l (s.link l).plugged).link l).state = 1 then (s.setLink l (s.link l).plugged).retrain l else s.setLink l (s.link l).plugged

theorem Work.cableIn_eq (s : Work) (c : Nat) : s.cableIn c = (List.range 4).foldl (fun (s : Work) (m : Nat) => s.plugged (4 * (c - 2) + m)) s := rfl

theorem Work.plugged_cable (s : Work) (l m : Nat) : ((s.plugged l).link m).cable = if m = l then true else (s.link m).cable := by
  have hset : ((s.setLink l (s.link l).plugged).link m).cable = if m = l then true else (s.link m).cable := by
    rw [Work.setLink_link]
    split <;> rfl
  unfold Work.plugged
  split
  · rw [Work.retrain_link, ← hset]
    split
    next hm => rw [hm]; rfl
    next => rfl
  · exact hset

theorem State.keeps.plugged {s : State} {w : Work} {parts : List StatePart} {keys : Key → Prop} (h : s.keeps w parts keys)
    (hlinks : StatePart.links ∈ parts) {l : Nat} (hk : keys (Obj.linkPartner l)) : s.keeps (w.plugged l) parts keys := by
  unfold Work.plugged
  split
  · exact (h.setLinks hlinks _).retrain hlinks hk
  · exact h.setLinks hlinks _

theorem Work.plugged_sent (s : Work) (l : Nat) : (s.plugged l).sent = s.sent := by
  unfold Work.plugged
  split
  · rw [Work.retrain_eq]
    rfl
  · rfl

/-! ## A cable that leaves -/

/-- A link whose cable has left. -/
def Link.unplugged (k : Link) : Link := { k with cable := false, lastSerial := 0 }

def Work.bare (s : Work) (l : Nat) : Work := s.setLink l (s.link l).unplugged

theorem Work.bare_link (s : Work) (l m : Nat) : (s.bare l).link m = if m = l then (s.link l).unplugged else s.link m := s.setLink_link l _ m

theorem Work.bare_link_self (s : Work) (l : Nat) : (s.bare l).link l = (s.link l).unplugged := (s.bare_link l l).trans (if_pos rfl)

/-- A link's cable leaves, outside a group: one that carried flits is lost, one that trained trains when it may. -/
def Work.unplugged (s : Work) (l : Nat) : Work :=
  if (s.link l).state = 3 ∨ (s.link l).state = 4 then (s.bare l).lost l
  else if (s.link l).state = 2 ∨ (s.link l).state = 5 then (s.bare l).retrain l else s.bare l

/-- Whether the loss of a link ends no load and is no fault of a group. -/
def Work.looseAt (s : Work) (l : Nat) : Prop := s.res.load = none ∧ (s.get Obj.groupState ≠ 2 ∨ (s.link l).state ≠ 4)

/-- A link's cable leaves. -/
def Work.cableOutAt (s : Work) (l : Nat) : Work :=
  if ((s.bare l).link l).state = linkUp ∨ ((s.bare l).link l).state = linkActive then (s.bare l).linkDown l
  else if ((s.bare l).link l).state = 2 ∨ ((s.bare l).link l).state = 5 then (s.bare l).retrain l else s.bare l

theorem Work.cableOut_eq (s : Work) (c : Nat) : s.cableOut c = (List.range 4).foldl (fun (s : Work) (m : Nat) => s.cableOutAt (4 * (c - 2) + m)) s := rfl

theorem Work.cableOutAt_of_loose {s : Work} {l : Nat} (h : s.looseAt l) : s.cableOutAt l = s.unplugged l := by
  obtain ⟨hload, hgroup⟩ := h
  have hstate : ((s.bare l).link l).state = (s.link l).state := by
    rw [Work.bare_link_self]
    rfl
  unfold Work.cableOutAt Work.unplugged
  rw [hstate]
  split
  next hup =>
    exact (Work.linkDown_of_ungrouped (s := s.bare l) hload (hup.imp (fun h3 => hstate.trans h3) fun h4 => ⟨hstate.trans h4, hgroup.resolve_right (not_not.mpr h4)⟩)).trans
      (if_pos hup).symm
  next hup => exact (if_neg hup).symm

section
variable (s : Work) (l : Nat)

theorem Work.unplugged_link_of_ne {m : Nat} (h : m ≠ l) : (s.unplugged l).link m = s.link m := by
  have hbare : (s.bare l).link m = s.link m := (s.bare_link l m).trans (if_neg h)
  unfold Work.unplugged
  split
  · rw [Work.lost_link, if_neg h, hbare]
  · split
    · rw [Work.retrain_link, if_neg h, hbare]
    · exact hbare

theorem Work.unplugged_get {k : Key} (hpartner : k ≠ Obj.linkPartner l) (hevents : k ≠ Obj.linkDownEvents l) : (s.unplugged l).get k = s.get k := by
  unfold Work.unplugged
  split
  · exact Work.lost_get _ l hpartner hevents
  · split
    · exact (Work.retrain_get ..).trans (if_neg hpartner.symm)
    · rfl

theorem Work.unplugged_res : (s.unplugged l).res = s.res := by
  unfold Work.unplugged
  split
  · rfl
  · split
    · rfl
    · rfl

theorem Work.unplugged_sent : (s.unplugged l).sent = s.sent := by
  unfold Work.unplugged
  split
  · rfl
  · split
    · rfl
    · rfl

theorem State.keeps.unplugged {s : State} {w : Work} {parts : List StatePart} {keys : Key → Prop} (h : s.keeps w parts keys)
    (hlinks : StatePart.links ∈ parts) (hpartner : keys (Obj.linkPartner l)) (hevents : keys (Obj.linkDownEvents l)) :
    s.keeps (w.unplugged l) parts keys := by
  unfold Work.unplugged
  split
  · exact (h.setLinks hlinks _).lost hlinks hevents hpartner
  · split
    · exact (h.setLinks hlinks _).retrain hlinks hpartner
    · exact h.setLinks hlinks _
end

/-- What the loss of its cable leaves of a link. -/
structure Work.leftBare (s t : Work) (l : Nat) : Prop where
  cable : (t.link l).cable = false
  lost : (s.link l).state = 3 ∨ (s.link l).state = 4 → t.get (Obj.linkDownEvents l) = countPast (Obj.linkDownEvents l) (s.get (Obj.linkDownEvents l) + 1) ∧
    (t.link l).partner = none
  state : (s.link l).state ≤ 5 → (t.link l).state ≤ 1

theorem Work.leftBare_unplugged (s : Work) (l : Nat) : s.leftBare (s.unplugged l) l := by
  have hself := s.bare_link_self l
  have hdown : (s.bare l).downState l ≤ 1 := Work.downState_of_no_cable (by rw [hself]; rfl)
  unfold Work.unplugged
  split
  next hup =>
    have hlink : ((s.bare l).lost l).link l = (s.link l).unplugged.quiet ((s.bare l).downState l) := by rw [Work.lost_link, if_pos rfl, hself]
    refine ⟨by rw [hlink]; rfl, fun _ => ⟨Work.lost_get_events _ l, by rw [hlink]; rfl⟩, fun _ => ?_⟩
    rw [hlink]
    exact hdown
  next hup =>
    split
    next =>
      have hlink : ((s.bare l).retrain l).link l = (s.link l).unplugged.quiet ((s.bare l).downState l) := by rw [Work.retrain_link, if_pos rfl, hself]
      refine ⟨by rw [hlink]; rfl, fun h => absurd h hup, fun _ => ?_⟩
      rw [hlink]
      exact hdown
    next hdownish =>
      refine ⟨by rw [hself]; rfl, fun h => absurd h hup, fun hle => ?_⟩
      rw [hself]
      change (s.link l).state ≤ 1
      omega

/-- Four links, each its own, lose their cables one after another. -/
theorem Work.leftBare_foldl {ls : List Nat} (hnodup : ls.Nodup) (s : Work) (hloose : ∀ l ∈ ls, s.looseAt l) :
    (∀ l ∈ ls, s.leftBare (ls.foldl Work.cableOutAt s) l) ∧ ls.foldl Work.cableOutAt s = ls.foldl Work.unplugged s ∧
      ∀ l, l ∉ ls → (ls.foldl Work.cableOutAt s).link l = s.link l ∧
        (ls.foldl Work.cableOutAt s).get (Obj.linkDownEvents l) = s.get (Obj.linkDownEvents l) := by
  induction ls generalizing s with
  | nil => exact ⟨nofun, rfl, fun _ _ => ⟨rfl, rfl⟩⟩
  | cons a ls ih =>
    obtain ⟨hnot, hrest⟩ := List.nodup_cons.mp hnodup
    have hfirst : s.cableOutAt a = s.unplugged a := Work.cableOutAt_of_loose (hloose a List.mem_cons_self)
    have hlink {m : Nat} (hm : m ≠ a) : (s.unplugged a).link m = s.link m := s.unplugged_link_of_ne a hm
    have hevents {m : Nat} (hm : m ≠ a) : (s.unplugged a).get (Obj.linkDownEvents m) = s.get (Obj.linkDownEvents m) :=
      s.unplugged_get a (by simp) (by simpa using hm)
    have hne {m : Nat} (hm : m ∈ ls) : m ≠ a := by
      rintro rfl
      exact hnot hm
    obtain ⟨hbare, hfold, hother⟩ := ih hrest (s.unplugged a) fun m hm => by
      obtain ⟨hload, hgroup⟩ := hloose m (List.mem_cons_of_mem _ hm)
      refine ⟨(congrArg ResState.load (s.unplugged_res a)).trans hload, ?_⟩
      rw [s.unplugged_get a (by simp) (by simp), hlink (hne hm)]
      exact hgroup
    rw [List.foldl_cons, List.foldl_cons, hfirst]
    refine ⟨fun m hm => ?_, hfold, fun m hm => ?_⟩
    · rcases List.mem_cons.mp hm with rfl | hm
      · obtain ⟨hsame, hcount⟩ := hother m hnot
        obtain ⟨hcable, hlost, hstate⟩ := s.leftBare_unplugged m
        exact ⟨hsame ▸ hcable, fun h => by rw [hsame, hcount]; exact hlost h, fun h => hsame ▸ hstate h⟩
      · obtain ⟨hcable, hlost, hstate⟩ := hbare m hm
        rw [hlink (hne hm), hevents (hne hm)] at hlost
        rw [hlink (hne hm)] at hstate
        exact ⟨hcable, hlost, hstate⟩
    · obtain ⟨hma, hml⟩ := not_or.mp (mt List.mem_cons.mpr hm)
      obtain ⟨hsame, hcount⟩ := hother m hml
      exact ⟨hsame.trans (hlink hma), hcount.trans (hevents hma)⟩

/-! ## The commands (R579) -/

/-- A fold whose steps send nothing sends nothing. -/
theorem foldl_sent {f : Work → Nat → Work} (hf : ∀ w l, (f w l).sent = w.sent) (ls : List Nat) (w : Work) : (ls.foldl f w).sent = w.sent := by
  induction ls generalizing w with
  | nil => rfl
  | cons l ls ih => exact (ih (f w l)).trans (hf w l)

/-- The links of a connector. -/
def connectorLinks (c : Nat) : List Nat := (List.range 4).map (fun m => 4 * (c - 2) + m)

theorem connectorLinks_nodup (c : Nat) : (connectorLinks c).Nodup :=
  List.Nodup.map (fun a b hab => by simpa using hab) List.nodup_range

theorem mem_connectorLinks {c l : Nat} : l ∈ connectorLinks c ↔ ∃ m, m < 4 ∧ l = 4 * (c - 2) + m := by
  simp only [connectorLinks, List.mem_map, List.mem_range, eq_comm]

theorem Work.cableIn_links (s : Work) (c : Nat) : s.cableIn c = (connectorLinks c).foldl Work.plugged s := by
  rw [connectorLinks, List.foldl_map]
  exact s.cableIn_eq c

theorem Work.cableOut_links (s : Work) (c : Nat) : s.cableOut c = (connectorLinks c).foldl Work.cableOutAt s := by
  rw [connectorLinks, List.foldl_map]
  exact s.cableOut_eq c

theorem Work.foldl_plugged_cable (ls : List Nat) (s : Work) (m : Nat) : (m ∈ ls ∨ (s.link m).cable = true) → ((ls.foldl Work.plugged s).link m).cable = true := by
  induction ls generalizing s with
  | nil => exact fun h => h.resolve_left (by simp)
  | cons a ls ih =>
    intro h
    refine ih (s.plugged a) ?_
    rw [Work.plugged_cable]
    split
    next => exact .inr rfl
    next hne => exact h.imp_left fun hm => (List.mem_cons.mp hm).resolve_left hne

section
variable (s : State) {c : Nat} (hlow : 2 ≤ c) (hhigh : c ≤ 5)
include hlow hhigh

theorem State.cableInsert_plugs : ∃ t, exec (.cableInsert c) s = .next t ∧ (∀ m, m < 4 → (t.work.link (4 * (c - 2) + m)).cable = true) ∧
    s.frame t [.links] (fun k => k.index = (Obj.linkPartner 0).index) := by
  have hunqueued : unqueued (s.work.cableIn c).sent :=
    unqueued_of_nil ((congrArg Work.sent (s.work.cableIn_links c)).trans (foldl_sent Work.plugged_sent _ _))
  refine ⟨_, State.nextIf_true (by simp [hlow, hhigh]), fun m hm => ?_, State.keeps.frame_unqueued (f := (·.cableIn c)) hunqueued ?_⟩
  · rw [State.run_link_unqueued (f := (·.cableIn c)) hunqueued, Work.cableIn_links]
    exact Work.foldl_plugged_cable _ _ _ (.inl (mem_connectorLinks.mpr ⟨m, hm, rfl⟩))
  · rw [Work.cableIn_links]
    exact State.keeps.foldl _ (s.keeps_work _ _) fun w hw l _ => hw.plugged (by simp) rfl

theorem State.cableRemove_loses (hload : s.dev.res.load = none)
    (hloose : s.val Obj.groupState ≠ 2 ∨ ∀ m, m < 4 → (s.work.link (4 * (c - 2) + m)).state ≠ 4) :
    ∃ t, exec (.cableRemove c) s = .next t ∧ s.frame t [.links] (fun k => k.index = (Obj.linkPartner 0).index ∨ k.index = (Obj.linkDownEvents 0).index) ∧
      ∀ m l, m < 4 → l = 4 * (c - 2) + m → (t.work.link l).cable = false ∧
        ((s.work.link l).state = 3 ∨ (s.work.link l).state = 4 → s.counted t (Obj.linkDownEvents l) 1 ∧ (t.work.link l).partner = none) ∧
        ((s.work.link l).state ≤ 5 → (t.work.link l).state ≤ 1) := by
  obtain ⟨hbare, hfold, -⟩ := Work.leftBare_foldl (connectorLinks_nodup c) s.work fun l hl => by
    obtain ⟨m, hm, rfl⟩ := mem_connectorLinks.mp hl
    exact ⟨hload, hloose.imp id fun h => h m hm⟩
  rw [← Work.cableOut_links] at hbare hfold
  have hunqueued : unqueued (s.work.cableOut c).sent := unqueued_of_nil ((congrArg Work.sent hfold).trans (foldl_sent Work.unplugged_sent _ _))
  refine ⟨_, State.nextIf_true (by simp [hlow, hhigh]), State.keeps.frame_unqueued (f := (·.cableOut c)) hunqueued ?_, fun m l hm hl => ?_⟩
  · rw [hfold]
    exact State.keeps.foldl _ (s.keeps_work _ _) fun w hw l _ => hw.unplugged l (by simp) (.inl rfl) (.inr rfl)
  · obtain ⟨hcable, hlost, hstate⟩ := hbare l (mem_connectorLinks.mpr ⟨m, hm, hl⟩)
    rw [State.run_link_unqueued (f := (·.cableOut c)) hunqueued]
    exact ⟨hcable, fun hup => ⟨State.run_counted (by simp [linkCounter]) (Work.counted_of_get_eq (hlost hup).1), (hlost hup).2⟩, hstate⟩
end

/-- Settles O47: a link's training, its timers, LINK_ENABLE, its loss in a group and outside one, and its cable. -/
theorem linksTrainAndAreLost : Obligations.LinksTrainAndAreLost := by
  unfold Obligations.LinksTrainAndAreLost
  refine ⟨fun s l locked ns rev q hl => ⟨fun h => ?_, fun h => ?_, fun p hopen hstate hq hlocked hload hlast hother => ?_,
    fun p hopen hstate hq hlocked hsame => ?_, fun hopen hstate hfail => ?_, ?_, ?_⟩,
    fun s r row l v hl hgrants hv => ⟨fun hactive hchange => ?_, fun hidle hchange hload => ?_⟩,
    fun s c l hl hc hload hup => ?_, fun s c l p hl hc hload hactive hpartner hformed hrole hstandby => ?_, fun s c hlow hhigh => ⟨?_, fun hload hloose => ?_⟩⟩
  · exact State.linkTrainingDone_ignored hl locked ns q rev (.inl h)
  · exact State.linkTrainingDone_ignored hl locked ns q rev (.inr h)
  · rw [hq]
    exact State.linkTrainingDone_stranger hl locked ns rev hopen hstate hlocked hload hlast hother
  · rw [hq]
    exact State.linkTrainingDone_up hl locked ns rev hopen hstate hlocked hsame
  · exact State.linkTrainingDone_failed hl locked ns q rev hopen hstate hfail
  · exact State.linkRetrainTimer_retrains hl
  · exact State.linkLatencyMeasure_takes hl ns
  · exact State.linkEnable_refused hgrants hl hv hactive hchange
  · exact State.linkEnable_written hgrants hl hv hidle hchange hload
  · exact State.link_lost hl hc hload hup
  · exact State.active_link_lost hl hc hload hactive hpartner hformed hrole hstandby
  · exact State.cableInsert_plugs s hlow hhigh
  · exact State.cableRemove_loses s hlow hhigh hload hloose

end Sys2Proof.Machine
end

section
/-! SUPPORT. Islands that stop and run again, and what waits for them (R20, R51, R63, R68, R527, R528, R546). -/

namespace Sys2Proof.Machine

/-! ## Stopping (R527) -/

section
variable {s : Work} (hsettled : s.boot.target = none)
include hsettled

theorem Work.powerSettle_of_settled : s.powerSettle = s := by simp only [Work.powerSettle, hsettled]

/-- Outside a transition ISLAND_STOP leaves the management island and the routers, and a core that is being programmed. -/
theorem Work.islandStop_of_settled (i : Nat) (gate : Bool) : s.islandStop i gate =
    if i = 0xAD ∨ islandKind i = 2 ∨ (∃ c, islandCore i = some c ∧ s.coreProgramming c = true) then s
    else match s.islandCond i with
      | .running => (s.setIsland i .draining).modBoot (fun b => { b with gating := if gate then b.gating ++ [i] else b.gating })
      | .stopped => if gate then (s.setIsland i .gated).powerSettle else s
      | _ => s := by
  unfold Work.islandStop
  extract_lets begun waits programming routes
  have hbegun : begun = s := by simp only [begun, hsettled]
  clear_value begun
  subst hbegun
  refine if_congr ?_ rfl rfl
  simp only [routes, waits, programming, hsettled]
  cases islandCore i with
  | none => simp
  | some c => simp [or_assoc]

theorem Work.islandDrained_of_settled {i us : Nat} (hdraining : s.islandCond i = .draining) (hquiet : s.islandQuiet i = true) (hgate : i ∉ s.boot.gating) :
    s.islandDrained i us =
      (((s.setIsland i .stopped).add Obj.islandStops 1).raise Obj.drainMaxUs us).modBoot (fun b => { b with gating := b.gating.filter (· ≠ i) }) := by
  have hungated : s.boot.gating.contains i = false := by simpa using hgate
  unfold Work.islandDrained
  extract_lets gated condition settled
  have hgated : gated = false := hungated
  rw [if_neg (by simp [hdraining, hquiet])]
  have hgone : settled.islandGone i gated = settled := by
    rw [hgated]
    simp [Work.islandGone]
  rw [hgone, Work.powerSettle_of_settled (by exact hsettled)]
  unfold settled condition
  rw [hgated]
  rfl
end

section
variable {s : State} {i : Nat} (hpresent : islandPresent s.ident i = true) (hsettled : s.dev.boot.target = none)
include hpresent hsettled

theorem State.islandStop_of_unstoppable (gate : Bool) (h : i = 0xAD ∨ islandKind i = 2) :
    ∃ t, exec (.islandStop i gate) s = .next t ∧ s.frame t [] (fun _ => False) :=
  State.next_unchanged (State.nextIf_true hpresent) ((Work.islandStop_of_settled hsettled i gate).trans (if_pos (h.imp_right .inl)))

theorem State.islandStop_drains (gate : Bool) (hmanagement : i ≠ 0xAD) (hrouter : islandKind i ≠ 2)
    (hprogramming : ∀ c, islandCore i = some c → s.work.coreProgramming c = false) (hrunning : s.work.islandCond i = .running) :
    ∃ t, exec (.islandStop i gate) s = .next t ∧ t.work.islandCond i = .draining ∧ (∀ j, j ≠ i → t.work.islandCond j = s.work.islandCond j) ∧
      s.frame t [.islands, .boot] (fun _ => False) := by
  have hstop : ¬ (i = 0xAD ∨ islandKind i = 2 ∨ ∃ c, islandCore i = some c ∧ s.work.coreProgramming c = true) := by
    rintro (h | h | ⟨c, hc, h⟩)
    · exact hmanagement h
    · exact hrouter h
    · exact Bool.noConfusion ((hprogramming c hc).symm.trans h)
  have hwork : s.work.islandStop i gate =
      (s.work.setIsland i .draining).modBoot (fun b => { b with gating := if gate then b.gating ++ [i] else b.gating }) := by
    rw [Work.islandStop_of_settled hsettled, if_neg hstop, hrunning]
  have hcond (j : Nat) : (s.run (·.islandStop i gate)).work.islandCond j = if i = j then .draining else s.work.islandCond j := by
    rw [State.run_islandCond, hwork]
    exact look_put _ _ _ _ _
  refine ⟨_, State.nextIf_true hpresent, (hcond i).trans (if_pos rfl), fun j hj => (hcond j).trans (if_neg hj.symm),
    State.keeps.frame_silent (f := (·.islandStop i gate)) ?_ (congrArg Work.sent hwork)⟩
  rw [hwork]
  exact ((s.keeps_work _ _).setIsland (by simp) i _).modBoot (by simp) _

theorem State.islandDrainComplete_stops (us : Nat) (hdraining : s.work.islandCond i = .draining) (hquiet : s.work.islandQuiet i = true)
    (hgate : i ∉ s.dev.boot.gating) : ∃ t, exec (.islandDrainComplete i us) s = .next t ∧
      t.work.islandCond i = .stopped ∧ s.counted t Obj.islandStops 1 ∧ t.val Obj.drainMaxUs = max (s.val Obj.drainMaxUs) (objValue Obj.drainMaxUs us) ∧
      s.frame t [.islands, .boot] (fun k => k = Obj.islandStops ∨ k = Obj.drainMaxUs) := by
  have hwork := Work.islandDrained_of_settled (us := us) hsettled hdraining hquiet hgate
  refine ⟨_, State.nextIf_true hpresent, ?_, State.run_counted (by simp [linkCounter]) (Work.counted_of_get_eq ?_), ?_,
    State.keeps.frame_silent (f := (·.islandDrained i us)) ?_ (congrArg Work.sent hwork)⟩
  · rw [State.run_islandCond, hwork]
    exact look_put_same _ _ _ _
  · rw [hwork]
    exact (Work.raise_get _ _ _ _).trans ((if_neg (by decide)).trans ((Work.add_get _ _ _ _).trans (if_pos rfl)))
  · rw [State.run_val _ _ _ (by simp [linkCounter]), hwork]
    refine (Work.raise_get _ _ _ _).trans ((if_pos rfl).trans (congrArg (max · (objValue Obj.drainMaxUs us)) ?_))
    exact (Work.add_get _ _ _ _).trans (if_neg (by decide))
  · rw [hwork]
    exact ((((s.keeps_work _ _).setIsland (by simp) i _).add (.inl rfl) 1).raise (.inr rfl) us).modBoot (by simp) _

omit hsettled in
theorem State.islandDrainComplete_waits (us : Nat) (h : s.work.islandCond i ≠ .draining ∨ s.work.islandQuiet i = false) :
    ∃ t, exec (.islandDrainComplete i us) s = .next t ∧ s.frame t [] (fun _ => False) :=
  State.next_unchanged (State.nextIf_true hpresent) (if_pos (by simpa using h))
end

/-! ## Running again (R528) -/

/-- In L0 every island runs. -/
theorem islandWanted_zero (i : Nat) : islandWanted 0 i = .running := by simp [islandWanted]

/-- What an island begins with changes no island's condition, nothing of boot, and nothing that waits for one. -/
theorem Work.islandBack_rest (s : Work) (i : Nat) : (s.islandBack i).islands = s.islands ∧ (s.islandBack i).boot = s.boot ∧ (s.islandBack i).dict = s.dict := by
  unfold Work.islandBack
  split
  · exact ⟨rfl, rfl, rfl⟩
  · split
    · unfold Work.releaseMesh
      exact List.foldlRecOn (motive := fun u : Work => u.islands = s.islands ∧ u.boot = s.boot ∧ u.dict = s.dict) _ _ ⟨rfl, rfl, rfl⟩
        fun u hu m _ => by
          obtain ⟨objs, hcarry⟩ := u.carry_objs m
          rw [hcarry]
          exact hu
    · split
      · exact ⟨rfl, rfl, rfl⟩
      · exact ⟨rfl, rfl, rfl⟩

section
variable {s : Work} {i : Nat} (hstopped : s.islandCond i = .stopped) (hpower : s.mayPower = true) (hzero : s.get Obj.powerState = 0)
  (hsettled : s.boot.target = none)
include hstopped hpower hzero hsettled

/-- A stopped island runs again in L0. -/
theorem Work.islandRestart_of_stopped : s.islandRestart i = (s.setIsland i .running).islandBack i := by
  have hwanted : islandWanted (s.boot.target.getD (s.get Obj.powerState)) i = .running := by
    rw [hsettled, hzero]
    exact islandWanted_zero i
  unfold Work.islandRestart
  simp [hwanted, hstopped, hpower]

theorem Work.restarted_of_stopped : s.restarted i = ((s.setIsland i .running).islandBack i).unpark i := by
  obtain ⟨hislands, hboot, -⟩ := (s.setIsland i .running).islandBack_rest i
  unfold Work.restarted
  rw [Work.islandRestart_of_stopped hstopped hpower hzero hsettled, Work.powerSettle_of_settled ((congrArg BootState.target hboot).trans hsettled)]
  exact if_pos ((congrArg (look IslandCond.running · i) hislands).trans (look_put_same _ _ _ _))
end

theorem Work.serveHeld_of_none {s : Work} (h : s.dict.held = []) : s.serveHeld = s.modDict (fun d => { d with held := [] }) := by
  unfold Work.serveHeld
  rw [h]
  rfl

/-- With nothing that waits for the island, and nothing held, no request is served. -/
theorem Work.unpark_of_none {s : Work} {i : Nat} (hparked : ∀ p ∈ s.dict.parked, p.island ≠ i) (hheld : s.dict.held = []) :
    ∃ dict, s.unpark i = { s with dict := dict } := by
  have hready : s.dict.parked.filter (fun (p : ParkedReq) => p.island = i) = [] := List.filter_eq_nil_iff.mpr fun p hp => by simpa using hparked p hp
  unfold Work.unpark
  extract_lets ready left served
  have hserved : served = left := by
    unfold served
    rw [show ready = [] from hready]
    rfl
  rw [hserved]
  split
  · rw [Work.serveHeld_of_none (by exact hheld)]
    exact ⟨_, rfl⟩
  · exact ⟨_, rfl⟩

theorem State.islandRestart_runs {s : State} {i : Nat} (hpresent : islandPresent s.ident i = true) (hsettled : s.dev.boot.target = none)
    (hstopped : s.work.islandCond i = .stopped) (hpower : s.work.mayPower = true) (hzero : s.val Obj.powerState = 0)
    (hparked : ∀ p ∈ s.dev.dict.parked, p.island ≠ i) (hheld : s.dev.dict.held = []) :
    ∃ t, exec (.islandRestart i) s = .next t ∧ t.work.islandCond i = .running ∧ ∀ j, j ≠ i → t.work.islandCond j = s.work.islandCond j := by
  obtain ⟨hislands, -, hdict⟩ := (s.work.setIsland i .running).islandBack_rest i
  obtain ⟨dict, hunpark⟩ := Work.unpark_of_none (s := (s.work.setIsland i .running).islandBack i) (i := i) (by rw [hdict]; exact hparked)
    (by rw [hdict]; exact hheld)
  have hcond (j : Nat) : (s.run (·.restarted i)).work.islandCond j = if i = j then .running else s.work.islandCond j := by
    rw [State.run_islandCond, Work.restarted_of_stopped hstopped hpower hzero hsettled, hunpark]
    exact (congrArg (look IslandCond.running · j) hislands).trans (look_put _ _ _ _ _)
  exact ⟨_, State.nextIf_true hpresent, (hcond i).trans (if_pos rfl), fun j hj => (hcond j).trans (if_neg hj.symm)⟩

end Sys2Proof.Machine
end

section
/-! SUPPORT. A READ that waits for its island, and MINMAX_RESET (R51, R63, R68, R528, R546). -/

namespace Sys2Proof.Machine

/-! ## A READ that waits (R20, R63) -/

theorem State.keeps.park {s : State} {w : Work} {parts : List StatePart} {keys : Key → Prop} (h : s.keeps w parts keys) (hdict : StatePart.dict ∈ parts)
    (op island : Nat) (r : Req) : s.keeps (w.park op island r) parts keys := by
  unfold Work.park
  split
  · exact (h.modDict hdict _).setWindow hdict _ _
  · exact h.modDict hdict _

theorem Work.park_parked (s : Work) (op island : Nat) (r : Req) : (s.park op island r).dict.parked = s.dict.parked ++ [⟨r, op, island, false⟩] := by
  unfold Work.park
  split <;> rfl

theorem Work.park_sent (s : Work) (op island : Nat) (r : Req) : (s.park op island r).sent = s.sent := by
  unfold Work.park
  split <;> rfl

theorem Work.park_window (s : Work) (op island : Nat) {r : Req} {w : FnWin} (h : originWindow r.origin = some w) :
    ((s.park op island r).window w).parked = true := by
  unfold Work.park
  rw [h]
  exact congrArg Window.parked ((Work.setWindow_window _ _ _ _).trans (if_pos rfl))

theorem Work.serveRead_of_stopped {s : Work} {r : Req} {row : Row} {k : Key} (hobj : s.lookup r = some (row, k)) (hwo : row.access ≠ .wo)
    (hdom : row.ty ≠ .domain) (hstate : s.readState r.index = none) (hpayload : r.payload = []) (hseam : servedBySeam r.index = true)
    (hstopped : s.islandCond 0xAC = .stopped) : s.serveRead r = s.park 1 0xAC r := by
  simp [Work.serveRead, hobj, hwo, hdom, hstate, hpayload, Work.atIsland, hseam, hstopped]

theorem State.read_parks {s : State} {r : Req} {row : Row} {k : Key} (h : s.takes 1 r) (hobj : s.work.lookup (seen 1 r) = some (row, k))
    (hwo : row.access ≠ .wo) (hdom : row.ty ≠ .domain) (hstate : s.work.readState r.index = none) (hpayload : r.payload = [])
    (hseam : servedBySeam r.index = true) (hstopped : s.work.islandCond 0xAC = .stopped) :
    ∃ t, exec (.read r) s = .next t ∧ t.dev.dict.parked = s.dev.dict.parked ++ [⟨seen 1 r, 1, 0xAC, false⟩] ∧
      (∀ w, originWindow r.origin = some w → (t.work.window w).parked = true) ∧ s.frame t [.dict] (fun _ => False) := by
  obtain ⟨ws, p, f, hexec⟩ := h.exec_eq (c := .read r) (by decide) fun _ => rfl
  have hserve : (s.work.atTurn ws p f).serveOp 1 (seen 1 r) = (s.work.atTurn ws p f).park 1 0xAC (seen 1 r) :=
    Work.serveRead_of_stopped hobj hwo hdom (by rw [seen_index]; exact hstate) (by rw [seen_payload]; exact hpayload) (by rw [seen_index]; exact hseam) hstopped
  refine ⟨_, hexec, ?_, fun w hw => ?_, State.keeps.frame_silent ?_ ?_⟩
  · rw [State.run_dict, hserve]
    exact Work.park_parked ..
  · rw [State.run_window, hserve]
    exact Work.park_window _ _ _ (by rw [seen_origin]; exact hw)
  · rw [hserve]
    exact (State.keeps_atTurn (by simp) ws p f).park (by simp) _ _ _
  · rw [hserve]
    exact Work.park_sent ..

/-! ## Its answer (R68, R528) -/

theorem turnsTo_lt (last x : Nat) {n : Nat} (h : 0 < n) : turnsTo last n x < n := Nat.mod_lt _ h

theorem DictState.turnOf_lt (d : DictState) (o : Origin) : d.turnOf o < 4 * 513 := by
  unfold DictState.turnOf
  extract_lets fns
  have hpath : turnsTo d.servedPath 4 (pathCode o.path - 1) < 4 := turnsTo_lt _ _ (by decide)
  have hfns : fns < 513 := by
    unfold fns
    split
    · exact turnsTo_lt _ _ (by decide)
    · exact turnsTo_lt _ _ (by decide)
    · decide
  omega

/-- The turn of one that waits alone has come. -/
theorem DictState.nextTurn_singleton {α : Type} (d : DictState) (origin : α → Origin) (x : α) : d.nextTurn origin [x] = some x := by
  have hfirst : min (4 * 513) (d.turnOf (origin x)) = d.turnOf (origin x) := Nat.min_eq_right (Nat.le_of_lt (d.turnOf_lt _))
  simp [DictState.nextTurn, hfirst]

theorem Work.serveParked_singleton (s : Work) {p : ParkedReq} (hlive : p.dead = false) :
    Work.serveParked 1 [p] s = (s.tookTurn p.req.origin).serveReq p.opcode p.req := by
  simp only [Work.serveParked, DictState.nextTurn_singleton, hlive]
  rfl

theorem Work.unpark_singleton {s : Work} {p : ParkedReq} (hparked : s.dict.parked = [p]) (hlive : p.dead = false) : ∃ dict, dict.parked = [] ∧
    dict.held = s.dict.held ∧ s.unpark p.island =
      if (({ s with dict := dict } : Work).serveReq p.opcode p.req).boot.stage = 4 then (({ s with dict := dict } : Work).serveReq p.opcode p.req).serveHeld
      else ({ s with dict := dict } : Work).serveReq p.opcode p.req := by
  have hready : s.dict.parked.filter (fun (q : ParkedReq) => q.island = p.island) = [p] := by simp [hparked]
  unfold Work.unpark
  extract_lets ready left served
  have hserved : served = (left.tookTurn p.req.origin).serveReq p.opcode p.req := by
    unfold served
    rw [show ready = [p] from hready]
    exact left.serveParked_singleton hlive
  refine ⟨(left.tookTurn p.req.origin).dict, ?_, rfl, ?_⟩
  · change s.dict.parked.filter (fun (q : ParkedReq) => decide (q.island ≠ p.island)) = []
    simp [hparked]
  · rw [hserved]
    rfl

section
variable {s : State} {r : Req} {row : Row} {k : Key}

/-- A READ for this device with a header that is in order is served here. -/
theorem Work.serveReq_read (w : Work) (htarget : r.target = 254) (hflags : r.flags = 0) (hrsv : r.rsv7 = 0) (hhigh : r.tenantHi = 0) (harg : r.arg = 0) :
    w.serveReq 1 r = w.serveRead (seen 1 r) := by
  have hhere : (seen 1 r).target = 254 ∨ (seen 1 r).target = w.ownDevice := .inl (by rw [seen_target]; exact htarget)
  refine Eq.trans (b := w.serveHere 1 (seen 1 r)) (if_pos hhere) (if_neg ?_)
  simp [hflags, hrsv, hhigh, harg, dictOpcodes]

/-- The seam island that runs again, with no transfer that waits for it. -/
theorem Work.islandBack_seam {w : Work} (hwaiting : w.net.waiting = []) : ∃ net, w.islandBack 0xAC = { w with net := net } := by
  refine ⟨{ w.net with waiting := [] }, ?_⟩
  change w.releaseMesh = _
  unfold Work.releaseMesh
  rw [hwaiting]
  rfl

theorem State.islandRestart_answers (hparked : s.dev.dict.parked = [⟨r, 1, 0xAC, false⟩]) (hobj : s.work.lookup (seen 1 r) = some (row, k))
    (hwo : row.access ≠ .wo) (hdom : row.ty ≠ .domain) (hstate : s.work.readState r.index = none) (htarget : r.target = 254) (hflags : r.flags = 0)
    (hrsv : r.rsv7 = 0) (hhigh : r.tenantHi = 0) (harg : r.arg = 0) (hpayload : r.payload = []) (hsettled : s.dev.boot.target = none)
    (hstopped : s.work.islandCond 0xAC = .stopped) (hpower : s.work.mayPower = true) (hzero : s.val Obj.powerState = 0)
    (hwaiting : s.dev.net.waiting = []) (hheld : s.dev.dict.held = []) :
    ∃ t b, exec (.islandRestart 0xAC) s = .next t ∧ t.work.islandCond 0xAC = .running ∧ t.dev.dict.parked = [] ∧
      s.answer 1 (seen 1 r) 0 0 b ∈ t.out.drop s.out.length := by
  obtain ⟨net, hback⟩ := Work.islandBack_seam (w := s.work.setIsland 0xAC .running) hwaiting
  obtain ⟨dict, hleft, hkept, hunpark⟩ := Work.unpark_singleton (s := { s.work.setIsland 0xAC .running with net := net }) hparked rfl
  generalize hu : ({ s.work.setIsland 0xAC .running with net := net, dict := dict } : Work) = u at hunpark
  have hrunning : u.islandCond 0xAC = .running := by
    rw [← hu]
    exact look_put_same _ _ _ _
  have hserve : u.serveReq 1 r = u.respond 1 (seen 1 r) 0 0 (u.readValue (seen 1 r).origin row k) := by
    rw [Work.serveReq_read u htarget hflags hrsv hhigh harg]
    refine Work.serveRead_eq ?_ hwo hdom ?_ ?_ fun _ => ?_
    · rw [← hu]
      exact hobj
    · rw [← hu, seen_index]
      exact hstate
    · rw [seen_payload]
      exact hpayload
    · rw [hrunning]
      exact ⟨by decide, by decide, by decide⟩
  have hstage : u.boot.stage = 4 := by
    rw [← hu]
    simp only [Work.mayPower, Bool.and_eq_true, decide_eq_true_eq] at hpower
    exact hpower.2
  generalize ha : u.respond 1 (seen 1 r) 0 0 (u.readValue (seen 1 r).origin row k) = a at hserve
  obtain ⟨windows, hdicta, hislands, hboot⟩ : ∃ windows, a.dict = { u.dict with windows := windows } ∧ a.islands = u.islands ∧ a.boot = u.boot := by
    obtain ⟨objs, windows, os, hrespond⟩ := u.respondFrom_eq u.ownDevice 1 (seen 1 r) 0 0 (u.readValue (seen 1 r).origin row k)
    exact ⟨windows, by rw [← ha, Work.respond, hrespond], by rw [← ha, Work.respond, hrespond], by rw [← ha, Work.respond, hrespond]⟩
  have hdict : u.dict = dict := by rw [← hu]
  have hwork : s.work.restarted 0xAC = a.modDict (fun d => { d with held := [] }) := by
    have hnone : a.dict.held = [] := by
      rw [hdicta, hdict]
      exact hkept.trans hheld
    rw [Work.restarted_of_stopped hstopped hpower hzero hsettled, hback, hunpark, hserve, if_pos (by rw [hboot]; exact hstage),
      Work.serveHeld_of_none hnone]
  refine ⟨_, u.readValue (seen 1 r).origin row k, State.nextIf_true rfl, ?_, ?_, ?_⟩
  · rw [State.run_islandCond, hwork]
    exact (congrArg (look IslandCond.running · 0xAC) hislands).trans hrunning
  · rw [State.run_dict, hwork]
    exact (congrArg DictState.parked hdicta).trans ((congrArg DictState.parked hdict).trans hleft)
  · refine State.answer_mem_run_of_prefix (g := (·.restarted 0xAC)) (w := u) ?_ (by rw [← hu]; rfl)
    rw [hwork, ha]
    exact List.prefix_rfl
end

/-! ## MINMAX_RESET (R546) -/

theorem Work.minmaxRestart_entry {s : Work} {h arg i : Nat} {e : HkEntry} (hentry : (((s.minmaxRestart h arg).hkHalf h).entries)[i]? = some e)
    (hbit : bitAt arg i = true) : e.minV = none ∧ e.maxV = none := by
  rw [Work.minmaxRestart, Work.setHk_half, if_pos rfl] at hentry
  simp only [List.getElem?_mapIdx, Option.map_eq_some_iff] at hentry
  obtain ⟨x, -, rfl⟩ := hentry
  rw [if_pos hbit]
  exact ⟨rfl, rfl⟩

theorem Work.startAction_minmaxReset (w : Work) (h arg : Nat) (o : Origin) :
    w.startAction (Obj.minmaxReset h) arg o = (w.minmaxRestart h arg).cmdDone (Obj.minmaxReset h) o := by
  simp [Work.startAction]

theorem State.startsAt.minmaxReset {s : State} {r : Req} {h arg : Nat} (hstart : s.startsAt r (Obj.minmaxReset h) arg) :
    ∃ t, exec (.minmaxReset { r with sub := h + 1 }) s = .next t ∧ s.commanded t r (Obj.minmaxReset h) [.hk] (fun _ => False) ∧
      ∀ i e, (t.work.hkHalf h).entries[i]? = some e → bitAt arg i = true → e.minV = none ∧ e.maxV = none := by
  obtain ⟨w, hw, hexec⟩ := hstart.exec_eq (c := .minmaxReset { r with sub := h + 1 }) (by simp) fun _ => rfl
  rw [Work.startAction_minmaxReset] at hexec
  refine ⟨_, hexec, hw.run_cmdDone (u := w.minmaxRestart h arg) (by simp [linkCounter]) r.origin ?_ List.prefix_rfl, fun i e hentry hbit => ?_⟩
  · exact (hw.keeps (by simp) (.inr (.inl (.inl rfl)))).setHk (by simp) _ _
  · have hhk : ((w.minmaxRestart h arg).cmdDone (Obj.minmaxReset h) r.origin).hk = (w.minmaxRestart h arg).hk := by
      obtain ⟨os, objs, starters, -, hdone, -⟩ := (w.minmaxRestart h arg).cmdDone_spec (Obj.minmaxReset h) r.origin
      rw [hdone]
    rw [State.run_hkHalf, Work.hkHalf, hhk] at hentry
    exact Work.minmaxRestart_entry hentry hbit

/-- Settles O57: islands stop and run again, a READ waits for the seam island and is answered by it, and trackers are restarted. -/
theorem islandsStopAndRestart : Obligations.IslandsStopAndRestart := by
  unfold Obligations.IslandsStopAndRestart
  refine ⟨fun s i hpresent hsettled => ⟨fun gate h => ?_, fun gate hmanagement hrouter hprogramming hrunning => ?_, fun us hdraining hquiet hgate => ?_,
    fun us h => ?_, fun hstopped hpower hzero hparked hheld => ?_⟩, fun s r row k h hobj hwo hdom hstate hpayload hseam hstopped => ?_,
    fun s r row k hparked hobj hwo hdom hstate htarget hflags hrsv hhigh harg hpayload hsettled hstopped hpower hzero hwaiting hheld => ?_,
    fun s r h arg _ hstart => hstart.minmaxReset⟩
  · exact State.islandStop_of_unstoppable hpresent hsettled gate h
  · exact State.islandStop_drains hpresent hsettled gate hmanagement hrouter hprogramming hrunning
  · exact State.islandDrainComplete_stops hpresent hsettled us hdraining hquiet hgate
  · exact State.islandDrainComplete_waits hpresent us h
  · exact State.islandRestart_runs hpresent hsettled hstopped hpower hzero hparked hheld
  · exact State.read_parks h hobj hwo hdom hstate hpayload hseam hstopped
  · exact State.islandRestart_answers hparked hobj hwo hdom hstate htarget hflags hrsv hhigh harg hpayload hsettled hstopped hpower hzero hwaiting hheld

end Sys2Proof.Machine
end

section
/-! SUPPORT. Commands on variants and grammars, and TUNE_START (R333, R350, R357, R366, R374). -/

namespace Sys2Proof.Machine

/-! ## What answering leaves as it was -/

section
variable {s : State} {r : Req} {k : Key} {w : Work}

namespace State.answeredWork
variable (h : s.answeredWork r k w)
include h

theorem isManager : w.isManager = s.work.isManager := by
  rw [Work.isManager, Work.isManager, h.get _ (by decide)]
  rfl

theorem dom (q : Key) : w.dom q = s.work.dom q := by
  obtain ⟨⟨objs, dict, sent, rfl⟩, -, -⟩ := h
  rfl

theorem loaded (slot id : Nat) : w.loaded slot id = s.work.loaded slot id := by
  obtain ⟨⟨objs, dict, sent, rfl⟩, -, -⟩ := h
  rfl

theorem admission (slot : Nat) : w.admission slot = s.work.admission slot := by
  have hmanager := h.isManager
  obtain ⟨⟨objs, dict, sent, rfl⟩, -, -⟩ := h
  rw [Work.admission, Work.admission, hmanager]
  rfl

theorem charged : w.charged = s.work.charged := by
  have hmanager := h.isManager
  obtain ⟨⟨objs, dict, sent, rfl⟩, -, -⟩ := h
  rw [Work.charged, Work.charged, hmanager]

theorem reserveBytes : w.reserveBytes = s.work.reserveBytes := by
  have hmanager := h.isManager
  obtain ⟨⟨objs, dict, sent, rfl⟩, -, -⟩ := h
  rw [Work.reserveBytes, Work.reserveBytes, hmanager]
  rfl

theorem targetNs : w.targetNs = s.work.targetNs := by
  have hmanager := h.isManager
  have hstep : w.get Obj.stepTargetUs = s.work.get Obj.stepTargetUs := h.get _ (by decide)
  have hshare : w.get Obj.throttleStepShare = s.work.get Obj.throttleStepShare := h.get _ (by decide)
  obtain ⟨⟨objs, dict, sent, rfl⟩, -, -⟩ := h
  rw [Work.targetNs, Work.targetNs, Work.throttleRequest, Work.throttleRequest, hmanager, hstep, hshare]

/-- An action that has ended with success, and has done more since. -/
theorem run_commanded (hk : ¬ linkCounter k) {u : Work} {o : Origin} {parts : List StatePart} {keys : Key → Prop}
    (hget : u.get k = (w.cmdDone k o).get k) (hkeeps : s.keeps u ([.dict, .links] ++ parts) (fun x => x = k ∨ answerKey x ∨ keys x))
    (hsent : w.sent <+: u.sent) : s.commanded (s.run fun _ => u) r k parts keys := by
  refine ⟨h.accepted hsent, ?_, hkeeps.frame (by simp) fun _ hq => .inr (.inl (.inr hq))⟩
  rw [State.cmdStateOf, State.run_val _ _ _ hk, hget, Work.cmdDone_get, if_pos rfl]
  exact progressWord_state (by decide)
end State.answeredWork

/-- An action that runs on has accepted its WRITE and shows RUNNING. -/
theorem State.answeredWork.running (h : s.answeredWork r k w) (hk : ¬ linkCounter k) {u : Work} {o : Origin}
    (hget : u.get k = (w.cmdStart k 2 o).get k) (hsent : w.sent <+: u.sent) :
    s.acceptedAt (s.run fun _ => u) r k ∧ (s.run fun _ => u).cmdStateOf k = 2 := by
  refine ⟨h.accepted hsent, ?_⟩
  rw [State.cmdStateOf, State.run_val _ _ _ hk, hget]
  exact (congrArg (field · 3 0) ((Work.set_get _ _ _ _).trans (if_pos rfl))).trans (progressWord_state (by decide))
end

/-! ## The actions of the commands -/

section
variable (w : Work) (tenant arg : Nat) (o : Origin)

theorem Work.startAction_variantUnload : w.startAction (Obj.variantUnload tenant) arg o = w.variantUnloadCmd tenant arg o := by simp [Work.startAction]

theorem Work.startAction_variantPin : w.startAction Obj.variantPin arg o = w.variantPinCmd arg o := by simp [Work.startAction]

theorem Work.startAction_grammarDelete : w.startAction (Obj.grammarDelete tenant) arg o = w.grammarDelete (Obj.grammarDelete tenant) tenant arg o := by
  simp [Work.startAction]

theorem Work.startAction_globalGrammarDelete : w.startAction Obj.globalGrammarDelete arg o = w.grammarDelete Obj.globalGrammarDelete 0xFFFF arg o := by
  simp [Work.startAction]

theorem Work.startAction_variantLoad : w.startAction (Obj.variantLoad tenant) arg o = w.variantLoad tenant o := by simp [Work.startAction]

theorem Work.startAction_tuneStart : w.startAction (Obj.tuneStart tenant) arg o = w.tuneStart tenant o := by simp [Work.startAction]
end

/-! ## Away from the manager (R387) -/

section
variable {w : Work} (hfault : w.rel.deviceFault = none) (hrole : w.isManager = false) (tenant arg : Nat) (o : Origin)
include hfault hrole

theorem Work.variantUnloadCmd_of_not_manager : w.variantUnloadCmd tenant arg o = w.cmdFail (Obj.variantUnload tenant) o 0x3A := by
  simp [Work.variantUnloadCmd, hfault, hrole]

theorem Work.variantPinCmd_of_not_manager : w.variantPinCmd arg o = w.cmdFail Obj.variantPin o 0x3A := by
  simp [Work.variantPinCmd, hfault, hrole]

theorem Work.grammarDelete_of_not_manager (k : Key) : w.grammarDelete k tenant arg o = w.cmdFail k o 0x3A := by
  simp [Work.grammarDelete, hfault, hrole]

theorem Work.tuneStart_of_not_manager : w.tuneStart tenant o = w.cmdFail (Obj.tuneStart tenant) o 0x3A := by
  simp [Work.tuneStart, hfault, hrole]
end

/-! ## Variants (R350) -/

theorem Work.loaded_spec {s : Work} {slot id : Nat} {v : Variant} (h : s.loaded slot id = some v) :
    s.variant slot id = some v ∧ v.unloaded = false ∧ v.slot = slot ∧ v.id = id := by
  obtain ⟨hfound, hloaded⟩ := Option.filter_eq_some_iff.mp h
  have hnames := List.find?_some hfound
  simp only [Bool.and_eq_true, decide_eq_true_eq] at hnames
  exact ⟨hfound, by simpa using hloaded, hnames⟩

theorem Work.loaded_congr {s t : Work} (h : t.vars.variants = s.vars.variants) (slot id : Nat) : t.loaded slot id = s.loaded slot id := by
  rw [Work.loaded, Work.loaded, Work.variant, Work.variant, h]

/-- A variant that has been put is the one its slot and ID name. -/
theorem Work.putVariant_variant (s : Work) (v : Variant) : (s.putVariant v).variant v.slot v.id = some v := by
  have hothers : (s.vars.variants.filter (fun (y : Variant) => !(y.slot = v.slot && y.id = v.id))).find?
      (fun (y : Variant) => y.slot = v.slot && y.id = v.id) = none :=
    List.find?_eq_none.mpr fun y hy hnames => by
      have hnot := (List.mem_filter.mp hy).2
      rw [hnames] at hnot
      exact Bool.noConfusion hnot
  change (s.vars.variants.filter (fun (y : Variant) => !(y.slot = v.slot && y.id = v.id)) ++ [v]).find? _ = some v
  rw [List.find?_append, hothers]
  simp

theorem Work.putVariant_loaded (s : Work) (v : Variant) : (s.putVariant v).loaded v.slot v.id = if v.unloaded then none else some v := by
  rw [Work.loaded, Work.putVariant_variant]
  cases hv : v.unloaded <;> simp [hv]

/-- The sets of a variant that is unloaded, RETIRING. -/
def Work.setsRetired (s : Work) (slot id : Nat) : Work :=
  s.modVars (fun x => { x with sets := x.sets.map (fun (y : DeltaSet) =>
    if y.slot = slot ∧ y.variant = id ∧ (y.state = 2 ∨ y.ready) then { y with state := 3, ready := false } else y) })

/-- A variant as it is unloaded. -/
def Variant.gone (v : Variant) : Variant := { v with unloaded := true }

section
variable {s : Work} {slot id : Nat} {v : Variant} (hloaded : s.loaded slot id = some v)
include hloaded

theorem Work.unloadVariant_of_loaded : s.unloadVariant slot id = ((s.freezeFollows slot id).putVariant v.gone).setsRetired slot id := by
  unfold Work.unloadVariant
  rw [hloaded]
  rfl

theorem Work.unloadVariant_loaded : (s.unloadVariant slot id).loaded slot id = none := by
  obtain ⟨-, -, hslot, hid⟩ := Work.loaded_spec hloaded
  rw [Work.unloadVariant_of_loaded hloaded]
  have hput := (s.freezeFollows slot id).putVariant_loaded v.gone
  rw [show v.gone.slot = slot from hslot, show v.gone.id = id from hid] at hput
  exact (Work.loaded_congr (by rfl) slot id).trans (hput.trans (if_pos rfl))
end

section
variable (s : Work) (slot id : Nat)

theorem Work.freezeFollows_rest : ∃ serve, s.freezeFollows slot id = { s with serve := serve } := by
  unfold Work.freezeFollows
  split
  · exact ⟨_, rfl⟩
  · exact ⟨_, rfl⟩

theorem Work.unloadVariant_same : (s.unloadVariant slot id).objs = s.objs ∧ (s.unloadVariant slot id).sent = s.sent := by
  unfold Work.unloadVariant
  split
  · exact ⟨rfl, rfl⟩
  · obtain ⟨serve, hfreeze⟩ := s.freezeFollows_rest slot id
    change (s.freezeFollows slot id).objs = s.objs ∧ (s.freezeFollows slot id).sent = s.sent
    rw [hfreeze]
    exact ⟨rfl, rfl⟩
end

/-- A live FOLLOW request keeps the set in force when its variant is unloaded. -/
theorem Work.mem_unloadVariant_entries {s : Work} {slot id : Nat} {v : Variant} {x : DeltaSet} {e : Entry} (hloaded : s.loaded slot id = some v)
    (hset : s.currentSet slot id = some x) (he : e ∈ s.serve.entries) (hterminal : e.terminal = false) (hpin : e.pin = false)
    (hfrozen : e.frozen = false) (hslot : e.slot = slot) (hvariant : e.variant = id) :
    { e with version := x.version, frozen := true } ∈ (s.unloadVariant slot id).serve.entries := by
  rw [Work.unloadVariant_of_loaded hloaded]
  change _ ∈ (s.freezeFollows slot id).serve.entries
  unfold Work.freezeFollows
  rw [hset]
  refine List.mem_map.mpr ⟨e, he, if_pos ?_⟩
  simp [hterminal, hpin, hfrozen, hslot, hvariant]

theorem State.keeps.unloadVariant {s : State} {w : Work} {parts : List StatePart} {keys : Key → Prop} (h : s.keeps w parts keys)
    (hvars : StatePart.vars ∈ parts) (hserve : StatePart.serve ∈ parts) (slot id : Nat) : s.keeps (w.unloadVariant slot id) parts keys := by
  unfold Work.unloadVariant
  split
  · exact h
  · refine State.keeps.modVars (State.keeps.modVars ?_ hvars _) hvars _
    unfold Work.freezeFollows
    split
    · exact h
    · exact h.modServe hserve _

/-- Freeing an ID changes the grammars alone. -/
theorem Work.grammarUnname_same (u : Work) (owner id : Nat) : ((u.grammarUnname owner id).collectGrammars).objs = u.objs ∧
    ((u.grammarUnname owner id).collectGrammars).sent = u.sent := ⟨rfl, rfl⟩

/-! ## The commands on variants and grammars (R333, R350, R374) -/

section
variable {s : State} {r : Req} {tenant arg : Nat} (hfault : s.dev.rel.deviceFault = none)
include hfault

theorem State.answeredWork.deviceFault {k : Key} {w : Work} (h : s.answeredWork r k w) : w.rel.deviceFault = none :=
  (congrArg RelState.deviceFault (h.same .rel (by decide))).trans hfault

/-- Each of these commands fails away from the manager. -/
theorem State.startsAt.not_manager {c : Instr} {k : Key}
    (hc : (c = .variantUnload r ∧ k = Obj.variantUnload tenant) ∨ (c = .variantPin r ∧ k = Obj.variantPin) ∨
      (c = .grammarDelete r ∧ k = Obj.grammarDelete tenant) ∨ (c = .globalGrammarDelete r ∧ k = Obj.globalGrammarDelete) ∨
      (c = .tuneStart r ∧ k = Obj.tuneStart tenant)) (h : s.startsAt r k arg) (hrole : s.val Obj.role ≠ 1) :
    ∃ t, exec c s = .next t ∧ s.commandFails t r k 0x3A := by
  have hrow : requestRow c 2 (reqAt r k.index k.sub) ∧ ¬ linkCounter k ∧ k ≠ Obj.deviceReset := by
    rcases hc with ⟨rfl, rfl⟩ | ⟨rfl, rfl⟩ | ⟨rfl, rfl⟩ | ⟨rfl, rfl⟩ | ⟨rfl, rfl⟩ <;>
      exact ⟨fun _ => rfl, by simp [linkCounter], by simp⟩
  obtain ⟨hrequest, hcounter, hreset⟩ := hrow
  obtain ⟨w, hw, hexec⟩ := h.exec_eq hreset hrequest
  have hno : w.isManager = false := by
    rw [hw.isManager]
    exact decide_eq_false hrole
  have hnofault := State.answeredWork.deviceFault hfault hw
  have hact : w.startAction k arg r.origin = w.cmdFail k r.origin 0x3A := by
    rcases hc with ⟨-, rfl⟩ | ⟨-, rfl⟩ | ⟨-, rfl⟩ | ⟨-, rfl⟩ | ⟨-, rfl⟩
    · exact (w.startAction_variantUnload ..).trans (Work.variantUnloadCmd_of_not_manager hnofault hno ..)
    · exact (w.startAction_variantPin ..).trans (Work.variantPinCmd_of_not_manager hnofault hno ..)
    · exact (w.startAction_grammarDelete ..).trans (Work.grammarDelete_of_not_manager hnofault hno ..)
    · exact (w.startAction_globalGrammarDelete ..).trans (Work.grammarDelete_of_not_manager hnofault hno ..)
    · exact (w.startAction_tuneStart ..).trans (Work.tuneStart_of_not_manager hnofault hno ..)
  rw [hact] at hexec
  exact ⟨_, hexec, hw.run_cmdFail hcounter r.origin (by decide)⟩

variable (hrole : s.val Obj.role = 1)
include hrole

omit hfault in
theorem State.answeredWork.manages {k : Key} {w : Work} (h : s.answeredWork r k w) : w.isManager = true := by
  rw [h.isManager]
  exact decide_eq_true hrole

theorem State.startsAt.variantUnload {v : Variant} (h : s.startsAt r (Obj.variantUnload tenant) arg)
    (hloaded : s.work.loaded (field arg 13 12) (field arg 11 0) = some v) (howner : v.owner = tenant) :
    ∃ t, exec (.variantUnload r) s = .next t ∧ s.commanded t r (Obj.variantUnload tenant) [.vars, .serve] (fun _ => False) ∧
      t.work.loaded (field arg 13 12) (field arg 11 0) = none ∧
      ∀ x, s.work.currentSet (field arg 13 12) (field arg 11 0) = some x → ∀ e ∈ s.dev.serve.entries, e.terminal = false → e.pin = false →
        e.frozen = false → e.slot = field arg 13 12 → e.variant = field arg 11 0 → { e with version := x.version, frozen := true } ∈ t.dev.serve.entries := by
  obtain ⟨w, hw, hexec⟩ := h.exec_eq (c := .variantUnload r) (by simp) fun _ => rfl
  have hact : w.startAction (Obj.variantUnload tenant) arg r.origin =
      (w.cmdDone (Obj.variantUnload tenant) r.origin).unloadVariant (field arg 13 12) (field arg 11 0) := by
    rw [Work.startAction_variantUnload]
    simp [Work.variantUnloadCmd, State.answeredWork.deviceFault hfault hw, State.answeredWork.manages hrole hw, hw.loaded, hloaded, howner]
  obtain ⟨hvars, hserve⟩ : (w.cmdDone (Obj.variantUnload tenant) r.origin).vars = s.work.vars ∧
      (w.cmdDone (Obj.variantUnload tenant) r.origin).serve = s.work.serve := by
    obtain ⟨objs, dict, sent, hdone⟩ := w.cmdDone_rest (Obj.variantUnload tenant) r.origin
    rw [hdone]
    exact ⟨hw.same .vars (by decide), hw.same .serve (by decide)⟩
  have hstill : (w.cmdDone (Obj.variantUnload tenant) r.origin).loaded (field arg 13 12) (field arg 11 0) = some v :=
    (Work.loaded_congr (congrArg VarState.variants hvars) _ _).trans hloaded
  obtain ⟨hobjs, hsent⟩ := (w.cmdDone (Obj.variantUnload tenant) r.origin).unloadVariant_same (field arg 13 12) (field arg 11 0)
  rw [hact] at hexec
  refine ⟨_, hexec, hw.run_commanded (o := r.origin) (by simp [linkCounter]) ?_ ?_ ?_, ?_, fun x hset e he hterminal hpin hfrozen hslot hvariant => ?_⟩
  · rw [Work.get, hobjs, ← Work.get]
  · exact ((hw.keeps (by simp) (.inr (.inl (.inl rfl)))).cmdDone (by simp) (.inl rfl) r.origin).unloadVariant (by simp) (by simp) _ _
  · rw [hsent]
    exact Work.sent_prefix_cmdDone ..
  · exact (Work.loaded_congr (by rw [State.work_toDev, State.run_vars]) _ _).trans (Work.unloadVariant_loaded hstill)
  · rw [State.run_serve]
    refine Work.mem_unloadVariant_entries hstill ?_ (by rw [hserve]; exact he) hterminal hpin hfrozen hslot hvariant
    rw [← hset, Work.currentSet, Work.currentSet, hvars]

theorem State.startsAt.variantPin {v : Variant} (h : s.startsAt r Obj.variantPin arg)
    (hloaded : s.work.loaded (field arg 13 12) (field arg 11 0) = some v) :
    ∃ t, exec (.variantPin r) s = .next t ∧ s.commanded t r Obj.variantPin [.vars] (fun _ => False) ∧
      t.work.loaded (field arg 13 12) (field arg 11 0) = some { v with pinned := bitAt arg 16 } := by
  obtain ⟨w, hw, hexec⟩ := h.exec_eq (c := .variantPin r) (by simp) fun _ => rfl
  obtain ⟨-, hin, hslot, hid⟩ := Work.loaded_spec hloaded
  have hact : w.startAction Obj.variantPin arg r.origin = (w.cmdDone Obj.variantPin r.origin).putVariant { v with pinned := bitAt arg 16 } := by
    rw [Work.startAction_variantPin]
    simp [Work.variantPinCmd, State.answeredWork.deviceFault hfault hw, State.answeredWork.manages hrole hw, hw.loaded, hloaded]
  rw [hact] at hexec
  refine ⟨_, hexec, hw.run_commanded (o := r.origin) (by simp [linkCounter]) rfl ?_ ?_, ?_⟩
  · exact ((hw.keeps (by simp) (.inr (.inl (.inl rfl)))).cmdDone (by simp) (.inl rfl) r.origin).modVars (by simp) _
  · exact Work.sent_prefix_cmdDone ..
  · have hput := (w.cmdDone Obj.variantPin r.origin).putVariant_loaded { v with pinned := bitAt arg 16 }
    rw [← hslot, ← hid]
    exact (Work.loaded_congr (by rw [State.work_toDev, State.run_vars]) _ _).trans (hput.trans (if_neg (by simp [hin])))

/-- Either command frees the ID for its owner. -/
theorem State.startsAt.grammarDelete {c : Instr} {k : Key} {owner : Nat}
    (hc : (c = .grammarDelete r ∧ k = Obj.grammarDelete tenant ∧ owner = tenant) ∨ (c = .globalGrammarDelete r ∧ k = Obj.globalGrammarDelete ∧ owner = 0xFFFF))
    (h : s.startsAt r k arg) (hinstalled : ∃ g ∈ s.dev.serve.grammars, g.installed = true ∧ g.owner = owner ∧ g.id = arg) :
    ∃ t, exec c s = .next t ∧ s.commanded t r k [.serve] (fun _ => False) ∧
      ∀ g ∈ t.dev.serve.grammars, g.owner = owner → g.id = arg → g.installed = false := by
  have hrow : requestRow c 2 (reqAt r k.index k.sub) ∧ ¬ linkCounter k ∧ k ≠ Obj.deviceReset := by
    rcases hc with ⟨rfl, rfl, -⟩ | ⟨rfl, rfl, -⟩ <;> exact ⟨fun _ => rfl, by simp [linkCounter], by simp⟩
  obtain ⟨hrequest, hcounter, hreset⟩ := hrow
  obtain ⟨w, hw, hexec⟩ := h.exec_eq hreset hrequest
  have hact : w.startAction k arg r.origin = w.grammarDelete k owner arg r.origin := by
    rcases hc with ⟨-, rfl, rfl⟩ | ⟨-, rfl, rfl⟩
    · exact w.startAction_grammarDelete ..
    · exact w.startAction_globalGrammarDelete ..
  have hserve : w.serve = s.dev.serve := hw.same .serve (by decide)
  have hany : w.serve.grammars.any (fun (g : Grammar) => g.installed && g.owner = owner && g.id = arg) = true := by
    obtain ⟨g, hg, hin, howner, hid⟩ := hinstalled
    rw [hserve]
    exact List.any_eq_true.mpr ⟨g, hg, by simp [hin, howner, hid]⟩
  have hdelete : w.grammarDelete k owner arg r.origin = ((w.cmdDone k r.origin).grammarUnname owner arg).collectGrammars := by
    simp [Work.grammarDelete, State.answeredWork.deviceFault hfault hw, State.answeredWork.manages hrole hw, -List.any_eq_true, hany]
  obtain ⟨hobjs, hsent⟩ := (w.cmdDone k r.origin).grammarUnname_same owner arg
  rw [hact, hdelete] at hexec
  refine ⟨_, hexec, hw.run_commanded (o := r.origin) hcounter ?_ ?_ (by rw [hsent]; exact Work.sent_prefix_cmdDone ..), fun g hg howner hid => ?_⟩
  · rw [Work.get, hobjs, ← Work.get]
  · exact (((hw.keeps (by simp) (.inr (.inl (.inl rfl)))).cmdDone (by simp) (.inl rfl) r.origin).modServe (by simp) _).modServe (by simp) _
  · rw [State.run_serve] at hg
    obtain ⟨x, -, rfl⟩ := List.mem_map.mp (List.mem_filter.mp hg).1
    split
    next => rfl
    next hnot =>
      rw [if_neg hnot] at howner hid
      simpa [howner, hid] using hnot
end

end Sys2Proof.Machine
end

section
/-! SUPPORT. VARIANT_LOAD and TUNE_START at the manager (R357, R365, R366). -/

namespace Sys2Proof.Machine

/-! ## Orders to every worker -/

theorem Work.foldl_toMember (m : FabricMsg) (ds : List Nat) (u : Work) :
    ds.foldl (fun (s : Work) (d : Nat) => s.toMember d m) u = { u with sent := u.sent ++ ds.map (fun d => .fabric (some d) none m) } := by
  induction ds generalizing u with
  | nil => simp
  | cons d ds ih =>
    rw [List.foldl_cons, ih]
    simp [Work.toMember, Work.send]

theorem Work.orderAll_of_formed {u : Work} (hformed : u.formed = true) (o : OrderKind) :
    u.orderAll o = { u with sent := u.sent ++ u.workers.map (fun d => .fabric (some d) none (.order o none)) } := by
  unfold Work.orderAll
  rw [hformed]
  exact Work.foldl_toMember _ _ _

/-- An order changes what is sent alone. -/
theorem Work.orderAll_rest (u : Work) (o : OrderKind) : ∃ os, u.orderAll o = { u with sent := u.sent ++ os } := by
  cases hformed : u.formed with
  | true => exact ⟨_, Work.orderAll_of_formed hformed o⟩
  | false => exact ⟨[], by simp [Work.orderAll, hformed]⟩

/-! ## What answering leaves of what these actions read -/

namespace State.answeredWork
section
variable {s : State} {r : Req} {k : Key} {w : Work} (h : s.answeredWork r k w)
include h

theorem jobNames (slot id : Nat) : w.jobNames slot id = s.work.jobNames slot id := by
  obtain ⟨⟨objs, dict, sent, rfl⟩, -, -⟩ := h
  rfl

theorem tenantCharged (t : Nat) : w.tenantCharged t = s.work.tenantCharged t := by
  obtain ⟨⟨objs, dict, sent, rfl⟩, -, -⟩ := h
  rfl

theorem slotSets (slot : Nat) : w.slotSets slot = s.work.slotSets slot := by
  obtain ⟨⟨objs, dict, sent, rfl⟩, -, -⟩ := h
  rfl

theorem workers : w.workers = s.work.workers := by
  obtain ⟨⟨objs, dict, sent, rfl⟩, -, -⟩ := h
  rfl

theorem currentSet (slot id : Nat) : w.currentSet slot id = s.work.currentSet slot id := by
  obtain ⟨⟨objs, dict, sent, rfl⟩, -, -⟩ := h
  rfl

theorem windowSpan (owner offset len : Nat) : w.windowSpan owner offset len = s.work.windowSpan owner offset len := by
  obtain ⟨⟨objs, dict, sent, rfl⟩, -, -⟩ := h
  rfl

theorem memPoisoned (addr len : Nat) : w.memPoisoned addr len = s.work.memPoisoned addr len := by
  obtain ⟨⟨objs, dict, sent, rfl⟩, -, -⟩ := h
  rfl

theorem jobRecords (tenant off len : Nat) : w.jobRecords tenant off len = s.work.jobRecords tenant off len := by
  obtain ⟨⟨objs, dict, sent, rfl⟩, -, -⟩ := h
  rfl

theorem slotVocab (slot : Nat) : w.slotVocab slot = s.work.slotVocab slot := by
  obtain ⟨⟨objs, dict, sent, rfl⟩, -, -⟩ := h
  rfl

theorem tuneProgram (slot : Nat) : w.tuneProgram slot = s.work.tuneProgram slot := by
  obtain ⟨⟨objs, dict, sent, rfl⟩, -, -⟩ := h
  rfl

theorem estimate_tuneCost (items : List Item) : w.estimate w.tuneCost items = s.work.estimate s.work.tuneCost items := by
  obtain ⟨⟨objs, dict, sent, rfl⟩, -, -⟩ := h
  rfl

theorem vars : w.vars = s.work.vars := by
  obtain ⟨⟨objs, dict, sent, rfl⟩, -, -⟩ := h
  rfl
end
end State.answeredWork

/-! ## VARIANT_LOAD (R357) -/

theorem evictPrefix_of_room {charged sets reserve n : Nat} (h : charged + n ≤ reserve ∧ sets < 4096) (slot : Nat) (taken cands : List DeltaSet) :
    evictPrefix charged sets reserve n slot taken cands = some taken := by
  cases cands with
  | nil => exact if_pos h
  | cons x rest => exact if_pos h

/-- With room in the reserve nothing is evicted. -/
theorem Work.place_of_room {w : Work} {slot n : Nat} (hroom : w.charged + n ≤ w.reserveBytes) (hsets : w.slotSets slot < 4096) :
    w.place slot n = .ok [] := by
  simp only [Work.place, evictPrefix_of_room ⟨hroom, hsets⟩]

/-- A load that begins. -/
def Work.loadBegun (w : Work) (run : VarLoad) (o : Origin) : Work :=
  ((w.modVars (fun v => { v with nextHandle := v.nextHandle + 1 })).cmdStart run.key 2 o).modVars (fun v => { v with loads := v.loads ++ [run] })

theorem Work.variantLoad_of_room {w : Work} {t slot id n : Nat} {o : Origin} {b : List Byte} (hfault : w.rel.deviceFault = none) (hmanager : w.isManager = true)
    (hb : (w.dom (Obj.variantLoadRequest t)).bytes = b) (hne : b ≠ []) (hslot : slot = leAt b 0 1 % 4) (hid : id = leAt b 2 2) (hn : n = leAt b 16 8)
    (hadmission : w.admission slot = 0) (hloaded : w.loaded slot id = none) (hjob : w.jobNames slot id = false) (hversion : leAt b 4 4 = 0)
    (hshared : bitAt (leAt b 1 1) 1 = false) (hcap : w.tenantCharged t + n ≤ w.get (Obj.tenantDeltaCap t) * 2 ^ 20)
    (hroom : w.charged + n ≤ w.reserveBytes) (hsets : w.slotSets slot < 4096) (hworkers : w.workers ≠ []) :
    ∃ run : VarLoad, run.key = Obj.variantLoad t ∧ run.waiting = w.workers ∧
      w.variantLoad t o = (w.loadBegun run o).orderAll (.deltaLoad slot id t (leAt b 8 8) n [] false) := by
  subst hslot hid hn hb
  unfold Work.variantLoad
  extract_lets key b fail slot id shared owner n
  have howner : shared = false := hshared
  rw [if_neg (by simp [hfault]), if_neg (by simp [hmanager]), if_neg (not_or.mpr ⟨by simpa using hne, not_not.mpr hadmission⟩),
    show w.loaded slot id = none from hloaded, if_neg (by simp), if_neg (by rw [show w.jobNames slot id = false from hjob]; exact Bool.false_ne_true),
    if_neg (by rintro ⟨h, -⟩; exact h hversion), if_neg (by rintro ⟨-, h⟩; exact absurd hcap (Nat.not_le.mpr h)),
    show w.place slot n = .ok [] from Work.place_of_room hroom hsets]
  refine ⟨⟨key, ⟨w.vars.nextHandle, slot, id, 0, 1, false, n, 0, 0, owner⟩, bitAt (leAt b 1 1) 0, t, leAt b 8 8, n, w.workers, []⟩, rfl, rfl, ?_⟩
  have hwaiting : (!w.workers.isEmpty) = true := by simpa using hworkers
  exact if_pos hwaiting

theorem State.startsAt.variantLoad {s : State} {r : Req} {tenant arg slot id n : Nat} {b : List Byte} (hfault : s.dev.rel.deviceFault = none)
    (h : s.startsAt r (Obj.variantLoad tenant) arg) (hrole : s.val Obj.role = 1) (hb : b = s.domBytes (Obj.variantLoadRequest tenant)) (hne : b ≠ [])
    (hslot : slot = leAt b 0 1 % 4) (hid : id = leAt b 2 2) (hn : n = leAt b 16 8) (hadmission : s.work.admission slot = 0)
    (hloaded : s.work.loaded slot id = none) (hjob : s.work.jobNames slot id = false) (hversion : leAt b 4 4 = 0)
    (hshared : bitAt (leAt b 1 1) 1 = false) (hcap : s.work.tenantCharged tenant + n ≤ s.val (Obj.tenantDeltaCap tenant) * 2 ^ 20)
    (hroom : s.work.charged + n ≤ s.work.reserveBytes) (hsets : s.work.slotSets slot < 4096) (hworkers : s.work.workers ≠ [])
    (hformed : s.val Obj.groupState = 2) :
    ∃ t, exec (.variantLoad r) s = .next t ∧ s.acceptedAt t r (Obj.variantLoad tenant) ∧ t.cmdStateOf (Obj.variantLoad tenant) = 2 ∧
      (∀ d ∈ s.work.workers, Output.fabric (some d) none (.order (.deltaLoad slot id tenant (leAt b 8 8) n [] false) none) ∈ t.out.drop s.out.length) ∧
      ∃ l ∈ t.dev.vars.loads, l.key = Obj.variantLoad tenant ∧ l.waiting = s.work.workers := by
  obtain ⟨w, hw, hexec⟩ := h.exec_eq (c := .variantLoad r) (by simp) fun _ => rfl
  have hcap' : w.get (Obj.tenantDeltaCap tenant) = s.val (Obj.tenantDeltaCap tenant) := hw.get _ (by simp)
  obtain ⟨run, hkey, hwaiting, hload⟩ := Work.variantLoad_of_room (w := w) (t := tenant) (o := r.origin) (State.answeredWork.deviceFault hfault hw)
    (State.answeredWork.manages hrole hw) (by rw [hw.dom]; exact hb.symm) hne hslot hid hn
    (by rw [hw.admission]; exact hadmission) (by rw [hw.loaded]; exact hloaded) (by rw [hw.jobNames]; exact hjob) hversion hshared
    (by rw [hw.tenantCharged, hcap']; exact hcap) (by rw [hw.charged, hw.reserveBytes]; exact hroom) (by rw [hw.slotSets]; exact hsets)
    (by rw [hw.workers]; exact hworkers)
  have hgroup : (w.loadBegun run r.origin).formed = true := by
    have hstate : (w.loadBegun run r.origin).get Obj.groupState = w.get Obj.groupState := by
      refine (Work.set_get _ _ _ _).trans (if_neg ?_)
      rw [hkey]
      simp
    rw [Work.formed, hstate, hw.get _ (by decide)]
    exact decide_eq_true hformed
  have hact : w.startAction (Obj.variantLoad tenant) arg r.origin = { w.loadBegun run r.origin with
      sent := w.sent ++ s.work.workers.map (fun d => .fabric (some d) none (.order (.deltaLoad slot id tenant (leAt b 8 8) n [] false) none)) } := by
    rw [Work.startAction_variantLoad, hload, Work.orderAll_of_formed hgroup, ← hw.workers]
    rfl
  rw [hact] at hexec
  obtain ⟨haccepted, hrunning⟩ := hw.running (o := r.origin) (by simp [linkCounter]) (u := { w.loadBegun run r.origin with
      sent := w.sent ++ s.work.workers.map (fun d => .fabric (some d) none (.order (.deltaLoad slot id tenant (leAt b 8 8) n [] false) none)) })
    (by rw [← hkey]; rfl) (List.prefix_append _ _)
  refine ⟨_, hexec, haccepted, hrunning, fun d hd => State.mem_drop_run_out (List.mem_append_right _ (List.mem_map.mpr ⟨d, hd, rfl⟩)), run, ?_, hkey,
    hwaiting.trans hw.workers⟩
  rw [State.run_vars]
  exact List.mem_append_right _ (List.mem_singleton.mpr rfl)

/-! ## TUNE_START (R366) -/

/-- A job that begins, beside those whose records are kept. -/
def Work.jobBegun (w : Work) (key : Key) (kept : List TuneJob) (j : TuneJob) (o : Origin) : Work :=
  (w.cmdStart key 2 o).modVars (fun x => { x with jobs := kept ++ [j], nextHandle := w.vars.nextHandle + 1 })

/-- What a job that begins runs on. -/
structure TuneJob.beginsOn (j : TuneJob) (tenant slot id : Nat) (base : DeltaSet) : Prop where
  forTenant : j.tenant = tenant
  onSlot : j.slot = slot
  onVariant : j.variant = id
  queued : j.state = 1
  fromVersion : j.base = base.version
  withValues : j.values = base.values

theorem Work.tuneStart_of_fit {w : Work} {t slot id a : Nat} {o : Origin} {b : List Byte} {v : Variant} {base : DeltaSet} {rs : List TuneRec}
    (hfault : w.rel.deviceFault = none) (hmanager : w.isManager = true) (hb : (w.dom (Obj.tuneJob t)).bytes = b) (hne : b ≠ [])
    (hslot : slot = leAt b 0 1 % 4) (hid : id = leAt b 2 2) (hadmission : w.admission slot = 0) (hloaded : w.loaded slot id = some v) (howner : v.owner = t)
    (hjob : w.jobNames slot id = false) (hfew : (w.vars.jobs.filter TuneJob.active).length < 16) (hprogram : (w.dom (Obj.tuneProgram slot)).bytes ≠ [])
    (hspan : w.windowSpan t (leAt b 16 8) (leAt b 24 8) = some a) (hversion : leAt b 4 4 = 0) (hbase : w.currentSet slot id = some base)
    (hclean : w.memPoisoned a (leAt b 24 8) = false) (hrecords : w.jobRecords t (leAt b 16 8) (leAt b 24 8) = some rs) (hsome : rs ≠ [])
    (htokens : ∀ x ∈ rs, ∀ y ∈ x.tokens, y < w.slotVocab slot)
    (htime : w.estimate w.tuneCost [tuneItem (w.tuneProgram slot) slot base.handle (maxNat (rs.map (·.length)))] ≤ w.targetNs)
    (hcap : w.tenantCharged t + (base.bytes + 4 * base.values) ≤ w.get (Obj.tenantDeltaCap t) * 2 ^ 20)
    (hroom : w.charged + (base.bytes + 4 * base.values) ≤ w.reserveBytes) :
    ∃ kept j ord, j.beginsOn t slot id base ∧ w.tuneStart t o = (w.jobBegun (Obj.tuneStart t) kept j o).orderAll ord := by
  subst hslot hid hb
  have hknown : rs.any (fun (r : TuneRec) => r.tokens.any (fun x => decide (w.slotVocab (leAt (w.dom (Obj.tuneJob t)).bytes 0 1 % 4) ≤ x))) = false := by
    simpa [Nat.not_le] using htokens
  unfold Work.tuneStart
  extract_lets key b fail slot id newest off len
  have hnewest : newest = some base := (if_pos hversion).trans hbase
  rw [if_neg (by simp [hfault]), if_neg (by simp [hmanager]), if_neg (not_or.mpr ⟨by simpa using hne, not_not.mpr hadmission⟩),
    show w.loaded slot id = some v from hloaded]
  dsimp only
  rw [if_neg (by rintro ⟨h, -⟩; exact h howner), if_neg (by rw [show w.jobNames slot id = false from hjob]; exact Bool.false_ne_true),
    if_neg (Nat.not_le.mpr hfew), if_neg (by simpa using hprogram), show w.windowSpan t off len = some a from hspan, hnewest]
  dsimp only
  rw [if_neg (by rw [show w.memPoisoned a len = false from hclean]; exact Bool.false_ne_true), show w.jobRecords t off len = some rs from hrecords]
  dsimp only
  rw [if_neg (not_or.mpr ⟨by simpa using hsome, not_or.mpr ⟨by rw [hknown]; exact Bool.false_ne_true, not_lt.mpr htime⟩⟩),
    if_neg (Nat.not_lt.mpr hcap), if_neg (Nat.not_lt.mpr hroom)]
  exact ⟨_, _, _, by exact ⟨rfl, rfl, rfl, rfl, rfl, rfl⟩, rfl⟩

theorem State.startsAt.tuneStart {s : State} {r : Req} {tenant arg slot id a : Nat} {b : List Byte} {v : Variant} {base : DeltaSet} {rs : List TuneRec}
    (hfault : s.dev.rel.deviceFault = none) (h : s.startsAt r (Obj.tuneStart tenant) arg) (hrole : s.val Obj.role = 1)
    (hb : b = s.domBytes (Obj.tuneJob tenant)) (hne : b ≠ []) (hslot : slot = leAt b 0 1 % 4) (hid : id = leAt b 2 2) (hadmission : s.work.admission slot = 0)
    (hloaded : s.work.loaded slot id = some v) (howner : v.owner = tenant) (hjob : s.work.jobNames slot id = false)
    (hfew : (s.dev.vars.jobs.filter TuneJob.active).length < 16) (hprogram : s.domBytes (Obj.tuneProgram slot) ≠ [])
    (hspan : s.work.windowSpan tenant (leAt b 16 8) (leAt b 24 8) = some a) (hversion : leAt b 4 4 = 0) (hbase : s.work.currentSet slot id = some base)
    (hclean : s.work.memPoisoned a (leAt b 24 8) = false) (hrecords : s.work.jobRecords tenant (leAt b 16 8) (leAt b 24 8) = some rs) (hsome : rs ≠ [])
    (htokens : ∀ x ∈ rs, ∀ y ∈ x.tokens, y < s.work.slotVocab slot)
    (htime : s.work.estimate s.work.tuneCost [tuneItem (s.work.tuneProgram slot) slot base.handle (maxNat (rs.map (·.length)))] ≤ s.work.targetNs)
    (hcap : s.work.tenantCharged tenant + (base.bytes + 4 * base.values) ≤ s.val (Obj.tenantDeltaCap tenant) * 2 ^ 20)
    (hroom : s.work.charged + (base.bytes + 4 * base.values) ≤ s.work.reserveBytes) :
    ∃ t, exec (.tuneStart r) s = .next t ∧ s.acceptedAt t r (Obj.tuneStart tenant) ∧ t.cmdStateOf (Obj.tuneStart tenant) = 2 ∧
      ∃ j ∈ t.dev.vars.jobs, j.tenant = tenant ∧ j.slot = slot ∧ j.variant = id ∧ j.state = 1 ∧ j.base = base.version ∧ j.values = base.values := by
  obtain ⟨w, hw, hexec⟩ := h.exec_eq (c := .tuneStart r) (by simp) fun _ => rfl
  have hcap' : w.get (Obj.tenantDeltaCap tenant) = s.val (Obj.tenantDeltaCap tenant) := hw.get _ (by simp)
  obtain ⟨kept, j, ord, hj, htune⟩ := Work.tuneStart_of_fit (w := w) (t := tenant) (o := r.origin) (v := v) (base := base) (rs := rs) (a := a)
    (State.answeredWork.deviceFault hfault hw) (State.answeredWork.manages hrole hw) (by rw [hw.dom]; exact hb.symm) hne hslot hid
    (by rw [hw.admission]; exact hadmission) (by rw [hw.loaded]; exact hloaded) howner (by rw [hw.jobNames]; exact hjob)
    (by rw [hw.vars]; exact hfew) (by rw [hw.dom]; exact hprogram) (by rw [hw.windowSpan]; exact hspan) hversion
    (by rw [hw.currentSet]; exact hbase) (by rw [hw.memPoisoned]; exact hclean) (by rw [hw.jobRecords]; exact hrecords) hsome
    (by rw [hw.slotVocab]; exact htokens) (by rw [hw.estimate_tuneCost, hw.tuneProgram, hw.targetNs]; exact htime)
    (by rw [hw.tenantCharged, hcap']; exact hcap) (by rw [hw.charged, hw.reserveBytes]; exact hroom)
  obtain ⟨os, horder⟩ := (w.jobBegun (Obj.tuneStart tenant) kept j r.origin).orderAll_rest ord
  rw [Work.startAction_tuneStart, htune, horder] at hexec
  obtain ⟨haccepted, hrunning⟩ := hw.running (o := r.origin) (by simp [linkCounter])
    (u := { w.jobBegun (Obj.tuneStart tenant) kept j r.origin with sent := (w.jobBegun (Obj.tuneStart tenant) kept j r.origin).sent ++ os }) rfl (List.prefix_append _ _)
  refine ⟨_, hexec, haccepted, hrunning, j, ?_, hj.forTenant, hj.onSlot, hj.onVariant, hj.queued, hj.fromVersion, hj.withValues⟩
  rw [State.run_vars]
  exact List.mem_append_right _ (List.mem_singleton.mpr rfl)

/-- Settles O43: each command is the answer of its WRITE and then its action's equation. -/
theorem variantAndGrammarCommandsAct : Obligations.VariantAndGrammarCommandsAct := by
  unfold Obligations.VariantAndGrammarCommandsAct
  intro s r tenant arg hfault
  refine ⟨fun c k hc h hrole => ?_, fun v h hrole hloaded howner => ?_, fun v h hrole hloaded => ?_, fun c k owner hc h hrole hinstalled => ?_,
    fun b slot id n h hrole hb hne hslot hid hn hadmission hloaded hjob hversion hshared hcap hroom hsets hworkers hformed => ?_,
    fun b slot id v base a rs h hrole hb hne hslot hid hadmission hloaded howner hjob hfew hprogram hspan hversion hbase hclean hrecords hsome htokens
      htime hcap hroom => ?_⟩
  · exact State.startsAt.not_manager hfault hc h hrole
  · exact State.startsAt.variantUnload hfault hrole h hloaded howner
  · exact State.startsAt.variantPin hfault hrole h hloaded
  · exact State.startsAt.grammarDelete hfault hrole hc h hinstalled
  · exact State.startsAt.variantLoad hfault h hrole hb hne hslot hid hn hadmission hloaded hjob hversion hshared hcap hroom hsets hworkers hformed
  · exact State.startsAt.tuneStart hfault h hrole hb hne hslot hid hadmission hloaded howner hjob hfew hprogram hspan hversion hbase hclean hrecords hsome
      htokens htime hcap hroom

end Sys2Proof.Machine
end

section
/-! SUPPORT. The field of the memory code, and the decoding of one symbol in error (R469, R470). -/

namespace Sys2Proof.Machine

/-! ## Doubling is linear and can be undone -/

theorem gfDouble_lt : ∀ a < 256, gfDouble a < 256 := by decide +kernel

theorem gfDouble_eq_shifts : ∀ a < 256, gfDouble a = (a <<< 1) ^^^ (285 * (a >>> 7)) := by decide +kernel

theorem gfDouble_xor {a b : Nat} (ha : a < 256) (hb : b < 256) : gfDouble (a ^^^ b) = gfDouble a ^^^ gfDouble b := by
  have hcarry : ∀ p < 2, ∀ q < 2, 285 * (p ^^^ q) = (285 * p) ^^^ (285 * q) := by decide
  have htop {x : Nat} (hx : x < 256) : x >>> 7 < 2 := by
    rw [Nat.shiftRight_eq_div_pow]
    omega
  rw [gfDouble_eq_shifts _ (Nat.xor_lt_two_pow (n := 8) ha hb), gfDouble_eq_shifts a ha, gfDouble_eq_shifts b hb, Nat.shiftLeft_xor_distrib,
    Nat.shiftRight_xor_distrib, hcarry _ (htop ha) _ (htop hb)]
  ac_rfl

/-- What doubling is undone by. -/
def gfHalve (a : Nat) : Nat := if a % 2 = 1 then (a ^^^ 0x11D) / 2 else a / 2

theorem gfHalve_gfDouble : ∀ a < 256, gfHalve (gfDouble a) = a := by decide +kernel

theorem gfDouble_injective {a b : Nat} (ha : a < 256) (hb : b < 256) (h : gfDouble a = gfDouble b) : a = b := by
  rw [← gfHalve_gfDouble a ha, ← gfHalve_gfDouble b hb, h]

theorem gfDouble_iterate_lt (n : Nat) {a : Nat} (ha : a < 256) : gfDouble^[n] a < 256 := by
  induction n generalizing a with
  | zero => exact ha
  | succ n ih => exact ih (gfDouble_lt a ha)

theorem gfDouble_iterate_injective (n : Nat) {a b : Nat} (ha : a < 256) (hb : b < 256) (h : gfDouble^[n] a = gfDouble^[n] b) : a = b := by
  induction n generalizing a b with
  | zero => exact h
  | succ n ih => exact gfDouble_injective ha hb (ih (gfDouble_lt a ha) (gfDouble_lt b hb) h)

theorem gfDouble_iterate_zero (n : Nat) : gfDouble^[n] 0 = 0 := Function.iterate_fixed rfl n

theorem gfPow_eq_iterate (n : Nat) : gfPow n = gfDouble^[n] 1 := by
  induction n with
  | zero => rfl
  | succ n ih => rw [gfPow, ih, Function.iterate_succ_apply']

theorem gfPow_lt (n : Nat) : gfPow n < 256 := by
  rw [gfPow_eq_iterate]
  exact gfDouble_iterate_lt n (by decide)

/-- The generator's powers are all the elements but 0. -/
theorem exists_gfPow {v : Nat} (hv : v < 256) (hne : v ≠ 0) : ∃ p, gfPow p = v := by
  have hall : ∀ v < 256, v ≠ 0 → v ∈ List.iterate gfDouble 1 255 := by decide +kernel
  obtain ⟨p, -, hp⟩ := List.mem_iterate.mp (hall v hv hne)
  exact ⟨p, (gfPow_eq_iterate p).trans hp.symm⟩

/-! ## Products with the generator's powers -/

theorem gfMulBits_lt (n : Nat) {a : Nat} (ha : a < 256) (b : Nat) : gfMulBits n a b < 256 := by
  induction n generalizing a b with
  | zero => exact Nat.succ_pos 255
  | succ n ih =>
    refine Nat.xor_lt_two_pow (n := 8) ?_ (ih (gfDouble_lt a ha) (b / 2))
    split
    · exact ha
    · decide

theorem gfMulBits_gfDouble (n : Nat) {a : Nat} (ha : a < 256) (b : Nat) : gfMulBits n (gfDouble a) b = gfDouble (gfMulBits n a b) := by
  induction n generalizing a b with
  | zero => rfl
  | succ n ih =>
    rw [gfMulBits, gfMulBits, ih (gfDouble_lt a ha)]
    split
    · exact (gfDouble_xor ha (gfMulBits_lt n (gfDouble_lt a ha) _)).symm
    · rw [Nat.zero_xor, Nat.zero_xor]

theorem gfMul_one_left : ∀ b < 256, gfMul 1 b = b := by decide +kernel

theorem gfMul_zero_left (b : Nat) : gfMul 0 b = 0 := by
  have hbits (n b : Nat) : gfMulBits n 0 b = 0 := by
    induction n generalizing b with
    | zero => rfl
    | succ n ih => rw [gfMulBits, show gfDouble 0 = 0 from rfl, ih, ite_self, Nat.xor_self]
  exact hbits 8 b

theorem gfMul_iterate (p : Nat) {a : Nat} (ha : a < 256) (b : Nat) : gfMul (gfDouble^[p] a) b = gfDouble^[p] (gfMul a b) := by
  induction p generalizing a with
  | zero => rfl
  | succ p ih =>
    rw [Function.iterate_succ_apply, Function.iterate_succ_apply, ih (gfDouble_lt a ha)]
    exact congrArg gfDouble^[p] (gfMulBits_gfDouble 8 ha b)

/-- A product with the generator's power is as many doublings. -/
theorem gfMul_gfPow {v : Nat} (hv : v < 256) (e : Nat) : gfMul v (gfPow e) = gfDouble^[e] v := by
  by_cases hne : v = 0
  · rw [hne, gfMul_zero_left, gfDouble_iterate_zero]
  · obtain ⟨p, rfl⟩ := exists_gfPow hv hne
    rw [gfPow_eq_iterate p, gfMul_iterate p (by decide), gfMul_one_left _ (gfPow_lt e), gfPow_eq_iterate e, ← Function.iterate_add_apply,
      ← Function.iterate_add_apply, Nat.add_comm]

/-- Fewer than 36 doublings return no element but 0 to itself. -/
theorem gfDouble_iterate_ne {v : Nat} (hv : v < 256) (hne : v ≠ 0) {d : Nat} (hd : d < 36) (hpos : d ≠ 0) : gfDouble^[d] v ≠ v := by
  have hone : ∀ d < 36, d ≠ 0 → gfDouble^[d] 1 ≠ 1 := by decide +kernel
  obtain ⟨p, rfl⟩ := exists_gfPow hv hne
  intro h
  rw [gfPow_eq_iterate, ← Function.iterate_add_apply, Nat.add_comm, Function.iterate_add_apply] at h
  exact hone d hd hpos (gfDouble_iterate_injective p (gfDouble_iterate_lt d (by decide)) (by decide) h)

theorem gfDouble_iterate_index {v : Nat} (hv : v < 256) (hne : v ≠ 0) {m n : Nat} (hm : m < 36) (hn : n < 36) (h : gfDouble^[m] v = gfDouble^[n] v) :
    m = n := by
  wlog hle : m ≤ n generalizing m n
  · exact (this hn hm h.symm (Nat.le_of_not_le hle)).symm
  · by_contra hmn
    obtain ⟨d, rfl⟩ := Nat.exists_eq_add_of_le hle
    rw [Function.iterate_add_apply] at h
    exact gfDouble_iterate_ne hv hne (d := d) (by omega) (by omega) (gfDouble_iterate_injective m (gfDouble_iterate_lt d hv) hv h.symm)

/-! ## One symbol in error -/

theorem oneError_getD {i v k : Nat} (hv : v < 256) (hk : k < 4) : (oneError i v).getD k 0 = gfDouble^[k * symbolPower i] v := by
  rw [oneError, List.getD_eq_getElem?_getD, List.getElem?_map, List.getElem?_range hk]
  exact gfMul_gfPow hv _

theorem oneError_injective {i j v : Nat} (hi : i < 36) (hj : j < 36) (hv : v < 256) (hne : v ≠ 0) (h : oneError i v = oneError j v) : i = j := by
  have hone := congrArg (fun l : List Nat => l.getD 1 0) h
  simp only [oneError_getD hv (show 1 < 4 by decide), Nat.one_mul] at hone
  have hpower := gfDouble_iterate_index hv hne (by unfold symbolPower; omega) (by unfold symbolPower; omega) hone
  unfold symbolPower at hpower
  omega

theorem syndrome_zeros (k n : Nat) {a : Nat} (ha : a < 256) :
    (List.replicate n 0).foldl (fun (acc : Nat) (v : Nat) => gfMul acc (gfPow k) ^^^ v) a = gfDouble^[k * n] a := by
  induction n generalizing a with
  | zero => rfl
  | succ n ih =>
    rw [List.replicate_succ, List.foldl_cons, Nat.xor_zero, gfMul_gfPow ha, ih (gfDouble_iterate_lt k ha), ← Function.iterate_add_apply, Nat.mul_succ]

/-- A word with one symbol that is not 0. -/
def oneSymbol (i v : Nat) : List Nat := List.replicate i 0 ++ v :: List.replicate (35 - i) 0

theorem syndromes_oneSymbol (i : Nat) {v : Nat} (hv : v < 256) : syndromes (oneSymbol i v) = oneError i v := by
  refine List.map_congr_left fun k _ => ?_
  rw [syndrome, oneSymbol, List.foldl_append, syndrome_zeros k i (by decide), gfDouble_iterate_zero, List.foldl_cons, gfMul_zero_left, Nat.zero_xor,
    syndrome_zeros k _ hv, gfMul_gfPow hv]
  rfl

theorem eq_oneSymbol {flips : List Nat} (hlength : flips.length = 36) {i : Nat} (hi : i < 36) (hothers : ∀ j, j ≠ i → flips.getD j 0 = 0) :
    flips = oneSymbol i (flips.getD i 0) := by
  have hget {l : List Nat} {j : Nat} (hj : j < l.length) : l[j] = l.getD j 0 := by
    rw [List.getD_eq_getElem?_getD, List.getElem?_eq_getElem hj]
    rfl
  refine List.ext_getElem (by simp [oneSymbol, hlength]; omega) fun j hj hj' => ?_
  rw [hget hj]
  by_cases hji : j = i
  · subst hji
    simp [oneSymbol]
  · rw [hothers j hji]
    simp only [oneSymbol, List.getElem_append, List.getElem_replicate, List.getElem_cons, List.length_replicate]
    split
    · rfl
    · rw [dif_neg (by omega)]

theorem findOne_oneError {i v : Nat} (hi : i < 36) (hv : v < 256) (hne : v ≠ 0) : findOne (oneError i v) = some (i, v) := by
  have hfirst : (oneError i v).getD 0 0 = v := by
    rw [oneError_getD hv (by decide), Nat.zero_mul]
    rfl
  unfold findOne
  rw [hfirst]
  cases hfind : ((List.range 36).map (fun (i : Nat) => (i, v))).find? (fun (e : Nat × Nat) => decide (e.2 ≠ 0) && oneError e.1 e.2 = oneError i v) with
  | none =>
    have hno := List.find?_eq_none.mp hfind (i, v) (List.mem_map.mpr ⟨i, List.mem_range.mpr hi, rfl⟩)
    exact absurd (by simp [hne]) hno
  | some e =>
    obtain ⟨j, hj, rfl⟩ := List.mem_map.mp (List.mem_of_find?_eq_some hfind)
    have hsame := List.find?_some hfind
    simp only [Bool.and_eq_true, decide_eq_true_eq] at hsame
    rw [oneError_injective (List.mem_range.mp hj) hi hv hne hsame.2]

/-- One symbol in error is found and corrected (R470). -/
theorem decodeFlips_of_one {flips : List Nat} (hlength : flips.length = 36) {i : Nat} (hi : i < 36) (hothers : ∀ j, j ≠ i → flips.getD j 0 = 0)
    (hne : flips.getD i 0 ≠ 0) (hbyte : flips.getD i 0 < 256) : decodeFlips flips false = .corrected [(i, flips.getD i 0)] := by
  have hsyn : syndromes flips = oneError i (flips.getD i 0) := by
    conv_lhs => rw [eq_oneSymbol hlength hi hothers]
    exact syndromes_oneSymbol i hbyte
  have hnotClean : ¬ (oneError i (flips.getD i 0)).all (· = 0) = true := by
    intro hall
    have hfirst := List.all_eq_true.mp hall _ (List.mem_map.mpr ⟨0, by simp, rfl⟩)
    rw [gfMul_gfPow hbyte, Nat.zero_mul] at hfirst
    exact hne (by simpa using hfirst)
  have hfind := findOne_oneError hi hbyte hne
  unfold decodeFlips
  extract_lets syn unmarked
  have hs : syn = oneError i (flips.getD i 0) := hsyn
  rw [hs, if_neg hnotClean, hfind]

/-- Nothing is left of one symbol in error once it is corrected. -/
theorem leftOver_of_one {flips : List Nat} (hlength : flips.length = 36) {i : Nat} (hi : i < 36) (hothers : ∀ j, j ≠ i → flips.getD j 0 = 0) :
    ∀ j, (leftOver flips [(i, flips.getD i 0)]).getD j 0 = 0 := by
  intro j
  have hleft : leftOver flips [(i, flips.getD i 0)] = flips.set i 0 := by
    change flips.set i (flips.getD i 0 ^^^ flips.getD i 0) = _
    rw [Nat.xor_self]
  rw [hleft, List.getD_eq_getElem?_getD]
  by_cases hji : j = i
  · rw [hji, List.getElem?_set_self (by omega)]
    rfl
  · rw [List.getElem?_set_ne (Ne.symm hji), ← List.getD_eq_getElem?_getD, hothers j hji]

end Sys2Proof.Machine
end

section
/-! SUPPORT. A scrub read (R470, R471, R473). -/

namespace Sys2Proof.Machine

/-! ## Memory as a codeword is written back and poisoned (R471) -/

theorem Mem.contains_apply_write (m : Mem) (addr : Nat) (bytes : List Byte) (d : Nat) :
    (m.apply (.write addr bytes)).poison.contains d = (m.poison.contains d && !coversCodeword addr bytes.length d) := by
  rw [Bool.eq_iff_iff]
  simp [Mem.apply]

theorem Mem.contains_apply_poison (m : Mem) (c d : Nat) : (m.apply (.poison c)).poison.contains d = (decide (d = c) || m.poison.contains d) := by
  rw [Bool.eq_iff_iff]
  simp [Mem.apply]

theorem coversCodeword_whole (c d : Nat) : coversCodeword (32 * c) 32 d = decide (d = c) := by
  rw [Bool.eq_iff_iff]
  simp only [coversCodeword, Bool.and_eq_true, decide_eq_true_eq]
  omega

/-- The bytes with which a codeword is written back. -/
def Work.backBytes (s : Work) (c : Nat) (flips : List Nat) : List Byte := (xorLists (s.dataSymbols c) (flips.take 32)).map (BitVec.ofNat 8)

section
variable (s : Work) (c : Nat) {flips : List Nat} (hlength : 32 ≤ flips.length)
include hlength

theorem Work.backBytes_length : (s.backBytes c flips).length = 32 := by
  simp [Work.backBytes, xorLists, Work.dataSymbols, Work.memRead, hlength]

/-- A symbol that reads as it stands is written back as it stands. -/
theorem Work.backBytes_getD {i : Nat} (hi : i < 32) (hsame : flips.getD i 0 = 0) : (s.backBytes c flips).getD i 0 = getCell s.mem.cells (32 * c + i) := by
  have hdata : (s.dataSymbols c)[i]? = some (getCell s.mem.cells (32 * c + i)).toNat := by
    simp [Work.dataSymbols, Work.memRead, List.getElem?_range hi]
  have hflip : (flips.take 32)[i]? = some 0 := by
    rw [List.getElem?_take_of_lt hi, List.getElem?_eq_getElem (by omega)]
    rw [List.getD_eq_getElem?_getD, List.getElem?_eq_getElem (by omega)] at hsame
    exact congrArg some hsame
  rw [Work.backBytes, List.getD_eq_getElem?_getD, List.getElem?_map, xorLists, List.getElem?_zipWith, hdata, hflip]
  simp

variable {s} (hwf : s.mem.wf = true)
include hwf

theorem Work.writeBack_cell (b : Nat) (hb : b / 32 ≠ c ∨ ∃ i < 32, b = 32 * c + i ∧ flips.getD i 0 = 0) :
    getCell (s.writeBack c flips).mem.cells b = getCell s.mem.cells b := by
  have hcell := Mem.getCell_apply (.write (32 * c) (s.backBytes c flips)) b hwf
  refine hcell.trans ?_
  dsimp only
  rw [Work.backBytes_length s c hlength]
  split
  next hin =>
    obtain ⟨i, hi, rfl, hsame⟩ := hb.resolve_left (by omega)
    rw [Nat.add_sub_cancel_left]
    exact Work.backBytes_getD s c hlength hi hsame
  next => rfl

omit hwf in
theorem Work.writeBack_poison (d : Nat) : (s.writeBack c flips).mem.poison.contains d = (s.mem.poison.contains d && !decide (d = c)) := by
  have hpoison := Mem.contains_apply_write s.mem (32 * c) (s.backBytes c flips) d
  rw [Work.backBytes_length s c hlength, coversCodeword_whole] at hpoison
  exact hpoison
end

/-! ## What a controller makes of a codeword (R470) -/

section
variable {s : Work} {a : Nat} {flips : List Nat}

theorem Work.decodeCodeword_of_clean (h : decodeFlips flips (s.mem.poison.contains (a / 32)) = .clean) : s.decodeCodeword a flips = s := by
  unfold Work.decodeCodeword
  extract_lets c marked
  rw [show decodeFlips flips marked = _ from h]

/-- A codeword as its corrections leave it. -/
def Work.corrected (s : Work) (c : Nat) (left : List Nat) : Work :=
  if (left.take 32).all (· = 0) && !s.mem.poison.contains c then s else s.writeBack c left

theorem Work.decodeCodeword_of_corrected {fixes : List (Nat × Nat)} (h : decodeFlips flips (s.mem.poison.contains (a / 32)) = .corrected fixes) :
    s.decodeCodeword a flips = (((s.corrected (a / 32) (leftOver flips fixes)).add Obj.correctedSymbols fixes.length).add Obj.correctedCodewords 1).logError
      a 1 fixes.length := by
  unfold Work.decodeCodeword
  extract_lets c marked
  rw [show decodeFlips flips marked = _ from h]
  rfl

theorem Work.decodeCodeword_of_poisoned (h : decodeFlips flips (s.mem.poison.contains (a / 32)) = .poisoned) :
    s.decodeCodeword a flips = if s.dram.loggedPoison.contains (a / 32) then s
      else ((s.add Obj.poisonReads 1).logError a 4 0).notePoison (a / 32) := by
  unfold Work.decodeCodeword
  extract_lets c marked
  rw [show decodeFlips flips marked = _ from h]

/-- A codeword past correction, its data as read. -/
def Work.asRead (s : Work) (c : Nat) (flips : List Nat) : Work := if (flips.take 32).all (· = 0) then s else s.writeBack c flips

theorem Work.decodeCodeword_of_uncorrectable (h : decodeFlips flips (s.mem.poison.contains (a / 32)) = .uncorrectable) :
    s.decodeCodeword a flips = (s.asRead (a / 32) flips).uncorrectable a 3 := by
  unfold Work.decodeCodeword
  extract_lets c marked
  rw [show decodeFlips flips marked = _ from h]
  rfl
end

/-- A codeword is left as it stands, or is written back. -/
def Work.maybeBack (s u : Work) (c : Nat) (flips : List Nat) : Prop := u = s ∨ u = s.writeBack c flips

theorem Work.corrected_back (s : Work) (c : Nat) (left : List Nat) : s.maybeBack (s.corrected c left) c left := by
  unfold Work.corrected
  split
  · exact .inl rfl
  · exact .inr rfl

theorem Work.asRead_back (s : Work) (c : Nat) (flips : List Nat) : s.maybeBack (s.asRead c flips) c flips := by
  unfold Work.asRead
  split
  · exact .inl rfl
  · exact .inr rfl

namespace Work.maybeBack
section
variable {s u : Work} {c : Nat} {flips : List Nat} (h : s.maybeBack u c flips)
include h

theorem rest : ∃ m ws, u = { s with mem := m, writes := ws } := by
  rcases h with rfl | rfl
  · exact ⟨_, _, rfl⟩
  · exact ⟨_, _, rfl⟩

theorem get (k : Key) : u.get k = s.get k := by
  obtain ⟨m, ws, rfl⟩ := h.rest
  rfl

theorem rel : u.rel = s.rel := by
  obtain ⟨m, ws, rfl⟩ := h.rest
  rfl

theorem cell (hlength : 32 ≤ flips.length) (hwf : s.mem.wf = true) (b : Nat) (hb : b / 32 ≠ c ∨ ∃ i < 32, b = 32 * c + i ∧ flips.getD i 0 = 0) :
    getCell u.mem.cells b = getCell s.mem.cells b := by
  rcases h with rfl | rfl
  · rfl
  · exact Work.writeBack_cell c hlength hwf b hb

theorem poison (hlength : 32 ≤ flips.length) {d : Nat} (hd : d ≠ c) : u.mem.poison.contains d = s.mem.poison.contains d := by
  rcases h with rfl | rfl
  · rfl
  · rw [Work.writeBack_poison c hlength, decide_eq_false hd, Bool.not_false, Bool.and_true]

theorem keeps {s₀ : State} {parts : List StatePart} {keys : Key → Prop} (hkeeps : s₀.keeps s parts keys) (hmem : StatePart.mem ∈ parts) :
    s₀.keeps u parts keys := by
  rcases h with rfl | rfl
  · exact hkeeps
  · exact hkeeps.memOp hmem _
end
end Work.maybeBack

theorem Work.corrected_poison (s : Work) (c : Nat) {left : List Nat} (hlength : 32 ≤ left.length) : (s.corrected c left).mem.poison.contains c = false := by
  unfold Work.corrected
  split
  next h => simpa using (Bool.and_eq_true_iff.mp h).2
  next => rw [Work.writeBack_poison c hlength, decide_eq_true rfl, Bool.not_true, Bool.and_false]

end Sys2Proof.Machine
end

section
/-! SUPPORT. SCRUB_READ from end to end (R470, R473). -/

namespace Sys2Proof.Machine

/-! ## Memory that follows its changes -/

/-- A work's memory is what its changes make of another. -/
def Work.follows (u : Work) (m : Mem) : Prop := u.mem = m.applyAll u.writes

theorem State.work_follows (s : State) : s.work.follows s.mem := rfl

theorem Work.follows.memOp {u : Work} {m : Mem} (h : u.follows m) (o : MemOp) : (u.memOp o).follows m := by
  change u.mem.apply o = m.applyAll (u.writes ++ [o])
  rw [Mem.applyAll_append, ← h]
  rfl

theorem Work.follows.of_eq {u v : Work} {m : Mem} (h : u.follows m) (hmem : v.mem = u.mem) (hwrites : v.writes = u.writes) : v.follows m := by
  rw [Work.follows, hmem, hwrites]
  exact h

theorem Work.maybeBack.follows {s u : Work} {c : Nat} {flips : List Nat} {m : Mem} (h : s.maybeBack u c flips) (hs : s.follows m) : u.follows m := by
  rcases h with rfl | rfl
  · exact hs
  · exact hs.memOp _

theorem State.run_mem_of_follows {s : State} {f : Work → Work} (h : (f s.work).follows s.mem) : (s.run f).mem = (f s.work).mem := by
  rw [State.run_mem]
  exact h.symm

/-! ## What a scrub read does besides (R473) -/

/-- What the progress of a pass moves. -/
def progressKey (k : Key) : Prop := k = Obj.scrubNow ∨ k = Obj.scrubProgress ∨ k = Obj.scrubPasses

/-- The pass goes on by one codeword, and may end. -/
def Work.scrubbed (s : Work) (stack : Nat) (passEnd : Bool) (perMille : Nat) : Work :=
  let s := s.set Obj.scrubProgress (min perMille 1000)
  let s := if s.cmdBusy Obj.scrubNow then s.cmdTo Obj.scrubNow 2 (min (perMille / 10) 100) else s
  if !passEnd then s
  else
    let finished := addPoison s.dram.scrubDone stack
    if finished.length < 12 then { s with dram := { s.dram with scrubDone := finished } }
    else
      let s := { s with dram := { s.dram with scrubDone := [] } }
      let s := (s.add Obj.scrubPasses 1).set Obj.scrubProgress 0
      if s.cmdBusy Obj.scrubNow then s.cmdEnd Obj.scrubNow 3 0 else s

theorem Work.scrubRead_of_runs {s : Work} (hoff : s.dram.off = false) (hself : s.dram.selfRefresh = false)
    (hruns : s.get Obj.scrubEnable ≠ 0 ∨ s.cmdBusy Obj.scrubNow = true) (stack a : Nat) (syn : List Byte) (passEnd : Bool) (perMille : Nat) :
    s.scrubRead stack a syn passEnd perMille = (s.decodeCodeword a (syn.map BitVec.toNat)).scrubbed stack passEnd perMille := by
  refine if_neg ?_
  rw [hoff, hself]
  rcases hruns with h | h
  · simp [h]
  · simp [h]

/-- The second work has the memory, the records and the values of the first, but for a pass's progress. -/
structure Work.progressOnly (s t : Work) : Prop where
  mem : t.mem = s.mem
  writes : t.writes = s.writes
  rel : t.rel = s.rel
  get : ∀ k, ¬ progressKey k → t.get k = s.get k

namespace Work.progressOnly

theorem refl (s : Work) : s.progressOnly s := ⟨rfl, rfl, rfl, fun _ _ => rfl⟩

section
variable {s t : Work} (h : s.progressOnly t)
include h

theorem set {k : Key} (hk : progressKey k) (v : Nat) : s.progressOnly (t.set k v) :=
  ⟨h.mem, h.writes, h.rel, fun q hq => ((Work.set_get _ _ _ _).trans (if_neg (by rintro rfl; exact hq hk))).trans (h.get q hq)⟩

theorem dram (x : StackState) : s.progressOnly { t with dram := x } := ⟨h.mem, h.writes, h.rel, h.get⟩

theorem cmdEnd {k : Key} (hk : progressKey k) (st res : Nat) : s.progressOnly (t.cmdEnd k st res) := by
  obtain ⟨os, -, hend⟩ := t.cmdEnd_spec k st res
  obtain ⟨hmem, hwrites, hrel, hget⟩ := h.set hk (progressWord st (t.cmdSource k) (if st = 3 then 100 else field (t.get k) 15 8) res)
  rw [hend]
  exact ⟨hmem, hwrites, hrel, hget⟩
end
end Work.progressOnly

theorem Work.scrubbed_only (s : Work) (stack : Nat) (passEnd : Bool) (perMille : Nat) : s.progressOnly (s.scrubbed stack passEnd perMille) := by
  unfold Work.scrubbed
  extract_lets noted shown finished record restarted counted
  have hshown : s.progressOnly shown := by
    unfold shown
    split
    · exact ((Work.progressOnly.refl s).set (.inr (.inl rfl)) _).set (.inl rfl) _
    · exact (Work.progressOnly.refl s).set (.inr (.inl rfl)) _
  clear_value shown
  split
  · exact hshown
  · split
    · exact hshown.dram _
    · have hcounted : s.progressOnly counted := ((hshown.dram _).set (.inr (.inr rfl)) _).set (.inr (.inl rfl)) 0
      split
      · exact hcounted.cmdEnd (.inl rfl) 3 0
      · exact hcounted

theorem State.keeps.scrubbed {s : State} {w : Work} {parts : List StatePart} {keys : Key → Prop} (h : s.keeps w parts keys)
    (hdram : StatePart.dram ∈ parts) (hkeys : ∀ k, progressKey k → keys k) (stack : Nat) (passEnd : Bool) (perMille : Nat) :
    s.keeps (w.scrubbed stack passEnd perMille) parts keys := by
  unfold Work.scrubbed
  extract_lets noted shown finished record restarted counted
  have hshown : s.keeps shown parts keys := by
    unfold shown
    split
    · exact (h.set (hkeys _ (.inr (.inl rfl))) _).set (hkeys _ (.inl rfl)) _
    · exact h.set (hkeys _ (.inr (.inl rfl))) _
  clear_value shown
  split
  · exact hshown
  · split
    · exact hshown.dram hdram _
    · have hcounted : s.keeps counted parts keys := ((hshown.dram hdram _).add (hkeys _ (.inr (.inr rfl))) 1).set (hkeys _ (.inr (.inl rfl))) 0
      split
      · exact hcounted.cmdEnd (hkeys _ (.inl rfl)) 3 0
      · exact hcounted

theorem Work.scrubbed_progress (s : Work) (stack perMille : Nat) : (s.scrubbed stack false perMille).get Obj.scrubProgress = min perMille 1000 := by
  have hnoted : (s.set Obj.scrubProgress (min perMille 1000)).get Obj.scrubProgress = min perMille 1000 := (Work.set_get _ _ _ _).trans (if_pos rfl)
  unfold Work.scrubbed
  extract_lets noted shown
  rw [if_pos (by rfl)]
  unfold shown
  split
  · exact (Work.set_get _ _ _ _).trans ((if_neg (by decide)).trans hnoted)
  · exact hnoted

/-! ## An uncorrectable codeword (R470, R474) -/

/-- A codeword stored poisoned, with the record of it but for FAULT_LOG's. -/
def Work.lostCodeword (s : Work) (a : Nat) : Work :=
  (((s.poisonCodeword (a / 32)).add Obj.uncorrectable 1).logError a 3 0xFF).notePoison (a / 32)

theorem Work.uncorrectable_eq (s : Work) (a : Nat) : s.uncorrectable a 3 =
    (s.lostCodeword a).log 2 0x0044 6 0xFF (addrStack a) 0xFFFF ((s.lostCodeword a).dram.regionOf a) := rfl

theorem Work.uncorrectable_spec (s : Work) (a : Nat) : ∃ x : LogRec, x.code = 0x0044 ∧ (s.uncorrectable a 3).rel.pendingLog = s.rel.pendingLog ++ [x] ∧
    (s.uncorrectable a 3).mem = s.mem.apply (.poison (a / 32)) ∧ (s.uncorrectable a 3).writes = s.writes ++ [.poison (a / 32)] ∧
    (s.uncorrectable a 3).get Obj.uncorrectable = countPast Obj.uncorrectable (s.get Obj.uncorrectable + 1) := by
  obtain ⟨x, os, hlog, hcode, -⟩ := (s.lostCodeword a).log_of_no_attention (severity := 2) (code := 0x0044) 6 0xFF (addrStack a) 0xFFFF
    ((s.lostCodeword a).dram.regionOf a) (by decide) (by decide)
  rw [Work.uncorrectable_eq, hlog]
  refine ⟨x, hcode, rfl, rfl, rfl, ?_⟩
  refine (Work.add_get _ _ _ _).trans ((if_pos rfl).trans (congrArg (fun n => countPast Obj.uncorrectable (n + 1)) ?_))
  exact (Work.add_get _ _ _ _).trans (if_neg (by decide))

/-- What a scrub read may move of the objects. -/
def scrubKey (k : Key) : Prop :=
  k = Obj.scrubNow ∨ k = Obj.scrubProgress ∨ k = Obj.scrubPasses ∨ k = Obj.correctedSymbols ∨ k = Obj.correctedCodewords ∨ k = Obj.uncorrectable ∨
    k = Obj.poisonWrites ∨ k = Obj.poisonReads ∨ linkCounter k

theorem scrubKey_of_progressKey {k : Key} (h : progressKey k) : scrubKey k := by
  rcases h with h | h | h
  · exact .inl h
  · exact .inr (.inl h)
  · exact .inr (.inr (.inl h))

theorem State.keeps_decodeCodeword (s : State) (a : Nat) (flips : List Nat) : s.keeps (s.work.decodeCodeword a flips) [.mem, .dram, .rel, .links] scrubKey := by
  have hsame : s.keeps s.work [.mem, .dram, .rel, .links] scrubKey := s.keeps_work _ _
  cases hdecode : decodeFlips flips (s.work.mem.poison.contains (a / 32)) with
  | clean => rw [Work.decodeCodeword_of_clean hdecode]; exact hsame
  | corrected fixes =>
    rw [Work.decodeCodeword_of_corrected hdecode]
    exact ((((s.work.corrected_back _ _).keeps hsame (by simp)).add (by simp [scrubKey]) _).add (by simp [scrubKey]) _).dram (by simp) _
  | poisoned =>
    rw [Work.decodeCodeword_of_poisoned hdecode]
    split
    · exact hsame
    · exact ((hsame.add (by simp [scrubKey]) 1).dram (by simp) _).dram (by simp) _
  | uncorrectable =>
    rw [Work.decodeCodeword_of_uncorrectable hdecode, Work.uncorrectable_eq]
    have hback := (s.work.asRead_back (a / 32) flips).keeps hsame (by simp)
    have hstored := ((hback.memOp (by simp) (.poison (a / 32))).add (k := Obj.poisonWrites) (by simp [scrubKey]) 1).add (k := Obj.uncorrectable) (by simp [scrubKey]) 1
    exact ((hstored.dram (by simp) _).dram (by simp) _).log_of_no_attention (by simp) (by decide) ..

theorem Work.decodeCodeword_follows {s : Work} {m : Mem} (h : s.follows m) (a : Nat) (flips : List Nat) : (s.decodeCodeword a flips).follows m := by
  cases hdecode : decodeFlips flips (s.mem.poison.contains (a / 32)) with
  | clean => rw [Work.decodeCodeword_of_clean hdecode]; exact h
  | corrected fixes =>
    rw [Work.decodeCodeword_of_corrected hdecode]
    exact ((s.corrected_back _ _).follows h).of_eq rfl rfl
  | poisoned =>
    rw [Work.decodeCodeword_of_poisoned hdecode]
    split
    · exact h
    · exact h.of_eq rfl rfl
  | uncorrectable =>
    rw [Work.decodeCodeword_of_uncorrectable hdecode]
    obtain ⟨-, -, -, hmem, hwrites, -⟩ := (s.asRead (a / 32) flips).uncorrectable_spec a
    exact (((s.asRead_back _ _).follows h).memOp (.poison (a / 32))).of_eq hmem hwrites

theorem leftOver_length (flips : List Nat) (fixes : List (Nat × Nat)) : (leftOver flips fixes).length = flips.length := by
  induction fixes generalizing flips with
  | nil => rfl
  | cons e fixes ih => exact (ih _).trans (List.length_set ..)

/-- A scrub read leaves the other codewords as they are. -/
theorem Work.decodeCodeword_others {s : Work} {a : Nat} {flips : List Nat} (hlength : 32 ≤ flips.length) (hwf : s.mem.wf = true) :
    (∀ b, b / 32 ≠ a / 32 → getCell (s.decodeCodeword a flips).mem.cells b = getCell s.mem.cells b) ∧
      ∀ d, d ≠ a / 32 → (s.decodeCodeword a flips).mem.poison.contains d = s.mem.poison.contains d := by
  cases hdecode : decodeFlips flips (s.mem.poison.contains (a / 32)) with
  | clean => rw [Work.decodeCodeword_of_clean hdecode]; exact ⟨fun _ _ => rfl, fun _ _ => rfl⟩
  | corrected fixes =>
    rw [Work.decodeCodeword_of_corrected hdecode]
    have hback := s.corrected_back (a / 32) (leftOver flips fixes)
    have hleft : 32 ≤ (leftOver flips fixes).length := by rw [leftOver_length]; exact hlength
    exact ⟨fun b hb => hback.cell hleft hwf b (.inl hb), fun d hd => hback.poison hleft hd⟩
  | poisoned =>
    rw [Work.decodeCodeword_of_poisoned hdecode]
    split
    · exact ⟨fun _ _ => rfl, fun _ _ => rfl⟩
    · exact ⟨fun _ _ => rfl, fun _ _ => rfl⟩
  | uncorrectable =>
    rw [Work.decodeCodeword_of_uncorrectable hdecode]
    have hback := s.asRead_back (a / 32) flips
    obtain ⟨-, -, -, hmem, -, -⟩ := (s.asRead (a / 32) flips).uncorrectable_spec a
    rw [hmem]
    refine ⟨fun b hb => hback.cell hlength hwf b (.inl hb), fun d hd => ?_⟩
    rw [Mem.contains_apply_poison, decide_eq_false hd, Bool.false_or]
    exact hback.poison hlength hd

end Sys2Proof.Machine
end

section
/-! SUPPORT. The outcomes of SCRUB_READ (R470, R473). -/

namespace Sys2Proof.Machine

/-- A codeword is read, and the pass goes on. -/
def Work.scrubStep (s : Work) (stack a : Nat) (flips : List Nat) (last : Bool) (pm : Nat) : Work := (s.decodeCodeword a flips).scrubbed stack last pm

section
variable (s : State) (stack a : Nat) (flips : List Nat) (last : Bool) (pm : Nat)

theorem State.scrub_mem : (s.run (·.scrubStep stack a flips last pm)).mem = (s.work.decodeCodeword a flips).mem := by
  have honly := (s.work.decodeCodeword a flips).scrubbed_only stack last pm
  have hfollows : (s.work.scrubStep stack a flips last pm).follows s.mem :=
    (Work.decodeCodeword_follows s.work_follows a flips).of_eq honly.mem honly.writes
  exact (State.run_mem_of_follows (f := (·.scrubStep stack a flips last pm)) hfollows).trans honly.mem

theorem State.scrub_byteAt (b : Nat) : (s.run (·.scrubStep stack a flips last pm)).byteAt b = getCell (s.work.decodeCodeword a flips).mem.cells b := by
  rw [State.byteAt, State.scrub_mem]

theorem State.scrub_poisonedAt (d : Nat) :
    (s.run (·.scrubStep stack a flips last pm)).poisonedAt d = (s.work.decodeCodeword a flips).mem.poison.contains d := by
  rw [State.poisonedAt, State.scrub_mem]

theorem State.scrub_get {k : Key} (hk : ¬ progressKey k) : (s.work.scrubStep stack a flips last pm).get k = (s.work.decodeCodeword a flips).get k :=
  ((s.work.decodeCodeword a flips).scrubbed_only stack last pm).get k hk

theorem State.scrub_val {k : Key} (hlink : ¬ linkCounter k) (hk : ¬ progressKey k) :
    (s.run (·.scrubStep stack a flips last pm)).val k = (s.work.decodeCodeword a flips).get k :=
  (State.run_val _ _ _ hlink).trans (State.scrub_get s stack a flips last pm hk)

/-- What the decoding counts is counted. -/
theorem State.scrub_counted {k : Key} {n : Nat} (hlink : ¬ linkCounter k) (hk : ¬ progressKey k)
    (h : (s.work.decodeCodeword a flips).get k = countPast k (s.work.get k + n)) : s.counted (s.run (·.scrubStep stack a flips last pm)) k n :=
  State.run_counted hlink (Work.counted_of_get_eq ((State.scrub_get s stack a flips last pm hk).trans h))

theorem State.scrub_frame : s.frame (s.run (·.scrubStep stack a flips last pm)) [.mem, .dram, .rel, .links] scrubKey :=
  State.keeps.frame (f := (·.scrubStep stack a flips last pm)) ((s.keeps_decodeCodeword a flips).scrubbed (by simp) (fun _ => scrubKey_of_progressKey) stack last pm) (by simp)
    fun _ hk => by simp [scrubKey, hk]
end

section
variable {s : State} {stack a : Nat} {syn : List Byte} (hstack : stack < 12) (hvalid : addrValid a = true) (hat : addrStack a = stack)
  (hlength : syn.length = 36)
include hstack hvalid hat hlength

theorem State.exec_scrubRead (last : Bool) (pm : Nat) :
    exec (.scrubRead stack a syn last pm) s = s.next (fun w => w.inside (0x88 + stack) (fun w => w.scrubChecked stack a syn last pm)) :=
  State.nextIf_true (by simp [hstack, hvalid, hat, hlength])

theorem State.scrubRead_of_open (hoff : s.dev.dram.off = false) (hself : s.dev.dram.selfRefresh = false)
    (hruns : s.val Obj.scrubEnable ≠ 0 ∨ s.work.cmdBusy Obj.scrubNow = true) (hsystem : s.dev.dram.regionOf a ≠ 1)
    (hscratch : ¬ (s.dev.dram.regionOf a = 3 ∧ s.work.isManager = true)) (hopen : s.work.islandOpen (0x88 + stack) = true) (last : Bool) (pm : Nat) :
    exec (.scrubRead stack a syn last pm) s = .next (s.run (·.scrubStep stack a (syn.map BitVec.toNat) last pm)) := by
  have hchecked : s.work.scrubChecked stack a syn last pm = s.work.scrubRead stack a syn last pm := by
    unfold Work.scrubChecked
    extract_lets read region
    exact if_neg fun h => h.1.elim hsystem hscratch
  rw [State.exec_scrubRead hstack hvalid hat hlength]
  refine congrArg Host.Outcome.next (State.run_congr ((if_pos hopen).trans (hchecked.trans ?_)))
  exact Work.scrubRead_of_runs hoff hself hruns stack a syn last pm
end

/-! ## The outcomes -/

section
variable {s : State} {a : Nat} {flips : List Nat} (stack : Nat) (last : Bool) (pm : Nat)

theorem State.scrub_clean (h : decodeFlips flips (s.poisonedAt (a / 32)) = .clean) :
    (s.run (·.scrubStep stack a flips last pm)).mem = s.mem ∧
      (s.run (·.scrubStep stack a flips last pm)).val Obj.correctedSymbols = s.val Obj.correctedSymbols := by
  have hwork : s.work.decodeCodeword a flips = s.work := Work.decodeCodeword_of_clean h
  rw [State.scrub_mem, State.scrub_val _ _ _ _ _ _ (by simp [linkCounter]) (by simp [progressKey]), hwork]
  exact ⟨rfl, rfl⟩

theorem State.scrub_poisoned (h : decodeFlips flips (s.poisonedAt (a / 32)) = .poisoned) :
    (s.run (·.scrubStep stack a flips last pm)).mem = s.mem ∧
      (s.run (·.scrubStep stack a flips last pm)).val Obj.correctedSymbols = s.val Obj.correctedSymbols ∧
      (s.dev.dram.loggedPoison.contains (a / 32) = false → s.counted (s.run (·.scrubStep stack a flips last pm)) Obj.poisonReads 1) := by
  have hwork : s.work.decodeCodeword a flips = _ := Work.decodeCodeword_of_poisoned h
  refine ⟨?_, ?_, fun hnew => State.scrub_counted _ _ _ _ _ _ (by simp [linkCounter]) (by simp [progressKey]) ?_⟩
  · rw [State.scrub_mem, hwork]
    split
    · rfl
    · rfl
  · rw [State.scrub_val _ _ _ _ _ _ (by simp [linkCounter]) (by simp [progressKey]), hwork]
    split
    · rfl
    · exact (Work.add_get _ _ _ _).trans (if_neg (by decide))
  · have hcontains : s.work.dram.loggedPoison.contains (a / 32) = false := hnew
    rw [hwork, if_neg (by rw [hcontains]; exact Bool.false_ne_true)]
    exact (Work.add_get _ _ _ _).trans (if_pos rfl)

/-- The counts of corrections. -/
theorem State.scrub_corrections {fixes : List (Nat × Nat)} (h : decodeFlips flips (s.poisonedAt (a / 32)) = .corrected fixes) :
    s.counted (s.run (·.scrubStep stack a flips last pm)) Obj.correctedSymbols fixes.length ∧
      s.counted (s.run (·.scrubStep stack a flips last pm)) Obj.correctedCodewords 1 := by
  have hwork : s.work.decodeCodeword a flips = _ := Work.decodeCodeword_of_corrected h
  have hget := (s.work.corrected_back (a / 32) (leftOver flips fixes)).get
  refine ⟨State.scrub_counted _ _ _ _ _ _ (by simp [linkCounter]) (by simp [progressKey]) ?_,
    State.scrub_counted _ _ _ _ _ _ (by simp [linkCounter]) (by simp [progressKey]) ?_⟩
  · rw [hwork, ← hget]
    exact (Work.add_get _ _ _ _).trans ((if_neg (by decide)).trans ((Work.add_get _ _ _ _).trans (if_pos rfl)))
  · rw [hwork, ← hget]
    refine (Work.add_get _ _ _ _).trans ((if_pos rfl).trans (congrArg (fun n => countPast Obj.correctedCodewords (n + 1)) ?_))
    exact (Work.add_get _ _ _ _).trans (if_neg (by decide))

section
variable (hlength : flips.length = 36) (hwf : s.mem.wf = true)
include hlength hwf

theorem State.scrub_corrected {fixes : List (Nat × Nat)} (h : decodeFlips flips (s.poisonedAt (a / 32)) = .corrected fixes) :
    (s.run (·.scrubStep stack a flips last pm)).poisonedAt (a / 32) = false ∧ ∀ i, i < 32 → (leftOver flips fixes).getD i 0 = 0 →
      (s.run (·.scrubStep stack a flips last pm)).byteAt (32 * (a / 32) + i) = s.byteAt (32 * (a / 32) + i) := by
  have hwork : s.work.decodeCodeword a flips = _ := Work.decodeCodeword_of_corrected h
  have hleft : 32 ≤ (leftOver flips fixes).length := by
    rw [leftOver_length, hlength]
    decide
  refine ⟨?_, fun i hi hsame => ?_⟩
  · rw [State.scrub_poisonedAt, hwork]
    exact s.work.corrected_poison (a / 32) hleft
  · rw [State.scrub_byteAt, hwork]
    exact (s.work.corrected_back (a / 32) (leftOver flips fixes)).cell hleft hwf _ (.inr ⟨i, hi, rfl, hsame⟩)

theorem State.scrub_uncorrectable (h : decodeFlips flips (s.poisonedAt (a / 32)) = .uncorrectable) :
    (s.run (·.scrubStep stack a flips last pm)).poisonedAt (a / 32) = true ∧ s.counted (s.run (·.scrubStep stack a flips last pm)) Obj.uncorrectable 1 ∧
      (∃ x, (s.run (·.scrubStep stack a flips last pm)).dev.rel.pendingLog = s.dev.rel.pendingLog ++ [x] ∧ x.code = 0x0044) ∧
      ∀ i, i < 32 → flips.getD i 0 = 0 → (s.run (·.scrubStep stack a flips last pm)).byteAt (32 * (a / 32) + i) = s.byteAt (32 * (a / 32) + i) := by
  have hwork : s.work.decodeCodeword a flips = _ := Work.decodeCodeword_of_uncorrectable h
  have hback := s.work.asRead_back (a / 32) flips
  obtain ⟨x, hcode, hlog, hmem, -, hcount⟩ := (s.work.asRead (a / 32) flips).uncorrectable_spec a
  refine ⟨?_, State.scrub_counted _ _ _ _ _ _ (by simp [linkCounter]) (by simp [progressKey]) ?_, ⟨x, ?_, hcode⟩, fun i hi hsame => ?_⟩
  · rw [State.scrub_poisonedAt, hwork, hmem, Mem.contains_apply_poison, decide_eq_true rfl, Bool.true_or]
  · rw [hwork, hcount, hback.get]
  · rw [State.run_rel]
    refine (congrArg RelState.pendingLog ((s.work.decodeCodeword a flips).scrubbed_only stack last pm).rel).trans ?_
    rw [hwork, hlog, hback.rel]
    rfl
  · rw [State.scrub_byteAt, hwork, hmem]
    exact hback.cell (by omega) hwf _ (.inr ⟨i, hi, rfl, hsame⟩)

/-- One symbol in error is corrected, with every byte as it was. -/
theorem State.scrub_one {i : Nat} (hi : i < 36) (hclean : s.poisonedAt (a / 32) = false) (hothers : ∀ j, j ≠ i → flips.getD j 0 = 0)
    (hne : flips.getD i 0 ≠ 0) (hbyte : flips.getD i 0 < 256) :
    (∀ b, (s.run (·.scrubStep stack a flips last pm)).byteAt b = s.byteAt b) ∧
      s.counted (s.run (·.scrubStep stack a flips last pm)) Obj.correctedSymbols 1 ∧
      s.counted (s.run (·.scrubStep stack a flips last pm)) Obj.correctedCodewords 1 := by
  have hdecode : decodeFlips flips (s.poisonedAt (a / 32)) = .corrected [(i, flips.getD i 0)] := by
    rw [hclean]
    exact decodeFlips_of_one hlength hi hothers hne hbyte
  refine ⟨fun b => ?_, State.scrub_corrections stack last pm hdecode⟩
  by_cases hb : b / 32 = a / 32
  · have hoffset : b = 32 * (a / 32) + b % 32 := by omega
    rw [hoffset]
    exact (State.scrub_corrected stack last pm hlength hwf hdecode).2 _ (Nat.mod_lt _ (by decide)) (leftOver_of_one hlength hi hothers _)
  · rw [State.scrub_byteAt]
    exact (Work.decodeCodeword_others (s := s.work) (by omega) hwf).1 b hb
end
end

/-- Settles O21: what is read of the codeword is decoded, and each outcome has its lemma; the pass's progress is the rest. -/
theorem scrubCorrectsOrPoisons : Obligations.ScrubCorrectsOrPoisons := by
  unfold Obligations.ScrubCorrectsOrPoisons
  intro s stack a syn last pm hstack hvalid hat hlength hwf hoff hself hruns hsystem hscratch
  refine ⟨fun hshut => State.inside_unchanged (State.exec_scrubRead hstack hvalid hat hlength last pm) (.inl hshut), fun hopen => ?_⟩
  have hflips : (syn.map BitVec.toNat).length = 36 := (List.length_map _).trans hlength
  have hbyte (i : Nat) (hi : i < 36) : (syn.map BitVec.toNat).getD i 0 < 256 := by
    rw [List.getD_eq_getElem?_getD, List.getElem?_map, List.getElem?_eq_getElem (by omega)]
    exact BitVec.isLt _
  obtain ⟨hcells, hpoison⟩ := Work.decodeCodeword_others (s := s.work) (a := a) (flips := syn.map BitVec.toNat) (by omega) hwf
  refine ⟨_, State.scrubRead_of_open hstack hvalid hat hlength hoff hself hruns hsystem hscratch hopen last pm, ⟨?_, fun i hi hclean hothers hne => ?_,
    fun b hb => ?_, fun d hd => ?_⟩, fun hlast => ?_, State.scrub_frame s stack a _ last pm⟩
  · split
    next h => exact State.scrub_clean stack last pm h
    next fixes h =>
      obtain ⟨hsymbols, hcodewords⟩ := State.scrub_corrections stack last pm h
      exact ⟨hsymbols, hcodewords, State.scrub_corrected stack last pm hflips hwf h⟩
    next h => exact State.scrub_poisoned stack last pm h
    next h => exact State.scrub_uncorrectable stack last pm hflips hwf h
  · exact State.scrub_one stack last pm hflips hwf hi hclean hothers hne (hbyte i hi)
  · rw [State.scrub_byteAt]
    exact hcells b hb
  · rw [State.scrub_poisonedAt]
    exact hpoison d hd
  · rw [State.run_val _ _ _ (by simp [linkCounter]), hlast]
    exact Work.scrubbed_progress _ stack pm

end Sys2Proof.Machine
end
